-- ==== Sys2Proof/Word.lean ====
section
/-! DEFINITION. The word types of the Zorou: bytes, the register widths of the manual, and byte strings. -/

namespace Sys2Proof

/-- Eight bits (00, "Numbers, units and names"). -/
abbrev Byte := BitVec 8
abbrev W16 := BitVec 16
abbrev W32 := BitVec 32
abbrev W64 := BitVec 64

/-- A run of bytes in ascending address order (R6). -/
abbrev Bytes := List Byte

/-- One Loom vector register: 256 lanes of 32 bits, lane 0 first (Table 6.1). -/
abbrev Lanes := List W32

/-- A sparse table by number, in rising order of its keys. -/
abbrev Table (α : Type) := List (Nat × α)

end Sys2Proof
end

