-- ==== Sys2Proof/Syntax.lean ====
section
/-! DEFINITION. The commands of the block: one constructor of `Instr` for each row of spec/opcode_table.json, with the
operands the row's event or operation needs, and the records those operands use. -/

namespace Sys2Proof

/-- The fields of a Loom instruction (Tables 6.2 and 6.3), those of all four formats together. -/
structure LoomFields where
  /-- MASK [55:52]. -/
  mask : BitVec 4 := 0
  /-- RC [51:48], a rounding control (Table 3.9). -/
  rc : BitVec 4 := 0
  /-- D [47:42], the destination (for stores the source). -/
  d : BitVec 6 := 0
  /-- A [41:36]. -/
  a : BitVec 6 := 0
  /-- B, formats R and B. -/
  b : BitVec 6 := 0
  /-- C, format R. -/
  c : BitVec 6 := 0
  /-- TY, formats R and I (Table 6.4). -/
  ty : BitVec 3 := 0
  /-- AS: A names a scalar that is broadcast. -/
  as : Bool := false
  /-- BS: B names a scalar that is broadcast. -/
  bs : Bool := false
  /-- SM: the mask register that takes the SAT_HIT lanes. -/
  sm : BitVec 4 := 0
  /-- IMM, format I. -/
  imm : BitVec 32 := 0
  /-- X, format M. -/
  x : BitVec 6 := 0
  /-- F, format M. -/
  f : BitVec 6 := 0
  /-- OFF, format M, signed. -/
  off : BitVec 20 := 0
  /-- TARGET, format B. -/
  target : BitVec 14 := 0
deriving DecidableEq, Repr

/-- An operation named by its ring and sequence number. -/
structure OpName where
  ring : Nat
  seq : W32
deriving DecidableEq, Repr

/-- How words arrive over the mesh (R28): without error, with errors that the destination corrects, or with an uncorrectable
word. -/
inductive Transit where
  | clean | corrected | uncorrectable
deriving DecidableEq, Repr

/-- The outcome of training one fabric port (R307, R314, R316): the physical lanes 0 to 16 that failed in each direction, as
bit masks, whether it trained at 64 GBd, and what the peer's LINK_INIT reported. -/
structure PortTrain where
  rxBad : Nat := 0
  txBad : Nat := 0
  fast : Bool := true
  /-- VERSION of the peer: 0 none, 1 Nolar, 2 Zorou. -/
  peerVersion : Nat := 0
  peerIdent : W64 := 0
  peerCoord : W16 := 0
  peerPort : Nat := 0
  peerDir : Nat := 7
deriving DecidableEq, Repr

/-- Rows and columns of one SRAM macro that need spares (R333). `tile` is the physical tile: die × 32 + 3 × physical hamlet +
SLOT, or the number of a commons tile. -/
structure MacroRepair where
  tile : Nat
  macroNo : Nat
  rows : Nat
  cols : Nat
deriving DecidableEq, Repr

/-- What the end of a bring-up phase has found (R401, R407): the units that failed their test, and what trained. -/
structure Findings where
  /-- Phases A to C: the 100 MHz reference is present and within its limits (R442). -/
  reference : Bool := true
  /-- Phase A: the speed in GT/s and the width at which the host link first trains (R422). -/
  link : Nat × Nat := (64, 8)
  /-- Phase B: the preferred image, and the other committed one, pass the checks of the ROM (R391). -/
  imageOk : Bool := true
  otherOk : Bool := true
  /-- Phase D: physical hamlets (die, p) and B- or Q-tiles found bad. -/
  hamlets : List (Nat × Nat) := []
  tiles : List Nat := []
  /-- Phase D: rows and columns found bad in SRAM macros (R333). -/
  macros : List MacroRepair := []
  /-- Phase D: working decoder cores lost, (cluster 0 to 7, bad cores). -/
  decoders : List (Nat × Nat) := []
  /-- Phases B and D: bad Iabor cores of each die, (die, bad cores). -/
  iabor : List (Nat × Nat) := []
  /-- Phase E: bridge gateways that failed training. -/
  gateways : List Nat := []
  /-- Phase F: the rate in Gbit/s at which a controller (0 to 23) trained when it is below 48; 0 for none. -/
  gddr : List (Nat × Nat) := []
  /-- Phase G: controllers that failed the test. -/
  gddrBad : List Nat := []
  /-- Phase H: each fabric port's training, in port order, and each stream port's trained lanes, bit k for lane k. -/
  ports : List PortTrain := []
  streams : List Nat := []
  /-- Phase H: the device time of the parent at the first lock, where a parent was found (R323). -/
  parentTime : Option Nat := none
  /-- Phases E, F and H: units whose saved training values failed the short check (R405), as die and commons unit code. -/
  savedRejected : List (Nat × Nat) := []
deriving DecidableEq, Repr

/-- What a decoder core hands over at the end of a sample (R291, R295). Pictures hold their planes as one value per
element, channel innermost; audio holds frames, channel innermost. For the kinds whose decoding the spec gives (text,
raw bytes, PCM) the model computes the units from the sample's bytes and reads only `damage` fields from here. -/
structure Decoded where
  /-- False where the bitstream headers show a coding outside Table 11.4, or a size above the stream's limits. -/
  supported : Bool := true
  width : Nat := 0
  height : Nat := 0
  channels : Nat := 0
  /-- The sample rate that an audio stream carries (R294). -/
  rate : Nat := 0
  /-- Element values as FP32 patterns, already concealed, per picture or per audio frame. -/
  units : List (List W32) := []
  /-- Concealed and declared units, in the unit of Table 11.4. -/
  concealed : Nat := 0
  declared : Nat := 1
  firstDamage : W32 := 0xFFFFFFFF#32
  regionMap : W32 := 0
  /-- A film-grain parameter set was parsed (AV1). -/
  grain : Bool := false
  /-- An uncorrectable word was met in working memory or staging memory (R296). -/
  memFault : Bool := false
deriving DecidableEq, Repr

/-- LINK_INIT as received from a peer (R316). -/
structure LinkInit where
  version : Nat
  ident : W64
  coord : W16
  port : Nat
  dir : Nat
deriving DecidableEq, Repr

/-- A fabric message as a device on its route sees it (Table 12.3). -/
structure FabMsg where
  dest : W16
  src : W16
  /-- 0 request, 1 response, 2 collective, 3 control. -/
  cls : Nat
  /-- The six OP bits, which the sending unit defines. -/
  op : Nat
  hops : Nat
  inject : W32
  tag : W32
  /-- The dateline bit (R319). -/
  dl : Bool := false
  /-- Error patterns of the three header words as they arrive here; missing ones are zero (R309). -/
  headerFlips : List (BitVec 144) := []
  /-- An error response, or an UNREACHABLE response. -/
  error : Bool := false
  unreachable : Bool := false
  /-- What the check of the body words finds at the destination (R309, R343, R349). -/
  bodyCheck : Transit := .clean
  /-- Bytes 16 to 47 of the header, which OP defines. -/
  info : Bytes := []
  body : Bytes := []
deriving DecidableEq, Repr

/-- A borrower's access as it reaches the lender (R349). -/
structure LendReq where
  src : W16
  tag : W32
  lend : Nat
  offset : Nat
  /-- Bytes to write, or none for a read of `len` bytes. -/
  write : Option Bytes
  len : Nat
  /-- What the check of the written bytes' words finds (R309, R349). -/
  check : Transit := .clean
deriving DecidableEq, Repr

/-- The name of a collective instance: (GROUP, STEP, TAG) (R326). -/
structure CollName where
  group : Nat
  step : W64
  tag : W32
deriving DecidableEq, Repr

/-- A member's segment as its root receives it (R327): one place's elements of one segment. -/
structure SegMsg where
  inst : CollName
  place : Nat
  segment : Nat
  /-- COUNT, SEG, KIND byte and the two format words of the member's COLL. -/
  count : Nat
  seg : Nat
  kind : Byte
  inFmt : W16
  outFmt : W16
  elems : List W32
deriving DecidableEq, Repr

/-- PRESENT as the coordinator receives it (R327). -/
structure PresentMsg where
  inst : CollName
  member : Nat
  flag : Bool
  carried : Bool
  /-- A root found two places that differ: the first differing place (R328). -/
  mismatch : Option Nat := none
deriving DecidableEq, Repr

/-- The mask as a member or root receives it (R327). -/
structure MaskMsg where
  inst : CollName
  /-- Places counted, ascending. -/
  places : List Nat
  flags : Bool
  carryIn : Bool
  /-- Closed at the deadline. -/
  atDeadline : Bool
  mismatch : Option Nat := none
deriving DecidableEq, Repr

/-- A result segment as a member receives it (R327). -/
structure ResultMsg where
  inst : CollName
  segment : Nat
  /-- ALL_GATHER: the place whose block this is. -/
  place : Nat
  /-- The segment in OUT_FMT, packed under R86. -/
  data : Bytes
deriving DecidableEq, Repr

/-- The commands: one constructor for each row of spec/opcode_table.json. -/
inductive Instr where
  /-- POWER_ON (R441). -/
  | powerOn
  /-- POWER_LOSS (R416). -/
  | powerLoss
  /-- BRINGUP_PHASE_DONE (R401). -/
  | bringupPhaseDone (found : Findings)
  /-- TRAINING_RECORD_WRITE (R404). -/
  | trainingRecordWrite
  /-- THERMAL_TRIP (R418). -/
  | thermalTrip (temp : Int)
  /-- TRIP_RELEASE (R418). -/
  | tripRelease
  /-- FAST_LIMIT_ENGAGE (R415). -/
  | fastLimitEngage
  /-- FAST_LIMIT_RELEASE (R415). -/
  | fastLimitRelease
  /-- REEVE_POWER_MEASURE (R416). -/
  | reevePowerMeasure (mv ma : Nat)
  /-- TEMP_SAMPLE (R417). -/
  | tempSample (tiles gddr : List Int)
  /-- PERST_N_ASSERT (R444). -/
  | perstNAssert
  /-- PERST_N_DEASSERT (R444). -/
  | perstNDeassert
  /-- FUNCTION_LEVEL_RESET (R421). -/
  | functionLevelReset
  /-- PCIE_LINK_CHANGE (R422). -/
  | pcieLinkChange (speed width : Nat)
  /-- PCIE_ERROR (R425). -/
  | pcieError (aer : BitVec 5) (unc : Bool) (ended : List OpName)
  /-- HOST_READ_TIMEOUT (R425). -/
  | hostReadTimeout (ring : Nat) (seq : W32)
  /-- REGISTER_WRITE (R8). -/
  | registerWrite (off width : Nat) (value : W64)
  /-- LL_BAR2_SLIDE_WRITE (R427). -/
  | llBar2SlideWrite (value : W64)
  /-- BAR2_READ (R428). -/
  | bar2Read (off len : Nat)
  /-- BAR2_WRITE (R427). -/
  | bar2Write (off : Nat) (data : Bytes)
  /-- LL_HARD_HALT_WRITE (R420). -/
  | llHardHaltWrite (value : W32)
  /-- DB_TAIL_WRITE (R47). -/
  | dbTailWrite (ring : Nat) (value : W32)
  /-- DB_RESUME_WRITE (R69). -/
  | dbResumeWrite (ring : Nat) (value : W32)
  /-- BELL_VALUE_WRITE (R60). -/
  | bellValueWrite (bell : Nat) (value : W32)
  /-- BELL_ADD_WRITE (R59). -/
  | bellAddWrite (bell : Nat) (value : W32)
  /-- CNT_WINDOW_RESTART (R439). -/
  | cntWindowRestart (period : Bool) (value : W64)
  /-- DESCRIPTOR_FETCH (R52). -/
  | descriptorFetch (ring : Nat) (hostErr : Bool)
  /-- OP_ISSUE (R53). -/
  | opIssue (ring : Nat)
  /-- BELL_WAIT_STALL (R54). -/
  | bellWaitStall (ring : Nat)
  /-- OP_RETIRE (R56). -/
  | opRetire (ring : Nat) (hostErr : Bool)
  /-- NOP (R61). -/
  | hubNop (ring : Nat) (seq : W32)
  /-- BELL_SET (R61). -/
  | bellSet (ring : Nat) (seq : W32)
  /-- BELL_ADD (R61). -/
  | bellAdd (ring : Nat) (seq : W32)
  /-- MILL_MATMUL (R129). -/
  | millMatmul (ring : Nat) (seq : W32)
  /-- MILL_DRAIN (R132). -/
  | millDrain (ring : Nat) (seq : W32)
  /-- MILL_RELEASE (R140). -/
  | millRelease (ring : Nat) (seq : W32)
  /-- MILL_WATCHDOG_EXPIRY (R146). -/
  | millWatchdogExpiry (ring : Nat) (seq : W32)
  /-- CHUTE_SEND (R32). -/
  | chuteSend (ring : Nat) (seq : W32) (transit : Transit)
  /-- CHUTE_STALL (R37). -/
  | chuteStall (ring : Nat) (seq : W32)
  /-- LOOM_RUN (R151). -/
  | loomRun (ring : Nat) (seq : W32) (n : Nat)
  /-- LOOM_WATCHDOG_EXPIRY (R179). -/
  | loomWatchdogExpiry (tile eng : Nat)
  /-- LOOM_TAKE_STALL (R174). -/
  | loomTakeStall (tile eng : Nat)
  /-- LOOM_NOP (R160). -/
  | loomNop (tile eng : Nat) (f : LoomFields)
  /-- END (R152). -/
  | loomEnd (tile eng : Nat) (f : LoomFields)
  /-- FAULT (R178). -/
  | loomFault (tile eng : Nat) (f : LoomFields)
  /-- J (R160). -/
  | j (tile eng : Nat) (f : LoomFields)
  /-- BEQ (R160). -/
  | beq (tile eng : Nat) (f : LoomFields)
  /-- BNE (R160). -/
  | bne (tile eng : Nat) (f : LoomFields)
  /-- BLT (R160). -/
  | blt (tile eng : Nat) (f : LoomFields)
  /-- BGE (R160). -/
  | bge (tile eng : Nat) (f : LoomFields)
  /-- BLTU (R160). -/
  | bltu (tile eng : Nat) (f : LoomFields)
  /-- LOOP (R160). -/
  | loop (tile eng : Nat) (f : LoomFields)
  /-- BMZ (R160). -/
  | bmz (tile eng : Nat) (f : LoomFields)
  /-- BMNZ (R160). -/
  | bmnz (tile eng : Nat) (f : LoomFields)
  /-- CALL (R160). -/
  | call (tile eng : Nat) (f : LoomFields)
  /-- RET (R160). -/
  | ret (tile eng : Nat) (f : LoomFields)
  /-- SADD (R159). -/
  | sadd (tile eng : Nat) (f : LoomFields)
  /-- SSUB (R159). -/
  | ssub (tile eng : Nat) (f : LoomFields)
  /-- SMUL (R159). -/
  | smul (tile eng : Nat) (f : LoomFields)
  /-- SAND (R160). -/
  | sand (tile eng : Nat) (f : LoomFields)
  /-- SOR (R160). -/
  | sor (tile eng : Nat) (f : LoomFields)
  /-- SXOR (R160). -/
  | sxor (tile eng : Nat) (f : LoomFields)
  /-- SSHL (R159). -/
  | sshl (tile eng : Nat) (f : LoomFields)
  /-- SSHR (R159). -/
  | sshr (tile eng : Nat) (f : LoomFields)
  /-- SSRA (R159). -/
  | ssra (tile eng : Nat) (f : LoomFields)
  /-- SMIN (R160). -/
  | smin (tile eng : Nat) (f : LoomFields)
  /-- SMAX (R160). -/
  | smax (tile eng : Nat) (f : LoomFields)
  /-- SADDI (R160). -/
  | saddi (tile eng : Nat) (f : LoomFields)
  /-- SSHLI (R160). -/
  | sshli (tile eng : Nat) (f : LoomFields)
  /-- SSHRI (R160). -/
  | sshri (tile eng : Nat) (f : LoomFields)
  /-- SLI (R160). -/
  | sli (tile eng : Nat) (f : LoomFields)
  /-- SLUI (R160). -/
  | slui (tile eng : Nat) (f : LoomFields)
  /-- SFADD (R157). -/
  | sfadd (tile eng : Nat) (f : LoomFields)
  /-- SFMUL (R157). -/
  | sfmul (tile eng : Nat) (f : LoomFields)
  /-- SFFMA (R157). -/
  | sffma (tile eng : Nat) (f : LoomFields)
  /-- SCTX (R160). -/
  | sctx (tile eng : Nat) (f : LoomFields)
  /-- VADD (R157). -/
  | vadd (tile eng : Nat) (f : LoomFields)
  /-- VSUB (R157). -/
  | vsub (tile eng : Nat) (f : LoomFields)
  /-- VMUL (R157). -/
  | vmul (tile eng : Nat) (f : LoomFields)
  /-- VFMA (R157). -/
  | vfma (tile eng : Nat) (f : LoomFields)
  /-- VFMS (R157). -/
  | vfms (tile eng : Nat) (f : LoomFields)
  /-- VFNMA (R157). -/
  | vfnma (tile eng : Nat) (f : LoomFields)
  /-- VMIN (R159). -/
  | vmin (tile eng : Nat) (f : LoomFields)
  /-- VMAX (R159). -/
  | vmax (tile eng : Nat) (f : LoomFields)
  /-- VABS (R157). -/
  | vabs (tile eng : Nat) (f : LoomFields)
  /-- VNEG (R157). -/
  | vneg (tile eng : Nat) (f : LoomFields)
  /-- VRCP (R158). -/
  | vrcp (tile eng : Nat) (f : LoomFields)
  /-- VRSQRT (R158). -/
  | vrsqrt (tile eng : Nat) (f : LoomFields)
  /-- VSQRT (R158). -/
  | vsqrt (tile eng : Nat) (f : LoomFields)
  /-- VDIV (R158). -/
  | vdiv (tile eng : Nat) (f : LoomFields)
  /-- VEXP2 (R158). -/
  | vexp2 (tile eng : Nat) (f : LoomFields)
  /-- VLOG2 (R158). -/
  | vlog2 (tile eng : Nat) (f : LoomFields)
  /-- VEXP (R158). -/
  | vexp (tile eng : Nat) (f : LoomFields)
  /-- VTANH (R158). -/
  | vtanh (tile eng : Nat) (f : LoomFields)
  /-- VRINT (R157). -/
  | vrint (tile eng : Nat) (f : LoomFields)
  /-- VLDEXP (R157). -/
  | vldexp (tile eng : Nat) (f : LoomFields)
  /-- VIADD (R159). -/
  | viadd (tile eng : Nat) (f : LoomFields)
  /-- VISUB (R159). -/
  | visub (tile eng : Nat) (f : LoomFields)
  /-- VIMUL (R159). -/
  | vimul (tile eng : Nat) (f : LoomFields)
  /-- VIMIN (R160). -/
  | vimin (tile eng : Nat) (f : LoomFields)
  /-- VIMAX (R160). -/
  | vimax (tile eng : Nat) (f : LoomFields)
  /-- VAND (R160). -/
  | vand (tile eng : Nat) (f : LoomFields)
  /-- VOR (R160). -/
  | vor (tile eng : Nat) (f : LoomFields)
  /-- VXOR (R160). -/
  | vxor (tile eng : Nat) (f : LoomFields)
  /-- VSHL (R159). -/
  | vshl (tile eng : Nat) (f : LoomFields)
  /-- VSHR (R159). -/
  | vshr (tile eng : Nat) (f : LoomFields)
  /-- VMOV (R160). -/
  | vmov (tile eng : Nat) (f : LoomFields)
  /-- VSEL (R160). -/
  | vsel (tile eng : Nat) (f : LoomFields)
  /-- VIOTA (R160). -/
  | viota (tile eng : Nat) (f : LoomFields)
  /-- VLI (R160). -/
  | vli (tile eng : Nat) (f : LoomFields)
  /-- VCMPEQ (R160). -/
  | vcmpeq (tile eng : Nat) (f : LoomFields)
  /-- VCMPNE (R160). -/
  | vcmpne (tile eng : Nat) (f : LoomFields)
  /-- VCMPLT (R160). -/
  | vcmplt (tile eng : Nat) (f : LoomFields)
  /-- VCMPLE (R160). -/
  | vcmple (tile eng : Nat) (f : LoomFields)
  /-- VCMPUN (R160). -/
  | vcmpun (tile eng : Nat) (f : LoomFields)
  /-- VISFIN (R160). -/
  | visfin (tile eng : Nat) (f : LoomFields)
  /-- MAND (R160). -/
  | mand (tile eng : Nat) (f : LoomFields)
  /-- MOR (R160). -/
  | mor (tile eng : Nat) (f : LoomFields)
  /-- MXOR (R160). -/
  | mxor (tile eng : Nat) (f : LoomFields)
  /-- MNOT (R160). -/
  | mnot (tile eng : Nat) (f : LoomFields)
  /-- MPREFIX (R160). -/
  | mprefix (tile eng : Nat) (f : LoomFields)
  /-- MPOPC (R160). -/
  | mpopc (tile eng : Nat) (f : LoomFields)
  /-- MFIRST (R160). -/
  | mfirst (tile eng : Nat) (f : LoomFields)
  /-- VCOMPRESS (R162). -/
  | vcompress (tile eng : Nat) (f : LoomFields)
  /-- VEXPAND (R162). -/
  | vexpand (tile eng : Nat) (f : LoomFields)
  /-- VPERM (R160). -/
  | vperm (tile eng : Nat) (f : LoomFields)
  /-- VROT (R160). -/
  | vrot (tile eng : Nat) (f : LoomFields)
  /-- VBCAST (R160). -/
  | vbcast (tile eng : Nat) (f : LoomFields)
  /-- VEXT (R160). -/
  | vext (tile eng : Nat) (f : LoomFields)
  /-- VINS (R160). -/
  | vins (tile eng : Nat) (f : LoomFields)
  /-- RSUM_O (R163). -/
  | rsumO (tile eng : Nat) (f : LoomFields)
  /-- RSUM_OA (R163). -/
  | rsumOa (tile eng : Nat) (f : LoomFields)
  /-- RMAX (R161). -/
  | rmax (tile eng : Nat) (f : LoomFields)
  /-- RMIN (R161). -/
  | rmin (tile eng : Nat) (f : LoomFields)
  /-- RISUM (R160). -/
  | risum (tile eng : Nat) (f : LoomFields)
  /-- VISCAN (R160). -/
  | viscan (tile eng : Nat) (f : LoomFields)
  /-- VCVT_F2I (R96). -/
  | vcvtF2i (tile eng : Nat) (f : LoomFields)
  /-- VCVT_I2F (R96). -/
  | vcvtI2f (tile eng : Nat) (f : LoomFields)
  /-- VPACK (R160). -/
  | vpack (tile eng : Nat) (f : LoomFields)
  /-- VUNPL (R160). -/
  | vunpl (tile eng : Nat) (f : LoomFields)
  /-- VUNPH (R160). -/
  | vunph (tile eng : Nat) (f : LoomFields)
  /-- VCVT_X (R168). -/
  | vcvtX (tile eng : Nat) (f : LoomFields)
  /-- VDCD_X (R168). -/
  | vdcdX (tile eng : Nat) (f : LoomFields)
  /-- VLD (R164). -/
  | vld (tile eng : Nat) (f : LoomFields)
  /-- VST (R164). -/
  | vst (tile eng : Nat) (f : LoomFields)
  /-- VLDF (R168). -/
  | vldf (tile eng : Nat) (f : LoomFields)
  /-- VSTF (R168). -/
  | vstf (tile eng : Nat) (f : LoomFields)
  /-- VLDX (R164). -/
  | vldx (tile eng : Nat) (f : LoomFields)
  /-- VSTX (R165). -/
  | vstx (tile eng : Nat) (f : LoomFields)
  /-- SLD (R164). -/
  | sld (tile eng : Nat) (f : LoomFields)
  /-- SST (R164). -/
  | sst (tile eng : Nat) (f : LoomFields)
  /-- MLD (R164). -/
  | mld (tile eng : Nat) (f : LoomFields)
  /-- MST (R164). -/
  | mst (tile eng : Nat) (f : LoomFields)
  /-- VLDG (R165). -/
  | vldg (tile eng : Nat) (f : LoomFields)
  /-- VSTG (R165). -/
  | vstg (tile eng : Nat) (f : LoomFields)
  /-- ACCRD (R173). -/
  | accrd (tile eng : Nat) (f : LoomFields)
  /-- CHTAKE (R174). -/
  | chtake (tile eng : Nat) (f : LoomFields)
  /-- CHSEND (R175). -/
  | chsend (tile eng : Nat) (f : LoomFields)
  /-- CNS_VAL (R172). -/
  | cnsVal (tile eng : Nat) (f : LoomFields)
  /-- CNS_SAT (R172). -/
  | cnsSat (tile eng : Nat) (f : LoomFields)
  /-- CNS_NF (R172). -/
  | cnsNf (tile eng : Nat) (f : LoomFields)
  /-- UCVT (R171). -/
  | ucvt (tile eng : Nat) (f : LoomFields)
  /-- USTF (R171). -/
  | ustf (tile eng : Nat) (f : LoomFields)
  /-- CONV_MILL (R196). -/
  | convMill (ring : Nat) (seq : W32)
  /-- QUERN_CONV (R201). -/
  | quernConv (ring : Nat) (seq : W32)
  /-- QUERN_POOL (R204). -/
  | quernPool (ring : Nat) (seq : W32)
  /-- QUERN_WATCHDOG_EXPIRY (R206). -/
  | quernWatchdogExpiry (ring : Nat) (seq : W32)
  /-- BADGER_GATHER (R216). -/
  | badgerGather (ring : Nat) (seq : W32)
  /-- BADGER_SCATTER (R221). -/
  | badgerScatter (ring : Nat) (seq : W32)
  /-- LEDGER_RECORD_ARRIVE (R223). -/
  | ledgerRecordArrive (tile table : Nat) (row step : W64) (failed : Option Byte)
  /-- LEDGER_FULL (R224). -/
  | ledgerFull (ring : Nat) (seq : W32)
  /-- BADGER_UPDATE (R228). -/
  | badgerUpdate (ring : Nat) (seq : W32)
  /-- BADGER_MIGRATE (R229). -/
  | badgerMigrate (ring : Nat) (seq : W32)
  /-- BADGER_WATCHDOG_EXPIRY (R231). -/
  | badgerWatchdogExpiry (ring : Nat) (seq : W32)
  /-- XMULW (R217). -/
  | xmulw (tile : Nat) (imm : W32)
  /-- XMULI (R217). -/
  | xmuli (tile : Nat) (imm : W32)
  /-- XADDI (R217). -/
  | xaddi (tile : Nat) (imm : W32)
  /-- XMAXI (R217). -/
  | xmaxi (tile : Nat) (imm : W32)
  /-- XMINI (R217). -/
  | xmini (tile : Nat) (imm : W32)
  /-- XABS (R217). -/
  | xabs (tile : Nat) (imm : W32)
  /-- ACCSUM (R217). -/
  | accsum (tile : Nat) (imm : W32)
  /-- ACCMAX (R217). -/
  | accmax (tile : Nat) (imm : W32)
  /-- AMULI (R217). -/
  | amuli (tile : Nat) (imm : W32)
  /-- AADDI (R217). -/
  | aaddi (tile : Nat) (imm : W32)
  /-- ADIVN (R217). -/
  | adivn (tile : Nat) (imm : W32)
  /-- ARSQN (R217). -/
  | arsqn (tile : Nat) (imm : W32)
  /-- STEP_DECIDE (R238). -/
  | stepDecide (ring : Nat) (seq : W32)
  /-- STEP_COMMIT (R242). -/
  | stepCommit (ring : Nat) (seq : W32)
  /-- STEP_DECISION_STALL (R240). -/
  | stepDecisionStall (ring : Nat) (seq : W32)
  /-- LEDGER_BUSY_AT_COMMIT (R242). -/
  | ledgerBusyAtCommit (ring : Nat) (seq : W32)
  /-- SHARD_FETCH (R256). -/
  | shardFetch (ring : Nat) (seq : W32)
  /-- SHARD_FETCH_RETRY (R256). -/
  | shardFetchRetry (ring : Nat) (seq : W32)
  /-- SHARD_FETCH_STALL (R256). -/
  | shardFetchStall (ring : Nat) (seq : W32)
  /-- UNIT_RELEASE (R263). -/
  | unitRelease
  /-- SEQ_RELEASE_STALL (R264). -/
  | seqReleaseStall (ring : Nat)
  /-- OFFLOAD_DONE (R270). -/
  | offloadDone (ring j : Nat) (prefetch bad : Bool)
  /-- STEP_ABANDON_RESTART (R273). -/
  | stepAbandonRestart (step : W64)
  /-- MIGRATE_DRAIN_DONE (R278). -/
  | migrateDrainDone
  /-- MIGRATE_COPY_DONE (R278). -/
  | migrateCopyDone
  /-- STAGE_MIGRATE_TIMEOUT (R278). -/
  | stageMigrateTimeout
  /-- STREAM_BLOCK_RECEIVED (R285). -/
  | streamBlockReceived (die : Nat) (blk : Bytes)
  /-- DECODE_START (R292). -/
  | decodeStart (die : Nat)
  /-- SAMPLE_DECODE_DONE (R295). -/
  | sampleDecodeDone (die stream : Nat) (out : Decoded)
  /-- SELECT (R302). -/
  | augSelect (die : Nat) (a b : Byte) (imm : W32)
  /-- CROP (R302). -/
  | augCrop (die : Nat) (a b : Byte) (imm : W32)
  /-- FLIPH (R302). -/
  | augFliph (die : Nat) (a b : Byte) (imm : W32)
  /-- RESIZE (R303). -/
  | augResize (die : Nat) (a b : Byte) (imm : W32)
  /-- COLOUR (R303). -/
  | augColour (die : Nat) (a b : Byte) (imm : W32)
  /-- AFFINE (R302). -/
  | augAffine (die : Nat) (a b : Byte) (imm : W32)
  /-- TRIM (R302). -/
  | augTrim (die : Nat) (a b : Byte) (imm : W32)
  /-- GAIN (R302). -/
  | augGain (die : Nat) (a b : Byte) (imm : W32)
  /-- TH_BATCH_TIMEOUT (R299). -/
  | thBatchTimeout (die cls : Nat)
  /-- BATCH_EMIT (R300). -/
  | batchEmit (die cls : Nat)
  /-- BATCH_COMMIT (R300). -/
  | batchCommit (die cls : Nat) (transit : Transit)
  /-- CREDIT_BLOCK_SEND (R286). -/
  | creditBlockSend (die : Nat)
  /-- TIME_BLOCK_SEND (R287). -/
  | timeBlockSend (die : Nat)
  /-- TH_INJECT (R304). -/
  | thInject (ring : Nat) (seq : W32)
  /-- TH_FLUSH (R304). -/
  | thFlush (ring : Nat) (seq : W32)
  /-- FLIT_RECEIVED (R310). -/
  | flitReceived (port : Nat) (flits : List Bytes) (cwOk : Bool)
  /-- NAK_RECEIVED (R311). -/
  | nakReceived (port : Nat) (lseq : BitVec 12)
  /-- NAK_RESEND (R310). -/
  | nakResend (port : Nat)
  /-- LINK_INIT_RECEIVED (R316). -/
  | linkInitReceived (port : Nat) (init : LinkInit)
  /-- RETRAIN_REQ_RECEIVED (R315). -/
  | retrainReqReceived (port : Nat)
  /-- PORT_RETRAIN_DONE (R315). -/
  | portRetrainDone (port : Nat) (trained : PortTrain)
  /-- FAB_MESSAGE_RECEIVED (R319). -/
  | fabMessageReceived (port : Nat) (msg : FabMsg)
  /-- FABRIC_REQUEST_TIMEOUT (R322). -/
  | fabricRequestTimeout (tag : W32)
  /-- LEND_REQUEST_RECEIVED (R349). -/
  | lendRequestReceived (port : Nat) (req : LendReq)
  /-- TIME_SYNC_EXCHANGE (R323): the child's stamps t1 and t4, the parent's t2 and t3, and the ports whose neighbour is not
  synchronised. -/
  | timeSyncExchange (t1 t4 : Nat) (parent : Nat × Nat) (unsynced : List Nat)
  /-- TIME_PARENT_LOSS (R324). -/
  | timeParentLoss
  /-- SNAP_REQ_RECEIVED (R365). -/
  | snapReqReceived (step : W64)
  /-- COLL (R327). -/
  | coll (ring : Nat) (seq : W32)
  /-- SEGMENT_RECEIVED (R327). -/
  | segmentReceived (seg : SegMsg)
  /-- SEGMENT_ACK_RECEIVED (R327). -/
  | segmentAckReceived (ring : Nat) (seq : W32) (count : Nat)
  /-- PRESENT_RECEIVED (R327). -/
  | presentReceived (p : PresentMsg)
  /-- COLL_DEADLINE (R327). -/
  | collDeadline (inst : CollName)
  /-- MASK_RECEIVED (R327). -/
  | maskReceived (mask : MaskMsg)
  /-- RESULT_RECEIVED (R328). -/
  | resultReceived (res : ResultMsg)
  /-- COLL_FAIL_TIMEOUT (R328). -/
  | collFailTimeout (ring : Nat) (seq : W32)
  /-- DM_COPY (R345). -/
  | dmCopy (ring : Nat) (seq : W32) (transit : Transit) (word : Nat)
  /-- DM_FILL (R345). -/
  | dmFill (ring : Nat) (seq : W32)
  /-- GDDR_RECAL (R341). -/
  | gddrRecal (die mc ch : Nat) (ok : Bool)
  /-- SCRUB_PATROL (R342). -/
  | scrubPatrol (word : Nat) (flips : BitVec 144) (last : Bool)
  /-- GDDR_ECS_READ (R342). -/
  | gddrEcsRead (counts : List Nat)
  /-- GR_SNAPSHOT (R355). -/
  | grSnapshot (ring : Nat) (seq : W32)
  /-- PAGE_TAKEN (R357). -/
  | pageTaken (die : Nat)
  /-- PAGE_ACK (R357). -/
  | pageAck (die page : Nat)
  /-- SNAPSHOT_ACK_TIMEOUT (R360). -/
  | snapshotAckTimeout (die page : Nat)
  /-- SEAL (R361). -/
  | seal
  /-- GR_RESTORE (R367). -/
  | grRestore (ring : Nat) (seq : W32)
  /-- GR_VERIFY (R371). -/
  | grVerify (ring : Nat) (seq : W32)
  /-- GR_WCENSUS (R373). -/
  | grWcensus (ring : Nat) (seq : W32)
  /-- WCENSUS_RETRY (R373). -/
  | wcensusRetry (ring : Nat) (seq : W32)
  /-- WCENSUS_STALL (R373). -/
  | wcensusStall (ring : Nat) (seq : W32)
  /-- GR_EXPORT (R376). -/
  | grExport (ring : Nat) (seq : W32)
  /-- OWL_EVALUATE (R363). -/
  | owlEvaluate
  /-- HEARTBEAT (R379). -/
  | heartbeat (die : Nat)
  /-- IABOR_WATCHDOG_EXPIRY (R379). -/
  | iaborWatchdogExpiry (die : Nat)
  /-- TALLY_SPILL (R434). -/
  | tallySpill (die : Nat)
  /-- COUNTER_WINDOW_CLOSE (R439). -/
  | counterWindowClose
  /-- MBX_DOORBELL_RING (R381). -/
  | mbxDoorbellRing (m : Nat) (value : W32)
  /-- MBX_COMPLETE (R381). -/
  | mbxComplete (m : Nat)
  /-- MB_NOP (R387). -/
  | mbNop (m : Nat)
  /-- MB_DEVICE_INFO (R395). -/
  | mbDeviceInfo (m : Nat)
  /-- MB_FW_STAGE (R392). -/
  | mbFwStage (m : Nat) (flashOk : Bool)
  /-- MB_FW_ACTIVATE (R393). -/
  | mbFwActivate (m : Nat)
  /-- FW_READY (R393). -/
  | fwReady
  /-- FW_ACTIVATE_TIMEOUT (R393). -/
  | fwActivateTimeout (refused : Bool)
  /-- MB_FW_COMMIT (R394). -/
  | mbFwCommit (m blown : Nat)
  /-- MB_FW_STATUS (R390). -/
  | mbFwStatus (m : Nat)
  /-- MB_IDENT_CERT (R396). -/
  | mbIdentCert (m : Nat)
  /-- MB_ATTEST (R399). -/
  | mbAttest (m : Nat)
  /-- MB_SANITISE (R400). -/
  | mbSanitise (m : Nat)
  /-- MB_RING_CREATE (R43). -/
  | mbRingCreate (m : Nat)
  /-- MB_RING_DESTROY (R71). -/
  | mbRingDestroy (m : Nat)
  /-- MB_CHUTE_BIND (R30). -/
  | mbChuteBind (m : Nat)
  /-- MB_CHUTE_UNBIND (R30). -/
  | mbChuteUnbind (m : Nat)
  /-- MB_LOOM_LOAD (R183). -/
  | mbLoomLoad (m : Nat)
  /-- MB_LOOM_UNLOAD (R184). -/
  | mbLoomUnload (m : Nat)
  /-- MB_BADGER_LOAD (R217). -/
  | mbBadgerLoad (m : Nat)
  /-- MB_BADGER_TABLE (R210). -/
  | mbBadgerTable (m : Nat)
  /-- MB_NUM_CONFIG (R235). -/
  | mbNumConfig (m : Nat)
  /-- MB_STEP_CLEAR (R237). -/
  | mbStepClear (m : Nat)
  /-- MB_STAGE_BIND (R259). -/
  | mbStageBind (m : Nat)
  /-- MB_STAGE_UNBIND (R259). -/
  | mbStageUnbind (m : Nat)
  /-- MB_SEQ_LOAD (R262). -/
  | mbSeqLoad (m : Nat)
  /-- MB_SEQ_CONFIG (R270). -/
  | mbSeqConfig (m : Nat)
  /-- MB_STAGE_MIGRATE (R277). -/
  | mbStageMigrate (m : Nat)
  /-- MB_TH_PORT (R283). -/
  | mbThPort (m trained : Nat)
  /-- MB_TH_STREAM (R288). -/
  | mbThStream (m : Nat)
  /-- MB_TH_CLASS (R298). -/
  | mbThClass (m : Nat)
  /-- MB_TH_AUG_LOAD (R302). -/
  | mbThAugLoad (m : Nat)
  /-- MB_TH_VOCAB (R303). -/
  | mbThVocab (m : Nat)
  /-- MB_FAB_CONFIG (R317). -/
  | mbFabConfig (m : Nat) (trained : List PortTrain)
  /-- MB_FAB_PORT (R315). -/
  | mbFabPort (m : Nat) (trained : PortTrain)
  /-- MB_FAB_STATUS (R318). -/
  | mbFabStatus (m : Nat)
  /-- MB_FAB_ROUTE (R320). -/
  | mbFabRoute (m : Nat)
  /-- MB_GROUP_SET (R325). -/
  | mbGroupSet (m : Nat)
  /-- MB_GROUP_CLEAR (R325). -/
  | mbGroupClear (m : Nat)
  /-- MB_MEM_RECAL (R341). -/
  | mbMemRecal (m : Nat)
  /-- MB_MEM_SCRUB (R342). -/
  | mbMemScrub (m : Nat)
  /-- MB_MEM_HOSTMAP (R346). -/
  | mbMemHostmap (m : Nat)
  /-- MB_MEM_LEND (R348). -/
  | mbMemLend (m : Nat)
  /-- MB_MEM_BORROW (R348). -/
  | mbMemBorrow (m : Nat)
  /-- MB_GRANARY_CONFIG (R350). -/
  | mbGranaryConfig (m : Nat)
  /-- MB_OWL_CONFIG (R362). -/
  | mbOwlConfig (m : Nat)
  /-- MB_OWL_STATUS (R363). -/
  | mbOwlStatus (m : Nat)
  /-- MB_TELEMETRY (R417). -/
  | mbTelemetry (m : Nat)
  /-- MB_POWER_DOMAIN (R414). -/
  | mbPowerDomain (m : Nat)
  /-- MB_POWER_LIMIT (R416). -/
  | mbPowerLimit (m : Nat)
  /-- MB_TRAIN_SAVE (R404). -/
  | mbTrainSave (m : Nat) (flashOk : Bool)
  /-- MB_TALLY_READ (R436). -/
  | mbTallyRead (m : Nat)
  /-- MB_COUNTER_SELECT (R438). -/
  | mbCounterSelect (m : Nat)
  /-- BAR0_READ (R9). -/
  | bar0Read (off width : Nat)
  /-- CONFIG_SPACE_WRITE (R423). -/
  | configSpaceWrite (off width : Nat) (value : W32)
deriving DecidableEq, Repr

end Sys2Proof
end

