-- ==== Sys2Proof/Decode.lean ====
section
/-! DEFINITION. The commands that words spell: none, as spec/opcode_table.json gives no row bits. -/

namespace Sys2Proof

/-- The command that the bits `w` of an instruction of `nbits` bits spell by the opcode table. The table gives bits to
none of its rows, so no word spells a command. -/
def decodeTableWord (_nbits _w : Nat) : Option Instr := none

end Sys2Proof
end

