-- ==== Sys2Proof/Config.lean ====
section
/-! DEFINITION. What one part or one implementation fixes, and the values the manual leaves open: opaque constants
without a body, so that no proof can see a value of them. -/

namespace Sys2Proof.Config

/-- The free value: a bit vector of width `w`, one for each draw number `n`. It stands for every value the manual calls
unspecified (R10); the draw number comes from the counter `Dev.draws`, which each draw advances (log 4). -/
opaque freeValue (w n : Nat) : BitVec w

/-- What the 144 code delivers of a word with three or more bit errors that its decoder takes for a correctable one:
unspecified (R339). `none` means reported as uncorrectable. The argument is the word as stored (log 9). -/
opaque miscorrected : BitVec 144 → Option (BitVec 128)

/-- IDENT, the 64-bit device identifier of this part: bytes 0 to 7 of the digest of its public key (R395; log 11). -/
opaque ident : W64

/-- The certificate chain that MB_IDENT_CERT returns (R396; log 11). -/
opaque certChain : Bytes

/-- Whether the Ed448 signature of manifest bytes 0 to 1,151 verifies under firmware key `key` with context NLR-FW-1,
the key itself checked against its digest in the boot ROM (R389; log 12). -/
opaque manifestSigned (key : Nat) (manifest signature : Bytes) : Bool

/-- The 114 signature bytes of the security engine over report bytes 0 to 397 (R397, R399; log 12). -/
opaque attestSignature (report : Bytes) : Bytes

/-- The manifest of the image with which the part was shipped, in slot A (R390; log 11). -/
opaque shippedManifest : Bytes

/-- FW_VERSION of the boot ROM or of the shipped image (R395; log 11). -/
opaque shippedVersion : W32

/-- The place, modulo 512, of the sector that the n-th eviction of a check cache picks: the manual does not say which
sectors the cache evicts (R337; log 55). -/
opaque evicted (n : Nat) : Nat

/-- WORK_BYTES that MB_TH_STREAM returns for a picture size: the manual gives no formula (R288; log 13). -/
opaque workBytes (kind maxW maxH : Nat) : W64

/-- Bytes of the training record (Table 16.10 gives no figure; log 13). -/
opaque trainRecordBytes : W32

/-- Microseconds a power-domain transition took, as MB_POWER_DOMAIN reports it (Table 16.5 gives bounds only; log 13). -/
opaque transitionMicros (domain previous next : Nat) : W32

/-- The code of the start-up test that a unit failed, by die and SOURCE code; the manual gives no list (R408; log 13). -/
opaque failingTest (die unit : Nat) : BitVec 6

end Sys2Proof.Config
end

