-- ==== Sys2Proof/Machine/State.lean ====
section
/-! DEFINITION. The state of the Zorou as plain data: one record for each part of the device, `Dev` for the device, and
`State`, the device with the queue of commands that wait. A bracket gives the chapter and rule of spec/ that names a
piece of state, its width and its reset value; LOG n names an entry of the assumption log. -/

namespace Sys2Proof.Machine

/-! ## Power, clocks and bring-up -/

/-- State of a power domain (R412). -/
inductive PState where
  | off | on | retain
deriving DecidableEq, Repr

/-- Time and the control clock. -/
structure Clock where
  /-- Control-clock pulses since power-on, delivered or swallowed, 0.8 ns each. [16 R409; counter; reset 0] -/
  pulse : Nat := 0
  /-- Control cycles delivered since power-on. [00 R11; counter; reset 0] -/
  cyc : Nat := 0
  /-- Correction of device time in ns, from the first lock and from slewing. [12 R323; ns; reset 0] -/
  offset : Int := 0
  /-- Levels in force in the running group of 64 pulses: of each core branch (physical hamlets 0 to 8 west, 9 to 17 east,
  then the two Q-tiles), and of the control clock. [16 R410; 20 and 1 levels of 0 to 56; reset 0] -/
  branch : List Nat := List.replicate 20 0
  control : Nat := 0
  /-- Core cycles delivered on each core branch since power-on. [00 R11, 16 R409; 20 counts; reset 0] -/
  core : List Nat := List.replicate 20 0
deriving DecidableEq, Repr

/-- Power stages, the Reeve and the thermal state. -/
structure Power where
  /-- The package is powered. [16 R401; 1 bit; reset true: the state after power-on, LOG 1] -/
  on : Bool := true
  /-- The thermal trip is latched and TRIP_N low. [16 R418, 18 R445; 1 bit; reset false] -/
  tripLatched : Bool := false
  /-- PERST_N is asserted. [18 R444; 1 pin; reset false (deasserted): LOG 14] -/
  perst : Bool := false
  /-- The 100 MHz reference feeds the package. [18 R442; 1 input; reset true: LOG 14] -/
  reference : Bool := true
  /-- LL_BOOT.PHASE. [16 R402; 4 bits; reset 0x1] -/
  phase : BitVec 4 := 1
  /-- Phase H has ended. [16 R401; 1 bit; reset false] -/
  phaseH : Bool := false
  /-- LL_BOOT.READY. [16 R402; 1 bit; reset 0] -/
  ready : Bool := false
  /-- LL_BOOT.WARM. [16 R402; 1 bit; reset 0] -/
  warm : Bool := false
  /-- LL_BOOT.RETIRED_ANY. [16 R402; 1 bit; reset 0] -/
  retiredAny : Bool := false
  /-- LL_BOOT.NO_FW. [16 R402; 1 bit; reset 0] -/
  noFw : Bool := false
  /-- Device time at which phase A ended, from which ELAPSED counts. [16 R402; ns; reset 0] -/
  bootFrom : Nat := 0
  /-- LL_BOOT.ELAPSED as it stopped at ready. [16 R402; 16 bits; reset none: still counting] -/
  elapsedStop : Option Nat := none
  /-- Device time of ready, from which the background write of the training record counts. [16 R404; ns; reset 0] -/
  readyAt : Nat := 0
  /-- The background write of the training record after a cold start is outstanding. [16 R404; 1 bit; reset false] -/
  recordDue : Bool := false
  /-- The fast limiter holds level 32. [16 R415; 1 bit; reset false] -/
  fastLimit : Bool := false
  /-- Power level of every core branch. [16 R416; 0 to 56; reset 0] -/
  level : Nat := 0
  /-- Thermal level of each core branch: physical hamlets 0 to 8 west, 9 to 17 east, then the two Q-tiles. [16 R417; 20
  levels of 0 to 56; reset 0 each] -/
  thermal : List Nat := List.replicate 20 0
  /-- State SHED. [16 R416, R417; 1 bit; reset false] -/
  shed : Bool := false
  /-- LIMIT_W. [16 Table 16.8; 32 bits; reset 1,800] -/
  limitW : Nat := 1800
  /-- TAU_MS. [16 Table 16.8; 32 bits; reset 100] -/
  tauMs : Nat := 100
  /-- T_THROTTLE in °C. [16 Table 16.8; 8 bits; reset 95] -/
  tThrottle : Nat := 95
  /-- Last sampled temperature of each tile. [16 R417; 64 of 8 bits, signed; reset 0 as LL_TEMP reads (Table 17.7)] -/
  tileTemp : List Int := List.replicate 64 0
  /-- Last sampled temperature of each GDDR7 device. [16 R417; 24 of 8 bits, signed; reset 0 as LL_TEMP reads] -/
  gddrTemp : List Int := List.replicate 24 0
  /-- Input voltage in mV and current in mA of the last sample. [16 Table 16.9; 32 bits each; reset 0: LOG 14] -/
  inputMv : Nat := 0
  inputMa : Nat := 0
  /-- The 100 µs power samples in mW of the last 1 ms, newest first. [16 Table 16.9; ten of 32 bits; reset none] -/
  lastMs : List Nat := []
  /-- Peak power in mW since the last page-0 read. [16 Table 16.9; 32 bits; reset 0] -/
  peakMw : Nat := 0
  /-- Samples of the running TAU_MS window, newest first, in mW. [16 R416; list; reset empty] -/
  window : List Nat := []
  /-- Samples since the last lowering of the power level. [16 R416; count of 100 µs; reset 0] -/
  lowerTick : Nat := 0
  /-- Samples since each branch's thermal level was last lowered. [16 R417; 20 counts; reset 0] -/
  coolTick : List Nat := List.replicate 20 0
  /-- State of each of the 157 power domains. [16 R411, R412; 157 states; reset: only 156, the host link, ON in phase A
  (Table 16.1)] -/
  domains : List PState := (List.range 157).map fun n => if n = 156 then .on else .off
deriving DecidableEq, Repr

/-- The effective map of this power cycle (R407). -/
structure UnitMap where
  /-- Physical hamlet that the fuses retire, by die. [00 R4, 16 R406; reset none on both dies: LOG 11] -/
  fuseHamlet : List (Option Nat) := [none, none]
  /-- Lane that the fuses retire of each fabric port. [00 R4, 16 R406; 6 lanes of 0 to 16; reset none: LOG 11] -/
  fuseLanes : List (Option Nat) := List.replicate 6 none
  /-- Cores that the fuses retire of each decoder cluster. [00 R4, 16 R406; 8 counts of 0 or 1; reset 0: LOG 11] -/
  fuseCores : List Nat := List.replicate 8 0
  /-- Rows and columns of SRAM macros that the fuses replace by spares. [00 R4, 13 R333, 16 R406; list; reset none: LOG 11] -/
  fuseRepairs : List MacroRepair := []
  /-- Rows and columns that start-up replaced by spares. [13 R333, 16 R407; list; reset none] -/
  testRepairs : List MacroRepair := []
  /-- Physical hamlets of each die in the order of their logical numbers, as last assigned. [01 R17, 16 R408; two lists of 9;
  reset 0 to 8, as the fuse map assigns them until phase D ends: LOG 11] -/
  order : List (List Nat) := [List.range 9, List.range 9]
  /-- Physical hamlets (die × 9 + p) that a start-up test retired. [16 R407; list; reset none] -/
  testHamlets : List Nat := []
  /-- B-tiles and Q-tiles that a start-up test retired, and tiles switched off by a migration with RETIRE. [16 R407, 10
  R278; list of tile numbers; reset none] -/
  testTiles : List Nat := []
  /-- Trained rate in Gbit/s of each GDDR7 device, 0 when its controller is retired. [13 R336; 24 rates; reset 48 each,
  the rate the part ships with] -/
  gddrRate : List Nat := List.replicate 24 48
  /-- Bridge gateways retired at start-up. [01 R29; list of rows; reset none] -/
  gateways : List Nat := []
  /-- Working cores of each decoder cluster. [16 R407; 8 counts of 0 to 8; reset 8 each] -/
  decoders : List Nat := List.replicate 8 8
  /-- Working Iabor cores of each die. [16 R407; 2 counts of 0 to 4; reset 4 each] -/
  iabor : List Nat := [4, 4]
deriving DecidableEq, Repr

/-- A firmware slot of the serial flash (R390). -/
structure FwSlot where
  /-- STATE of Table 15.8. -/
  st : Nat := 0
  preferred : Bool := false
  svn : Nat := 0
  version : W32 := 0
  /-- Manifest bytes 0 to 1,279 of the image in the slot. -/
  manifest : Bytes := []
deriving DecidableEq, Repr

/-- What outlives power-off: fuses and flash (R377). -/
structure Flash where
  /-- Firmware slots A and B. [15 R390; reset A COMMITTED and PREFERRED with the shipped image, B EMPTY: LOG 11] -/
  slots : List FwSlot :=
    [{ st := 3, preferred := true, version := Config.shippedVersion, manifest := Config.shippedManifest }, {}]
  /-- Anti-rollback fuses. [15 R394; 64 bits; reset none blown: LOG 11] -/
  fuses : W64 := 0
  /-- Revocation bits of the four firmware keys. [15 R389; 4 bits; reset none: LOG 11] -/
  revoked : BitVec 4 := 0
  /-- A valid training record exists. [16 R404; 1 bit; reset false: LOG 11] -/
  trained : Bool := false
  /-- Device time of the record's writing, or 0 for an earlier power cycle. [16 Table 16.10; 64 bits; reset 0] -/
  trainedAt : Nat := 0
deriving DecidableEq, Repr

/-! ## Host side -/

/-- An MSI-X table entry (R429). -/
structure MsixEntry where
  address : W64 := 0
  data : W32 := 0
  /-- Vector Control bit 0. -/
  masked : Bool := true
deriving DecidableEq, Repr

/-- The PCI Express function and the lifeline page's own registers. -/
structure HostIf where
  /-- The function is in D3hot. [17 R423; 1 bit; reset false (D0)] -/
  d3hot : Bool := false
  /-- BAR2 size as log2 of GiB. [17 R426; 0 to 7; reset 4 (16 GiB)] -/
  bar2 : Nat := 4
  /-- LL_BAR2_SLIDE.SLIDE in GiB. [17 Table 17.11; 7 bits; reset 0] -/
  slide : Nat := 0
  /-- LL_IRQ_CAUSE bits 6 to 0. [17 Table 17.10; 7 bits; reset 0] -/
  irqCause : BitVec 7 := 0
  /-- LL_IRQ_CAUSE.ENABLE. [17 Table 17.10; 7 bits; reset 0x7B] -/
  irqEnable : BitVec 7 := 0x7B
  /-- MSI-X table entries that differ from their reset value. [17 R429; 2,048 of 16 bytes; reset address and data 0,
  masked: LOG 8] -/
  msix : Table MsixEntry := []
  /-- Pending bits. [17 R429; 2,048 bits; reset 0] -/
  pending : List Nat := []
  /-- MSI-X Enable and Function Mask of the capability. [17 R429; 1 bit each; reset 0: LOG 8] -/
  msixEnable : Bool := false
  msixMask : Bool := false
  /-- Link speed in GT/s and width. [17 R422; reset 64 and 8] -/
  speed : Nat := 64
  width : Nat := 8
  /-- AER status bits reported, uncorrectable and correctable. [17 R425; 32 bits each; reset 0] -/
  aerUnc : W32 := 0
  aerCor : W32 := 0
deriving DecidableEq, Repr

/-- A completion of a host read, as it goes out on the link. -/
inductive Completion where
  | data (bytes : Bytes)
  | completerAbort
  | unsupported
deriving DecidableEq, Repr

/-- What the device has sent out, oldest first: the model's own field, not the spec's (LOG 5). -/
structure Outbox where
  /-- MSI-X vectors whose message was sent. -/
  msix : List Nat := []
  /-- Completions of host reads. -/
  reads : List Completion := []
  /-- Fabric messages sent, with the port they left by; 6 for one that this device delivers to itself (R319). -/
  fabric : List (Nat × FabMsg) := []
  /-- Flits that left each port, as the 64 bytes of Table 12.2: HEAD, BODY, replays, and the IDLE ones that report. -/
  flits : List (Nat × Bytes) := []
  /-- Link-control flits sent: port, CTRL subtype, and the value it carries; LINK_INIT stands in `inits`. -/
  ctrl : List (Nat × Nat × Nat) := []
  inits : List (Nat × LinkInit) := []
  /-- Stream blocks sent, with the die they left by. -/
  stream : List (Nat × Bytes) := []
deriving DecidableEq, Repr

/-- A Tally record (Table 17.15). -/
structure TallyRec where
  first : W64
  last : W64
  detail : W64
  count : W32
  event : W16
  source : W16
deriving DecidableEq, Repr

/-- The Tally of one die. -/
structure Tally where
  /-- Records created, as numbers from 0 at power-on. [17 R434, Table 17.8; 64 bits; reset 0] -/
  written : Nat := 0
  /-- Records spilled. [17 R434, Table 17.8; reset 0] -/
  spilled : Nat := 0
  /-- Records consumed, as MB_TALLY_READ gave them. [17 R436; reset 0] -/
  consumed : Nat := 0
  /-- The records still held, on chip or spilled, newest first, with their numbers. [17 R434; 4,096 on chip and 524,288
  spilled; reset none] -/
  recs : List (Nat × TallyRec) := []
  /-- TALLY_OVF by class. [17 R434; 256 of 32 bits; reset 0] -/
  ovf : Table W32 := []
deriving DecidableEq, Repr

/-- One event counter (R437). -/
structure Counter where
  /-- CNT.COUNT. [17 R437; 48 bits; reset 0] -/
  count : BitVec 48 := 0
  /-- CNT_SAMPLE.VALUE, PARTIAL, VALID. [17 R437; 48, 1 and 1 bits; reset 0] -/
  value : BitVec 48 := 0
  partSel : Bool := false
  valid : Bool := false
  /-- CNT_SEL. [17 R437; 32 bits; reset 0] -/
  sel : W32 := 0
  /-- Amount counted in the open window, and whether the selection changed in it. [17 R439; reset 0] -/
  inWindow : Nat := 0
  changed : Bool := false
  /-- Amounts counted, and windows in which the selection changed, after the end of a window that has not closed yet, by window
  number. [17 R439, 00 R12; reset none] -/
  ahead : Table Nat := []
  changedAhead : List Nat := []
  /-- Number of the window in which the selection was made. [17 R437; reset 0] -/
  since : Nat := 0
deriving DecidableEq, Repr

/-- The counters and their sampling windows. -/
structure Counters where
  /-- Counter i of tile t at 8 × t + i. [17 R437; 512 counters; reset 0] -/
  tile : Table Counter := []
  /-- Counter i of die d at 32 × d + i. [17 R437; 64 counters; reset 0] -/
  die : Table Counter := []
  /-- CNT_START. [17 R439; 64 bits; reset 0] -/
  start : W64 := 0
  /-- CNT_PERIOD as stored. [17 R439; 41 bits; reset 0] -/
  period : Nat := 0
  /-- Effective start of the running windows, and the number of the open one. [17 R439; reset 0] -/
  base : Nat := 0
  next : Nat := 0
  /-- The check cache of each GDDR7 channel, at 48 × die + 4 × mc + ch: the data lines whose check sectors it holds, by their
  first address. It shows in the counts of misses only. [13 R337; 96 of up to 512 sectors; reset none: DESIGN CHOICE, LOG 55] -/
  cached : Table (List Nat) := []
  /-- Sectors evicted so far, which number the free choices among them. The model's own field, not the spec's.
  [reset 0: DESIGN CHOICE, LOG 55] -/
  evictions : Nat := 0
  /-- CNT_WINDOW. [17 R439; 64 bits; reset 0] -/
  window : W64 := 0
deriving DecidableEq, Repr

/-! ## Mailboxes and firmware -/

/-- MBX_STATE.STATE (Table 15.2). -/
inductive MbxState where
  | idle | busy | done | noFirmware
deriving DecidableEq, Repr

/-- A response that firmware has made up and not yet written. -/
structure MbxResponse where
  result : W16
  detail : W32 := 0
  body : Bytes := []
  /-- A command that completes later (destroy, migrate, activate): its response is not ready yet. -/
  held : Bool := false
deriving DecidableEq, Repr

/-- One mailbox. -/
structure Mailbox where
  /-- [15 R380; 2 bits; reset IDLE] -/
  st : MbxState := .idle
  /-- MBX_STATE.DONE_COUNT. [15 R380; 16 bits; reset 0] -/
  doneCount : W16 := 0
  /-- Request buffer. [15 R380; 4 KiB; reset 0: LOG 14] -/
  req : Bytes := []
  /-- Response buffer. [15 R380; 4 KiB; reset 0: LOG 14] -/
  resp : Bytes := []
  /-- Control cycle of the RING write that is queued. [15 R383; reset 0] -/
  ringTick : Nat := 0
  /-- The accepted command's response. [15 R383; reset none] -/
  answer : Option MbxResponse := none
deriving DecidableEq, Repr

/-- One Iabor cluster. -/
structure Cluster where
  /-- Heartbeat count of the lifeline page. [15 R379, 17 Table 17.6; 16 bits; reset 0] -/
  beats : W16 := 0
  /-- Device time of the last heartbeat. [17 Table 17.6; reset none, so AGE reads 0xFFFF] -/
  lastBeat : Option Nat := none
  /-- Device times of the watchdog resets of the last 10 s, newest first. [15 R379; reset none] -/
  resets : List Nat := []
  /-- Halted after three resets. [15 R379; 1 bit; reset false] -/
  halted : Bool := false
  /-- Device time of the last restart or end of a switch, from which the watchdog counts where no heartbeat is later. [15
  R379, R393; ns; reset 0] -/
  watchFrom : Nat := 0
deriving DecidableEq, Repr

/-- A firmware switch under way (R393). -/
structure Activation where
  mbx : Nat
  slot : Nat
  since : Nat
deriving DecidableEq, Repr

/-- The firmware's side: mailboxes, clusters, slots. -/
structure Iabor where
  /-- [15 R380; 8 mailboxes] -/
  mbx : List Mailbox := List.replicate 8 {}
  /-- Rotating pointer of the arbiter of R383. [02 R62; 0 to 7; reset 0] -/
  pointer : Nat := 0
  /-- West and east cluster. [15 R377] -/
  clusters : List Cluster := [{}, {}]
  /-- Slot whose image runs. [15 R390; A or B; reset A: LOG 11] -/
  running : Nat := 0
  /-- Set once firmware runs (phase B). [15 R391; reset false] -/
  up : Bool := false
  /-- The switch in progress. [15 R393; reset none] -/
  activation : Option Activation := none
  /-- The program log of the security engine. [15 R398; 256 bits; reset 0] -/
  programLog : Bytes := List.replicate 32 0
  /-- Reeve state as the Reeve last wrote it to the lifeline page. [17 Table 17.7; 3 bits; reset 0 (BOOT)] -/
  reeve : Nat := 0
deriving DecidableEq, Repr

/-! ## Rings and bells -/

/-- RING_STATE.STATE (Table 2.4); a ring that is not created is not in the table of rings. -/
inductive RingState where
  | running | halting | halted | destroying
deriving DecidableEq, Repr

/-- Where an operation stands in its life (02, "Life of an operation"). -/
inductive OpPhase where
  /-- Fetched and not yet issued. -/
  | fetched
  /-- Issued to its target and not complete. -/
  | issued
  /-- Complete at the engine, with its status. -/
  | complete
deriving DecidableEq, Repr

/-- One chute entry an operation has still to send (R32, R136). -/
structure Send where
  consumer : Nat
  queue : Nat
  header : Bytes
  payload : Bytes
deriving DecidableEq, Repr

/-- A contribution to a census record (R172, Table 9.4). -/
structure CensusAdd where
  tensor : Nat
  elements : Nat := 0
  zeros : Nat := 0
  saturated : Nat := 0
  nonfinite : Nat := 0
  /-- FP32 pattern of the largest finite magnitude. -/
  maxmag : W32 := 0
deriving DecidableEq, Repr

/-- An operation of a ring from its fetch to its retirement. -/
structure Op where
  seq : W32
  /-- The 128 descriptor bytes as fetched (R49). -/
  desc : Bytes
  phase : OpPhase := .fetched
  /-- A check at fetch failed: such an operation is never sent to its target (R52). -/
  failedFetch : Bool := false
  /-- Whether a status word may be written (Table 2.5, R76). -/
  wordAllowed : Bool := true
  /-- Status code and DETAIL at completion. -/
  status : Byte := 0
  detail : W64 := 0
  /-- STEP and MICRO_BATCH (R265, R268); for an operation not yet issued, those the Sequencer attached. -/
  step : W64 := 0
  micro : W32 := 0
  /-- The Sequencer attached STEP and MICRO_BATCH when it released the operation. -/
  stamped : Bool := false
  /-- Rank of the issue over the whole package, which orders the operations of one engine (R130, R152). -/
  stamp : Nat := 0
  /-- Control cycle at which the operation became ready (Table 2.8), and device time since which it waits for bells. -/
  readyAt : Option Nat := none
  waitFrom : Option Nat := none
  waitLogged : Bool := false
  /-- Device time of issue (R297). -/
  issuedNs : Nat := 0
  /-- Numbers of the batches open at the issue of a TH_FLUSH (R304). -/
  batches : List Nat := []
  /-- Control cycle of issue, and of completion. -/
  issuedAt : Nat := 0
  completeAt : Nat := 0
  /-- Cycle of its engine's clock at the last progress the engine's watchdog counts. -/
  progressAt : Nat := 0
  /-- An abort was sent (R67, R71, R273). -/
  aborted : Bool := false
  /-- Its end in the failure class has had its effect on its step's flag (R70). -/
  noted : Bool := false
  /-- Its engine has done its work and it still has entries to send. -/
  sends : List Send := []
  /-- Device time since which the next send waits for a credit, and whether the stall was logged (R37). -/
  sendFrom : Option Nat := none
  sendLogged : Bool := false
  /-- Device time since which another wait of the operation lasts (ledger, decision, owner), and its stall event. -/
  stallFrom : Option Nat := none
  stallLogged : Bool := false
  /-- A Badger operation waits for the entry of an inbound queue with which it starts (R209). -/
  starting : Bool := false
  /-- Reads of other devices' memory whose responses have come, as (key, bytes, pass) (R349). -/
  fetched : List (Nat × Nat × Nat) := []
  /-- Queue (16 × tile + queue) and slot of the last entry it sent (Table 1.6). -/
  lastSent : Option (Nat × Nat) := none
  /-- The operation has written its accumulator set (R131). -/
  wroteSet : Bool := false
  /-- Loom: the image the operation runs (R183). -/
  image : Nat := 0
  /-- Loom: the sets on which it holds a read, each with the layers of its span (R141, R144). -/
  holds : List (Nat × Nat) := []
  /-- Census contributions, merged at a success-class retirement (R247). -/
  census : List CensusAdd := []
  /-- Control cycle in which its retirement first sought a merge place in vain (R247). -/
  mergeFrom : Option Nat := none
  /-- Address ranges it has written or was to write, as (address, bytes): unspecified should it end outside the success
  class (R67). -/
  outs : List (Nat × Nat) := []
  /-- Shard entry that a fetch read and checked at its issue (R256); empty before. -/
  entry : Bytes := []
  /-- Units done so far: list position of a Badger operation, rows of a Quern, segments of a collective. -/
  done : Nat := 0
  /-- Counts an operation keeps: refetches, batches flushed, pages copied, segments acknowledged. -/
  tallyCount : Nat := 0
deriving DecidableEq, Repr

/-- A ring that exists (R43, Table 2.4). -/
structure Ring where
  /-- RING_BASE. [02 R74; 48 bits; reset 0] -/
  base : Nat
  /-- RING_CFG.LOG2_LEN. [02 R74; 5 bits; reset 0] -/
  log2len : Nat
  /-- RING_CFG.TARGET. [02 R74; 12 bits; reset 0] -/
  target : Nat
  /-- RING_CFG.MSIX_VECTOR. [02 R74; 11 bits; reset 0] -/
  vector : Nat
  /-- RING_CFG.WAIT_LIMIT in ms. [02 R74; 16 bits; reset 0] -/
  waitLimit : Nat
  /-- RING_STATE.STATE. [02 R74; 3 bits; reset not created] -/
  st : RingState := .running
  /-- RING_STATE.HALT_STATUS and HALT_SEQ. [02 R74; 8 and 32 bits; reset 0] -/
  haltStatus : Byte := 0
  haltSeq : W32 := 0
  /-- RING_COUNTS.RETIRED and SUBMITTED. [02 R74; 32 bits each; reset 0] -/
  retired : W32 := 0
  submitted : W32 := 0
  /-- Sequence number of the next descriptor to fetch. [02 R45, R52; 32 bits; reset 0] -/
  fetch : W32 := 0
  /-- Halt point that the Sequencer has set and that has not retired yet. [10 R273; 32 bits; reset none] -/
  haltAt : Option W32 := none
  /-- Operations fetched and not yet retired, in sequence order. [02 R52; up to the ring's length; reset none] -/
  ops : List Op := []
  /-- STEP and MICRO_BATCH of each released sequence number not yet retired. [10 R265; 64 and 32 bits each; reset none] -/
  released : List (W32 × W64 × W32) := []
  /-- Mailboxes that wait for the ring's destruction, and operations aborted for it. [02 R71; reset none] -/
  destroyers : List Nat := []
  abortedOps : Nat := 0
deriving DecidableEq, Repr

/-- A change of a bell: BELL_SET and a write of BELL_VALUE set it; a signal, BELL_ADD and a write of BELL_ADD add to it (R59,
R60). -/
inductive BellChange where
  | set (v : W32)
  | add (v : W32)
deriving DecidableEq, Repr

/-- The changes of one bell in one control cycle (R60). -/
structure BellCycle where
  /-- The control cycle. -/
  cycle : Nat
  /-- The value that the readiness checks of that cycle see (R53). -/
  seen : W32
  /-- The value and the pointer from which the changes are applied. -/
  base : W32
  pointer : Nat
  /-- The changes with their requesters, in the order in which they came. -/
  changes : List (Nat × BellChange) := []
deriving DecidableEq, Repr

/-- The claims of free layers of one Mill in one control cycle (R62, R139): the pointer that the cycle found, and the rings
granted. -/
structure ClaimCycle where
  cycle : Nat
  pointer : Nat
  rings : List Nat := []
deriving DecidableEq, Repr

/-- The ring hub. -/
structure Hub where
  /-- The rings that exist, by number. [02 R42, R43; 16,384; reset none] -/
  rings : Table Ring := []
  /-- Bells that are not zero. [02 R59; 65,536 of 32 bits; reset 0] -/
  bells : Table W32 := []
  /-- Rotating pointer of each bell's arbiter that is not zero. [02 R60, R62; 15 bits each; reset 0] -/
  bellPtr : Table Nat := []
  /-- The bells changed in the latest control cycle that changed any. [02 R53, R60; reset none] -/
  bellNow : Table BellCycle := []
  /-- Rotating pointers of the issue arbiters, by target code. [02 R62, Table 2.8; reset 0] -/
  issuePtr : Table Nat := []
  /-- Rotating pointer for the package's in-flight places. [02 R62, Table 2.8; reset 0] -/
  placePtr : Nat := 0
  /-- Rotating pointers for accumulator claims, by tile. [02 R62, Table 2.8; reset 0] -/
  claimPtr : Table Nat := []
  /-- The claims of the latest control cycle that had any, by tile. [05 R139; reset none] -/
  claimNow : Table ClaimCycle := []
  /-- Rotating pointers for the takes of a tile's two Looms, by 16 × tile + queue. [06 R174; reset 0] -/
  takePtr : Table Nat := []
  /-- Census merges made in control cycle `mergeCycle`. [09 R247; up to 64; reset 0] -/
  mergeCycle : Nat := 0
  merges : Nat := 0
  /-- Rotating pointer for merge places. [09 R247, 02 R62; reset 0] -/
  mergePtr : Nat := 0
  /-- Control cycle of the last retirement of each ring. [02 R56; reset none] -/
  lastRetire : Table Nat := []
  /-- Rank of the next issue. [02 R53; the model's own counter; reset 0] -/
  nextStamp : Nat := 0
  /-- Hard halt, LL_HALT.HALTED. [02 R72, 16 R420; 1 bit; reset 0] -/
  hardHalted : Bool := false
  /-- LL_HALT.DROPPED. [16 Table 16.12; 31 bits; reset 0] -/
  dropped : BitVec 31 := 0
deriving DecidableEq, Repr

/-! ## Engines -/

/-- An accumulator set that a ring claims (R121, R139). -/
structure AccSet where
  handle : Nat
  owner : Nat
  /-- Accumulator format code: 0x00, 0x01, 0x02 or 0x0B. -/
  fmt : BitVec 6
  /-- Shape code (Table 5.1). -/
  shape : BitVec 2
  stale : Bool := true
  /-- Control cycle of the claim, and the sequence number of the operation that made it (R139). -/
  claimedAt : Nat := 0
  claimedBy : W32 := 0
  /-- Elements row by row, as 32-bit patterns (16-bit ones in the low half). -/
  elems : List W32 := []
deriving DecidableEq, Repr

/-- The Mill of an M-tile. -/
structure Mill where
  /-- The claimed sets, by handle. Accumulator storage of unclaimed layers holds unspecified values that nothing can
  read. [05 R119, R131, Table 5.10; 65,536 cells of 128 bits; reset no set claimed: LOG 7] -/
  sets : List AccSet := []
  /-- MILL_WATCHDOG.LIMIT. [05 R147; 16 bits; reset 0x0040] -/
  limit : W16 := 0x0040
deriving DecidableEq, Repr

/-- State of a Loom program slot's image. -/
structure LoomImage where
  /-- Number that operations carry for the image they run. -/
  id : Nat
  slot : Nat
  instrs : List W64
  /-- ENTRY[0..7], 0xFFFF where absent. -/
  entries : List W16
  /-- The slot's present image; otherwise replaced or unloaded, and retiring (R183, R184). -/
  current : Bool := true
deriving DecidableEq, Repr

/-- A load of a Loom image in progress: it began with the command's acceptance and ends with its completion (R183). -/
structure LoomLoad where
  mbx : Nat
  slot : Nat
  /-- Instructions and entries of an image that passed its check. -/
  image : Option (List W64 × List W16)
  /-- The image's digest, which the program log takes (R398). -/
  digest : Bytes
  /-- First failing instruction of an image that did not (R182). -/
  fault : Nat
  /-- Pages taken while it loads. -/
  pages : Nat
deriving DecidableEq, Repr

/-- A Loom: registers, program memory and the running operation. -/
structure Loom where
  /-- v0 to v63. [06 R153; 64 of 256 × 32 bits; reset 0, as every operation starts] -/
  v : List Lanes := List.replicate 64 (List.replicate 256 0)
  /-- m0 to m15; m0 always reads as ones. [06 R153; 16 of 256 bits; reset 0, as every operation starts] -/
  m : List (BitVec 256) := List.replicate 16 0
  /-- s0 to s31; s0 always reads zero. [06 R153; 32 of 64 bits; reset 0, as every operation starts] -/
  s : List W64 := List.replicate 32 0
  /-- PC. [06 Table 6.1; 14 bits; reset 0: LOG 14] -/
  pc : Nat := 0
  /-- The operation that runs. [06 R152, Table 6.22; reset none] -/
  run : Option OpName := none
  /-- N_INSTR of the running program. [06 R180; 1 to 8,192; reset 0] -/
  length : Nat := 0
  /-- Core cycle of its branch at which the running operation started; core cycles it has waited in CHTAKE or CHSEND. [06
  R179; counts; reset 0] -/
  startAt : Nat := 0
  waited : Nat := 0
  /-- Device time and core cycle since which CHTAKE or CHSEND waits, and whether the take stall was logged. [06 R174; reset
  none] -/
  waitFrom : Option Nat := none
  waitCycle : Nat := 0
  /-- The outbound queue, 16 × tile + queue, whose credit CHSEND waits for; none for a wait of CHTAKE. [06 R175; reset none] -/
  waitOut : Option Nat := none
  /-- The inbound queue, 16 × tile + queue, from which CHTAKE waits to take, and the control cycle of its request. [06 R174;
  reset none] -/
  waitIn : Option Nat := none
  waitTick : Nat := 0
  waitLogged : Bool := false
  /-- Entries taken from each declared inbound queue, and sent to each declared chute. [06 R174, R175; reset 0] -/
  taken : List Nat := List.replicate 4 0
  sent : List Nat := List.replicate 4 0
  /-- LOOM_WATCHDOG.LIMIT. [06 R187; 16 bits; reset 0x0400] -/
  limit : W16 := 0x0400
  /-- The images held. [06 R183, Tables 6.24 and 6.25; 32 slots, 128 pages; reset none] -/
  images : List LoomImage := []
  /-- Number of the next image. [the model's own counter; reset 0] -/
  nextImage : Nat := 0
  /-- The load in progress. [06 R183, Table 6.25; at most one; reset none] -/
  loading : Option LoomLoad := none
deriving DecidableEq, Repr

/-- The Quern of a Q-tile. -/
structure Quern where
  /-- QUERN_WATCHDOG.LIMIT. [07 R208; 16 bits; reset 0x0100] -/
  limit : W16 := 0x0100
  /-- QUERN_PROGRESS.BLOCKS and ROW of the running operation. [07 R208; 32 and 16 bits; reset 0] -/
  blocks : W32 := 0
  row : W16 := 0
  /-- Core cycle at which the operation before the running one ended. [07 R199, R206; reset 0] -/
  since : Nat := 0
deriving DecidableEq, Repr

/-- A pooling program (R217). -/
structure PoolProgram where
  rows : List W64
  bags : List W64
deriving DecidableEq, Repr

/-- A ledger entry (R222). -/
structure LedgerEntry where
  table : Nat
  /-- Its place in the table's ledger area. -/
  slot : Nat := 0
  /-- The row identifier g. -/
  row : W64
  step : W64
  /-- FP32 gradient accumulator, DIM elements. -/
  acc : Lanes
  /-- The row lies in the Cellar: staging copy of its record. -/
  staging : Bytes := []
  cellar : Bool := false
  /-- The record has not arrived. -/
  pending : Bool := false
  /-- The fetch, or the write-back, failed with this status (R228). -/
  failed : Option Byte := none
  /-- An update has ended because of the failure. -/
  told : Bool := false
  /-- Its row's new record is on its way to the Cellar and not acknowledged (R228). -/
  writing : Bool := false
deriving DecidableEq, Repr

/-- The working registers of a Badger's pooling program (R217). -/
structure PoolRegs where
  x : Lanes := []
  a : Lanes := []
  w : W32 := 0x3F800000#32
  /-- Non-null entries of the bag. -/
  n : Nat := 0
  /-- Positions of the ordered sum so far: `none` is a padded position. -/
  terms : List (Option Lanes) := []
  /-- ACCMAX has taken a row of this bag, and per element the list index of the winner. -/
  seen : Bool := false
  winner : List Nat := []
  /-- List index of the entry being pooled. -/
  entry : Nat := 0
deriving DecidableEq, Repr

/-- The Badger of a B-tile. -/
structure Badger where
  /-- Installed table records of 128 bytes, by number. [08 R210, Table 8.2; 64; reset none] -/
  tables : Table Bytes := []
  /-- Loaded pooling programs, by slot. [08 R217; 16; reset none] -/
  programs : Table PoolProgram := []
  /-- The ledgers' entries of all tables, oldest first. [08 R222, Table 8.14; reset none] -/
  ledger : List LedgerEntry := []
  /-- BADGER_TIER_REQ. [08 R233; 3 of 48 bits; reset 0] -/
  tierReq : List (BitVec 48) := [0, 0, 0]
  /-- BADGER_WATCHDOG.LIMIT. [08 R233; 16 bits; reset 0x0400] -/
  limit : W16 := 0x0400
  /-- X, w, A and n of the pooling program. [08 R217; reset empty: LOG 14] -/
  pool : PoolRegs := {}
deriving DecidableEq, Repr

/-! ## Chutes -/

/-- State of an entry that occupies a slot of a queue. -/
inductive EntryState where
  /-- Sent by an operation that has not retired (R33); ring 65,536 + 16 × die + class for a batch packer. -/
  | sent (op : OpName)
  | committed
  /-- Taken by an operation that has not retired (R32). -/
  | taken (op : OpName)
  /-- Back at the head of the queue, reserved to a ring (R35). -/
  | reserved (ring : Nat)
deriving DecidableEq, Repr

/-- An entry of a chute queue: its slot, and the 64-byte header (Table 1.6). -/
structure Entry where
  slot : Nat
  header : Bytes
  bytes : Nat
  st : EntryState
deriving DecidableEq, Repr

/-- A bound inbound chute queue (R30, Table 1.7). -/
structure Chute where
  /-- [01 R39; 7 bits; reset 0] -/
  producer : Nat
  /-- [01 R39; 7 bits; reset 0] -/
  depth : Nat
  /-- Slot size in units of 4 KiB. [01 R39; 9 bits; reset 0] -/
  slotKib : Nat
  /-- Offset of the storage in the consumer's SRAM. [01 R31, 15 Table 15.7; 32 bits] -/
  offset : Nat
  /-- Stall limit in ms. [01 R37; reset 100] -/
  stallMs : Nat
  /-- Entries in the order of their commitment, then those sent and not committed. [01 R32; up to DEPTH; reset none] -/
  entries : List Entry := []
deriving DecidableEq, Repr

/-! ## Steps and numerics -/

/-- A census record (Table 9.4). -/
structure CensusRec where
  elements : W64 := 0
  zeros : W64 := 0
  saturated : W32 := 0
  nonfinite : W32 := 0
  maxmag : W32 := 0
  touched : Bool := false
  satStuck : Bool := false
  nfStuck : Bool := false
deriving DecidableEq, Repr

/-- The numerical state of an open step (R234). -/
structure StepState where
  /-- The local flag. [09 R237; 1 bit; set when the step opens] -/
  flag : Bool := true
  /-- The decision: APPLY is true. [09 R238; reset none] -/
  decision : Option Bool := none
  /-- The flag as a STEP_DECIDE in flight found it at its issue (R238). -/
  deciding : Option Bool := none
  /-- Control cycle of the decision, and of the latest clear (R237). -/
  decidedAt : Nat := 0
  clearAt : Option Nat := none
  /-- The health contribution has been sent (R330). -/
  healthSent : Bool := false
  /-- The step's health collective has retired on this device (R275). -/
  healthDone : Bool := false
  /-- Fields of the step record (Table 9.6). [09 R246] -/
  localAt : Bool := true
  cause : Byte := 0
  notRepro : Bool := false
  lateClear : Bool := false
  censusLate : Bool := false
  alone : Bool := false
  partials : Nat := 0
  decideTime : W64 := 0
  clearRing : W32 := 0xFFFFFFFF
  clearSeq : W32 := 0xFFFFFFFF
  /-- Merged census contributions by tensor. [09 R247; 4,096 records; reset none] -/
  census : Table CensusRec := []
  /-- EV_CENSUS_LATE was logged for the step (R248). -/
  lateLogged : Bool := false
deriving DecidableEq, Repr

/-- The numerical settings (Table 9.1). -/
structure NumSettings where
  /-- [09 R235; 64 bits; reset 0] -/
  seed : W64 := 0
  /-- [09 R235; 64 bits; reset 0 (none)] -/
  censusAddr : Nat := 0
  /-- [09 R235; 8 bits; reset 4] -/
  censusLog2 : Nat := 4
  /-- [09 R235; 64 bits; reset 0 (none)] -/
  policyAddr : Nat := 0
  /-- [09 R235; 64 bits; reset 0 (none)] -/
  scaleAddr : Nat := 0
  /-- [09 R235; 64 bits; reset 0 (none)] -/
  shardAddr : Nat := 0
  /-- [09 R235; 16 bits; reset 0] -/
  shardCount : Nat := 0
  /-- [09 R235; 16 bits; reset 256] -/
  silentRun : Nat := 256
deriving DecidableEq, Repr

/-- Steps, census and scaling in the ring hub. -/
structure Steps where
  /-- Oldest open step. [09 R234; 64 bits; reset 0] -/
  oldest : Nat := 0
  /-- The four open steps, oldest first. [09 R234; four; reset flags set, no decision] -/
  opened : List StepState := List.replicate 4 {}
  /-- [09 R235, Table 9.1] -/
  num : NumSettings := {}
  /-- Silent runs that are not 0, by tensor. [09 R250; 4,096 counts; reset 0] -/
  silent : Table Nat := []
  /-- Tensors whose invalid policy was logged since the last MB_NUM_CONFIG. [09 R251; reset none] -/
  policyLogged : List Nat := []
  /-- Steps closed since the last MB_NUM_CONFIG that changed CENSUS_ADDR, newest first, at most 16. [09 R251; reset
  none] -/
  closed : List Nat := []
  /-- Closed steps for which EV_CENSUS_LATE was logged. [09 R248; reset none] -/
  lateClosed : List Nat := []
deriving DecidableEq, Repr

/-! ## The Sequencer -/

/-- A copy of the Sequencer under way: the control cycle at which it was started, and the pointer that the arbiter of its data
mover then had (R345). -/
structure CopyStart where
  step : Nat
  j : Nat
  at_ : Nat := 0
  pointer : Nat := 0
deriving DecidableEq, Repr

/-- A member of a step script (Table 10.2) with its cursor (Table 10.7). -/
structure Member where
  ring : Nat
  gateOpen : Bool
  health : Bool
  offload : Bool
  mbMod : Nat
  mbRem : Nat
  slots : Nat
  fwd : Nat × Nat
  bwd : Nat × Nat
  fin : Nat × Nat
  tokens : Nat
  saveOff : Nat
  saveBpt : Nat
  /-- Device address of the member's share of the pool (R270), and whether it fell back (R271). -/
  pool : Nat := 0
  fellBack : Bool := false
  /-- Next unit: step, phase (0 forward, 1 backward, 2 end), j counted in the order of release. -/
  step : Nat
  phase : Nat := 0
  j : Nat := 0
  /-- Pool entries: (step, j, state) with state 1 in copy to the pool, 2 saved, 3 in copy back, 4 back in SRAM. -/
  copies : List (Nat × Nat × Nat) := []
  /-- When the copies under way were started (R345). -/
  starts : List CopyStart := []
  /-- Device time since which its next unit waits for ring space, and whether that was logged (R264). -/
  spaceFrom : Option Nat := none
  spaceLogged : Bool := false
  /-- Control cycle at which its next unit became releasable (R264). -/
  ripeAt : Option Nat := none
  /-- Step of the last unit it has released (R281). -/
  lastStep : Option Nat := none
  removed : Bool := false
deriving DecidableEq, Repr

/-- A loaded step script (R262). -/
structure Script where
  number : Nat
  micro : Nat
  bellBase : Nat
  bellCount : Nat
  start : Nat
  digest : Bytes
  members : List Member
  templates : List Bytes
  patches : List W64
  /-- First step that another script governs, once one has replaced this (R281). -/
  until_ : Option Nat := none
  /-- Banks reset for these steps (R269). -/
  banked : List Nat := []
  /-- The image as it was loaded (R262). -/
  image : Bytes := []
deriving DecidableEq, Repr

/-- A unit that was released: ring, step, phase, j, first sequence number and length. -/
structure Unit where
  ring : Nat
  step : Nat
  phase : Nat
  j : Nat
  first : W32
  count : Nat
  retired : Nat := 0
deriving DecidableEq, Repr

/-- A bound stage (R259). -/
structure Stage where
  tile : Nat
  rings : List Nat
deriving DecidableEq, Repr

/-- Phases of a migration (Table 10.6). -/
inductive MigratePhase where
  | drain | copy
deriving DecidableEq, Repr

/-- A stage migration in progress (R277, R278). -/
structure Migration where
  stage : Nat
  dest : Nat
  retire : Bool
  phase : MigratePhase
  since : Nat
  mbx : Nat
deriving DecidableEq, Repr

/-- An abandoned step (R273). -/
structure Abandoned where
  step : Nat
  restarted : Bool := false
deriving DecidableEq, Repr

/-- The Sequencer (Table 10.7). -/
structure Sequencer where
  /-- [10 R280; up to two; reset none] -/
  scripts : List Script := []
  /-- Released units not yet wholly retired, and the retired forward and backward units of open steps. [10 R266] -/
  units : List Unit := []
  /-- Bound stages by number. [10 R259; 64; reset none] -/
  stages : Table Stage := []
  /-- Offload pools of the two dies: base and size. [10 R270; 64 bits each; reset 0] -/
  pools : List (Nat × Nat) := [(0, 0), (0, 0)]
  /-- [10 R280; up to four; reset none] -/
  abandoned : List Abandoned := []
  /-- [10 R278; reset none] -/
  migration : Option Migration := none
  /-- Rotating pointer of the release arbiter. [10 R264; reset 0] -/
  pointer : Nat := 0
deriving DecidableEq, Repr

/-! ## The Thresher -/

/-- Configuration of a stream (Table 11.2). -/
structure StreamCfg where
  kind : Nat
  cls : Nat
  augSlot : Nat
  vocab : Nat
  augTable : Nat
  augCount : Nat
  augDefault : Nat
  maxW : Nat
  maxH : Nat
  maxUnits : Nat
  maxBytes : Nat
  rate : Nat
  channels : Nat
  damageMax : Nat
  staleNs : Nat
  workAddr : Nat
deriving DecidableEq, Repr

/-- A sample on its way (R289 to R298). -/
structure Sample where
  stream : Nat
  /-- Payload bytes received so far, the 64-byte header first. -/
  bytes : Bytes := []
  /-- BSEQ of the SOS block, and the next BSEQ expected. -/
  sos : W16 := 0
  bseq : W16 := 0
  /-- The EOS block has been received, at `arrival`. -/
  ended : Bool := false
  arrival : W64 := 0
  headerTick : Nat := 0
  damaged : Bool := false
  gapLogged : Bool := false
  /-- Received blocks not yet freed. -/
  blocks : Nat := 0
  /-- The header was lost, or the sample was refused, stale, late or duplicate: its blocks are freed as they come. -/
  dropped : Bool := false
  /-- The record's FLAGS bits so far (Table 11.7). -/
  flags : Byte := 0
  /-- The augmentation record chosen for it, parameters P[0] to P[11] (R302). -/
  params : List W32 := []
  /-- Its slot is claimed: the sample lies in the window of its class (R298). -/
  placed : Bool := false
  /-- Where in `bytes` the first gap of its blocks lies (R292). -/
  gapAt : Option Nat := none
  /-- A decoder core has been granted. -/
  decoding : Bool := false
  /-- The augmentation program it goes on with, where its slot was replaced or unloaded after the grant (R183, R302). -/
  prog : Option (List W64) := none
  /-- The operation that injected it (R304). -/
  injector : Option OpName := none
deriving DecidableEq, Repr

/-- What a slot of an open batch holds once it is resolved (Table 11.7). -/
structure SlotStatus where
  sampleId : W64 := 0
  capture : W64 := 0
  length : W32 := 0
  firstDamage : W32 := 0xFFFFFFFF
  damage : W16 := 0
  state : Byte := 5
  flags : Byte := 0
  regions : W32 := 0
  /-- The slot's bytes: SLOT_BYTES of them. -/
  content : Bytes := []
deriving DecidableEq, Repr

/-- An open batch of a class (R298, R299). -/
structure Batch where
  number : Nat
  timerStart : W64
  /-- Slots claimed by a sample that has arrived and is still on its way. -/
  claimed : List Nat := []
  /-- Slots resolved. -/
  slots : Table SlotStatus := []
  timedOut : Bool := false
  flushed : Bool := false
  /-- Conversion counts for the census (R301). -/
  census : List CensusAdd := []
  /-- The TH_FLUSH operations that wait for it. -/
  flushers : List OpName := []
  /-- Device time at which the batch was emitted, when it was: the entry then waits to commit. -/
  emitted : Option W64 := none
  chuteSlot : Nat := 0
  /-- Where its entry went, as (tile, queue), and its STEP: set at its emission, whatever the class is configured to since. -/
  dest : Nat × Nat := (0, 0)
  step : Nat := 0
deriving DecidableEq, Repr

/-- A batch class (Table 11.5). -/
structure BatchClass where
  samples : Nat
  mode : Nat
  destTile : Nat
  destQueue : Nat
  kind : Nat
  shape : List Nat
  format : W16
  tensor : Nat
  pad : W32
  bufBase : Nat
  bufStride : Nat
  stageAddr : Nat
  timeoutNs : Nat
  stepBase : W64
  bps : Nat
  slotBytes : Nat
  /-- Number of the oldest batch not yet emitted. -/
  next : Nat := 0
  /-- Each highest batch number that a header has named, with the time of that header, oldest first: the timer of batch n
  started with the first of them that is not below n (R299). -/
  marks : List (Nat × W64) := []
  batches : List Batch := []
deriving DecidableEq, Repr

/-- A tokeniser vocabulary (R303): merges (left, right) of entries 256 onward, and the SPLIT bytes. -/
structure Vocab where
  merges : List (Nat × Nat)
  split : List Nat
deriving DecidableEq, Repr

/-- The sample that an augmentation program works on (R302): pictures or audio frames as FP32 elements. -/
structure AugWork where
  stream : Nat := 0
  width : Nat := 0
  height : Nat := 0
  channels : Nat := 0
  /-- Pictures, or audio frames, each its elements with the channel innermost. -/
  units : List (List W32) := []
  params : List W32 := []
deriving DecidableEq, Repr

/-- The Thresher of one die. -/
structure Thresher where
  /-- Port state: 0 down, 1 up, 2 degraded, 3 disabled. [11 R283; reset 0] -/
  port : Nat := 0
  lanes : Nat := 0
  /-- FREED as it stands, and as the last CREDIT block carried it. [11 R286; 32 bits; reset 0] -/
  freed : W32 := 0
  freedSent : W32 := 0
  /-- Device times of the last CREDIT and TIME blocks. [11 R286, R287; reset 0] -/
  creditAt : Nat := 0
  timeAt : Nat := 0
  /-- Configured streams. [11 R288; 4,096; reset none] -/
  streams : Table StreamCfg := []
  /-- Samples being received, waiting or being decoded, oldest first. [11 R289, R292, R298; reset none] -/
  samples : List Sample := []
  /-- Streams whose blocks are discarded up to the next SOS. [11 R292, R293; reset none] -/
  skipping : List Nat := []
  /-- Configured batch classes. [11 R298; 16; reset none] -/
  classes : Table BatchClass := []
  /-- Augmentation programs, by slot: their instructions. [11 R302; 32; reset none] -/
  programs : Table (List W64) := []
  /-- [11 R303; 4; reset none] -/
  vocabs : Table Vocab := []
  /-- Rotating pointer of the core arbiter. [11 R292; reset 0] -/
  pointer : Nat := 0
  /-- Working picture or audio of the augmentation program. [11 R302; reset empty: LOG 14] -/
  aug : AugWork := {}
deriving DecidableEq, Repr

/-! ## The fabric -/

/-- A flit held for replay or received (Table 12.2). -/
structure Flit where
  lseq : BitVec 12
  vc : Nat
  /-- HEAD, or else BODY. -/
  head : Bool := false
  /-- The 48 data bytes. -/
  bytes : Bytes
deriving DecidableEq, Repr

/-- One fabric port: its port record and its link state. -/
structure Port where
  /-- STATE of Table 12.4. [12 R318; 8 bits; reset 0 DOWN until trained] -/
  st : Nat := 0
  width : Nat := 0
  rxSpare : Option Nat := none
  txSpare : Option Nat := none
  peerVersion : Nat := 0
  rate : Nat := 0
  peerPort : Nat := 0
  peerIdent : W64 := 0
  peerCoord : W16 := 0
  /-- RETRAINS and REPLAYS since power-on. [12 Table 12.4; 32 and 64 bits; reset 0] -/
  retrains : W32 := 0
  replays : W64 := 0
  /-- LSEQ of the last flit accepted. [12 R310; 12 bits; reset 0xFFF, one before the first: LOG 14] -/
  rxLast : BitVec 12 := 0xFFF
  /-- A NAK stands: the next LSEQ expected has been asked for, since this time. [12 R310; reset none] -/
  nakFrom : Option Nat := none
  /-- LSEQ of the next flit to send. [12 R311; 12 bits; reset 0] -/
  txNext : BitVec 12 := 0
  /-- The replay buffer, oldest first. [12 R311; 2,048 flits; reset empty] -/
  replay : List Flit := []
  /-- LSEQ of the last replay asked for, and how often in a row. [12 R311; reset 0] -/
  nakSeq : BitVec 12 := 0
  nakRun : Nat := 0
  /-- Flits sent on each VC, and the last CR_TOTAL received for it, modulo 4,096. [12 R312; 8 of 12 bits; reset 0] -/
  vcSent : List (BitVec 12) := List.replicate 8 0
  crTotal : List (BitVec 12) := List.replicate 8 0
  /-- Flits of each VC freed here since training, which CR_TOTAL reports. [12 R312; 8 of 12 bits; reset 0] -/
  vcFreed : List (BitVec 12) := List.replicate 8 0
  /-- The VC whose CR_TOTAL the next flit reports. [12 R312; 3 bits; reset 0] -/
  crTurn : Nat := 0
  /-- The receive buffers: VC and the 54 payload bytes of each flit accepted and not freed, oldest first. [12 R308, R312; 8 × 256
  flits; reset empty] -/
  rx : List (Nat × Bytes) := []
  /-- Messages that wait for the port's output, each with the input it came by (6 for local injection), oldest first, and
  the rotating pointer of the output's arbiter. [12 R313; reset none, 0] -/
  waiting : List (Nat × FabMsg) := []
  pointer : Nat := 0
  /-- What is left to send of a message that stopped for want of credit, by VC: each flit's data, and whether it is the HEAD.
  [12 R309, R312; 8 messages; reset none] -/
  sending : Table (List (Bool × Bytes)) := []
  /-- A retrain is in progress: what started it, and the mailbox that waits. [12 R315; reset none] -/
  retraining : Bool := false
  mbx : Option Nat := none
  /-- The retrain was forced by replays: no detour steers off the port, and its traffic waits. [12 R315; 1 bit; reset 0] -/
  forced : Bool := false
  /-- The neighbour is not synchronised to the time root, as last reported. [12 R323; 1 bit; reset 0: LOG 14] -/
  peerUnsynced : Bool := false
deriving DecidableEq, Repr

/-- A group record (Table 12.6). -/
structure Group where
  /-- Members: coordinates and place count. -/
  members : List (W16 × Nat)
  coord : Nat
  late : Bool
  rc : BitVec 4
  windowNs : Nat
  failNs : Nat
  stageAddr : Nat
  stageBytes : Nat
  /-- The header bytes as installed, for the state area. -/
  header : Bytes
deriving DecidableEq, Repr

/-- The coordinator's side of an instance (R327). -/
structure Coordinator where
  inst : CollName
  t0 : Nat
  /-- PRESENT received before the close: member, flag, carried. -/
  present : List (Nat × Bool × Bool)
  closed : Option MaskMsg := none
  mismatch : Option Nat := none
deriving DecidableEq, Repr

/-- A root's side of one segment of an instance (R327). -/
structure RootSegment where
  inst : CollName
  segment : Nat
  count : Nat
  seg : Nat
  kind : Byte
  inFmt : W16
  outFmt : W16
  /-- Segments received, by place, as FP32 or INT32 elements. -/
  got : Table (List W32) := []
  mask : Option MaskMsg := none
  /-- Members to whom the result was sent. -/
  sentTo : List Nat := []
deriving DecidableEq, Repr

/-- This device's own part in an instance (R327 to R329). -/
structure MemberPart where
  op : OpName
  inst : CollName
  /-- Elements sent for each of its places, as FP32. -/
  values : List (List W32)
  segments : Nat
  acked : Nat := 0
  present : Bool := false
  presentAt : Nat := 0
  carried : Bool := false
  mask : Option MaskMsg := none
  maskAt : Nat := 0
  /-- Result segments written: (segment, place). -/
  results : List (Nat × Nat) := []
deriving DecidableEq, Repr

/-- A class 0 request without its response (R322). -/
structure Request where
  tag : W32
  sentAt : Nat
  op : OpName
  dest : W16 := 0
  /-- Header bytes 16 to 47 of the message. -/
  info : Bytes := []
  /-- The bytes it asks for or brings: the key of the first, and how many; a read, and which pass of its operation reads. -/
  key : Nat := 0
  len : Nat := 0
  read : Bool := false
  pass : Nat := 0
deriving DecidableEq, Repr

/-- A lend (R348). -/
structure Lend where
  base : Nat
  size : Nat
  borrower : W16
deriving DecidableEq, Repr

/-- A borrow (R348). -/
structure Borrow where
  lender : W16
  lend : Nat
  size : Nat
deriving DecidableEq, Repr

/-- The fabric: ports, routing, groups, collectives, lending, time. -/
structure Fabric where
  /-- Coordinates, torus dimensions, directions, time root. [12 R317; 15 bits, three of 8 bits, six codes, 15 bits; reset
  (0,0,0), 1 × 1 × 1, the default directions of R317, root (0,0,0): LOG 14 but for the directions] -/
  coord : W16 := 0
  dims : List Nat := [1, 1, 1]
  dirs : List Nat := [1, 3, 5, 0, 2, 4]
  root : W16 := 0
  /-- [12 R318; 6 records] -/
  ports : List Port := List.replicate 6 {}
  /-- Exception table entries that are not zero. [12 R320; 256 of 64 bits; reset 0] -/
  exceptions : Table W64 := []
  /-- [12 R325; 4,096; reset none] -/
  groups : Table Group := []
  coordinators : List Coordinator := []
  roots : List RootSegment := []
  parts : List MemberPart := []
  /-- [12 R322; reset none] -/
  requests : List Request := []
  /-- TAG of the next request. [12 Table 12.3; 32 bits; reset 0] -/
  nextTag : W32 := 0
  /-- [13 R348; 64 lends and 64 borrows; reset none] -/
  lends : Table Lend := []
  borrows : Table Borrow := []
  /-- Port to the time parent, whether the first lock is done, and holdover. [12 R323, R324; 3, 1 and 1 bits; reset none] -/
  parent : Option Nat := none
  locked : Bool := false
  holdover : Bool := false
  /-- Offset still to be slewed in, and the tick of the uncorrected clock at which one was last doubled or swallowed. [12 R323;
  ns; reset 0] -/
  slew : Int := 0
  slewAt : Nat := 0
deriving DecidableEq, Repr

/-! ## Memory -/

/-- A GDDR7 channel in service (R341). -/
structure Channel where
  /-- Device time and temperature of the last calibration. [13 R341; reset 0] -/
  at_ : Nat := 0
  temp : Int := 0
  /-- Failures in a row. [13 R341; reset 0] -/
  fails : Nat := 0
  failed : Bool := false
deriving DecidableEq, Repr

/-- Error counts of a tile's SRAM (Table 13.4). -/
structure SramErr where
  corrected : W32 := 0
  uncorrectable : W16 := 0
  rows : Byte := 0
  cols : Byte := 0
deriving DecidableEq, Repr

/-- The memories the device reaches. -/
structure Memory where
  /-- GDDR7 data and tile SRAM by device address; unlisted bytes are zero. [13 R331; 84 GiB and 2,256 MiB; reset all zero
  (R401)] -/
  cells : List Host.Cell := []
  /-- Error pattern of each 144-code word that differs from what was stored, by word address. [13 R338, R339; reset
  none] -/
  flips : Table (BitVec 144) := []
  /-- Host memory by host bus address; unlisted bytes are zero. [13 R346; outside the device; LOG 6] -/
  host : List Host.Cell := []
  /-- Memory of other devices as this device sees it, by remote key; unlisted bytes are zero. [13 R349; outside the
  device; LOG 10] -/
  remote : List Host.Cell := []
  /-- Channels that differ from their reset value, at 48 × die + 4 × mc + ch. [13 R341; 96; reset] -/
  channels : Table Channel := []
  /-- Channels forced to the head of the recalibration queue. [13 R341; reset none] -/
  forced : List Nat := []
  /-- SCRUB_HOURS. [13 R342; 8 bits; reset 12] -/
  scrubHours : Nat := 12
  /-- ECS counts last read of each device. [13 R342; 24 counts; reset 0] -/
  ecs : List Nat := List.replicate 24 0
  /-- Translation table of the host window: address and entries. [13 R346; 48 and 21 bits; reset no entry] -/
  hostTable : Nat := 0
  hostEntries : Nat := 0
  /-- The table's bytes as the last MB_MEM_HOSTMAP found them, by address: the entries in effect. [13 R346; up to 1,048,576
  of 8 bytes; reset none] -/
  hostCells : List Host.Cell := []
  /-- TILE_SRAM_ERR of each tile that is not zero. [13 R344; 64 of 64 bits; reset 0, spares of the part: LOG 11] -/
  sramErr : Table SramErr := []
deriving DecidableEq, Repr

/-! ## Granary and Owl -/

/-- States of the Granary (Table 14.6). -/
inductive GranaryState where
  | idle | armed | copying | sealing
deriving DecidableEq, Repr

/-- A page of a snapshot (R357). -/
structure Page where
  region : Nat
  /-- Device address and length of the page's bytes. -/
  addr : Nat
  bytes : Nat
  /-- Engine (die) that takes it, and its place among the store's data pages. -/
  die : Nat
  index : Nat
  taken : Bool := false
  /-- Sent to the partner at this time and not yet acknowledged. -/
  sentAt : Option Nat := none
  acked : Bool := false
  digest : Bytes := []
  /-- Rank among the pages that a stalled write waits for: control cycle of the first stall (R358). -/
  wanted : Option Nat := none
deriving DecidableEq, Repr

/-- The Granary. -/
structure Granary where
  /-- Configuration record of Table 14.1. [14 R350; 64 bytes; reset unconfigured] -/
  cfg : Option Bytes := none
  /-- [14 R356; reset IDLE] -/
  st : GranaryState := .idle
  /-- Armed step. [14 R355; 64 bits; reset 0] -/
  step : Nat := 0
  /-- Slot being written, and the time of the cut. [14 R356; reset 0] -/
  slot : Nat := 0
  cutTime : Nat := 0
  /-- Pages of the snapshot. [14 R357; reset none] -/
  pages : List Page := []
  /-- State area and region table assembled at the cut. [14 R355; reset empty] -/
  area : Bytes := []
  regions : List Bytes := []
  /-- For each SHARD region: its place, its BYTES at the configuration, and LIVE_STEP at the cut. [14 R360, R374; reset none] -/
  liveSel : List (Nat × Nat × Nat) := []
  /-- Started by the Owl; a trigger is held. [14 R356, R361; reset false] -/
  byOwl : Bool := false
  heldTrigger : Bool := false
  /-- Step of a received request that waits for the Granary to be IDLE or for a migration to end. [14 R356, R365; 64 bits; reset
  none] -/
  heldStep : Option Nat := none
  /-- Rotating pointer of each die's copy engine among its stalled pages. [14 R358; reset 0] -/
  pagePtr : List Nat := [0, 0]
  /-- Operations that have joined the armed snapshot. [14 R356; reset none] -/
  waiters : List OpName := []
  /-- Address ranges written since each slot's committed cut, as (address, bytes); `none` counts every page as written.
  [14 R357, R359; reset every page] -/
  written : List (Option (List (Nat × Nat))) := [none, none]
  /-- Pages, by place in `pages`, that writes of the command being carried out met untaken. Empty between commands: a
  command that meets one waits (R359). The model's own field. -/
  stalls : List Nat := []
  /-- Digest of each page in each slot's last committed generation. [14 R357; reset none] -/
  digests : List (Table Bytes) := [[], []]
  /-- Steps of snapshots, GEN and slot of the committed generations this device wrote. [14 R352; reset none] -/
  lastCut : Option Nat := none
deriving DecidableEq, Repr

/-- The Owl (R362 to R364). -/
structure Owl where
  /-- The 64 risk rules. [14 Table 14.7; 64 of 64 bits; reset Table 14.9] -/
  rules : List W64
  /-- [14 R363; 64 counters of 0 to 261,888; reset 0] -/
  counters : List Nat := List.replicate 64 0
  /-- [14 Table 14.8; 10 bits; reset 512] -/
  snapAt : Nat := 512
  /-- [14 Table 14.8; 10 bits; reset 384] -/
  rearm : Nat := 384
  /-- [14 Table 14.8; 32 bits; reset 60,000] -/
  minGapMs : Nat := 60000
  /-- The estimate E. [14 R363; 10 bits; reset 0] -/
  estimate : Nat := 0
  /-- Rearmed. [14 R364; 1 bit; reset true: LOG 14] -/
  armed : Bool := true
  /-- A trigger is held until the gap ends. [14 R364; reset false] -/
  held : Bool := false
  /-- Cut of the last snapshot that the Owl started. [14 R364; ns; reset none] -/
  lastCut : Option Nat := none
  /-- Occurrences of each event since the last evaluation. [14 R363; reset none] -/
  events : Table Nat := []
  /-- Device time of the last evaluation in ms. [14 R363; reset 0] -/
  lastEval : Nat := 0
deriving DecidableEq, Repr

/-- Table 14.9 as rules of Table 14.7: EVENT, KIND, WEIGHT in 1/256, DECAY, TEMP_C. -/
def resetRules : List W64 :=
  let rule (event kind weight decay temp : Nat) : W64 :=
    BitVec.ofNat 64 (event + kind * 2 ^ 12 + weight * 2 ^ 14 + decay * 2 ^ 32 + temp * 2 ^ 40)
  [ rule 0xC61 1 (640 * 256) 31 0, rule 0xC50 1 (384 * 256) 18 0, rule 0x850 1 (256 * 256) 18 0,
    rule 0xC70 1 (128 * 256) 16 0, rule 0x852 1 (64 * 256) 16 0, rule 0x451 1 (32 * 256) 16 0,
    rule 0xC00 1 (8 * 256) 14 0, rule 0x460 1 16 12 0, rule 0x450 1 1 10 0, rule 0 2 (192 * 256) 0 95 ]
  ++ List.replicate 54 0

/-! ## The device -/

/-- The device. -/
structure Dev where
  clock : Clock := {}
  power : Power := {}
  units : UnitMap := {}
  flash : Flash := {}
  host : HostIf := {}
  out : Outbox := {}
  /-- West and east Tally. [17 R432] -/
  tally : List Tally := [{}, {}]
  counters : Counters := {}
  iabor : Iabor := {}
  hub : Hub := {}
  /-- Mills of M-tiles, by tile, that differ from their reset value. [05 R118; 18] -/
  mills : Table Mill := []
  /-- Looms at 2 × tile + engine that differ from their reset value. [06 R150; 90] -/
  looms : Table Loom := []
  /-- [07 R199; 2] -/
  querns : Table Quern := []
  /-- [08 R209; 8] -/
  badgers : Table Badger := []
  /-- Bound chute queues, at 16 × tile + queue. [01 R30; 1,024; reset unbound] -/
  chutes : Table Chute := []
  steps : Steps := {}
  seq : Sequencer := {}
  /-- West and east. [11] -/
  threshers : List Thresher := [{}, {}]
  fabric : Fabric := {}
  mem : Memory := {}
  granary : Granary := {}
  owl : Owl := { rules := resetRules }
  /-- Free values drawn so far. The model's own field, not the spec's. [reset 0: DESIGN CHOICE, LOG 4] -/
  draws : Nat := 0
deriving DecidableEq, Repr

/-- A fault: the manual gives the device none (R10), so no meaning answers with one. -/
inductive Fault where
  /-- Raised by nobody; it stands so that the type is not empty. Safe. -/
  | none
deriving DecidableEq, Repr

/-- A refusal. -/
inductive Refusal where
  /-- Raised by an arm of `exec` whose command has no meaning yet, named by its mnemonic. Safe. -/
  | notModelled (mnemonic : String)
deriving DecidableEq, Repr

/-- The block: the device, and the commands that wait, first in first out. -/
structure State where
  dev : Dev := {}
  pending : List Instr := []
deriving DecidableEq, Repr

/-- The block right after power-on: phase A of bring-up begins, and no command waits. -/
def State.reset : State := {}

end Sys2Proof.Machine
end

