-- ==== Sys2Proof/Machine/Bits.lean ====
section
/-! DEFINITION. Bit fields, little-endian bytes and sparse tables: the small tools every other file uses. -/

namespace Sys2Proof.Machine

/-- Bits [msb:lsb] of an integer (R5, R13). -/
def bits (v msb lsb : Nat) : Nat := v / 2 ^ lsb % 2 ^ (msb + 1 - lsb)

/-- Bit [n] of an integer (R5). -/
def bit (v n : Nat) : Bool := v / 2 ^ n % 2 == 1

/-- A Bool as one bit. -/
def ofBool (b : Bool) : Nat := if b then 1 else 0

/-- The integer that bytes spell, the least significant byte first (R6). -/
def leNat : Bytes → Nat
  | [] => 0
  | b :: r => b.toNat + 256 * leNat r

/-- The `n` low bytes of an integer, the least significant byte first (R6). -/
def leBytes : Nat → Nat → Bytes
  | 0, _ => []
  | n + 1, v => BitVec.ofNat 8 v :: leBytes n (v / 256)

/-- `n` bytes from byte `off`; bytes past the end are zero. -/
def slice (b : Bytes) (off n : Nat) : Bytes :=
  let t := (b.drop off).take n
  t ++ List.replicate (n - t.length) 0

/-- The little-endian field of `n` bytes at byte `off` (R6). -/
def fld (b : Bytes) (off n : Nat) : Nat := leNat (slice b off n)

/-- Every byte of [off, off + n) is zero. -/
def zeroAt (b : Bytes) (off n : Nat) : Bool := (slice b off n).all (· == 0)

/-- `b` with `v` in place of the bytes from `off` on. -/
def splice (b : Bytes) (off : Nat) (v : Bytes) : Bytes :=
  slice b 0 off ++ v ++ b.drop (off + v.length)

/-- An `n`-bit integer read as two's complement (R77). -/
def signed (n v : Nat) : Int := if v % 2 ^ n < 2 ^ (n - 1) then (v % 2 ^ n : Nat) else (v % 2 ^ n : Nat) - (2 ^ n : Nat)

/-- An integer as an `n`-bit two's complement pattern. -/
def wrap (n : Nat) (v : Int) : Nat := (v % (2 ^ n : Nat)).toNat

/-! ## Sparse tables, in rising order of their keys -/

/-- The entry of `k`. -/
def tget {α : Type} : Table α → Nat → Option α
  | [], _ => none
  | (k', v) :: r, k => if k = k' then some v else tget r k

/-- The entry of `k`, or a default. -/
def tgetD {α : Type} (t : Table α) (k : Nat) (dflt : α) : α := (tget t k).getD dflt

/-- The table with `v` at `k`. -/
def tput {α : Type} : Table α → Nat → α → Table α
  | [], k, v => [(k, v)]
  | (k', v') :: r, k, v =>
    if k < k' then (k, v) :: (k', v') :: r
    else if k = k' then (k, v) :: r
    else (k', v') :: tput r k v

/-- The table without `k`. -/
def tdel {α : Type} : Table α → Nat → Table α
  | [], _ => []
  | (k', v') :: r, k => if k = k' then r else (k', v') :: tdel r k

/-- The table with `v` at `k`, where the default value is not listed. -/
def tputD {α : Type} [DecidableEq α] (t : Table α) (k : Nat) (v dflt : α) : Table α :=
  if v = dflt then tdel t k else tput t k v

/-- The table with `f` applied to the entry of `k`, if it has one. -/
def tmod {α : Type} (t : Table α) (k : Nat) (f : α → α) : Table α :=
  match tget t k with
  | none => t
  | some v => tput t k (f v)

/-- Whether `k` has an entry. -/
def thas {α : Type} (t : Table α) (k : Nat) : Bool := (tget t k).isSome

/-- A list with `f` applied at place `n`. -/
def modAt {α : Type} (l : List α) (n : Nat) (f : α → α) : List α :=
  match l[n]? with
  | none => l
  | some x => l.set n (f x)

/-- The first place at or after `p`, counting up and wrapping at `n`, that the list holds: the rotating choice of R62. -/
def firstFrom (p n : Nat) (l : List Nat) : Option Nat :=
  let key (i : Nat) : Nat := (i + n - p % n) % n
  l.foldl (fun best i => match best with
    | none => some i
    | some b => if key i < key b then some i else some b) none

/-- The winner of R62 among requests (index, issue tick): the oldest tick, then the first index at or after the pointer. -/
def grant (p n : Nat) (reqs : List (Nat × Nat)) : Option Nat :=
  match reqs.foldl (fun m r => match m with
    | none => some r.2
    | some t => some (min t r.2)) (none : Option Nat) with
  | none => none
  | some t => firstFrom p n ((reqs.filter (·.2 == t)).map (·.1))

end Sys2Proof.Machine
end

