-- ==== Sys2Proof/Machine/Digest.lean ====
section
/-! DEFINITION. SHAKE256 with 256-bit output and CRC-32C, which the manual names by their published standards (FIPS 202 and
Castagnoli; PRESUMED, log 19). -/

namespace Sys2Proof.Machine

/-! The 1,600 bits of the permutation are held as five planes, each a list of five lanes. No table of the standard is written
out: the rotations and the places come from the walk that defines them, and the round constants from their shift register. -/

/-- The planes added lane by lane. -/
def xorLanes (p q : List W64) : List W64 := p.zipWith (· ^^^ ·) q

/-- Theta: every lane takes the parity of the column before it and of the column after it, the latter turned by one bit. -/
def theta (planes : List (List W64)) : List (List W64) :=
  let parity := planes.foldl xorLanes [0, 0, 0, 0, 0]
  let turned := parity.map (·.rotateLeft 1)
  let mix := xorLanes (parity.drop 4 ++ parity.take 4) (turned.drop 1 ++ turned.take 1)
  planes.map (xorLanes mix)

/-- The walk of rho and pi: from column x and plane y the lane goes to column y and plane 2 x + 3 y, and the k-th lane moved turns
by the sum of 1 to k. Each entry is the lane left, the lane reached and the turn. -/
def laneWalk : Nat → Nat → Nat → Nat → List (Nat × Nat × Nat)
  | 0, _, _, _ => []
  | left + 1, k, x, y =>
      let y' := (2 * x + 3 * y) % 5
      (5 * y + x, 5 * y' + y, k * (k + 1) / 2 % 64) :: laneWalk left (k + 1) y y'

/-- Rho and pi: every lane but the first moves along the walk. -/
def rhoPi (planes : List (List W64)) : List (List W64) :=
  let old := planes.flatten
  let new := (laneWalk 24 1 1 0).foldl (fun acc (src, dst, turn) => acc.set dst ((old.getD src 0).rotateLeft turn)) old
  (List.range 5).map fun y => (new.drop (5 * y)).take 5

/-- Chi within one plane. -/
def chi : List W64 → List W64
  | [a, b, c, d, e] =>
      [a ^^^ (~~~b &&& c), b ^^^ (~~~c &&& d), c ^^^ (~~~d &&& e), d ^^^ (~~~e &&& a), e ^^^ (~~~a &&& b)]
  | other => other

/-- The eight-bit shift register of the round constants, by x^8 + x^6 + x^5 + x^4 + 1. -/
def nextLfsr (r : Nat) : Nat := if 128 ≤ r then (2 * r) ^^^ 0x171 else 2 * r

/-- The constant of a round, from the register as the round finds it, and the register after it: seven of its bits go to the bits
one below a power of two. -/
def iotaOf (r : Nat) : W64 × Nat :=
  [0, 1, 3, 7, 15, 31, 63].foldl (fun (c, r) place => (if r % 2 = 1 then c ^^^ BitVec.twoPow 64 place else c, nextLfsr r)) (0, r)

/-- Iota: the first lane takes the round's constant. -/
def iota (c : W64) : List (List W64) → List (List W64)
  | (lane :: rest) :: planes => ((lane ^^^ c) :: rest) :: planes
  | other => other

/-- The permutation: 24 rounds, the register running through them. -/
def keccak (planes : List (List W64)) : List (List W64) :=
  ((List.range 24).foldl (fun (st : List (List W64) × Nat) _ => (iota (iotaOf st.2).1 ((rhoPi (theta st.1)).map chi), (iotaOf st.2).2))
    (planes, 1)).1

/-- A block of 136 bytes taken into the state: the 17 lanes in plane order. -/
def absorb (planes : List (List W64)) (blk : Bytes) : List (List W64) :=
  keccak ((List.range 5).map fun y => xorLanes (planes.getD y [])
    ((List.range 5).map fun x => if 5 * y + x < 17 then BitVec.ofNat 64 (fld blk (8 * (5 * y + x)) 8) else 0))

/-- The message with the padding of SHAKE. -/
def shakePad (m : Bytes) : Bytes :=
  let n := 136 - m.length % 136
  m ++ (if n = 1 then [0x9F] else 0x1F :: List.replicate (n - 2) 0 ++ [0x80])

/-- SHAKE256 with 256 bits of output. -/
def shake256 (m : Bytes) : Bytes :=
  let p := shakePad m
  let planes := (List.range (p.length / 136)).foldl (fun planes k => absorb planes ((p.drop (136 * k)).take 136))
    (List.replicate 5 (List.replicate 5 0))
  (planes.flatten.take 4).flatMap fun lane => leBytes 8 lane.toNat

/-- One bit of the reflected CRC-32C. -/
def crcBit (c : W32) : W32 := if c.getLsbD 0 then (c >>> 1) ^^^ 0x82F63B78 else c >>> 1

/-- CRC-32C of bytes. -/
def crc32c (m : Bytes) : W32 :=
  ~~~(m.foldl (fun c b => (List.range 8).foldl (fun c _ => crcBit c) (c ^^^ b.setWidth 32)) 0xFFFFFFFF)

end Sys2Proof.Machine
end

