-- ==== Sys2Proof/Machine/Codes.lean ====
section
/-! DEFINITION. The 144 code of R338 and R339. -/

namespace Sys2Proof.Machine

/-- Multiplication by α in GF(2^8) with x^8 + x^4 + x^3 + x^2 + 1 (R338). -/
def gfTimesAlpha (x : Nat) : Nat := if x < 128 then 2 * x else (2 * x) % 256 ^^^ 0x1D

/-- α^p (R338). -/
def gfPow : Nat → Nat
  | 0 => 1
  | p + 1 => gfTimesAlpha (gfPow p)

/-- α^0 to α^(n-1), starting from `x` and stepping by `k` powers. -/
def gfPowers (x k : Nat) : Nat → List Nat
  | 0 => []
  | n + 1 => x :: gfPowers ((List.range k).foldl (fun y _ => gfTimesAlpha y) x) k n

/-- The code position of stored bit `i`: check bit [128 + k] is position k, data bit [i] is position i + 16 (R338). -/
def codePosition (i : Nat) : Nat := if i < 128 then i + 16 else i - 128

/-- The sum of α^(k·p) over the positions p of the set bits of a word: S1 for k = 1, S3 for k = 3 (R338). -/
def syndrome (k : Nat) (w : BitVec 144) : Nat :=
  let powers := gfPowers 1 k 144
  (List.range 144).foldl (fun s i => if w.getLsbD i then s ^^^ powers.getD (codePosition i) 0 else s) 0

/-- A word is valid exactly when S1 and S3 are 0 (R338). -/
def validWord (w : BitVec 144) : Bool := syndrome 1 w == 0 && syndrome 3 w == 0

/-- Whether syndromes match a pattern of one or two errors (R339). -/
def matchesTwo (s1 s3 : Nat) : Bool :=
  let p1 := gfPowers 1 1 144
  let p3 := gfPowers 1 3 144
  let both := p1.zip p3
  both.any (fun x => x.1 == s1 && x.2 == s3) ||
  both.any (fun x => both.any (fun y => x.1 != y.1 && x.1 ^^^ y.1 == s1 && x.2 ^^^ y.2 == s3))

/-- The 16 check bits of a data value: the unique ones that make both sums 0 (R338). Each unit vector of the sixteen
check positions is reduced once; the code is linear. -/
def checkBits (data : BitVec 128) : BitVec 16 :=
  -- remainder of Σ x^(i+16) by g(x) = m1(x) m3(x), where m1 = 0x11D and m3 = 0x177
  let g : Nat := 0x16F63 -- the product of 0x11D and 0x177 over GF(2)
  let r := (List.range 128).foldl (fun (r : Nat) i =>
    let r2 := r * 2 + (if data.getLsbD (127 - i) then 0x10000 else 0)
    if r2 / 65536 % 2 == 1 then (r2 ^^^ g) % 65536 else r2 % 65536) 0
  BitVec.ofNat 16 r

/-- The stored word of a data value: data bits [127:0] and check bits [143:128] (R338). -/
def codeWord (data : BitVec 128) : BitVec 144 := (checkBits data) ++ data

/-- Bits set in a word. -/
def weight (w : BitVec 144) : Nat := (List.range 144).foldl (fun n i => if w.getLsbD i then n + 1 else n) 0

/-- What the decoder makes of a word (R339). -/
inductive WordCheck where
  | clean
  | corrected
  | uncorrectable
  | miscorrected (data : BitVec 128)
deriving DecidableEq, Repr

/-- The check of a stored data value under an error pattern (R339). Three or more errors whose syndromes match at most
two are unspecified: reported or miscorrected, as `Config.miscorrected` has it (log 9). -/
def checkWord (data : BitVec 128) (flips : BitVec 144) : WordCheck :=
  if weight flips = 0 then .clean
  else if weight flips ≤ 2 then .corrected
  else if validWord flips || matchesTwo (syndrome 1 flips) (syndrome 3 flips) then
    match Config.miscorrected (codeWord data ^^^ flips) with
    | none => .uncorrectable
    | some x => .miscorrected x
  else .uncorrectable

end Sys2Proof.Machine
end

