-- ==== Sys2Proof/Machine/Units.lean ====
section
/-! DEFINITION. The units of the package: tiles, their numbers, types, states and power, and the targets of rings (01, 02
Table 2.1, 16). -/

namespace Sys2Proof.Machine

/-- Tile types (Table 1.3). -/
inductive TileType where
  | mTile | vTile | bTile | qTile
deriving DecidableEq, Repr

/-- The die of a tile (R18). -/
def tileDie (t : Nat) : Nat := t / 32

/-- The type of a tile (Table 1.2). -/
def tileType (t : Nat) : TileType :=
  let i := t % 32
  if i = 31 then .qTile
  else if 27 ≤ i then .bTile
  else if i % 3 = 0 then .mTile
  else .vTile

/-- TYPE of `TILE_ID` (Table 1.3). -/
def TileType.code : TileType → Nat
  | .mTile => 0
  | .vTile => 1
  | .bTile => 2
  | .qTile => 3

/-- SRAM capacity of a tile in bytes (Table 13.2). -/
def tileCapacity (t : Nat) : Nat :=
  match tileType t with
  | .mTile => 48 * 2 ^ 20
  | .vTile => 24 * 2 ^ 20
  | .bTile => 64 * 2 ^ 20
  | .qTile => 8 * 2 ^ 20

/-- A gateway-less part: every east-die unit is retired (R29). -/
def bridgeLost (d : Dev) : Bool := (List.range 6).all (d.units.gateways.contains ·)

/-- Whether a whole die is retired: the east die without a bridge, or with a bad Iabor core (R29, R407). -/
def dieRetired (d : Dev) (die : Nat) : Bool := die == 1 && (bridgeLost d || decide (d.units.iabor.getD 1 4 < 4))

/-- A physical hamlet of a die is good: neither fused off nor retired by test (R407). -/
def hamletGood (d : Dev) (die p : Nat) : Bool :=
  d.units.fuseHamlet.getD die none != some p && !(d.units.testHamlets.contains (die * 9 + p)) && !(dieRetired d die)

/-- Physical hamlets of a die in the order that logical numbers take when they are assigned: good ones ascending, then retired
ones ascending (R17). -/
def hamletOrder (d : Dev) (die : Nat) : List Nat :=
  (List.range 9).filter (hamletGood d die) ++ (List.range 9).filter (fun p => !(hamletGood d die p))

/-- Logical hamlets are assigned from the map as it stands (R17, R408). -/
def assignHamlets (d : Dev) : Dev := { d with units.order := [hamletOrder d 0, hamletOrder d 1] }

/-- Physical hamlets of a die in the order of logical numbers, as assigned until power-off (R17). -/
def logicalHamlets (d : Dev) (die : Nat) : List Nat := d.units.order.getD die []

/-- The physical hamlet of a tile, 0xF for commons tiles (Table 1.3). -/
def physHamlet (d : Dev) (t : Nat) : Nat :=
  if 27 ≤ t % 32 then 0xF else (logicalHamlets d (tileDie t)).getD (t % 32 / 3) 0xF

/-- The fuses retire a tile: it lies in the hamlet that they retire of its die (R4, R406). -/
def tileFused (d : Dev) (t : Nat) : Bool :=
  decide (t % 32 < 27) && d.units.fuseHamlet.getD (tileDie t) none == some (physHamlet d t)

/-- A start-up test retires a tile: it alone, its hamlet or its die (R21, R407). -/
def tileFailed (d : Dev) (t : Nat) : Bool :=
  dieRetired d (tileDie t) || d.units.testTiles.contains t ||
  (decide (t % 32 < 27) && d.units.testHamlets.contains (tileDie t * 9 + physHamlet d t))

/-- STATE of `TILE_ID`: 0 enabled, 1 spare, 2 retired by fuse, 3 retired by start-up test (Table 1.3, R17, R408). -/
def tileState (d : Dev) (t : Nat) : Nat :=
  if tileFused d t then 2
  else if tileFailed d t then 3
  else if t % 32 / 3 = 8 then 1
  else 0

/-- The physical tile of a tile number (R15, R18). -/
def physTile (d : Dev) (t : Nat) : Nat :=
  if 27 ≤ t % 32 then t else 32 * tileDie t + 3 * physHamlet d t + t % 32 % 3

/-- A tile is retired. -/
def tileRetired (d : Dev) (t : Nat) : Bool := decide (2 ≤ tileState d t) || decide (64 ≤ t)

/-- SLOT of `TILE_ID` (Table 1.3). -/
def tileSlot (t : Nat) : Nat := if 27 ≤ t % 32 then 3 else t % 32 % 3

/-- The core-clock branch of a tile: one per hamlet, one per Q-tile; a B-tile runs on the control clock (R409). -/
def tileBranch (d : Dev) (t : Nat) : Option Nat :=
  match tileType t with
  | .qTile => some (18 + tileDie t)
  | .bTile => none
  | _ => some (tileDie t * 9 + physHamlet d t)

/-- The state of a power domain (R411). -/
def domainState (d : Dev) (n : Nat) : PState := d.power.domains.getD n .off

/-- A power domain is ON. -/
def domainOn (d : Dev) (n : Nat) : Bool := domainState d n == .on

/-- The engines a ring can target (Table 2.1). -/
inductive Target where
  | mill (tile : Nat)
  | loom (tile eng : Nat)
  | badger (tile : Nat)
  | quern (tile : Nat)
  | collective (port : Nat)
  | thresher (die : Nat)
  | granary (die : Nat)
  | mover (die : Nat)
  | hub
deriving DecidableEq, Repr

/-- The unit of a target code (Table 2.1). -/
def targetOf (code : Nat) : Option Target :=
  if code < 0x40 then
    match tileType code with
    | .mTile => some (.mill code)
    | .vTile => some (.loom code 0)
    | .bTile => some (.badger code)
    | .qTile => some (.quern code)
  else if code < 0x80 then
    match tileType (code - 0x40) with
    | .mTile | .vTile => some (.loom (code - 0x40) 1)
    | _ => none
  else if 0x100 ≤ code && code < 0x106 then some (.collective (code - 0x100))
  else if 0x110 ≤ code && code < 0x112 then some (.thresher (code - 0x110))
  else if 0x120 ≤ code && code < 0x122 then some (.granary (code - 0x120))
  else if 0x130 ≤ code && code < 0x132 then some (.mover (code - 0x130))
  else if code = 0x140 then some .hub
  else none

/-- The tile of a target, for the engines of tiles. -/
def Target.tile : Target → Option Nat
  | .mill t => some t
  | .loom t _ => some t
  | .badger t => some t
  | .quern t => some t
  | _ => none

/-- The die of a target (Table 2.1). -/
def Target.die : Target → Nat
  | .mill t => tileDie t
  | .loom t _ => tileDie t
  | .badger t => tileDie t
  | .quern t => tileDie t
  | .collective p => p / 3
  | .thresher n => n
  | .granary n => n
  | .mover n => n
  | .hub => 0

/-- The unit of a target is retired (R413): a Thresher once its die or all its decoder clusters are (R407). -/
def targetRetired (d : Dev) : Target → Bool
  | .mill t => tileRetired d t
  | .loom t _ => tileRetired d t
  | .badger t => tileRetired d t
  | .quern t => tileRetired d t
  | .thresher n => dieRetired d n || (List.range 4).all (fun c => d.units.decoders.getD (4 * n + c) 0 == 0)
  | .hub => false
  | x => dieRetired d x.die

/-- The power domain of a target's unit (Table 16.4); the Thresher's is that of the batch packer on DC2 (DEDUCED, log 15). -/
def targetDomain : Target → Nat
  | .mill t => t
  | .loom t _ => t
  | .badger t => t
  | .quern t => t
  | .collective p => 136 + p
  | .thresher n => 144 + 4 * n + 2
  | .granary n => 152 + n
  | .mover n => 152 + n
  | .hub => 152

/-- The Loom's place in the table of Looms: 2 × tile + engine. The Loom of an M-tile is engine 1; Looms 1 and 2 of a V-tile
are engines 0 and 1 (Table 2.1). -/
def loomIndex (tile eng : Nat) : Nat := 2 * tile + eng

/-- A tile has a Loom as that engine. -/
def loomExists (tile eng : Nat) : Bool :=
  match tileType tile with
  | .mTile => eng == 1
  | .vTile => eng == 0 || eng == 1
  | _ => false

/-- SRAM base of a tile in the device address map (Table 13.1). -/
def sramBase (t : Nat) : Nat := 0x100000000000 + 0x8000000 * t

/-! ## GDDR7 (R334) -/

/-- The die's good controllers, ascending (R334, R336). -/
def goodControllers (d : Dev) (die : Nat) : List Nat :=
  if dieRetired d die then [] else (List.range 12).filter (fun mc => d.units.gddrRate.getD (12 * die + mc) 0 != 0)

/-- Where a data address lies in GDDR7: controller, channel, line, word (R334). -/
structure GddrPlace where
  die : Nat
  mc : Nat
  ch : Nat
  line : Nat
  word : Nat
deriving DecidableEq, Repr

/-- `gddr_locate` of R334. -/
def gddrLocate (d : Dev) (a : Nat) : Option GddrPlace :=
  let die := if a < 0xA80000000 then 0 else 1
  let o := a - die * 0xA80000000
  let good := goodControllers d die
  let n := good.length
  if n * 3758096384 ≤ o then none
  else
    let blk := o / 512
    let r := blk / n
    some { die := die, mc := good.getD (blk % n) 0, ch := r % 4, line := r / 4, word := o % 512 / 16 }

/-- The size of a die's data window (R334). -/
def gddrSize (d : Dev) (die : Nat) : Nat := (goodControllers d die).length * 3758096384

/-- The power domain of a controller's group (Table 16.4). -/
def controllerDomain (die mc : Nat) : Nat := 128 + 4 * die + mc / 3

end Sys2Proof.Machine
end

