-- ==== Sys2Proof/Machine/Flags.lean ====
section
/-! DEFINITION. Status codes and their classes, event codes and their severities, and the flags computed from them (02
Table 2.7, 17 R431). -/

namespace Sys2Proof.Machine

/-! ## Status codes (Table 2.7) -/

abbrev stOk : Byte := 0x00
abbrev stPartial : Byte := 0x01
abbrev stStepSkipped : Byte := 0x02
abbrev stBadDescriptor : Byte := 0x20
abbrev stBadOpcode : Byte := 0x21
abbrev stBadSequence : Byte := 0x22
abbrev stBadRing : Byte := 0x23
abbrev stPrivileged : Byte := 0x24
abbrev stBadStatusAddr : Byte := 0x25
abbrev stBadAddress : Byte := 0x26
abbrev stBadFormat : Byte := 0x27
abbrev stBadRounding : Byte := 0x28
abbrev stBadShape : Byte := 0x29
abbrev stProgramFault : Byte := 0x2A
abbrev stProgramNotLoaded : Byte := 0x2B
abbrev stAccBusy : Byte := 0x30
abbrev stAccStale : Byte := 0x31
abbrev stUncorrectable : Byte := 0x38
abbrev stHostAbort : Byte := 0x39
abbrev stFabricUnreachable : Byte := 0x3A
abbrev stRemoteError : Byte := 0x3B
abbrev stGroupInvalid : Byte := 0x40
abbrev stNoContributors : Byte := 0x41
abbrev stNoStage : Byte := 0x48
abbrev stUnitRetired : Byte := 0x49
abbrev stUnitOff : Byte := 0x4A
abbrev stDigestMismatch : Byte := 0x50
abbrev stEngineTimeout : Byte := 0x58
abbrev stCancelled : Byte := 0xF0
abbrev stAborted : Byte := 0xF1

/-- The success class (R75). -/
def isSuccess (st : Byte) : Bool := st.toNat < 0x20

/-- The failure class (R75). -/
def isFailure (st : Byte) : Bool := 0x20 ≤ st.toNat && decide (st.toNat < 0xF0)

/-! ## Events (Tables 17.13 and 17.14) -/

abbrev evCycControl : Nat := 0x001
abbrev evCycCore : Nat := 0x002
abbrev evCycSwallowed : Nat := 0x003
abbrev evOpIssued : Nat := 0x010
abbrev evOpRetired : Nat := 0x011
abbrev evMillChunk : Nat := 0x020
abbrev evMillDrain : Nat := 0x021
abbrev evLoomIssue : Nat := 0x030
abbrev evLoomChuteWait : Nat := 0x031
abbrev evChuteCommit : Nat := 0x040
abbrev evChuteBytes : Nat := 0x041
abbrev evBadgerRow : Nat := 0x050
abbrev evBadgerCellarRow : Nat := 0x051
abbrev evGddrSectorRd : Nat := 0x060
abbrev evGddrSectorWr : Nat := 0x061
abbrev evGddrCheckMiss : Nat := 0x062
abbrev evFabFlitTx : Nat := 0x070
abbrev evFabFlitRx : Nat := 0x071
abbrev evThSample : Nat := 0x080
abbrev evThBatch : Nat := 0x081
abbrev evHostRdBytes : Nat := 0x090
abbrev evHostWrBytes : Nat := 0x091
abbrev evPcieLinkChange : Nat := 0x400
abbrev evHostBadAccess : Nat := 0x800
abbrev evRingNotCreated : Nat := 0x801
abbrev evRingOverrun : Nat := 0x802
abbrev evRingBadResume : Nat := 0x803
abbrev evBellWaitStall : Nat := 0x804
abbrev evMbxBusy : Nat := 0x805
abbrev evRingHalt : Nat := 0xC00
abbrev evOpFailed : Nat := 0xC01
abbrev evPcieError : Nat := 0xC02
abbrev evLoomReplaced : Nat := 0x410
abbrev evChuteStall : Nat := 0x810
abbrev evLoomTakeStall : Nat := 0x811
abbrev evLoomLoadRefused : Nat := 0x812
abbrev evBadgerLoadRefused : Nat := 0x813
abbrev evLedgerFull : Nat := 0x814
abbrev evLedgerDiscard : Nat := 0xC10
abbrev evStepCleared : Nat := 0x420
abbrev evStepClearLate : Nat := 0x820
abbrev evStepDecideTwice : Nat := 0x821
abbrev evStepDecisionStall : Nat := 0x822
abbrev evLedgerBusyAtCommit : Nat := 0x823
abbrev evCensusLate : Nat := 0x824
abbrev evSilentTensor : Nat := 0x825
abbrev evPolicyInvalid : Nat := 0x826
abbrev evShardFetchStall : Nat := 0x827
abbrev evStageMigrated : Nat := 0x430
abbrev evOffloadFallback : Nat := 0x431
abbrev evSeqLoadRefused : Nat := 0x830
abbrev evSeqTailWrite : Nat := 0x831
abbrev evSeqReleaseStall : Nat := 0x832
abbrev evStageMigrateTimeout : Nat := 0x833
abbrev evStepAbandoned : Nat := 0xC30
abbrev evStepHealthLost : Nat := 0xC31
abbrev evStreamPortDegraded : Nat := 0x840
abbrev evStreamCrc : Nat := 0x841
abbrev evStreamBadBlock : Nat := 0x842
abbrev evStreamSeqGap : Nat := 0x843
abbrev evThSampleRefused : Nat := 0x844
abbrev evThSampleLate : Nat := 0x845
abbrev evThSampleDuplicate : Nat := 0x846
abbrev evThBatchTimeout : Nat := 0x847
abbrev evThAugMismatch : Nat := 0x848
abbrev evThLoadRefused : Nat := 0x849
abbrev evThHeaderLost : Nat := 0x84A
abbrev evFabReplay : Nat := 0x450
abbrev evFabRetrain : Nat := 0x451
abbrev evFabSpareUsed : Nat := 0x452
abbrev evFabPortDegraded : Nat := 0x850
abbrev evFabUnroutable : Nat := 0x851
abbrev evTimeHoldover : Nat := 0x852
abbrev evCollLate : Nat := 0x853
abbrev evFabMiscabled : Nat := 0x854
abbrev evFabPortDown : Nat := 0xC50
abbrev evCollMismatch : Nat := 0xC51
abbrev evMemCorrected : Nat := 0x460
abbrev evMeshCorrected : Nat := 0x461
abbrev evGddrRecal : Nat := 0x462
abbrev evScrubPass : Nat := 0x463
abbrev evGddrEcs : Nat := 0x464
abbrev evGddrSlow : Nat := 0x860
abbrev evMemUncorrectable : Nat := 0xC60
abbrev evGddrChannelFailed : Nat := 0xC61
abbrev evSnapshotDone : Nat := 0x470
abbrev evRestoreDone : Nat := 0x471
abbrev evGranaryRecovered : Nat := 0x472
abbrev evOwlTrigger : Nat := 0x473
abbrev evRngRealign : Nat := 0x474
abbrev evSnapReqLate : Nat := 0x870
abbrev evWcensusStall : Nat := 0x871
abbrev evReplicaDiverged : Nat := 0x872
abbrev evSnapshotFailed : Nat := 0xC70
abbrev evShardCorrupt : Nat := 0xC71
abbrev evReady : Nat := 0x480
abbrev evPowerFastLimit : Nat := 0x481
abbrev evFwFallback : Nat := 0x880
abbrev evFwTrialDiscarded : Nat := 0x881
abbrev evTrainSavedRejected : Nat := 0x882
abbrev evThermalShed : Nat := 0x883
abbrev evIaborRestart : Nat := 0x884
abbrev evFwActivateFailed : Nat := 0xC80
abbrev evUnitRetired : Nat := 0xC81

/-- Severity of an event: 0 count, 1 information, 2 warning, 3 error (R431). -/
def severity (ev : Nat) : Nat := ev / 1024

/-- The codes of Tables 17.13 and 17.14: no other code is ever produced (R431). -/
def eventCodes : List Nat :=
  [0x001, 0x002, 0x003, 0x010, 0x011, 0x020, 0x021, 0x030, 0x031, 0x040, 0x041, 0x050, 0x051, 0x060, 0x061, 0x062,
   0x070, 0x071, 0x080, 0x081, 0x090, 0x091, 0x400, 0x800, 0x801, 0x802, 0x803, 0x804, 0x805, 0xC00, 0xC01, 0xC02] ++
  [0x410, 0x810, 0x811, 0x812, 0x813, 0x814, 0xC10, 0x420, 0x820, 0x821, 0x822, 0x823, 0x824, 0x825, 0x826, 0x827,
   0x430, 0x431, 0x830, 0x831, 0x832, 0x833, 0xC30, 0xC31, 0x840, 0x841, 0x842, 0x843, 0x844, 0x845, 0x846, 0x847] ++
  [0x848, 0x849, 0x84A, 0x450, 0x451, 0x452, 0x850, 0x851, 0x852, 0x853, 0x854, 0xC50, 0xC51, 0x460, 0x461, 0x462,
   0x463, 0x464, 0x860, 0xC60, 0xC61, 0x470, 0x471, 0x472, 0x473, 0x474, 0x870, 0x871, 0x872, 0xC70, 0xC71, 0x480,
   0x481, 0x880, 0x881, 0x882, 0x883, 0x884, 0xC80, 0xC81]

/-! ## Bells (R53) -/

/-- A bell wait is satisfied when (bell − value) mod 2^32 < 2^31 (R53). -/
def waitMet (bell value : W32) : Bool := (bell - value).toNat < 2 ^ 31

end Sys2Proof.Machine
end

