-- ==== Sys2Proof/Machine/Events.lean ====
section
/-! DEFINITION. Time, MSI-X, the Tally and the event counters (16 R409, R410; 17 R429 to R439). -/

namespace Sys2Proof.Machine

/-! ## Time -/

/-- Device time in ns: 0.8 ns for each control-clock pulse, corrected (R12, R323). -/
def deviceTime (d : Dev) : Nat := ((((d.clock.pulse * 4 / 5 : Nat) : Int) + d.clock.offset) % 2 ^ 64).toNat

/-- The control cycle in progress. -/
def cycle (d : Dev) : Nat := d.clock.cyc

/-- Pulse `i` of a group of 64 is swallowed at level `l` (R410). -/
def swallowed (l i : Nat) : Bool := i * l / 64 < (i + 1) * l / 64

/-- The effective level of a core branch: the largest of those requested by power, heat and the fast limiter; 56 in SHED
(R410, R415, Table 16.7). -/
def branchLevel (d : Dev) (b : Nat) : Nat :=
  if d.power.shed then 56
  else max (max d.power.level (d.power.thermal.getD b 0)) (if d.power.fastLimit then 32 else 0)

/-- The level of the control clock: 32 in SHED (Table 16.7). -/
def controlLevel (d : Dev) : Nat := if d.power.shed then 32 else 0

/-! ## MSI-X (R429) -/

/-- Vector `v` is raised: one message where it may be sent, else its pending bit. -/
def raiseVector (d : Dev) (v : Nat) : Dev :=
  if 2048 ≤ v then d
  else if !d.host.msixEnable || d.host.msixMask || (tgetD d.host.msix v {}).masked then
    { d with host.pending := if d.host.pending.contains v then d.host.pending else d.host.pending ++ [v] }
  else { d with out.msix := d.out.msix ++ [v] }

/-- After a mask changes: each vector that is pending and no longer masked sends its single message (R429). -/
def sendUnmasked (d : Dev) : Dev :=
  if !d.host.msixEnable || d.host.msixMask then d
  else
    let free := d.host.pending.filter (fun v => !(tgetD d.host.msix v {}).masked)
    { d with
      host.pending := d.host.pending.filter (fun v => (tgetD d.host.msix v {}).masked)
      out.msix := d.out.msix ++ free }

/-- Bit `k` of `LL_IRQ_CAUSE` is set; vector 0 is raised when it changes from 0 to 1 while enabled (Tables 17.4, 17.10). -/
def setCause (d : Dev) (k : Nat) : Dev :=
  if d.host.irqCause.getLsbD k then d
  else
    let d1 := { d with host.irqCause := d.host.irqCause ||| BitVec.twoPow 7 k }
    if d.host.irqEnable.getLsbD k then raiseVector d1 0 else d1

/-! ## Event counters (R437) -/

/-- An amount stamped in a sampling window is added to that window's: the next one to close, or one beyond it (R12, R439). -/
def Counter.addIn (c : Counter) (next amount : Nat) : Option Nat → Counter
  | none => c
  | some k =>
    if k ≤ next then { c with inWindow := c.inWindow + amount }
    else { c with ahead := tput c.ahead k (tgetD c.ahead k 0 + amount) }

/-- A counter after an occurrence stamped in window `k`, where `next` is the next to close. -/
def Counter.bump (c : Counter) (code amount : Nat) (byRing : Option Nat) (next : Nat) (k : Option Nat) : Counter :=
  let sel := c.sel.toNat
  if bits sel 11 0 = code && bit sel 12 && (!(bit sel 13) || byRing == some (bits sel 29 16)) then
    { c.addIn next amount k with count := c.count + BitVec.ofNat 48 amount }
  else c

/-- The number of the sampling window that holds the present time: sampling is on, and the windows have begun (R12, R439). -/
def windowNow (d : Dev) : Option Nat :=
  if d.counters.period = 0 || deviceTime d < d.counters.base then none
  else some ((deviceTime d - d.counters.base) / d.counters.period)

/-- An occurrence, as the counters of its tile and its die see it (R437). `byRing` is the ring that sources or causes it. -/
def countEvent (d : Dev) (code amount die : Nat) (tile byRing : Option Nat) : Dev :=
  let k := windowNow d
  let bumpAll (hit : Nat → Bool) (t : Table Counter) : Table Counter :=
    t.map fun e => if hit e.1 then (e.1, e.2.bump code amount byRing d.counters.next k) else e
  { d with
    counters.tile := bumpAll (fun k => tile == some (k / 8)) d.counters.tile
    counters.die := bumpAll (fun k => k / 32 == die) d.counters.die }

/-! ## The Tally (R432 to R434) -/

/-- The source of an event (Table 17.16). -/
inductive Source where
  | ring (n : Nat)
  | engine (tile eng : Nat)
  | unit (die code : Nat)
  | core (die c : Nat)
deriving DecidableEq, Repr

/-- SOURCE (Table 17.16). -/
def Source.code : Source → Nat
  | .ring n => n
  | .engine t e => 0x4000 + t + 64 * e
  | .unit _ c => 0x8000 + c
  | .core die c => 0xC000 + c + 16 * die

/-- Controller MCn as a source. -/
abbrev Source.mc (die n : Nat) : Source := .unit die n
/-- Fabric port q (0 to 5) as a source. -/
abbrev Source.port (q : Nat) : Source := .unit (q / 3) (12 + q % 3)
/-- The ring hub as a source. -/
abbrev Source.hub : Source := .unit 0 15
/-- The stream port of a die as a source. -/
abbrev Source.streamPort (die : Nat) : Source := .unit die 0x10
/-- Decoder cluster c of a die as a source; the batch packer sits at DC2. -/
abbrev Source.decoder (die c : Nat) : Source := .unit die (0x20 + c)
/-- CTL of a die as a source. -/
abbrev Source.ctl (die : Nat) : Source := .unit die 0x30
/-- The host-link area as a source. -/
abbrev Source.hostLink : Source := .unit 0 0x40
/-- Bridge gateway g as a source. -/
abbrev Source.gateway (g : Nat) : Source := .unit 0 (0x50 + g)

/-- The die of a ring's target; 0 for a ring that does not exist (R432). -/
def ringDie (d : Dev) (n : Nat) : Nat :=
  match tget d.hub.rings n with
  | none => 0
  | some r => match targetOf r.target with
    | none => 0
    | some t => t.die

/-- The die whose Tally records an event of a source (R432). -/
def sourceDie (d : Dev) : Source → Nat
  | .ring n => ringDie d n
  | .engine t _ => tileDie t
  | .unit die _ => die
  | .core die _ => die

/-- The tile an event of a source belongs to, for the tile counters (R437). -/
def Source.tile : Source → Option Nat
  | .engine t _ => some t
  | _ => none

/-- A report may coalesce into a record: same event and source, among the 256 newest, not spilled, in its window (R433). -/
def TallyRec.takes (r : TallyRec) (event source : W16) (time : Nat) : Bool :=
  r.event == event && r.source == source && decide (r.first.toNat ≤ time ∧ time < r.first.toNat + 1048576)

/-- COUNT stops at 0xFFFF_FFFF. -/
def satInc (x : W32) : W32 := if x = 0xFFFFFFFF then x else x + 1

/-- What a report does to a Tally: whether it created a record, and whether it overflowed (R433, R434). -/
structure TallyOutcome where
  tally : Tally
  created : Bool
  overflow : Bool
deriving DecidableEq, Repr

/-- A new record, or the overflow counter of its class when no slot is free (R434). -/
def Tally.create (t : Tally) (time : Nat) (event source : W16) (detail : W64) : TallyOutcome :=
  if t.written - t.spilled < 4096 then
    let r : TallyRec :=
      { first := BitVec.ofNat 64 time, last := BitVec.ofNat 64 time, detail := detail, count := 1
        event := event, source := source }
    let keep (e : Nat × TallyRec) : Bool := decide (t.written < e.1 + 4096) || decide (t.consumed ≤ e.1)
    { tally := { t with written := t.written + 1, recs := (t.written, r) :: t.recs.filter keep }
      created := true, overflow := false }
  else
    let c := event.toNat % 4096 / 16
    { tally := { t with ovf := tput t.ovf c (satInc (tgetD t.ovf c 0)) }, created := false, overflow := true }

/-- A report to a die's Tally (R433, R434): only the newest record of the same EVENT and SOURCE can take it. -/
def Tally.report (t : Tally) (time : Nat) (event source : W16) (detail : W64) : TallyOutcome :=
  let newest := (t.recs.take 256).find? (fun e => e.2.event == event && e.2.source == source)
  match newest with
  | some (n, r) =>
    if t.spilled ≤ n && r.takes event source time then
      { tally := { t with recs := t.recs.map fun e =>
          if e.1 = n then (n, { r with count := satInc r.count, last := BitVec.ofNat 64 time }) else e }
        created := false, overflow := false }
    else t.create time event source detail
  | none => t.create time event source detail

/-- The ring that sources an event, or that causes it. -/
def Source.ringOr (src : Source) (byRing : Option Nat) : Option Nat := match src with
  | .ring n => some n
  | _ => byRing

/-- An occurrence of a recorded event, as the counters and the Owl see it (R431, R437). -/
def seeEvent (d : Dev) (ev die : Nat) (tile byRing : Option Nat) : Dev :=
  let d1 := countEvent d ev 1 die tile byRing
  { d1 with owl.events := tput d1.owl.events ev (tgetD d1.owl.events ev 0 + 1) }

/-- A report while the device is hard-halted (R420). -/
def dropReport (d : Dev) : Dev :=
  { d with hub.dropped := if d.hub.dropped = BitVec.allOnes 31 then d.hub.dropped else d.hub.dropped + 1 }

/-- What a die's Tally made of a report, with the causes it sets (Table 17.10). -/
def takeReport (d : Dev) (die ev : Nat) (o : TallyOutcome) : Dev :=
  let d3 := { d with tally := d.tally.set die o.tally }
  let d4 := if o.created && severity ev = 3 then setCause d3 1 else d3
  let d5 := if o.created && severity ev = 2 then setCause d4 2 else d4
  if o.overflow then setCause d5 3 else d5

/-- A report of a recorded event (R431 to R434): the counters and the Owl see it, then the die's Tally takes it; while the
device is hard-halted it is counted in DROPPED instead (R420). -/
def logEvent (d : Dev) (ev : Nat) (src : Source) (detail : Nat) (byRing : Option Nat := none) : Dev :=
  let die := sourceDie d src
  let d1 := seeEvent d ev die src.tile (src.ringOr byRing)
  if d.hub.hardHalted then dropReport d1
  else takeReport d1 die ev ((d.tally.getD die {}).report (deviceTime d) (BitVec.ofNat 16 (ev + 4096 * die))
    (BitVec.ofNat 16 src.code) (BitVec.ofNat 64 detail))

/-! ## The control clock -/

/-- Core cycles of one control pulse: two core pulses, each delivered or swallowed on each branch (R409, R410). -/
def countCore (d : Dev) : Dev :=
  let i := 2 * d.clock.pulse % 64
  let one (d : Dev) (t : Nat) : Dev :=
    match tileBranch d t with
    | none => d
    | some b =>
      let l := d.clock.branch.getD b 0
      let lost := ofBool (swallowed l i) + ofBool (swallowed l (i + 1))
      countEvent (countEvent d evCycCore (2 - lost) (tileDie t) (some t) none) evCycSwallowed lost (tileDie t) (some t) none
  if d.counters.tile.isEmpty && d.counters.die.isEmpty then d else (List.range 64).foldl one d

/-- Slewing at a pulse: where a tick of the uncorrected clock passes, 1,000 or more after the last change, it is doubled or
swallowed (R323). -/
def slewTick (d : Dev) : Dev :=
  let t := (d.clock.pulse + 1) * 4 / 5
  if d.fabric.slew = 0 || t = d.clock.pulse * 4 / 5 || t < d.fabric.slewAt + 1000 then d
  else
    let one : Int := if 0 < d.fabric.slew then 1 else -1
    { d with clock.offset := d.clock.offset + one, fabric.slew := d.fabric.slew - one, fabric.slewAt := t }

/-- One control-clock pulse passes: 0.8 ns. It is delivered, or swallowed at the level of its group (R410); a change of a
level takes effect at the next group boundary. -/
def pulse (d : Dev) : Dev :=
  let lost := swallowed d.clock.control (d.clock.pulse % 64)
  let d1 := countCore (slewTick d)
  let d2 := if lost then d1 else
    countEvent (countEvent { d1 with clock.cyc := d1.clock.cyc + 1 } evCycControl 1 0 none none) evCycControl 1 1 none none
  let n := d.clock.pulse + 1
  let i := 2 * d.clock.pulse % 64
  { d2 with
    clock.pulse := n
    clock.core := d.clock.core.zipWith (fun c l => c + (2 - ofBool (swallowed l i) - ofBool (swallowed l (i + 1)))) d.clock.branch
    clock.branch := if n % 32 = 0 then (List.range 20).map (branchLevel d2) else d2.clock.branch
    clock.control := if n % 64 = 0 then controlLevel d2 else d2.clock.control }

/-- Cycles of the clock an engine runs on: its core branch, or the control clock (R11, R409). -/
def engineCycles (d : Dev) (t : Target) : Nat :=
  match t.tile with
  | none => d.clock.cyc
  | some tile => match tileBranch d tile with
    | none => d.clock.cyc
    | some b => d.clock.core.getD b 0

/-- The next control cycle: at level 32 every other pulse is swallowed, so one or two pulses pass. -/
def nextCycle (d : Dev) : Dev :=
  let d1 := pulse d
  if d1.clock.cyc = d.clock.cyc then pulse d1 else d1

/-- A control cycle passes over a powered device. -/
def tickDev (d : Dev) : Dev := if d.power.on then pulse d else d

/-- What a step does when no command waits: one control-clock pulse passes (DESIGN CHOICE, log 2). -/
def tickState (s : State) : State := { s with dev := tickDev s.dev }

end Sys2Proof.Machine
end

