-- ==== Sys2Proof/Machine/Route.lean ====
section
/-! DEFINITION. Fabric addressing and routing, flits, and the sending of messages by a port (12 R308 to R313, R319 to R322). -/

namespace Sys2Proof.Machine

/-- Coordinate of a DEST along dimension 0 x, 1 y or 2 z (Table 12.3). -/
def coordAt (c : W16) (dim : Nat) : Nat := bits c.toNat (5 * dim + 4) (5 * dim)

/-- NBR of a DEST (Table 12.3). -/
def isNbr (c : W16) : Bool := bit c.toNat 15

/-- A DEST of three coordinates. -/
def mkCoord (x y z : Nat) : W16 := BitVec.ofNat 16 (x + 32 * y + 1024 * z)

/-- The port configured with a direction code (R317). -/
def portOfDir (d : Dev) (dir : Nat) : Option Nat := (List.range 6).find? (fun p => d.fabric.dirs.getD p 7 == dir)

/-- The first dimension in which two coordinates differ, x first, then y, then z (R319). -/
def firstDim (a b : W16) : Option Nat := (List.range 3).find? (fun k => coordAt a k != coordAt b k)

/-- Links to go in the + direction around a ring of `n` from `a` to `b`. -/
def plusWay (n a b : Nat) : Nat := (b + n - a) % n

/-- The direction of a dimension-order route: the shorter way, and + when the two are equal (R319). -/
def routeDir (d : Dev) (dest : W16) : Option Nat :=
  match firstDim d.fabric.coord dest with
  | none => none
  | some k =>
    let n := max 1 (d.fabric.dims.getD k 1)
    let up := plusWay n (coordAt d.fabric.coord k) (coordAt dest k)
    some (2 * k + (if 2 * up ≤ n then 0 else 1))

/-- Torus hops between two coordinates (R323). -/
def torusHops (d : Dev) (a b : W16) : Nat :=
  (List.range 3).foldl (fun h k =>
    let n := max 1 (d.fabric.dims.getD k 1)
    let up := plusWay n (coordAt a k) (coordAt b k)
    h + min up (n - up)) 0

/-- Where a message goes from here. -/
inductive Route where
  | here
  | out (port : Nat) (dl : Bool)
  | discard
deriving DecidableEq, Repr

/-- An exception entry matches a route (Table 12.5). -/
def entryMatches (e : Nat) (out inPort : Nat) (dest : W16) : Bool :=
  bit e 0 && (bits e 3 1 == 7 || bits e 3 1 == out) && (bits e 6 4 == 7 || bits e 6 4 == inPort) &&
  (List.range 3).all (fun k => !(bit e (23 + k)) || bits e (12 + 5 * k) (8 + 5 * k) == coordAt dest k)

/-- A port carries traffic: UP, DEGRADED or NOLAR (R321). -/
def portUp (d : Dev) (p : Nat) : Bool :=
  let st := (d.fabric.ports.getD p {}).st
  st == 1 || st == 2 || st == 6

/-- Messages may be routed to a port: it carries traffic, or a retrain that replays forced holds it up for a while (R315,
R321). -/
def portTakes (d : Dev) (p : Nat) : Bool := portUp d p || (d.fabric.ports.getD p {}).forced

/-- A link in a direction crosses that dimension's wrap (R319). -/
def crosses (d : Dev) (dir : Nat) : Bool :=
  let at_ := coordAt d.fabric.coord (dir / 2)
  if dir % 2 = 0 then at_ + 1 == max 1 (d.fabric.dims.getD (dir / 2) 1) else at_ == 0

/-- The dateline bit after the next link: 0 on entering a dimension, 1 once the wrap is crossed (R319). -/
def dateline (d : Dev) (inPort dir : Nat) (dl : Bool) : Bool :=
  let same := decide (inPort < 6) && d.fabric.dirs.getD inPort 7 / 2 == dir / 2
  crosses d dir || (same && dl)

/-- The dateline bit that an exception entry leaves (Table 12.5): cleared, set, or kept, and then set where the link taken
crosses its wrap (R319; log 31). -/
def entryDateline (d : Dev) (dlSet out : Nat) (dl : Bool) : Bool :=
  if dlSet = 1 then false else if dlSet = 2 then true else dl || crosses d (d.fabric.dirs.getD out 7)

/-- The route of a message here, by dimension order and the first matching exception entry (R319 to R321). `inPort` is 6
for local injection; `mine` is true where a message with NBR was injected here. A Nolar peer is reached with NBR only
(R316). -/
def routeOf (d : Dev) (inPort : Nat) (dest : W16) (cls hops : Nat) (dl : Bool) : Route :=
  let nolar (p : Nat) : Bool := (d.fabric.ports.getD p {}).st == 6
  let leave (p : Nat) (dl : Bool) : Route :=
    if 96 ≤ hops || !(portTakes d p) || (nolar p && (2 ≤ cls || !(isNbr dest))) then .discard else .out p dl
  if isNbr dest then
    if inPort = 6 then leave (dest.toNat % 8) false else .here
  else match routeDir d dest with
    | none => .here
    | some dir => match portOfDir d dir with
      | none => .discard
      | some p => match d.fabric.exceptions.find? (fun e => entryMatches e.2.toNat p inPort dest) with
        | none => leave p (dateline d inPort dir dl)
        | some e =>
          let out := bits e.2.toNat 28 26
          if out ≥ 6 then .discard else leave out (entryDateline d (bits e.2.toNat 30 29) out dl)

/-- A member or lender can be reached by a message of this device in a class (R321, R325). -/
def routable (d : Dev) (dest : W16) (cls : Nat := 0) : Bool := routeOf d 6 dest cls 0 false != .discard

/-! ## Flits (R308 to R313) -/

/-- Flits of a message: one HEAD and ceil(LEN / 48) BODY flits (R309). -/
def flitCount (m : FabMsg) : Nat := 1 + (m.body.length + 47) / 48

/-- The virtual channel of a message (R312). -/
def msgVc (m : FabMsg) : Nat := 2 * m.cls + ofBool m.dl

/-- The 48 header bytes of a message (Table 12.3). -/
def headerBytes (m : FabMsg) : Bytes :=
  leBytes 2 m.dest.toNat ++ leBytes 2 m.src.toNat ++ leBytes 1 (m.cls + 4 * m.op) ++ leBytes 1 m.hops ++
  leBytes 2 m.body.length ++ leBytes 4 m.inject.toNat ++ leBytes 4 m.tag.toNat ++ slice m.info 0 32

/-- A message whose header is read from 48 bytes; its body stays. -/
def withHeader (m : FabMsg) (b : Bytes) : FabMsg :=
  { m with
    dest := BitVec.ofNat 16 (fld b 0 2), src := BitVec.ofNat 16 (fld b 2 2), cls := fld b 4 1 % 4, op := fld b 4 1 / 4, hops := fld b 5 1
    inject := BitVec.ofNat 32 (fld b 8 4), tag := BitVec.ofNat 32 (fld b 12 4), info := slice b 16 32 }

/-- What the check of a message's header words finds: their bytes as delivered, `none` where a word is uncorrectable, and
whether one was corrected (R309, R339). -/
def checkHeader (m : FabMsg) : Option Bytes × Bool :=
  (List.range 3).foldl (fun r k => match r.1 with
    | none => r
    | some b => match checkWord (BitVec.ofNat 128 (fld b (16 * k) 16)) (m.headerFlips.getD k 0) with
      | .clean => r
      | .corrected => (some b, true)
      | .uncorrectable => (none, r.2)
      | .miscorrected x => (some (b.take (16 * k) ++ leBytes 16 x.toNat ++ b.drop (16 * k + 16)), true)) (some (headerBytes m), false)

/-- A message as its receiver reads it, where its header can be read (R309). -/
def readHeader (m : FabMsg) : Option FabMsg :=
  if m.headerFlips.all (· == 0) then some { m with headerFlips := [] }
  else (checkHeader m).1.map fun b => { withHeader m b with headerFlips := [] }

/-- The data of a message's flits, 48 bytes each, with whether it is the HEAD. -/
def flitData (m : FabMsg) : List (Bool × Bytes) :=
  (true, headerBytes m) :: (List.range (flitCount m - 1)).map (fun k => (false, slice m.body (48 * k) 48))

/-- The 64 bytes of a flit as the port sends it now: ACK and the credit total whose turn it is are of the moment (Table 12.2). -/
def Port.wire (p : Port) (kind vc : Nat) (lseq : BitVec 12) (data : Bytes) : Bytes :=
  let head := kind + 2 ^ 4 * vc + 2 ^ 8 * lseq.toNat + 2 ^ 20 * p.rxLast.toNat + 2 ^ 32 * p.crTurn +
    2 ^ 36 * (p.vcFreed.getD p.crTurn 0).toNat
  let words := (List.range 3).flatMap fun k => leBytes 18 (codeWord (BitVec.ofNat 128 (fld data (16 * k) 16))).toNat
  let b := leBytes 6 head ++ words
  b ++ leBytes 4 (crc32c b).toNat

/-- A HEAD or BODY flit as bytes. -/
def Port.flitBytes (p : Port) (f : Flit) : Bytes := p.wire (if f.head then 2 else 3) f.vc f.lseq f.bytes

/-- The next VC's credits are reported by the next flit (R312). -/
def Port.turn (p : Port) : Port := { p with crTurn := (p.crTurn + 1) % 8 }

/-- A flit may be sent on a VC: credit at the receiver, and room for replay (R311, R312). -/
def Port.mayFlit (p : Port) (vc : Nat) : Bool :=
  decide ((p.vcSent.getD vc 0 - p.crTotal.getD vc 0).toNat < 256) && decide (p.replay.length < 2048)

/-- Flits of a message go while they may; the rest stays with the port (R309, R311, R312). Answers the bytes sent. -/
def Port.sendFlits (vc : Nat) : List (Bool × Bytes) → Port × List Bytes → Port × List Bytes
  | [], r => (({ r.1 with sending := tdel r.1.sending vc } : Port), r.2)
  | x :: rest, r =>
    if r.1.mayFlit vc then
      let f : Flit := { lseq := r.1.txNext, vc := vc, head := x.1, bytes := x.2 }
      Port.sendFlits vc rest ({ r.1.turn with
        replay := r.1.replay ++ [f]
        txNext := r.1.txNext + 1
        vcSent := modAt r.1.vcSent vc (· + 1) }, r.2 ++ [r.1.flitBytes f])
    else ({ r.1 with sending := tput r.1.sending vc (x :: rest) }, r.2)

/-- Messages that stopped for want of credit go on. -/
def Port.resume (p : Port) : Port × List Bytes := p.sending.foldl (fun r e => Port.sendFlits e.1 e.2 r) (p, [])

/-- The port can send all flits of a message at once. -/
def Port.canSend (p : Port) (m : FabMsg) : Bool :=
  decide ((p.vcSent.getD (msgVc m) 0 - p.crTotal.getD (msgVc m) 0).toNat + flitCount m ≤ 256) &&
  decide (p.replay.length + flitCount m ≤ 2048)

/-- A waiting message can be begun: no other of its VC is under way, and its HEAD may be sent (R309, R312). -/
def Port.canBegin (p : Port) (m : FabMsg) : Bool := !(thas p.sending (msgVc m)) && p.mayFlit (msgVc m)

/-- The age of a message for the arbiter: INJECT compared modulo 2^32 as a signed difference (R313). -/
def injectTick (now : W32) (m : FabMsg) : Nat := (m.inject - now + 0x80000000#32).toNat

/-- The first waiting message of each input and VC, those that can be begun. -/
def Port.ready (p : Port) : List (Nat × FabMsg) :=
  (((List.range 7).flatMap fun i => (List.range 8).filterMap fun v => p.waiting.find? fun w => w.1 == i && msgVc w.2 == v)).filter
    fun w => p.canBegin w.2

/-- The waiting message that the output's arbiter grants (R313): the oldest INJECT among those of its seven inputs that can be
begun; ties between inputs by the rotating pointer. -/
def Port.next (p : Port) (now : W32) : Option (Nat × FabMsg) :=
  match grant p.pointer 7 (p.ready.map fun w => (w.1, injectTick now w.2)) with
  | none => none
  | some i =>
    let mine := p.ready.filter fun w => w.1 == i
    let first := (mine.map fun w => injectTick now w.2).foldl min (2 ^ 32)
    mine.find? fun w => injectTick now w.2 == first

/-- Flits leave a port. -/
def emitFlits (d : Dev) (q : Nat) (p : Port) (sent : List Bytes) : Dev :=
  let d1 := { d with
    fabric.ports := d.fabric.ports.set q p
    out.flits := d.out.flits ++ sent.map fun b => (q, b) }
  if sent.isEmpty then d1 else countEvent d1 evFabFlitTx sent.length (q / 3) none none

/-- The port sends its waiting messages while credit lasts, at most `fuel` of them. -/
def drainPort (q : Nat) : Nat → Dev → Dev
  | 0, d => d
  | fuel + 1, d =>
    let p := d.fabric.ports.getD q {}
    if p.st = 5 then d
    else match p.next (BitVec.ofNat 32 (deviceTime d)) with
      | none => d
      | some w =>
        let r := Port.sendFlits (msgVc w.2) (flitData w.2) ({ p with waiting := p.waiting.erase w, pointer := (w.1 + 1) % 7 }, [])
        drainPort q fuel (emitFlits { d with out.fabric := d.out.fabric ++ [(q, w.2)] } q r.1 r.2)

/-- Whatever the port can send now goes: messages under way, then those that wait. -/
def pumpPort (d : Dev) (q : Nat) : Dev :=
  let p := d.fabric.ports.getD q {}
  if p.st = 5 then d
  else
    let r := p.resume
    drainPort q p.waiting.length (if p.sending.isEmpty then d else emitFlits d q r.1 r.2)

/-- A message is handed to a port's output. -/
def portSend (d : Dev) (q inPort : Nat) (m : FabMsg) : Dev :=
  pumpPort { d with fabric.ports := modAt d.fabric.ports q (fun p => { p with waiting := p.waiting ++ [(inPort, m)] }) } q

/-- An IDLE flit reports ACK and the credits whose turn it is (R310, R312; log 115). -/
def reportIdle (d : Dev) (q : Nat) : Dev :=
  let p := d.fabric.ports.getD q {}
  { d with
    fabric.ports := modAt d.fabric.ports q Port.turn
    out.flits := d.out.flits ++ [(q, p.wire 0 0 0 [])] }

/-- A message of this device is injected, or discarded as unroutable (R321); one to its own coordinates is delivered here
(R319). Answers whether it went. -/
def injectMsg (d : Dev) (m : FabMsg) : Dev × Bool :=
  let m1 := { m with src := d.fabric.coord, inject := BitVec.ofNat 32 (deviceTime d) }
  match routeOf d 6 m1.dest m1.cls 0 false with
  | .here => ({ d with out.fabric := d.out.fabric ++ [(6, m1)] }, true)
  | .out q dl => (portSend d q 6 { m1 with hops := 1, dl := dl }, true)
  | .discard => (logEvent d evFabUnroutable (.port 0) 0, false)

/-- Header bytes 16 to 47 of an access to a lent region: the lend, the offset and the length (R349; log 33). -/
def lendInfo (lend offset len : Nat) : Bytes := leBytes 8 lend ++ leBytes 8 offset ++ leBytes 8 len

/-- A class 0 request: its TAG waits for the response (R322). `q` says whose it is and what it asks for. -/
def sendRequest (d : Dev) (q : Request) (body : Bytes) : Dev × Bool :=
  let tag := d.fabric.nextTag
  let r := injectMsg d { dest := q.dest, src := d.fabric.coord, cls := 0, op := ofBool (!q.read), hops := 0, inject := 0, tag := tag,
                         info := q.info, body := body }
  if r.2 then
    ({ r.1 with
        fabric.nextTag := tag + 1
        fabric.requests := r.1.fabric.requests ++ [{ q with tag := tag, sentAt := deviceTime d }] }, true)
  else (r.1, false)

/-- Pieces of at most 4,096 bytes of a range, as (offset, bytes) (Table 12.3). -/
def messagePieces (len : Nat) : List (Nat × Nat) :=
  (List.range ((len + 4095) / 4096)).map fun k => (4096 * k, min 4096 (len - 4096 * k))

end Sys2Proof.Machine
end

