-- ==== Sys2Proof/Machine/Access.lean ====
section
/-! DEFINITION. The memories behind the device address map: regions, faults of an access, reads and writes (13). -/

namespace Sys2Proof.Machine

/-! ## Cells: a sorted list of the bytes that are not zero -/

/-- The byte at an address; an unlisted byte is zero (R401). -/
def cellGet (m : List Host.Cell) (a : Nat) : Byte := tgetD m a 0

/-- Memory with a byte stored. -/
def cellPut (m : List Host.Cell) (a : Nat) (b : Byte) : List Host.Cell := tputD m a b 0

/-- `n` bytes from an address up. -/
def cellsRead (m : List Host.Cell) (a n : Nat) : Bytes := (List.range n).map fun i => cellGet m (a + i)

/-- Memory with bytes stored from an address up. -/
def cellsWrite : List Host.Cell → Nat → Bytes → List Host.Cell
  | m, _, [] => m
  | m, a, b :: r => cellsWrite (cellPut m a b) (a + 1) r

/-- The canonical form: addresses strictly rising, no zero byte listed. -/
def cellsWf : List Host.Cell → Bool
  | [] => true
  | [c] => c.2 != 0
  | c :: e :: r => c.2 != 0 && decide (c.1 < e.1) && cellsWf (e :: r)

/-- The memories are in canonical form. -/
def memoryWf (m : Memory) : Bool := cellsWf m.cells && cellsWf m.host && cellsWf m.remote

/-! ## Operations named by ring and sequence number -/

/-- The operation of a ring, from its fetch to its retirement. -/
def getOp (d : Dev) (n : OpName) : Option Op :=
  match tget d.hub.rings n.ring with
  | none => none
  | some r => r.ops.find? (fun o => o.seq == n.seq)

/-- The ring with `f` applied. -/
def modRing (d : Dev) (n : Nat) (f : Ring → Ring) : Dev := { d with hub.rings := tmod d.hub.rings n f }

/-- The operation with `f` applied. -/
def modOp (d : Dev) (n : OpName) (f : Op → Op) : Dev :=
  modRing d n.ring fun r => { r with ops := r.ops.map fun o => if o.seq == n.seq then f o else o }

/-! ## Regions (Table 13.1) -/

/-- What a device address lies in (Table 13.1). -/
inductive Region where
  | gddr (die : Nat)
  | sram (tile : Nat)
  | host
  | peer (win : Nat)
  | unmapped
deriving DecidableEq, Repr

/-- The region of a device address (Table 13.1, R334). The windows of the Cellar are mapped page by page. -/
def regionOf (d : Dev) (a : Nat) : Region :=
  if a < 0xA80000000 then (if a < gddrSize d 0 then .gddr 0 else .unmapped)
  else if a < 0x1500000000 then (if a - 0xA80000000 < gddrSize d 1 then .gddr 1 else .unmapped)
  else if 0x100000000000 ≤ a && a < 0x100200000000 then
    let t := (a - 0x100000000000) / 0x8000000
    if a - sramBase t < tileCapacity t && !(tileRetired d t) then .sram t else .unmapped
  else if 0x200000000000 ≤ a && a < 0x220000000000 then .host
  else if 0x300000000000 ≤ a && a < 0x340000000000 then .peer ((a - 0x300000000000) / 0x1000000000)
  else .unmapped

/-- The first address past a region. -/
def regionEnd (d : Dev) : Region → Nat
  | .gddr 0 => gddrSize d 0
  | .gddr die => 0xA80000000 * die + gddrSize d die
  | .sram t => sramBase t + tileCapacity t
  | .host => 0x220000000000
  | .peer w => 0x300000000000 + 0x1000000000 * (w + 1)
  | .unmapped => 0

/-- The region that holds all of a range, if one does. -/
def rangeRegion (d : Dev) (a len : Nat) : Region :=
  let r := regionOf d a
  if a + len ≤ regionEnd d r then r else .unmapped

/-! ## The 144 code in storage (R339, R343) -/

/-- The data of a 16-byte word, by word address. -/
def wordData (d : Dev) (w : Nat) : BitVec 128 := BitVec.ofNat 128 (leNat (cellsRead d.mem.cells (16 * w) 16))

/-- The check of the stored word at a word address. -/
def wordCheck (d : Dev) (w : Nat) : WordCheck := checkWord (wordData d w) (tgetD d.mem.flips w 0)

/-- Three errors that no pattern of at most two matches: check bits 0, 1 and 3 of a word (R339). -/
def threeErrors : BitVec 144 := BitVec.ofNat 144 (2 ^ 128 + 2 ^ 129 + 2 ^ 131)

/-- Words of a byte range that hold an error pattern, ascending. -/
def flipsIn (d : Dev) (a len : Nat) : List Nat :=
  if len = 0 then [] else (d.mem.flips.filter fun e => a / 16 ≤ e.1 && e.1 ≤ (a + len - 1) / 16).map (·.1)

/-- The unit that reports an error of a data word: its controller, or its tile (R343; DEDUCED, log 16). -/
def wordSource (d : Dev) (a : Nat) : Source :=
  match regionOf d a with
  | .sram t => .engine t 0
  | _ => match gddrLocate d a with
    | some p => .mc p.die p.mc
    | none => .hub

/-- A tile's error counts take one more word (Table 13.4). -/
def bumpSram (d : Dev) (tile : Nat) (bad : Bool) : Dev :=
  let e := tgetD d.mem.sramErr tile {}
  let e1 := if bad then { e with uncorrectable := if e.uncorrectable = 0xFFFF then 0xFFFF else e.uncorrectable + 1 }
    else { e with corrected := satInc e.corrected }
  { d with mem.sramErr := tput d.mem.sramErr tile e1 }

/-- A record of a corrected or uncorrectable data word, and the tile's counts (R343, R344, R432). -/
def noteWord (d : Dev) (bad : Bool) (a : Nat) (byRing : Option Nat) : Dev :=
  let d1 := match regionOf d a with
    | .sram t => bumpSram d t bad
    | _ => d
  logEvent d1 (if bad then evMemUncorrectable else evMemCorrected) (wordSource d a) (a % 2 ^ 48) byRing

/-! ## The host-memory window (R346) -/

/-- Device address of entry `page` of the translation table (R346). -/
def entryAt (d : Dev) (page : Nat) : Nat := d.mem.hostTable + 8 * page

/-- Entry `page` of the translation table in effect, as the check of its word delivers it (R339, R346). -/
def hostEntry (d : Dev) (page : Nat) : Nat :=
  match wordCheck d (entryAt d page / 16) with
  | .miscorrected x => fld (leBytes 16 x.toNat) (entryAt d page % 16) 8
  | _ => leNat (cellsRead d.mem.hostCells (entryAt d page) 8)

/-- Pages of 2 MiB that a range of the host window touches. -/
def hostPages (a len : Nat) : List Nat :=
  let o := a - 0x200000000000
  if len = 0 then [] else (List.range ((o + len - 1) / 2 ^ 21 - o / 2 ^ 21 + 1)).map (· + o / 2 ^ 21)

/-- The fault of an access to one page, and the address of an entry that its check found bad (R346). -/
def hostPageFault (d : Dev) (write : Bool) (page : Nat) : Option (Byte × Option Nat) :=
  let e := hostEntry d page
  if d.mem.hostEntries ≤ page then some (stBadAddress, none)
  else if wordCheck d (entryAt d page / 16) == .uncorrectable then some (stUncorrectable, some (entryAt d page))
  else if !(bit e 0) || bits e 20 2 != 0 || (write && !(bit e 1)) then some (stBadAddress, none)
  else none

/-- Host bus address of a byte of the window (R346). -/
def hostBus (d : Dev) (a : Nat) : Nat :=
  let o := a - 0x200000000000
  hostEntry d (o / 2 ^ 21) / 2 ^ 21 * 2 ^ 21 + o % 2 ^ 21

/-! ## Peer windows (R349) -/

/-- The key of a byte of another device's memory: its owner's coordinates and its own device address. -/
def remoteKey (coord : W16) (a : Nat) : Nat := coord.toNat * 2 ^ 49 + a

/-- The key of a byte of a lent region: the lender, the lend and the offset (log 10). -/
def lentKey (coord : W16) (lend o : Nat) : Nat := coord.toNat * 2 ^ 49 + 2 ^ 48 + lend * 2 ^ 36 + o

/-- The key of a byte of a peer window under the borrow in force. -/
def peerKey (d : Dev) (a : Nat) : Nat :=
  let w := (a - 0x300000000000) / 0x1000000000
  match tget d.fabric.borrows w with
  | none => 0
  | some b => lentKey b.lender b.lend ((a - 0x300000000000) % 0x1000000000)

/-- The fault of an access to a peer window (R349). -/
def peerFault (d : Dev) (w a len : Nat) : Option Byte :=
  match tget d.fabric.borrows w with
  | none => some stBadAddress
  | some b =>
    if b.size < (a - 0x300000000000) % 0x1000000000 + len then some stBadAddress
    else if !(routable d b.lender) then some stFabricUnreachable
    else none

/-! ## Faults of an access -/

/-- Lines of 512 bytes that a range touches, by their first address. -/
def linesOf (a len : Nat) : List Nat :=
  if len = 0 then [] else (List.range ((a + len - 1) / 512 - a / 512 + 1)).map (fun i => (a / 512 + i) * 512)

/-- The fault of an access to one GDDR7 line: its group is off (R413), or its channel has failed (R341). -/
def lineFault (d : Dev) (line : Nat) : Option (Byte × Option Nat) :=
  match gddrLocate d line with
  | none => some (stBadAddress, none)
  | some p =>
    if !(domainOn d (controllerDomain p.die p.mc)) then some (stUnitOff, none)
    else if (tgetD d.mem.channels (48 * p.die + 4 * p.mc + p.ch) {}).failed then some (stUncorrectable, some line)
    else none

/-- The status that ends an access before any data is looked at, in ascending order of address, and the address whose
EV_MEM_UNCORRECTABLE record it makes (R331, R341, R346, R349, R413). -/
def accessFault (d : Dev) (a len : Nat) (write : Bool) : Option (Byte × Option Nat) :=
  if len = 0 then none
  else match rangeRegion d a len with
    | .unmapped => some (stBadAddress, none)
    | .gddr _ => (linesOf a len).findSome? (lineFault d)
    | .sram t => if domainOn d t && domainOn d (64 + t) then none else some (stUnitOff, none)
    | .host => (hostPages a len).findSome? (hostPageFault d write)
    | .peer w => (peerFault d w a len).map fun st => (st, none)

/-- A range is mapped, as a check at fetch sees it (R331, R346, R349): addresses only, no data and no power. -/
def rangeMapped (d : Dev) (a len : Nat) (write : Bool) : Bool :=
  match rangeRegion d a len with
  | .unmapped => false
  | .host => (hostPages a len).all fun p =>
      decide (p < d.mem.hostEntries) &&
      (let e := hostEntry d p; bit e 0 && bits e 20 2 == 0 && (!write || bit e 1))
  | .peer w => match tget d.fabric.borrows w with
    | none => false
    | some b => decide ((a - 0x300000000000) % 0x1000000000 + len ≤ b.size)
  | _ => true

/-- The ring that an access is made for. -/
def ringOf (who : Option OpName) : Option Nat := who.map (·.ring)

/-- The fault's record: of an uncorrectable word, and of a lender that cannot be reached (R321, R343). -/
def noteFault (d : Dev) (f : Byte × Option Nat) (who : Option OpName) : Dev :=
  match f.2 with
  | none => if f.1 = stFabricUnreachable then logEvent d evFabUnroutable (.port 0) 0 (ringOf who) else d
  | some a => noteWord d true a (ringOf who)

/-- The entries through which a range of the host window is reached: each corrected one is recorded (R343, R346). -/
def noteEntries (d : Dev) (a len : Nat) (who : Option OpName) : Dev :=
  match regionOf d a with
  | .host => (hostPages a len).foldl (fun d p => match wordCheck d (entryAt d p / 16) with
    | .clean => d
    | _ => noteWord d false (entryAt d p) (ringOf who)) d
  | _ => d

/-- The bytes of a range as stored, whatever region holds it. -/
def rawRead (d : Dev) (a len : Nat) : Bytes :=
  match regionOf d a with
  | .host => (List.range len).map fun i => cellGet d.mem.host (hostBus d (a + i))
  | .peer _ => cellsRead d.mem.remote (peerKey d a) len
  | _ => cellsRead d.mem.cells a len

/-- A data line is accessed: its check sector is found in the cache of its channel, or comes into it, in the place of a free one
where the cache is full (R337; log 55). The caches, and whether it was missed. -/
def lookupSector (d : Dev) (c : Counters) (line : Nat) : Counters × Bool :=
  match gddrLocate d line with
  | none => (c, false)
  | some p =>
    let key := 48 * p.die + 4 * p.mc + p.ch
    let held := tgetD c.cached key []
    if held.contains line then (c, false)
    else if held.length < 512 then ({ c with cached := tput c.cached key (held ++ [line]) }, true)
    else ({ c with
      evictions := c.evictions + 1
      cached := tput c.cached key (held.eraseIdx (Config.evicted c.evictions % 512) ++ [line]) }, true)

/-- The check sectors of lines are looked up in order: the caches after it, and how many were missed. -/
def lookupSectors (d : Dev) (lines : List Nat) : Counters × Nat :=
  lines.foldl (fun r l => let x := lookupSector d r.1 l; (x.1, r.2 + ofBool x.2)) (d.counters, 0)

/-- Counts of a read or write: sectors of GDDR7 and check-cache misses (R337), bytes of host memory (Table 17.13). -/
def countAccess (d : Dev) (write : Bool) (a len : Nat) (who : Option OpName) : Dev :=
  match regionOf d a with
  | .gddr die =>
    let x := lookupSectors d (linesOf a len)
    let d1 := countEvent { d with counters := x.1 } (if write then evGddrSectorWr else evGddrSectorRd)
      (if len = 0 then 0 else (a + len - 1) / 64 - a / 64 + 1) die none (ringOf who)
    countEvent d1 evGddrCheckMiss x.2 die none (ringOf who)
  | .host => countEvent d (if write then evHostWrBytes else evHostRdBytes) len 0 none (ringOf who)
  | _ => d

/-- The response to a read of an operation has come (R349). -/
def hasFetched (d : Dev) (n : OpName) (key len pass : Nat) : Bool :=
  (getOp d n).any fun o => o.fetched.contains (key, len, pass)

/-- The requests that an access to a peer window sends to the lender, one for each 4,096 bytes (R349, Table 12.3): a write's
bring `data`, and a read's ask for what its operation has not yet fetched. -/
def peerRequests (d : Dev) (write : Bool) (a : Nat) (data : Bytes) (len : Nat) (who : Option OpName) : Dev :=
  match regionOf d a, who with
  | .peer w, some op => match tget d.fabric.borrows w with
    | none => d
    | some b => (messagePieces len).foldl (fun d p =>
        let key := peerKey d (a + p.1)
        if !write && hasFetched d op key p.2 0 then d
        else (sendRequest d
          { tag := 0, sentAt := 0, op := op, dest := b.lender, key := key, len := p.2, read := !write
            info := lendInfo b.lend ((a + p.1 - 0x300000000000) % 0x1000000000) p.2 } ((data.drop p.1).take p.2)).1) d
  | _, _ => d

/-- A read of `len` bytes: its bytes, or the status that ends the operation (R343). Corrected words are delivered exact and
recorded; an uncorrectable word stays as stored. -/
def readMem (d : Dev) (who : Option OpName) (a len : Nat) : Dev × Except Byte Bytes :=
  match accessFault d a len false with
  | some f => (noteFault d f who, .error f.1)
  | none =>
    let d0 := peerRequests (noteEntries (countAccess d false a len who) a len who) false a [] len who
    let stored := rawRead d a len
    match regionOf d a with
    | .gddr _ | .sram _ =>
      (flipsIn d a len).foldl (fun (acc : Dev × Except Byte Bytes) w =>
        match acc.2 with
        | .error _ => acc
        | .ok data => match wordCheck d w with
          | .clean => acc
          | .corrected => (noteWord acc.1 false (16 * w) (ringOf who), .ok data)
          | .uncorrectable => (noteWord acc.1 true (16 * w) (ringOf who), .error stUncorrectable)
          | .miscorrected x =>
            let wrong := leBytes 16 x.toNat
            (noteWord acc.1 false (16 * w) (ringOf who), .ok ((List.range len).map fun i =>
              if (a + i) / 16 = w then wrong.getD ((a + i) % 16) 0 else data.getD i 0)))
        (d0, .ok stored)
    | _ => (d0, .ok stored)

/-! ## Writes -/

/-- Pages of a snapshot in progress that a write would touch untaken (R359). -/
def untakenPages (d : Dev) (a len : Nat) : List Nat :=
  if d.granary.st != .copying || len = 0 then []
  else (d.granary.pages.zipIdx.filter fun e =>
    !e.1.taken && decide (a < e.1.addr + e.1.bytes ∧ e.1.addr < a + len)).map (·.2)

/-- The Granary learns of a write: the pages written since each slot's cut (R357), and the untaken ones that hold it up. -/
def noteWrite (d : Dev) (a len : Nat) : Dev :=
  if d.granary.cfg.isNone || len = 0 then d
  else
    { d with
      granary.written := d.granary.written.map fun w => w.map (· ++ [(a, len)])
      granary.stalls := d.granary.stalls ++ untakenPages d a len }

/-- Bytes stored in whatever region holds them, with good check bits. -/
def rawWrite (d : Dev) (a : Nat) (data : Bytes) : Dev :=
  match regionOf d a with
  | .host => { d with mem.host := data.zipIdx.foldl (fun m e => cellPut m (hostBus d (a + e.2)) e.1) d.mem.host }
  | .peer _ => { d with mem.remote := cellsWrite d.mem.remote (peerKey d a) data }
  | _ => { d with
      mem.cells := cellsWrite d.mem.cells a data
      mem.flips := d.mem.flips.filter fun e => !(a / 16 ≤ e.1 && e.1 * 16 < a + data.length) }

/-- Bytes stored by a unit beside an operation's own writes: the Granary learns of them (R357, R359). -/
def storeBytes (d : Dev) (a : Nat) (data : Bytes) : Dev := rawWrite (noteWrite d a data.length) a data

/-- The words of a write that it covers only in part and that hold an error pattern. -/
def mergedFlips (d : Dev) (a len : Nat) : List Nat :=
  (flipsIn d a len).filter fun w => 16 * w < a || a + len < 16 * w + 16

/-- A write of bytes: `none`, or the status that ends the operation (R343). A partial word merges with what its check
delivers; where that is uncorrectable the word stays as stored and nothing is written. -/
def writeMem (d : Dev) (who : Option OpName) (a : Nat) (data : Bytes) : Dev × Option Byte :=
  let len := data.length
  match accessFault d a len true with
  | some f => (noteFault d f who, some f.1)
  | none =>
    let d0 := peerRequests (noteEntries (countAccess d true a len who) a len who) true a data len who
    let merged := match regionOf d a with
      | .gddr _ | .sram _ => (mergedFlips d a len).foldl (fun (acc : Dev × Option Byte) w =>
          match acc.2 with
          | some _ => acc
          | none => match wordCheck d w with
            | .clean => acc
            | .corrected => (noteWord acc.1 false (16 * w) (ringOf who), none)
            | .uncorrectable => (noteWord acc.1 true (16 * w) (ringOf who), some stUncorrectable)
            | .miscorrected x =>
              (noteWord { acc.1 with mem.cells := cellsWrite acc.1.mem.cells (16 * w) (leBytes 16 x.toNat) } false (16 * w)
                (ringOf who), none)) (d0, none)
      | _ => (d0, none)
    match merged.2 with
    | some st => (merged.1, some st)
    | none =>
      let d1 := storeBytes merged.1 a data
      match who with
      | none => (d1, none)
      | some op => (modOp d1 op fun o => { o with outs := o.outs ++ [(a, len)] }, none)

/-- Reads several ranges, in order, stopping at the first that fails. -/
def readAll (d : Dev) (who : Option OpName) : List (Nat × Nat) → Dev × Except Byte (List Bytes)
  | [] => (d, .ok [])
  | (a, n) :: r =>
    let x := readMem d who a n
    match x.2 with
    | .error st => (x.1, .error st)
    | .ok b =>
      let y := readAll x.1 who r
      (y.1, y.2.map (b :: ·))

/-- Writes several ranges, in order, stopping at the first that fails. -/
def writeAll (d : Dev) (who : Option OpName) : List (Nat × Bytes) → Dev × Option Byte
  | [] => (d, none)
  | (a, b) :: r =>
    let x := writeMem d who a b
    match x.2 with
    | some st => (x.1, some st)
    | none => writeAll x.1 who r

/-! ## Free values (R10) -/

/-- `n` free bytes, and the draw counter after them (log 4). -/
def freeBytes (d : Dev) (n : Nat) : Dev × Bytes :=
  ({ d with draws := d.draws + n }, (List.range n).map fun i => Config.freeValue 8 (d.draws + i))

/-- A word is put back as `e` stores it, with the error it holds (R343: an uncorrectable word is left unchanged). -/
def keepWord (e d : Dev) (w : Nat) : Dev := { d with
  mem.cells := cellsWrite d.mem.cells (16 * w) (cellsRead e.mem.cells (16 * w) 16)
  mem.flips := tput d.mem.flips w (tgetD e.mem.flips w 0) }

/-- A range comes to hold unspecified contents (R67); an uncorrectable word in it stays as it is stored (R340, R343). -/
def scramble (d : Dev) (a len : Nat) : Dev :=
  if accessFault d a len true = none then
    let f := freeBytes d len
    let bad := (flipsIn d a len).filter fun w => wordCheck d w == .uncorrectable
    bad.foldl (keepWord d) (storeBytes f.1 a f.2)
  else d

end Sys2Proof.Machine
end

