-- ==== Sys2Proof/Machine/Ops.lean ====
section
/-! DEFINITION. The shared operations: how a command acts on the device, bells, rings and their operations, and tile
chutes (01 R30 to R38, 02). -/

namespace Sys2Proof.Machine

/-! ## How a command acts -/

/-- What every meaning answers. -/
abbrev Out := Host.Outcome State Fault Refusal

/-- The effect of a command on the device; the queue is left as it is. -/
def act (s : State) (f : Dev → Dev) : Out := .next { s with dev := f s.dev }

/-- Pages that a stalled write waits for are marked with the cycle of its first stall (R358). -/
def wantPages (d : Dev) (pages : List Nat) : Dev :=
  { d with granary.pages := d.granary.pages.zipIdx.map fun e =>
      if pages.contains e.2 && e.1.wanted.isNone then { e.1 with wanted := some (cycle d) } else e.1 }

/-- A command whose writes met an untaken page waits: none of its effect comes about, and the pages are wanted (R359). -/
def settle (d d' : Dev) : Dev := if d'.granary.stalls.isEmpty then d' else wantPages d d'.granary.stalls

/-- An effect that needs the package powered: when it is unpowered, nothing answers (16). -/
def live (f : Dev → Dev) (d : Dev) : Dev := if d.power.on then settle d (f d) else d

/-- An effect of the engines and the ring hub: a hard halt stops them all (R72, R420). -/
def running (f : Dev → Dev) (d : Dev) : Dev := if d.power.on && !d.hub.hardHalted then settle d (f d) else d

/-! ## Descriptor header (Table 2.3) -/

/-- OPCODE. -/
def Op.opcode (o : Op) : Nat := fld o.desc 0 2
/-- FLAGS. -/
def Op.flags (o : Op) : Nat := fld o.desc 2 2
/-- SIG_BELL. -/
def Op.sigBell (o : Op) : Nat := fld o.desc 6 2
/-- WAIT0_BELL with WAIT0_VALUE, WAIT1_BELL with WAIT1_VALUE, where enabled. -/
def Op.waits (o : Op) : List (Nat × W32) :=
  (if bit o.flags 0 then [(fld o.desc 20 2, BitVec.ofNat 32 (fld o.desc 12 4))] else []) ++
  (if bit o.flags 1 then [(fld o.desc 22 2, BitVec.ofNat 32 (fld o.desc 16 4))] else [])
/-- SIG_EN. -/
def Op.sigEn (o : Op) : Bool := bit o.flags 2
/-- FENCE. -/
def Op.fence (o : Op) : Bool := bit o.flags 3
/-- STATUS_EN. -/
def Op.statusEn (o : Op) : Bool := bit o.flags 4
/-- IRQ. -/
def Op.irq (o : Op) : Bool := bit o.flags 5
/-- STATUS_ADDR. -/
def Op.statusAddr (o : Op) : Nat := fld o.desc 24 8
/-- A field of the operand area, by its byte offset in the descriptor. -/
def Op.f (o : Op) (off n : Nat) : Nat := fld o.desc off n
/-- A signed field of the operand area. -/
def Op.sf (o : Op) (off n : Nat) : Int := signed (8 * n) (fld o.desc off n)
/-- Bytes [off, off + n) of the descriptor are zero (R7). -/
def Op.zero (o : Op) (off n : Nat) : Bool := zeroAt o.desc off n
/-- The name of an operation on a ring. -/
def Op.name (o : Op) (ring : Nat) : OpName := { ring := ring, seq := o.seq }

/-! ## Open steps (R234, R267) -/

/-- The numerical state of an open step (R234). -/
def stepState (d : Dev) (s : Nat) : Option StepState :=
  if d.steps.oldest ≤ s then d.steps.opened[s - d.steps.oldest]? else none

/-- An open step's numerical state with `f` applied. -/
def modStep (d : Dev) (s : Nat) (f : StepState → StepState) : Dev :=
  if d.steps.oldest ≤ s then { d with steps.opened := modAt d.steps.opened (s - d.steps.oldest) f } else d

/-- A script's members that still have a unit to release, at their steps (R266, R281). -/
def Script.pendingSteps (x : Script) : List Nat :=
  (x.members.filter fun m => !m.removed && x.until_.all fun u => m.step < u).map (·.step)

/-- The Sequencer's step counter (R267). -/
def stepCounter (d : Dev) : Nat :=
  match d.seq.scripts.flatMap Script.pendingSteps with
  | [] => d.steps.oldest
  | s :: r => max d.steps.oldest (r.foldl min s)

/-- STEP of an operation: what the Sequencer gave it, or the step counter at its issue (R265, R267, R268). -/
def opStep (d : Dev) (o : Op) : Nat :=
  if o.stamped || o.phase != .fetched then o.step.toNat else stepCounter d

/-- The step whose decision an operation reads: BADGER_UPDATE, STEP_COMMIT and SHARD_FETCH (R240). -/
def decisionStep (d : Dev) (o : Op) : Option Nat :=
  if o.opcode = 0x0403 then some (opStep d o)
  else if o.opcode = 0x0981 || o.opcode = 0x0982 then some (o.f 32 8)
  else none

/-- The decision that an operation reads has been taken, or its step is not open (R240, R241). -/
def decisionMet (d : Dev) (o : Op) : Bool :=
  match (decisionStep d o).bind (stepState d) with
  | none => true
  | some st => st.decision.isSome

/-! ## Bells -/

/-- The value of a bell. -/
def bellValue (d : Dev) (b : Nat) : W32 := tgetD d.hub.bells b 0

/-- Its bell waits are satisfied (R53). -/
def waitsMet (d : Dev) (o : Op) : Bool := o.waits.all fun w => waitMet (bellValue d w.1) w.2

/-- Under FENCE an operation is held until it is the oldest of its ring (R49). -/
def fenceHolds (r : Ring) (o : Op) : Bool := o.fence && (r.ops.head?.map (·.seq)) != some o.seq

/-- An operation is fetched, its waits are met, and under FENCE no earlier operation is left to retire (R49, R53). -/
def waitsOver (d : Dev) (r : Ring) (o : Op) : Bool :=
  o.phase == .fetched && !o.failedFetch && waitsMet d o && !(fenceHolds r o)

/-- An operation after a check of its readiness for control cycle `t`; `met` tells that its bell waits are satisfied. It is
ready from `t` on (Table 2.8), waits for its bells, or waits for a decision (R53, R54, R240). What a check found for a cycle
that is still to come is found again, on what now stands. -/
def markOp (met : Bool) (t : Nat) (d : Dev) (r : Ring) (o0 : Op) : Op :=
  let o := if o0.readyAt = some t && cycle d < t then { o0 with readyAt := none } else o0
  if o.readyAt.isSome || o.phase != .fetched || o.failedFetch then o
  else if !met then { o with waitFrom := some (o.waitFrom.getD (deviceTime d)) }
  else if fenceHolds r o then { o with waitFrom := none, waitLogged := false }
  else if decisionMet d o then { o with readyAt := some t, stallFrom := none, stallLogged := false }
  else { o with waitFrom := none, waitLogged := false, stallFrom := some (o.stallFrom.getD (deviceTime d)) }

/-- Every operation that has become ready is marked as ready from control cycle `t` (Table 2.8). -/
def markReady (t : Nat) (d : Dev) : Dev :=
  { d with hub.rings := d.hub.rings.map fun e => (e.1, { e.2 with ops := e.2.ops.map fun o => markOp (waitsMet d o) t d e.2 o }) }

/-- A bell with one change applied. -/
def BellChange.apply (v : W32) : BellChange → W32
  | .set x => x
  | .add x => v + x

/-- The changes of one bell in one control cycle, all of one age, granted one after another from a pointer on: the value and
the pointer they leave (R60, R62). Ring numbers are requesters, and 16,384 is the host register port. -/
def grantChanges : Nat → Nat → List (Nat × BellChange) → W32 → W32 × Nat
  | 0, p, _, v => (v, p)
  | n + 1, p, l, v => match firstFrom p 16385 (l.map (·.1)) with
    | none => (v, p)
    | some q => match l.find? fun c => c.1 == q with
      | none => (v, p)
      | some c => grantChanges n ((q + 1) % 16385) (l.eraseP fun c => c.1 == q) (c.2.apply v)

/-- What a bell's changes of the control cycle in progress start from. -/
def bellCycle (d : Dev) (b : Nat) : BellCycle :=
  let fresh : BellCycle := { cycle := cycle d, seen := bellValue d b, base := bellValue d b, pointer := tgetD d.hub.bellPtr b 0 }
  match tget d.hub.bellNow b with
  | none => fresh
  | some c => if c.cycle = cycle d then c else fresh

/-- The value of a bell that the readiness checks of the control cycle in progress see (R53). -/
def bellSeen (d : Dev) (b : Nat) : W32 := (bellCycle d b).seen

/-- A bell stands as the changes of the cycle leave it; the readiness checks of the next control cycle see that (R53, R60). -/
def putBell (d : Dev) (b : Nat) (c : BellCycle) : Dev :=
  let r := grantChanges c.changes.length c.pointer c.changes c.base
  markReady (cycle d + 1) { d with
    hub.bells := tputD d.hub.bells b r.1 0
    hub.bellPtr := tputD d.hub.bellPtr b r.2 0
    hub.bellNow := tput (d.hub.bellNow.filter fun e => e.2.cycle == cycle d) b c }

/-- A change of one bell by a requester: the bell's changes of this cycle are applied in the order of their grants, this one
among them (R60). -/
def changeBell (d : Dev) (b requester : Nat) (change : BellChange) : Dev :=
  let c := bellCycle d b
  putBell d b { c with changes := c.changes ++ [(requester, change)] }

/-- A bell is set by none of the requesters of R60 (R269): what changes it in the rest of the cycle starts from there. -/
def setBell (d : Dev) (b : Nat) (v : W32) : Dev :=
  putBell d b { bellCycle d b with base := v, pointer := tgetD d.hub.bellPtr b 0, changes := [] }

/-! ## Rings -/

/-- The ring of that number, if it exists. -/
def getRing (d : Dev) (n : Nat) : Option Ring := tget d.hub.rings n

/-- Entries of a ring. -/
def Ring.len (r : Ring) : Nat := 2 ^ r.log2len

/-- An operation is in flight: issued, or ended by a check at fetch with a place of its own (R52, R55). -/
def Op.inFlight (o : Op) : Bool := o.phase != .fetched

/-- An operation that has ended outside the success class: its ring issues nothing beyond it (R52, R65). -/
def Op.failed (o : Op) : Bool := o.failedFetch || (o.phase == .complete && decide (0x20 ≤ o.status.toNat))

/-- Operations of a ring in flight. -/
def Ring.inFlight (r : Ring) : Nat := (r.ops.filter Op.inFlight).length

/-- Operations in flight in the package (R55). -/
def inFlightTotal (d : Dev) : Nat := d.hub.rings.foldl (fun n e => n + e.2.inFlight) 0

/-- Every operation in flight, with its ring. -/
def opsInFlight (d : Dev) : List (Nat × Op) :=
  d.hub.rings.flatMap fun e => (e.2.ops.filter Op.inFlight).map fun o => (e.1, o)

/-- A privileged ring (R42). -/
def privileged (ring : Nat) : Bool := ring < 64

/-- WAIT_LIMIT of a ring in ms (R43). -/
def ringLimit (d : Dev) (n : Nat) : Nat := ((getRing d n).map fun r => r.waitLimit).getD 0

/-- The unit that a ring targets. -/
def ringTarget (d : Dev) (ring : Nat) : Option Target := (getRing d ring).bind fun r => targetOf r.target

/-- The tile that an operation of a ring runs on. -/
def ringTile (d : Dev) (ring : Nat) : Option Nat := (ringTarget d ring).bind Target.tile

/-- An operation put in its place by the rank of its issue. -/
def insertOp (x : Nat × Op) : List (Nat × Op) → List (Nat × Op)
  | [] => [x]
  | y :: r => if x.2.stamp ≤ y.2.stamp then x :: y :: r else y :: insertOp x r

/-- Operations issued to a unit and not complete, oldest issue first; those of class 0x00 go to no unit (R61). -/
def issuedTo (d : Dev) (t : Target) : List (Nat × Op) :=
  let all := d.hub.rings.flatMap fun e =>
    if targetOf e.2.target = some t then (e.2.ops.filter fun o => o.phase == .issued && 3 ≤ o.opcode).map fun o => (e.1, o) else []
  all.foldr insertOp []

/-- The Sequencer's copies under way on the data mover of a die, each with its requester index (R345). -/
def copiesOn (d : Dev) (die : Nat) : List (Nat × CopyStart) := d.seq.scripts.flatMap fun x => x.members.zipIdx.flatMap fun e =>
  if (ringTile d e.1.ring).map tileDie = some die then
    (e.1.copies.filter fun c => c.2.2 == 1 || c.2.2 == 3).map fun c =>
      (16384 + e.2, (e.1.starts.find? fun t => t.step == c.1 && t.j == c.2.1).getD { step := c.1, j := c.2.1 })
  else []

/-- The arbiter of a data mover starts an operation before a copy: by issue tick, then from its pointer on (R62, R345). Its
requesters are 16,384 rings and the 512 places of a script. -/
def opBeforeCopy (ring : Nat) (o : Op) (c : Nat × CopyStart) : Bool :=
  let t := o.readyAt.getD 0
  decide (t < c.2.at_) || (t == c.2.at_ && firstFrom c.2.pointer 16896 [ring, c.1] == some ring)

/-- One copy starts before another. -/
def copyBefore (c e : Nat × CopyStart) : Bool :=
  decide (c.2.at_ < e.2.at_) || (c.2.at_ == e.2.at_ && c.1 != e.1 && firstFrom e.2.pointer 16896 [c.1, e.1] == some c.1)

/-- A copy has started: fewer than 8 requesters of the data mover start before it (R345). -/
def copyStarted (d : Dev) (die : Nat) (c : Nat × CopyStart) : Bool :=
  decide (((issuedTo d (.mover die)).filter fun e => opBeforeCopy e.1 e.2 c).length +
    ((copiesOn d die).filter fun e => copyBefore e c).length < 8)

/-- An operation that has been issued and is not complete, with its ring. -/
def issuedOp (d : Dev) (n : OpName) : Option Op :=
  match getOp d n with
  | some o => if o.phase == .issued && !o.aborted then some o else none
  | none => none

/-- The opcode class of an operation on a ring, with its target, opens the way to `f`: the operation is issued, its opcode
is `code`, and it is the oldest its unit has yet to carry out. -/
def engineOp (code : Nat) (n : OpName) (f : Target → Op → Dev → Dev) (d : Dev) : Dev :=
  match issuedOp d n, ringTarget d n.ring with
  | some o, some t =>
    if o.opcode = code && o.sends.isEmpty && ((issuedTo d t).find? fun e => e.2.sends.isEmpty).map (fun e => (e.1, e.2.seq)) == some (n.ring, n.seq)
    then f t o d else d
  | _, _ => d

/-- An operation's work `f`, once what it reads through peer windows has come: first the requests for it go out, and the
operation waits for their responses (R349). -/
def afterReads (n : OpName) (f : Dev → Dev) (d : Dev) : Dev :=
  let x := f d
  let asked := (x.fabric.requests.drop d.fabric.requests.length).filter fun r => r.op == n && r.read
  if asked.isEmpty then x
  else asked.foldl (fun d r =>
    if d.fabric.requests.any fun q => q.op == n && q.read && q.key == r.key && q.len == r.len then d else (sendRequest d r []).1) d

/-- The source of an event of an operation, or of the ring hub where there is none. -/
def ringSource (ring : Option Nat) : Source := match ring with
  | some n => .ring n
  | none => .hub

/-- Whether a clear of an open step's flag comes too late: the step is decided, its issued STEP_DECIDE has taken the flag,
or this device's health contribution is sent (R237, R238, R330). -/
def clearsLate (st : StepState) : Bool := st.decision.isSome || st.deciding.isSome || st.healthSent

/-- The local flag of a step is cleared, with a cause of Table 9.2 (R237). Where the step is not open, decided, or this
device's health contribution sent, the clear is late (R234, R238, R330). -/
def clearFlag (d : Dev) (s : Nat) (cause : Byte) (op : Option OpName) : Dev :=
  let late (d : Dev) : Dev := logEvent d evStepClearLate (ringSource (op.map (·.ring))) 0
  match stepState d s with
  | none => late d
  | some st =>
    if clearsLate st then late (modStep d s fun st => { st with lateClear := true })
    else if !st.flag then modStep d s fun st => { st with clearAt := some (cycle d) }
    else
      let ring : W32 := match op with
        | some n => BitVec.ofNat 32 n.ring
        | none => 0xFFFFFFFF
      let seq : W32 := match op with
        | some n => n.seq
        | none => 0xFFFFFFFF
      logEvent (modStep d s fun st =>
        { st with flag := false, cause := cause, clearRing := ring, clearSeq := seq, clearAt := some (cycle d) })
        evStepCleared (ringSource (op.map (·.ring))) 0

/-- What the end of an operation with a status does to its step's flag: on a stage ring the failure class clears it, and a
scatter clears it on any ring (R70, R225, Table 9.2). -/
def endClears (d : Dev) (n : OpName) (o : Op) (st : Byte) : Dev :=
  if st.toNat < 0x20 then d
  else if o.opcode = 0x0402 then clearFlag d (opStep d o) 2 (some n)
  else if privileged n.ring || 0xF0 ≤ st.toNat then d
  else clearFlag d (opStep d o) 1 (some n)

/-- The operation that will be the halt point of its ring: it has failed, and every earlier one is complete in the success
class (R66). -/
def Ring.haltPoint (r : Ring) : Option Op :=
  match r.ops.dropWhile fun o => o.phase == .complete && !o.failed && !o.aborted with
  | o :: _ => if o.phase == .complete && o.failed && !o.aborted then some o else none
  | [] => none

/-- An operation has failed. Where that makes it its ring's halt point at once, its step's flag is cleared now; else the flag
waits for its retirement, since one behind an earlier failure ends as `ST_CANCELLED` (R67, R70, Table 5.6; DEDUCED, log 83). A
scatter clears the flag whatever becomes of its ring (R225). -/
def noteFailure (d : Dev) (n : OpName) (st : Byte) : Dev :=
  match getOp d n, getRing d n.ring with
  | some o, some r =>
    if o.opcode = 0x0402 || (r.st == .running && (r.haltPoint.map (·.seq)) == some n.seq) then
      endClears (modOp d n fun o => { o with noted := true }) n o st
    else d
  | _, _ => d

/-- An operation has taken an entry with a transit error, which clears its step's flag on any ring (R36, Table 9.2 row 0x01). -/
def noteTransitTaken (d : Dev) (n : OpName) : Dev :=
  match getOp d n with
  | none => d
  | some o => clearFlag d (opStep d o) 1 (some n)

/-- An operation completes at its engine with a status and DETAIL. -/
def completeOp (d : Dev) (n : OpName) (st : Byte) (detail : Nat := 0) : Dev :=
  let d1 := modOp d n fun o => { o with
    phase := .complete, status := st, detail := BitVec.ofNat 64 detail, completeAt := cycle d, sends := [], stallFrom := none }
  if st.toNat < 0x20 then d1 else noteFailure d1 n st

/-- An operation comes to its end with a result: success with DETAIL, or a failure status with DETAIL. Its outputs `outs`
are unspecified from then on if it failed (R67). -/
def finishOp (d : Dev) (n : OpName) (outs : List (Nat × Nat)) (r : Except Byte Nat) : Dev :=
  match r with
  | .ok detail => completeOp d n stOk detail
  | .error st => completeOp (modOp d n fun o => { o with outs := o.outs ++ outs }) n st

/-- Something happened that an engine's watchdog counts as progress. -/
def progress (d : Dev) (n : OpName) : Dev :=
  match ringTarget d n.ring with
  | none => d
  | some t => modOp d n fun o => { o with progressAt := engineCycles d t }

/-- An operation whose engine has done its work still has entries to send; with none it is complete. -/
def finishSending (d : Dev) (n : OpName) (sends : List Send) (detail : Nat) : Dev :=
  if sends.isEmpty then completeOp d n stOk detail
  else modOp d n fun o => { o with sends := sends, detail := BitVec.ofNat 64 detail, sendFrom := some (deviceTime d) }

/-- The next entry of an operation has been sent; with the last one the operation is complete. -/
def sentOne (d : Dev) (n : OpName) : Dev :=
  match getOp d n with
  | none => d
  | some o =>
    if o.sends.length ≤ 1 then completeOp d n stOk o.detail.toNat
    else modOp d n fun o => { o with sends := o.sends.tail, sendFrom := some (deviceTime d), sendLogged := false }

/-- An operation goes on waiting; its wait counts from its first one. -/
def waitOn (d : Dev) (n : OpName) : Dev :=
  modOp d n fun o => { o with starting := false, stallFrom := some (o.stallFrom.getD (deviceTime d)) }

/-- A wait since `since` has lasted longer than `ms` milliseconds. -/
def overdue (d : Dev) (since : Option Nat) (ms : Nat) : Bool :=
  match since with
  | none => false
  | some t => decide (t + ms * 1000000 < deviceTime d)

/-- The firmware of a die's cluster runs: an image has started, no switch is under way, and R379 has not halted it. -/
def firmwareRuns (d : Dev) (die : Nat) : Bool :=
  d.iabor.up && d.iabor.activation.isNone && !(d.iabor.clusters.getD die {}).halted && !(dieRetired d die)

/-- The response of a command that a mailbox holds is ready (R385); one that was interrupted keeps its own. -/
def answerMbx (d : Dev) (m : Nat) (r : MbxResponse) : Dev :=
  { d with iabor.mbx := modAt d.iabor.mbx m fun b => match b.answer with
      | some a => if a.held then { b with answer := some r } else b
      | none => b }

/-! ## Tile chutes -/

/-- A bound queue. -/
def getChute (d : Dev) (tile queue : Nat) : Option Chute := tget d.chutes (16 * tile + queue)

/-- A queue with `f` applied. -/
def modChute (d : Dev) (tile queue : Nat) (f : Chute → Chute) : Dev :=
  { d with chutes := tmod d.chutes (16 * tile + queue) f }

/-- Bytes of a slot. -/
def Chute.slotBytes (c : Chute) : Nat := 4096 * c.slotKib

/-- Credits held by the producer: one for each free slot (R32). -/
def Chute.credits (c : Chute) : Nat := c.depth - c.entries.length

/-- A queue belongs to a stage that is being migrated: sends to it wait as if no credit were held (R278). -/
def queueHeld (d : Dev) (tile : Nat) : Bool := match d.seq.migration with
  | none => false
  | some g => (tget d.seq.stages g.stage).any fun st => st.tile == tile

/-- Entries committed and not yet freed (Table 1.7). -/
def Chute.filled (c : Chute) : Nat := (c.entries.filter fun e => match e.st with
  | .sent _ => false
  | _ => true).length

/-- The slot that a sent entry takes: the lowest free one (R31; DESIGN CHOICE, log 106: the manual does not say which free slot
it is, and the offsets that CHTAKE returns show it). -/
def Chute.freeSlot (c : Chute) : Nat :=
  ((List.range c.depth).find? fun s => c.entries.all fun e => e.slot != s).getD 0

/-- Offset of a slot in the consumer's SRAM: the slots, then the headers (DEDUCED, log 17). -/
def Chute.slotOffset (c : Chute) (slot : Nat) : Nat := c.offset + slot * c.slotBytes

/-- Offset of a slot's header. -/
def Chute.headerOffset (c : Chute) (slot : Nat) : Nat := c.offset + c.depth * c.slotBytes + 64 * slot

/-- Bytes of a queue's storage: its slots with their headers (R30, R31). -/
def Chute.storage (c : Chute) : Nat := c.depth * (c.slotBytes + 64)

/-- An entry header (Table 1.6). -/
def chuteHeader (ring : Nat) (seq : Nat) (micro step tensor row col format : Nat) (last : Bool) (bytes : Nat) : Bytes :=
  leBytes 2 ring ++ leBytes 2 0 ++ leBytes 4 seq ++ leBytes 4 micro ++ leBytes 4 step ++ leBytes 2 tensor ++ leBytes 2 row ++
  leBytes 2 col ++ leBytes 1 format ++ leBytes 1 (if last then 2 else 0) ++ leBytes 4 bytes ++ List.replicate 36 0

/-- TRANSIT_ERROR of an entry (Table 1.6). -/
def Entry.transit (e : Entry) : Bool := bit (fld e.header 23 1) 0

/-- The header with TRANSIT_ERROR set. -/
def withTransit (h : Bytes) : Bytes := splice h 23 [BitVec.ofNat 8 (fld h 23 1 ||| 1)]

/-- Words that arrived over a mesh channel (0 MQ, 1 MR, 2 CH, 3 CT) were corrected at their destination (R28, R343, R432). -/
def meshCorrected (d : Dev) (stop : Source) (channel ring : Nat) : Dev := logEvent d evMeshCorrected stop channel (some ring)

/-- A payload that arrived with a word that failed its check is stored as it arrived: no good check bits are made for it (R340).
Which of its words failed is not told: the first stands for it (DESIGN CHOICE, log 76). -/
def keepFailed (transit : Transit) (a len : Nat) (d : Dev) : Dev :=
  if transit = .uncorrectable && len != 0 then { d with mem.flips := tput d.mem.flips (a / 16) threeErrors } else d

/-- An entry is sent: it takes a credit and a free slot, and its payload and header go to the consumer's SRAM (R31, R32).
The consumer's check may correct words of it, which is recorded, or find one that it cannot correct (R28, R36). -/
def sendEntry (d : Dev) (op : OpName) (s : Send) (transit : Transit) : Dev :=
  match getChute d s.consumer s.queue with
  | none => d
  | some c =>
    let slot := c.freeSlot
    let header := if transit = .uncorrectable then withTransit s.header else s.header
    let e : Entry := { slot := slot, header := header, bytes := s.payload.length, st := .sent op }
    let d1 := modChute d s.consumer s.queue fun c => { c with entries := c.entries ++ [e] }
    let base := sramBase s.consumer
    let d1 := modOp d1 op fun o => { o with lastSent := some (16 * s.consumer + s.queue, slot) }
    let d2 := if transit = .corrected then meshCorrected d1 (.engine s.consumer 0) 2 op.ring else d1
    let d3 := storeBytes (storeBytes d2 (base + c.slotOffset slot) s.payload) (base + c.headerOffset slot) header
    keepFailed transit (base + c.slotOffset slot) s.payload.length d3

/-- An entry state of an operation that has sent it. -/
def EntryState.sentBy (st : EntryState) (op : OpName) : Bool := match st with
  | .sent o => o == op
  | _ => false

/-- An entry state of an operation that has taken it. -/
def EntryState.takenBy (st : EntryState) (op : OpName) : Bool := match st with
  | .taken o => o == op
  | _ => false

/-- An entry that some operation has taken. -/
def EntryState.isTaken (st : EntryState) : Bool := match st with
  | .taken _ => true
  | _ => false

/-- An entry lies in a queue as committed or beyond. -/
def EntryState.isSent (st : EntryState) : Bool := match st with
  | .sent _ => true
  | _ => false

/-- Every queue's entries with `f` applied. -/
def mapEntries (d : Dev) (f : List Entry → List Entry) : Dev :=
  { d with chutes := d.chutes.map fun q => (q.1, { q.2 with entries := f q.2.entries }) }

/-- The entries of a queue with those that an operation sent committed, behind those committed before (R33, R34). -/
def commitIn (op : OpName) (l : List Entry) : List Entry :=
  (l.filter fun e => !e.st.isSent) ++
  ((l.filter fun e => e.st.sentBy op).map fun e => { e with st := .committed }) ++
  (l.filter fun e => e.st.isSent && !(e.st.sentBy op))

/-- The record of a committed entry that arrived with a transit error: its slot, queue and producer (R36, R432). -/
def noteTransit (d : Dev) (tile queue : Nat) (c : Chute) (byRing : Nat) (e : Entry) : Dev :=
  if e.transit then
    logEvent d evMemUncorrectable (.engine tile 0)
      ((sramBase tile + c.slotOffset e.slot) % 2 ^ 48 + queue * 2 ^ 48 + c.producer * 2 ^ 52 + 4 * 2 ^ 60) (some byRing)
  else d

/-- Committed entries of an abandoned step leave the inbound queues of every bound stage, from the step's restart on (R273,
R274). One that an operation has taken stays until that operation ends. -/
def dropAbandoned (d : Dev) : Dev :=
  let steps := (d.seq.abandoned.filter (·.restarted)).map fun a => a.step % 2 ^ 32
  let tiles := d.seq.stages.map (·.2.tile)
  let stays (e : Entry) : Bool := e.st.isSent || e.st.isTaken || !(steps.contains (fld e.header 12 4))
  if steps.isEmpty then d
  else { d with chutes := d.chutes.map fun q =>
      if tiles.contains (q.1 / 16) then (q.1, { q.2 with entries := q.2.entries.filter stays }) else q }

/-- The entries that an operation sent are committed together (R33); each consumer tile counts them. -/
def commitEntries (d : Dev) (op : OpName) : Dev :=
  dropAbandoned <| d.chutes.foldl (fun d q =>
    let mine := q.2.entries.filter fun e => e.st.sentBy op
    let t := q.1 / 16
    if mine.isEmpty then d
    else
      let d1 := countEvent (countEvent d evChuteCommit mine.length (tileDie t) (some t) (some op.ring)) evChuteBytes
        (mine.foldl (fun n e => n + e.bytes) 0) (tileDie t) (some t) (some op.ring)
      mine.foldl (fun d e => noteTransit d t (q.1 % 16) q.2 op.ring e) d1) (mapEntries d (commitIn op))

/-- The entries that an operation sent are discarded and their credits returned (R33). -/
def discardSent (d : Dev) (op : OpName) : Dev := mapEntries d fun l => l.filter fun e => !(e.st.sentBy op)

/-- The entries that an operation took are freed, and their credits returned (R32). -/
def freeTaken (d : Dev) (op : OpName) : Dev := mapEntries d fun l => l.filter fun e => !(e.st.takenBy op)

/-- The entries that a failed operation took stay at the head of their queue, reserved to its ring; one that arrived with a
transit error is discarded (R35, R36). -/
def reserveTaken (d : Dev) (op : OpName) : Dev := dropAbandoned <| mapEntries d fun l =>
  (l.filter fun e => !(e.st.takenBy op && e.transit)).map fun e =>
    if e.st.takenBy op then { e with st := .reserved op.ring } else e

/-- A destroyed ring's reservations end (R35). -/
def endReservations (d : Dev) (ring : Nat) : Dev := mapEntries d fun l =>
  l.map fun e => if e.st = .reserved ring then { e with st := .committed } else e

/-- The oldest committed entry of a queue that an operation of a ring may take: one reserved to another ring, or taken, is
passed over (R34, R35, R174). -/
def Chute.takeable (c : Chute) (ring : Nat) : Option Entry :=
  c.entries.find? fun e => match e.st with
    | .committed => true
    | .reserved r => r == ring
    | _ => false

/-- The entry in a slot is taken by an operation. -/
def takeEntry (d : Dev) (tile queue slot : Nat) (op : OpName) : Dev :=
  modChute d tile queue fun c => { c with entries := c.entries.map fun e =>
    if e.slot = slot then { e with st := .taken op } else e }

/-- FLAGS.LAST of a header set (Table 1.6). -/
def withLast (h : Bytes) : Bytes := splice h 23 [BitVec.ofNat 8 (fld h 23 1 ||| 2)]

/-- LAST is set on the last entry that an operation sent, as its entries are committed (R175, Table 1.6). -/
def markLast (d : Dev) (op : OpName) : Dev :=
  match (getOp d op).bind (·.lastSent) with
  | none => d
  | some (q, slot) =>
    match tget d.chutes q with
    | none => d
    | some c => match c.entries.find? (fun e => e.slot == slot && e.st.sentBy op) with
      | none => d
      | some e =>
        let h := withLast e.header
        let d1 := modChute d (q / 16) (q % 16) fun c =>
          { c with entries := c.entries.map fun x => if x.slot = slot then { x with header := h } else x }
        storeBytes d1 (sramBase (q / 16) + c.headerOffset slot) h

/-! ## Decisions of open steps (R237, R238) -/

/-- The ledgers' entries of a step are discarded (R225). -/
def discardLedger (d : Dev) (s : Nat) : Dev :=
  { d with badgers := d.badgers.map fun b => (b.1, { b.2 with ledger := b.2.ledger.filter fun e => e.step.toNat != s }) }

/-- A step's decision is taken, for an event's source (R238): the first one stands. A SKIP discards the ledgers' entries of
the step (R225), and a SKIP against a set flag is recorded as cause 0x05 (Table 9.2). -/
def decideStep (d : Dev) (s : Nat) (apply alone : Bool) (src : Source) : Dev :=
  match stepState d s with
  | none => d
  | some st =>
    if st.decision.isSome then logEvent d evStepDecideTwice src 0
    else
      let d1 := modStep d s fun st => { st with
        decision := some apply
        decidedAt := cycle d
        localAt := if alone then st.deciding.getD st.flag else st.flag
        alone := alone
        decideTime := BitVec.ofNat 64 (deviceTime d)
        cause := if !apply && st.flag then 5 else st.cause }
      markReady (cycle d + 1) (if apply then d1 else discardLedger d1 s)

/-- Whether a clear of the flag falls into the control cycle in progress, which a decision taken in it does not see (R237). -/
def clearedNow (d : Dev) (s : Nat) : Bool := ((stepState d s).bind (·.clearAt)) == some (cycle d)

/-- A decision is due: it falls into the next control cycle where a clear falls into this one (R237). -/
def beforeDecision (d : Dev) (s : Nat) : Dev := if clearedNow d s then nextCycle d else d

end Sys2Proof.Machine
end

