-- ==== Sys2Proof/Machine/Fabric.lean ====
section
/-! DEFINITION. The fabric below its collectives: flits, replay and credits, training and port records, routing, requests,
lends served, and the time base (12 R305 to R324; 13 R349). -/

namespace Sys2Proof.Machine

/-! ## Ports -/

/-- A port's record and link. -/
def getPort (d : Dev) (q : Nat) : Port := d.fabric.ports.getD q {}

/-- A port with `f` applied. -/
def modPort (d : Dev) (q : Nat) (f : Port → Port) : Dev := { d with fabric.ports := modAt d.fabric.ports q f }

/-- Firmware steers routes off a port: it is DOWN, DEGRADED, MISCABLED, DISABLED or RETRAINING, or about to retrain; a retrain that
replays forced leaves the detours as they were (R315, R320). -/
def Port.steered (p : Port) : Bool :=
  if p.forced then p.width != 16 && p.peerVersion == 2 else p.retraining || !(p.st == 1 || p.st == 6)

/-- The port that leads in the + direction of the dimension after that of a direction: y after x, z after y, x after z (R320). -/
def nextPlus (d : Dev) (dir : Nat) : Option Nat := portOfDir d (2 * ((dir / 2 + 1) % 3))

/-- The detour of a port, where it needs one and the next dimension has a + port (R320; its DL_SET is DESIGN CHOICE, log 31). -/
def detourOf (d : Dev) (q : Nat) : Option W64 :=
  let dir := d.fabric.dirs.getD q 7
  if !(getPort d q).steered || 6 ≤ dir then none
  else (nextPlus d dir).map fun out => BitVec.ofNat 64 (1 + 2 * q + 16 * 7 + 2 ^ 26 * out)

/-- Firmware's entries 192 to 197 follow the ports' states (R315, R320). -/
def refreshDetours (d : Dev) : Dev :=
  { d with fabric.exceptions := (List.range 6).foldl (fun t q => match detourOf d q with
    | none => tdel t (192 + q)
    | some e => tput t (192 + q) e) d.fabric.exceptions }

/-! ## Requests and their responses (R321, R322, R349) -/

/-- OP values of the model's own messages; the manual leaves OP to the unit that sends (Table 12.3; log 33). -/
abbrev opSegment : Nat := 8
abbrev opAck : Nat := 9
abbrev opPresent : Nat := 10
abbrev opMask : Nat := 11
abbrev opResult : Nat := 12
abbrev opSnapReq : Nat := 16

/-- The name under which the fetch of a ledger entry's record waits for its responses (R223). -/
def ledgerAgent (tile table slot : Nat) : OpName := { ring := 131072 + 64 * tile + table, seq := BitVec.ofNat 32 slot }

/-- The fetch of a ledger entry's record has failed (R228). -/
def failFetch (d : Dev) (n : OpName) (st : Byte) : Dev :=
  let tile := (n.ring - 131072) / 64
  let fail (e : LedgerEntry) : LedgerEntry :=
    if ledgerAgent tile e.table e.slot == n && e.pending then { e with pending := false, failed := some st } else e
  if n.ring < 131072 then d
  else { d with badgers := tmod d.badgers tile fun b => { b with ledger := b.ledger.map fail } }

/-- An operation whose request came back with an error ends with a status, unless it has failed already (R321, R322,
R349). -/
def failRequest (d : Dev) (n : OpName) (st : Byte) : Dev :=
  match getOp d n with
  | none => failFetch d n st
  | some o =>
    if o.aborted || (o.phase == .complete && !(isSuccess o.status)) then d
    else completeOp d n st

/-- Header bytes 16 to 31 of a collective's message: its GROUP and STEP (log 33). -/
def instInfo (inst : CollName) : Bytes := leBytes 8 inst.group ++ leBytes 8 inst.step.toNat

/-- A collective's message could not reach its member: the COLL of its instance ends (R321). -/
def failCollective (d : Dev) (info : Bytes) (tag : W32) : Dev :=
  d.fabric.parts.foldl (fun d p =>
    if p.inst.tag = tag ∧ slice info 0 16 = instInfo p.inst then failRequest d p.op stFabricUnreachable else d) d

/-- Words of a payload met an error at their destination: counted and recorded (R28, R309, R343; the record's DETAIL is
DEDUCED, log 117). -/
def notePayload (d : Dev) (q : Nat) (t : Transit) (byRing : Option Nat) : Dev :=
  match t with
  | .clean => d
  | .corrected => logEvent d evMemCorrected (.port q) 0 byRing
  | .uncorrectable => logEvent d evMemUncorrectable (.port q) 0 byRing

/-- A response arrives at its source (R321, R322, R349). One with an abandoned TAG is discarded. -/
def takeResponse (d0 : Dev) (q : Nat) (m : FabMsg) : Dev :=
  match d0.fabric.requests.find? fun r => r.tag == m.tag with
  | none => if m.unreachable && opSegment ≤ m.op then failCollective d0 m.info m.tag else d0
  | some r =>
    let d := notePayload d0 q m.bodyCheck (some r.op.ring)
    let d1 := { d with fabric.requests := d.fabric.requests.filter fun r => r.tag != m.tag }
    if m.unreachable then failRequest d1 r.op stFabricUnreachable
    else if m.error then failRequest d1 r.op stRemoteError
    else if m.bodyCheck = .uncorrectable then failRequest d1 r.op stUncorrectable
    else if r.read then
      modOp (progress { d1 with mem.remote := cellsWrite d1.mem.remote r.key (m.body.take r.len) } r.op) r.op fun o =>
        { o with fetched := o.fetched ++ [(r.key, r.len, r.pass)] }
    else d1

/-! ## Messages that cannot go on (R321) -/

/-- A message that cannot go on is discarded; a request makes this device answer UNREACHABLE (R321). -/
def discardMsg (d : Dev) (q : Nat) (m : FabMsg) : Dev :=
  let d1 := logEvent d evFabUnroutable (.port q) 0
  let answer : FabMsg :=
    { dest := m.src, src := d.fabric.coord, cls := 1, op := m.op, hops := 0, inject := 0, tag := m.tag, unreachable := true, info := m.info }
  if m.cls = 0 || m.cls = 2 then (if m.src = d.fabric.coord then takeResponse d1 q answer else (injectMsg d1 answer).1) else d1

/-- The port carries no traffic: what waits for its output cannot go (R321), and a message half sent is lost (R315). -/
def dropWaiting (d : Dev) (q : Nat) : Dev :=
  let lost := (getPort d q).waiting
  lost.foldl (fun d w => discardMsg d q w.2) (modPort d q fun p => { p with waiting := [], sending := [] })

/-! ## The time base (R323, R324) -/

/-- Ports that can lead to a time parent: up, with a Zorou peer that is synchronised (R323). -/
def parentPorts (d : Dev) (excluded : Option Nat) : List Nat :=
  (List.range 6).filter fun q =>
    some q != excluded && ((getPort d q).st == 1 || (getPort d q).st == 2) && (getPort d q).peerVersion == 2 && !(getPort d q).peerUnsynced

/-- The neighbour nearest to the root, the lowest port among equals (R323). -/
def pickParent (d : Dev) (excluded : Option Nat) : Option Nat :=
  if d.fabric.coord = d.fabric.root then none
  else
    let hops (q : Nat) : Nat := torusHops d (getPort d q).peerCoord d.fabric.root
    (parentPorts d excluded).foldl (fun best q => match best with
      | none => some q
      | some b => if hops q < hops b then some q else some b) none

/-- A device takes the nearest parent there is, and holdover ends where it finds one (R323, R324; DEDUCED, log 32). -/
def findParent (d : Dev) : Dev :=
  match pickParent d none with
  | none => d
  | some q => { d with fabric.parent := some q, fabric.holdover := false }

/-- Which neighbours are unsynchronised, as the time base last learnt (R323; log 32). -/
def noteUnsynced (unsynced : List Nat) (d : Dev) : Dev :=
  { d with fabric.ports := d.fabric.ports.zipIdx.map fun e => { e.1 with peerUnsynced := unsynced.contains e.2 } }

/-- The child's offset of one exchange (R323). -/
def syncOffset (t1 t2 t3 t4 : Nat) : Int := (((t2 : Int) - t1) - ((t4 : Int) - t3)) / 2

/-- Child and parent have exchanged TIME_SYNC flits (R323): the first lock before ready steps; later the offset is slewed in,
tick by tick, as the clock runs (`slewTick`). -/
def timeSync (t1 t2 t3 t4 : Nat) (unsynced : List Nat) (d0 : Dev) : Dev :=
  let d := noteUnsynced unsynced d0
  if d.fabric.coord = d.fabric.root || d.fabric.parent.isNone then findParent d
  else
    let off := syncOffset t1 t2 t3 t4
    findParent (if !d.fabric.locked && !d.power.ready then
      { d with clock.offset := d.clock.offset + off, fabric.locked := true }
    else { d with fabric.locked := true, fabric.slew := off })

/-- The parent is lost: another one, or holdover (R324). -/
def parentLoss (d : Dev) : Dev :=
  match d.fabric.parent with
  | none => d
  | some q => match pickParent d (some q) with
    | some p => { d with fabric.parent := some p }
    | none => logEvent { d with fabric.parent := none, fabric.holdover := true } evTimeHoldover (.port q) 0

/-- TIME_SYNC_EXCHANGE. -/
def execTimeSyncExchange (t1 t4 : Nat) (parent : Nat × Nat) (unsynced : List Nat) (s : State) : Out :=
  act s (live (timeSync t1 parent.1 parent.2 t4 unsynced))

/-- TIME_PARENT_LOSS. -/
def execTimeParentLoss (s : State) : Out := act s (live parentLoss)

/-! ## Training (R307, R314 to R318) -/

/-- The coordinates one step from here in a direction (R317). -/
def neighbour (d : Dev) (dir : Nat) : W16 :=
  let at_ (k : Nat) : Nat :=
    let n := max 1 (d.fabric.dims.getD k 1)
    let x := coordAt d.fabric.coord k
    if dir / 2 = k then (if dir % 2 = 0 then (x + 1) % n else (x + n - 1) % n) else x
  mkCoord (at_ 0) (at_ 1) (at_ 2)

/-- The opposite of a direction. -/
def opposite (dir : Nat) : Nat := if dir % 2 = 0 then dir + 1 else dir - 1

/-- A Zorou peer breaks the rule of R317. -/
def miscabled (d : Dev) (q : Nat) (coord : W16) (dir : Nat) : Bool :=
  let mine := d.fabric.dirs.getD q 7
  6 ≤ mine || coord != neighbour d mine || dir != opposite mine

/-- No lane trained. -/
def noLanes : PortTrain := { rxBad := 2 ^ 17 - 1, txBad := 2 ^ 17 - 1 }

/-- Failed lanes among physical lanes 0 to W (R307). -/
def failedLanes (bad w : Nat) : List Nat := (List.range (w + 1)).filter bad.testBit

/-- Width W is usable in a direction: lanes 0 to W hold at most one failed lane (R307). -/
def widthUsable (bad w : Nat) : Bool := decide ((failedLanes bad w).length ≤ 1)

/-- Lanes that count as failed: those that failed to train, the lane the fuses retire, and lane 16 in Nolar mode (R4, R307,
R316). -/
def portLanes (d : Dev) (q : Nat) (t : PortTrain) (bad : Nat) : Nat :=
  bad ||| (match d.units.fuseLanes.getD q none with | some l => 2 ^ l | none => 0) ||| (if t.peerVersion = 1 then 2 ^ 16 else 0)

/-- The largest width usable in both directions, 0 for none (R307). -/
def trainedWidth (d : Dev) (q : Nat) (t : PortTrain) : Nat :=
  ([16, 8, 4].find? fun w => widthUsable (portLanes d q t t.rxBad) w && widthUsable (portLanes d q t t.txBad) w).getD 0

/-- The physical lane skipped in a direction: the failed lane among those that would carry logical lanes (R307). -/
def spareFor (bad w : Nat) : Option Nat := (failedLanes bad w).find? fun l => decide (l < w)

/-- The physical lane that carries logical lane `l` when lane `f` is skipped (R307). -/
def physicalLane (skipped : Option Nat) (l : Nat) : Nat := match skipped with
  | some f => if f ≤ l then l + 1 else l
  | none => l

/-- STATE of a port after its training and LINK_INIT (R307, R314, R316, R317). -/
def trainedState (d : Dev) (q : Nat) (t : PortTrain) : Nat :=
  if trainedWidth d q t = 0 then 0
  else if t.peerVersion = 1 then 6
  else if t.peerVersion != 2 || !t.fast then 0
  else if miscabled d q t.peerCoord t.peerDir then 3
  else if trainedWidth d q t = 16 then 1
  else 2

/-- The events of a port's new state (R307, R317). -/
def stateEvents (d : Dev) (q st : Nat) (spare : Bool) : Dev :=
  if st = 0 then logEvent d evFabPortDown (.port q) 0
  else if st = 2 then logEvent d evFabPortDegraded (.port q) 0
  else if st = 3 then logEvent d evFabMiscabled (.port q) 0
  else if st = 1 && spare then logEvent d evFabSpareUsed (.port q) 0
  else d

/-- This device's LINK_INIT on a port (R316). -/
def myInit (d : Dev) (q : Nat) : LinkInit :=
  { version := 2, ident := Config.ident, coord := d.fabric.coord, port := q, dir := d.fabric.dirs.getD q 7 }

/-- A port has been trained: its record, its detour, its events, and the flits of its replay buffer, lost when it is DOWN
(R311, R314, R315, R318). Training afresh starts both sequence counts and all credits anew. A link that trained sends this
device's own LINK_INIT (R314, R316). -/
def trainPort (d : Dev) (q : Nat) (t : PortTrain) (afresh retrain : Bool) : Dev :=
  let w := trainedWidth d q t
  let st := trainedState d q t
  let up := st == 1 || st == 2 || st == 6
  let rxSpare := if st = 0 then none else spareFor (portLanes d q t t.rxBad) w
  let txSpare := if st = 0 then none else spareFor (portLanes d q t t.txBad) w
  let d1 := modPort d q fun p =>
    let base : Port := if afresh then
        { retrains := p.retrains, replays := p.replays, waiting := p.waiting, pointer := p.pointer, peerUnsynced := p.peerUnsynced } else p
    { base with
      st := st
      width := if st = 0 then 0 else w
      rxSpare := rxSpare
      txSpare := txSpare
      peerVersion := if st = 0 then 0 else t.peerVersion
      rate := if st = 0 then 0 else if st = 6 then 1 else 2
      peerPort := if st = 0 then 0 else t.peerPort
      peerIdent := if st = 0 then 0 else t.peerIdent
      peerCoord := if st = 0 then 0 else t.peerCoord
      replay := if up then base.replay else []
      retrains := if retrain then satInc p.retrains else p.retrains
      retraining := false
      forced := false
      nakRun := 0
      mbx := none }
  let d2 := if w = 0 then d1 else { d1 with out.inits := d1.out.inits ++ [(q, myInit d q)] }
  let d3 := if retrain then logEvent d2 evFabRetrain (.port q) 0 else d2
  let d4 := refreshDetours (stateEvents d3 q st (rxSpare.isSome || txSpare.isSome))
  findParent (if up then pumpPort d4 q else dropWaiting d4 q)

/-- Nothing is left to send or to be acknowledged (R315). -/
def Port.empty (p : Port) : Bool := p.replay.isEmpty && p.waiting.isEmpty && p.sending.isEmpty

/-- A retrain in service begins: detours are in place, and once the port's buffers are empty the lanes retrain. One that replays
force begins at once and without detours; a retrain that was waiting goes on as it, for whoever asked (R311, R315). -/
def beginRetrain (d : Dev) (q : Nat) (forced : Bool) (mbx : Option Nat) : Dev :=
  let d1 := modPort d q fun p => { p with
    retraining := true
    forced := forced && !p.retraining
    mbx := if forced then p.mbx else mbx
    st := if forced || p.empty then 5 else p.st }
  if forced then d1 else refreshDetours d1

/-- A retrain is in progress on this device (R315). -/
def retrainBusy (d : Dev) : Bool := d.fabric.ports.any (·.retraining)

/-- A port that waits for its buffers to empty before a retrain has emptied them (R315). -/
def settleRetrain (d : Dev) (q : Nat) : Dev :=
  let p := getPort d q
  if p.retraining && p.st != 5 && p.empty then modPort d q fun p => { p with st := 5 } else d

/-- A peer asks for a retrain; one at a time (R315). -/
def retrainReq (q : Nat) (d : Dev) : Dev :=
  if 6 ≤ q || retrainBusy d || !(portUp d q) then d else beginRetrain d q false none

/-- RETRAIN_REQ_RECEIVED. -/
def execRetrainReqReceived (port : Nat) (s : State) : Out := act s (live (retrainReq port))

/-- The 32 bytes of a port record (Table 12.4). -/
def portRecord (d : Dev) (q : Nat) : Bytes :=
  let p := getPort d q
  leBytes 1 p.st ++ leBytes 1 (if p.st == 1 || p.st == 2 || p.st == 6 then p.width else 0) ++ leBytes 1 (p.rxSpare.getD 0xFF) ++ leBytes 1 (p.txSpare.getD 0xFF) ++
  leBytes 1 p.peerVersion ++ leBytes 1 p.rate ++ leBytes 1 (d.fabric.dirs.getD q 7) ++ leBytes 1 p.peerPort ++
  leBytes 8 p.peerIdent.toNat ++ leBytes 2 p.peerCoord.toNat ++ leBytes 2 0 ++ leBytes 4 p.retrains.toNat ++
  leBytes 8 p.replays.toNat

/-- A retrain ends (R315), not while firmware is switched or stopped (R393); the mailbox that asked for it is answered with the port's record. -/
def retrainDone (q : Nat) (t : PortTrain) (d : Dev) : Dev :=
  let p := getPort d q
  if 6 ≤ q || !p.retraining || p.st != 5 || !(firmwareRuns d (q / 3)) then d
  else
    let d1 := trainPort d q t false true
    match p.mbx with
    | none => d1
    | some m => answerMbx d1 m { result := 0, body := portRecord d1 q }

/-- PORT_RETRAIN_DONE. -/
def execPortRetrainDone (port : Nat) (trained : PortTrain) (s : State) : Out := act s (live (retrainDone port trained))

/-- A peer's LINK_INIT (R316, R317): Nolar mode, or the cabling check. -/
def linkInit (q : Nat) (x : LinkInit) (d : Dev) : Dev :=
  let p := getPort d q
  if 6 ≤ q || !(p.st == 1 || p.st == 2 || p.st == 3 || p.st == 6) || !(x.version == 1 || x.version == 2) then d
  else
    let st := if x.version = 1 then 6 else if miscabled d q x.coord x.dir then 3 else if p.width = 16 then 1 else 2
    let d1 := modPort d q fun p => { p with
      st := st, peerVersion := x.version, peerIdent := x.ident, peerCoord := x.coord, peerPort := x.port
      rate := if st = 6 then 1 else 2 }
    let d2 := refreshDetours d1
    if st = p.st then d2
    else if st = 3 then dropWaiting (stateEvents d2 q 3 false) q
    else findParent d2

/-- LINK_INIT_RECEIVED. -/
def execLinkInitReceived (port : Nat) (init : LinkInit) (s : State) : Out := act s (live (linkInit port init))

/-! ## Flits (R308 to R312) -/

/-- A NAK goes out for the next LSEQ expected (R310). -/
def sendNak (d : Dev) (q : Nat) : Dev :=
  let p := getPort d q
  { modPort d q (fun p => { p with nakFrom := some (deviceTime d) }) with
    out.ctrl := d.out.ctrl ++ [(q, 2, (p.rxLast + 1).toNat)] }

/-- Flits were discarded: a NAK goes out, unless one stands and is sent again by its timer (R310; DEDUCED, log 115). -/
def discardFlit (d : Dev) (q : Nat) : Dev := if (getPort d q).nakFrom.isSome then d else sendNak d q

/-- An ACK covers every flit up to its LSEQ (R311). -/
def ackReplay (ack : BitVec 12) (l : List Flit) : List Flit :=
  match l.findIdx? fun f => f.lseq == ack with
  | none => l
  | some i => l.drop (i + 1)

/-- ACK and credit totals of a flit's header word (R311, R312). -/
def Port.linked (p : Port) (h : Nat) : Port :=
  let left := ackReplay (BitVec.ofNat 12 (bits h 31 20)) p.replay
  { p with
    replay := left
    nakRun := if left.any fun f => f.lseq == p.nakSeq then p.nakRun else 0
    crTotal := modAt p.crTotal (bits h 35 32) fun _ => BitVec.ofNat 12 (bits h 47 36) }

/-- ACK and credit totals of a flit take effect: the replay buffer shrinks, and waiting messages go (R311, R312). -/
def takeLink (d : Dev) (q : Nat) (h : Nat) : Dev := settleRetrain (pumpPort (modPort d q fun p => p.linked h) q) q

/-- A flit of a codeword that decoded (Table 12.2, R310). -/
def flitIn (q : Nat) (d : Dev) (flit : Bytes) : Dev :=
  let p := getPort d q
  let h := fld flit 0 6
  let kind := bits h 3 0
  if !(p.st == 1 || p.st == 2 || p.st == 6) || flit.length != 64 then d
  else if (crc32c (flit.take 60)).toNat != fld flit 60 4 then discardFlit d q
  else
    let d1 := takeLink d q h
    if kind = 0 || kind = 1 then d1
    else if (kind = 2 || kind = 3) && BitVec.ofNat 12 (bits h 19 8) = p.rxLast + 1 then
      countEvent (reportIdle (modPort d1 q fun p => { p with
        rxLast := p.rxLast + 1, nakFrom := none, rx := p.rx ++ [(bits h 7 4, slice flit 6 54)] }) q) evFabFlitRx 1 (q / 3) none none
    else discardFlit d1 q

/-- The ten flits of a codeword arrive, or are discarded with it (R306, R310). -/
def codewordIn (q : Nat) (flits : List Bytes) (cwOk : Bool) (d : Dev) : Dev :=
  if 6 ≤ q then d
  else if cwOk then flits.foldl (flitIn q) d
  else if portUp d q then discardFlit d q else d

/-- FLIT_RECEIVED. -/
def execFlitReceived (port : Nat) (flits : List Bytes) (cwOk : Bool) (s : State) : Out := act s (live (codewordIn port flits cwOk))

/-- A NAK arrives: the flits from its LSEQ on are sent again; at the eighth replay of one LSEQ in a row the port retrains
(R311). -/
def nakIn (q : Nat) (lseq : BitVec 12) (d : Dev) : Dev :=
  let p := getPort d q
  match p.replay.findIdx? fun f => f.lseq == lseq with
  | none => d
  | some i =>
    if 6 ≤ q || !(p.st == 1 || p.st == 2 || p.st == 6) then d
    else
      let run := if p.nakSeq = lseq && p.nakRun != 0 then p.nakRun + 1 else 1
      let d1 := logEvent (modPort d q fun p => { p with
        replays := p.replays + BitVec.ofNat 64 (p.replay.length - i), nakSeq := lseq, nakRun := run }) evFabReplay (.port q) 0
      let d2 := (p.replay.drop i).foldl (fun d f => emitFlits d q (getPort d q).turn [(getPort d q).flitBytes f]) d1
      if 8 ≤ run then beginRetrain d2 q true none else d2

/-- NAK_RECEIVED. -/
def execNakReceived (port : Nat) (lseq : BitVec 12) (s : State) : Out := act s (live (nakIn port lseq))

/-- The NAK goes out again 200 ns after the last one (R310). -/
def nakResend (q : Nat) (d : Dev) : Dev :=
  match (getPort d q).nakFrom with
  | none => d
  | some t => if t + 200 ≤ deviceTime d then sendNak d q else d

/-- NAK_RESEND. -/
def execNakResend (port : Nat) (s : State) : Out := act s (live (nakResend port))

/-! ## Messages (R319 to R322) -/

/-- The first flits of a VC leave the receive buffer. -/
def freeRx (vc : Nat) : Nat → List (Nat × Bytes) → List (Nat × Bytes)
  | 0, l => l
  | _ + 1, [] => []
  | n + 1, x :: r => if x.1 = vc then freeRx vc n r else x :: freeRx vc (n + 1) r

/-- A message has been taken from a port: its flits are freed, and the credits are reported (R312). -/
def freeFlits (d : Dev) (q : Nat) (m : FabMsg) : Dev :=
  reportIdle (modPort d q fun p => { p with
    vcFreed := modAt p.vcFreed (msgVc m) (· + BitVec.ofNat 12 (flitCount m))
    rx := freeRx (msgVc m) (flitCount m) p.rx
    crTurn := msgVc m }) q

/-- A message for this device: a response is taken; the other classes come to their units by rows of their own (R319, R420; log
116). -/
def deliver (d : Dev) (q : Nat) (m : FabMsg) : Dev := if m.cls = 1 && !d.hub.hardHalted then takeResponse d q m else d

/-- A message arrives at a port: its flits are freed, its header is checked, and it is routed on, delivered or discarded (R309,
R312, R319 to R321; under a hard halt a response for this device is discarded, R420). Port 6 brings what this device sent to
itself. -/
def messageIn (q : Nat) (m : FabMsg) (d : Dev) : Dev :=
  if q = 6 then deliver d q m
  else if 6 < q || !(portUp d q) then d
  else
    let d1 := freeFlits d q m
    let d2 := if (checkHeader m).2 then logEvent d1 evMemCorrected (.port q) 0 else d1
    match readHeader m with
    | none => logEvent d2 evFabUnroutable (.port q) 0
    | some m => match routeOf d2 q m.dest m.cls m.hops m.dl with
      | .here => deliver d2 q m
      | .out p dl => portSend d2 p q { m with hops := m.hops + 1, dl := dl }
      | .discard => discardMsg d2 q m

/-- A message that arrives at a port is for this device (R309, R319): it as this device reads it. -/
def deliveredHere (q : Nat) (m : FabMsg) (d : Dev) : Option FabMsg :=
  if q = 6 then some m
  else if q < 6 && portUp d q then (readHeader m).filter fun m => routeOf d q m.dest m.cls m.hops m.dl == .here
  else none

/-- A class 0 request has had no response for 1 ms (R322). -/
def requestTimeout (tag : W32) (d : Dev) : Dev :=
  match d.fabric.requests.find? fun r => r.tag == tag with
  | none => d
  | some r =>
    if r.sentAt + 1000000 ≤ deviceTime d then
      failRequest { d with fabric.requests := d.fabric.requests.filter fun x => x.tag != tag } r.op stFabricUnreachable
    else d

/-- FABRIC_REQUEST_TIMEOUT. -/
def execFabricRequestTimeout (tag : W32) (s : State) : Out := act s (running (requestTimeout tag))

/-! ## Lends (R349) -/

/-- The lender serves a request: only the borrower's, under a lend in force, within its size. -/
def lendAllowed (d : Dev) (r : LendReq) : Bool :=
  match tget d.fabric.lends r.lend with
  | none => false
  | some l => l.borrower == r.src && decide (r.offset + (match r.write with | some b => b.length | none => r.len) ≤ l.size)

/-- What a lender answers: the bytes read, nothing for a write, or an error: under a hard halt (R420), and where the written
bytes met an uncorrectable word on their way (R28, R309). -/
def serveLend (d : Dev) (r : LendReq) : Dev × Option Bytes :=
  if d.hub.hardHalted || !(lendAllowed d r) || (r.write.isSome && r.check == .uncorrectable) then (d, none)
  else
    let a := ((tget d.fabric.lends r.lend).map (·.base)).getD 0 + r.offset
    match r.write with
    | none => match readMem d none a r.len with
      | (d1, .ok b) => (d1, some b)
      | (d1, .error _) => (d1, none)
    | some b => match writeMem d none a b with
      | (d1, none) => (d1, some [])
      | (d1, some _) => (d1, none)

/-- A borrower's access reaches the lender, which answers with a class 1 response (R349). -/
def lendRequest (q : Nat) (r : LendReq) (d : Dev) : Dev :=
  if 6 < q || (q < 6 && !(portUp d q)) then d
  else
    let x := serveLend (if r.write.isSome then notePayload d q r.check none else d) r
    (injectMsg x.1 { dest := r.src, src := 0, cls := 1, op := ofBool r.write.isSome, hops := 0, inject := 0, tag := r.tag
                     error := x.2.isNone, info := lendInfo r.lend r.offset r.len, body := x.2.getD [] }).1

/-- LEND_REQUEST_RECEIVED. -/
def execLendRequestReceived (port : Nat) (req : LendReq) (s : State) : Out := act s (live (lendRequest port req))

end Sys2Proof.Machine
end

