-- ==== Sys2Proof/Machine/Halt.lean ====
section
/-! DEFINITION. How a ring halts, is aborted and resumes, and the status word (02 R51, R57, R65 to R71). -/

namespace Sys2Proof.Machine

/-! ## The status word (R51, R57) -/

/-- The 32 bytes of a status word. -/
def statusWord (d : Dev) (n : OpName) (st : Byte) (detail : W64) : Bytes :=
  [st, 0] ++ leBytes 2 n.ring ++ leBytes 4 n.seq.toNat ++ leBytes 8 (deviceTime d) ++ leBytes 8 detail.toNat ++ List.replicate 8 0

/-- The status word of an operation is written, where STATUS_EN is set and a word may be written: `none`, or the status of
the write that failed (R57). `hostErr` tells of a PCI Express error on a write to host memory. -/
def writeStatus (d : Dev) (n : OpName) (o : Op) (st : Byte) (hostErr : Bool) : Dev × Option Byte :=
  if !(o.statusEn && o.wordAllowed) then (d, none)
  else
    let host := match regionOf d o.statusAddr with
      | .host => true
      | _ => false
    if hostErr && host && (accessFault d o.statusAddr 32 true).isNone then (d, some stHostAbort)
    else writeMem d (some n) o.statusAddr (statusWord d n st (if st = stCancelled || st = stAborted then 0 else o.detail))

/-- The record of an operation that failed: status, opcode and sequence number (R76, R432). -/
def logFailed (d : Dev) (n : OpName) (o : Op) (st : Byte) : Dev :=
  logEvent d evOpFailed (.ring n.ring) (st.toNat + 2 ^ 8 * o.opcode + 2 ^ 32 * n.seq.toNat)

/-! ## Aborts and halts -/

/-- An abort reaches an operation in flight: its engine stops it; one that had ended keeps its own report (R67, R71). -/
def Op.abort (t : Nat) (st : Byte) (o : Op) : Op :=
  if o.phase = .complete || o.failedFetch then { o with aborted := true }
  else { o with aborted := true, phase := .complete, status := st, detail := 0, completeAt := t, sends := [], stallFrom := none }

/-- Sequence number `a` comes at or after `b` on a ring whose oldest is `r`. -/
def seqAfter (r a b : W32) : Bool := decide ((b - r).toNat ≤ (a - r).toNat)

/-- The last operation in flight behind a halt point has retired: the ring is HALTED (R67). -/
def enterHalted (d : Dev) (ring : Nat) : Dev :=
  match getRing d ring with
  | none => d
  | some r => raiseVector (logEvent (modRing d ring fun r => { r with st := .halted, haltAt := none, fetch := r.haltSeq })
      evRingHalt (.ring ring) 0) r.vector

/-- A ring on which nothing is in flight goes from its halt point to HALTED. -/
def settleHalt (d : Dev) (ring : Nat) : Dev :=
  match getRing d ring with
  | none => d
  | some r =>
    if r.st = .halting && r.ops.isEmpty then enterHalted d ring
    else match r.haltAt with
      | none => d
      | some q =>
        if r.st = .running && r.ops.isEmpty && r.fetch = q then
          enterHalted (modRing d ring fun r => { r with haltSeq := q, haltStatus := stCancelled }) ring
        else d

/-- A halt point is set at a sequence number by an abort: what is in flight from there on is aborted, what has not issued is
dropped, and earlier operations go on (R65, R273). -/
def abortFrom (d : Dev) (ring : Nat) (q : W32) : Dev :=
  let d1 := modRing d ring fun r => { r with
    haltAt := some q
    fetch := if seqAfter r.retired r.fetch q then q else r.fetch
    ops := (r.ops.filter fun o => !(seqAfter r.retired o.seq q) || o.inFlight).map fun o =>
      if seqAfter r.retired o.seq q then o.abort (cycle d) stCancelled else o }
  settleHalt d1 ring

/-- The halt point of a ring retires: everything behind it in flight is aborted, everything not issued is dropped (R66,
R67). -/
def haltRing (d : Dev) (ring : Nat) (seq : W32) (st : Byte) : Dev :=
  let d1 := modRing d ring fun r => { r with
    st := .halting
    haltStatus := st
    haltSeq := seq
    haltAt := none
    fetch := seq
    ops := (r.ops.filter fun o => o.seq != seq && o.inFlight).map (Op.abort (cycle d) stCancelled) }
  settleHalt d1 ring

/-- A HALTED ring resumes: it fetches the descriptor at HALT_SEQ afresh (R69). -/
def resumeRing (d : Dev) (ring : Nat) : Dev :=
  modRing d ring fun r => { r with st := .running, fetch := r.haltSeq, haltAt := none }

/-! ## What an operation leaves behind -/

/-- Rows of strided data at an address. -/
def moverRows (o : Op) (base stride : Nat) : List (Nat × Nat) :=
  (List.range (o.f 52 4)).map fun i => (base + i * stride, o.f 48 4)

/-- What a DM_COPY reads. -/
def moverSrc (o : Op) : List (Nat × Nat) := if o.opcode = 0x0801 then moverRows o (o.f 32 8) (o.f 56 4) else []

/-- What a data-mover operation writes. -/
def moverDst (o : Op) : List (Nat × Nat) := moverRows o (o.f 40 8) (o.f 60 4)

/-- What an operation leaves unspecified when it fails (R67): what it wrote, and the whole destination of one of the data
mover (R345). What a scatter, an update or a migration of the Badger has written stays (R225, R228, R229). -/
def Op.spoiled (o : Op) : List (Nat × Nat) :=
  if o.failedFetch || (0x0402 ≤ o.opcode && o.opcode ≤ 0x0404) then []
  else if o.opcode = 0x0801 || o.opcode = 0x0802 then moverDst o
  else o.outs

/-- What an operation that ends outside the success class leaves behind: its entries discarded, those it took back at the
head of their queue, its outputs unspecified (R33, R35, R67). -/
def undoOp (d : Dev) (n : OpName) (o : Op) : Dev :=
  o.spoiled.foldl (fun d r => scramble d r.1 r.2) (reserveTaken (discardSent d n) n)

/-! ## Fabric requests of an operation -/

/-- An operation has class 0 requests without their response (R56, R322). -/
def awaits (d : Dev) (n : OpName) : Bool := d.fabric.requests.any fun r => r.op == n

/-- The requests of an operation are forgotten: a response for an abandoned TAG is discarded (R322). -/
def dropRequests (d : Dev) (n : OpName) : Dev :=
  { d with fabric.requests := d.fabric.requests.filter fun r => r.op != n }

end Sys2Proof.Machine
end

