-- ==== Sys2Proof/Machine/Num.lean ====
section
/-! DEFINITION. Number formats, decoding, conversion and rounding (03), and exact FP32 arithmetic. -/

namespace Sys2Proof.Machine

/-! ## Values -/

/-- A real value with the signs and specials of the formats: a finite non-zero value is (−1)^neg × m × 2^e. -/
inductive Val where
  | zero (neg : Bool)
  | fin (neg : Bool) (m : Nat) (e : Int)
  | inf (neg : Bool)
  | nan (neg : Bool)
deriving DecidableEq, Repr

/-- Number of bits of an integer: 0 for 0. -/
def bitLength (m : Nat) : Nat := if m = 0 then 0 else Nat.log2 m + 1

/-- m × 2^k for k of either sign, when it is whole. -/
def shiftTo (m : Nat) (k : Int) : Nat := if 0 ≤ k then m * 2 ^ k.toNat else m / 2 ^ (-k).toNat

/-- A finite value, or the zero of that sign. -/
def Val.mk (neg : Bool) (m : Nat) (e : Int) : Val := if m = 0 then .zero neg else .fin neg m e

/-- The value times 2^k. -/
def Val.scale (k : Int) : Val → Val
  | .fin s m e => .fin s m (e + k)
  | v => v

/-- The sign. -/
def Val.neg : Val → Bool
  | .zero s => s
  | .fin s _ _ => s
  | .inf s => s
  | .nan s => s

/-- The value with a sign of its own. -/
def Val.withSign (s : Bool) : Val → Val
  | .zero _ => .zero s
  | .fin _ m e => .fin s m e
  | .inf _ => .inf s
  | .nan _ => .nan s

/-- NaN or infinite. -/
def Val.special : Val → Bool
  | .inf _ => true
  | .nan _ => true
  | _ => false

/-- The signed integer m × 2^(e − w) of a finite value, for w at most e. -/
def Val.atPos (w : Int) : Val → Int
  | .fin s m e => if s then -(shiftTo m (e - w) : Int) else shiftTo m (e - w)
  | _ => 0

/-- The exponent of a finite non-zero value, or a default. -/
def Val.expOr (dflt : Int) : Val → Int
  | .fin _ _ e => e
  | _ => dflt

/-- x ≤ y for values that are not NaN, with −0 equal to +0. -/
def Val.le (x y : Val) : Bool :=
  match x, y with
  | .nan _, _ => false
  | _, .nan _ => false
  | .inf true, _ => true
  | _, .inf false => true
  | .inf false, _ => false
  | _, .inf true => false
  | x, y =>
    let w := min (x.expOr (y.expOr 0)) (y.expOr (x.expOr 0))
    decide (x.atPos w ≤ y.atPos w)

/-- x < y for values that are not NaN. -/
def Val.lt (x y : Val) : Bool :=
  match x, y with
  | .nan _, _ => false
  | _, .nan _ => false
  | x, y => !(y.le x)

/-! ## Formats (Tables 3.2 to 3.4) -/

/-- Parameters of a binary floating-point format (Table 3.3), with the pattern of its largest finite value. -/
structure FpParams where
  we : Nat
  wm : Nat
  bias : Nat
  inf : Bool
  maxPat : Nat
deriving DecidableEq, Repr

/-- The floating-point formats by code (Table 3.3). -/
def fpParams (code : Nat) : Option FpParams :=
  match code with
  | 0 => some { we := 8, wm := 23, bias := 127, inf := true, maxPat := 0x7F7FFFFF }
  | 1 => some { we := 8, wm := 7, bias := 127, inf := true, maxPat := 0x7F7F }
  | 2 => some { we := 5, wm := 10, bias := 15, inf := true, maxPat := 0x7BFF }
  | 3 => some { we := 4, wm := 3, bias := 7, inf := false, maxPat := 0x7E }
  | 4 => some { we := 5, wm := 2, bias := 15, inf := true, maxPat := 0x7B }
  | 5 => some { we := 3, wm := 2, bias := 3, inf := false, maxPat := 0x1F }
  | 6 => some { we := 2, wm := 3, bias := 1, inf := false, maxPat := 0x1F }
  | 7 => some { we := 2, wm := 1, bias := 1, inf := false, maxPat := 0x7 }
  | _ => none

/-- Bits per element (Table 3.2). -/
def fmtBits (code : Nat) : Nat :=
  match code with
  | 0 => 32
  | 1 => 16
  | 2 => 16
  | 3 => 8
  | 4 => 8
  | 5 => 6
  | 6 => 6
  | 7 => 4
  | 8 => 8
  | 9 => 8
  | 10 => 4
  | 11 => 32
  | _ => 8

/-- The MX attribute is accepted (Table 3.2). -/
def mxAccepted (code : Nat) : Bool := 3 ≤ code && code ≤ 10

/-- A format word (Table 3.1). -/
structure Fmt where
  code : Nat
  mx : Bool
  scale : Int
deriving DecidableEq, Repr

/-- The fields of a format word (Table 3.1). -/
def fmtOf (w : Nat) : Fmt := { code := bits w 5 0, mx := bit w 6, scale := signed 8 (bits w 15 8) }

/-- FP32 without scale. -/
def fmtF32 : Fmt := { code := 0, mx := false, scale := 0 }

/-- What R78 refuses: a code outside Table 3.2, an MX bit the code does not accept, or a TSCALE of −128. -/
def fmtWordBad (w : Nat) : Bool :=
  decide (0x0D ≤ bits w 5 0) || (bit w 6 && !(mxAccepted (bits w 5 0))) || bits w 15 8 == 0x80

/-- Significands of ULOG8 as integers over 2^23 (Table 3.6). -/
def ulogM (f : Nat) : Nat :=
  match f with
  | 0 => 0x800000
  | 1 => 0x9837F0
  | 2 => 0xB504F3
  | _ => 0xD744FD

/-- V(c) of R84 for c from 0x01 to 0xFE. -/
def ulogVal (c : Nat) : Val :=
  let k : Int := (c : Int) - 192
  .fin false (ulogM (k % 4).toNat) (k / 4 - 23)

/-- The value of a floating-point pattern (R79, R80). -/
def fpVal (code : Nat) (p : FpParams) (x : Nat) : Val :=
  let s := bit x (p.we + p.wm)
  let f := bits x (p.we + p.wm - 1) p.wm
  let g := x % 2 ^ p.wm
  if p.inf && f == 2 ^ p.we - 1 then (if g = 0 then .inf s else .nan s)
  else if code = 3 && f == 15 && g == 7 then .nan s
  else if f = 0 then Val.mk s g (1 - (p.bias : Int) - p.wm)
  else .fin s (2 ^ p.wm + g) ((f : Int) - p.bias - p.wm)

/-- The value of an integer, of sign by its own. -/
def intVal (k : Int) (e : Int) : Val := Val.mk (decide (k < 0)) k.natAbs e

/-- The element value of a pattern, before block and tensor scale (R79 to R84). -/
def elemVal (code : Nat) (mx : Bool) (x : Nat) : Val :=
  match fpParams code with
  | some p => fpVal code p x
  | none =>
    if code = 8 then intVal (signed 8 x) (if mx then -6 else 0)
    else if code = 9 then intVal (x % 256 : Nat) (if mx then -7 else 0)
    else if code = 10 then intVal (signed 4 x) (if mx then -2 else 0)
    else if code = 11 then intVal (signed 32 x) 0
    else if x % 256 = 0 then .zero false
    else if x % 256 = 255 then .nan false
    else ulogVal (x % 256)

/-- The real value that an element stands for: element value × block scale × 2^TSCALE (R78, R87, R90). A scale byte of 0xFF
makes a positive NaN. -/
def readVal (f : Fmt) (x : Nat) (scaleByte : Nat) : Val :=
  if f.mx && scaleByte == 255 then .nan false
  else (elemVal f.code f.mx x).scale (f.scale + if f.mx then (scaleByte : Int) - 127 else 0)

/-- Element `i` of densely packed elements (R86). -/
def unpackElem (code : Nat) (data : Bytes) (i : Nat) : Nat :=
  match fmtBits code with
  | 32 => fld data (4 * i) 4
  | 16 => fld data (2 * i) 2
  | 8 => fld data i 1
  | 4 => bits (fld data (i / 2) 1) (4 * (i % 2) + 3) (4 * (i % 2))
  | _ => bits (fld data (i / 4 * 3) 3) (6 * (i % 4) + 5) (6 * (i % 4))

/-- Bytes that `n` packed elements take (R86). -/
def packedBytes (code n : Nat) : Nat := (n * fmtBits code + 7) / 8

/-- Elements packed densely (R86). -/
def packElems (code : Nat) (xs : List Nat) : Bytes :=
  let b := fmtBits code
  let total := xs.zipIdx.foldl (fun acc e => acc + (e.1 % 2 ^ b) * 2 ^ (b * e.2)) 0
  leBytes (packedBytes code xs.length) total

/-- Elements that a row must hold a multiple of (R86). -/
def packGroup (code : Nat) : Nat := if fmtBits code = 4 then 2 else if fmtBits code = 6 then 4 else 1

/-! ## Rounding (R99 to R101) -/

/-- m × 2^e rounded to a whole multiple of 2^lsb: RND 0 nearest even, 1 toward zero, 2 stochastic with draw `r`. Answers the
multiple. -/
def roundTo (rnd r m : Nat) (e lsb : Int) : Nat :=
  if lsb ≤ e then shiftTo m (e - lsb)
  else
    let sh := (lsb - e).toNat
    let v := m / 2 ^ sh
    let rest := m % 2 ^ sh
    if rnd = 1 then v
    else if rnd = 2 then (if rest ≠ 0 && 2 ^ 16 ≤ rest * 2 ^ 16 / 2 ^ sh + r then v + 1 else v)
    else if 2 * rest > 2 ^ sh || (2 * rest = 2 ^ sh && v % 2 = 1) then v + 1 else v

/-- The lowest position kept of a value whose leading bit is at `top` (R96, R109). -/
def lsbOf (p : FpParams) (top : Int) : Int := max (top - p.wm) (1 - (p.bias : Int) - p.wm)

/-- The pattern of magnitude v × 2^lsb, which may pass the largest finite pattern (R96). -/
def fpPattern (p : FpParams) (v : Nat) (lsb : Int) : Nat :=
  if v = 0 then 0 else (lsb - (1 - (p.bias : Int) - p.wm)).toNat * 2 ^ p.wm + v

/-- The sign bit of a format. -/
def signBit (p : FpParams) (s : Bool) : Nat := if s then 2 ^ (p.we + p.wm) else 0

/-- The canonical NaN of a floating-point format (Table 3.5); FP6 and FP4 have none. -/
def fpNan (code : Nat) (p : FpParams) (s : Bool) : Nat :=
  signBit p s + (if code = 3 then 0x7F else (2 ^ p.we - 1) * 2 ^ p.wm + 2 ^ (p.wm - 1))

/-- Infinity of a format that has one. -/
def fpInf (p : FpParams) (s : Bool) : Nat := signBit p s + (2 ^ p.we - 1) * 2 ^ p.wm

/-- The overflow rule of a format has infinities or a NaN (Table 3.10). -/
def fpOverflow (code : Nat) (p : FpParams) (sat s : Bool) : Nat :=
  if sat || code = 5 || code = 6 || code = 7 then signBit p s + p.maxPat
  else if code = 3 then fpNan 3 p s
  else fpInf p s

/-- A converted element: its pattern, SAT_HIT and NONFINITE_IN (R97). -/
structure Conv where
  pat : Nat
  sat : Bool := false
  nonfinite : Bool := false
deriving DecidableEq, Repr

/-- Range of an integer target. -/
def intRange (code : Nat) : Int × Int :=
  match code with
  | 8 => (-128, 127)
  | 9 => (0, 255)
  | 10 => (-8, 7)
  | _ => (-2 ^ 31, 2 ^ 31 - 1)

/-- The conversion of a value to an integer range of `n` bits (R96). -/
def convInt (n : Nat) (range : Int × Int) (rnd r : Nat) (y : Val) : Conv :=
  match y with
  | .nan _ => { pat := 0, nonfinite := true }
  | .inf s => { pat := wrap n (if s then range.1 else range.2), nonfinite := true }
  | .zero _ => { pat := 0 }
  | .fin s m e =>
    let v : Int := roundTo rnd r m e 0
    let k := if s then -v else v
    if k < range.1 then { pat := wrap n range.1, sat := true }
    else if range.2 < k then { pat := wrap n range.2, sat := true }
    else { pat := wrap n k }

/-- m1 × 2^e1 < m2 × 2^e2. -/
def magLt (m1 : Nat) (e1 : Int) (m2 : Nat) (e2 : Int) : Bool :=
  let w := min e1 e2
  decide (shiftTo m1 (e1 - w) < shiftTo m2 (e2 - w))

/-- The value of ULOG8 code c with 0 for c = 0, as (m, e). -/
def ulogPair (c : Nat) : Nat × Int :=
  if c = 0 then (0, -100) else match ulogVal c with
    | .fin _ m e => (m, e)
    | _ => (0, -100)

/-- The conversion to ULOG8 (R96, R100, R101). The grid goes on past V(0xFE) by the same formula, so that a value that rounds
beyond it overflows; a negative value takes 0xFF, which is no overflow entry (DEDUCED, log 18). -/
def convUlog (rnd r : Nat) (y : Val) : Conv :=
  match y with
  | .nan _ => { pat := 0xFF, nonfinite := true }
  | .inf s => { pat := if s then 0xFF else 0xFE, nonfinite := true }
  | .zero _ => { pat := 0 }
  | .fin true _ _ => { pat := 0xFF }
  | .fin false m e =>
    -- the largest code whose value does not exceed y
    let lo := (List.range 255).foldl (fun best c => if magLt m e (ulogPair c).1 (ulogPair c).2 then best else c) 0
    let a := ulogPair lo
    let b := ulogPair (lo + 1)
    let w := min e (min a.2 b.2)
    let y1 := shiftTo m (e - w)
    let a1 := shiftTo a.1 (a.2 - w)
    let b1 := shiftTo b.1 (b.2 - w)
    let up : Bool :=
      if rnd = 1 then decide (b1 ≤ y1)
      else if rnd = 2 then decide (2 ^ 16 ≤ 2 ^ 16 * (y1 - a1) / (b1 - a1) + r)
      else decide (2 * y1 > a1 + b1) || (2 * y1 == a1 + b1 && lo % 2 == 1)
    if up && lo = 0xFE then { pat := 0xFE, sat := true } else { pat := if up then lo + 1 else lo }

/-- The conversion of a value to a floating-point format (R96). -/
def convFp (code : Nat) (p : FpParams) (rnd : Nat) (sat : Bool) (r : Nat) (y : Val) : Conv :=
  match y with
  | .nan s => { pat := if code = 5 || code = 6 || code = 7 then 0 else fpNan code p s, nonfinite := true }
  | .inf s => { pat := if sat then signBit p s + p.maxPat else fpOverflow code p false s, nonfinite := true }
  | .zero s => { pat := signBit p s }
  | .fin s m e =>
    let lsb := lsbOf p (e + bitLength m - 1)
    let pat := fpPattern p (roundTo rnd r m e lsb) lsb
    if p.maxPat < pat then { pat := if rnd = 1 then signBit p s + p.maxPat else fpOverflow code p sat s, sat := true }
    else { pat := signBit p s + pat }

/-- The conversion of an exact value to a format with tensor scale, without block scale (R96). `rc` is the rounding control
of Table 3.9 and `r` the draw of stochastic rounding. -/
def convert (f : Fmt) (rc r : Nat) (x : Val) : Conv :=
  let y := x.scale (-f.scale)
  let rnd := rc % 4
  match fpParams f.code with
  | some p => convFp f.code p rnd (bit rc 2) r y
  | none =>
    if f.code = 12 then convUlog rnd r y
    else convInt (fmtBits f.code) (intRange f.code) rnd r y

/-- emax of R98. -/
def mxEmax (code : Nat) : Int :=
  match code with
  | 3 => 8
  | 4 => 15
  | 5 => 4
  | 6 => 2
  | 7 => 2
  | _ => 0

/-- The exponent of the leading bit of a finite non-zero value: floor(log2 |x|). -/
def Val.top : Val → Int
  | .fin _ m e => e + bitLength m - 1
  | _ => 0

/-- The MX integer types count in units of 2^−6, 2^−7 and 2^−2 (R83). -/
def mxUnit (code : Nat) : Int :=
  match code with
  | 8 => -6
  | 9 => -7
  | 10 => -2
  | _ => 0

/-- An MX block written (R98): its scale byte and its converted elements. `rs` holds the draws. -/
def convertBlock (f : Fmt) (rc : Nat) (rs : List Nat) (xs : List Val) : Nat × List Conv :=
  let ys := xs.map fun x => x.scale (-f.scale)
  if ys.any Val.special then (255, ys.map fun y => { pat := 0, nonfinite := y.special })
  else
    let tops := ys.filterMap fun y => match y with
      | .fin _ _ _ => some y.top
      | _ => none
    match tops with
    | [] => (127, ys.map fun y => convert { f with mx := false, scale := 0 } (rc % 4 + 4) 0 y)
    | t :: ts =>
      let e := max (-127) (min 127 (ts.foldl max t - mxEmax f.code))
      let conv (y : Val) (r : Nat) : Conv :=
        convert { f with mx := false, scale := 0 } (rc % 4 + 4) r (y.scale (-e - mxUnit f.code))
      ((e + 127).toNat, ys.zipIdx.map fun y => conv y.1 (rs.getD y.2 0))

/-! ## FP32 (R109, R111) -/

/-- The value of an FP32 pattern. -/
def f32 (x : W32) : Val := elemVal 0 false x.toNat

/-- A value rounded to FP32, nearest even, overflowing to infinity. -/
def toF32 (v : Val) : W32 := BitVec.ofNat 32 (convert fmtF32 0 0 v).pat

/-- The canonical FP32 NaN of a sign. -/
def f32Nan (s : Bool) : W32 := if s then 0xFFC00000 else 0x7FC00000

/-- `round` of R109: (−1)^s × m × 2^w for m > 0, with `t` set where bits below 2^w were lost. Answers a pattern. Where the
kept bits reach down to 2^w the lost bits play no part; otherwise they stand below every kept bit and off every tie. -/
def roundSticky (code : Nat) (s : Bool) (m : Nat) (w : Int) (t : Bool) : Nat :=
  match fpParams code with
  | none => 0
  | some p =>
    if lsbOf p (w + bitLength m - 1) ≤ w then (convFp code p 0 false 0 (Val.mk s m w)).pat
    else (convFp code p 0 false 0 (Val.mk s (4 * m + ofBool t) (w - 2))).pat

/-- `add` of R111: x in format `code`, y a value, result a pattern of the format. The first NaN gives its sign. -/
def addFmt (code : Nat) (x y : Val) : Nat :=
  match fpParams code with
  | none => 0
  | some p =>
    match x, y with
    | .nan s, _ => fpNan code p s
    | _, .nan s => fpNan code p s
    | .inf a, .inf b => if a == b then fpInf p a else fpNan code p false
    | .inf a, _ => fpInf p a
    | _, .inf b => fpInf p b
    | x, y =>
      let w := min (x.expOr (y.expOr 0)) (y.expOr (x.expOr 0))
      let n := x.atPos w + y.atPos w
      if n = 0 then
        (match x, y with
        | .zero true, .zero true => signBit p true
        | _, _ => 0)
      else (convFp code p 0 false 0 (.fin (decide (n < 0)) n.natAbs w)).pat

/-- FP32 addition. -/
def f32Add (x y : W32) : W32 := BitVec.ofNat 32 (addFmt 0 (f32 x) (f32 y))

/-- FP32 with the sign bit turned. -/
def f32Neg (x : W32) : W32 := x ^^^ 0x80000000

/-- The exact product of two values: the first NaN, then infinity times zero, infinities, zeros and finite values
(Table 4.1). -/
def mulVal (x y : Val) : Val :=
  match x, y with
  | .nan s, _ => .nan s
  | _, .nan s => .nan s
  | .inf _, .zero _ => .nan false
  | .zero _, .inf _ => .nan false
  | .inf a, y => .inf (a != y.neg)
  | x, .inf b => .inf (x.neg != b)
  | .fin a m e, .fin b n f => .fin (a != b) (m * n) (e + f)
  | x, y => .zero (x.neg != y.neg)

/-- FP32 multiplication. -/
def f32Mul (x y : W32) : W32 := toF32 (mulVal (f32 x) (f32 y))

/-- x × y + z with one rounding. -/
def fmaVal (x y z : Val) : W32 :=
  match mulVal x y with
  | .nan s => f32Nan s
  | p => BitVec.ofNat 32 (addFmt 0 p z)

/-- FP32 division, correctly rounded. -/
def divVal (x y : Val) : W32 :=
  match x, y with
  | .nan s, _ => f32Nan s
  | _, .nan s => f32Nan s
  | .inf _, .inf _ => f32Nan false
  | .zero _, .zero _ => f32Nan false
  | .inf a, y => toF32 (.inf (a != y.neg))
  | x, .inf b => toF32 (.zero (x.neg != b))
  | x, .zero b => toF32 (.inf (x.neg != b))
  | .zero a, y => toF32 (.zero (a != y.neg))
  | .fin a m e, .fin b n f =>
    let q := m * 2 ^ 400 / n
    BitVec.ofNat 32 (roundSticky 0 (a != b) q (e - f - 400) (m * 2 ^ 400 % n != 0))

/-- FP32 division of patterns. -/
def f32Div (x y : W32) : W32 := divVal (f32 x) (f32 y)

/-- Integer square root, rounded down, by bisection over `fuel` bits. -/
def isqrt (n : Nat) : Nat → Nat → Nat
  | 0, r => r
  | fuel + 1, r =>
    let r1 := r + 2 ^ fuel
    isqrt n fuel (if r1 * r1 ≤ n then r1 else r)

/-- FP32 square root, correctly rounded: −0 gives −0 and a negative value NaN. -/
def sqrtVal (x : Val) : W32 :=
  match x with
  | .nan s => f32Nan s
  | .zero s => toF32 (.zero s)
  | .inf false => toF32 (.inf false)
  | .inf true => f32Nan false
  | .fin true _ _ => f32Nan false
  | .fin false m e =>
    -- make the exponent even and keep 40 bits of root
    let e1 := e - 80 - (e % 2)
    let n := shiftTo m (e - e1)
    let r := isqrt n 90 0
    BitVec.ofNat 32 (roundSticky 0 false r (e1 / 2) (r * r != n))

end Sys2Proof.Machine
end

