-- ==== Sys2Proof/Machine/LoomCode.lean ====
section
/-! DEFINITION. The encoding of Loom instructions, what a load accepts, and the program image (06 R154, R155, R160, R170, R180
to R182, R450). -/

namespace Sys2Proof.Machine

/-- The opcodes of Tables 6.8 to 6.16. -/
inductive LoomOp where
  | loomNop | loomEnd | loomFault | j | beq | bne | blt | bge | bltu | loop | bmz | bmnz | call | ret | sadd
  | ssub | smul | sand | sor | sxor | sshl | sshr | ssra | smin | smax | saddi | sshli | sshri | sli | slui
  | sfadd | sfmul | sffma | sctx | vadd | vsub | vmul | vfma | vfms | vfnma | vmin | vmax | vabs | vneg | vrcp
  | vrsqrt | vsqrt | vdiv | vexp2 | vlog2 | vexp | vtanh | vrint | vldexp | viadd | visub | vimul | vimin
  | vimax | vand | vor | vxor | vshl | vshr | vmov | vsel | viota | vli | vcmpeq | vcmpne | vcmplt | vcmple
  | vcmpun | visfin | mand | mor | mxor | mnot | mprefix | mpopc | mfirst | vcompress | vexpand | vperm | vrot
  | vbcast | vext | vins | rsumO | rsumOa | rmax | rmin | risum | viscan | vcvtF2i | vcvtI2f | vpack | vunpl
  | vunph | vcvtX | vdcdX | vld | vst | vldf | vstf | vldx | vstx | sld | sst | mld | mst | vldg | vstg | accrd
  | chtake | chsend | cnsVal | cnsSat | cnsNf | ucvt | ustf
deriving DecidableEq, Repr

/-- The four formats (Table 6.3). -/
inductive LoomFormat where
  | r | i | m | b
deriving DecidableEq, Repr

/-- What a register field names: nothing, a source, a destination, or an entry of a list of the descriptor. -/
inductive LoomRole where
  | unused | scalar | vector | mask | scalarDest | vectorDest | maskDest | index
deriving DecidableEq, Repr

/-- One row of Tables 6.8 to 6.16. -/
structure LoomInfo where
  /-- OP. -/
  num : Nat
  format : LoomFormat
  /-- The lane types of its TY column; none where its table has no such column. -/
  types : Option (List Nat) := none
  d : LoomRole := .unused
  a : LoomRole := .unused
  b : LoomRole := .unused
  c : LoomRole := .unused
  x : LoomRole := .unused
  f : LoomRole := .unused
  /-- Low bits of IMM that it uses; 0 where it uses none. -/
  imm : Nat := 0
  /-- It uses TARGET. -/
  target : Bool := false
  /-- 0 does not round, 1 rounds under RC, 2 also stochastically (R170). -/
  rounds : Nat := 0
deriving DecidableEq, Repr

/-- A row of format R. -/
def rowR (num : Nat) (types : Option (List Nat)) (d a b c : LoomRole) (rounds : Nat) : LoomInfo :=
  { num := num, format := .r, types := types, d := d, a := a, b := b, c := c, rounds := rounds }

/-- A row of format I. -/
def rowI (num : Nat) (types : Option (List Nat)) (d a : LoomRole) (imm : Nat) : LoomInfo :=
  { num := num, format := .i, types := types, d := d, a := a, imm := imm }

/-- A row of format M. -/
def rowM (num : Nat) (d x f : LoomRole) (rounds : Nat) : LoomInfo :=
  { num := num, format := .m, d := d, a := .scalar, x := x, f := f, rounds := rounds }

/-- A row of format B. -/
def rowB (num : Nat) (a b : LoomRole) (target : Bool) : LoomInfo :=
  { num := num, format := .b, a := a, b := b, target := target }

/-- All floating-point lane types. -/
abbrev tyFp : Option (List Nat) := some [0, 1, 2]
/-- .f32. -/
abbrev tyF32 : Option (List Nat) := some [0]
/-- .i32 and .u32. -/
abbrev tyInt : Option (List Nat) := some [3, 4]
/-- .u32. -/
abbrev tyU32 : Option (List Nat) := some [4]
/-- .f32, .i32 and .u32. -/
abbrev tyAny : Option (List Nat) := some [0, 3, 4]
/-- .bf16 and .f16. -/
abbrev tyHalf : Option (List Nat) := some [1, 2]
/-- .f32 and .i32. -/
abbrev tyConv : Option (List Nat) := some [0, 3]
/-- .f32, .bf16, .f16 and .i32. -/
abbrev tyCensus : Option (List Nat) := some [0, 1, 2, 3]

/-- The opcode tables. -/
def LoomOp.info : LoomOp → LoomInfo
  | .loomNop => rowB 0x00 .unused .unused false
  | .loomEnd => rowB 0x01 .unused .unused false
  | .loomFault => rowI 0x02 none .unused .unused 16
  | .j => rowB 0x03 .unused .unused true
  | .beq => rowB 0x04 .scalar .scalar true
  | .bne => rowB 0x05 .scalar .scalar true
  | .blt => rowB 0x06 .scalar .scalar true
  | .bge => rowB 0x07 .scalar .scalar true
  | .bltu => rowB 0x08 .scalar .scalar true
  | .loop => rowB 0x09 .scalar .unused true
  | .bmz => rowB 0x0A .mask .unused true
  | .bmnz => rowB 0x0B .mask .unused true
  | .call => rowB 0x0C .unused .unused true
  | .ret => rowB 0x0D .unused .unused false
  | .sadd => rowR 0x10 none .scalarDest .scalar .scalar .unused 0
  | .ssub => rowR 0x11 none .scalarDest .scalar .scalar .unused 0
  | .smul => rowR 0x12 none .scalarDest .scalar .scalar .unused 0
  | .sand => rowR 0x13 none .scalarDest .scalar .scalar .unused 0
  | .sor => rowR 0x14 none .scalarDest .scalar .scalar .unused 0
  | .sxor => rowR 0x15 none .scalarDest .scalar .scalar .unused 0
  | .sshl => rowR 0x16 none .scalarDest .scalar .scalar .unused 0
  | .sshr => rowR 0x17 none .scalarDest .scalar .scalar .unused 0
  | .ssra => rowR 0x18 none .scalarDest .scalar .scalar .unused 0
  | .smin => rowR 0x19 none .scalarDest .scalar .scalar .unused 0
  | .smax => rowR 0x1A none .scalarDest .scalar .scalar .unused 0
  | .saddi => rowI 0x1B none .scalarDest .scalar 32
  | .sshli => rowI 0x1C none .scalarDest .scalar 6
  | .sshri => rowI 0x1D none .scalarDest .scalar 6
  | .sli => rowI 0x1E none .scalarDest .unused 32
  | .slui => rowI 0x1F none .scalarDest .unused 32
  | .sfadd => rowR 0x20 none .scalarDest .scalar .scalar .unused 1
  | .sfmul => rowR 0x21 none .scalarDest .scalar .scalar .unused 1
  | .sffma => rowR 0x22 none .scalarDest .scalar .scalar .scalar 1
  | .sctx => rowI 0x23 none .scalarDest .unused 3
  | .vadd => rowR 0x30 tyFp .vectorDest .vector .vector .unused 1
  | .vsub => rowR 0x31 tyFp .vectorDest .vector .vector .unused 1
  | .vmul => rowR 0x32 tyFp .vectorDest .vector .vector .unused 1
  | .vfma => rowR 0x33 tyFp .vectorDest .vector .vector .vector 1
  | .vfms => rowR 0x34 tyFp .vectorDest .vector .vector .vector 1
  | .vfnma => rowR 0x35 tyFp .vectorDest .vector .vector .vector 1
  | .vmin => rowR 0x36 tyFp .vectorDest .vector .vector .unused 0
  | .vmax => rowR 0x37 tyFp .vectorDest .vector .vector .unused 0
  | .vabs => rowR 0x38 tyFp .vectorDest .vector .unused .unused 0
  | .vneg => rowR 0x39 tyFp .vectorDest .vector .unused .unused 0
  | .vrcp => rowR 0x3A tyF32 .vectorDest .vector .unused .unused 1
  | .vrsqrt => rowR 0x3B tyF32 .vectorDest .vector .unused .unused 1
  | .vsqrt => rowR 0x3C tyF32 .vectorDest .vector .unused .unused 1
  | .vdiv => rowR 0x3D tyF32 .vectorDest .vector .vector .unused 1
  | .vexp2 => rowR 0x3E tyF32 .vectorDest .vector .unused .unused 1
  | .vlog2 => rowR 0x3F tyF32 .vectorDest .vector .unused .unused 1
  | .vexp => rowR 0x40 tyF32 .vectorDest .vector .unused .unused 1
  | .vtanh => rowR 0x41 tyF32 .vectorDest .vector .unused .unused 1
  | .vrint => rowR 0x42 tyF32 .vectorDest .vector .unused .unused 1
  | .vldexp => rowR 0x43 tyF32 .vectorDest .vector .vector .unused 1
  | .viadd => rowR 0x60 tyInt .vectorDest .vector .vector .unused 0
  | .visub => rowR 0x61 tyInt .vectorDest .vector .vector .unused 0
  | .vimul => rowR 0x62 tyInt .vectorDest .vector .vector .unused 0
  | .vimin => rowR 0x63 tyInt .vectorDest .vector .vector .unused 0
  | .vimax => rowR 0x64 tyInt .vectorDest .vector .vector .unused 0
  | .vand => rowR 0x65 tyU32 .vectorDest .vector .vector .unused 0
  | .vor => rowR 0x66 tyU32 .vectorDest .vector .vector .unused 0
  | .vxor => rowR 0x67 tyU32 .vectorDest .vector .vector .unused 0
  | .vshl => rowR 0x68 tyInt .vectorDest .vector .vector .unused 0
  | .vshr => rowR 0x69 tyInt .vectorDest .vector .vector .unused 0
  | .vmov => rowR 0x6A tyU32 .vectorDest .vector .unused .unused 0
  | .vsel => rowR 0x6B tyU32 .vectorDest .vector .vector .unused 0
  | .viota => rowR 0x6C tyU32 .vectorDest .scalar .unused .unused 0
  | .vli => rowI 0x6D tyU32 .vectorDest .unused 32
  | .vcmpeq => rowR 0x80 tyAny .maskDest .vector .vector .unused 0
  | .vcmpne => rowR 0x81 tyAny .maskDest .vector .vector .unused 0
  | .vcmplt => rowR 0x82 tyAny .maskDest .vector .vector .unused 0
  | .vcmple => rowR 0x83 tyAny .maskDest .vector .vector .unused 0
  | .vcmpun => rowR 0x84 tyF32 .maskDest .vector .vector .unused 0
  | .visfin => rowR 0x85 tyF32 .maskDest .vector .unused .unused 0
  | .mand => rowR 0x88 none .maskDest .mask .mask .unused 0
  | .mor => rowR 0x89 none .maskDest .mask .mask .unused 0
  | .mxor => rowR 0x8A none .maskDest .mask .mask .unused 0
  | .mnot => rowR 0x8B none .maskDest .mask .unused .unused 0
  | .mprefix => rowR 0x8C none .maskDest .scalar .unused .unused 0
  | .mpopc => rowR 0x8D none .scalarDest .mask .unused .unused 0
  | .mfirst => rowR 0x8E none .scalarDest .mask .unused .unused 0
  | .vcompress => rowR 0x90 tyU32 .vectorDest .vector .unused .scalar 0
  | .vexpand => rowR 0x91 tyU32 .vectorDest .vector .unused .unused 0
  | .vperm => rowR 0x92 tyU32 .vectorDest .vector .vector .unused 0
  | .vrot => rowR 0x93 tyU32 .vectorDest .vector .scalar .unused 0
  | .vbcast => rowR 0x94 tyU32 .vectorDest .vector .scalar .unused 0
  | .vext => rowR 0x95 tyU32 .scalarDest .vector .scalar .unused 0
  | .vins => rowR 0x96 tyU32 .vectorDest .scalar .scalar .unused 0
  | .rsumO => rowR 0x97 tyF32 .scalarDest .vector .unused .unused 0
  | .rsumOa => rowR 0x98 tyF32 .scalarDest .vector .unused .unused 0
  | .rmax => rowR 0x99 tyAny .scalarDest .vector .unused .unused 0
  | .rmin => rowR 0x9A tyAny .scalarDest .vector .unused .unused 0
  | .risum => rowR 0x9B tyInt .scalarDest .vector .unused .unused 0
  | .viscan => rowR 0x9C tyInt .vectorDest .vector .unused .unused 0
  | .vcvtF2i => rowR 0xA0 tyInt .vectorDest .vector .unused .unused 1
  | .vcvtI2f => rowR 0xA1 tyInt .vectorDest .vector .unused .unused 1
  | .vpack => rowR 0xA2 tyHalf .vectorDest .vector .vector .unused 1
  | .vunpl => rowR 0xA3 tyHalf .vectorDest .vector .unused .unused 0
  | .vunph => rowR 0xA4 tyHalf .vectorDest .vector .unused .unused 0
  | .vcvtX => rowR 0xA5 tyConv .vectorDest .vector .scalar .unused 1
  | .vdcdX => rowR 0xA6 tyConv .vectorDest .vector .scalar .unused 0
  | .vld => rowM 0xB0 .vectorDest .unused .unused 0
  | .vst => rowM 0xB1 .vector .unused .unused 0
  | .vldf => rowM 0xB2 .vectorDest .scalar .scalar 0
  | .vstf => rowM 0xB3 .vector .scalar .scalar 1
  | .vldx => rowM 0xB4 .vectorDest .vector .unused 0
  | .vstx => rowM 0xB5 .vector .vector .unused 0
  | .sld => rowM 0xB6 .scalarDest .unused .unused 0
  | .sst => rowM 0xB7 .scalar .unused .unused 0
  | .mld => rowM 0xB8 .maskDest .unused .unused 0
  | .mst => rowM 0xB9 .mask .unused .unused 0
  | .vldg => rowM 0xBA .vectorDest .unused .unused 0
  | .vstg => rowM 0xBB .vector .unused .unused 0
  | .accrd => rowR 0xC0 none .vectorDest .scalar .scalar .index 0
  | .chtake => rowI 0xC1 none .scalarDest .unused 2
  | .chsend => rowR 0xC2 none .index .scalar .scalar .scalar 0
  | .cnsVal => rowR 0xD0 tyCensus .unused .vector .scalar .unused 0
  | .cnsSat => rowR 0xD1 none .unused .mask .scalar .unused 0
  | .cnsNf => rowR 0xD2 none .unused .mask .scalar .unused 0
  | .ucvt => rowR 0xE0 none .vectorDest .vector .scalar .scalar 2
  | .ustf => rowR 0xE1 none .vector .scalar .scalar .scalar 2

/-- Opcodes in the order of the tables, part 1. -/
def loomOps1 : List LoomOp :=
  [.loomNop, .loomEnd, .loomFault, .j, .beq, .bne, .blt, .bge, .bltu, .loop, .bmz, .bmnz, .call, .ret, .sadd,
   .ssub, .smul, .sand, .sor, .sxor, .sshl, .sshr, .ssra, .smin, .smax, .saddi, .sshli, .sshri, .sli, .slui,
   .sfadd, .sfmul, .sffma, .sctx, .vadd, .vsub, .vmul, .vfma, .vfms, .vfnma, .vmin]

/-- Opcodes in the order of the tables, part 2. -/
def loomOps2 : List LoomOp :=
  [.vmax, .vabs, .vneg, .vrcp, .vrsqrt, .vsqrt, .vdiv, .vexp2, .vlog2, .vexp, .vtanh, .vrint, .vldexp, .viadd,
   .visub, .vimul, .vimin, .vimax, .vand, .vor, .vxor, .vshl, .vshr, .vmov, .vsel, .viota, .vli, .vcmpeq,
   .vcmpne, .vcmplt, .vcmple, .vcmpun, .visfin, .mand, .mor, .mxor, .mnot, .mprefix, .mpopc, .mfirst,
   .vcompress]

/-- Opcodes in the order of the tables, part 3. -/
def loomOps3 : List LoomOp :=
  [.vexpand, .vperm, .vrot, .vbcast, .vext, .vins, .rsumO, .rsumOa, .rmax, .rmin, .risum, .viscan, .vcvtF2i,
   .vcvtI2f, .vpack, .vunpl, .vunph, .vcvtX, .vdcdX, .vld, .vst, .vldf, .vstf, .vldx, .vstx, .sld, .sst, .mld,
   .mst, .vldg, .vstg, .accrd, .chtake, .chsend, .cnsVal, .cnsSat, .cnsNf, .ucvt, .ustf]

/-- Every opcode, in the order of the tables. -/
def loomOps : List LoomOp := loomOps1 ++ loomOps2 ++ loomOps3

/-- The opcode of a number, if a table lists it. -/
def loomOpOf (n : Nat) : Option LoomOp := loomOps.find? fun o => o.info.num == n

/-! ## Words -/

/-- A Loom instruction. -/
structure LoomInstr where
  op : LoomOp
  f : LoomFields
deriving DecidableEq, Repr

/-- One bit. -/
def bit1 (b : Bool) : BitVec 1 := BitVec.ofBool b

/-- The 36 bits below the common fields (Table 6.3). -/
def encodeLow (fmt : LoomFormat) (f : LoomFields) : BitVec 36 :=
  match fmt with
  | .r => f.b ++ f.c ++ f.ty ++ bit1 f.as ++ bit1 f.bs ++ f.sm ++ 0#15
  | .i => f.ty ++ bit1 f.as ++ f.imm
  | .m => f.x ++ f.f ++ f.sm ++ f.off
  | .b => f.b ++ 0#16 ++ f.target

/-- The word of an instruction (R155, Tables 6.2 and 6.3). -/
def encodeLoom (i : LoomInstr) : W64 :=
  BitVec.ofNat 8 i.op.info.num ++ i.f.mask ++ i.f.rc ++ i.f.d ++ i.f.a ++ encodeLow i.op.info.format i.f

/-- The fields of a word in a format; those of the other formats are zero. -/
def decodeFields (fmt : LoomFormat) (w : W64) : LoomFields :=
  let common : LoomFields :=
    { mask := w.extractLsb' 52 4, rc := w.extractLsb' 48 4, d := w.extractLsb' 42 6, a := w.extractLsb' 36 6 }
  match fmt with
  | .r => { common with
      b := w.extractLsb' 30 6, c := w.extractLsb' 24 6, ty := w.extractLsb' 21 3
      as := w.getLsbD 20, bs := w.getLsbD 19, sm := w.extractLsb' 15 4 }
  | .i => { common with ty := w.extractLsb' 33 3, as := w.getLsbD 32, imm := w.extractLsb' 0 32 }
  | .m => { common with
      x := w.extractLsb' 30 6, f := w.extractLsb' 24 6, sm := w.extractLsb' 20 4, off := w.extractLsb' 0 20 }
  | .b => { common with b := w.extractLsb' 30 6, target := w.extractLsb' 0 14 }

/-- The reserved bits of a format are zero (Table 6.3). -/
def reservedZero (fmt : LoomFormat) (w : W64) : Bool :=
  match fmt with
  | .r => w.extractLsb' 0 15 == 0
  | .b => w.extractLsb' 14 16 == 0
  | _ => true

/-- The instruction of a word: none for an opcode that no table lists or a reserved bit that is set (R160, R450). -/
def decodeLoom (w : W64) : Option LoomInstr :=
  match loomOpOf (w.extractLsb' 56 8).toNat with
  | none => none
  | some op => if reservedZero op.info.format w then some { op := op, f := decodeFields op.info.format w } else none

/-- The fields that a format does not have are zero. -/
def fieldsOf (fmt : LoomFormat) (f : LoomFields) : Bool :=
  match fmt with
  | .r => f.imm == 0 && f.x == 0 && f.f == 0 && f.off == 0 && f.target == 0
  | .i => f.b == 0 && f.c == 0 && !f.bs && f.sm == 0 && f.x == 0 && f.f == 0 && f.off == 0 && f.target == 0
  | .m => f.b == 0 && f.c == 0 && f.ty == 0 && !f.as && !f.bs && f.imm == 0 && f.target == 0
  | .b => f.c == 0 && f.ty == 0 && !f.as && !f.bs && f.sm == 0 && f.imm == 0 && f.x == 0 && f.f == 0 && f.off == 0

/-! ## What a load accepts -/

/-- A register field holds a value that its role accepts: `bcast` where it names a scalar in place of a vector (R450). A
destination is never s0 or m0 (R154). -/
def roleOk (r : LoomRole) (bcast : Bool) (v : BitVec 6) : Bool :=
  match r with
  | .unused => true
  | .scalar => decide (v.toNat < 32)
  | .vector => !bcast || decide (v.toNat < 32)
  | .mask => decide (v.toNat < 16)
  | .scalarDest => decide (v.toNat < 32) && v != 0
  | .vectorDest => true
  | .maskDest => decide (v.toNat < 16) && v != 0
  | .index => decide (v.toNat < 4)

/-- RC as R170 requires. -/
def rcOk (rounds : Nat) (rc : BitVec 4) : Bool :=
  if rounds = 0 then rc == 0
  else !(rc.getLsbD 3) && rc.toNat % 4 != 3 && (rounds == 2 || rc.toNat % 4 != 2)

/-- IMM: the bits an opcode does not use are zero, SCTX names 0 to 5 (R450, Table 6.9). -/
def immOk (op : LoomOp) (imm : W32) : Bool :=
  let n := op.info.imm
  (n == 0 || decide (imm.toNat < 2 ^ n)) && (op != .sctx || decide (imm.toNat < 6))

/-- What the load checks ask of an instruction of a program of `len` instructions (R154, R160, R170, R182, R450). -/
def acceptLoom (len : Nat) (i : LoomInstr) : Bool :=
  let n := i.op.info
  let f := i.f
  (n.format != .b || f.mask == 0) && rcOk n.rounds f.rc &&
  (match n.types with
  | none => true
  | some l => l.contains f.ty.toNat) &&
  roleOk n.d false f.d && roleOk n.a f.as f.a && roleOk n.b f.bs f.b && roleOk n.c false f.c &&
  roleOk n.x false f.x && roleOk n.f false f.f && immOk i.op f.imm &&
  (!n.target || decide (f.target.toNat < len))

/-! ## Program images (R181, Table 6.20) -/

/-- Instructions of an image. -/
def imageLength (img : Bytes) : Nat := fld img 6 2

/-- The instruction words of an image. -/
def imageWords (img : Bytes) : List W64 :=
  (List.range (imageLength img)).map fun i => BitVec.ofNat 64 (fld img (64 + 8 * i) 8)

/-- The entry points of an image. -/
def imageEntries (img : Bytes) : List W16 := (List.range 8).map fun i => BitVec.ofNat 16 (fld img (8 + 2 * i) 2)

/-- The header of an image is right but for the digest (R182). -/
def imageHeaderOk (img : Bytes) : Bool :=
  let n := imageLength img
  fld img 0 4 == 0x4D4F4F4C && fld img 4 2 == 1 && 1 ≤ n && decide (n ≤ 8192) && zeroAt img 24 8 &&
  (imageEntries img).any (· != 0xFFFF) && (imageEntries img).all fun e => e == 0xFFFF || decide (e.toNat < n)

/-- What is wrong with an image: the index of its first failing instruction, or 0xFFFF for the header (R182). -/
def imageFault (img : Bytes) : Option Nat :=
  if !(imageHeaderOk img) || shake256 (slice img 64 (8 * imageLength img)) != slice img 32 32 then some 0xFFFF
  else (imageWords img).findIdx? fun w => match decodeLoom w with
    | none => true
    | some i => !(acceptLoom (imageLength img) i)

/-- Pages that a program takes (R183). -/
def loomPages (n : Nat) : Nat := (n + 63) / 64

end Sys2Proof.Machine
end

