-- ==== Sys2Proof/Machine/Order.lean ====
section
/-! DEFINITION. The reference order of arithmetic (04): decoded operands, products, chunk sums and accumulation. -/

namespace Sys2Proof.Machine

/-- An internal word: sign, EXP with bias 511, SIG of 11 bits with an explicit leading bit (R91). -/
structure Internal where
  sign : Bool
  exp : Nat
  sig : Nat
deriving DecidableEq, Repr

/-- The word of infinity. -/
def Internal.inf (s : Bool) : Internal := { sign := s, exp := 1023, sig := 0 }
/-- The word of NaN. -/
def Internal.nan (s : Bool) : Internal := { sign := s, exp := 1023, sig := 0x400 }
/-- The word of a zero. -/
def Internal.zero (s : Bool) : Internal := { sign := s, exp := 0, sig := 0 }

/-- The internal word of a value of at most 11 significant bits: it never rounds (R92). -/
def internalOf (v : Val) : Internal :=
  match v with
  | .nan s => .nan s
  | .inf s => .inf s
  | .zero s => .zero s
  | .fin s m e =>
    let n := bitLength m
    { sign := s, exp := (e + n - 1 + 511).toNat, sig := m * 2 ^ (11 - n) }

/-- `decode` of R92: element bits `x`, scale byte, format with its TSCALE. -/
def decodeOperand (f : Fmt) (x scaleByte : Nat) : Internal := internalOf (readVal f x scaleByte)

/-- The 22-bit pattern of an internal word (R91). -/
def Internal.word (i : Internal) : BitVec 22 := BitVec.ofNat 22 (ofBool i.sign * 2 ^ 21 + i.exp * 2 ^ 11 + i.sig)

def Internal.isNan (i : Internal) : Bool := i.exp == 1023 && i.sig != 0
def Internal.isInf (i : Internal) : Bool := i.exp == 1023 && i.sig == 0
def Internal.isZero (i : Internal) : Bool := i.exp == 0

/-- The product of one position (Table 4.1): a finite product has m = SIG_a × SIG_b and q = EXP_a + EXP_b − 1042 (R105). -/
def product (a b : Internal) : Val :=
  let s := a.sign != b.sign
  if a.isNan then .nan a.sign
  else if b.isNan then .nan b.sign
  else if (a.isInf && b.isZero) || (a.isZero && b.isInf) then .nan false
  else if a.isInf || b.isInf then .inf s
  else if a.isZero || b.isZero then .zero s
  else .fin s (a.sig * b.sig) ((a.exp : Int) + b.exp - 1042)

/-- A padded position: a product of +0 (R106). -/
def padded : Val := .zero false

/-- The chunk sum of products in position order, as an FP32 pattern (R107, R108, R110). -/
def chunkSum (ps : List Val) : W32 :=
  match ps.find? (fun p => match p with | .nan _ => true | _ => false) with
  | some p => f32Nan p.neg
  | none =>
    let pos := ps.any (fun p => match p with | .inf false => true | _ => false)
    let neg := ps.any (fun p => match p with | .inf true => true | _ => false)
    if pos && neg then f32Nan false
    else if pos then 0x7F800000
    else if neg then 0xFF800000
    else
      match ps.filterMap (fun p => match p with | .fin _ _ _ => some p.top | _ => none) with
      | [] => if ps.all (fun p => p.neg) then 0x80000000 else 0
      | t :: ts =>
        let w := ts.foldl max t - 60
        let aligned (p : Val) : Int × Bool := match p with
          | .fin s m q =>
            let v : Int := shiftTo m (q - w)
            (if s then -v else v, decide (q < w) && m % 2 ^ (w - q).toNat != 0)
          | _ => (0, false)
        let sum := ps.foldl (fun acc p => acc + (aligned p).1) 0
        let sticky := ps.any (fun p => (aligned p).2)
        if sum = 0 then 0 else BitVec.ofNat 32 (roundSticky 0 (decide (sum < 0)) sum.natAbs w sticky)

/-- Chunk sums added to an accumulator of a format in ascending order (R111): `none` is SET, whose first chunk is taken. -/
def accumulate (code : Nat) (start : Option Nat) (sums : List W32) : Nat :=
  match start, sums with
  | none, [] => 0
  | none, s :: r => r.foldl (fun acc y => addFmt code (elemVal code false acc) (f32 y))
      (convert { code := code, mx := false, scale := 0 } 0 0 (f32 s)).pat
  | some a, l => l.foldl (fun acc y => addFmt code (elemVal code false acc) (f32 y)) a

/-- The positions 0 to K − 1 cut into chunks of 32 (R104). -/
def chunks (k : Nat) : List (List Nat) :=
  (List.range ((k + 31) / 32)).map fun c => (List.range 32).map (· + 32 * c)

/-- A floating reduction (R103 to R112): `prod k` holds the products of position k; positions from K on are padded, with as
many +0 products as a position has. K = 0 writes +0 under SET and leaves the accumulator under ADD. -/
def reduceFloat (code : Nat) (start : Option Nat) (k : Nat) (prod : Nat → List Val) : Nat :=
  accumulate code start ((chunks k).map fun ps => chunkSum (ps.flatMap fun p => if p < k then prod p else [padded]))

/-- The integer path (R113): exact products summed modulo 2^32. -/
def reduceInt (start : Option Nat) (k : Nat) (prod : Nat → Int) : Nat :=
  wrap 32 ((List.range k).foldl (fun acc p => acc + prod p) ((start.getD 0 : Nat) : Int))

/-- The BF16 parts of an FP32 operand: hi and lo (R114). -/
def splitF32 (x : Nat) : Nat × Nat :=
  match elemVal 0 false x with
  | .nan s => (fpNan 1 { we := 8, wm := 7, bias := 127, inf := true, maxPat := 0x7F7F } s, 0)
  | .inf _ => (x / 65536, 0)
  | .zero _ => (x / 65536, 0)
  | .fin s m e =>
    let hi := x / 65536
    -- x − hi is the low 16 bits of the significand, of the sign of x
    let rest := m % 65536
    (hi, if rest = 0 then 0 else (convert { code := 1, mx := false, scale := 0 } 0 0 (.fin s rest e)).pat)

/-- The three products of an FP32 pair at one position, hi·hi, hi·lo, lo·hi (R114). -/
def splitProducts (ta tb : Int) (a b : Nat) : List Val :=
  let x := splitF32 a
  let y := splitF32 b
  let d (t : Int) (p : Nat) : Internal := decodeOperand { code := 1, mx := false, scale := t } p 127
  let hh := product (d ta x.1) (d tb y.1)
  if (elemVal 0 false a).special || (elemVal 0 false b).special then [hh, padded, padded]
  else [hh, product (d ta x.1) (d tb y.2), product (d ta x.2) (d tb y.1)]

/-- An ordered sum of FP32 inputs, each in the place of a product (R103). -/
def orderedSum (xs : List W32) : W32 :=
  BitVec.ofNat 32 (reduceFloat 0 none xs.length fun k => [f32 (xs.getD k 0)])

/-- The fold of a collective's contributions present, in list order (R116). -/
def foldContributions (xs : List W32) : W32 :=
  match xs with
  | [] => 0
  | x :: r => r.foldl f32Add x

end Sys2Proof.Machine
end

