-- ==== Sys2Proof/Machine/Trans.lean ====
section
/-! DEFINITION. The exact results that the Loom's floating-point instructions round: sums, products, quotients and roots, and
the transcendental functions (06 R157, R158). A result that no finite pattern holds is given with more bits than any
conversion keeps, and a lowest bit that stands for the rest. -/

namespace Sys2Proof.Machine

/-- Significand `m` at weight 2^w, with a bit below it set where the exact result goes on. -/
def stickyVal (s : Bool) (m : Nat) (w : Int) (more : Bool) : Val := Val.mk s (2 * m + ofBool more) (w - 1)

/-- The first NaN of the operands, in order (R157). -/
def firstNan (vs : List Val) : Option Val := vs.find? fun v => match v with
  | .nan _ => true
  | _ => false

/-- The value with the other sign. -/
def negVal (v : Val) : Val := match v with
  | .nan t => .nan t
  | v => v.withSign (!v.neg)

/-- x + y: opposite infinities give a positive NaN; an exact zero sum is −0 only for −0 + −0 (R157). -/
def addVal (x y : Val) : Val :=
  match x, y with
  | .nan s, _ => .nan s
  | _, .nan s => .nan s
  | .inf a, .inf b => if a == b then .inf a else .nan false
  | .inf a, _ => .inf a
  | _, .inf b => .inf b
  | .zero a, .zero b => .zero (a && b)
  | x, y =>
    let w := min (x.expOr (y.expOr 0)) (y.expOr (x.expOr 0))
    intVal (x.atPos w + y.atPos w) w

/-- x × y + z, exact (R157). -/
def fusedVal (x y z : Val) : Val := addVal (mulVal x y) z

/-- x / y (Table 6.7). -/
def quotVal (x y : Val) : Val :=
  match x, y with
  | .nan s, _ => .nan s
  | _, .nan s => .nan s
  | .inf _, .inf _ => .nan false
  | .zero _, .zero _ => .nan false
  | .inf a, y => .inf (a != y.neg)
  | x, .inf b => .zero (x.neg != b)
  | x, .zero b => .inf (x.neg != b)
  | .zero a, y => .zero (a != y.neg)
  | .fin a m e, .fin b n f =>
    stickyVal (a != b) (m * 2 ^ 80 / n) (e - f - 80) (m * 2 ^ 80 % n != 0)

/-- 1 / x (Table 6.7). -/
def rcpVal (x : Val) : Val := quotVal (.fin false 1 0) x

/-- √x (Table 6.7). -/
def rootVal (x : Val) : Val :=
  match x with
  | .fin false m e =>
    let e1 := e - 100 - (e % 2)
    let n := shiftTo m (e - e1)
    let r := isqrt n 96 0
    stickyVal false r (e1 / 2) (r * r != n)
  | .fin true _ _ => .nan false
  | .inf true => .nan false
  | v => v

/-- 1 / √x (Table 6.7). -/
def rsqrtVal (x : Val) : Val :=
  match x with
  | .zero s => .inf s
  | .fin false m e =>
    -- x = m1 × 2^(2 k) with k whole
    let m1 := if e % 2 = 0 then m else 2 * m
    let k := (e - e % 2) / 2
    let r := isqrt (2 ^ 200 / m1) 104 0
    stickyVal false r (-100 - k) (r * r * m1 != 2 ^ 200)
  | .fin true _ _ => .nan false
  | .inf false => .zero false
  | .inf true => .nan false
  | .nan s => .nan s

/-! ## Transcendental functions: fixed point with 256 fraction bits

Each is computed to within 2^-230; no FP32 operand's result lies that near a rounding boundary without being the exact
cases taken out first (DEDUCED, log 20). -/

/-- Fraction bits. -/
abbrev fxBits : Nat := 256

/-- One in fixed point. -/
abbrev fxOne : Nat := 2 ^ fxBits

/-- The Taylor series of e^t, t below 1 in fixed point: `k` is the next term's number. -/
def expSeries (t : Nat) : Nat → Nat → Nat → Nat → Nat
  | 0, _, _, sum => sum
  | fuel + 1, k, term, sum =>
    let next := term * t / (fxOne * k)
    expSeries t fuel (k + 1) next (sum + next)

/-- e^t for t below 1. -/
def expFx (t : Nat) : Nat := expSeries t 80 1 fxOne fxOne

/-- The series of artanh z, z below 1/2 in fixed point. -/
def artanhSeries (z2 : Nat) : Nat → Nat → Nat → Nat → Nat
  | 0, _, _, sum => sum
  | fuel + 1, k, power, sum =>
    artanhSeries z2 fuel (k + 2) (power * z2 / fxOne) (sum + power / k)

/-- ln y for y from 1 to 2, in fixed point. -/
def lnFx (y : Nat) : Nat :=
  let z := (y - fxOne) * fxOne / (y + fxOne)
  2 * artanhSeries (z * z / fxOne) 90 1 z 0

/-- ln 2. -/
def ln2Fx : Nat := lnFx (2 * fxOne)

/-- A finite value in fixed point, rounded down. -/
def toFx (v : Val) : Int := match v with
  | .fin s m e =>
    let x : Int := shiftTo m (e + fxBits)
    if s then -x - 1 else x
  | _ => 0

/-- The value of a positive fixed-point number times 2^k, not exact. -/
def fxVal (s : Bool) (x : Nat) (k : Int) : Val := stickyVal s x (k - fxBits) true

/-- A finite value is whole. -/
def Val.isWhole : Val → Bool
  | .fin _ m e => decide (0 ≤ e) || m % 2 ^ (-e).toNat == 0
  | .zero _ => true
  | _ => false

/-- 2^t, for t in fixed point. -/
def exp2Fx (t : Int) : Val := fxVal false (expFx ((t % (fxOne : Int)).toNat * ln2Fx / fxOne)) (t / (fxOne : Int))

/-- 2^x (Table 6.7). Beyond ±200 every FP32 result is the same overflow or underflow. -/
def exp2Val (x : Val) : Val :=
  match x with
  | .nan s => .nan s
  | .inf true => .zero false
  | .inf false => .inf false
  | .zero _ => .fin false 1 0
  | .fin s m e =>
    if 8 ≤ (Val.fin s m e).top then .fin false 1 (if s then -300 else 300)
    else if (Val.fin s m e).isWhole then
      let k : Int := shiftTo m e
      .fin false 1 (if s then -k else k)
    else exp2Fx (toFx x)

/-- e^x (Table 6.7). -/
def expVal (x : Val) : Val :=
  match x with
  | .nan s => .nan s
  | .inf true => .zero false
  | .inf false => .inf false
  | .zero _ => .fin false 1 0
  | .fin s m e =>
    if 7 ≤ (Val.fin s m e).top then .fin false 1 (if s then -300 else 300)
    else
      let t := toFx x
      fxVal false (expFx (t % (ln2Fx : Int)).toNat) (t / (ln2Fx : Int))

/-- log2 x (Table 6.7). -/
def log2Val (x : Val) : Val :=
  match x with
  | .nan s => .nan s
  | .zero _ => .inf true
  | .inf s => if s then .nan false else .inf false
  | .fin true _ _ => .nan false
  | .fin false m e =>
    let k := (Val.fin false m e).top
    if m = 2 ^ (bitLength m - 1) then intVal k 0
    else
      let y := shiftTo m (e - k + fxBits)
      let r : Int := k * (fxOne : Int) + (lnFx y * fxOne / ln2Fx : Nat)
      fxVal (decide (r < 0)) r.natAbs 0

/-- tanh x (Table 6.7). -/
def tanhVal (x : Val) : Val :=
  match x with
  | .nan s => .nan s
  | .zero s => .zero s
  | .inf s => .fin s 1 0
  | .fin s m e =>
    let t := (Val.fin s m e).top
    if 5 ≤ t then fxVal s (fxOne - 2) 0
    -- below 2^-40 the result is x less a part of it below 2^-80
    else if t < -40 then .fin s (m * 2 ^ 64 - 1) (e - 64)
    else
      let u := toFx (.fin false m (e + 1))
      let k := u / (ln2Fx : Int)
      let y := expFx (u % (ln2Fx : Int)).toNat * 2 ^ k.toNat
      fxVal s ((y - fxOne) * fxOne / (y + fxOne)) 0

/-- x × 2^k. Beyond ±600 every FP32 result is the same overflow or underflow. -/
def ldexpVal (x : Val) (k : Int) : Val := x.scale (max (-600) (min 600 k))

/-- x rounded to a whole value under RND; a zero keeps the sign of x (DEDUCED, log 21). -/
def rintVal (x : Val) (rnd : Nat) : Val :=
  match x with
  | .fin s m e => if 0 ≤ e then x else Val.mk s (roundTo rnd 0 m e 0) 0
  | v => v

end Sys2Proof.Machine
end

