-- ==== Sys2Proof/Machine/Operands.lean ====
section
/-! DEFINITION. The operand forms of the Loom: its register files, lanes and masks, and what an instruction does to the flow of
its program (06 R153, R156, R178, R180). -/

namespace Sys2Proof.Machine

/-! ## Registers (Table 6.1) -/

/-- A Loom. -/
def getLoom (d : Dev) (tile eng : Nat) : Loom := tgetD d.looms (loomIndex tile eng) {}

/-- A Loom with `f` applied. -/
def modLoom (d : Dev) (tile eng : Nat) (f : Loom → Loom) : Dev :=
  { d with looms := tput d.looms (loomIndex tile eng) (f (getLoom d tile eng)) }

/-- Scalar register: s0 reads zero. -/
def Loom.sreg (l : Loom) (i : BitVec 6) : W64 := if i = 0 then 0 else l.s.getD i.toNat 0

/-- Mask register: m0 reads all ones. -/
def Loom.mreg (l : Loom) (i : Nat) : BitVec 256 := if i = 0 then BitVec.allOnes 256 else l.m.getD i 0

/-- Vector register. -/
def Loom.vreg (l : Loom) (i : BitVec 6) : Lanes := l.v.getD i.toNat []

/-- A scalar is written; s0 stays zero. -/
def Loom.setS (l : Loom) (i : BitVec 6) (x : W64) : Loom := if i = 0 then l else { l with s := l.s.set i.toNat x }

/-- A mask is written; m0 stays all ones. -/
def Loom.setM (l : Loom) (i : Nat) (x : BitVec 256) : Loom := if i = 0 then l else { l with m := l.m.set i x }

/-- A vector is written whole. -/
def Loom.setV (l : Loom) (i : BitVec 6) (x : Lanes) : Loom := { l with v := l.v.set i.toNat x }

/-- The mask that governs an instruction (R156). -/
def Loom.active (l : Loom) (f : LoomFields) : BitVec 256 := l.mreg f.mask.toNat

/-- A scalar broadcast to every lane. -/
def broadcast (x : W64) : Lanes := List.replicate 256 (x.setWidth 32)

/-- The lanes of A: a vector, or a scalar where AS is set. -/
def Loom.laneA (l : Loom) (f : LoomFields) : Lanes := if f.as then broadcast (l.sreg f.a) else l.vreg f.a

/-- The lanes of B: a vector, or a scalar where BS is set. -/
def Loom.laneB (l : Loom) (f : LoomFields) : Lanes := if f.bs then broadcast (l.sreg f.b) else l.vreg f.b

/-- The lanes of C. -/
def Loom.laneC (l : Loom) (f : LoomFields) : Lanes := l.vreg f.c

/-- Lanes of `new` where the mask is set, of `old` elsewhere (R156). -/
def mergeLanes (m : BitVec 256) (old new : Lanes) : Lanes :=
  (old.zip new).zipIdx.map fun e => if m.getLsbD e.2 then e.1.2 else e.1.1

/-- The bits of a mask from a list of lanes. -/
def maskOf (l : List Bool) : BitVec 256 := BitVec.ofNat 256 (l.zipIdx.foldl (fun n e => if e.1 then n + 2 ^ e.2 else n) 0)

/-- The lanes of a mask, lane 0 first. -/
def maskLanes (m : BitVec 256) : List Bool := (List.range 256).map m.getLsbD

/-- Bits set in a mask. -/
def popCount (m : BitVec 256) : Nat := ((maskLanes m).filter id).length

/-- A vector result: active lanes written, the others kept (Table 6.6). -/
def Loom.putV (l : Loom) (f : LoomFields) (new : Lanes) : Loom :=
  l.setV f.d (mergeLanes (l.active f) (l.vreg f.d) new)

/-- A mask result: inactive lanes 0 (Table 6.6). -/
def Loom.putM (l : Loom) (f : LoomFields) (new : List Bool) : Loom := l.setM f.d.toNat (maskOf new &&& l.active f)

/-- A 32-bit result in a scalar, its upper half cleared. -/
def Loom.putS32 (l : Loom) (f : LoomFields) (x : W32) : Loom := l.setS f.d (x.setWidth 64)

/-! ## Elements of lanes (Table 6.4) -/

/-- The elements of a lane: one, or two packed ones for .bf16 and .f16. -/
def laneElems (ty : Nat) (x : W32) : List Nat :=
  if ty = 1 || ty = 2 then [x.toNat % 65536, x.toNat / 65536] else [x.toNat]

/-- A lane of its elements. -/
def joinElems (l : List Nat) : W32 := BitVec.ofNat 32 (l.getD 0 0 + 65536 * l.getD 1 0)

/-- A value converted to a lane type's element under RC, without tensor scale (R157). -/
def roundElem (ty rc : Nat) (v : Val) : Nat := (convert { code := ty, mx := false, scale := 0 } rc 0 v).pat

/-- One lane of a floating-point instruction: `g` of the elements' values, a NaN operand first (R157). -/
def laneFp (ty rc : Nat) (nanFirst : Bool) (g : List Val → Val) (xs : List W32) : W32 :=
  let n := (laneElems ty 0).length
  joinElems ((List.range n).map fun j =>
    let vs := xs.map fun x => elemVal ty false ((laneElems ty x).getD j 0)
    roundElem ty rc (if nanFirst then (firstNan vs).getD (g vs) else g vs))

/-! ## Flow -/

/-- Where an instruction is issued: the tile, the engine and the operation that runs. -/
structure LoomAt where
  tile : Nat
  eng : Nat
  op : OpName
deriving DecidableEq, Repr

/-- What an instruction does to the flow of its program. -/
inductive Flow where
  /-- The next instruction follows. -/
  | next
  /-- The PC moves. -/
  | goto (pc : Nat)
  /-- END. -/
  | done
  /-- A program fault: code of Table 6.19, and IMM of FAULT. -/
  | fault (code : Nat) (imm : Nat)
  /-- Another status ends the operation. -/
  | stop (st : Byte)
  /-- CHTAKE waits for an entry of inbound queue `inn`, or CHSEND for a credit of outbound queue `out` (16 × tile + queue). -/
  | wait (inn out : Option Nat)
deriving DecidableEq, Repr

/-- The meaning of a Loom instruction. -/
abbrev LoomBody := LoomAt → LoomFields → Dev → Dev × Flow

/-- An instruction that only changes registers. -/
def regsOnly (g : LoomFields → Loom → Loom) : LoomBody := fun at_ f d => (modLoom d at_.tile at_.eng (g f), .next)

/-- A branch that is taken when `c` holds. -/
def branchIf (c : LoomFields → Loom → Bool) : LoomBody := fun at_ f d =>
  (d, if c f (getLoom d at_.tile at_.eng) then .goto f.target.toNat else .next)

/-- A scalar instruction of two sources. -/
def scalar2 (g : W64 → W64 → W64) : LoomBody := regsOnly fun f l => l.setS f.d (g (l.sreg f.a) (l.sreg f.b))

/-- A scalar instruction of one source and IMM. -/
def scalarImm (g : W64 → W32 → W64) : LoomBody := regsOnly fun f l => l.setS f.d (g (l.sreg f.a) f.imm)

/-- An FP32 scalar instruction on bits [31:0] of two sources (Table 6.9). -/
def scalarFp (g : List Val → Val) : LoomBody := regsOnly fun f l =>
  l.putS32 f (laneFp 0 f.rc.toNat true g [(l.sreg f.a).setWidth 32, (l.sreg f.b).setWidth 32])

/-- A vector floating-point instruction of one source. -/
def vectorFp1 (nanFirst : Bool) (g : List Val → Val) : LoomBody := regsOnly fun f l =>
  l.putV f ((l.laneA f).map fun a => laneFp f.ty.toNat f.rc.toNat nanFirst g [a])

/-- A vector floating-point instruction of two sources. -/
def vectorFp2 (g : List Val → Val) : LoomBody := regsOnly fun f l =>
  l.putV f ((l.laneA f).zipWith (fun a b => laneFp f.ty.toNat f.rc.toNat true g [a, b]) (l.laneB f))

/-- A vector floating-point instruction of three sources. -/
def vectorFp3 (g : List Val → Val) : LoomBody := regsOnly fun f l =>
  l.putV f (((l.laneA f).zip (l.laneB f)).zipWith
    (fun ab c => laneFp f.ty.toNat f.rc.toNat true g [ab.1, ab.2, c]) (l.laneC f))

/-- A vector integer instruction of two sources; `g` is told whether the lanes are signed. -/
def vectorInt (g : Bool → W32 → W32 → W32) : LoomBody := regsOnly fun f l =>
  l.putV f ((l.laneA f).zipWith (g (f.ty == 3)) (l.laneB f))

/-- A comparison of lanes: by `gf` for FP32 values, by `gi` for integers, told whether they are signed. -/
def compareLanes (gf : Val → Val → Bool) (gi : Bool → W32 → W32 → Bool) : LoomBody := regsOnly fun f l =>
  l.putM f ((l.laneA f).zipWith (fun a b => if f.ty = 0 then gf (f32 a) (f32 b) else gi (f.ty == 3) a b) (l.laneB f))

/-- A mask logic instruction: it ignores MASK (Table 6.12). -/
def maskLogic (g : BitVec 256 → BitVec 256 → BitVec 256) : LoomBody := regsOnly fun f l =>
  l.setM f.d.toNat (g (l.mreg f.a.toNat) (l.mreg f.b.toNat))

/-- A reduction of the active lanes of A, lane 0 first, to a 32-bit scalar. -/
def reduceLanes (g : Nat → List W32 → W32) : LoomBody := regsOnly fun f l =>
  l.putS32 f (g f.ty.toNat (((l.laneA f).zip (maskLanes (l.active f))).filterMap fun e => if e.2 then some e.1 else none))

/-! ## Addresses (R164) -/

/-- sA + OFF, modulo 2^64 (R159). -/
def Loom.address (l : Loom) (f : LoomFields) : Nat := (l.sreg f.a + f.off.signExtend 64).toNat

/-- Bytes [off + lo, off + lo + n) of the tile's SRAM, at an alignment of `off`: a fault code, or none (Table 6.19). -/
def sramFault (tile off lo n align : Nat) : Option Nat :=
  if tileCapacity tile < off + lo + n then some 1 else if off % align != 0 then some 2 else none

/-- The same for a range of GDDR7. -/
def gddrFault (d : Dev) (a lo n align : Nat) : Option Nat :=
  match rangeRegion d (a + lo) n with
  | .gddr _ => if a % align != 0 then some 2 else none
  | _ => some 1

/-- A read for an instruction: its bytes go on to `k`, a status ends the operation (R167). -/
def loomRead (at_ : LoomAt) (a n : Nat) (d : Dev) (k : Bytes → Dev → Dev × Flow) : Dev × Flow :=
  match readMem d (some at_.op) a n with
  | (d1, .ok b) => k b d1
  | (d1, .error st) => (d1, .stop st)

/-- Writes of an instruction, in order. -/
def loomWrite (at_ : LoomAt) (l : List (Nat × Bytes)) (d : Dev) : Dev × Flow :=
  match writeAll d (some at_.op) l with
  | (d1, none) => (d1, .next)
  | (d1, some st) => (d1, .stop st)

/-- Runs of active lanes: first lane and number. -/
def laneRuns (m : BitVec 256) : List (Nat × Nat) :=
  ((List.range 256).foldl (fun acc i =>
    if !(m.getLsbD i) then acc
    else match acc with
      | (s, n) :: r => if s + n = i then (s, n + 1) :: r else (i, 1) :: (s, n) :: r
      | [] => [(i, 1)]) []).reverse

/-- The first active lane, and the lanes from it to the last. -/
def laneExtent (m : BitVec 256) : Option (Nat × Nat) :=
  match (laneRuns m).head?, (laneRuns m).getLast? with
  | some a, some b => some (a.1, b.1 + b.2 - a.1)
  | _, _ => none

/-! ## Format and tensor words (R169, R171, R172) -/

/-- A format word that no instruction accepts: refused under R78, or its reserved bit [7] set. -/
def wordRefused (w : Nat) : Bool := fmtWordBad w || bit w 7

/-- Integer formats: codes 0x08 to 0x0B. -/
def intCode (c : Nat) : Bool := 8 ≤ c && c ≤ 11

/-- The tensor identifier of a tensor word, where bits [63:28] are zero. -/
def tensorOf (w : W64) : Option Nat := if w.toNat / 2 ^ 28 = 0 then some (bits w.toNat 27 16) else none

/-! ## The stochastic-rounding stream (R244) -/

/-- `mix` of R244. -/
def mix64 (z : W64) : W64 :=
  let a := (z ^^^ (z >>> 30)) * 0xBF58476D1CE4E5B9
  let b := (a ^^^ (a >>> 27)) * 0x94D049BB133111EB
  b ^^^ (b >>> 31)

/-- `r16` of R244: the draw of element `e` of tensor `tau` at step `s`. -/
def r16 (seed s : W64) (tau : Nat) (e : W64) : Nat :=
  let k1 := mix64 (seed ^^^ (BitVec.ofNat 64 tau <<< 52))
  let k2 := mix64 (k1 ^^^ s)
  let w := mix64 (k2 + (e >>> 2))
  (w >>> (16 * (e.toNat % 4))).toNat % 65536

end Sys2Proof.Machine
end

