-- ==== Sys2Proof/Machine/LoomControl.lean ====
section
/-! DEFINITION. How a Loom issues an instruction, and its control and scalar instructions (06 R152, R160, R174, R178, R180,
Tables 6.8 and 6.9). -/

namespace Sys2Proof.Machine

/-! ## Images (R183 to R185) -/

/-- The image that a slot holds. -/
def slotImage (d : Dev) (tile eng slot : Nat) : Option LoomImage :=
  (getLoom d tile eng).images.find? fun i => i.slot == slot && i.current

/-- Images that are neither current nor run by an operation in flight give up their pages (R183, R184). -/
def sweepImages (d : Dev) (tile eng : Nat) : Dev :=
  let used := d.hub.rings.flatMap fun e =>
    if targetOf e.2.target = some (.loom tile eng) then (e.2.ops.filter fun o => o.phase != .fetched).map (·.image) else []
  modLoom d tile eng fun l => { l with images := l.images.filter fun i => i.current || used.contains i.id }

/-- Pages in use (Table 6.24), those of a load in progress among them. -/
def usedPages (l : Loom) : Nat :=
  l.images.foldl (fun n i => n + loomPages i.instrs.length) ((l.loading.map LoomLoad.pages).getD 0)

/-- Place of a word of instruction memory among the words of the 144 code: two instructions to a word (R185). -/
def imemWord (tile eng slot i : Nat) : Nat := 2 ^ 48 + (tile + 64 * eng) * 2 ^ 18 + slot * 2 ^ 13 + (i - i % 2)

/-- DETAIL of a record of a word of instruction memory: kind 0x2, slot, first instruction (R432). -/
def imemDetail (slot i : Nat) : Nat := 2 * 2 ^ 60 + slot * 2 ^ 13 + (i - i % 2)

/-- A slot becomes absent (R184, R185). -/
def dropSlot (d : Dev) (tile eng slot : Nat) : Dev :=
  sweepImages (modLoom d tile eng fun l =>
    { l with images := l.images.map fun i => if i.slot = slot then { i with current := false } else i }) tile eng

/-- The 128 bits of a word of instruction memory. -/
def imemData (img : LoomImage) (i : Nat) : BitVec 128 :=
  img.instrs.getD (i - i % 2 + 1) 0 ++ img.instrs.getD (i - i % 2) 0

/-- The record of an error in instruction memory, and the tile's counts (R344, R432). -/
def noteImem (d : Dev) (bad : Bool) (tile eng slot i : Nat) (byRing : Option Nat) : Dev :=
  logEvent (bumpSram d tile bad) (if bad then evMemUncorrectable else evMemCorrected) (.engine tile eng) (imemDetail slot i) byRing

/-- The two instructions of a word of instruction memory are stored. -/
def storeImem (d : Dev) (tile eng : Nat) (img : LoomImage) (i : Nat) (x : BitVec 128) : Dev :=
  let j := i - i % 2
  modLoom d tile eng fun l =>
    { l with images := l.images.map fun g =>
        if g.id = img.id then { g with instrs := (g.instrs.set j (x.setWidth 64)).set (j + 1) ((x >>> 64).setWidth 64) } else g }

/-- The fetch of instruction `i` of an image: its word, or none where the memory word is uncorrectable (R185). What the code
takes for corrected is stored in place. -/
def fetchLoom (d : Dev) (tile eng : Nat) (img : LoomImage) (i : Nat) (byRing : Nat) : Dev × Option W64 :=
  let key := imemWord tile eng img.slot i
  let clean := img.instrs.getD i 0
  match tget d.mem.flips key with
  | none => (d, some clean)
  | some flips =>
    let dropped : Dev := { d with mem.flips := tdel d.mem.flips key }
    let mended : Dev := noteImem dropped false tile eng img.slot i (some byRing)
    match checkWord (imemData img i) flips with
    | .clean => (d, some clean)
    | .corrected => (mended, some clean)
    | .miscorrected x =>
      (storeImem mended tile eng img i x, some (if i % 2 = 0 then x.setWidth 64 else (x >>> 64).setWidth 64))
    | .uncorrectable => (dropSlot (noteImem dropped true tile eng img.slot i (some byRing)) tile eng img.slot, none)

/-! ## Issue -/

/-- The operation that a Loom runs. -/
def loomRunning (d : Dev) (tile eng : Nat) : Option (OpName × Op) :=
  match (getLoom d tile eng).run with
  | none => none
  | some n => (issuedOp d n).map fun o => (n, o)

/-- The running operation ends. -/
def endLoom (d : Dev) (a : LoomAt) (st : Byte) (detail : Nat) : Dev :=
  completeOp (modLoom d a.tile a.eng fun l => { l with run := none, waitFrom := none, waitOut := none, waitIn := none }) a.op st detail

/-- A wait of CHTAKE or CHSEND begins, or goes on (R174, R175). -/
def beginWait (d : Dev) (a : LoomAt) (inn out : Option Nat) : Dev :=
  modLoom d a.tile a.eng fun l =>
    if l.waitFrom.isSome then l
    else
      { l with
        waitFrom := some (deviceTime d), waitCycle := engineCycles d (.loom a.tile a.eng), waitOut := out, waitIn := inn
        waitTick := cycle d, waitLogged := false }

/-- A wait ends: its core cycles do not count for the watchdog (R179). -/
def endWait (d : Dev) (a : LoomAt) : Dev :=
  let l := getLoom d a.tile a.eng
  match l.waitFrom with
  | none => d
  | some _ =>
    let n := engineCycles d (.loom a.tile a.eng) - l.waitCycle
    countEvent (modLoom d a.tile a.eng fun l =>
      { l with waitFrom := none, waitOut := none, waitIn := none, waitLogged := false, waited := l.waited + n })
      evLoomChuteWait n (tileDie a.tile) (some a.tile) (some a.op.ring)

/-- What follows an instruction (R178, R180): falling past the last instruction is fault code 0x0C. -/
def afterInstr (d : Dev) (a : LoomAt) (flow : Flow) : Dev :=
  let l := getLoom d a.tile a.eng
  match flow with
  | .wait inn out => beginWait d a inn out
  | .next =>
    if l.pc + 1 < l.length then modLoom d a.tile a.eng fun l => { l with pc := l.pc + 1 }
    else endLoom d a stProgramFault ((l.length - 1) % 65536 + 0x0C * 65536)
  | .goto t => modLoom d a.tile a.eng fun l => { l with pc := t }
  | .done => endLoom d a stOk (l.sreg 1).toNat
  | .fault code imm => endLoom d a stProgramFault (l.pc % 65536 + code * 65536 + imm * 2 ^ 32)
  | .stop st => endLoom d a st 0

/-- The instruction takes a place in the counts of its tile, and a wait before it ends. -/
def countIssue (d : Dev) (a : LoomAt) : Dev :=
  endWait (countEvent d evLoomIssue 1 (tileDie a.tile) (some a.tile) (some a.op.ring)) a

/-- The instruction that stands at the PC of the running program, as its image holds it. -/
def standing? (d : Dev) (tile eng : Nat) : Option (LoomAt × LoomImage × Option LoomInstr) :=
  match loomRunning d tile eng with
  | none => none
  | some (n, o) => ((getLoom d tile eng).images.find? fun i => i.id == o.image).map fun img =>
      ({ tile := tile, eng := eng, op := n }, img, decodeLoom (img.instrs.getD (getLoom d tile eng).pc 0))

/-- The instruction at the PC is fetched (R185); while CHTAKE or CHSEND waits it has been. None: the word is uncorrectable, or
a word that no load accepts, which comes only of bit errors that the code took for others and ends the operation as an
uncorrectable word does (log 9). -/
def fetched (d : Dev) (a : LoomAt) (img : LoomImage) : Dev × Option LoomInstr :=
  let l := getLoom d a.tile a.eng
  let x := if l.waitFrom.isSome then (d, some (img.instrs.getD l.pc 0)) else fetchLoom d a.tile a.eng img l.pc a.op.ring
  (x.1, (x.2.bind decodeLoom).filter fun i => acceptLoom l.length i)

/-- An instruction issues, with what follows it (R178, R186). -/
def issueAt (a : LoomAt) (body : LoomBody) (f : LoomFields) (d : Dev) : Dev :=
  let r := body a f d
  match r.2 with
  | .wait inn out => beginWait d a inn out
  | flow => afterInstr (countIssue r.1 a) a flow

/-- A Loom issues an instruction of its running operation, in program order: the one at the PC, and no other (R186). Its word
is fetched first, and an uncorrectable word ends the operation (R185). -/
def issueLoom (op : LoomOp) (body : LoomBody) (tile eng : Nat) (f : LoomFields) (d : Dev) : Dev :=
  match loomExists tile eng, standing? d tile eng with
  | true, some (a, img, stored) =>
    match fetched d a img with
    | (d1, none) => if stored = some { op := op, f := f } then endLoom d1 a stUncorrectable 0 else d
    | (d1, some i) => if i = { op := op, f := f } then issueAt a body f d1 else d
  | _, _ => d

/-- An FP32 scalar instruction of three sources. -/
def scalarFp3 (g : Val → Val → Val → Val) : LoomBody := regsOnly fun f l =>
  l.putS32 f (laneFp 0 f.rc.toNat true (fun v => match v with
    | a :: b :: c :: _ => g a b c
    | _ => .zero false) [(l.sreg f.a).setWidth 32, (l.sreg f.b).setWidth 32, (l.sreg f.c).setWidth 32])

/-! ## Control and scalar instructions -/

/-- NOP (Table 6.8). -/
def loomNop : LoomBody := fun _ _ d => (d, .next)
def execLoomNop (tile eng : Nat) (f : LoomFields) (s : State) : Out :=
  act s (running (issueLoom .loomNop loomNop tile eng f))

/-- END: the program ends (Table 6.8). -/
def loomEnd : LoomBody := fun _ _ d => (d, .done)
def execLoomEnd (tile eng : Nat) (f : LoomFields) (s : State) : Out :=
  act s (running (issueLoom .loomEnd loomEnd tile eng f))

/-- FAULT: fault code 0x08, with IMM[15:0] (Table 6.8). -/
def loomFault : LoomBody := fun _ f d => (d, .fault 8 (f.imm.toNat % 65536))
def execLoomFault (tile eng : Nat) (f : LoomFields) (s : State) : Out :=
  act s (running (issueLoom .loomFault loomFault tile eng f))

/-- J (Table 6.8). -/
def loomJ : LoomBody := branchIf fun _ _ => true
def execJ (tile eng : Nat) (f : LoomFields) (s : State) : Out :=
  act s (running (issueLoom .j loomJ tile eng f))

/-- BEQ (Table 6.8). -/
def loomBeq : LoomBody := branchIf fun f l => l.sreg f.a == l.sreg f.b
def execBeq (tile eng : Nat) (f : LoomFields) (s : State) : Out :=
  act s (running (issueLoom .beq loomBeq tile eng f))

/-- BNE (Table 6.8). -/
def loomBne : LoomBody := branchIf fun f l => l.sreg f.a != l.sreg f.b
def execBne (tile eng : Nat) (f : LoomFields) (s : State) : Out :=
  act s (running (issueLoom .bne loomBne tile eng f))

/-- BLT: signed (Table 6.8). -/
def loomBlt : LoomBody := branchIf fun f l => (l.sreg f.a).slt (l.sreg f.b)
def execBlt (tile eng : Nat) (f : LoomFields) (s : State) : Out :=
  act s (running (issueLoom .blt loomBlt tile eng f))

/-- BGE: signed (Table 6.8). -/
def loomBge : LoomBody := branchIf fun f l => !((l.sreg f.a).slt (l.sreg f.b))
def execBge (tile eng : Nat) (f : LoomFields) (s : State) : Out :=
  act s (running (issueLoom .bge loomBge tile eng f))

/-- BLTU: unsigned (Table 6.8). -/
def loomBltu : LoomBody := branchIf fun f l => (l.sreg f.a).ult (l.sreg f.b)
def execBltu (tile eng : Nat) (f : LoomFields) (s : State) : Out :=
  act s (running (issueLoom .bltu loomBltu tile eng f))

/-- LOOP: sA is decremented, and the branch taken if the result is not zero (Table 6.8). -/
def loomLoop : LoomBody := fun at_ f d =>
  let x := (getLoom d at_.tile at_.eng).sreg f.a - 1
  (modLoom d at_.tile at_.eng fun l => l.setS f.a x, if x = 0 then .next else .goto f.target.toNat)
def execLoop (tile eng : Nat) (f : LoomFields) (s : State) : Out :=
  act s (running (issueLoom .loop loomLoop tile eng f))

/-- BMZ: mask A has no bit set (Table 6.8). -/
def loomBmz : LoomBody := branchIf fun f l => l.mreg f.a.toNat == 0
def execBmz (tile eng : Nat) (f : LoomFields) (s : State) : Out :=
  act s (running (issueLoom .bmz loomBmz tile eng f))

/-- BMNZ: mask A has a bit set (Table 6.8). -/
def loomBmnz : LoomBody := branchIf fun f l => l.mreg f.a.toNat != 0
def execBmnz (tile eng : Nat) (f : LoomFields) (s : State) : Out :=
  act s (running (issueLoom .bmnz loomBmnz tile eng f))

/-- CALL: s31 takes the index of the next instruction (Table 6.8). -/
def loomCall : LoomBody := fun at_ f d =>
  (modLoom d at_.tile at_.eng fun l => l.setS 31 (BitVec.ofNat 64 (l.pc + 1)), .goto f.target.toNat)
def execCall (tile eng : Nat) (f : LoomFields) (s : State) : Out :=
  act s (running (issueLoom .call loomCall tile eng f))

/-- RET: to s31; at or beyond the length, fault code 0x0B (Tables 6.8 and 6.19). -/
def loomRet : LoomBody := fun at_ _ d =>
  let l := getLoom d at_.tile at_.eng
  let t := (l.sreg 31).toNat
  (d, if t < l.length then .goto t else .fault 0x0B 0)
def execRet (tile eng : Nat) (f : LoomFields) (s : State) : Out :=
  act s (running (issueLoom .ret loomRet tile eng f))

/-- SADD: sD ← sA + sB (Table 6.9). -/
def loomSadd : LoomBody := scalar2 fun a b => a + b
def execSadd (tile eng : Nat) (f : LoomFields) (s : State) : Out :=
  act s (running (issueLoom .sadd loomSadd tile eng f))

/-- SSUB: sD ← sA − sB (Table 6.9). -/
def loomSsub : LoomBody := scalar2 fun a b => a - b
def execSsub (tile eng : Nat) (f : LoomFields) (s : State) : Out :=
  act s (running (issueLoom .ssub loomSsub tile eng f))

/-- SMUL: sD ← the low 64 bits of sA × sB (Table 6.9). -/
def loomSmul : LoomBody := scalar2 fun a b => a * b
def execSmul (tile eng : Nat) (f : LoomFields) (s : State) : Out :=
  act s (running (issueLoom .smul loomSmul tile eng f))

/-- SAND: sD ← sA & sB (Table 6.9). -/
def loomSand : LoomBody := scalar2 fun a b => a &&& b
def execSand (tile eng : Nat) (f : LoomFields) (s : State) : Out :=
  act s (running (issueLoom .sand loomSand tile eng f))

/-- SOR: sD ← sA | sB (Table 6.9). -/
def loomSor : LoomBody := scalar2 fun a b => a ||| b
def execSor (tile eng : Nat) (f : LoomFields) (s : State) : Out :=
  act s (running (issueLoom .sor loomSor tile eng f))

/-- SXOR: sD ← sA ^ sB (Table 6.9). -/
def loomSxor : LoomBody := scalar2 fun a b => a ^^^ b
def execSxor (tile eng : Nat) (f : LoomFields) (s : State) : Out :=
  act s (running (issueLoom .sxor loomSxor tile eng f))

/-- SSHL: sD ← sA << sB, the count modulo 64 (Table 6.9). -/
def loomSshl : LoomBody := scalar2 fun a b => a <<< (b.toNat % 64)
def execSshl (tile eng : Nat) (f : LoomFields) (s : State) : Out :=
  act s (running (issueLoom .sshl loomSshl tile eng f))

/-- SSHR: sD ← sA >> sB, logical (Table 6.9). -/
def loomSshr : LoomBody := scalar2 fun a b => a >>> (b.toNat % 64)
def execSshr (tile eng : Nat) (f : LoomFields) (s : State) : Out :=
  act s (running (issueLoom .sshr loomSshr tile eng f))

/-- SSRA: sD ← sA >> sB, arithmetic (Table 6.9). -/
def loomSsra : LoomBody := scalar2 fun a b => a.sshiftRight (b.toNat % 64)
def execSsra (tile eng : Nat) (f : LoomFields) (s : State) : Out :=
  act s (running (issueLoom .ssra loomSsra tile eng f))

/-- SMIN: sD ← the signed minimum (Table 6.9). -/
def loomSmin : LoomBody := scalar2 fun a b => if a.sle b then a else b
def execSmin (tile eng : Nat) (f : LoomFields) (s : State) : Out :=
  act s (running (issueLoom .smin loomSmin tile eng f))

/-- SMAX: sD ← the signed maximum (Table 6.9). -/
def loomSmax : LoomBody := scalar2 fun a b => if b.sle a then a else b
def execSmax (tile eng : Nat) (f : LoomFields) (s : State) : Out :=
  act s (running (issueLoom .smax loomSmax tile eng f))

/-- SADDI: sD ← sA + sign-extended IMM (Table 6.9). -/
def loomSaddi : LoomBody := scalarImm fun a i => a + i.signExtend 64
def execSaddi (tile eng : Nat) (f : LoomFields) (s : State) : Out :=
  act s (running (issueLoom .saddi loomSaddi tile eng f))

/-- SSHLI (Table 6.9). -/
def loomSshli : LoomBody := scalarImm fun a i => a <<< (i.toNat % 64)
def execSshli (tile eng : Nat) (f : LoomFields) (s : State) : Out :=
  act s (running (issueLoom .sshli loomSshli tile eng f))

/-- SSHRI: logical (Table 6.9). -/
def loomSshri : LoomBody := scalarImm fun a i => a >>> (i.toNat % 64)
def execSshri (tile eng : Nat) (f : LoomFields) (s : State) : Out :=
  act s (running (issueLoom .sshri loomSshri tile eng f))

/-- SLI: sD ← sign-extended IMM (Table 6.9). -/
def loomSli : LoomBody := scalarImm fun _ i => i.signExtend 64
def execSli (tile eng : Nat) (f : LoomFields) (s : State) : Out :=
  act s (running (issueLoom .sli loomSli tile eng f))

/-- SLUI: sD[63:32] ← IMM, the lower half kept (Table 6.9). -/
def loomSlui : LoomBody := regsOnly fun f l =>
  l.setS f.d (f.imm ++ (l.sreg f.d).setWidth 32)
def execSlui (tile eng : Nat) (f : LoomFields) (s : State) : Out :=
  act s (running (issueLoom .slui loomSlui tile eng f))

/-- SFADD: FP32 sum of sA and sB under RC (Table 6.9). -/
def loomSfadd : LoomBody := scalarFp fun v => match v with
  | a :: b :: _ => addVal a b
  | _ => .zero false
def execSfadd (tile eng : Nat) (f : LoomFields) (s : State) : Out :=
  act s (running (issueLoom .sfadd loomSfadd tile eng f))

/-- SFMUL (Table 6.9). -/
def loomSfmul : LoomBody := scalarFp fun v => match v with
  | a :: b :: _ => mulVal a b
  | _ => .zero false
def execSfmul (tile eng : Nat) (f : LoomFields) (s : State) : Out :=
  act s (running (issueLoom .sfmul loomSfmul tile eng f))

/-- SFFMA: sA × sB + sC (Table 6.9). -/
def loomSffma : LoomBody := scalarFp3 fun a b c => fusedVal a b c
def execSffma (tile eng : Nat) (f : LoomFields) (s : State) : Out :=
  act s (running (issueLoom .sffma loomSffma tile eng f))

/-- SCTX: a context value (Table 6.9). -/
def loomSctx : LoomBody := fun at_ f d =>
  let o : Option Op := getOp d at_.op
  let x : W64 := match f.imm.toNat % 8 with
    | 0 => (o.map fun (o : Op) => o.step).getD 0
    | 1 => ((o.map fun (o : Op) => o.micro).getD 0).setWidth 64
    | 2 => BitVec.ofNat 64 at_.op.ring
    | 3 => at_.op.seq.setWidth 64
    | 4 => BitVec.ofNat 64 (deviceTime d)
    | _ => BitVec.ofNat 64 (at_.tile + 256 * at_.eng)
  (modLoom d at_.tile at_.eng fun l => l.setS f.d x, .next)
def execSctx (tile eng : Nat) (f : LoomFields) (s : State) : Out :=
  act s (running (issueLoom .sctx loomSctx tile eng f))

end Sys2Proof.Machine
end

