-- ==== Sys2Proof/Machine/LoomVector.lean ====
section
/-! DEFINITION. The Loom's vector, mask, cross-lane and conversion instructions (06 R157 to R163, R168, R169, Tables 6.10 to
6.14). -/

namespace Sys2Proof.Machine

/-- x ≤ y in numeric order with −0 below +0 (R159). -/
def numLe (x y : Val) : Bool := x.lt y || (x.le y && (x.neg || !y.neg))

/-- x ≤ y for integers, signed or unsigned. -/
def intLe (sg : Bool) (x y : W32) : Bool := if sg then x.sle y else x.ule y

/-- Active lanes take the values of `src` in turn, the others keep theirs (R162). -/
def expandLanes : List Bool → Lanes → Lanes → Lanes
  | true :: ms, _ :: os, x :: xs => x :: expandLanes ms os xs
  | false :: ms, o :: os, xs => o :: expandLanes ms os xs
  | _, os, _ => os

/-- Sums of the active lanes up to each lane. -/
def scanLanes : W32 → List Bool → Lanes → Lanes
  | acc, m :: ms, x :: xs =>
    let next := if m then acc + x else acc
    next :: scanLanes next ms xs
  | _, _, _ => []

/-- The ordered sum of the lanes of A, inactive ones padded (R163). -/
def ladderSum (l : Loom) (f : LoomFields) (start : Option Nat) : W32 :=
  let xs := (l.laneA f).zip (maskLanes (l.active f))
  BitVec.ofNat 32 (reduceFloat 0 start 256 fun k => match xs[k]? with
    | some (x, true) => [f32 x]
    | _ => [padded])

/-- The largest or smallest FP32 lane: the lowest NaN first (R159, R161). -/
def fpExtreme (big : Bool) (xs : List W32) : W32 :=
  match firstNan (xs.map f32) with
  | some v => f32Nan v.neg
  | none => match xs with
    | [] => if big then 0xFF800000 else 0x7F800000
    | x :: r => r.foldl (fun m y => if (if big then numLe (f32 y) (f32 m) else numLe (f32 m) (f32 y)) then m else y) x

/-- The largest or smallest integer lane (R161). -/
def intExtreme (big sg : Bool) (xs : List W32) : W32 :=
  match xs with
  | [] => if big then (if sg then 0x80000000 else 0) else (if sg then 0x7FFFFFFF else 0xFFFFFFFF)
  | x :: r => r.foldl (fun m y => if (if big then intLe sg y m else intLe sg m y) then m else y) x

/-- A format word that VCVT.X and VDCD.X cannot accept (R168, R169). -/
def laneWordBad (ty : BitVec 3) (w : Nat) : Bool :=
  wordRefused w || (fmtOf w).mx || (ty == 3 && (!(intCode (fmtOf w).code) || (fmtOf w).scale != 0))

/-- The active lanes that saturated go to mask SM; 0 names none (Table 6.3). -/
def putSat (f : LoomFields) (out : List Conv) (active : BitVec 256) (l : Loom) : Loom :=
  l.setM f.sm.toNat (maskOf (out.map (·.sat)) &&& active)

/-- VADD: D ← A + B (Table 6.10). -/
def loomVadd : LoomBody := vectorFp2 fun v => match v with
  | a :: b :: _ => addVal a b
  | _ => .zero false
def execVadd (tile eng : Nat) (f : LoomFields) (s : State) : Out :=
  act s (running (issueLoom .vadd loomVadd tile eng f))

/-- VSUB: D ← A − B (Table 6.10). -/
def loomVsub : LoomBody := vectorFp2 fun v => match v with
  | a :: b :: _ => addVal a (negVal b)
  | _ => .zero false
def execVsub (tile eng : Nat) (f : LoomFields) (s : State) : Out :=
  act s (running (issueLoom .vsub loomVsub tile eng f))

/-- VMUL: D ← A × B (Table 6.10). -/
def loomVmul : LoomBody := vectorFp2 fun v => match v with
  | a :: b :: _ => mulVal a b
  | _ => .zero false
def execVmul (tile eng : Nat) (f : LoomFields) (s : State) : Out :=
  act s (running (issueLoom .vmul loomVmul tile eng f))

/-- VFMA: D ← A × B + C, rounded once (Table 6.10). -/
def loomVfma : LoomBody := vectorFp3 fun v => match v with
  | a :: b :: c :: _ => fusedVal a b c
  | _ => .zero false
def execVfma (tile eng : Nat) (f : LoomFields) (s : State) : Out :=
  act s (running (issueLoom .vfma loomVfma tile eng f))

/-- VFMS: D ← A × B − C, rounded once (Table 6.10). -/
def loomVfms : LoomBody := vectorFp3 fun v => match v with
  | a :: b :: c :: _ => fusedVal a b (negVal c)
  | _ => .zero false
def execVfms (tile eng : Nat) (f : LoomFields) (s : State) : Out :=
  act s (running (issueLoom .vfms loomVfms tile eng f))

/-- VFNMA: D ← −(A × B) + C, rounded once (Table 6.10). -/
def loomVfnma : LoomBody := vectorFp3 fun v => match v with
  | a :: b :: c :: _ => fusedVal (negVal a) b c
  | _ => .zero false
def execVfnma (tile eng : Nat) (f : LoomFields) (s : State) : Out :=
  act s (running (issueLoom .vfnma loomVfnma tile eng f))

/-- VMIN: −0 below +0 (R159). -/
def loomVmin : LoomBody := vectorFp2 fun v => match v with
  | a :: b :: _ => if numLe a b then a else b
  | _ => .zero false
def execVmin (tile eng : Nat) (f : LoomFields) (s : State) : Out :=
  act s (running (issueLoom .vmin loomVmin tile eng f))

/-- VMAX: −0 below +0 (R159). -/
def loomVmax : LoomBody := vectorFp2 fun v => match v with
  | a :: b :: _ => if numLe b a then a else b
  | _ => .zero false
def execVmax (tile eng : Nat) (f : LoomFields) (s : State) : Out :=
  act s (running (issueLoom .vmax loomVmax tile eng f))

/-- VABS: the sign cleared, also of a NaN (R157). -/
def loomVabs : LoomBody := vectorFp1 false fun v => match v with
  | a :: _ => a.withSign false
  | _ => .zero false
def execVabs (tile eng : Nat) (f : LoomFields) (s : State) : Out :=
  act s (running (issueLoom .vabs loomVabs tile eng f))

/-- VNEG: the sign turned, also of a NaN (R157). -/
def loomVneg : LoomBody := vectorFp1 false fun v => match v with
  | a :: _ => a.withSign (!a.neg)
  | _ => .zero false
def execVneg (tile eng : Nat) (f : LoomFields) (s : State) : Out :=
  act s (running (issueLoom .vneg loomVneg tile eng f))

/-- VRCP: D ← 1 / A (R158). -/
def loomVrcp : LoomBody := vectorFp1 true fun v => match v with
  | a :: _ => rcpVal a
  | _ => .zero false
def execVrcp (tile eng : Nat) (f : LoomFields) (s : State) : Out :=
  act s (running (issueLoom .vrcp loomVrcp tile eng f))

/-- VRSQRT: D ← 1 / √A (R158). -/
def loomVrsqrt : LoomBody := vectorFp1 true fun v => match v with
  | a :: _ => rsqrtVal a
  | _ => .zero false
def execVrsqrt (tile eng : Nat) (f : LoomFields) (s : State) : Out :=
  act s (running (issueLoom .vrsqrt loomVrsqrt tile eng f))

/-- VSQRT: D ← √A (R158). -/
def loomVsqrt : LoomBody := vectorFp1 true fun v => match v with
  | a :: _ => rootVal a
  | _ => .zero false
def execVsqrt (tile eng : Nat) (f : LoomFields) (s : State) : Out :=
  act s (running (issueLoom .vsqrt loomVsqrt tile eng f))

/-- VDIV: D ← A / B (R158). -/
def loomVdiv : LoomBody := vectorFp2 fun v => match v with
  | a :: b :: _ => quotVal a b
  | _ => .zero false
def execVdiv (tile eng : Nat) (f : LoomFields) (s : State) : Out :=
  act s (running (issueLoom .vdiv loomVdiv tile eng f))

/-- VEXP2: D ← 2^A (R158). -/
def loomVexp2 : LoomBody := vectorFp1 true fun v => match v with
  | a :: _ => exp2Val a
  | _ => .zero false
def execVexp2 (tile eng : Nat) (f : LoomFields) (s : State) : Out :=
  act s (running (issueLoom .vexp2 loomVexp2 tile eng f))

/-- VLOG2: D ← log2 A (R158). -/
def loomVlog2 : LoomBody := vectorFp1 true fun v => match v with
  | a :: _ => log2Val a
  | _ => .zero false
def execVlog2 (tile eng : Nat) (f : LoomFields) (s : State) : Out :=
  act s (running (issueLoom .vlog2 loomVlog2 tile eng f))

/-- VEXP: D ← e^A (R158). -/
def loomVexp : LoomBody := vectorFp1 true fun v => match v with
  | a :: _ => expVal a
  | _ => .zero false
def execVexp (tile eng : Nat) (f : LoomFields) (s : State) : Out :=
  act s (running (issueLoom .vexp loomVexp tile eng f))

/-- VTANH: D ← tanh A (R158). -/
def loomVtanh : LoomBody := vectorFp1 true fun v => match v with
  | a :: _ => tanhVal a
  | _ => .zero false
def execVtanh (tile eng : Nat) (f : LoomFields) (s : State) : Out :=
  act s (running (issueLoom .vtanh loomVtanh tile eng f))

/-- VRINT: A rounded to a whole value under RND (Table 6.10). -/
def loomVrint : LoomBody := regsOnly fun f l =>
  l.putV f ((l.laneA f).map fun a => laneFp f.ty.toNat f.rc.toNat true
    (fun v => match v with
      | a :: _ => rintVal a (f.rc.toNat % 4)
      | _ => .zero false) [a])
def execVrint (tile eng : Nat) (f : LoomFields) (s : State) : Out :=
  act s (running (issueLoom .vrint loomVrint tile eng f))

/-- VLDEXP: D ← A × 2^B, B an INT32 lane (Table 6.10). -/
def loomVldexp : LoomBody := regsOnly fun f l =>
  l.putV f ((l.laneA f).zipWith (fun a b => laneFp f.ty.toNat f.rc.toNat true
    (fun v => match v with
      | a :: _ => ldexpVal a b.toInt
      | _ => .zero false) [a]) (l.laneB f))
def execVldexp (tile eng : Nat) (f : LoomFields) (s : State) : Out :=
  act s (running (issueLoom .vldexp loomVldexp tile eng f))

/-- VIADD: D ← A + B (Table 6.11). -/
def loomViadd : LoomBody := vectorInt fun _ a b => a + b
def execViadd (tile eng : Nat) (f : LoomFields) (s : State) : Out :=
  act s (running (issueLoom .viadd loomViadd tile eng f))

/-- VISUB: D ← A − B (Table 6.11). -/
def loomVisub : LoomBody := vectorInt fun _ a b => a - b
def execVisub (tile eng : Nat) (f : LoomFields) (s : State) : Out :=
  act s (running (issueLoom .visub loomVisub tile eng f))

/-- VIMUL: D ← the low 32 bits of A × B (Table 6.11). -/
def loomVimul : LoomBody := vectorInt fun _ a b => a * b
def execVimul (tile eng : Nat) (f : LoomFields) (s : State) : Out :=
  act s (running (issueLoom .vimul loomVimul tile eng f))

/-- VIMIN: D ← the minimum, signed or unsigned by TY (Table 6.11). -/
def loomVimin : LoomBody := vectorInt fun sg a b => if intLe sg a b then a else b
def execVimin (tile eng : Nat) (f : LoomFields) (s : State) : Out :=
  act s (running (issueLoom .vimin loomVimin tile eng f))

/-- VIMAX: D ← the maximum, signed or unsigned by TY (Table 6.11). -/
def loomVimax : LoomBody := vectorInt fun sg a b => if intLe sg b a then a else b
def execVimax (tile eng : Nat) (f : LoomFields) (s : State) : Out :=
  act s (running (issueLoom .vimax loomVimax tile eng f))

/-- VAND: D ← A & B (Table 6.11). -/
def loomVand : LoomBody := vectorInt fun _ a b => a &&& b
def execVand (tile eng : Nat) (f : LoomFields) (s : State) : Out :=
  act s (running (issueLoom .vand loomVand tile eng f))

/-- VOR: D ← A | B (Table 6.11). -/
def loomVor : LoomBody := vectorInt fun _ a b => a ||| b
def execVor (tile eng : Nat) (f : LoomFields) (s : State) : Out :=
  act s (running (issueLoom .vor loomVor tile eng f))

/-- VXOR: D ← A ^ B (Table 6.11). -/
def loomVxor : LoomBody := vectorInt fun _ a b => a ^^^ b
def execVxor (tile eng : Nat) (f : LoomFields) (s : State) : Out :=
  act s (running (issueLoom .vxor loomVxor tile eng f))

/-- VSHL: D ← A << B, the count modulo 32 (Table 6.11). -/
def loomVshl : LoomBody := vectorInt fun _ a b => a <<< (b.toNat % 32)
def execVshl (tile eng : Nat) (f : LoomFields) (s : State) : Out :=
  act s (running (issueLoom .vshl loomVshl tile eng f))

/-- VSHR: D ← A >> B, arithmetic for .i32 and logical for .u32 (Table 6.11). -/
def loomVshr : LoomBody := vectorInt fun sg a b => if sg then a.sshiftRight (b.toNat % 32) else a >>> (b.toNat % 32)
def execVshr (tile eng : Nat) (f : LoomFields) (s : State) : Out :=
  act s (running (issueLoom .vshr loomVshr tile eng f))

/-- VMOV: D ← A (Table 6.11). -/
def loomVmov : LoomBody := regsOnly fun f l => l.putV f (l.laneA f)
def execVmov (tile eng : Nat) (f : LoomFields) (s : State) : Out :=
  act s (running (issueLoom .vmov loomVmov tile eng f))

/-- VSEL: A where the mask bit is 1, B where it is 0, in every lane (Table 6.11). -/
def loomVsel : LoomBody := regsOnly fun f l =>
  l.setV f.d (mergeLanes (l.active f) (l.laneB f) (l.laneA f))
def execVsel (tile eng : Nat) (f : LoomFields) (s : State) : Out :=
  act s (running (issueLoom .vsel loomVsel tile eng f))

/-- VIOTA: D[i] ← i + sA[31:0] (Table 6.11). -/
def loomViota : LoomBody := regsOnly fun f l =>
  l.putV f ((List.range 256).map fun i => BitVec.ofNat 32 i + (l.sreg f.a).setWidth 32)
def execViota (tile eng : Nat) (f : LoomFields) (s : State) : Out :=
  act s (running (issueLoom .viota loomViota tile eng f))

/-- VLI: D ← IMM (Table 6.11). -/
def loomVli : LoomBody := regsOnly fun f l => l.putV f (List.replicate 256 f.imm)
def execVli (tile eng : Nat) (f : LoomFields) (s : State) : Out :=
  act s (running (issueLoom .vli loomVli tile eng f))

/-- VCMPEQ: false when either lane is NaN (Table 6.12). -/
def loomVcmpeq : LoomBody := compareLanes (fun a b => a.le b && b.le a) fun _ a b => a == b
def execVcmpeq (tile eng : Nat) (f : LoomFields) (s : State) : Out :=
  act s (running (issueLoom .vcmpeq loomVcmpeq tile eng f))

/-- VCMPNE: true when either lane is NaN (Table 6.12). -/
def loomVcmpne : LoomBody := compareLanes (fun a b => !(a.le b && b.le a)) fun _ a b => a != b
def execVcmpne (tile eng : Nat) (f : LoomFields) (s : State) : Out :=
  act s (running (issueLoom .vcmpne loomVcmpne tile eng f))

/-- VCMPLT (Table 6.12). -/
def loomVcmplt : LoomBody := compareLanes Val.lt fun sg a b => !(intLe sg b a)
def execVcmplt (tile eng : Nat) (f : LoomFields) (s : State) : Out :=
  act s (running (issueLoom .vcmplt loomVcmplt tile eng f))

/-- VCMPLE (Table 6.12). -/
def loomVcmple : LoomBody := compareLanes Val.le intLe
def execVcmple (tile eng : Nat) (f : LoomFields) (s : State) : Out :=
  act s (running (issueLoom .vcmple loomVcmple tile eng f))

/-- VCMPUN: either lane is NaN (Table 6.12). -/
def loomVcmpun : LoomBody := compareLanes (fun a b => (firstNan [a, b]).isSome) fun _ _ _ => false
def execVcmpun (tile eng : Nat) (f : LoomFields) (s : State) : Out :=
  act s (running (issueLoom .vcmpun loomVcmpun tile eng f))

/-- VISFIN: the lane is finite (Table 6.12). -/
def loomVisfin : LoomBody := regsOnly fun f l => l.putM f ((l.laneA f).map fun a => !((f32 a).special))
def execVisfin (tile eng : Nat) (f : LoomFields) (s : State) : Out :=
  act s (running (issueLoom .visfin loomVisfin tile eng f))

/-- MAND (Table 6.12). -/
def loomMand : LoomBody := maskLogic fun a b => a &&& b
def execMand (tile eng : Nat) (f : LoomFields) (s : State) : Out :=
  act s (running (issueLoom .mand loomMand tile eng f))

/-- MOR (Table 6.12). -/
def loomMor : LoomBody := maskLogic fun a b => a ||| b
def execMor (tile eng : Nat) (f : LoomFields) (s : State) : Out :=
  act s (running (issueLoom .mor loomMor tile eng f))

/-- MXOR (Table 6.12). -/
def loomMxor : LoomBody := maskLogic fun a b => a ^^^ b
def execMxor (tile eng : Nat) (f : LoomFields) (s : State) : Out :=
  act s (running (issueLoom .mxor loomMxor tile eng f))

/-- MNOT (Table 6.12). -/
def loomMnot : LoomBody := maskLogic fun a _ => ~~~a
def execMnot (tile eng : Nat) (f : LoomFields) (s : State) : Out :=
  act s (running (issueLoom .mnot loomMnot tile eng f))

/-- MPREFIX: lanes 0 to n − 1, n = min(sA, 256) (Table 6.12). -/
def loomMprefix : LoomBody := regsOnly fun f l =>
  l.setM f.d.toNat (BitVec.ofNat 256 (2 ^ min (l.sreg f.a).toNat 256 - 1))
def execMprefix (tile eng : Nat) (f : LoomFields) (s : State) : Out :=
  act s (running (issueLoom .mprefix loomMprefix tile eng f))

/-- MPOPC: bits set in mA & m(MASK) (Table 6.12). -/
def loomMpopc : LoomBody := regsOnly fun f l =>
  l.setS f.d (BitVec.ofNat 64 (popCount (l.mreg f.a.toNat &&& l.active f)))
def execMpopc (tile eng : Nat) (f : LoomFields) (s : State) : Out :=
  act s (running (issueLoom .mpopc loomMpopc tile eng f))

/-- MFIRST: the lowest lane set in mA & m(MASK), 256 if none (Table 6.12). -/
def loomMfirst : LoomBody := regsOnly fun f l =>
  l.setS f.d (BitVec.ofNat 64 (((List.range 256).find? (l.mreg f.a.toNat &&& l.active f).getLsbD).getD 256))
def execMfirst (tile eng : Nat) (f : LoomFields) (s : State) : Out :=
  act s (running (issueLoom .mfirst loomMfirst tile eng f))

/-- VCOMPRESS (R162): sC takes the number of active lanes. -/
def loomVcompress : LoomBody := regsOnly fun f l =>
  let kept := ((l.laneA f).zip (maskLanes (l.active f))).filterMap fun e => if e.2 then some e.1 else none
  (l.setV f.d (kept ++ List.replicate (256 - kept.length) 0)).setS f.c (BitVec.ofNat 64 kept.length)
def execVcompress (tile eng : Nat) (f : LoomFields) (s : State) : Out :=
  act s (running (issueLoom .vcompress loomVcompress tile eng f))

/-- VEXPAND (R162): active lane i takes A[k], k the active lanes below i. -/
def loomVexpand : LoomBody := regsOnly fun f l =>
  l.setV f.d (expandLanes (maskLanes (l.active f)) (l.vreg f.d) (l.laneA f))
def execVexpand (tile eng : Nat) (f : LoomFields) (s : State) : Out :=
  act s (running (issueLoom .vexpand loomVexpand tile eng f))

/-- VPERM: D[i] ← A[B[i] mod 256] (Table 6.13). -/
def loomVperm : LoomBody := regsOnly fun f l =>
  l.putV f ((l.laneB f).map fun b => (l.laneA f).getD (b.toNat % 256) 0)
def execVperm (tile eng : Nat) (f : LoomFields) (s : State) : Out :=
  act s (running (issueLoom .vperm loomVperm tile eng f))

/-- VROT: D[i] ← A[(i + sB) mod 256] (Table 6.13). -/
def loomVrot : LoomBody := regsOnly fun f l =>
  let n := (l.sreg f.b).toNat % 256
  l.putV f ((l.laneA f).drop n ++ (l.laneA f).take n)
def execVrot (tile eng : Nat) (f : LoomFields) (s : State) : Out :=
  act s (running (issueLoom .vrot loomVrot tile eng f))

/-- VBCAST: D[i] ← A[sB mod 256] (Table 6.13). -/
def loomVbcast : LoomBody := regsOnly fun f l =>
  l.putV f (List.replicate 256 ((l.laneA f).getD ((l.sreg f.b).toNat % 256) 0))
def execVbcast (tile eng : Nat) (f : LoomFields) (s : State) : Out :=
  act s (running (issueLoom .vbcast loomVbcast tile eng f))

/-- VEXT: sD ← A[sB mod 256], zero-extended (Table 6.13). -/
def loomVext : LoomBody := regsOnly fun f l =>
  l.putS32 f ((l.laneA f).getD ((l.sreg f.b).toNat % 256) 0)
def execVext (tile eng : Nat) (f : LoomFields) (s : State) : Out :=
  act s (running (issueLoom .vext loomVext tile eng f))

/-- VINS: lane sB mod 256 of D ← sA[31:0], where that lane is active (Table 6.13, R156). -/
def loomVins : LoomBody := regsOnly fun f l =>
  l.putV f ((l.vreg f.d).set ((l.sreg f.b).toNat % 256) ((l.sreg f.a).setWidth 32))
def execVins (tile eng : Nat) (f : LoomFields) (s : State) : Out :=
  act s (running (issueLoom .vins loomVins tile eng f))

/-- RSUM.O: an ordered sum that starts anew (R163). -/
def loomRsumO : LoomBody := regsOnly fun f l => l.putS32 f (ladderSum l f none)
def execRsumO (tile eng : Nat) (f : LoomFields) (s : State) : Out :=
  act s (running (issueLoom .rsumO loomRsumO tile eng f))

/-- RSUM.OA: an ordered sum added to sD[31:0] (R163). -/
def loomRsumOa : LoomBody := regsOnly fun f l =>
  l.putS32 f (ladderSum l f (some ((l.sreg f.d).toNat % 2 ^ 32)))
def execRsumOa (tile eng : Nat) (f : LoomFields) (s : State) : Out :=
  act s (running (issueLoom .rsumOa loomRsumOa tile eng f))

/-- RMAX: with no active lane, −∞ or the minimum of the type (R161). -/
def loomRmax : LoomBody := reduceLanes fun ty xs =>
  if ty = 0 then fpExtreme true xs else intExtreme true (ty == 3) xs
def execRmax (tile eng : Nat) (f : LoomFields) (s : State) : Out :=
  act s (running (issueLoom .rmax loomRmax tile eng f))

/-- RMIN: with no active lane, +∞ or the maximum of the type (R161). -/
def loomRmin : LoomBody := reduceLanes fun ty xs =>
  if ty = 0 then fpExtreme false xs else intExtreme false (ty == 3) xs
def execRmin (tile eng : Nat) (f : LoomFields) (s : State) : Out :=
  act s (running (issueLoom .rmin loomRmin tile eng f))

/-- RISUM: modulo 2^32 (Table 6.13). -/
def loomRisum : LoomBody := reduceLanes fun _ xs => xs.foldl (· + ·) 0
def execRisum (tile eng : Nat) (f : LoomFields) (s : State) : Out :=
  act s (running (issueLoom .risum loomRisum tile eng f))

/-- VISCAN: running sums over the active lanes (Table 6.13). -/
def loomViscan : LoomBody := regsOnly fun f l =>
  l.putV f (scanLanes 0 (maskLanes (l.active f)) (l.laneA f))
def execViscan (tile eng : Nat) (f : LoomFields) (s : State) : Out :=
  act s (running (issueLoom .viscan loomViscan tile eng f))

/-- VCVT.F2I: FP32 to integer under RC, .u32 to 0 to 2^32 − 1 (Table 6.14). -/
def loomVcvtF2i : LoomBody := regsOnly fun f l =>
  let range : Int × Int := if f.ty = 3 then (-2 ^ 31, 2 ^ 31 - 1) else (0, 2 ^ 32 - 1)
  l.putV f ((l.laneA f).map fun a => BitVec.ofNat 32 (convInt 32 range (f.rc.toNat % 4) 0 (f32 a)).pat)
def execVcvtF2i (tile eng : Nat) (f : LoomFields) (s : State) : Out :=
  act s (running (issueLoom .vcvtF2i loomVcvtF2i tile eng f))

/-- VCVT.I2F: integer to FP32 under RC (Table 6.14). -/
def loomVcvtI2f : LoomBody := regsOnly fun f l =>
  l.putV f ((l.laneA f).map fun a =>
    BitVec.ofNat 32 (roundElem 0 f.rc.toNat (intVal (if f.ty = 3 then a.toInt else a.toNat) 0)))
def execVcvtI2f (tile eng : Nat) (f : LoomFields) (s : State) : Out :=
  act s (running (issueLoom .vcvtI2f loomVcvtI2f tile eng f))

/-- VPACK: A and B converted from FP32 to the low and the high half (Table 6.14). -/
def loomVpack : LoomBody := regsOnly fun f l =>
  l.putV f ((l.laneA f).zipWith (fun a b =>
    joinElems [roundElem f.ty.toNat f.rc.toNat (f32 a), roundElem f.ty.toNat f.rc.toNat (f32 b)]) (l.laneB f))
def execVpack (tile eng : Nat) (f : LoomFields) (s : State) : Out :=
  act s (running (issueLoom .vpack loomVpack tile eng f))

/-- VUNPL: bits [15:0] widened to FP32 (Table 6.14). -/
def loomVunpl : LoomBody := regsOnly fun f l =>
  l.putV f ((l.laneA f).map fun a => toF32 (elemVal f.ty.toNat false (a.toNat % 65536)))
def execVunpl (tile eng : Nat) (f : LoomFields) (s : State) : Out :=
  act s (running (issueLoom .vunpl loomVunpl tile eng f))

/-- VUNPH: bits [31:16] widened to FP32 (Table 6.14). -/
def loomVunph : LoomBody := regsOnly fun f l =>
  l.putV f ((l.laneA f).map fun a => toF32 (elemVal f.ty.toNat false (a.toNat / 65536)))
def execVunph (tile eng : Nat) (f : LoomFields) (s : State) : Out :=
  act s (running (issueLoom .vunph loomVunph tile eng f))

/-- VCVT.X: the lane's encoding in the format word sB[15:0] (R168, R169). -/
def loomVcvtX : LoomBody := fun at_ f d =>
  let l := getLoom d at_.tile at_.eng
  let w := (l.sreg f.b).toNat % 65536
  if laneWordBad f.ty w then (d, .fault 9 0)
  else
    let out := (l.laneA f).map fun a => convert (fmtOf w) f.rc.toNat 0 (if f.ty = 3 then intVal a.toInt 0 else f32 a)
    (modLoom d at_.tile at_.eng fun l =>
      putSat f out (l.active f) (l.putV f (out.map fun c => BitVec.ofNat 32 c.pat)), .next)
def execVcvtX (tile eng : Nat) (f : LoomFields) (s : State) : Out :=
  act s (running (issueLoom .vcvtX loomVcvtX tile eng f))

/-- VDCD.X: the value of the lane's low bits in the format word sB[15:0] (R168, R169). -/
def loomVdcdX : LoomBody := fun at_ f d =>
  let l := getLoom d at_.tile at_.eng
  let w := (l.sreg f.b).toNat % 65536
  if laneWordBad f.ty w then (d, .fault 9 0)
  else
    let fmt := fmtOf w
    let one (a : W32) : W32 :=
      let v := readVal fmt (a.toNat % 2 ^ fmtBits fmt.code) 127
      if f.ty = 3 then BitVec.ofNat 32 (convert { code := 11, mx := false, scale := 0 } 0 0 v).pat else toF32 v
    (modLoom d at_.tile at_.eng fun l => l.putV f ((l.laneA f).map one), .next)
def execVdcdX (tile eng : Nat) (f : LoomFields) (s : State) : Out :=
  act s (running (issueLoom .vdcdX loomVdcdX tile eng f))

end Sys2Proof.Machine
end

