-- ==== Sys2Proof/Machine/Mill.lean ====
section
/-! DEFINITION. The Mill: its checks, accumulator sets, products and drains (05). -/

namespace Sys2Proof.Machine

/-! ## Descriptor and shapes -/

/-- Rows and columns of a shape (Table 5.1). -/
def shapeDims (shape : Nat) : Nat × Nat :=
  (if shape % 2 = 1 then 512 else 256, if 2 ≤ shape then 512 else 256)

/-- Half-slots per element of an accumulator format (R119). A MILL_RELEASE may name any code; one that is no accumulator format
counts two (DESIGN CHOICE, log 106). -/
def halfSlots (fmt : Nat) : Nat := if fmt = 1 || fmt = 2 then 1 else 2

/-- Layers that a set spans (R121). -/
def span (fmt shape : Nat) : Nat :=
  let s := shapeDims shape
  halfSlots fmt * (s.1 / 256) * (s.2 / 256)

/-- An accumulator format code (Table 5.5). -/
def accFmtOk (fmt : Nat) : Bool := fmt == 0 || fmt == 1 || fmt == 2 || fmt == 0x0B

/-- The path of an operand pair (Table 3.8). -/
inductive MillPath where
  | float | int | split
deriving DecidableEq, Repr

/-- The operand is of the floating path: BF16 to FP4, or an MX integer. -/
def floatPathFmt (f : Fmt) : Bool := (1 ≤ f.code && f.code ≤ 7) || (8 ≤ f.code && f.code ≤ 10 && f.mx)

/-- The path of a pair, where Table 3.8 lists it. -/
def millPath (a b : Fmt) : Option MillPath :=
  if floatPathFmt a && floatPathFmt b then some .float
  else if 8 ≤ a.code && a.code ≤ 10 && !a.mx && 8 ≤ b.code && b.code ≤ 10 && !b.mx then some .int
  else if a.code = 0 && b.code = 0 then some .split
  else none

/-- The accumulator format suits the path (R123). -/
def pathSuits (p : MillPath) (acc : Nat) : Bool :=
  match p with
  | .float => acc ≤ 2
  | .int => acc == 0x0B
  | .split => acc == 0

/-- FUSE of DRAIN_CTL. -/
def Op.fuse (o : Op) : Nat := bits (o.f 75 1) 5 4
/-- TO_CHUTE of DRAIN_CTL. -/
def Op.toChute (o : Op) : Bool := bit (o.f 75 1) 6
/-- MILL_DRAIN, or MILL_MATMUL with DRAIN set. -/
def Op.drains (o : Op) : Bool := o.opcode == 0x0102 || (o.opcode == 0x0101 && bit (o.f 74 1) 1)
/-- Where ACC and LAYOUT lie: bytes 72 and 73, in CONV_MILL bytes 106 and 107 (Tables 5.5 and 7.3). -/
def Op.accByte (o : Op) : Nat := if o.opcode = 0x0301 then 106 else 72
/-- The handle. -/
def Op.handle (o : Op) : Nat := o.f o.accByte 1 % 8
/-- The accumulator format code of LAYOUT. -/
def Op.accFmt (o : Op) : Nat := bits (o.f (o.accByte + 1) 1) 5 0
/-- The shape code of LAYOUT. -/
def Op.accShape (o : Op) : Nat := bits (o.f (o.accByte + 1) 1) 7 6

/-- Bytes that `rows` rows of `len` bytes take at a stride. -/
def extent (rows stride len : Nat) : Nat := if rows = 0 then 0 else (rows - 1) * stride + len

/-! ## Checks at fetch (Table 5.4) -/

/-- Check 1: reserved and unused fields. -/
def millReserved (o : Op) : Bool :=
  let matmul := o.opcode == 0x0101
  let drainBytes := o.zero 124 4 && !(bit (o.f 75 1) 7) && o.fuse != 3 && !(bit (o.f 75 1) 3) && !(bit (o.f 112 2) 7) &&
    !(bit (o.f 114 2) 7) && bits (o.f 118 2) 15 12 == 0 &&
    (!o.toChute || ((o.f 80 8) % 64 + bits (o.f 80 8) 11 8 * 256 == o.f 80 8 && o.zero 104 4)) &&
    (bit (o.f 112 2) 6 || o.zero 88 8) && (o.fuse != 0 || o.zero 96 8)
  let acc := bits (o.f 72 1) 7 3 == 0
  if o.opcode = 0x0103 then acc && o.zero 32 40 && o.zero 74 54
  else if matmul then
    acc && bits (o.f 74 1) 7 5 == 0 && o.zero 76 4 && !(bit (o.f 60 2) 7) && !(bit (o.f 62 2) 7) &&
    (bit (o.f 60 2) 6 || o.zero 40 4) && (bit (o.f 62 2) 6 || o.zero 44 4) &&
    (if o.drains then drainBytes else o.zero 75 53)
  else acc && o.zero 32 32 && o.zero 68 4 && bits (o.f 74 1) 1 0 == 0 && bits (o.f 74 1) 7 3 == 0 && o.zero 76 4 && drainBytes

/-- The fused format is allowed (R135); without a fused operand its word has still to be accepted (R78, R85). -/
def fuseFmtOk (o : Op) : Bool :=
  let w := o.f 114 2
  let f := fmtOf w
  if fmtWordBad w || f.code = 0x0C then false
  else if o.fuse = 0 then true
  else if f.mx then false
  else if o.accFmt = 0x0B then (if o.fuse = 1 then f.code == 0x0B else f.code == 0)
  else decide (f.code ≤ 7)

/-- Check 2: formats. -/
def millFormats (o : Op) : Bool :=
  let drainOk := !o.drains || (!(fmtWordBad (o.f 112 2)) && bits (o.f 112 2) 5 0 != 0x0C && fuseFmtOk o)
  if o.opcode = 0x0101 then
    let a := fmtOf (o.f 60 2)
    let b := fmtOf (o.f 62 2)
    !(fmtWordBad (o.f 60 2)) && !(fmtWordBad (o.f 62 2)) &&
    (match millPath a b with
    | none => false
    | some p => pathSuits p o.accFmt && (p != .int || (a.scale == 0 && b.scale == 0))) && drainOk
  else accFmtOk o.accFmt && drainOk

/-- An operand's rows as stored: how many, elements in each (R126). -/
def operandRows (kout : Bool) (n k : Nat) : Nat × Nat := if kout then (k, n) else (n, k)

/-- Check 4 for one operand: stride covers the row, sub-byte rule, scale stride. -/
def operandShape (code : Nat) (mx kout : Bool) (n k stride scaleStride : Nat) : Bool :=
  let row := (operandRows kout n k).2
  row % packGroup code == 0 && decide (packedBytes code row ≤ stride) &&
  (!mx || decide ((if kout then n else (k + 31) / 32) ≤ scaleStride))

/-- The chute that a drain names. -/
def Op.drainChute (o : Op) (d : Dev) : Option Chute := getChute d (o.f 80 1 % 64) (bits (o.f 80 2) 11 8)

/-- Bytes of a drain's packed payload with its scales (R136). -/
def drainBytes (o : Op) : Nat :=
  let m := o.f 64 2
  let n := o.f 66 2
  m * packedBytes (bits (o.f 112 2) 5 0) n + (if bit (o.f 112 2) 6 then m * ((n + 31) / 32) else 0)

/-- Check 4: ranges, handle, strides, sub-byte rows, chute slot. -/
def millShape (d : Dev) (o : Op) : Bool :=
  let m := o.f 64 2
  let n := o.f 66 2
  let k := o.f 68 4
  let dims := shapeDims o.accShape
  let mode := o.f 74 1
  let outCode := bits (o.f 112 2) 5 0
  let outMx := bit (o.f 112 2) 6
  1 ≤ m && decide (m ≤ dims.1) && 1 ≤ n && decide (n ≤ dims.2) && decide (k ≤ 1048576) &&
  o.handle % span o.accFmt o.accShape == 0 &&
  (o.opcode != 0x0101 ||
    (operandShape (bits (o.f 60 2) 5 0) (bit (o.f 60 2) 6) (bit mode 3) m k (o.f 48 4) (o.f 56 2) &&
     operandShape (bits (o.f 62 2) 5 0) (bit (o.f 62 2) 6) (bit mode 4) n k (o.f 52 4) (o.f 58 2))) &&
  (!o.drains ||
    (n % packGroup outCode == 0 &&
     (if o.toChute then
        (match o.drainChute d with
        | none => true
        | some c => decide (drainBytes o ≤ c.slotBytes))
      else decide (packedBytes outCode n ≤ o.f 104 4) && (!outMx || decide ((n + 31) / 32 ≤ o.f 116 2))) &&
     (o.fuse == 0 || (n % packGroup (bits (o.f 114 2) 5 0) == 0 && decide (packedBytes (bits (o.f 114 2) 5 0) n ≤ o.f 108 4)))))

/-- A range lies in a tile's own SRAM or in GDDR7. -/
def localOrGddr (d : Dev) (tile a len : Nat) : Bool :=
  match rangeRegion d a len with
  | .gddr _ => true
  | .sram t => t == tile
  | _ => false

/-- Check 5 for one operand: alignment, and its place in the M-tile's SRAM; an operand without bytes (K = 0) has its offset held
to the tile as well (DESIGN CHOICE, log 106). -/
def operandPlace (code : Nat) (mx kout : Bool) (n k off stride soff scaleStride : Nat) : Bool :=
  let r := operandRows kout n k
  let blocks := (k + 31) / 32
  off % 32 == 0 && soff % 32 == 0 && decide (off + extent r.1 stride (packedBytes code r.2) ≤ 48 * 2 ^ 20) &&
  (!mx || decide (soff + (if kout then extent blocks scaleStride n else extent n scaleStride blocks) ≤ 48 * 2 ^ 20))

/-- Check 5: addresses. With TO_CHUTE an MX output sends its scales in the entry, and OUT_SCALE_ADDR is not looked at (DESIGN
CHOICE, log 106). -/
def millPlaces (d : Dev) (tile : Nat) (o : Op) : Bool :=
  let m := o.f 64 2
  let n := o.f 66 2
  let k := o.f 68 4
  let mode := o.f 74 1
  let outCode := bits (o.f 112 2) 5 0
  let outMx := bit (o.f 112 2) 6
  (o.opcode != 0x0101 ||
    (operandPlace (bits (o.f 60 2) 5 0) (bit (o.f 60 2) 6) (bit mode 3) m k (o.f 32 4) (o.f 48 4) (o.f 40 4) (o.f 56 2) &&
     operandPlace (bits (o.f 62 2) 5 0) (bit (o.f 62 2) 6) (bit mode 4) n k (o.f 36 4) (o.f 52 4) (o.f 44 4) (o.f 58 2))) &&
  (!o.drains ||
    ((if o.toChute then
        (match o.drainChute d with
        | none => false
        | some c => c.producer == tile)
      else localOrGddr d tile (o.f 80 8) (extent m (o.f 104 4) (packedBytes outCode n)) &&
        (!outMx || localOrGddr d tile (o.f 88 8) (extent m (o.f 116 2) ((n + 31) / 32)))) &&
     (o.fuse == 0 || localOrGddr d tile (o.f 96 8) (extent m (o.f 108 4) (packedBytes (bits (o.f 114 2) 5 0) n)))))

/-- Checks 1 to 5 of Table 5.4, at fetch. -/
def millFetchCheck (d : Dev) (tile : Nat) (o : Op) : Option Byte :=
  if !(millReserved o) then some stBadDescriptor
  else if o.opcode = 0x0103 then none
  else if !(millFormats o) then some stBadFormat
  else if o.drains && 2 ≤ o.f 75 1 % 4 then some stBadRounding
  else if !(millShape d o) then some stBadShape
  else if !(millPlaces d tile o) then some stBadAddress
  else none

/-! ## Sets and claims -/

/-- A tile's Mill. -/
def getMill (d : Dev) (tile : Nat) : Mill := tgetD d.mills tile {}

/-- A tile's Mill with `f` applied. -/
def modMill (d : Dev) (tile : Nat) (f : Mill → Mill) : Dev := { d with mills := tput d.mills tile (f (getMill d tile)) }

/-- Layers of a set. -/
def AccSet.span (s : AccSet) : Nat := Sys2Proof.Machine.span s.fmt.toNat s.shape.toNat

/-- Two runs of layers overlap. -/
def layersMeet (h1 n1 h2 n2 : Nat) : Bool := decide (h1 < h2 + n2 ∧ h2 < h1 + n1)

/-- The set claimed at a handle. -/
def setAt (d : Dev) (tile h : Nat) : Option AccSet := (getMill d tile).sets.find? fun s => s.handle == h

/-- The set with `f` applied. -/
def modSet (d : Dev) (tile h : Nat) (f : AccSet → AccSet) : Dev :=
  modMill d tile fun m => { m with sets := m.sets.map fun s => if s.handle == h then f s else s }

/-- Sets whose layers an operation's set would share. -/
def setsMet (d : Dev) (tile : Nat) (o : Op) : List AccSet :=
  (getMill d tile).sets.filter fun s => layersMeet s.handle s.span o.handle (span o.accFmt o.accShape)

/-- The claims of a control cycle in the order of their grants: the pointer stands behind the last of them (R62). -/
def lastClaim (p : Nat) (rings : List Nat) : Nat :=
  (rings.foldl (fun best r => match best with
    | none => some r
    | some b => if firstFrom p 16384 [b, r] == some r then some b else some r) none).elim p fun r => (r + 1) % 16384

/-- A claim of free layers is granted: it joins those of its control cycle, and the pointer follows (R62, R63, R139). -/
def noteClaim (d : Dev) (tile ring : Nat) : Dev :=
  let fresh : ClaimCycle := { cycle := cycle d, pointer := tgetD d.hub.claimPtr tile 0 }
  let c := match tget d.hub.claimNow tile with
    | none => fresh
    | some c => if c.cycle = cycle d then c else fresh
  let c1 := { c with rings := c.rings ++ [ring] }
  { d with hub.claimNow := tput d.hub.claimNow tile c1, hub.claimPtr := tput d.hub.claimPtr tile (lastClaim c1.pointer c1.rings) }

/-- Checks 6 and 7 of Table 5.4, at issue, and the claim (R63, R139): a status, or the device with the set claimed. -/
def millClaim (d : Dev) (tile ring : Nat) (o : Op) : Except Byte Dev :=
  let met := setsMet d tile o
  if met.any fun s => s.owner != ring then .error stAccBusy
  else if o.opcode = 0x0103 then .ok d
  else match met with
    | [] =>
      let s : AccSet := { handle := o.handle, owner := ring, fmt := BitVec.ofNat 6 o.accFmt, shape := BitVec.ofNat 2 o.accShape
                          claimedAt := cycle d, claimedBy := o.seq }
      .ok (modMill (noteClaim d tile ring) tile fun m => { m with sets := m.sets ++ [s] })
    | [s] =>
      if s.handle = o.handle && s.fmt.toNat = o.accFmt && s.shape.toNat = o.accShape then .ok d else .error stBadShape
    | _ => .error stBadShape

/-- An operation names a set: the Mill's three opcodes and CONV_MILL, by handle (R140, Table 5.10). -/
def namesSet (o : Op) (h : Nat) : Bool :=
  (o.opcode == 0x0101 || o.opcode == 0x0102 || o.opcode == 0x0103 || o.opcode == 0x0301) && o.handle == h

/-- WRITERS of Table 5.10: MILL_MATMUL and CONV_MILL operations naming a set that are issued and not retired. -/
def writers (d : Dev) (tile h : Nat) : Nat :=
  (d.hub.rings.flatMap fun e => if targetOf e.2.target = some (.mill tile) then e.2.ops.filter fun o =>
    o.phase != .fetched && !o.failedFetch && (o.opcode == 0x0101 || o.opcode == 0x0301) && o.handle == h else []).length

/-- READ_HOLDS of Table 5.10: Loom operations that hold a read on a set. -/
def readHolds (d : Dev) (tile h : Nat) : Nat :=
  (d.hub.rings.flatMap fun e => if targetOf e.2.target = some (.loom tile 1) then e.2.ops.filter fun o =>
    o.phase != .fetched && (o.holds.map (·.1)).contains h else []).length

/-- A claim is given up (R140). -/
def releaseSet (d : Dev) (tile h : Nat) : Dev :=
  modMill d tile fun m => { m with sets := m.sets.filter fun s => s.handle != h }

/-- At a success-class retirement of an operation that releases: the claim goes unless a later operation of its ring names
the set in flight (R140). -/
def releaseAtRetire (d : Dev) (tile ring : Nat) (o : Op) : Dev :=
  let later := match getRing d ring with
    | none => false
    | some r => r.ops.any fun p => p.seq != o.seq && p.inFlight && !p.failedFetch && namesSet p o.handle
  match setAt d tile o.handle with
  | none => d
  | some s => if s.owner = ring && !later then releaseSet d tile o.handle else d

/-- A set is marked stale (R64). -/
def staleSet (d : Dev) (tile h : Nat) : Dev := modSet d tile h fun s => { s with stale := true }

/-! ## Products -/

/-- An operand element, decoded for whichever path takes it. -/
structure Operand where
  raw : Nat := 0
  int : Int := 0
  word : Internal := .zero false
deriving DecidableEq, Repr

/-- An element's operand. -/
def mkOperand (f : Fmt) (x scaleByte : Nat) : Operand :=
  { raw := x
    int := match elemVal f.code false x with
      | .fin s m e => if s then -(shiftTo m e : Int) else shiftTo m e
      | _ => 0
    word := if f.code = 0 then .zero false else decodeOperand f x scaleByte }

/-- The products of one position (Tables 3.8 and 4.1, R114). -/
def pairProducts (p : MillPath) (fa fb : Fmt) (a b : Operand) : List Val :=
  match p with
  | .float => [product a.word b.word]
  | .split => splitProducts fa.scale fb.scale a.raw b.raw
  | .int => []

/-- One chunk added to an accumulator element, `none` before the first (R111, R113). -/
def addChunk (p : MillPath) (acc : Nat) (fa fb : Fmt) (start : Option Nat) (as bs : List (Option Operand)) : Nat :=
  match p with
  | .int => wrap 32 (((start.getD 0 : Nat) : Int) + (as.zipWith (fun x y => match x, y with
      | some x, some y => x.int * y.int
      | _, _ => 0) bs).foldl (· + ·) 0)
  | _ => accumulate acc start [chunkSum ((as.zipWith (fun x y => match x, y with
      | some x, some y => pairProducts p fa fb x y
      | _, _ => [padded]) bs).flatten)]

/-- Where the elements of one chunk of an operand lie: for each stored run, its address and bytes (R126). -/
def chunkRuns (base stride code : Nat) (kout : Bool) (n k c : Nat) : List (Nat × Nat) :=
  let len := min 32 (k - 32 * c)
  if kout then (List.range len).map fun i => (base + (32 * c + i) * stride, packedBytes code n)
  else (List.range n).map fun r => (base + r * stride + packedBytes code (32 * c), packedBytes code len)

/-- Where the scale bytes of one chunk lie (R126): one row for KOUT = 1, one byte of each row for KOUT = 0. -/
def scaleRuns (base stride : Nat) (mx kout : Bool) (n c : Nat) : List (Nat × Nat) :=
  if !mx then [] else if kout then [(base + c * stride, n)] else (List.range n).map fun r => (base + r * stride + c, 1)

/-- The chunk's operands by row, 32 positions each; missing positions are `none` (R104). -/
def chunkOperands (f : Fmt) (kout : Bool) (n k c : Nat) (runs scales : List Bytes) : List (List (Option Operand)) :=
  let len := min 32 (k - 32 * c)
  (List.range n).map fun r =>
    let sb := if !f.mx then 127 else if kout then fld (scales.getD 0 []) r 1 else fld (scales.getD r []) 0 1
    (List.range 32).map fun i =>
      if i < len then
        some (mkOperand f (if kout then unpackElem f.code (runs.getD i []) r else unpackElem f.code (runs.getD r []) i) sb)
      else none

/-- One side of a product. -/
structure Side where
  fmt : Fmt
  kout : Bool
  n : Nat
  base : Nat
  stride : Nat
  scaleBase : Nat
  scaleStride : Nat
deriving DecidableEq, Repr

/-- A chunk's operands by row of one side: 32 positions each, `none` for a padded one. -/
abbrev ChunkRows := List (List (Option Operand))

/-- The chunk's operands of one side, read from memory. -/
def readSide (d : Dev) (n : OpName) (s : Side) (k c : Nat) : Dev × Except Byte ChunkRows :=
  let runs := chunkRuns s.base s.stride s.fmt.code s.kout s.n k c
  let scales := scaleRuns s.scaleBase s.scaleStride s.fmt.mx s.kout s.n c
  let r := readAll d (some n) (scales ++ runs)
  (r.1, r.2.map fun bs => chunkOperands s.fmt s.kout s.n k c (bs.drop scales.length) (bs.take scales.length))

/-- Both sides of a chunk of a matrix product. -/
def readSides (n : OpName) (a b : Side) (k c : Nat) (d : Dev) : Dev × Except Byte (ChunkRows × ChunkRows) :=
  match readSide d n a k c with
  | (d1, .error st) => (d1, .error st)
  | (d1, .ok as) =>
    let y := readSide d1 n b k c
    (y.1, y.2.map fun bs => (as, bs))

/-- The chunks of a product in ascending order (R111): accumulator elements by row, or the status that ends it, with
whether a chunk had been added by then (R131). `rd` reads chunk c. -/
def productChunks (p : MillPath) (acc : Nat) (fa fb : Fmt) (rd : Nat → Dev → Dev × Except Byte (ChunkRows × ChunkRows)) :
    Nat → Nat → Dev × List (List (Option Nat)) → Dev × Except (Byte × Bool) (List (List (Option Nat)))
  | 0, _, s => (s.1, .ok s.2)
  | fuel + 1, c, s =>
    match rd c s.1 with
    | (d, .error st) => (d, .error (st, c != 0))
    | (d, .ok x) =>
      let next := (x.1.zip s.2).map fun row => (x.2.zip row.2).map fun col => some (addChunk p acc fa fb col.2 row.1 col.1)
      productChunks p acc fa fb rd fuel (c + 1) (d, next)

/-- The operands of a MILL_MATMUL. -/
def millSides (tile : Nat) (o : Op) : Side × Side :=
  let mode := o.f 74 1
  ({ fmt := fmtOf (o.f 60 2), kout := bit mode 3, n := o.f 64 2, base := sramBase tile + o.f 32 4, stride := o.f 48 4
     scaleBase := sramBase tile + o.f 40 4, scaleStride := o.f 56 2 },
   { fmt := fmtOf (o.f 62 2), kout := bit mode 4, n := o.f 66 2, base := sramBase tile + o.f 36 4, stride := o.f 52 4
     scaleBase := sramBase tile + o.f 44 4, scaleStride := o.f 58 2 })

/-- Element (i, j) of a set. -/
def AccSet.elem (s : AccSet) (i j : Nat) : Nat := (s.elems.getD (i * (shapeDims s.shape.toNat).2 + j) 0).toNat

/-- The M × N elements a product starts from: none under SET, the set's own under ADD (R129). -/
def startElems (s : AccSet) (add : Bool) (m n : Nat) : List (List (Option Nat)) :=
  (List.range m).map fun i => (List.range n).map fun j => if add then some (s.elem i j) else none

/-- A set's elements after a product: the product's own, and elsewhere +0 under SET or what was there under ADD (R112,
R129). -/
def storeElems (s : AccSet) (add : Bool) (m n : Nat) (res : List (List (Option Nat))) : List W32 :=
  let dims := shapeDims s.shape.toNat
  (List.range dims.1).flatMap fun i => (List.range dims.2).map fun j =>
    let old := if add then s.elem i j else 0
    BitVec.ofNat 32 (if i < m && j < n then ((res.getD i []).getD j none).getD old else old)

/-! ## Drains (R132 to R137) -/

/-- An INT32 element and a fused value m × 2^e, added exactly and wrapped modulo 2^32 to the INT32 range; a fraction that a
negative TSCALE leaves stays in the result (R90, R132; DEDUCED, log 106). -/
def fusedSum (a : Nat) (s : Bool) (m : Nat) (e : Int) : Val :=
  let low := (-e).toNat
  let f : Int := m * 2 ^ e.toNat
  intVal (signed (32 + low) (wrap (32 + low) (signed 32 a * 2 ^ low + (if s then -f else f)))) (-low)

/-- A drained element before its conversion (R132, R133). -/
def drainElement (acc : Nat) (fuse : Nat) (a : Nat) (f : Val) : Val :=
  let av := elemVal acc false a
  if fuse = 0 then av
  else if acc = 0x0B && fuse = 1 then
    (match f with
    | .fin s m e => fusedSum a s m e
    | _ => av)
  else if fuse = 1 then f32 (BitVec.ofNat 32 (addFmt 0 av f))
  else f32 (toF32 (mulVal av f))

/-- A converted row: its packed elements, its scale bytes, its SAT_HIT and NONFINITE_IN counts. -/
structure OutRow where
  data : Bytes
  scales : Bytes
  sat : Nat
  nonfinite : Nat
deriving DecidableEq, Repr

/-- A row written in a format under a rounding control: block by block with MX, else element by element (R96, R98). -/
def convertRow (f : Fmt) (rc : Nat) (xs : List Val) : OutRow :=
  if f.mx then
    let blocks := (List.range ((xs.length + 31) / 32)).map fun b => convertBlock f rc [] ((xs.drop (32 * b)).take 32)
    let convs := blocks.flatMap (·.2)
    { data := packElems f.code (convs.map (·.pat)), scales := blocks.map fun b => BitVec.ofNat 8 b.1
      sat := (convs.filter (·.sat)).length, nonfinite := (convs.filter (·.nonfinite)).length }
  else
    let convs := xs.map (convert f rc 0)
    { data := packElems f.code (convs.map (·.pat)), scales := []
      sat := (convs.filter (·.sat)).length, nonfinite := (convs.filter (·.nonfinite)).length }

/-- STEP and MICRO_BATCH of an operation's entries: those of the Sequencer on a stage ring, zero on a privileged ring
(R136). -/
def entryStamp (n : OpName) (o : Op) : Nat × Nat := if privileged n.ring then (0, 0) else (o.micro.toNat, o.step.toNat)

/-- A Mill operation has failed: its set is stale if it had written it (R64, R131, R145, R146). -/
def spoilSet (d : Dev) (tile : Nat) (n : OpName) : Dev :=
  match getOp d n with
  | none => d
  | some o => if o.wroteSet then staleSet d tile o.handle else d

/-- A drain ends in failure (R145). -/
def failDrain (d : Dev) (tile : Nat) (n : OpName) (outs : List (Nat × Nat)) (st : Byte) : Dev :=
  finishOp (spoilSet d tile n) n outs (.error st)

/-- The places of a drain's output in memory, row by row, with its scale rows (R127). -/
def drainRows (o : Op) : List (Nat × Nat) :=
  let cols := o.f 66 2
  let fmt := fmtOf (o.f 112 2)
  ((List.range (o.f 64 2)).map fun i => (o.f 80 8 + i * o.f 104 4, packedBytes fmt.code cols)) ++
  (if fmt.mx then (List.range (o.f 64 2)).map fun i => (o.f 88 8 + i * o.f 116 2, (cols + 31) / 32) else [])

/-- The drain of a set (R132 to R137): rows 0 to M − 1 and columns 0 to N − 1 go out to memory or to a chute, counted for
the census. -/
def drainSet (d : Dev) (tile : Nat) (n : OpName) (o : Op) (s : AccSet) : Dev :=
  let m := o.f 64 2
  let cols := o.f 66 2
  let fw := o.f 112 2
  let fmt := fmtOf fw
  let ff := fmtOf (o.f 114 2)
  let rc := o.f 75 1 % 16
  let outs := if o.toChute then [] else drainRows o
  let fused := if o.fuse = 0 then (d, .ok []) else readAll d (some n)
    ((List.range m).map fun i => (o.f 96 8 + i * o.f 108 4, packedBytes ff.code cols))
  match fused.2 with
  | .error st => failDrain fused.1 tile n outs st
  | .ok rows =>
    let out := (List.range m).map fun i => convertRow fmt rc ((List.range cols).map fun j =>
      drainElement s.fmt.toNat o.fuse (s.elem i j) (readVal ff (unpackElem ff.code (rows.getD i []) j) 127))
    let sat := out.foldl (fun t r => t + r.sat) 0
    let nf := out.foldl (fun t r => t + r.nonfinite) 0
    let detail := min sat 0xFFFFFFFF + 2 ^ 32 * min nf 0xFFFFFFFF
    let d1 := countEvent fused.1 evMillDrain (m * cols) (tileDie tile) (some tile) (some n.ring)
    let add : CensusAdd := { tensor := o.f 118 2 % 4096, saturated := sat, nonfinite := nf }
    let d2 := modOp d1 n fun o => { o with census := o.census ++ [add] }
    if o.toChute then
      let payload := (out.flatMap (·.data)) ++ (out.flatMap (·.scales))
      let stamp := entryStamp n o
      let header := chuteHeader n.ring n.seq.toNat stamp.1 (stamp.2 % 2 ^ 32) (o.f 118 2 % 4096) (o.f 120 2) (o.f 122 2) (fw % 256) true
        payload.length
      finishSending d2 n [{ consumer := o.f 80 1 % 64, queue := bits (o.f 80 2) 11 8, header := header, payload := payload }] detail
    else
      let w := writeAll d2 (some n)
        (out.zipIdx.map (fun r => (o.f 80 8 + r.2 * o.f 104 4, r.1.data)) ++
         (if fmt.mx then out.zipIdx.map (fun r => (o.f 88 8 + r.2 * o.f 116 2, r.1.scales)) else []))
      match w.2 with
      | some st => failDrain w.1 tile n [] st
      | none => completeOp w.1 n stOk detail

/-! ## Meanings -/

/-- A product of `k` positions goes into a set, or ends the operation (R129, R131, R145); `k` after the set is written. -/
def productInto (tile : Nat) (n : OpName) (o : Op) (s : AccSet) (add : Bool) (m cols k : Nat) (fa fb : Fmt)
    (rd : Nat → Dev → Dev × Except Byte (ChunkRows × ChunkRows)) (d : Dev) (after : AccSet → Dev → Dev) : Dev :=
  if add && s.stale then completeOp d n stAccStale
  else
    let path := (millPath fa fb).getD .float
    let r := productChunks path o.accFmt fa fb rd ((k + 31) / 32) 0 (d, startElems s add m cols)
    match r.2 with
    | .error e => finishOp (if e.2 then staleSet r.1 tile o.handle else r.1) n [] (.error e.1)
    | .ok res =>
      let s1 := { s with elems := storeElems s add m cols res, stale := if add then s.stale else false }
      let d1 := countEvent r.1 evMillChunk ((k + 31) / 32) (tileDie tile) (some tile) (some n.ring)
      after s1 (modOp (modSet d1 tile o.handle fun _ => s1) n fun o => { o with wroteSet := k != 0 || !add })

/-- MILL_MATMUL (R129 to R132). -/
def millMatmul (n : OpName) : Dev → Dev := engineOp 0x0101 n fun t o d =>
  match t, t.tile.bind fun tile => setAt d tile o.handle with
  | .mill tile, some s =>
    let k := o.f 68 4
    let sides := millSides tile o
    productInto tile n o s (bit (o.f 74 1) 0) (o.f 64 2) (o.f 66 2) k sides.1.fmt sides.2.fmt (readSides n sides.1 sides.2 k) d
      fun s1 d => if o.drains then drainSet d tile n o s1 else completeOp d n stOk
  | _, _ => d

/-- MILL_DRAIN (R132). -/
def millDrain (n : OpName) : Dev → Dev := engineOp 0x0102 n fun t o d =>
  match t, t.tile.bind fun tile => setAt d tile o.handle with
  | .mill tile, some s => if s.stale then completeOp d n stAccStale else drainSet d tile n o s
  | _, _ => d

/-- MILL_RELEASE (R140): it completes here, and its retirement gives up the claim. -/
def millRelease (n : OpName) : Dev → Dev := engineOp 0x0103 n fun _ _ d => completeOp d n stOk

/-- Core cycles without progress after which the Mill's watchdog ends an operation (R146, Table 5.9). -/
def millLimit (d : Dev) (tile : Nat) : Nat := (getMill d tile).limit.toNat * 65536

/-- MILL_WATCHDOG_EXPIRY (R146): an operation without progress for the limit ends; its set is marked stale as for any failure,
which is where the operation had written it (R131; DEDUCED, log 107). -/
def millWatchdogExpiry (n : OpName) (d : Dev) : Dev :=
  match issuedOp d n, ringTarget d n.ring with
  | some o, some (.mill tile) =>
    if o.sends.isEmpty && decide (o.progressAt + millLimit d tile ≤ engineCycles d (.mill tile)) then
      completeOp (spoilSet d tile n) n stEngineTimeout
    else d
  | _, _ => d

def execMillMatmul (ring : Nat) (seq : W32) (s : State) : Out := act s (running (millMatmul { ring := ring, seq := seq }))
def execMillDrain (ring : Nat) (seq : W32) (s : State) : Out := act s (running (millDrain { ring := ring, seq := seq }))
def execMillRelease (ring : Nat) (seq : W32) (s : State) : Out := act s (running (millRelease { ring := ring, seq := seq }))
def execMillWatchdogExpiry (ring : Nat) (seq : W32) (s : State) : Out :=
  act s (running (millWatchdogExpiry { ring := ring, seq := seq }))

end Sys2Proof.Machine
end

