-- ==== Sys2Proof/Machine/Badger.lean ====
section
/-! DEFINITION. The Badger: tables, lists, pooling, ledgers, the sparse update and migration (08). -/

namespace Sys2Proof.Machine

/-! ## Table records (Tables 8.2 and 8.3, R211 to R213) -/

/-- A Badger. -/
def getBadger (d : Dev) (tile : Nat) : Badger := tgetD d.badgers tile {}

/-- A Badger with `f` applied. -/
def modBadger (d : Dev) (tile : Nat) (f : Badger → Badger) : Dev :=
  { d with badgers := tput d.badgers tile (f (getBadger d tile)) }

/-- A table record (Table 8.2). -/
structure TableRec where
  rows : Nat
  rowMod : Nat
  rowRem : Nat
  dim : Nat
  fmt : Fmt
  stride : Nat
  opt : Nat
  wTid : Nat
  mTid : Nat
  vTid : Nat
  updRing : Nat
  mFmt : Fmt
  vFmt : Fmt
  slots : List Nat
  bases : List Nat
  entries : Nat
  map : Nat
  ledger : Nat
  occ : Nat
deriving DecidableEq, Repr

/-- The record's fields on a tile (Table 8.2): slots and bases by tier 0 Sett, 1 GDDR7, 2 Cellar. -/
def tableRec (tile : Nat) (b : Bytes) : TableRec :=
  { rows := fld b 0 4, rowMod := fld b 4 1, rowRem := fld b 5 1, dim := fld b 6 2, fmt := fmtOf (fld b 8 2)
    stride := fld b 10 2, opt := fld b 12 1 % 4, wTid := fld b 14 2 % 4096, mTid := fld b 16 2 % 4096
    vTid := fld b 18 2 % 4096, updRing := fld b 20 2, mFmt := fmtOf (fld b 22 2), vFmt := fmtOf (fld b 24 2)
    slots := [fld b 28 4, fld b 36 4, fld b 56 4]
    bases := [sramBase tile + fld b 32 4, fld b 40 8, fld b 48 8]
    entries := fld b 60 4, map := fld b 64 8, ledger := fld b 72 8, occ := fld b 80 8 }

/-- An installed table. -/
def getTable (d : Dev) (tile t : Nat) : Option TableRec := (tget (getBadger d tile).tables t).map (tableRec tile)

/-- Next multiple of `k`. -/
def roundUp (k n : Nat) : Nat := (n + k - 1) / k * k

/-- WB: bytes of a record's weights (R211). -/
def TableRec.wb (t : TableRec) : Nat := packedBytes t.fmt.code t.dim

/-- SOFF: where the state begins (R211). -/
def TableRec.soff (t : TableRec) : Nat := roundUp 32 t.wb

/-- Where AdamW's second moments begin (R211). -/
def TableRec.voff (t : TableRec) : Nat := roundUp 32 (t.soff + packedBytes t.mFmt.code t.dim)

/-- Bytes of the layout of R211. -/
def TableRec.layout (t : TableRec) : Nat :=
  if t.opt = 2 then t.soff + 4 else if t.opt = 3 then t.voff + packedBytes t.vFmt.code t.dim else t.wb

/-- Bytes of a ledger entry (R222). -/
def TableRec.entryBytes (t : TableRec) : Nat := 64 + 4 * t.dim + t.stride

/-- Device address of a tier's slot (R213). -/
def TableRec.slotAddr (t : TableRec) (tier slot : Nat) : Nat := t.bases.getD tier 0 + slot * t.stride

/-- Byte address and bit of a slot's occupancy bit: three runs, each from a multiple of 64 bytes (R213). -/
def TableRec.occBit (t : TableRec) (tier slot : Nat) : Nat × Nat :=
  let run (k : Nat) : Nat := roundUp 64 ((t.slots.getD k 0 + 7) / 8)
  let start := if tier = 0 then 0 else if tier = 1 then run 0 else run 0 + run 1
  (t.occ + start + slot / 8, slot % 8)

/-- What a row identifier names (R212). -/
inductive RowKind where
  | null | foreign | outOfRange
  | mine (index : Nat)
deriving DecidableEq, Repr

/-- The kind of a row identifier (R212). -/
def TableRec.kind (t : TableRec) (g : Nat) : RowKind :=
  if g = 0xFFFFFFFFFFFFFFFF then .null
  else if t.rows * t.rowMod ≤ g then .outOfRange
  else if g % t.rowMod = t.rowRem then .mine (g / t.rowMod)
  else .foreign

/-- A row's map entry: its tier and slot (Table 8.3). -/
def readMap (d : Dev) (n : OpName) (t : TableRec) (index : Nat) : Dev × Except Byte (Nat × Nat) :=
  let r := readMem d (some n) (t.map + 4 * index) 4
  (r.1, r.2.map fun b => (bits (fld b 0 4) 31 30, bits (fld b 0 4) 29 0))

/-- One row request to a tier (Tables 8.15 and 17.13). -/
def countRow (d : Dev) (tile tier : Nat) (ring : Nat) : Dev :=
  let d1 := modBadger d tile fun b => { b with tierReq := modAt b.tierReq tier (· + 1) }
  let d2 := countEvent d1 evBadgerRow 1 (tileDie tile) (some tile) (some ring)
  if tier = 2 then countEvent d2 evBadgerCellarRow 1 (tileDie tile) (some tile) (some ring) else d2

/-- Packed elements as FP32 lanes, under the VLDF rule (R168, R216). -/
def decodeRow (f : Fmt) (dim : Nat) (b : Bytes) : Lanes :=
  (List.range dim).map fun i => toF32 (readVal f (unpackElem f.code b i) 127)

/-! ## Lists (R214, Table 8.4) -/

/-- A list. -/
structure RowList where
  ids : List Nat
  /-- The entries of each bag. -/
  bags : List (List Nat)
  weights : Option (List W32)
deriving DecidableEq, Repr

/-- The weight of an entry, 1.0 without weights (R217). -/
def RowList.weight (l : RowList) (i : Nat) : W32 := match l.weights with
  | none => 0x3F800000
  | some w => w.getD i 0

/-- Reads the list in the `room` bytes from `a`, with the checks of R214. -/
def readList (d : Dev) (n : OpName) (a room : Nat) : Dev × Except Byte RowList :=
  if room < 16 then (d, .error stBadShape)
  else match readMem d (some n) a 16 with
    | (d1, .error st) => (d1, .error st)
    | (d1, .ok h) =>
      let cnt := fld h 0 4
      let bags := fld h 4 4
      let off := 16 + 8 * cnt
      let wat := off + (if bags = 0 then 0 else 4 * (bags + 1))
      let len := wat + (if bit (fld h 8 1) 0 then 4 * cnt else 0)
      if 1048576 < cnt || 65536 < bags || room < len then (d1, .error stBadShape)
      else match readMem d1 (some n) a len with
        | (d2, .error st) => (d2, .error st)
        | (d2, .ok b) =>
          let offs := (List.range (bags + 1)).map fun i => fld b (off + 4 * i) 4
          let okOffs := bags == 0 || (offs.getD 0 0 == 0 && offs.getD bags 0 == cnt &&
            (offs.zip offs.tail).all fun e => e.1 ≤ e.2)
          if !okOffs then (d2, .error stBadShape)
          else (d2, .ok
            { ids := (List.range cnt).map fun i => fld b (16 + 8 * i) 8
              bags := if bags = 0 then (List.range cnt).map fun i => [i]
                else (offs.zip offs.tail).map fun e => (List.range (e.2 - e.1)).map (· + e.1)
              weights := if bit (fld h 8 1) 0 then some ((List.range cnt).map fun i => BitVec.ofNat 32 (fld b (wat + 4 * i) 4))
                else none })

/-- The entry of a queue that an operation works from: the one it took before, or the oldest it may take (R215, R34). -/
def chuteEntry (d : Dev) (tile q : Nat) (n : OpName) : Option Entry :=
  (getChute d tile q).bind fun c => (c.entries.find? fun e => e.st.takenBy n).or (c.takeable n.ring)

/-! ## Checks at fetch (Table 8.10) -/

/-- The row section of a pooling program ends in ACCMAX. -/
def PoolProgram.maxes (p : PoolProgram) : Bool := (p.rows.getLast?.map fun w => bits w.toNat 63 56 == 0x11) == some true

/-- The program that a gather runs: that of its slot, or the one which its slot held when it was issued and which a later
load replaced, kept at a number of 16 or more (R217, R183). -/
def gatherProgram (d : Dev) (tile : Nat) (o : Op) : Option PoolProgram :=
  tget (getBadger d tile).programs (if o.image = 0 then o.f 34 1 else o.image)

/-- A gather pools with ACCMAX (R218). -/
def gatherMaxes (d : Dev) (tile : Nat) (o : Op) : Bool :=
  o.f 33 1 == 3 || (o.f 33 1 == 5 && ((gatherProgram d tile o).map PoolProgram.maxes).getD true)

/-- The queue's operand is used where its bit of CTL is set, else zero. -/
def queueField (used : Bool) (v : Nat) : Bool := if used then v < 16 else v == 0

/-- Check 1 of Table 8.10. -/
def badgerReserved (d : Dev) (tile ring : Nat) (o : Op) : Bool :=
  let ctl := o.f 35 1
  let table := getTable d tile (o.f 32 1)
  o.f 32 1 < 64 &&
  (match table with
  | none => false
  | some t =>
    if o.opcode = 0x0401 then
      o.f 33 1 < 6 && (o.f 33 1 == 0 || t.rowMod == 1) && (if o.f 33 1 = 5 then o.f 34 1 < 16 else o.f 34 1 == 0) && ctl < 4 &&
      queueField (bit ctl 0) (o.f 36 1) && o.f 37 1 < 16 && !(bit (o.f 37 1) 3) && !(bit (o.f 38 2) 7) &&
      (!(bit ctl 0) || o.f 40 4 == 0) &&
      (!(bit ctl 1) || (o.f 44 4 == 0 && (o.f 48 8) % 64 + bits (o.f 48 8) 11 8 * 256 == o.f 48 8)) &&
      (gatherMaxes d tile o || o.zero 56 8) && o.f 64 2 < 4096 && o.zero 70 58
    else if o.opcode = 0x0402 then
      o.f 33 1 < 4 && o.f 34 1 == 0 && ctl < 4 && queueField (bit ctl 0) (o.f 36 1) && queueField (bit ctl 1) (o.f 37 1) &&
      !(ctl == 3 && o.f 36 1 == o.f 37 1) && !(bit (o.f 38 2) 7) && (!(bit ctl 0) || o.f 40 4 == 0) &&
      (!(bit ctl 1) || (o.f 44 4 == 0 && o.zero 48 8)) && o.zero 56 72 && t.updRing == ring
    else if o.opcode = 0x0403 then
      o.f 33 1 == 0 && o.f 34 1 < 16 && !(bit (o.f 34 1) 3) && o.zero 35 5 && o.zero 48 80 && t.opt != 0 && t.updRing == ring
    else o.zero 33 3 && 1 ≤ o.f 36 4 && o.f 36 4 ≤ 1048576 && o.zero 48 80)

/-- A format word with MX clear whose code `ok` allows. -/
def plainFmt (w : Nat) (ok : Nat → Bool) : Bool := !(fmtWordBad w) && !(bit w 6) && ok (bits w 5 0)

/-- A range lies in a tile's own SRAM or in GDDR7, or is empty. -/
def settOrGddr (d : Dev) (tile a len : Nat) : Bool := localOrGddr d tile a (max len 1)

/-- Check 5 of Table 8.10. -/
def badgerPlaces (d : Dev) (tile : Nat) (o : Op) : Bool :=
  let ctl := o.f 35 1
  let listOk := if bit ctl 0 then (getChute d tile (o.f 36 1)).isSome else o.f 40 4 % 16 == 0 && o.f 40 4 < tileCapacity tile
  if o.opcode = 0x0401 then
    listOk &&
    (if bit ctl 1 then ((getChute d (o.f 48 1 % 64) (bits (o.f 48 2) 11 8)).map (·.producer)) == some tile
     else settOrGddr d tile (o.f 48 8) 1) &&
    (o.zero 56 8 || settOrGddr d tile (o.f 56 8) 1)
  else if o.opcode = 0x0402 then
    listOk && (if bit ctl 1 then (getChute d tile (o.f 37 1)).isSome else settOrGddr d tile (o.f 48 8) 1)
  else if o.opcode = 0x0403 then settOrGddr d tile (o.f 40 8) 64
  else o.f 40 8 % 16 == 0 && settOrGddr d tile (o.f 40 8) (16 * o.f 36 4)

/-- The output rows of a gather hold whole groups of a sub-byte format (R86). -/
def gatherGroupsWhole (d : Dev) (tile : Nat) (o : Op) : Bool :=
  (getTable d tile (o.f 32 1)).all fun t => t.dim % packGroup (bits (o.f 38 2) 5 0) == 0

/-- The checks of Table 8.10, at fetch. The rule of R86 follows that of the formats (DEDUCED, log 108). -/
def badgerFetchCheck (d : Dev) (tile ring : Nat) (o : Op) : Option Byte :=
  if !(badgerReserved d tile ring o) then some stBadDescriptor
  else if (o.opcode == 0x0401 && !(plainFmt (o.f 38 2) (· < 12))) ||
      (o.opcode == 0x0402 && !(plainFmt (o.f 38 2) (· < 3))) then some stBadFormat
  else if o.opcode == 0x0401 && !(gatherGroupsWhole d tile o) then some stBadShape
  else if (o.opcode == 0x0401 && 2 ≤ o.f 37 1 % 4) || (o.opcode == 0x0403 && o.f 34 1 % 4 == 3) then some stBadRounding
  else if o.opcode = 0x0401 && o.f 33 1 = 5 && !(thas (getBadger d tile).programs (o.f 34 1)) then some stProgramNotLoaded
  else if !(badgerPlaces d tile o) then some stBadAddress
  else none

/-! ## Pooling programs (R217, Table 8.7) -/

/-- FP32 operations, each rounded once to nearest even (R157). -/
def fpMul (a b : W32) : W32 := laneFp 0 0 true (fun _ => mulVal (f32 a) (f32 b)) [a, b]
def fpAdd (a b : W32) : W32 := laneFp 0 0 true (fun _ => addVal (f32 a) (f32 b)) [a, b]
def fpFma (a b c : W32) : W32 := laneFp 0 0 true (fun _ => fusedVal (f32 a) (f32 b) (f32 c)) [a, b, c]
def fpDiv (a b : W32) : W32 := laneFp 0 0 true (fun _ => quotVal (f32 a) (f32 b)) [a, b]
def fpSqrt (a : W32) : W32 := laneFp 0 0 true (fun _ => rootVal (f32 a)) [a]

/-- A pooling instruction on the working registers, with its immediate. -/
abbrev PoolOp := W32 → PoolRegs → PoolRegs

/-- XMULW: X ← X × w. -/
def poolXmulw : PoolOp := fun _ r => { r with x := r.x.map fun x => fpMul x r.w }
/-- XMULI: X ← X × IMM. -/
def poolXmuli : PoolOp := fun i r => { r with x := r.x.map fun x => fpMul x i }
/-- XADDI: X ← X + IMM. -/
def poolXaddi : PoolOp := fun i r => { r with x := r.x.map fun x => fpAdd x i }
/-- XMAXI: X ← max(X, IMM). -/
def poolXmaxi : PoolOp := fun i r => { r with x := r.x.map fun x => fpExtreme true [x, i] }
/-- XMINI: X ← min(X, IMM). -/
def poolXmini : PoolOp := fun i r => { r with x := r.x.map fun x => fpExtreme false [x, i] }
/-- XABS: X ← |X|; a NaN gives the positive canonical one (R157). -/
def poolXabs : PoolOp := fun _ r => { r with x := r.x.map fun x => toF32 ((f32 x).withSign false) }

/-- The ordered sum of a bag's positions, a null entry's padded (R103, R217). -/
def bagSum (dim : Nat) (terms : List (Option Lanes)) : Lanes :=
  (List.range dim).map fun j => BitVec.ofNat 32 (reduceFloat 0 none terms.length fun k => match terms.getD k none with
    | none => [padded]
    | some x => [f32 (x.getD j 0)])

/-- ACCSUM: X enters the bag's ordered sum at the next position. -/
def poolAccsum : PoolOp := fun _ r =>
  let terms := r.terms ++ [some r.x]
  { r with terms := terms, a := bagSum r.x.length terms }

/-- One element of ACCMAX: whether the new value wins over the old one (R217, R218). -/
def maxWins (a x : W32) : Bool := match f32 a, f32 x with
  | .nan _, _ => false
  | _, .nan _ => true
  | _, _ => fpExtreme true [a, x] != a

/-- ACCMAX: A ← max(A, X), the winner's list index kept (R217, R218). -/
def poolAccmax : PoolOp := fun _ r =>
  if r.seen then
    let won := (r.a.zip r.x).map fun e => maxWins e.1 e.2
    { r with a := (r.a.zip r.x).map fun e => fpExtreme true [e.1, e.2]
             winner := (r.winner.zip won).map fun e => if e.2 then r.entry else e.1 }
  else { r with seen := true, a := r.x.map fun x => fpExtreme true [x], winner := r.x.map fun _ => r.entry }

/-- AMULI: A ← A × IMM. -/
def poolAmuli : PoolOp := fun i r => { r with a := r.a.map fun a => fpMul a i }
/-- AADDI: A ← A + IMM. -/
def poolAaddi : PoolOp := fun i r => { r with a := r.a.map fun a => fpAdd a i }

/-- a / n, the exact result rounded once; +0 for n = 0. -/
def divCount (a : W32) (n : Nat) : W32 :=
  if n = 0 then 0 else laneFp 0 0 true (fun _ => quotVal (f32 a) (.fin false n 0)) [a]

/-- a / √n, the exact result rounded once; +0 for n = 0. -/
def divRootCount (a : W32) (n : Nat) : W32 :=
  if n = 0 then 0
  else laneFp 0 0 true (fun _ => match f32 a with
    | .fin s m e =>
      let q := isqrt (m * m * 4 ^ 64 / n) 92 0
      stickyVal s q (e - 64) (q * q * n != m * m * 4 ^ 64)
    | v => v) [a]

/-- ADIVN: A ← A / n. -/
def poolAdivn : PoolOp := fun _ r => { r with a := r.a.map fun a => divCount a r.n }
/-- ARSQN: A ← A / √n. -/
def poolArsqn : PoolOp := fun _ r => { r with a := r.a.map fun a => divRootCount a r.n }

/-- The operation of an opcode (Table 8.7). -/
def poolOp (op : Nat) : PoolOp :=
  match op with
  | 0x01 => poolXmulw
  | 0x02 => poolXmuli
  | 0x03 => poolXaddi
  | 0x04 => poolXmaxi
  | 0x05 => poolXmini
  | 0x06 => poolXabs
  | 0x10 => poolAccsum
  | 0x11 => poolAccmax
  | 0x20 => poolAmuli
  | 0x21 => poolAaddi
  | 0x22 => poolAdivn
  | _ => poolArsqn

/-- The instructions of a section, in order. -/
def runSection (l : List W64) (r : PoolRegs) : PoolRegs :=
  l.foldl (fun r w => poolOp (bits w.toNat 63 56) (w.setWidth 32) r) r

/-- An instruction word of an opcode without immediate. -/
def poolWord (op : Nat) : W64 := BitVec.ofNat 64 (op * 2 ^ 56)

/-- The program of a pooled mode (Table 8.6), or of the slot named. -/
def poolProgram (d : Dev) (tile : Nat) (o : Op) : PoolProgram :=
  match o.f 33 1 with
  | 1 => { rows := [poolWord 0x10], bags := [] }
  | 2 => { rows := [poolWord 0x10], bags := [poolWord 0x22] }
  | 3 => { rows := [poolWord 0x11], bags := [] }
  | 4 => { rows := [poolWord 0x01, poolWord 0x10], bags := [] }
  | _ => (gatherProgram d tile o).getD { rows := [], bags := [] }

/-- A bag pooled (R217): its entries' rows, `none` for a null entry, with list index and weight. -/
def poolBag (p : PoolProgram) (dim : Nat) (entries : List (Nat × W32 × Option Lanes)) : PoolRegs :=
  let start : PoolRegs := { a := List.replicate dim 0 }
  let rows := entries.foldl (fun (r : PoolRegs) e => match e.2.2 with
    | none => { r with terms := r.terms ++ [none] }
    | some x => runSection p.rows { r with x := x, w := e.2.1, entry := e.1 }) start
  -- a bag's sum also counts the null entries that stand behind its last row
  let closed := if p.maxes || rows.terms.all Option.isNone then rows else { rows with a := bagSum dim rows.terms }
  runSection p.bags { closed with n := (entries.filter fun e => e.2.2.isSome).length }

/-! ## Gather (R215 to R219) -/

/-- A list operand: `none` while the queue holds no entry for it. -/
inductive ListSource where
  | wait
  | stop (st : Byte)
  | at_ (a room : Nat)
deriving DecidableEq, Repr

/-- Where a list or a block of gradients lies: in the Sett, or in the payload of an entry, which is taken (R215, R36). -/
def takeSource (d : Dev) (tile : Nat) (n : OpName) (fromChute : Bool) (q a room : Nat) : Dev × ListSource :=
  if !fromChute then (d, .at_ a room)
  else match chuteEntry d tile q n, getChute d tile q with
    | some e, some c =>
      let d1 := takeEntry d tile q e.slot n
      if e.transit then
        (noteTransitTaken d1 n, .stop stUncorrectable)
      else (d1, .at_ (sramBase tile + c.slotOffset e.slot) e.bytes)
    | _, _ => (d, .wait)

/-- The list of a gather or scatter. -/
def listSource (d : Dev) (tile : Nat) (n : OpName) (o : Op) : Dev × ListSource :=
  takeSource d tile n (bit (o.f 35 1) 0) (o.f 36 1) (sramBase tile + o.f 40 4) (tileCapacity tile - o.f 40 4)

/-- The rows of a list in list order: `none` for a null or foreign entry. An entry out of range or unplaced ends it, with
its index (R216). -/
def readRows (d : Dev) (tile : Nat) (n : OpName) (t : TableRec) : List (Nat × Nat) → List (Nat × Lanes) →
    Dev × Except (Byte × Nat) (List (Nat × Lanes))
  | [], acc => (d, .ok acc.reverse)
  | (i, g) :: r, acc => match t.kind g with
    | .null => readRows d tile n t r acc
    | .foreign => readRows d tile n t r acc
    | .outOfRange => (d, .error (stBadAddress, i))
    | .mine index => match readMap d n t index with
      | (d1, .error st) => (d1, .error (st, 0))
      | (d1, .ok (tier, slot)) =>
        if tier = 3 then (d1, .error (stBadAddress, i))
        else match readMem (countRow d1 tile tier n.ring) (some n) (t.slotAddr tier slot) t.wb with
          | (d2, .error st) => (d2, .error (st, 0))
          | (d2, .ok b) => readRows d2 tile n t r ((i, decodeRow t.fmt t.dim b) :: acc)

/-- Operations issued to a Badger before this one that still have work to do (R209). -/
def badgerBefore (d : Dev) (tile : Nat) (n : OpName) (o : Op) : List Op :=
  ((issuedTo d (.badger tile)).filter fun e => e.2.sends.isEmpty && (e.1, e.2.seq) != (n.ring, n.seq) && e.2.stamp < o.stamp).map
    (·.2)

/-- A row of the list holds a ledger entry of an earlier step, or one that an update issued before is to apply, so a gather
waits (R220). -/
def gatherHeld (d : Dev) (tile : Nat) (n : OpName) (o : Op) (t : TableRec) (l : RowList) : Bool :=
  let table := o.f 32 1 % 64
  let before := (badgerBefore d tile n o).filter fun p => p.opcode == 0x0403 && p.f 32 1 % 64 == table
  (getBadger d tile).ledger.any fun e => e.table == table && l.ids.contains e.row.toNat &&
    (decide (e.step.toNat < o.step.toNat) || before.any fun p => p.step == e.step) &&
    (match t.kind e.row.toNat with
    | .mine _ => true
    | _ => false)

/-- Output rows of a gather: `none` for one left unwritten; and for each the indices of the winners. -/
def gatherRows (d : Dev) (tile : Nat) (o : Op) (t : TableRec) (l : RowList) (rows : List (Nat × Lanes)) :
    List (Option Lanes × List Nat) :=
  if o.f 33 1 = 0 then
    l.ids.zipIdx.map fun e => match t.kind e.1 with
      | .null => (some (List.replicate t.dim 0), [])
      | .foreign => (none, [])
      | _ => (some (((rows.find? fun r => r.1 == e.2).map (·.2)).getD []), [])
  else
    let p := poolProgram d tile o
    l.bags.map fun bag =>
      let r := poolBag p t.dim (bag.map fun i => (i, l.weight i, (rows.find? fun r => r.1 == i).map (·.2)))
      (some r.a, if r.seen then r.winner else List.replicate t.dim 0xFFFFFFFF)

/-- The rest of a gather once its list is read (R216 to R219). -/
def gatherList (tile : Nat) (n : OpName) (o : Op) (t : TableRec) (l : RowList) (d : Dev) : Dev :=
  let fmt := fmtOf (o.f 38 2)
  let nrows := if o.f 33 1 = 0 then l.ids.length else l.bags.length
  let rowBytes := packedBytes fmt.code t.dim
  let toChute := bit (o.f 35 1) 1
  let tooBig := toChute && (match getChute d (o.f 48 1 % 64) (bits (o.f 48 2) 11 8) with
    | none => false
    | some c => decide (c.slotBytes < nrows * rowBytes))
  let len := extent nrows (o.f 44 4) rowBytes
  let outs := if toChute then [] else [(o.f 48 8, len)]
  if tooBig then completeOp d n stBadShape
  else if !toChute && nrows != 0 && !(settOrGddr d tile (o.f 48 8) len) then completeOp d n stBadAddress
  else if gatherHeld d tile n o t l then waitOn d n
  else match readRows d tile n t (l.ids.zipIdx.map fun e => (e.2, e.1)) [] with
    | (d1, .error e) => completeOp (modOp d1 n fun o => { o with outs := o.outs ++ outs }) n e.1 e.2
    | (d1, .ok rows) =>
      let out := gatherRows d1 tile o t l rows
      let conv := out.map fun r => r.1.map fun x => convertRow fmt (o.f 37 1 % 16) (x.map f32)
      let kept := conv.filterMap id
      let sat := kept.foldl (fun s r => s + r.sat) 0
      let nf := kept.foldl (fun s r => s + r.nonfinite) 0
      let detail := min sat 0xFFFFFFFF + 2 ^ 32 * min nf 0xFFFFFFFF
      let add : CensusAdd := { tensor := o.f 64 2 % 4096, saturated := sat, nonfinite := nf }
      let d2 := progress (modOp d1 n fun o => { o with census := o.census ++ [add] }) n
      let arg := if o.zero 56 8 then []
        else out.zipIdx.map fun r => (o.f 56 8 + 4 * r.2 * t.dim, r.1.2.flatMap fun w => leBytes 4 w)
      if toChute then
        match writeAll d2 (some n) arg with
        | (d3, some st) => finishOp d3 n outs (.error st)
        | (d3, none) =>
          -- rows of other shards are not written: their place in the entry holds unspecified values
          let x := conv.foldl (fun (acc : Dev × Bytes) r => match r with
            | some y => (acc.1, acc.2 ++ y.data)
            | none => let f := freeBytes acc.1 rowBytes; (f.1, acc.2 ++ f.2)) (d3, [])
          let stamp := entryStamp n o
          let header := chuteHeader n.ring n.seq.toNat stamp.1 (stamp.2 % 2 ^ 32) (o.f 64 2 % 4096) (o.f 66 2) (o.f 68 2)
            (o.f 38 2 % 256) true x.2.length
          finishSending x.1 n [{ consumer := o.f 48 1 % 64, queue := bits (o.f 48 2) 11 8, header := header, payload := x.2 }]
            detail
      else
        match writeAll d2 (some n) (arg ++ conv.zipIdx.filterMap fun r => r.1.map fun y => (o.f 48 8 + r.2 * o.f 44 4, y.data)) with
        | (d3, some st) => finishOp d3 n outs (.error st)
        | (d3, none) => completeOp d3 n stOk detail

/-- An operation may go on beside an older one that has started and waits: nothing passes a scatter's additions but an update,
and no update passes a gather of its own step or an earlier one (R209, R220, R222). -/
def mayPass (o p : Op) : Bool :=
  p.stallFrom.isSome && !p.starting &&
  (match o.opcode, p.opcode with
  | 0x0403, 0x0401 => decide (o.step.toNat < p.step.toNat)
  | 0x0402, 0x0402 => false
  | 0x0404, _ => false
  | _, 0x0404 => false
  | _, _ => true)

/-- An operation of the Badger that has work to do, on its table. -/
def badgerOp (code : Nat) (n : OpName) (f : Nat → Op → TableRec → Dev → Dev) (d : Dev) : Dev :=
  match issuedOp d n, ringTarget d n.ring with
  | some o, some (.badger tile) =>
    if o.opcode = code && o.sends.isEmpty && (badgerBefore d tile n o).all (mayPass o) then
      match getTable d tile (o.f 32 1 % 64) with
      | none => completeOp d n stBadDescriptor
      | some t => afterReads n (f tile o t) d
    else d
  | _, _ => d

/-- An operation waits for an entry of an inbound queue before it starts (R209, R215). -/
def waitStart (d : Dev) (n : OpName) : Dev :=
  modOp d n fun o => { o with starting := true, stallFrom := some (o.stallFrom.getD (deviceTime d)) }

/-- BADGER_GATHER (R216). -/
def badgerGather (n : OpName) : Dev → Dev := badgerOp 0x0401 n fun tile o t d =>
  match listSource d tile n o with
  | (_, .wait) => waitStart d n
  | (d1, .stop st) => completeOp d1 n st
  | (d1, .at_ a room) => match readList d1 n a room with
    | (d2, .error st) => completeOp d2 n st
    | (d2, .ok l) => gatherList tile n o t l d2

/-! ## Scatter and the ledger (R221 to R225) -/

/-- The bytes of a ledger entry in memory: identifier, step, accumulator and staging copy (R222; log 24). -/
def ledgerBytes (t : TableRec) (e : LedgerEntry) : Bytes :=
  leBytes 8 e.row.toNat ++ leBytes 8 e.step.toNat ++ List.replicate 48 0 ++ (e.acc.flatMap fun x => leBytes 4 x.toNat) ++
  slice e.staging 0 t.stride

/-- Where an entry lies in the table's ledger area. -/
def ledgerAddr (t : TableRec) (e : LedgerEntry) : Nat := t.ledger + e.slot * t.entryBytes

/-- The ledger entry of a row and step. -/
def findEntry (d : Dev) (tile table : Nat) (row step : W64) : Option LedgerEntry :=
  (getBadger d tile).ledger.find? fun e => e.table == table && e.row == row && e.step == step

/-- A ledger entry with `f` applied. -/
def modEntry (d : Dev) (tile table : Nat) (row step : W64) (f : LedgerEntry → LedgerEntry) : Dev :=
  modBadger d tile fun b => { b with ledger := b.ledger.map fun e =>
    if e.table == table && e.row == row && e.step == step then f e else e }

/-- A ledger entry is discarded. -/
def dropEntry (d : Dev) (tile table : Nat) (row step : W64) : Dev :=
  modBadger d tile fun b => { b with ledger := b.ledger.filter fun e => !(e.table == table && e.row == row && e.step == step) }

/-- The fetch of a Cellar row's record into its entry's staging copy is issued (R223). -/
def startFetch (d : Dev) (tile : Nat) (t : TableRec) (e : LedgerEntry) (slot : Nat) : Dev :=
  let a := t.slotAddr 2 slot
  match accessFault d a t.layout false with
  | some f => modEntry (noteFault d f none) tile e.table e.row e.step fun e => { e with pending := false, failed := some f.1 }
  | none => peerRequests d false a [] t.layout (some (ledgerAgent tile e.table e.slot))

/-- An entry of the row of an earlier step has not been applied: the row's record cannot be fetched yet (R220). -/
def rowBusy (d : Dev) (tile table : Nat) (row step : W64) : Bool :=
  (getBadger d tile).ledger.any fun x => x.table == table && x.row == row && decide (x.step.toNat < step.toNat)

/-- An entry is freed, its row's write having been acknowledged (R228); the fetch of a later step's entry of the row, which
waited for it, is issued (R220, R223). -/
def freeEntry (d : Dev) (tile : Nat) (n : OpName) (t : TableRec) (e : LedgerEntry) : Dev :=
  let d1 := dropEntry d tile e.table e.row e.step
  match (getBadger d1 tile).ledger.find? fun x => x.table == e.table && x.row == e.row && x.pending && !(rowBusy d1 tile e.table e.row x.step) with
  | none => d1
  | some x => match readMap d1 n t (e.row.toNat / t.rowMod) with
    | (d2, .ok (2, slot)) => startFetch (countRow d2 tile 2 n.ring) tile t x slot
    | (d2, _) => d2

/-- The outcome of one addition to the ledger. -/
inductive AddOutcome where
  | added | full
  | stop (st : Byte)
deriving DecidableEq, Repr

/-- One gradient row enters the ledger (R222, R223): the first takes a free entry, later ones are added. -/
def addGradient (d : Dev) (tile : Nat) (n : OpName) (table : Nat) (t : TableRec) (row step : W64) (place : Nat × Nat)
    (g : Lanes) : Dev × AddOutcome :=
  let tier := place.1
  let mine := (getBadger d tile).ledger.filter fun e => e.table == table
  match findEntry d tile table row step with
  | some e => match readMem d (some n) (ledgerAddr t e) t.entryBytes with
    | (d1, .error st) => (d1, .stop st)
    | (d1, .ok _) =>
      let e1 := { e with acc := (e.acc.zip g).map fun x => f32Add x.1 x.2 }
      match writeMem d1 (some n) (ledgerAddr t e1) (ledgerBytes t e1) with
      | (d2, some st) => (d2, .stop st)
      | (d2, none) => (modEntry d2 tile table row step fun _ => e1, .added)
  | none =>
    if t.entries ≤ mine.length then (d, .full)
    else
      let slot := ((List.range t.entries).find? fun s => mine.all fun e => e.slot != s).getD 0
      let e : LedgerEntry :=
        { table := table, slot := slot, row := row, step := step, acc := g, cellar := tier == 2, pending := tier == 2 }
      match writeMem d (some n) (ledgerAddr t e) (ledgerBytes t e) with
      | (d1, some st) => (d1, .stop st)
      | (d1, none) =>
        let d2 := modBadger d1 tile fun b => { b with ledger := b.ledger ++ [e] }
        (if tier = 2 && !(rowBusy d2 tile table row step) then startFetch (countRow d2 tile 2 n.ring) tile t e place.2 else d2, .added)

/-- The gradient row of entry `i` in bag `b` (R221). -/
def gradientOf (o : Op) (t : TableRec) (l : RowList) (i : Nat) (bag : List Nat) (g : Lanes) : Lanes :=
  match o.f 33 1 with
  | 1 =>
    let live := (bag.filter fun k => t.kind (l.ids.getD k 0) != .null).length
    g.map fun x => divCount x live
  | 2 => g.map fun x => fpMul x (l.weight i)
  | _ => g

/-- The entries of a list that are left, each with its bag: its number and entries. -/
def scatterEntries (l : RowList) : List (Nat × Nat × List Nat) :=
  l.bags.zipIdx.flatMap fun b => b.1.map fun i => (i, b.2, b.1)

/-- A scatter waits for ledger space at entry `k` of its list: the wait that was under way there, or a new one (R224). -/
def waitLedger (d : Dev) (n : OpName) (o : Op) (k : Nat) : Dev :=
  let same := o.stallFrom.isSome && !o.starting && k == o.done
  modOp d n fun p => { p with
    starting := false, done := k, stallFrom := some (if same then o.stallFrom.getD 0 else deviceTime d), stallLogged := same && o.stallLogged }

/-- A scatter waits for ledger space. -/
def Op.waitsLedger (o : Op) : Bool := o.opcode == 0x0402 && o.stallFrom.isSome && !o.starting

/-- Entries of the list from position `o.done` on are scattered, in list order (R221 to R224). `base` and `room` bound the
gradient rows; `room` is `none` outside a chute entry. -/
def scatterFrom (tile : Nat) (n : OpName) (o : Op) (t : TableRec) (l : RowList) (base stride : Nat) (room : Option Nat) :
    List (Nat × Nat × List Nat) → Nat → Dev → Dev
  | [], _, d => completeOp d n stOk
  | (i, b, bag) :: r, k, d =>
    let table := o.f 32 1 % 64
    let again (d : Dev) : Dev := scatterFrom tile n o t l base stride room r (k + 1) d
    let g := l.ids.getD i 0
    match t.kind g with
    | .null => again d
    | .foreign => again d
    | .outOfRange => completeOp d n stBadAddress i
    | .mine index => match readMap d n t index with
      | (d1, .error st) => completeOp d1 n st
      | (d1, .ok (tier, slot)) =>
        let fmt := fmtOf (o.f 38 2)
        let gb := packedBytes fmt.code t.dim
        let at_ := (if o.f 33 1 = 3 then i else b) * stride
        if tier = 3 then completeOp d1 n stBadAddress i
        else if room.any fun x => x < at_ + gb then completeOp d1 n stBadShape
        else match readMem d1 (some n) (base + at_) gb with
          | (d2, .error st) => completeOp d2 n st
          | (d2, .ok bytes) =>
            match addGradient d2 tile n table t (BitVec.ofNat 64 g) o.step (tier, slot)
                (gradientOf o t l i bag (decodeRow fmt t.dim bytes)) with
            | (d3, .added) => again (progress d3 n)
            | (d3, .stop st) => completeOp d3 n st
            | (d3, .full) =>
              if (getBadger d3 tile).ledger.all fun e => e.table != table || e.step == o.step then
                completeOp (logEvent d3 evLedgerFull (.ring n.ring) 0) n stBadShape (table + 2 ^ 32 * t.entries)
              else waitLedger d3 n o k

/-- The step of a scatter is skipped, or no longer open (R225; log 23). -/
def stepSkipped (d : Dev) (s : Nat) : Bool := match stepState d s with
  | none => true
  | some st => st.decision == some false

/-- BADGER_SCATTER (R221). -/
def badgerScatter (n : OpName) : Dev → Dev := badgerOp 0x0402 n fun tile o t d =>
  if stepSkipped d o.step.toNat then completeOp d n stStepSkipped
  else match listSource d tile n o with
    | (_, .wait) => waitStart d n
    | (d1, .stop st) => completeOp d1 n st
    | (d1, .at_ a room) =>
      match takeSource d1 tile n (bit (o.f 35 1) 1) (o.f 37 1) (o.f 48 8) 0 with
      | (_, .wait) => waitStart d1 n
      | (d2, .stop st) => completeOp d2 n st
      | (d2, .at_ base groom) => match readList d2 n a room with
        | (d3, .error st) => completeOp d3 n st
        | (d3, .ok l) =>
          let chute := bit (o.f 35 1) 1
          let stride := if chute then packedBytes (fmtOf (o.f 38 2)).code t.dim else o.f 44 4
          scatterFrom tile n o t l base stride (if chute then some groom else none) ((scatterEntries l).drop o.done) o.done d3

/-- LEDGER_FULL (R224): a scatter has waited longer than its ring's WAIT_LIMIT, logged once. -/
def ledgerFull (n : OpName) (d : Dev) : Dev :=
  match issuedOp d n with
  | some o =>
    if o.waitsLedger && !o.stallLogged && overdue d o.stallFrom (ringLimit d n.ring) then
      logEvent (modOp d n fun o => { o with stallLogged := true }) evLedgerFull (.ring n.ring) 0
    else d
  | none => d

/-! ## The sparse update (R226 to R228) -/

/-- The parameter block (Table 8.9). -/
structure UpdParams where
  negLr : W32
  lambda : W32
  beta1 : W32
  oneM1 : W32
  beta2 : W32
  oneM2 : W32
  c1 : W32
  c2 : W32
  eps : W32
deriving DecidableEq, Repr

/-- The block's values. -/
def updParams (b : Bytes) : UpdParams :=
  let v (k : Nat) : W32 := BitVec.ofNat 32 (fld b (4 * k) 4)
  { negLr := v 0, lambda := v 1, beta1 := v 2, oneM1 := v 3, beta2 := v 4, oneM2 := v 5, c1 := v 6, c2 := v 7, eps := v 8 }

/-- A field of a record with its new elements: where it lies, its format and its tensor (R211, R227). -/
structure FieldStore where
  off : Nat
  fmt : Fmt
  tau : Nat
  elems : Lanes

/-- The elements converted with the draws of the tensor's stream (R102, R227, R244). -/
def FieldStore.convs (x : FieldStore) (rc : Nat) (seed step : W64) (g dim : Nat) : List Conv :=
  x.elems.zipIdx.map fun e =>
    convert x.fmt rc (if rc % 4 = 2 then r16 seed step x.tau (BitVec.ofNat 64 (g * dim + e.2)) else 0) (f32 e.1)

/-- The optimiser's step on a record and its accumulator (R227): the fields to store, and row-wise Adagrad's FP32 state. -/
def optStep (t : TableRec) (p : UpdParams) (g : Lanes) (rec : Bytes) : List FieldStore × Option W32 :=
  let w := decodeRow t.fmt t.dim rec
  let decay (x u : W32) : W32 := fpFma (fpFma x p.lambda u) p.negLr x
  let weights (us : Lanes) : FieldStore := { off := 0, fmt := t.fmt, tau := t.wTid, elems := (w.zip us).map fun e => decay e.1 e.2 }
  if t.opt = 1 then ([weights g], none)
  else if t.opt = 2 then
    let s := BitVec.ofNat 32 (fld rec t.soff 4)
    let sum := orderedSum (g.map fun x => fpMul x x)
    let s1 := f32Add s (divCount sum t.dim)
    let root := fpAdd (fpSqrt s1) p.eps
    ([weights (g.map fun x => fpDiv x root)], some s1)
  else
    let m := decodeRow t.mFmt t.dim (rec.drop t.soff)
    let v := decodeRow t.vFmt t.dim (rec.drop t.voff)
    let m1 := (m.zip g).map fun e => fpFma e.1 p.beta1 (fpMul e.2 p.oneM1)
    let v1 := (v.zip g).map fun e => fpFma e.1 p.beta2 (fpMul (fpMul e.2 e.2) p.oneM2)
    let u := (m1.zip v1).map fun e => fpDiv (fpMul e.1 p.c1) (fpAdd (fpSqrt (fpMul e.2 p.c2)) p.eps)
    ([{ off := t.soff, fmt := t.mFmt, tau := t.mTid, elems := m1 }, { off := t.voff, fmt := t.vFmt, tau := t.vTid, elems := v1 },
      weights u], none)

/-- A record after the optimiser's step, and the facts of its conversions for the census (R97, R227, Table 9.4). -/
def updateRecord (t : TableRec) (p : UpdParams) (rc : Nat) (seed step : W64) (row : Nat) (g : Lanes) (rec : Bytes) :
    Bytes × List CensusAdd :=
  let x := optStep t p g rec
  let conv (f : FieldStore) : List Conv := f.convs rc seed step row t.dim
  let rec1 := match x.2 with
    | some s => splice rec t.soff (leBytes 4 s.toNat)
    | none => rec
  (x.1.foldl (fun b f => splice b f.off (packElems f.fmt.code ((conv f).map (·.pat)))) rec1,
   x.1.map fun f =>
    { tensor := f.tau, saturated := ((conv f).filter (·.sat)).length, nonfinite := ((conv f).filter (·.nonfinite)).length })

/-- One entry is applied: its record is read where its row now lies, or taken from the staging copy, updated, and written
back. The entry is freed at once, but for a row of the Cellar, whose write is to be acknowledged first (R228). The record of
a row that has moved to the Cellar since is fetched first (R223). -/
def applyEntry (d : Dev) (tile : Nat) (n : OpName) (o : Op) (t : TableRec) (p : UpdParams) (e : LedgerEntry) :
    Dev × Option Byte :=
  let index := e.row.toNat / t.rowMod
  match readMem d (some n) (ledgerAddr t e) t.entryBytes with
  | (d0, .error st) => (d0, some st)
  | (d0, .ok _) => match readMap d0 n t index with
    | (d1, .error st) => (d1, some st)
    | (d1, .ok (tier, slot)) =>
      let a := t.slotAddr tier slot
      if !e.cellar && tier = 2 then
        let e1 := { e with cellar := true, pending := true }
        (startFetch (countRow (modEntry d1 tile e.table e.row e.step fun _ => e1) tile 2 n.ring) tile t e1 slot, none)
      else match (if e.cellar then (d1, .ok e.staging) else readMem (countRow d1 tile tier n.ring) (some n) a t.layout) with
      | (d2, .error st) => (d2, some st)
      | (d2, .ok rec) =>
        let new := updateRecord t p (o.f 34 1 % 16) d2.steps.num.seed o.step e.row.toNat e.acc (slice rec 0 t.layout)
        match writeMem d2 (some n) a new.1 with
        | (d3, some st) => (d3, some st)
        | (d3, none) =>
          let d4 := modOp d3 n fun o => { o with census := o.census ++ new.2 }
          (if tier = 2 then modEntry d4 tile e.table e.row e.step fun e => { e with writing := true }
           else progress (freeEntry d4 tile n t e) n, none)

/-- The entries of an update's step that have their record are applied, in ledger order. Answers the status of a failure. -/
def applyEntries (tile : Nat) (n : OpName) (o : Op) (t : TableRec) (p : UpdParams) : List LedgerEntry → Dev → Dev × Option Byte
  | [], d => (d, none)
  | e :: r, d =>
    if e.pending || e.writing then applyEntries tile n o t p r d
    else match e.failed with
      | some st => (d, some st)
      | none => match applyEntry d tile n o t p e with
        | (d1, some st) => (d1, some st)
        | (d1, none) => applyEntries tile n o t p r d1

/-- The ledger entries of a table and step. -/
def stepEntries (d : Dev) (tile table : Nat) (step : W64) : List LedgerEntry :=
  (getBadger d tile).ledger.filter fun e => e.table == table && e.step == step

/-- The entries of a table and step, each with `f` applied. -/
def modEntries (d : Dev) (tile table : Nat) (step : W64) (f : LedgerEntry → LedgerEntry) : Dev :=
  modBadger d tile fun b => { b with ledger := b.ledger.map fun e => if e.table == table && e.step == step then f e else e }

/-- An update goes on: what has its record is applied, and with no entry left the update is complete; a failed fetch or
write-back ends it (R228). -/
def updateOn (tile : Nat) (n : OpName) (o : Op) (t : TableRec) (d : Dev) : Dev :=
  match readMem d (some n) (o.f 40 8) 64 with
  | (d1, .error st) => completeOp d1 n st
  | (d1, .ok b) =>
    let table := o.f 32 1 % 64
    match applyEntries tile n o t (updParams b) (stepEntries d1 tile table o.step) d1 with
    | (d2, some st) => completeOp (modEntries d2 tile table o.step fun e => { e with told := e.failed.isSome }) n st
    | (d2, none) => if (stepEntries d2 tile table o.step).isEmpty then completeOp d2 n stOk else waitOn d2 n

/-- A record whose failed fetch ended an update is fetched again; what an earlier update was writing back is applied again from
its staging copy (R228). -/
def resumeEntries (tile : Nat) (n : OpName) (t : TableRec) : List LedgerEntry → Dev → Dev
  | [], d => d
  | e :: r, d =>
    let again := e.told && e.failed.isSome
    let e1 : LedgerEntry := { e with
      writing := false, told := false, failed := if again then none else e.failed, pending := e.pending || (again && e.staging.isEmpty) }
    let d1 := modEntry d tile e.table e.row e.step fun _ => e1
    if again && e.staging.isEmpty && !(rowBusy d1 tile e.table e.row e.step) then
      match readMap d1 n t (e.row.toNat / t.rowMod) with
      | (d2, .ok (2, slot)) => resumeEntries tile n t r (startFetch (countRow d2 tile 2 n.ring) tile t e1 slot)
      | (d2, _) => resumeEntries tile n t r d2
    else resumeEntries tile n t r d1

/-- BADGER_UPDATE (R228): under a SKIP it discards the step's entries; under APPLY it fetches again what failed before and
applies what it can. -/
def badgerUpdate (n : OpName) : Dev → Dev := badgerOp 0x0403 n fun tile o t d =>
  let table := o.f 32 1 % 64
  if stepSkipped d o.step.toNat then
    completeOp (modBadger d tile fun b => { b with ledger := b.ledger.filter fun e => !(e.table == table && e.step == o.step) }) n
      stStepSkipped
  else updateOn tile n o t (if o.stallFrom.isSome then d else resumeEntries tile n t (stepEntries d tile table o.step) d)

/-- The update that waits for an entry: issued, of its table and step. -/
def waitingUpdate (d : Dev) (tile table : Nat) (step : W64) : Option (Nat × Op) :=
  (issuedTo d (.badger tile)).find? fun e =>
    e.2.opcode == 0x0403 && e.2.f 32 1 % 64 == table && e.2.step == step && e.2.stallFrom.isSome && !e.2.aborted

/-- The Cellar's answer to a row's access, as LEDGER_RECORD_ARRIVE brings it: the record that an entry waits for, or the
acknowledgement of its write-back; or the failure of either (R223, R228). -/
def entryAnswered (d : Dev) (tile : Nat) (who : OpName) (t : TableRec) (e : LedgerEntry) (failed : Option Byte) : Dev :=
  if e.writing then match failed with
    | some st => modEntry d tile e.table e.row e.step fun e => { e with writing := false, failed := some st }
    | none => if awaits d who then d else freeEntry d tile who t e
  else
    let got : Dev × Except Byte Bytes := match failed with
      | some st => (d, .error st)
      | none => match readMap d who t (e.row.toNat / t.rowMod) with
        | (d1, .error st) => (d1, .error st)
        | (d1, .ok (tier, slot)) => readMem d1 none (t.slotAddr tier slot) t.layout
    let e1 : LedgerEntry := match got.2 with
      | .error st => { e with pending := false, failed := some st }
      | .ok b => { e with pending := false, staging := b }
    match writeMem (modEntry got.1 tile e.table e.row e.step fun _ => e1) (some who) (ledgerAddr t e1) (ledgerBytes t e1) with
    | (x, some st) => modEntry x tile e.table e.row e.step fun e => { e with failed := some st }
    | (x, none) => x

/-- LEDGER_RECORD_ARRIVE (R223, R228): the record of a pending entry arrives, or the write-back of an applied one is
acknowledged, or either fails; a waiting update goes on at once. The fetch waits for the write of an earlier step's entry of
the row (R220), and a peer's record for the responses to its requests (R349; log 109). -/
def ledgerRecordArrive (tile table : Nat) (row step : W64) (failed : Option Byte) (d : Dev) : Dev :=
  match findEntry d tile table row step, getTable d tile table with
  | some e, some t =>
    let who : OpName := match waitingUpdate d tile table step with
      | some u => u.2.name u.1
      | none => { ring := t.updRing, seq := 0 }
    let held := rowBusy d tile table row step || (failed.isNone && awaits d (ledgerAgent tile table e.slot))
    if !(e.writing || (e.pending && !held)) then d
    else
      let d1 := entryAnswered d tile who t e failed
      match waitingUpdate d1 tile table step with
      | none => d1
      | some u => updateOn tile (u.2.name u.1) u.2 t (progress d1 (u.2.name u.1))
  | _, _ => d

/-- A ring's destruction discards the entries that its unfinished updates left (R228). -/
def discardOfRing (d : Dev) (ring : Nat) : Dev :=
  d.badgers.foldl (fun d b =>
    let mine (e : LedgerEntry) : Bool := (getTable d b.1 e.table).any fun t => t.updRing == ring
    if b.2.ledger.any mine then
      logEvent (modBadger d b.1 fun x => { x with ledger := x.ledger.filter fun e => !(mine e) }) evLedgerDiscard (.engine b.1 0) 0
        (some ring)
    else d) d

/-! ## Migration (R229) -/

/-- The occupancy bit of a slot set or cleared. -/
def setOcc (d : Dev) (n : OpName) (t : TableRec) (tier slot : Nat) (on : Bool) : Dev × Option Byte :=
  let p := t.occBit tier slot
  match readMem d (some n) p.1 1 with
  | (d1, .error st) => (d1, some st)
  | (d1, .ok b) =>
    let v := fld b 0 1
    let v1 := if bit v p.2 == on then v else if on then v + 2 ^ p.2 else v - 2 ^ p.2
    writeMem d1 (some n) p.1 [BitVec.ofNat 8 v1]

/-- Steps in order, stopping at the first that fails. -/
def inOrder (l : List (Dev → Dev × Option Byte)) (d : Dev) : Dev × Option Byte :=
  l.foldl (fun acc f => match acc.2 with
    | some _ => acc
    | none => f acc.1) (d, none)

/-- One entry of a migration: `none`, or the status that ends it (R229). -/
def migrateRow (tile : Nat) (n : OpName) (t : TableRec) (g dest : Nat) (d : Dev) : Dev × Option Byte :=
  let tier := bits dest 31 30
  let slot := bits dest 29 0
  match t.kind g with
  | .mine index => match readMap d n t index with
    | (d1, .error st) => (d1, some st)
    | (d1, .ok (tier0, slot0)) =>
      if tier = tier0 && slot = slot0 && tier != 3 then (d1, none)
      else if tier = 3 || t.slots.getD tier 0 ≤ slot then (d1, some stBadAddress)
      else match readMem d1 (some n) (t.occBit tier slot).1 1 with
        | (d2, .error st) => (d2, some st)
        | (d2, .ok b) =>
          if bit (fld b 0 1) (t.occBit tier slot).2 then (d2, some stBadAddress)
          else if tier0 = 3 then
            inOrder [fun d => setOcc d n t tier slot true, fun d => writeMem d (some n) (t.map + 4 * index) (leBytes 4 dest)] d2
          else match readMem (countRow d2 tile tier0 n.ring) (some n) (t.slotAddr tier0 slot0) t.layout with
            | (d3, .error st) => (d3, some st)
            | (d3, .ok rec) => inOrder
                [fun d => writeMem d (some n) (t.slotAddr tier slot) rec, fun d => setOcc d n t tier slot true,
                 fun d => writeMem d (some n) (t.map + 4 * index) (leBytes 4 dest), fun d => setOcc d n t tier0 slot0 false] d3
  | _ => (d, some stBadAddress)

/-- The entries of a migration list, in order (R229). -/
def migrateRows (tile : Nat) (n : OpName) (t : TableRec) (b : Bytes) : Nat → Nat → Dev → Dev
  | 0, _, d => completeOp d n stOk
  | fuel + 1, i, d =>
    match migrateRow tile n t (fld b (16 * i) 8) (fld b (16 * i + 8) 4) d with
    | (d1, some st) => completeOp d1 n st (if st = stBadAddress then i else 0)
    | (d1, none) => migrateRows tile n t b fuel (i + 1) (progress d1 n)

/-- BADGER_MIGRATE (R229). -/
def badgerMigrate (n : OpName) : Dev → Dev := badgerOp 0x0404 n fun tile o t d =>
  match readMem d (some n) (o.f 40 8) (16 * o.f 36 4) with
  | (d1, .error st) => completeOp d1 n st
  | (d1, .ok b) => migrateRows tile n t b (o.f 36 4) 0 d1

/-- BADGER_WATCHDOG_EXPIRY (R231): waits for credits and for ledger space do not count. -/
def badgerWatchdogExpiry (n : OpName) (d : Dev) : Dev :=
  match issuedOp d n, ringTarget d n.ring with
  | some o, some (.badger tile) =>
    if o.sends.isEmpty && !o.waitsLedger && o.progressAt + (getBadger d tile).limit.toNat * 65536 ≤ cycle d then
      completeOp d n stEngineTimeout
    else d
  | _, _ => d

def execBadgerGather (ring : Nat) (seq : W32) (s : State) : Out := act s (running (badgerGather { ring := ring, seq := seq }))
def execBadgerScatter (ring : Nat) (seq : W32) (s : State) : Out := act s (running (badgerScatter { ring := ring, seq := seq }))
def execLedgerRecordArrive (tile table : Nat) (row step : W64) (failed : Option Byte) (s : State) : Out :=
  act s (running (ledgerRecordArrive tile table row step failed))
def execLedgerFull (ring : Nat) (seq : W32) (s : State) : Out := act s (running (ledgerFull { ring := ring, seq := seq }))
def execBadgerUpdate (ring : Nat) (seq : W32) (s : State) : Out := act s (running (badgerUpdate { ring := ring, seq := seq }))
def execBadgerMigrate (ring : Nat) (seq : W32) (s : State) : Out := act s (running (badgerMigrate { ring := ring, seq := seq }))
def execBadgerWatchdogExpiry (ring : Nat) (seq : W32) (s : State) : Out :=
  act s (running (badgerWatchdogExpiry { ring := ring, seq := seq }))

/-- A pooling instruction on a Badger's working registers; a tile without a Badger has none. -/
def poolStep (tile : Nat) (f : PoolOp) (imm : W32) (d : Dev) : Dev :=
  if tile < 64 && tileType tile = .bTile then modBadger d tile fun b => { b with pool := f imm b.pool } else d

def execXmulw (tile : Nat) (imm : W32) (s : State) : Out := act s (running (poolStep tile poolXmulw imm))
def execXmuli (tile : Nat) (imm : W32) (s : State) : Out := act s (running (poolStep tile poolXmuli imm))
def execXaddi (tile : Nat) (imm : W32) (s : State) : Out := act s (running (poolStep tile poolXaddi imm))
def execXmaxi (tile : Nat) (imm : W32) (s : State) : Out := act s (running (poolStep tile poolXmaxi imm))
def execXmini (tile : Nat) (imm : W32) (s : State) : Out := act s (running (poolStep tile poolXmini imm))
def execXabs (tile : Nat) (imm : W32) (s : State) : Out := act s (running (poolStep tile poolXabs imm))
def execAccsum (tile : Nat) (imm : W32) (s : State) : Out := act s (running (poolStep tile poolAccsum imm))
def execAccmax (tile : Nat) (imm : W32) (s : State) : Out := act s (running (poolStep tile poolAccmax imm))
def execAmuli (tile : Nat) (imm : W32) (s : State) : Out := act s (running (poolStep tile poolAmuli imm))
def execAaddi (tile : Nat) (imm : W32) (s : State) : Out := act s (running (poolStep tile poolAaddi imm))
def execAdivn (tile : Nat) (imm : W32) (s : State) : Out := act s (running (poolStep tile poolAdivn imm))
def execArsqn (tile : Nat) (imm : W32) (s : State) : Out := act s (running (poolStep tile poolArsqn imm))

end Sys2Proof.Machine
end

