-- ==== Sys2Proof/Machine/Inflate.lean ====
section
/-! DEFINITION. Raw DEFLATE (11 Table 11.4, RFC 1951): blocks, code tables, and the bytes before a stream error. -/

namespace Sys2Proof.Machine

/-- A prefix code in canonical order: how many symbols have a code of 1, 2, 3, … bits, and the symbols by length and number. -/
structure PrefixCode where
  counts : List Nat
  symbols : List Nat
deriving DecidableEq, Repr

/-- A prefix code from the length of each symbol's code; lengths that ask for more codes than there are give none. -/
def prefixCode (lens : List Nat) : Option PrefixCode :=
  let counts := (List.range 15).map fun k => (lens.filter (· == k + 1)).length
  let used : Nat := counts.zipIdx.foldl (fun n c => n + c.1 * 2 ^ (14 - c.2)) 0
  if 2 ^ 15 < used then none
  else some { counts := counts
              symbols := (List.range 15).flatMap fun k => (lens.zipIdx.filter fun e => e.1 == k + 1).map (·.2) }

/-- The next symbol: its code is read bit by bit, first bit highest, against the codes of each length. -/
def readSymbol (symbols : List Nat) : List Nat → Nat → Nat → Nat → List Bool → Option (Nat × List Bool)
  | [], _, _, _, _ => none
  | _ :: _, _, _, _, [] => none
  | n :: longer, code, first, index, b :: bs =>
    let code := 2 * code + ofBool b
    if code < first + n then (symbols[index + (code - first)]?).map fun s => (s, bs)
    else readSymbol symbols longer code (2 * (first + n)) (index + n) bs

/-- The next symbol of a code. -/
def PrefixCode.read (c : PrefixCode) (bs : List Bool) : Option (Nat × List Bool) := readSymbol c.symbols c.counts 0 0 0 bs

/-- The next `n` bits as a number, its lowest bit first. -/
def readBits : Nat → List Bool → Option (Nat × List Bool)
  | 0, bs => some (0, bs)
  | _ + 1, [] => none
  | n + 1, b :: bs => (readBits n bs).map fun r => (ofBool b + 2 * r.1, r.2)

/-- The bits of a byte string, each byte's lowest first. -/
def bitsOf (b : Bytes) : List Bool := b.flatMap fun x => (List.range 8).map x.getLsbD

/-- Extra bits of the length symbols 257 to 285 and of the distance symbols 0 to 29. -/
def lengthExtra (k : Nat) : Nat := if k < 8 || k = 28 then 0 else k / 4 - 1
def distExtra (k : Nat) : Nat := if k < 4 then 0 else k / 2 - 1

/-- The least length and distance of each such symbol. -/
def lengthBase (k : Nat) : Nat := if k = 28 then 258 else (List.range k).foldl (fun n i => n + 2 ^ lengthExtra i) 3
def distBase (k : Nat) : Nat := (List.range k).foldl (fun n i => n + 2 ^ distExtra i) 1

/-- A symbol's value: its least value and as much as its extra bits say. -/
def withExtra (base extra : Nat) (bs : List Bool) : Option (Nat × List Bool) := (readBits extra bs).map fun r => (base + r.1, r.2)

/-- A stretch of earlier output copied, byte by byte; the output stands last byte first. -/
def copyBack (dist : Nat) : Nat → List Nat → List Nat
  | 0, out => out
  | n + 1, out => copyBack dist n (out.getD (dist - 1) 0 :: out)

/-- What inflating has come to: the output, last byte first, the bits left, and whether the stream went on without error. -/
structure Inflated where
  out : List Nat
  left : List Bool
  ok : Bool := true
deriving DecidableEq, Repr

/-- A length symbol and its distance: how much to copy from how far, with the bits that follow. -/
def readCopy (dists : PrefixCode) (sym : Nat) (bs : List Bool) : Option (Nat × Nat × List Bool) :=
  if 285 < sym then none
  else (withExtra (lengthBase (sym - 257)) (lengthExtra (sym - 257)) bs).bind fun l =>
    (dists.read l.2).bind fun k =>
      if 29 < k.1 then none else (withExtra (distBase k.1) (distExtra k.1) k.2).map fun d => (l.1, d.1, d.2)

/-- The symbols of a compressed block up to its end; each takes at least one bit, which bounds them. -/
def inflateSymbols (lits dists : PrefixCode) : Nat → Inflated → Inflated
  | 0, r => { r with ok := false }
  | fuel + 1, r => match lits.read r.left with
    | none => { r with ok := false }
    | some (sym, bs) =>
      if sym < 256 then inflateSymbols lits dists fuel { r with out := sym :: r.out, left := bs }
      else if sym = 256 then { r with left := bs }
      else match readCopy dists sym bs with
        | none => { r with ok := false }
        | some (len, dist, rest) =>
          if r.out.length < dist then { r with ok := false }
          else inflateSymbols lits dists fuel { r with out := copyBack dist len r.out, left := rest }

/-- Code lengths of a dynamic block: symbols 0 to 15 are lengths, 16 repeats the last, 17 and 18 repeat zero. -/
def readLengths (c : PrefixCode) (n : Nat) : Nat → List Nat → List Bool → Option (List Nat × List Bool)
  | 0, _, _ => none
  | fuel + 1, lens, bs =>
    if n < lens.length then none
    else if lens.length = n then some (lens, bs)
    else (c.read bs).bind fun s =>
      if s.1 < 16 then readLengths c n fuel (lens ++ [s.1]) s.2
      else if s.1 = 16 && lens.isEmpty then none
      else (readBits (if s.1 = 16 then 2 else if s.1 = 17 then 3 else 7) s.2).bind fun r =>
        readLengths c n fuel
          (lens ++ List.replicate (r.1 + if s.1 = 18 then 11 else 3) (if s.1 = 16 then lens.getLastD 0 else 0)) r.2

/-- The order in which a dynamic block gives the lengths of its code-length code. -/
def lengthOrder : List Nat := [16, 17, 18, 0, 8, 7, 9, 6, 10, 5, 11, 4, 12, 3, 13, 2, 14, 1, 15]

/-- Numbers of a given width, one after another. -/
def readMany (width : Nat) : Nat → List Bool → Option (List Nat × List Bool)
  | 0, bs => some ([], bs)
  | n + 1, bs => (readBits width bs).bind fun r => (readMany width n r.2).map fun q => (r.1 :: q.1, q.2)

/-- The two codes of a dynamic block. -/
def dynamicCodes (bs : List Bool) : Option (PrefixCode × PrefixCode × List Bool) :=
  (readBits 5 bs).bind fun hlit => (readBits 5 hlit.2).bind fun hdist => (readBits 4 hdist.2).bind fun hclen =>
    (readMany 3 (hclen.1 + 4) hclen.2).bind fun cl =>
      let lens := (List.range 19).map fun k => (((lengthOrder.take (hclen.1 + 4)).idxOf? k).map fun i => cl.1.getD i 0).getD 0
      (prefixCode lens).bind fun c =>
        let n := hlit.1 + 257
        (readLengths c (n + hdist.1 + 1) 321 [] cl.2).bind fun l =>
          (prefixCode (l.1.take n)).bind fun lits => (prefixCode (l.1.drop n)).map fun dists => (lits, dists, l.2)

/-- The codes of a block with fixed codes. -/
def fixedCodes : Option (PrefixCode × PrefixCode) :=
  let lens := List.replicate 144 8 ++ List.replicate 112 9 ++ List.replicate 24 7 ++ List.replicate 8 8
  (prefixCode lens).bind fun l => (prefixCode (List.replicate 30 5)).map fun d => (l, d)

/-- A stored block: LEN and its complement at the next byte, then LEN bytes. -/
def inflateStored (r : Inflated) : Inflated :=
  match readMany 16 2 (r.left.drop (r.left.length % 8)) with
  | some ([len, nlen], bs) =>
    if len + nlen != 65535 then { r with ok := false }
    else
      let whole := bs.take (8 * len)
      let got := (readMany 8 (whole.length / 8) whole).map (·.1) |>.getD []
      { out := got.reverse ++ r.out, left := bs.drop (8 * len), ok := decide (got.length = len) }
  | _ => { r with ok := false }

/-- Blocks up to the final one; each takes at least three bits, which bounds them. -/
def inflateBlocks : Nat → Inflated → Inflated
  | 0, r => { r with ok := false }
  | fuel + 1, r => match (readBits 1 r.left).bind fun f => (readBits 2 f.2).map fun t => (f.1, t.1, t.2) with
    | none => { r with ok := false }
    | some (final, ty, bs) =>
      let body : Inflated :=
        match ty with
        | 0 => inflateStored { r with left := bs }
        | 1 => match fixedCodes with
          | none => { r with ok := false }
          | some (l, d) => inflateSymbols l d (bs.length + 1) { r with left := bs }
        | 2 => match dynamicCodes bs with
          | none => { r with ok := false }
          | some (l, d, rest) => inflateSymbols l d (rest.length + 1) { r with left := rest }
        | _ => { r with ok := false }
      if !body.ok || final = 1 then body else inflateBlocks fuel body

/-- A byte string inflated: the bytes up to its end or its first error, whether it ended well, and the place of the byte at
which it stopped (R290, R295). -/
def inflate (b : Bytes) : List Nat × Bool × Nat :=
  let all := bitsOf b
  let r := inflateBlocks (all.length + 1) { out := [], left := all }
  (r.out.reverse, r.ok, (all.length - r.left.length) / 8)

end Sys2Proof.Machine
end

