-- ==== Sys2Proof/Machine/Augment.lean ====
section
/-! DEFINITION. Samples as elements: augmentation programs, resizing, colour, text and the bytes of a slot (11 R295 to R303). -/

namespace Sys2Proof.Machine

/-- The Thresher of a die. -/
def getTh (d : Dev) (die : Nat) : Thresher := d.threshers.getD die {}

/-- The Thresher of a die with `f` applied. -/
def modTh (d : Dev) (die : Nat) (f : Thresher → Thresher) : Dev := { d with threshers := modAt d.threshers die f }

/-- Numbers of the batches of a class that are open (R298). -/
def openNumbers (t : Thresher) (cls : Nat) : List Nat :=
  ((tget t.classes cls).map fun c => (c.batches.filter (·.emitted.isNone)).map (·.number)).getD []

/-- The class of a stream. -/
def Thresher.classOf (t : Thresher) (stream : Nat) : Option BatchClass := (tget t.streams stream).bind fun c => tget t.classes c.cls

/-! ## Augmentation instructions (Table 11.8) -/

/-- An instruction: its Thresher's settings, A, B, IMM, and the sample at work. -/
abbrev AugOp := Thresher → Nat → Nat → W32 → AugWork → AugWork

/-- P[k]. -/
def AugWork.p (w : AugWork) (k : Nat) : W32 := w.params.getD k 0

/-- P[k] truncated toward zero (R302); a NaN counts as 0 and an infinity as out of every range (DEDUCED, log 27). -/
def AugWork.pInt (w : AugWork) (k : Nat) : Int := match f32 (w.p k) with
  | .fin s m e => let v : Int := shiftTo m e; if s then -v else v
  | .inf s => if s then -(2 ^ 200) else 2 ^ 200
  | _ => 0

/-- Element (x, y, c) of a picture. -/
def AugWork.at_ (w : AugWork) (pic : List W32) (x y c : Nat) : W32 := pic.getD ((y * w.width + x) * w.channels + c) 0

/-- Every picture formed anew, element by element, at a size and number of channels. -/
def AugWork.remap (w : AugWork) (width height channels : Nat) (g : List W32 → Nat → Nat → Nat → W32) : AugWork :=
  { w with
    width := width
    height := height
    channels := channels
    units := w.units.map fun pic => (List.range height).flatMap fun y => (List.range width).flatMap fun x =>
      (List.range channels).map fun c => g pic x y c }

/-- SELECT: pictures P[A], P[A] + P[B], and so on, up to FRAMES; a stride below 1 counts as 1. -/
def augSelect : AugOp := fun t a b _ w =>
  let frames := ((t.classOf w.stream).map fun c => c.shape.getD 0 0).getD 0
  let start := w.pInt a
  let stride := max 1 (w.pInt b)
  { w with units := ((w.units.zipIdx.filter fun e =>
      decide (start ≤ (e.2 : Int)) && decide (((e.2 : Int) - start) % stride = 0)).map (·.1)).take frames }

/-- CROP: a rectangle clipped to the picture; a size of 0 or less leaves it as it is. -/
def augCrop : AugOp := fun _ a _ _ w =>
  let x0 := w.pInt a
  let y0 := w.pInt (a + 1)
  let cw := w.pInt (a + 2)
  let ch := w.pInt (a + 3)
  if cw ≤ 0 || ch ≤ 0 then w
  else
    let lx := (max 0 (min x0 w.width)).toNat
    let ly := (max 0 (min y0 w.height)).toNat
    let hx := (max 0 (min (x0 + cw) w.width)).toNat
    let hy := (max 0 (min (y0 + ch) w.height)).toNat
    w.remap (hx - lx) (hy - ly) w.channels fun pic x y c => w.at_ pic (x + lx) (y + ly) c

/-- FLIPH: mirrored when P[A] ≠ 0. -/
def augFliph : AugOp := fun _ a _ _ w =>
  match f32 (w.p a) with
  | .zero _ => w
  | _ => w.remap w.width w.height w.channels fun pic x y c => w.at_ pic (w.width - 1 - x) y c

/-- Source position of an output position, in 1/65536 (R303). -/
def resizePos (u src dst : Nat) : Nat :=
  (max 0 (min ((((2 * u + 1) * src * 65536 / (2 * dst) : Nat) : Int) - 32768) (((src - 1) * 65536 : Nat) : Int))).toNat

/-- The exact value of a finite FP32 pattern times a weight. -/
def weighed (x : W32) (k : Nat) : Val := match f32 x with
  | .fin s m e => Val.mk s (m * k) e
  | v => if k = 0 then .zero false else v

/-- An output element of RESIZE: the exact weighted mean of four, rounded once (R303). -/
def resizeElem (w : AugWork) (pic : List W32) (sx sy c : Nat) : W32 :=
  let x0 := sx / 65536
  let fx := sx % 65536
  let x1 := min (x0 + 1) (w.width - 1)
  let y0 := sy / 65536
  let fy := sy % 65536
  let y1 := min (y0 + 1) (w.height - 1)
  let sum := addVal (addVal (weighed (w.at_ pic x0 y0 c) ((65536 - fx) * (65536 - fy))) (weighed (w.at_ pic x1 y0 c) (fx * (65536 - fy))))
    (addVal (weighed (w.at_ pic x0 y1 c) ((65536 - fx) * fy)) (weighed (w.at_ pic x1 y1 c) (fx * fy)))
  toF32 (sum.scale (-32))

/-- RESIZE: to the class's W × H (R303). -/
def augResize : AugOp := fun t _ _ _ w =>
  match t.classOf w.stream with
  | none => w
  | some c =>
    let h := c.shape.getD 1 0
    let wd := c.shape.getD 2 0
    if w.width = 0 || w.height = 0 then w
    else w.remap wd h w.channels fun pic u v ch => resizeElem w pic (resizePos u w.width wd) (resizePos v w.height h) ch

/-- Coefficients of the three recommendations, rounded to FP32: rows R, G, B over Y, Cb, Cr (PRESUMED, log 28). -/
def colourRows (imm : Nat) : List (List W32) :=
  match imm with
  | 1 => [[0x3F800000, 0, 0x3FB374BC], [0x3F800000, 0xBEB032A2, 0xBF36D1A3], [0x3F800000, 0x3FE2D0E5, 0]]
  | 2 => [[0x3F800000, 0, 0x3FC9930C], [0x3F800000, 0xBE3FD1EF, 0xBEEFADFC], [0x3F800000, 0x3FED844D, 0]]
  | _ => [[0x3F800000, 0, 0x3FBCBFB1], [0x3F800000, 0xBE28809D, 0xBF124433], [0x3F800000, 0x3FF0D1B7, 0]]

/-- COLOUR: luma only, or RGB as ordered sums of the three channels (R303). No load accepts an IMM above 3, so such an
instruction cannot come about (log 3). -/
def augColour : AugOp := fun _ _ _ imm w =>
  if 3 < imm.toNat then w
  else if imm = 0 then w.remap w.width w.height 1 fun pic x y _ => w.at_ pic x y 0
  else w.remap w.width w.height 3 fun pic x y c =>
    let row := (colourRows imm.toNat).getD c []
    orderedSum ((List.range 3).map fun k => fpMul (w.at_ pic x y k) (row.getD k 0))

/-- AFFINE: fma(x, P[A+c], P[B+c]) on channel c, rounded once. -/
def augAffine : AugOp := fun _ a b _ w =>
  { w with units := w.units.map fun u => u.zipIdx.map fun e =>
      let c := e.2 % max 1 w.channels
      fpFma e.1 (w.p (a + c)) (w.p (b + c)) }

/-- TRIM: the first P[A] frames dropped. -/
def augTrim : AugOp := fun _ a _ _ w => { w with units := w.units.drop (max 0 (w.pInt a)).toNat }

/-- GAIN: x × P[A], rounded once. -/
def augGain : AugOp := fun _ a _ _ w => { w with units := w.units.map fun u => u.map fun x => fpMul x (w.p a) }

/-- The effect of an opcode. -/
def augOpOf (op : Nat) : AugOp :=
  match op with
  | 1 => augSelect
  | 2 => augCrop
  | 3 => augFliph
  | 4 => augResize
  | 5 => augColour
  | 6 => augAffine
  | 7 => augTrim
  | _ => augGain

/-- A program run on a sample (R302). -/
def runAug (t : Thresher) (prog : List W64) (w : AugWork) : AugWork :=
  prog.foldl (fun w i => augOpOf (bits i.toNat 63 56) t (bits i.toNat 55 48) (bits i.toNat 47 40) (i.setWidth 32) w) w

/-! ## Text (R295, R303) -/

/-- Bytes of a well-formed sequence by its first byte: how many continuation bytes, and the range of the first of them. -/
def utf8Lead (b : Nat) : Option (Nat × Nat × Nat) :=
  if b < 0x80 then some (0, 0, 0)
  else if 0xC2 ≤ b && b ≤ 0xDF then some (1, 0x80, 0xBF)
  else if b = 0xE0 then some (2, 0xA0, 0xBF)
  else if b = 0xED then some (2, 0x80, 0x9F)
  else if 0xE1 ≤ b && b ≤ 0xEF then some (2, 0x80, 0xBF)
  else if b = 0xF0 then some (3, 0x90, 0xBF)
  else if 0xF1 ≤ b && b ≤ 0xF3 then some (3, 0x80, 0xBF)
  else if b = 0xF4 then some (3, 0x80, 0x8F)
  else none

/-- Continuation bytes that follow, at most `n`, the first in a range of its own. -/
def utf8Tail : Nat → Nat → Nat → List Nat → Nat
  | 0, _, _, _ => 0
  | _ + 1, _, _, [] => 0
  | n + 1, lo, hi, b :: r => if lo ≤ b && b ≤ hi then 1 + utf8Tail n 0x80 0xBF r else 0

/-- A text cut into well-formed sequences and maximal ill-formed subsequences: each with whether it is well formed. -/
def textSpans : Nat → List Nat → List (Bool × List Nat)
  | 0, _ => []
  | _ + 1, [] => []
  | fuel + 1, b :: r => match utf8Lead b with
    | none => (false, [b]) :: textSpans fuel r
    | some (n, lo, hi) =>
      let k := utf8Tail n lo hi r
      (k == n, b :: r.take k) :: textSpans fuel (r.drop k)

/-- The spans of a byte string. -/
def spansOf (bs : Bytes) : List (Bool × List Nat) := textSpans (bs.length + 1) (bs.map (·.toNat))

/-- Each maximal ill-formed subsequence becomes U+FFFD (R295). -/
def mendText (spans : List (Bool × List Nat)) : List Nat := spans.flatMap fun s => if s.1 then s.2 else [0xEF, 0xBF, 0xBD]

/-- Which bytes of a text lie in an ill-formed subsequence (R295). -/
def illFormed (spans : List (Bool × List Nat)) : List Bool := spans.flatMap fun s => s.2.map fun _ => !s.1

/-- Pieces of a text: a byte of class SPLIT begins a new one (R303). -/
def textPieces (v : Vocab) (bs : List Nat) : List (List Nat) :=
  bs.foldr (fun b acc => match acc with
    | [] => [[b]]
    | p :: r => match p with
      | [] => [b] :: r
      | c :: _ => if v.split.contains c then [b] :: p :: r else (b :: p) :: r) []

/-- Rank of a pair of tokens. -/
def pairRank (v : Vocab) (a b : Nat) : Option Nat := v.merges.findIdx? fun m => m.1 == a && m.2 == b

/-- The pair of lowest rank, leftmost among equals: its place and rank. -/
def bestPair (v : Vocab) (ts : List Nat) : Option (Nat × Nat) :=
  ((ts.zip ts.tail).zipIdx.filterMap fun e => (pairRank v e.1.1 e.1.2).map fun r => (e.2, r)).foldl
    (fun best x => match best with
    | none => some x
    | some y => if x.2 < y.2 then some x else some y) none

/-- Merges in a piece until no listed pair is left (R303). -/
def mergePiece (v : Vocab) : Nat → List Nat → List Nat
  | 0, ts => ts
  | fuel + 1, ts => match bestPair v ts with
    | none => ts
    | some (i, r) => mergePiece v fuel (ts.take i ++ [256 + r] ++ ts.drop (i + 2))

/-- The tokens of a text. -/
def tokenise (v : Vocab) (bs : Bytes) : List Nat :=
  (textPieces v (mendText (spansOf bs))).flatMap fun p => mergePiece v p.length p

/-! ## Slots (R301) -/

/-- Elements of a class's SHAPE. -/
def shapeElems (c : BatchClass) : Nat :=
  match c.kind with
  | 0 => c.shape.getD 0 0 * c.shape.getD 1 0 * c.shape.getD 2 0 * c.shape.getD 3 0
  | 1 => c.shape.getD 0 0 * c.shape.getD 1 0
  | _ => c.shape.getD 0 0

/-- Bytes of an element of the class's FORMAT. -/
def slotElemBytes (c : BatchClass) : Nat := fmtBits (bits c.format.toNat 5 0) / 8

/-- The bytes of a padding slot: PAD throughout. -/
def padSlot (c : BatchClass) : Bytes :=
  let n := max 1 (slotElemBytes c)
  (List.range (c.slotBytes / n)).flatMap fun _ => leBytes n c.pad.toNat

/-- A slot's contents: its bytes, the valid length along the first axis, FLAGS bits, SAT_HIT and NONFINITE_IN counts. -/
structure Filled where
  content : Bytes
  length : Nat
  flags : Nat := 0
  sat : Nat := 0
  nonfinite : Nat := 0
deriving DecidableEq, Repr

/-- Element `i` of a slot from the sample, `none` where PAD stands (R301, R302). -/
def slotElem (c : BatchClass) (w : AugWork) (i : Nat) : Option W32 :=
  match c.kind with
  | 0 =>
    let ch := max 1 (c.shape.getD 3 1)
    let wd := max 1 (c.shape.getD 2 1)
    let h := max 1 (c.shape.getD 1 1)
    let x := i / ch % wd
    let y := i / (ch * wd) % h
    if x < w.width && y < w.height && i % ch < w.channels then
      (w.units[i / (ch * wd * h)]?).map fun pic => w.at_ pic x y (i % ch)
    else none
  | 1 =>
    let ch := max 1 (c.shape.getD 1 1)
    if i % ch < w.channels then (w.units[i / ch]?).bind fun u => u[i % ch]? else none
  | _ => (w.units[i]?).bind fun u => u[0]?

/-- A slot filled from element 0 on (R301). Text and raw elements stand as integers, the others as FP32 patterns; each is
converted to FORMAT with its TSCALE. -/
def fillSlot (c : BatchClass) (w : AugWork) : Filled :=
  let n := max 1 (slotElemBytes c)
  let fmt := fmtOf c.format.toNat
  let elems := (List.range (c.slotBytes / n)).map fun i =>
    if i < shapeElems c then
      match slotElem c w i with
      | none => { pat := c.pad.toNat }
      | some x => convert fmt 4 0 (if c.kind = 2 || c.kind = 3 then intVal x.toNat 0 else f32 x)
    else ({ pat := c.pad.toNat } : Conv)
  let axis := c.shape.getD 0 0
  let cut := c.kind == 0 && (w.width != c.shape.getD 2 0 || w.height != c.shape.getD 1 0)
  { content := slice (elems.flatMap fun e => leBytes n e.pat) 0 c.slotBytes
    length := min w.units.length axis
    flags := ofBool (decide (axis < w.units.length)) + 16 * ofBool cut
    sat := (elems.filter (·.sat)).length
    nonfinite := (elems.filter (·.nonfinite)).length }

/-! ## Samples of the kinds whose decoding the manual gives (Table 11.4) -/

/-- Where coded bytes of a sample are missing, counted from the first coded byte, and how many: all of them at its first gap
(R289, R292, R295; log 112). -/
def Sample.missing (s : Sample) : Nat × Nat :=
  let got := s.bytes.length - 64
  if s.damaged then (min (s.gapAt.getD s.bytes.length) s.bytes.length - 64, fld s.bytes 32 4 - got) else (got, 0)

/-- The coded bytes of a sample, missing ones as zero, or dropped (R289, R295). -/
def codedBytes (s : Sample) (dropGap : Bool) : Bytes :=
  let got := s.bytes.drop 64
  let m := s.missing
  if dropGap then got else got.take m.1 ++ List.replicate m.2 0 ++ got.drop m.1

/-- A PCM sample of `bytes` bytes at a place, as FP32. -/
def pcmValue (bytes : Nat) (b : Bytes) (at_ : Nat) : W32 :=
  if bytes = 4 then BitVec.ofNat 32 (fld b at_ 4)
  else toF32 (intVal (signed (8 * bytes) (fld b at_ bytes)) (1 - 8 * (bytes : Int)))

/-- What decoding found, from which of `n` declared units are concealed and where the first damage lies: bit k of REGION_MAP
covers the k-th 32nd of the sample (R295, Table 11.7). -/
def withDamage (out : Decoded) (n : Nat) (bad : List Nat) (first : Nat) : Decoded :=
  { out with
    supported := true
    grain := false
    concealed := bad.length
    declared := n
    firstDamage := if bad.isEmpty then 0xFFFFFFFF else BitVec.ofNat 32 first
    regionMap := bad.foldl (fun m u => m ||| BitVec.twoPow 32 (32 * u / n)) 0 }

/-- Elements of one value each. -/
def single (l : List Nat) : List (List W32) := l.map fun x => [BitVec.ofNat 32 x]

/-- PCM of `n` bytes a value: a frame with a missing byte is +0 (R291, R295). -/
def decodePcm (cfg : StreamCfg) (s : Sample) (n : Nat) (out : Decoded) : Decoded :=
  let b := codedBytes s false
  let m := s.missing
  let frame := n * max 1 cfg.channels
  let frames := b.length / frame
  let bad := (List.range frames).filter fun i => decide (i * frame < m.1 + m.2 ∧ max m.1 (i * frame) < min (m.1 + m.2) ((i + 1) * frame))
  { withDamage out frames bad m.1 with
    channels := cfg.channels
    units := (List.range frames).map fun i => (List.range cfg.channels).map fun c =>
      if bad.contains i then 0 else pcmValue n b (i * frame + n * c) }

/-- Text: its tokens; the bytes of ill-formed subsequences and the missing ones count as damage (R295, R303). -/
def decodeText (t : Thresher) (cfg : StreamCfg) (s : Sample) (out : Decoded) : Decoded :=
  let b := codedBytes s true
  let m := s.missing
  let ill := (illFormed (spansOf b)).zipIdx.filterMap fun e => if e.1 then some (if e.2 < m.1 then e.2 else e.2 + m.2) else none
  let bad := ill ++ (List.range m.2).map (· + m.1)
  { withDamage out (fld s.bytes 32 4) bad (bad.foldl min (bad.headD 0)) with
    units := single (tokenise ((tget t.vocabs cfg.vocab).getD { merges := [], split := [] }) b) }

/-- Raw bytes: missing ones are zero (R295). -/
def decodeRaw (s : Sample) (out : Decoded) : Decoded :=
  let m := s.missing
  { withDamage out (fld s.bytes 32 4) ((List.range m.2).map (· + m.1)) m.1 with units := single ((codedBytes s false).map (·.toNat)) }

/-- DEFLATE: up to MAX_UNITS bytes; missing coded bytes end it as a stream error does, and every byte after is zero (R290,
R295). A broken stream does not say how many bytes it declared: what the core hands over does (DESIGN CHOICE, log 112). -/
def decodeDeflate (cfg : StreamCfg) (s : Sample) (out : Decoded) : Decoded :=
  let m := s.missing
  let r := inflate (if m.2 = 0 then s.bytes.drop 64 else (s.bytes.drop 64).take m.1)
  let got := r.1.take cfg.maxUnits
  let n := if r.2.1 then got.length else min cfg.maxUnits (max (got.length + 1) out.declared)
  { withDamage out n ((List.range (n - got.length)).map (· + got.length)) r.2.2 with
    units := single (got ++ List.replicate (n - got.length) 0) }

/-- What decoding a sample comes to: computed here for PCM, text, raw bytes and DEFLATE, and what the decoder core hands over
for the other kinds (R290, R291, R295; log 112). -/
def decodedOf (t : Thresher) (cfg : StreamCfg) (s : Sample) (out : Decoded) : Decoded :=
  match cfg.kind with
  | 0x0B => decodePcm cfg s 2 out
  | 0x0C => decodePcm cfg s 3 out
  | 0x0D => decodePcm cfg s 4 out
  | 0x10 => decodeText t cfg s out
  | 0x20 => decodeRaw s out
  | 0x21 => decodeDeflate cfg s out
  | _ => out

/-- The decoded sample as the augmentation program takes it. -/
def decodedWork (s : Sample) (out : Decoded) : AugWork :=
  { stream := s.stream, width := out.width, height := out.height, channels := out.channels, units := out.units, params := s.params }

/-! ## Commands -/

/-- An augmentation instruction on the working sample of a die. -/
def augStep (die : Nat) (f : AugOp) (a b : Byte) (imm : W32) (d : Dev) : Dev :=
  if die < 2 then modTh d die fun t => { t with aug := f t a.toNat b.toNat imm t.aug } else d

def execAugSelect (die : Nat) (a b : Byte) (imm : W32) (s : State) : Out := act s (running (augStep die augSelect a b imm))
def execAugCrop (die : Nat) (a b : Byte) (imm : W32) (s : State) : Out := act s (running (augStep die augCrop a b imm))
def execAugFliph (die : Nat) (a b : Byte) (imm : W32) (s : State) : Out := act s (running (augStep die augFliph a b imm))
def execAugResize (die : Nat) (a b : Byte) (imm : W32) (s : State) : Out := act s (running (augStep die augResize a b imm))
def execAugColour (die : Nat) (a b : Byte) (imm : W32) (s : State) : Out := act s (running (augStep die augColour a b imm))
def execAugAffine (die : Nat) (a b : Byte) (imm : W32) (s : State) : Out := act s (running (augStep die augAffine a b imm))
def execAugTrim (die : Nat) (a b : Byte) (imm : W32) (s : State) : Out := act s (running (augStep die augTrim a b imm))
def execAugGain (die : Nat) (a b : Byte) (imm : W32) (s : State) : Out := act s (running (augStep die augGain a b imm))

end Sys2Proof.Machine
end

