-- ==== Sys2Proof/Machine/Steps.lean ====
section
/-! DEFINITION. Training numerics: the census, the close of a step, delayed scaling, and the step-control operations (09). -/

namespace Sys2Proof.Machine

/-! ## Census (R246 to R249) -/

/-- Base of a step's slot in the census area (R246). -/
def slotBase (d : Dev) (s : Nat) : Nat := d.steps.num.censusAddr + s % 2 ^ d.steps.num.censusLog2 * 135168

/-- The policy entry of a tensor, 0 without a table (R236, Table 9.5). -/
def policyOf (d : Dev) (tau : Nat) : Dev × Nat :=
  if d.steps.num.policyAddr = 0 then (d, 0)
  else match readMem d none (d.steps.num.policyAddr + 8 * tau) 8 with
    | (d1, .ok b) => (d1, fld b 0 8)
    | (d1, .error _) => (d1, 0)

/-- A count that stops at 0xFFFF_FFFF, and whether it has stopped (Table 9.4). -/
def stopCount (x : W32) (n : Nat) : W32 × Bool :=
  if 0xFFFFFFFF ≤ x.toNat + n then (0xFFFFFFFF, true) else (x + BitVec.ofNat 32 n, false)

/-- A record with a contribution merged (R247): counts added, MAXMAG the larger. -/
def CensusRec.merge (r : CensusRec) (c : CensusAdd) : CensusRec :=
  let sat := stopCount r.saturated c.saturated
  let nf := stopCount r.nonfinite c.nonfinite
  { elements := r.elements + BitVec.ofNat 64 c.elements
    zeros := r.zeros + BitVec.ofNat 64 c.zeros
    saturated := sat.1
    nonfinite := nf.1
    maxmag := if r.maxmag.toNat < c.maxmag.toNat then c.maxmag else r.maxmag
    touched := true
    satStuck := r.satStuck || sat.2
    nfStuck := r.nfStuck || nf.2 }

/-- A contribution for a step that takes none any more: CENSUS_LATE in the step's record if its slot still holds it, logged
once (R248). -/
def censusLate (d : Dev) (s : Nat) : Dev :=
  let d1 := if d.steps.num.censusAddr = 0 then d
    else match readMem d none (slotBase d s) 16 with
      | (x, .error _) => x
      | (x, .ok b) =>
        if fld b 0 8 = s && fld b 8 1 != 0 then (writeMem x none (slotBase d s + 11) [BitVec.ofNat 8 (fld b 11 1 ||| 4)]).1 else x
  if d1.steps.lateClosed.contains s then d1
  else logEvent { d1 with steps.lateClosed := d1.steps.lateClosed ++ [s] } evCensusLate .hub 0

/-- One contribution merged into an open step (R247), with the guard of its tensor's policy (Table 9.2, cause 0x03). -/
def mergeOne (s : Nat) (op : Option OpName) (d : Dev) (c : CensusAdd) : Dev :=
  let d1 := modStep d s fun st =>
    { st with census := tput st.census c.tensor ((tgetD st.census c.tensor {}).merge c) }
  if c.nonfinite = 0 then d1
  else
    let p := policyOf d1 c.tensor
    if bit p.2 7 then clearFlag p.1 s 3 op else p.1

/-- The contributions of a retirement in the control cycle in progress are merged, or discarded as late (R247, R248). -/
def mergeCensus (d : Dev) (s : Nat) (op : Option OpName) (cs : List CensusAdd) : Dev :=
  if cs.isEmpty then d
  else
    let d1 := { d with
      hub.mergeCycle := cycle d
      hub.merges := (if d.hub.mergeCycle = cycle d then d.hub.merges else 0) + 1 }
    if (stepState d1 s).isNone then censusLate d1 s else cs.foldl (mergeOne s op) d1

/-- The 64 merge places of the control cycle in progress are taken (R247). -/
def mergesFull (d : Dev) : Bool := d.hub.mergeCycle == cycle d && 64 ≤ d.hub.merges

/-- A census record (Table 9.4). -/
def CensusRec.bytes (r : CensusRec) : Bytes :=
  leBytes 8 r.elements.toNat ++ leBytes 8 r.zeros.toNat ++ leBytes 4 r.saturated.toNat ++ leBytes 4 r.nonfinite.toNat ++
  leBytes 4 r.maxmag.toNat ++ leBytes 1 (ofBool r.touched + 2 * ofBool r.satStuck + 4 * ofBool r.nfStuck) ++ List.replicate 3 0

/-- A step record (Table 9.6). -/
def StepState.bytes (st : StepState) (s commitTime flipped : Nat) : Bytes :=
  leBytes 8 s ++ leBytes 1 (if st.decision = some true then 1 else 2) ++ leBytes 1 (ofBool st.localAt) ++ [st.cause] ++
  leBytes 1 (ofBool st.notRepro + 2 * ofBool st.lateClear + 4 * ofBool st.censusLate + 8 * ofBool st.alone) ++
  leBytes 4 st.partials ++ leBytes 8 st.decideTime.toNat ++ leBytes 8 commitTime ++ leBytes 4 flipped ++
  leBytes 4 st.clearRing.toNat ++ leBytes 4 st.clearSeq.toNat ++ List.replicate 20 0

/-- The step record and the 4,096 census records are written (R248). -/
def writeCensus (d : Dev) (s flipped : Nat) (st : StepState) : Dev :=
  if d.steps.num.censusAddr = 0 then d
  else
    let recs := (List.range 4096).flatMap fun tau => (tgetD st.census tau {}).bytes
    let d1 := (writeMem d none (slotBase d s) (st.bytes s (deviceTime d) flipped)).1
    (writeMem d1 none (slotBase d s + 4096) recs).1

/-! ## Silent tensors and delayed scaling (R250 to R252) -/

/-- The silent-tensor detector at a close (R250). -/
def silentTensors (d : Dev) (s : Nat) (st : StepState) : Dev :=
  st.census.foldl (fun d e =>
    let r := e.2
    if r.elements = 0 then d
    else if r.zeros = r.elements then
      let run := tgetD d.steps.silent e.1 0 + 1
      let d1 := { d with steps.silent := tput d.steps.silent e.1 run }
      if run % d.steps.num.silentRun = 0 then logEvent d1 evSilentTensor .hub (e.1 + 2 ^ 12 * s) else d1
    else { d with steps.silent := tdel d.steps.silent e.1 }) d

/-- emax by format (Table 9.8): none for INT32 and codes outside Table 3.2. -/
def scaleEmax (code : Nat) : Option Int :=
  match code with
  | 0 => some 127
  | 1 => some 127
  | 2 => some 15
  | 3 => some 8
  | 4 => some 15
  | 5 => some 4
  | 6 => some 2
  | 7 => some 2
  | 8 => some 6
  | 9 => some 7
  | 10 => some 2
  | 12 => some 15
  | _ => none

/-- MAXMAG and NONFINITE of a tensor in a closed step's record. -/
def closedRecord (d : Dev) (tau s : Nat) : W32 × Nat :=
  let b := cellsRead d.mem.cells (slotBase d s + 4096 + 32 * tau) 32
  (BitVec.ofNat 32 (fld b 24 4), fld b 20 4)

/-- The new scale of a tensor (R251), before its clamp: `steps` are the closed steps' MAXMAG and NONFINITE. -/
def newScale (policy : Nat) (emax cur : Int) (steps : List (W32 × Nat)) : Int :=
  let nonfinite := steps.any fun r => r.2 != 0
  let nf := bits policy 19 18
  let back := bits policy 22 20
  if nonfinite && nf = 1 then cur
  else if nonfinite && nf = 2 then cur + (if back = 0 then 1 else back : Nat)
  else
    let amax := (steps.filter fun r => r.2 == 0).foldl (fun (m : W32) r => if m.toNat < r.1.toNat then r.1 else m) 0
    if amax = 0 then cur else (f32 amax).top - emax + bits policy 17 14

/-- Delayed scaling of one tensor at the close of step `s` (R251). -/
def scaleTensor (s : Nat) (d : Dev) (tau : Nat) : Dev :=
  match policyOf d tau with
  | (d1, p) =>
    if !(bit p 6) then d1
    else match scaleEmax (bits p 5 0) with
      | none =>
        if d1.steps.policyLogged.contains tau then d1
        else logEvent { d1 with steps.policyLogged := d1.steps.policyLogged ++ [tau] } evPolicyInvalid .hub 0
      | some emax =>
        let a := d1.steps.num.scaleAddr + 8 * tau
        match readMem d1 none a 8 with
        | (d2, .error _) => d2
        | (d2, .ok b) =>
          let t := newScale p emax (signed 8 (fld b (s % 4) 1))
            ((d2.steps.closed.take (bits p 11 8 + 1)).map (closedRecord d2 tau))
          (writeMem d2 none (a + (s + bits p 13 12 + 1) % 4) [BitVec.ofInt 8 (max (-127) (min 127 t))]).1

/-- Delayed scaling at a close (R236, R251). -/
def delayedScaling (d : Dev) (s : Nat) : Dev :=
  if d.steps.num.censusAddr = 0 || d.steps.num.scaleAddr = 0 || d.steps.num.policyAddr = 0 then d
  else (List.range 4096).foldl (scaleTensor s) d

/-! ## Shards (R242, R254 to R256, Table 9.7) -/

/-- Device address of a shard entry. -/
def shardAddr (d : Dev) (i : Nat) : Nat := d.steps.num.shardAddr + 64 * i

/-- The shard table's entries that are valid, or the status of a failed read. -/
def validShards (d : Dev) : Dev × Except Byte (List (Nat × Bytes)) :=
  if d.steps.num.shardAddr = 0 then (d, .ok [])
  else match readMem d none d.steps.num.shardAddr (64 * d.steps.num.shardCount) with
    | (d1, .error st) => (d1, .error st)
    | (d1, .ok b) => (d1, .ok (((List.range d.steps.num.shardCount).map fun i => (i, slice b (64 * i) 64)).filter fun e =>
        bit (fld e.2 26 1) 0))

/-- LIVE_SEL is inverted and LIVE_STEP written in every valid entry (R242). -/
def flipShards (d : Dev) (s : Nat) : Dev :=
  match validShards d with
  | (d1, .error _) => d1
  | (d1, .ok l) => l.foldl (fun d e =>
      (writeMem d none (shardAddr d e.1) (splice (splice e.2 26 [BitVec.ofNat 8 (fld e.2 26 1 ^^^ 4)]) 32 (leBytes 8 s))).1) d1

/-- The close of the oldest open step at its STEP_COMMIT's retirement (R242): census, detector, scaling, flip, in this
order; the next step becomes the oldest (R234). -/
def closeStep (d : Dev) (s flipped : Nat) : Dev :=
  match stepState d s with
  | none => d
  | some st =>
    let d1 := writeCensus d s flipped st
    let d2 := { d1 with steps.closed := if d1.steps.num.censusAddr = 0 then d1.steps.closed else (s :: d1.steps.closed).take 16 }
    let d3 := delayedScaling (silentTensors d2 s st) s
    let d4 := if st.decision = some true then flipShards d3 s else d3
    markReady (cycle d4 + 1) { d4 with
      steps.oldest := s + 1
      steps.opened := d4.steps.opened.tail ++ [{}] }

/-! ## Operations of the ring hub (Table 9.3) -/

/-- An operation of the ring hub that is issued and not complete. -/
def hubOp (code : Nat) (n : OpName) (f : Op → Dev → Dev) (d : Dev) : Dev :=
  match issuedOp d n, ringTarget d n.ring with
  | some o, some .hub => if o.opcode = code then f o d else d
  | _, _ => d

/-- The checks of class 0x09 at fetch: every operand byte but STEP and SHARD is reserved (R241). -/
def stepReserved (o : Op) : Bool :=
  if o.opcode = 0x0982 then o.f 40 2 < 4096 && o.zero 42 86 else o.zero 40 88

/-- The checks of class 0x09 at issue (R241). -/
def stepIssueCheck (d : Dev) (o : Op) : Option Byte :=
  let s := o.f 32 8
  if o.opcode = 0x0981 then (if s = d.steps.oldest then none else some stBadDescriptor)
  else if o.opcode = 0x0980 || o.opcode = 0x0982 then (if (stepState d s).isSome then none else some stBadDescriptor)
  else none

/-- STEP_DECIDE (R238): the flag decides as it stood at the issue. -/
def stepDecide (n : OpName) : Dev → Dev := hubOp 0x0980 n fun o d =>
  let s := o.f 32 8
  match stepState d s with
  | none => completeOp d n stBadDescriptor
  | some st => completeOp (decideStep d s (st.deciding.getD st.flag) true (.ring n.ring)) n stOk

/-- A ledger holds an entry of the step (R242). -/
def ledgerBusy (d : Dev) (s : Nat) : Bool := d.badgers.any fun b => b.2.ledger.any fun e => e.step.toNat == s

/-- STEP_COMMIT up to its retirement (R242): it waits for the ledgers under APPLY, then completes with the number of shards
it will flip. -/
def stepCommitReady (n : OpName) : Dev → Dev := hubOp 0x0981 n fun o d =>
  let s := o.f 32 8
  match stepIssueCheck d o, (stepState d s).bind (·.decision) with
  | some st, _ => completeOp d n st
  | none, none => d
  | none, some false => completeOp d n stStepSkipped
  | none, some true =>
    if ledgerBusy d s then waitOn d n
    else match validShards d with
      | (d1, .error st) => completeOp d1 n st
      | (d1, .ok l) => completeOp d1 n stOk l.length

/-- STEP_DECISION_STALL (R240): an operation has waited for its step's decision longer than WAIT_LIMIT. -/
def stepDecisionStall (n : OpName) (d : Dev) : Dev :=
  match getOp d n, getRing d n.ring with
  | some o, some r =>
    if waitsOver d r o && !(decisionMet d o) && !o.stallLogged && overdue d o.stallFrom r.waitLimit then
      logEvent (modOp d n fun o => { o with stallLogged := true }) evStepDecisionStall (.ring n.ring) 0
    else d
  | _, _ => d

/-- LEDGER_BUSY_AT_COMMIT (R242): a STEP_COMMIT has waited longer than WAIT_LIMIT for a ledger that still holds an entry. -/
def ledgerBusyAtCommit (n : OpName) : Dev → Dev := hubOp 0x0981 n fun o d =>
  if ledgerBusy d (o.f 32 8) && o.stallFrom.isSome && !o.stallLogged && overdue d o.stallFrom (ringLimit d n.ring) then
    logEvent (modOp d n fun o => { o with stallLogged := true }) evLedgerBusyAtCommit (.ring n.ring) 0
  else d

/-- The outcome of a read of another device's memory by an operation's own requests. -/
inductive RemoteRead where
  | unreachable | waits
  | got (b : Bytes)
deriving DecidableEq, Repr

/-- Bytes of another device's memory, read by class 0 requests of an operation (R256, R321; log 10): it waits for the
responses, and each `pass` reads anew. -/
def remoteRead (d : Dev) (n : OpName) (coord : W16) (a len pass : Nat) : Dev × RemoteRead :=
  let q (p : Nat × Nat) : Request :=
    { tag := 0, sentAt := 0, op := n, dest := coord, key := remoteKey coord (a + p.1), len := p.2, read := true, pass := pass
      info := leBytes 8 (a + p.1) ++ leBytes 8 p.2 }
  let left := (messagePieces len).filter fun p => !(hasFetched d n (remoteKey coord (a + p.1)) p.2 pass)
  if !(routable d coord) then ((sendRequest d (q (0, len)) []).1, .unreachable)
  else if left.isEmpty then (d, .got (cellsRead d.mem.remote (remoteKey coord a) len))
  else
    (left.foldl (fun d p =>
      if d.fabric.requests.any fun r => r.op == n && r.key == (q p).key && r.pass == pass then d else (sendRequest d (q p) []).1) d,
     .waits)

/-- A fetch reads the owner's entry and, when the version is there, copies it (R256, steps 2 to 4). What a fetch that ended
with the version passed by has copied is unspecified. -/
def fetchShard (n : OpName) (o : Op) (entry : Bytes) (d : Dev) : Dev :=
  let s := o.f 32 8
  let owner : W16 := BitVec.ofNat 16 (fld entry 28 2 % 2 ^ 15)
  let next := fld entry (if bit (fld entry 26 1) 2 then 0 else 8) 8
  let len := fld entry 16 8
  let fail (d : Dev) (st : Byte) (detail : Nat) : Dev :=
    completeOp (modOp d n fun o => { o with outs := o.outs ++ [(next, len)] }) n st detail
  match remoteRead d n owner (fld entry 40 8) 64 0 with
  | (d1, .unreachable) => fail d1 stFabricUnreachable 0
  | (d1, .waits) => d1
  | (d1, .got e) =>
    let live := fld e 32 8
    if live < s then modOp (waitOn d1 n) n fun o => { o with sendFrom := some (deviceTime d1), fetched := [] }
    else if s < live then fail d1 stRemoteError live
    else match remoteRead (modOp d1 n fun o => { o with stallFrom := none }) n owner (fld e (if bit (fld e 26 1) 2 then 8 else 0) 8) len 1 with
      | (d2, .unreachable) => fail d2 stFabricUnreachable 0
      | (d2, .waits) => d2
      | (d2, .got data) => match writeMem d2 (some n) next data with
        | (d3, some st) => fail d3 st 0
        | (d3, none) => match remoteRead d3 n owner (fld entry 40 8) 64 2 with
          | (d4, .unreachable) => fail d4 stFabricUnreachable 0
          | (d4, .waits) => d4
          | (d4, .got e2) => if fld e2 32 8 = s then completeOp d4 n stOk else fail d4 stRemoteError (fld e2 32 8)

/-- The shard entry that a fetch names, with the checks made at its issue (R256). -/
def shardEntry (d : Dev) (n : OpName) (o : Op) : Dev × Except (Byte × Nat) Bytes :=
  let i := o.f 40 2 % 4096
  if (stepState d (o.f 32 8)).isNone then (d, .error (stBadDescriptor, 0))
  else if d.steps.num.shardAddr = 0 then (d, .error (stBadAddress, 0))
  else if d.steps.num.shardCount ≤ i then (d, .error (stBadDescriptor, i))
  else match readMem d (some n) (shardAddr d i) 64 with
    | (d1, .error st) => (d1, .error (st, 0))
    | (d1, .ok b) =>
      let flags := fld b 26 1
      if !(bit flags 0) || bit flags 1 then (d1, .error (stBadDescriptor, i)) else (d1, .ok b)

/-- SHARD_FETCH (R256): the checks at its issue, then its reads and its copy as their responses come; while it waits for the
owner's version it goes on with SHARD_FETCH_RETRY. -/
def shardFetch (n : OpName) : Dev → Dev := hubOp 0x0982 n fun o d =>
  if o.sendFrom.isSome then d
  else if !(o.entry.isEmpty) then fetchShard n o o.entry d
  else match shardEntry d n o with
    | (d1, .error e) => completeOp d1 n e.1 e.2
    | (d1, .ok b) =>
      if ((stepState d (o.f 32 8)).bind (·.decision)) == some false then completeOp d1 n stStepSkipped
      else fetchShard n o b (modOp d1 n fun o => { o with entry := b })

/-- SHARD_FETCH_RETRY (R256): 1 µs after its last read, a waiting fetch reads the owner's entry again. -/
def shardFetchRetry (n : OpName) : Dev → Dev := hubOp 0x0982 n fun o d =>
  match o.sendFrom with
  | some t =>
    if t + 1000 ≤ deviceTime d then fetchShard n o o.entry (modOp d n fun o => { o with sendFrom := none }) else d
  | _ => d

/-- SHARD_FETCH_STALL (R256). -/
def shardFetchStall (n : OpName) : Dev → Dev := hubOp 0x0982 n fun o d =>
  if o.stallFrom.isSome && !o.stallLogged && overdue d o.stallFrom (ringLimit d n.ring) then
    logEvent (modOp d n fun o => { o with stallLogged := true }) evShardFetchStall (.ring n.ring) 0
  else d

def execStepDecide (ring : Nat) (seq : W32) (s : State) : Out := act s (running (stepDecide { ring := ring, seq := seq }))
def execStepDecisionStall (ring : Nat) (seq : W32) (s : State) : Out :=
  act s (running (stepDecisionStall { ring := ring, seq := seq }))
def execLedgerBusyAtCommit (ring : Nat) (seq : W32) (s : State) : Out :=
  act s (running (ledgerBusyAtCommit { ring := ring, seq := seq }))
def execShardFetch (ring : Nat) (seq : W32) (s : State) : Out := act s (running (shardFetch { ring := ring, seq := seq }))
def execShardFetchRetry (ring : Nat) (seq : W32) (s : State) : Out :=
  act s (running (shardFetchRetry { ring := ring, seq := seq }))
def execShardFetchStall (ring : Nat) (seq : W32) (s : State) : Out :=
  act s (running (shardFetchStall { ring := ring, seq := seq }))

end Sys2Proof.Machine
end

