-- ==== Sys2Proof/Machine/Coll.lean ====
section
/-! DEFINITION. Groups and collective operations (12 R325 to R330). -/

namespace Sys2Proof.Machine

/-! ## Groups (R325) -/

/-- Places of the members before member `k`. -/
def Group.firstPlace (g : Group) (k : Nat) : Nat := (g.members.take k).foldl (fun n m => n + m.2) 0

/-- N_PLACES. -/
def Group.places (g : Group) : Nat := g.firstPlace g.members.length

/-- Places of member `k`. -/
def Group.placesOf (g : Group) (k : Nat) : List Nat :=
  (List.range ((g.members.getD k (0, 0)).2)).map (· + g.firstPlace k)

/-- The member at some coordinates. -/
def Group.memberAt (g : Group) (c : W16) : Option Nat := g.members.findIdx? fun m => m.1 == c

/-- The group of that number. -/
def getGroup (d : Dev) (n : Nat) : Option Group := tget d.fabric.groups n

/-- This device as a member. -/
def Group.me (g : Group) (d : Dev) : Nat := (g.memberAt d.fabric.coord).getD 0

/-- Coordinates of a member. -/
def Group.coordOf (g : Group) (k : Nat) : W16 := (g.members.getD k (0, 0)).1

/-- A group record from its header and member entries (R325, Table 12.6). -/
def groupOf (header members : Bytes) : Group :=
  { members := (List.range (fld header 2 2)).map fun k =>
      (BitVec.ofNat 16 (fld members (4 * k) 2 % 2 ^ 15), fld members (4 * k + 2) 1 % 16 + 1)
    coord := fld header 8 2, late := fld header 10 1 == 1, rc := BitVec.ofNat 4 (fld header 11 1), windowNs := fld header 16 8
    failNs := fld header 24 8, stageAddr := fld header 32 8, stageBytes := fld header 40 8, header := header }

/-- The member entries of a group, as its record holds them (R325). -/
def Group.entryBytes (g : Group) : Bytes := g.members.flatMap fun m => leBytes 2 m.1.toNat ++ leBytes 2 (m.2 - 1)

/-! ## The descriptor (Table 12.7) -/

/-- The instance that a COLL belongs to. -/
def collName (d : Dev) (o : Op) : CollName :=
  { group := o.f 32 2 % 4096, step := BitVec.ofNat 64 (opStep d o), tag := BitVec.ofNat 32 (o.f 36 4) }

/-- KIND [1:0]: 0 ALL_REDUCE, 1 REDUCE_SCATTER, 2 ALL_GATHER, 3 BARRIER. -/
def Op.collKind (o : Op) : Nat := o.f 34 1 % 4
/-- HEALTH. -/
def Op.collHealth (o : Op) : Bool := bit (o.f 34 1) 3
/-- COUNT. -/
def Op.collCount (o : Op) : Nat := o.f 40 4
/-- SEG. -/
def Op.collSeg (o : Op) : Nat := max 1 (o.f 44 4)
/-- Segments of a place. -/
def Op.collSegs (o : Op) : Nat := (o.collCount + o.collSeg - 1) / o.collSeg

/-- Elements of a segment. -/
def segLength (count seg s : Nat) : Nat := min seg (count - seg * s)

/-- Both formats are INT32: sums and maxima are integers. -/
def collInt (inFmt outFmt : Nat) : Bool := (fmtOf inFmt).code == 11 && (fmtOf outFmt).code == 11

/-- A format word that COLL refuses (Table 12.7). -/
def collWordBad (w : Nat) : Bool := fmtWordBad w || (fmtOf w).mx || (fmtOf w).code == 12

/-- Every place holds whole groups of a sub-byte format (R86). -/
def collGroupsWhole (o : Op) : Bool :=
  o.collCount % packGroup (fmtOf (o.f 60 2)).code == 0 && o.collCount % packGroup (fmtOf (o.f 62 2)).code == 0

/-- Byte offset of an element of a packed array. -/
def elemOffset (fmt e : Nat) : Nat := fmtBits (fmtOf fmt).code * e / 8

/-- Bytes of the result that a COLL writes at one address. -/
def Op.collOut (o : Op) : Nat := packedBytes (fmtOf (o.f 62 2)).code o.collCount

/-- A range lies in GDDR7 or in a tile's SRAM of the engine's die (R326). -/
def collPlace (d : Dev) (die a len : Nat) : Bool :=
  len == 0 || (match rangeRegion d a len with
    | .gddr _ => true
    | .sram t => tileDie t == die
    | _ => false)

/-- Ranges of a COLL's addresses. -/
def collRanges (o : Op) (g : Group) (own : Nat) : List (Nat × Nat) :=
  let inBytes := packedBytes (fmtOf (o.f 60 2)).code o.collCount
  (List.range own).map (fun p => (o.f 48 8 + p * o.f 56 4, inBytes)) ++
  (if o.collKind = 2 then (List.range g.places).map fun p => (o.f 64 8 + p * o.f 72 4, o.collOut) else [(o.f 64 8, o.collOut)]) ++
  (if o.f 80 8 = 0 then [] else [(o.f 80 8, (g.places + 7) / 8)]) ++
  (if o.f 88 8 = 0 then [] else [(o.f 88 8, 64 + 4 * o.collCount * own)])

/-- The checks of a class 0x06 descriptor at fetch (R7, R326). The rule of R86 follows that of the formats (DEDUCED, log 108). -/
def collFetchCheck (d : Dev) (die : Nat) (o : Op) : Option Byte :=
  let name := collName d o
  let twice := (opsInFlight d).any fun e => e.2.opcode == 0x0601 && !e.2.failedFetch && collName d e.2 == name
  if o.opcode != 0x0601 then some stBadOpcode
  else if bits (o.f 32 2) 15 12 != 0 || 16 ≤ o.f 34 1 || !(o.zero 35 1 && o.zero 76 4 && o.zero 96 32) ||
      bit (o.f 60 2) 7 || bit (o.f 62 2) 7 ||
      decide (2 ^ 30 < o.collCount) || (o.collKind == 3 && o.collCount != 0) || o.f 44 4 % 64 != 0 || o.f 44 4 < 64 ||
      decide (2 ^ 24 < o.f 44 4) || (o.collKind != 2 && o.f 72 4 != 0) || twice then some stBadDescriptor
  else if collWordBad (o.f 60 2) || collWordBad (o.f 62 2) ||
      ((fmtOf (o.f 60 2)).code == 11) != ((fmtOf (o.f 62 2)).code == 11) then some stBadFormat
  else if !(collGroupsWhole o) then some stBadShape
  else match getGroup d name.group with
    | none => some stGroupInvalid
    | some g =>
      if (collRanges o g (g.placesOf (g.me d)).length).all fun r => collPlace d die r.1 r.2 then none else some stBadAddress

/-! ## Arithmetic (R327) -/

/-- An element of a contribution as the fold takes it: FP32, or INT32. -/
def collElem (inFmt outFmt : Nat) (data : Bytes) (i : Nat) : W32 :=
  let x := unpackElem (fmtOf inFmt).code data i
  if collInt inFmt outFmt then BitVec.ofNat 32 x else toF32 (readVal (fmtOf inFmt) x 127)

/-- The greater of two FP32 values as VMAX has it (R159). -/
def collMax (x y : W32) : W32 := laneFp 0 0 true (fun v => match v with
  | a :: b :: _ => if numLe b a then a else b
  | _ => .zero false) [x, y]

/-- The fold of one element over the places present, ascending (R116), or their maximum (R159). -/
def collFold (int max : Bool) (xs : List W32) : W32 :=
  match xs with
  | [] => 0
  | x :: r =>
    if int then (if max then r.foldl (fun a b => if a.toInt < b.toInt then b else a) x else r.foldl (· + ·) x)
    else if max then r.foldl collMax x
    else foldContributions xs

/-- The value that a fold stands for: FP32, or an INT32 sum in units of IN_FMT's 2^TSCALE (R90, R116; DEDUCED, log 108: the
patterns are summed, and the scale, one for all contributions, applies to the sum). -/
def collValue (inFmt outFmt : Nat) (x : W32) : Val :=
  if collInt inFmt outFmt then intVal x.toInt (fmtOf inFmt).scale else f32 x

/-- Elements converted to OUT_FMT under R96 with the group's RC, packed (R116, R327). -/
def collPack (inFmt outFmt rc : Nat) (xs : List W32) : Bytes :=
  let f := fmtOf outFmt
  packElems f.code (xs.map fun x => (convert f rc 0 (collValue inFmt outFmt x)).pat)

/-! ## Messages of an instance -/

/-- A message of a collective to a member, in pieces of at most 4,096 body bytes (Table 12.3); its TAG is the instance's. One
that cannot leave ends this device's COLL of the instance (R321). -/
def collSend (d : Dev) (dest : W16) (inst : CollName) (op : Nat) (body : Bytes) : Dev :=
  (List.range (max 1 ((body.length + 4095) / 4096))).foldl (fun d k =>
    let r := injectMsg d { dest := dest, src := 0, cls := 2, op := op, hops := 0, inject := 0, tag := inst.tag, info := instInfo inst
                           body := (body.drop (4096 * k)).take 4096 }
    if r.2 then r.1 else failCollective r.1 (instInfo inst) inst.tag) d

/-- The words of elements as bytes. -/
def wordBytes (xs : List W32) : Bytes := xs.flatMap fun x => leBytes 4 x.toNat

/-- Places as the bytes of a mask. -/
def placeMask (n : Nat) (places : List Nat) : Bytes :=
  leBytes ((n + 7) / 8) (places.foldl (fun m p => m + 2 ^ p) 0)

/-! ## Parts, roots and coordinators -/

/-- This device's part of an instance with `f` applied. -/
def modPart (d : Dev) (n : OpName) (f : MemberPart → MemberPart) : Dev :=
  { d with fabric.parts := d.fabric.parts.map fun p => if p.op == n then f p else p }

/-- This device's part of an operation. -/
def getPart (d : Dev) (n : OpName) : Option MemberPart := d.fabric.parts.find? fun p => p.op == n

/-- A root's segment with `f` applied. -/
def modRoot (d : Dev) (inst : CollName) (s : Nat) (f : RootSegment → RootSegment) : Dev :=
  { d with fabric.roots := d.fabric.roots.map fun r => if r.inst == inst && r.segment == s then f r else r }

/-- A coordinator's instance with `f` applied. -/
def modCoordinator (d : Dev) (inst : CollName) (f : Coordinator → Coordinator) : Dev :=
  { d with fabric.coordinators := d.fabric.coordinators.map fun c => if c.inst == inst then f c else c }

/-- Staging of steps that have left the window is freed (R328). -/
def pruneRoots (d : Dev) : Dev :=
  { d with fabric.roots := d.fabric.roots.filter fun r => decide (d.steps.oldest ≤ r.inst.step.toNat) }

/-! ## Completion of a member (R328, R329) -/

/-- Result segments that a member writes, as (segment, place). -/
def neededResults (d : Dev) (o : Op) (g : Group) (m : MaskMsg) : List (Nat × Nat) :=
  let segs := List.range o.collSegs
  match o.collKind with
  | 0 => segs.map fun s => (s, 0)
  | 1 => (segs.filter fun s => s % g.members.length == g.me d).map fun s => (s, 0)
  | 2 => segs.flatMap fun s => m.places.map fun p => (s, p)
  | _ => []

/-- The carry buffer of what a member sent (R329). -/
def carryBytes (step : W64) (count : Nat) (values : List (List W32)) : Bytes :=
  leBytes 8 1 ++ leBytes 8 step.toNat ++ leBytes 4 count ++ List.replicate 44 0 ++ values.flatMap wordBytes

/-- A member holds the mask and every result segment it writes: its COLL completes (R328, R329). -/
def finishColl (d : Dev) (n : OpName) (o : Op) (g : Group) (p : MemberPart) (m : MaskMsg) : Dev :=
  let own := g.placesOf (g.me d)
  let absent := m.places.length < g.places
  let late := !(own.all m.places.contains)
  let low := leNat ((placeMask g.places m.places).take 8)
  let keep (r : Dev × Option Byte) : Dev × Option Byte := (modOp r.1 n fun x => { x with outs := o.outs }, r.2)
  let d1 := if o.f 80 8 = 0 then (d, none) else keep (writeMem d (some n) (o.f 80 8) (placeMask g.places m.places))
  let d2 := if late then logEvent d1.1 evCollLate (.ring n.ring) 0 else d1.1
  let d3 := if late && g.late && o.f 88 8 != 0 then keep (writeMem d2 (some n) (o.f 88 8) (carryBytes p.inst.step o.collCount p.values))
    else (d2, none)
  match d1.2, d3.2 with
  | some st, _ => completeOp d3.1 n st
  | none, some st => completeOp d3.1 n st
  | none, none =>
    if !absent then completeOp d3.1 n stOk
    else if m.atDeadline && m.places == own then completeOp d3.1 n stNoContributors low
    else completeOp d3.1 n stPartial low

/-- A member's instance is looked at: it completes once nothing is missing (R328). -/
def checkColl (d : Dev) (n : OpName) : Dev :=
  match issuedOp d n, getPart d n with
  | some o, some p => match getGroup d p.inst.group, p.mask with
    | some g, some m =>
      match m.mismatch with
      | some place => logEvent (completeOp d n stBadShape place) evCollMismatch (.ring n.ring) 0
      | none => if (neededResults d o g m).all p.results.contains then finishColl d n o g p m else d
    | _, _ => d
  | _, _ => d

/-- The operation of this device in an instance. -/
def partOf (d : Dev) (inst : CollName) : Option MemberPart := d.fabric.parts.find? fun p => p.inst == inst

/-- A result segment is written at its offset in the result, or in its place's block (R327). -/
def takeResult (d : Dev) (inst : CollName) (s place : Nat) (data : Bytes) : Dev :=
  match partOf d inst with
  | none => d
  | some p => match issuedOp d p.op with
    | none => d
    | some o =>
      let base := if o.collKind = 2 then o.f 64 8 + place * o.f 72 4 else o.f 64 8
      let key := if o.collKind = 2 then (s, place) else (s, 0)
      match writeMem d (some p.op) (base + elemOffset (o.f 62 2) (s * o.collSeg)) data with
      | (d1, some st) => completeOp d1 p.op st
      | (d1, none) => checkColl (modPart d1 p.op fun p => { p with results := p.results ++ [key] }) p.op

/-! ## Roots (R327, R328) -/

/-- A result of a root goes to a member: over the fabric, or to this device itself. -/
def giveResult (g : Group) (r : RootSegment) (member : Nat) (place : Nat) (data : Bytes) (d : Dev) : Dev :=
  if g.coordOf member = d.fabric.coord then takeResult d r.inst r.segment place data
  else collSend d (g.coordOf member) r.inst opResult data

/-- The results of a root's segment: one, or one for each place of ALL_GATHER. -/
def rootResults (g : Group) (r : RootSegment) (m : MaskMsg) : List (Nat × Bytes) :=
  let inF := r.inFmt.toNat
  let outF := r.outFmt.toNat
  let present := m.places.filterMap fun p => (tget r.got p).map fun xs => (p, xs)
  if r.kind.toNat % 4 = 2 then present.map fun e => (e.1, collPack inF outF g.rc.toNat e.2)
  else
    let n := segLength r.count r.seg r.segment
    [(0, collPack inF outF g.rc.toNat ((List.range n).map fun i =>
      collFold (collInt inF outF) (bit r.kind.toNat 2) (present.map fun e => e.2.getD i 0)))]

/-- A root that has the mask and every place in it sends its results to the members whose segments it has and that have none
yet; REDUCE_SCATTER's stay with the root (R327). -/
def serveRoot (d : Dev) (inst : CollName) (s : Nat) : Dev :=
  match d.fabric.roots.find? (fun r => r.inst == inst && r.segment == s), getGroup d inst.group with
  | some r, some g => match r.mask with
    | none => d
    | some m =>
      if m.mismatch.isSome || !(m.places.all fun p => thas r.got p) then d
      else
        let ready := (List.range g.members.length).filter fun k =>
          !(r.sentTo.contains k) && (g.placesOf k).all (fun p => thas r.got p) && (r.kind.toNat % 4 != 1 || k == g.me d)
        let results := rootResults g r m
        let d1 := modRoot d inst s fun r => { r with sentTo := r.sentTo ++ ready }
        let d2 := ready.foldl (fun d k => results.foldl (fun d e => giveResult g r k e.1 e.2 d) d) d1
        let all := if r.kind.toNat % 4 = 1 then [g.me d] else List.range g.members.length
        if all.all (fun k => r.sentTo.contains k || ready.contains k) then
          { d2 with fabric.roots := d2.fabric.roots.filter fun r => !(r.inst == inst && r.segment == s) }
        else d2
  | _, _ => d

/-! ## The coordinator (R327, R328) -/

/-- The mask as a member takes it; a member that receives CARRY_IN marks its step (R327, R329). -/
def takeMask (d : Dev) (m : MaskMsg) : Dev :=
  let rooted := (d.fabric.roots.filter fun r => r.inst == m.inst).map (·.segment)
  let d1 := { d with fabric.roots := d.fabric.roots.map fun r => if r.inst == m.inst then { r with mask := some (r.mask.getD m) } else r }
  let d2 := rooted.foldl (fun d s => serveRoot d m.inst s) d1
  match partOf d2 m.inst with
  | none => d2
  | some p =>
    if p.mask.isSome && m.mismatch.isNone then d2
    else
      let d3 := modPart d2 p.op fun p => { p with mask := some m, maskAt := deviceTime d }
      let d4 := if m.carryIn then modStep d3 m.inst.step.toNat fun st => { st with notRepro := true } else d3
      checkColl d4 p.op

/-- The mask goes to a member. -/
def giveMask (g : Group) (m : MaskMsg) (d : Dev) (member : Nat) : Dev :=
  if g.coordOf member = d.fabric.coord then takeMask d m
  else collSend d (g.coordOf member) m.inst opMask
    (placeMask g.places m.places ++ leBytes 1 (ofBool m.flags + 2 * ofBool m.carryIn + 4 * ofBool m.atDeadline + 8 * ofBool m.mismatch.isSome) ++
      leBytes 4 (m.mismatch.getD 0))

/-- The coordinator closes the mask of an instance and sends it to every member (R327). -/
def closeMask (d : Dev) (inst : CollName) (atDeadline : Bool) : Dev :=
  match d.fabric.coordinators.find? (fun c => c.inst == inst), getGroup d inst.group with
  | some c, some g =>
    let counted := (List.range g.members.length).filter fun k => c.present.any fun x => x.1 == k
    let m : MaskMsg :=
      { inst := inst, places := counted.flatMap g.placesOf, flags := c.present.all fun x => x.2.1
        carryIn := c.present.any fun x => x.2.2, atDeadline := atDeadline, mismatch := c.mismatch }
    (List.range g.members.length).foldl (giveMask g m) (modCoordinator d inst fun c => { c with closed := some m })
  | _, _ => d

/-- A PRESENT reaches the coordinator (R327, R328): counted, late, or the report of a mismatch. -/
def takePresent (d : Dev) (p : PresentMsg) : Dev :=
  match getGroup d p.inst.group with
  | none => d
  | some g =>
    if g.coord != g.me d || g.members.length ≤ p.member then d
    else
      let fresh := !(d.fabric.coordinators.any fun c => c.inst == p.inst)
      let d1 := if fresh then
        { d with fabric.coordinators := d.fabric.coordinators ++
            [{ inst := p.inst, t0 := deviceTime d, present := [], closed := none, mismatch := none }] } else d
      match d1.fabric.coordinators.find? fun c => c.inst == p.inst with
      | none => d1
      | some c => match p.mismatch with
        | some place => closeMask (modCoordinator d1 p.inst fun c => { c with mismatch := some (min place (c.mismatch.getD place)) }) p.inst false
        | none => match c.closed with
          | some m => giveMask g m d1 p.member
          | none =>
            if c.t0 + g.windowNs ≤ deviceTime d then
              let d2 := closeMask d1 p.inst true
              match (d2.fabric.coordinators.find? fun c => c.inst == p.inst).bind (·.closed) with
              | none => d2
              | some m => giveMask g m d2 p.member
            else
              let d2 := modCoordinator d1 p.inst fun c =>
                { c with present := if c.present.any fun x => x.1 == p.member then c.present else c.present ++ [(p.member, p.flag, p.carried)] }
              let n := ((d2.fabric.coordinators.find? fun c => c.inst == p.inst).map fun c => c.present.length).getD 0
              if n = g.members.length then closeMask d2 p.inst false else d2

/-- A PRESENT goes to the coordinator. -/
def givePresent (d : Dev) (g : Group) (p : PresentMsg) : Dev :=
  if g.coord = g.me d then takePresent d p
  else collSend d (g.coordOf g.coord) p.inst opPresent (leBytes 2 p.member ++ leBytes 1 (ofBool p.flag + 2 * ofBool p.carried + 8 * ofBool p.mismatch.isSome) ++
      leBytes 4 (p.mismatch.getD 0))

/-! ## Segments (R327, R328) -/

/-- Two places of one instance differ in COUNT, SEG, KIND or formats (R328). -/
def segDiffers (r : RootSegment) (s : SegMsg) : Bool :=
  r.count != s.count || r.seg != s.seg || r.kind != s.kind || r.inFmt != s.inFmt || r.outFmt != s.outFmt

/-- A root keeps a place's segment in its staging area while an earlier place that may count is missing (R327). How the area is
laid out is not given: its bytes are then unspecified (log 118). -/
def stageSegment (d : Dev) (g : Group) (r : RootSegment) (place : Nat) : Dev :=
  let counts (p : Nat) : Bool := (r.mask.map fun m => m.places.contains p).getD true
  if (List.range place).any fun p => !(thas r.got p) && counts p then scramble d g.stageAddr g.stageBytes else d

/-- A place's segment at its root (R327, R328). Segments of steps older than the oldest open one are discarded. -/
def takeSegment (d0 : Dev) (s : SegMsg) : Dev :=
  let d := pruneRoots d0
  match getGroup d s.inst.group with
  | none => d
  | some g =>
    if s.inst.step.toNat < d.steps.oldest || s.segment % max 1 g.members.length != g.me d || g.places ≤ s.place then d
    else match d.fabric.roots.find? fun r => r.inst == s.inst && s.segment == r.segment with
      | none =>
        let known := (d.fabric.roots.find? fun r => r.inst == s.inst).bind (·.mask)
        let closed := (d.fabric.coordinators.find? fun c => c.inst == s.inst).bind (·.closed)
        let r : RootSegment := { inst := s.inst, segment := s.segment, count := s.count, seg := s.seg, kind := s.kind
                                 inFmt := s.inFmt, outFmt := s.outFmt, got := [(s.place, s.elems)]
                                 mask := if known.isSome then known else if closed.isSome then closed else (partOf d s.inst).bind (·.mask) }
        let d1 := stageSegment d g r s.place
        serveRoot { d1 with fabric.roots := d1.fabric.roots ++ [r] } s.inst s.segment
      | some r =>
        if segDiffers r s then
          givePresent d g { inst := s.inst, member := g.me d, flag := true, carried := false, mismatch := some s.place }
        else serveRoot (modRoot (stageSegment d g r s.place) s.inst s.segment fun r => { r with got := tput r.got s.place s.elems }) s.inst s.segment

/-- The member has every segment acknowledged: it sends PRESENT, with its flag sampled now under HEALTH (R327, R330). -/
def sendPresent (d : Dev) (n : OpName) : Dev :=
  match issuedOp d n, getPart d n with
  | some o, some p => match getGroup d p.inst.group with
    | none => d
    | some g =>
      if p.present || p.acked < p.segments then d
      else
        let s := p.inst.step.toNat
        let flag := !o.collHealth || ((stepState d s).map (·.flag)).getD true
        let d1 := modPart d n fun p => { p with present := true, presentAt := deviceTime d }
        let d2 := if o.collHealth then modStep d1 s fun st => { st with healthSent := true } else d1
        givePresent d2 g { inst := p.inst, member := g.me d, flag := flag, carried := p.carried }
  | _, _ => d

/-- Acknowledgements of a member's segments (R327). -/
def takeAcks (d : Dev) (n : OpName) (count : Nat) : Dev :=
  sendPresent (modPart d n fun p => { p with acked := min p.segments (p.acked + count) }) n

/-- One segment of one place goes to its root; this device's own root takes it at once. -/
def giveSegment (g : Group) (n : OpName) (d : Dev) (s : SegMsg) : Dev :=
  let root := s.segment % g.members.length
  if root = g.me d then modPart (takeSegment d s) n fun p => { p with acked := p.acked + 1 }
  else collSend d (g.coordOf root) s.inst opSegment (wordBytes s.elems)

/-! ## COLL -/

/-- The carry buffer that a COLL adds in, with its values summed over its places in order (R329). -/
def readCarry (d : Dev) (n : OpName) (o : Op) (g : Group) (step own : Nat) : Dev × Except Byte (Option (List (List W32))) :=
  if !g.late || o.f 88 8 = 0 then (d, .ok none)
  else
    let h := readMem d (some n) (o.f 88 8) 64
    match h.2 with
    | .error st => (h.1, .error st)
    | .ok b =>
      if fld b 0 1 = 0 || step ≤ fld b 8 8 then (h.1, .ok none)
      else
        let count := min (fld b 16 4) o.collCount
        let r := readAll h.1 (some n) ((List.range own).map fun p => (o.f 88 8 + 64 + 4 * p * fld b 16 4, 4 * count))
        (r.1, r.2.map fun bs => some (bs.map fun x => (List.range count).map fun i => BitVec.ofNat 32 (fld x (4 * i) 4)))

/-- A contribution with the carry added: add(contribution, carry, FP32) element by element (R329). -/
def addCarry (xs : List W32) (carry : List (List W32)) : List W32 :=
  carry.foldl (fun xs ys => xs.zipIdx.map fun e => match ys[e.2]? with
    | some y => f32Add e.1 y
    | none => e.1) xs

/-- A collective engine begins its oldest COLL: it reads its places and sends their segments (R327, R329). -/
def collStart (n : OpName) (d : Dev) : Dev :=
  match issuedOp d n, ringTarget d n.ring with
  | some o, some t =>
    let first := (issuedTo d t).find? fun e => e.2.done == 0
    if o.opcode != 0x0601 || o.done != 0 || first.map (fun e => (e.1, e.2.seq)) != some (n.ring, n.seq) then d
    else
      let d := modOp d n fun o => { o with done := 1 }
      let name := collName d o
      match getGroup d name.group with
      | none => completeOp d n stGroupInvalid
      | some g =>
        let places := g.placesOf (g.me d)
        let inF := o.f 60 2
        let outF := o.f 62 2
        let r := readAll d (some n) ((List.range places.length).map fun p => (o.f 48 8 + p * o.f 56 4, packedBytes (fmtOf inF).code o.collCount))
        match r.2 with
        | .error st => finishOp r.1 n [(o.f 64 8, o.collOut)] (.error st)
        | .ok raw =>
          let c := readCarry r.1 n o g name.step.toNat places.length
          match c.2 with
          | .error st => finishOp c.1 n [(o.f 64 8, o.collOut)] (.error st)
          | .ok carry =>
            let plain := raw.map fun b => (List.range o.collCount).map fun i => collElem inF outF b i
            let values := match carry, plain with
              | some cs, x :: rest => addCarry x cs :: rest
              | _, _ => plain
            let part : MemberPart :=
              { op := n, inst := name, values := values, segments := o.collSegs * places.length, carried := carry.isSome }
            let d1 := { c.1 with fabric.parts := c.1.fabric.parts ++ [part] }
            let segs := (List.range o.collSegs).flatMap fun s => (places.zip values).map fun e =>
              ({ inst := name, place := e.1, segment := s, count := o.collCount, seg := o.collSeg, kind := BitVec.ofNat 8 (o.f 34 1)
                 inFmt := BitVec.ofNat 16 inF, outFmt := BitVec.ofNat 16 outF
                 elems := (e.2.drop (s * o.collSeg)).take o.collSeg } : SegMsg)
            sendPresent (segs.foldl (giveSegment g n) d1) n
  | _, _ => d

/-- COLL. -/
def execColl (ring : Nat) (seq : W32) (s : State) : Out := act s (running (collStart { ring := ring, seq := seq }))

/-- A segment arrives over the fabric; the root acknowledges it (R327). -/
def segmentIn (s : SegMsg) (d : Dev) : Dev :=
  match getGroup d s.inst.group with
  | none => d
  | some g =>
    let from_ := (List.range g.members.length).find? fun k => (g.placesOf k).contains s.place
    let d1 := takeSegment d s
    match from_ with
    | none => d1
    | some k => if k = g.me d then d1 else collSend d1 (g.coordOf k) s.inst opAck []

/-- SEGMENT_RECEIVED. -/
def execSegmentReceived (seg : SegMsg) (s : State) : Out := act s (running (segmentIn seg))

/-- SEGMENT_ACK_RECEIVED. -/
def execSegmentAckReceived (ring : Nat) (seq : W32) (count : Nat) (s : State) : Out :=
  act s (running fun d => takeAcks d { ring := ring, seq := seq } count)

/-- PRESENT_RECEIVED. -/
def execPresentReceived (p : PresentMsg) (s : State) : Out := act s (running fun d => takePresent d p)

/-- The window of an instance has passed (R327). -/
def collDeadline (inst : CollName) (d : Dev) : Dev :=
  match d.fabric.coordinators.find? (fun c => c.inst == inst), getGroup d inst.group with
  | some c, some g => if c.closed.isNone && c.t0 + g.windowNs ≤ deviceTime d then closeMask d inst true else d
  | _, _ => d

/-- COLL_DEADLINE. -/
def execCollDeadline (inst : CollName) (s : State) : Out := act s (running (collDeadline inst))

/-- MASK_RECEIVED. -/
def execMaskReceived (mask : MaskMsg) (s : State) : Out := act s (running fun d => takeMask d mask)

/-- RESULT_RECEIVED. -/
def execResultReceived (res : ResultMsg) (s : State) : Out :=
  act s (running fun d => takeResult d res.inst res.segment res.place res.data)

/-- FAIL_NS has passed since PRESENT without a mask, or since the mask without a result (R328). -/
def collFail (n : OpName) (d : Dev) : Dev :=
  match issuedOp d n, getPart d n with
  | some _, some p => match getGroup d p.inst.group with
    | none => d
    | some g =>
      let since := if p.mask.isSome then p.maskAt else p.presentAt
      if (p.present || p.mask.isSome) && since + g.failNs ≤ deviceTime d then completeOp d n stFabricUnreachable else d
  | _, _ => d

/-- COLL_FAIL_TIMEOUT. -/
def execCollFailTimeout (ring : Nat) (seq : W32) (s : State) : Out := act s (running (collFail { ring := ring, seq := seq }))

/-! ## Retirement (R238, R249, R329, R330) -/

/-- A COLL retires in the success class: its step's count of partial collectives, the decision of a health collective, and a
carry buffer that was added in is marked empty (R249, R329, R330). -/
def collRetired (d : Dev) (n : OpName) (o : Op) : Dev :=
  match getPart d n with
  | none => d
  | some p =>
    let s := p.inst.step.toNat
    let d1 := if o.status = stPartial then modStep d s fun st => { st with partials := st.partials + 1, notRepro := true } else d
    let late := (p.mask.bind fun m => (getGroup d p.inst.group).map fun g => !((g.placesOf (g.me d)).all m.places.contains)).getD false
    let d2 := if p.carried && !late then (writeMem d1 none (o.f 88 8) [0]).1 else d1
    if o.collHealth then
      decideStep (beforeDecision (modStep d2 s fun st => { st with healthDone := true }) s) s ((p.mask.map (·.flags)).getD false) false (.ring n.ring)
    else d2

/-- The part of a COLL that has retired is over. -/
def dropPart (d : Dev) (n : OpName) : Dev := { d with fabric.parts := d.fabric.parts.filter fun p => p.op != n }

end Sys2Proof.Machine
end

