-- ==== Sys2Proof/Machine/Conv.lean ====
section
/-! DEFINITION. Convolution and pooling: geometry, taps, checks, CONV_MILL and the Quern (07). -/

namespace Sys2Proof.Machine

/-! ## Geometry (R189, R190) -/

/-- The geometry of Table 7.2. -/
structure Geom where
  h : Nat
  w : Nat
  kh : Nat
  kw : Nat
  sh : Nat
  sw : Nat
  dh : Nat
  dw : Nat
  phLo : Nat
  phHi : Nat
  pwLo : Nat
  pwHi : Nat
  c : Nat
  b : Nat
  pixStride : Nat
  zh : Nat
  zw : Nat
  fmt : Fmt
deriving DecidableEq, Repr

/-- The geometry of a descriptor. -/
def Op.geom (o : Op) : Geom :=
  { h := o.f 32 2, w := o.f 34 2, kh := o.f 36 1, kw := o.f 37 1, sh := o.f 38 1, sw := o.f 39 1, dh := o.f 40 2
    dw := o.f 42 2, phLo := o.f 44 2, phHi := o.f 46 2, pwLo := o.f 48 2, pwHi := o.f 50 2, c := o.f 52 2, b := o.f 54 2
    pixStride := o.f 56 4, zh := o.f 60 1, zw := o.f 61 1, fmt := fmtOf (o.f 62 2) }

/-- Every field lies in its range (Table 7.2). -/
def Geom.inRange (g : Geom) : Bool :=
  1 ≤ g.h && 1 ≤ g.w && 1 ≤ g.kh && decide (g.kh ≤ 32) && 1 ≤ g.kw && decide (g.kw ≤ 32) && 1 ≤ g.sh && decide (g.sh ≤ 64) &&
  1 ≤ g.sw && decide (g.sw ≤ 64) && 1 ≤ g.dh && decide (g.dh ≤ 4096) && 1 ≤ g.dw && decide (g.dw ≤ 4096) && 1 ≤ g.c && 1 ≤ g.b &&
  1 ≤ g.zh && decide (g.zh ≤ 64) && 1 ≤ g.zw && decide (g.zw ≤ 64)

/-- H_EFF and W_EFF. -/
def Geom.hEff (g : Geom) : Nat := (g.h - 1) * g.zh + 1
def Geom.wEff (g : Geom) : Nat := (g.w - 1) * g.zw + 1

/-- OH and OW (R190), which may be 0 or less. -/
def Geom.oh (g : Geom) : Int := ((g.hEff : Int) + g.phLo + g.phHi - g.dh * (g.kh - 1) - 1) / (g.sh : Int) + 1
def Geom.ow (g : Geom) : Int := ((g.wEff : Int) + g.pwLo + g.pwHi - g.dw * (g.kw - 1) - 1) / (g.sw : Int) + 1

/-- The output is empty (R191). -/
def Geom.empty (g : Geom) : Bool := decide (g.oh ≤ 0) || decide (g.ow ≤ 0)

/-- Output positions of all images. -/
def Geom.outputs (g : Geom) : Nat := g.b * g.oh.toNat * g.ow.toNat

/-- Taps. -/
def Geom.taps (g : Geom) : Nat := g.kh * g.kw

/-- CP: reduction positions of a tap (R192). -/
def Geom.cp (g : Geom) : Nat := 32 * ((g.c + 31) / 32)

/-- The input pixel of tap `t` at output position `p`; none where the position is padded (R192). -/
def Geom.pixel (g : Geom) (t p : Nat) : Option Nat :=
  let ohn := max 1 g.oh.toNat
  let own := max 1 g.ow.toNat
  let img := p / (ohn * own)
  let y : Int := ((p / own % ohn) * g.sh + t / g.kw * g.dh : Nat) - (g.phLo : Int)
  let x : Int := ((p % own) * g.sw + t % g.kw * g.dw : Nat) - (g.pwLo : Int)
  if y < 0 || x < 0 || (g.hEff : Int) ≤ y || (g.wEff : Int) ≤ x then none
  else if y.toNat % g.zh != 0 || x.toNat % g.zw != 0 then none
  else some ((img * g.h + y.toNat / g.zh) * g.w + x.toNat / g.zw)

/-! ## Operands -/

/-- Where the operands of a convolution lie. -/
structure ConvPlan where
  g : Geom
  base : Nat
  xOff : Nat
  fOff : Nat
  xsOff : Nat
  fsOff : Nat
  fStride : Nat
  fTapStride : Nat
  xsPixStride : Nat
  fsStride : Nat
  fFmt : Fmt
  flip : Bool
  p0 : Nat
  t0 : Nat
  m : Nat
  n : Nat
deriving DecidableEq, Repr

/-- Reads the ranges of the entries that have one, in order; the others stay `none`. -/
def readSome (d : Dev) (n : OpName) (l : List (Option (Nat × Nat))) : Dev × Except Byte (List (Option Bytes)) :=
  l.foldl (fun (acc : Dev × Except Byte (List (Option Bytes))) r =>
    match acc.2, r with
    | .error st, _ => (acc.1, .error st)
    | .ok got, none => (acc.1, .ok (got ++ [none]))
    | .ok got, some r => match readMem acc.1 (some n) r.1 r.2 with
      | (d1, .ok b) => (d1, .ok (got ++ [some b]))
      | (d1, .error st) => (d1, .error st)) (d, .ok [])

/-- The operands of `len` elements of a run with one scale byte, padded to 32 positions; all padded where there is no run. -/
def runOperands (f : Fmt) (len : Nat) (run scale : Option Bytes) : List (Option Operand) :=
  match run with
  | none => List.replicate 32 none
  | some b => (List.range 32).map fun i =>
      if i < len then some (mkOperand f (unpackElem f.code b i) (match scale with
        | some s => fld s 0 1
        | none => 127)) else none

/-- First channel and length of chunk `k` of a forward convolution (R192). -/
def ConvPlan.channels (q : ConvPlan) (k : Nat) : Nat × Nat :=
  let c0 := 32 * (k % (q.g.cp / 32))
  (c0, min 32 (q.g.c - c0))

/-- What chunk `k` of a forward convolution reads (R192): of each row its input run, of each row its scale, of each column its
filter run, of each column its scale. Filter elements are read where some row has an input element there. -/
def convReads (q : ConvPlan) (k : Nat) : List (Option (Nat × Nat)) :=
  let perTap := q.g.cp / 32
  let t := q.t0 + k / perTap
  let c0 := (q.channels k).1
  let len := (q.channels k).2
  let pix := (List.range q.m).map fun i => q.g.pixel t (q.p0 + i)
  let tf := if q.flip then q.g.taps - 1 - t else t
  let used := pix.any Option.isSome
  let xRuns := pix.map fun p => p.map fun p =>
    (q.base + q.xOff + p * q.g.pixStride + packedBytes q.g.fmt.code c0, packedBytes q.g.fmt.code len)
  let xScales := pix.map fun p => if q.g.fmt.mx then p.map fun p => (q.base + q.xsOff + p * q.xsPixStride + c0 / 32, 1) else none
  let fRuns := (List.range q.n).map fun j => if used then
    some (q.base + q.fOff + j * q.fStride + tf * q.fTapStride + packedBytes q.fFmt.code c0, packedBytes q.fFmt.code len) else none
  let fScales := (List.range q.n).map fun j => if used && q.fFmt.mx then
    some (q.base + q.fsOff + j * q.fsStride + tf * perTap + c0 / 32, 1) else none
  xRuns ++ xScales ++ fRuns ++ fScales

/-- The operands of chunk `k` of a forward convolution (R192): row i is output position P0 + i, column j is channel j. -/
def convOperands (q : ConvPlan) (k : Nat) (got : List (Option Bytes)) : ChunkRows × ChunkRows :=
  let len := (q.channels k).2
  let xs := got.take q.m
  let xss := (got.drop q.m).take q.m
  let fs := (got.drop (2 * q.m)).take q.n
  let fss := got.drop (2 * q.m + q.n)
  ((xs.zip xss).map fun e => runOperands q.g.fmt len e.1 e.2, (fs.zip fss).map fun e => runOperands q.fFmt len e.1 e.2)

/-- Chunk `k` of a forward convolution is read. -/
def convChunk (q : ConvPlan) (op : OpName) (k : Nat) (d : Dev) : Dev × Except Byte (ChunkRows × ChunkRows) :=
  let r := readSome d op (convReads q k)
  (r.1, r.2.map (convOperands q k))

/-- The bytes that hold element `i` of a packed run, as (offset, length). -/
def elemBytes (code i : Nat) : Nat × Nat :=
  let b := fmtBits code
  (b * i / 8, (b * (i + 1) + 7) / 8 - b * i / 8)

/-- Element `i` in those bytes. -/
def elemIn (code i : Nat) (b : Bytes) : Nat := leNat b / 2 ^ (fmtBits code * i % 8) % 2 ^ fmtBits code

/-- What chunk `k` of a weight gradient reads (R197): of each row its 32 elements, then of each position its run of output
channels. -/
def gradReads (q : ConvPlan) (kwg k : Nat) : List (Option (Nat × Nat)) :=
  let ps := (List.range 32).map fun i => if 32 * k + i < kwg then some (q.p0 + 32 * k + i) else none
  let pix (i : Nat) (p : Option Nat) : Option Nat := p.bind fun p => q.g.pixel (q.t0 + i / q.g.c) p
  let xRuns := (List.range q.m).flatMap fun i => ps.map fun p => (pix i p).map fun x =>
    let e := elemBytes q.g.fmt.code (i % q.g.c)
    (q.base + q.xOff + x * q.g.pixStride + e.1, e.2)
  let fRuns := ps.map fun p => match p with
    | none => none
    | some v => if (List.range q.m).any fun i => (pix i p).isSome then
        some (q.base + q.fOff + v * q.fStride, packedBytes q.fFmt.code q.n) else none
  xRuns ++ fRuns

/-- The operands of a chunk of a weight gradient (R197): row i is tap T0 + i // C and channel i mod C, column j is output
channel j, and the positions are output positions. -/
def gradOperands (q : ConvPlan) (got : List (Option Bytes)) : ChunkRows × ChunkRows :=
  let fs := got.drop (32 * q.m)
  let rows := (List.range q.m).map fun i => ((got.drop (32 * i)).take 32).map fun b => b.map fun b =>
    mkOperand q.g.fmt (elemIn q.g.fmt.code (i % q.g.c) b) 127
  let cols := (List.range q.n).map fun j => fs.map fun b => b.map fun b => mkOperand q.fFmt (unpackElem q.fFmt.code b j) 127
  (rows, cols)

/-- Chunk `k` of a weight gradient is read. -/
def gradChunk (q : ConvPlan) (kwg : Nat) (op : OpName) (k : Nat) (d : Dev) : Dev × Except Byte (ChunkRows × ChunkRows) :=
  let r := readSome d op (gradReads q kwg k)
  (r.1, r.2.map (gradOperands q))

/-! ## Checks (Table 7.6) -/

/-- ROLE and FLIP of CONV_MILL. -/
def Op.role (o : Op) : Bool := bit (o.f 108 1) 2
/-- MODE of QUERN_POOL. -/
def Op.poolMode (o : Op) : Nat := o.f 94 1 % 4
/-- TO_CHUTE of a Quern operation. -/
def Op.quernChute (o : Op) : Bool := bit (o.f 95 1) 5
/-- BIAS of QUERN_CONV. -/
def Op.bias (o : Op) : Bool := bit (o.f 95 1) 4
/-- Output channels of a Quern operation. -/
def Op.quernN (o : Op) : Nat := if o.opcode = 0x0302 then o.f 94 1 % 128 else o.f 52 2

/-- A forward operation of an empty output (R191). -/
def convEmpty (o : Op) : Bool := (o.opcode != 0x0301 || !o.role) && o.geom.empty

/-- Layers on which a Loom of the tile holds a read, as (handle, span): a hold lasts until its operation retires, whatever
becomes of the claim (R144). -/
def readSpans (d : Dev) (tile : Nat) : List (Nat × Nat) :=
  d.hub.rings.flatMap fun e => if targetOf e.2.target = some (.loom tile 1) then
    (e.2.ops.filter fun o => o.phase != .fetched).flatMap (·.holds) else []

/-- An operation would write layers on which a Loom holds a read, so it does not issue yet (R141). An operation that check 6 or
7 of Table 5.4 would end at its issue waits as well (DESIGN CHOICE, log 106); one of an empty output writes nothing (R191). -/
def heldByLoom (d : Dev) (tile : Nat) (o : Op) : Bool :=
  (o.opcode == 0x0101 || (o.opcode == 0x0301 && !(convEmpty o))) &&
  (readSpans d tile).any fun h => layersMeet h.1 h.2 o.handle (span o.accFmt o.accShape)

/-- Check 1. -/
def convReserved (o : Op) : Bool :=
  let xmx := bit (o.f 62 2) 6
  if o.opcode = 0x0301 then
    let fmx := bit (o.f 100 2) 6
    !(bit (o.f 62 2) 7) && !(bit (o.f 100 2) 7) && bits (o.f 106 1) 7 3 == 0 && bits (o.f 108 1) 7 3 == 0 && o.zero 109 3 &&
    o.zero 116 12 && (xmx || o.zero 72 4) && (fmx || o.zero 76 4) &&
    (if o.role then !(bit (o.f 108 1) 1) && o.zero 84 4 && o.zero 102 4 else o.zero 112 4)
  else
    let common := !(bit (o.f 62 2) 7) && !(bit (o.f 95 1) 3) && bits (o.f 95 1) 7 6 == 0 && !(bit (o.f 108 2) 7) && bits (o.f 116 2) 15 12 == 0 &&
      o.zero 122 6 &&
      (!o.quernChute || ((o.f 96 8) % 64 + bits (o.f 96 8) 11 8 * 256 == o.f 96 8 && o.zero 104 4))
    if o.opcode = 0x0302 then
      common && !(bit (o.f 94 1) 7) && !(bit (o.f 110 2) 7) && (xmx || o.zero 72 4) && (bit (o.f 110 2) 6 || o.zero 76 4) &&
      (o.bias || o.zero 112 4)
    else common && bits (o.f 94 1) 7 2 == 0 && o.poolMode != 3 && !o.bias && o.zero 68 20 && o.zero 110 6 && o.zero 118 4

/-- Check 2. -/
def convFormats (o : Op) : Bool :=
  let x := fmtOf (o.f 62 2)
  let out := fmtOf (o.f 108 2)
  if fmtWordBad (o.f 62 2) then false
  else if o.opcode = 0x0301 then
    let y := fmtOf (o.f 100 2)
    !(fmtWordBad (o.f 100 2)) && (match millPath x y with
    | none => false
    | some p => pathSuits p o.accFmt && (p != .int || (x.scale == 0 && y.scale == 0))) &&
    (!o.role || (!x.mx && !y.mx))
  else
    !(fmtWordBad (o.f 108 2)) && out.code != 12 && !out.mx &&
    (if o.opcode = 0x0302 then
      !(fmtWordBad (o.f 110 2)) && millPath x (fmtOf (o.f 110 2)) == some .float
    else decide (x.code ≤ 7) && !x.mx)

/-- Check 4. -/
def convGeometry (o : Op) : Bool := o.geom.inRange && (o.opcode == 0x0301 || (o.geom.zh == 1 && o.geom.zw == 1))

/-- The chute that a Quern operation names. -/
def quernTarget (d : Dev) (o : Op) : Option Chute := getChute d (o.f 96 1 % 64) (bits (o.f 96 2) 11 8)

/-- Bytes of an output row sent to a chute (R202). -/
def rowBytes (o : Op) : Nat := packedBytes (bits (o.f 108 2) 5 0) (o.geom.ow.toNat * o.quernN)

/-- Check 5. -/
def convShape (d : Dev) (o : Op) : Bool :=
  let g := o.geom
  let runX := packedBytes g.fmt.code g.c
  let sub := g.c % packGroup g.fmt.code == 0
  if o.opcode = 0x0301 then
    let m := o.f 92 2
    let n := o.f 94 2
    let t0 := o.f 96 2
    let tn := o.f 98 2
    let fc := bits (o.f 100 2) 5 0
    let dims := shapeDims o.accShape
    1 ≤ m && decide (m ≤ dims.1) && 1 ≤ n && decide (n ≤ dims.2) && 1 ≤ tn && decide (t0 + tn ≤ g.taps) &&
    (if o.role then
      m == tn * g.c && decide (o.f 88 4 + o.f 112 4 ≤ g.outputs) && (!g.empty || o.f 112 4 == 0) &&
      n % packGroup fc == 0 && decide (packedBytes fc n ≤ o.f 80 4)
    else
      decide (g.outputs < 2 ^ 32) && decide (o.f 88 4 + m ≤ g.outputs) && g.c % packGroup fc == 0 &&
      decide (packedBytes fc g.c ≤ o.f 80 4) && decide (packedBytes fc g.c ≤ o.f 84 4)) &&
    o.handle % span o.accFmt o.accShape == 0 && sub && decide (runX ≤ g.pixStride) && g.pixStride % 32 == 0
  else
    let n := o.quernN
    let oc := bits (o.f 108 2) 5 0
    1 ≤ o.f 90 2 && decide (((o.f 88 2 + o.f 90 2 : Nat) : Int) ≤ g.oh) && decide (o.f 92 2 < g.b) && sub && decide (runX ≤ g.pixStride) &&
    n % packGroup oc == 0 &&
    (o.opcode != 0x0302 ||
      (1 ≤ n && decide (n ≤ 64) && g.c % packGroup (bits (o.f 110 2) 5 0) == 0 &&
       decide (packedBytes (bits (o.f 110 2) 5 0) g.c ≤ o.f 80 4) && decide (packedBytes (bits (o.f 110 2) 5 0) g.c ≤ o.f 84 4))) &&
    (if o.quernChute then
      (match quernTarget d o with
      | none => true
      | some c => decide (o.f 90 2 ≤ c.depth) && decide (rowBytes o ≤ c.slotBytes))
    else decide (packedBytes oc n ≤ o.f 104 4))

/-- Check 6. -/
def convPlaces (d : Dev) (tile : Nat) (o : Op) : Bool :=
  let g := o.geom
  let cap := tileCapacity tile
  let pixels := g.b * g.h * g.w
  let blocks := (g.c + 31) / 32
  let inputOk (xs xss : Nat) : Bool := decide (o.f 64 4 + extent pixels g.pixStride (packedBytes g.fmt.code g.c) ≤ cap) &&
    (!g.fmt.mx || decide (xs + extent pixels xss blocks ≤ cap))
  let filterOk (f : Fmt) (n fss : Nat) : Bool :=
    decide (o.f 68 4 + extent n (o.f 80 4) (extent g.taps (o.f 84 4) (packedBytes f.code g.c)) ≤ cap) &&
    (!f.mx || decide (o.f 76 4 + extent n fss (g.taps * blocks) ≤ cap))
  if o.opcode = 0x0301 then
    let f := fmtOf (o.f 100 2)
    o.f 64 4 % 32 == 0 && o.f 68 4 % 32 == 0 && o.f 72 4 % 32 == 0 && o.f 76 4 % 32 == 0 && inputOk (o.f 72 4) (o.f 102 2) &&
    (if o.role then
      o.f 112 4 == 0 || decide (o.f 68 4 + extent (o.f 88 4 + o.f 112 4) (o.f 80 4) (packedBytes f.code (o.f 94 2)) ≤ cap)
    else filterOk f (o.f 94 2) (o.f 104 2))
  else
    inputOk (o.f 72 4) (o.f 118 2) &&
    (o.opcode != 0x0302 || (filterOk (fmtOf (o.f 110 2)) o.quernN (o.f 120 2) &&
      (!o.bias || decide (o.f 112 4 + 4 * o.quernN ≤ cap)))) &&
    (if o.quernChute then
      (match quernTarget d o with
      | none => false
      | some c => c.producer == tile)
    else localOrGddr d tile (o.f 96 8) (extent (o.f 90 2 * g.ow.toNat) (o.f 104 4) (packedBytes (bits (o.f 108 2) 5 0) o.quernN)))

/-- Checks 1 to 6 of Table 7.6, at fetch; those after check 4 are not made of an empty output (R191). -/
def convFetchCheck (d : Dev) (tile : Nat) (o : Op) : Option Byte :=
  if !(convReserved o) then some stBadDescriptor
  else if !(convFormats o) then some stBadFormat
  else if o.opcode != 0x0301 && 2 ≤ o.f 95 1 % 4 then some stBadRounding
  else if !(convGeometry o) then some stBadShape
  else if convEmpty o then none
  else if !(convShape d o) then some stBadShape
  else if !(convPlaces d tile o) then some stBadAddress
  else none

/-! ## CONV_MILL -/

/-- The operands of a CONV_MILL. -/
def convMillPlan (tile : Nat) (o : Op) : ConvPlan :=
  { g := o.geom, base := sramBase tile, xOff := o.f 64 4, fOff := o.f 68 4, xsOff := o.f 72 4, fsOff := o.f 76 4
    fStride := o.f 80 4, fTapStride := o.f 84 4, xsPixStride := o.f 102 2, fsStride := o.f 104 2, fFmt := fmtOf (o.f 100 2)
    flip := bit (o.f 108 1) 1, p0 := o.f 88 4, t0 := o.f 96 2, m := o.f 92 2, n := o.f 94 2 }

/-- CONV_MILL (R192 to R197). -/
def convMill (n : OpName) : Dev → Dev := engineOp 0x0301 n fun t o d =>
  match t, t.tile.bind fun tile => setAt d tile o.handle with
  | .mill tile, some s =>
    let q := convMillPlan tile o
    let add := bit (o.f 108 1) 0
    let done (_ : AccSet) (d : Dev) : Dev := completeOp d n stOk
    if o.role then productInto tile n o s add q.m q.n (o.f 112 4) q.g.fmt q.fFmt (gradChunk q (o.f 112 4) n) d done
    else productInto tile n o s add q.m q.n (o.f 98 2 * q.g.cp) q.g.fmt q.fFmt (convChunk q n) d done
  | _, _ => d

def execConvMill (ring : Nat) (seq : W32) (s : State) : Out := act s (running (convMill { ring := ring, seq := seq }))

/-! ## The Quern -/

/-- A Quern with `f` applied. -/
def modQuern (d : Dev) (tile : Nat) (f : Quern → Quern) : Dev := { d with querns := tput d.querns tile (f (tgetD d.querns tile {})) }

/-- The output of a Quern so far: its SAT_HIT and NONFINITE_IN counts, and the entries to send. -/
structure QuernOut where
  sat : Nat := 0
  nonfinite : Nat := 0
  sends : List Send := []
deriving DecidableEq, Repr

/-- An output row converted and put out: pixel by pixel to memory, or one entry of a chute (R202). -/
def putRow (n : OpName) (o : Op) (d : Dev) (acc : QuernOut) (oh : Nat) (pixels : List (List Val)) : Dev × Except Byte QuernOut :=
  let fw := o.f 108 2
  let fmt := fmtOf fw
  let convs := pixels.map fun p => p.map (convert fmt (o.f 95 1 % 16) 0)
  let all := convs.flatten
  let acc1 : QuernOut := { acc with
    sat := acc.sat + (all.filter (·.sat)).length, nonfinite := acc.nonfinite + (all.filter (·.nonfinite)).length }
  if o.quernChute then
    let payload := packElems fmt.code (all.map (·.pat))
    let stamp := entryStamp n o
    let header := chuteHeader n.ring n.seq.toNat stamp.1 (stamp.2 % 2 ^ 32) (o.f 116 2 % 4096) oh (o.f 92 2) (fw % 256)
      (oh + 1 == o.f 88 2 + o.f 90 2) payload.length
    let s : Send := { consumer := o.f 96 1 % 64, queue := bits (o.f 96 2) 11 8, header := header, payload := payload }
    (d, .ok { acc1 with sends := acc1.sends ++ [s] })
  else
    let start := o.f 96 8 + (oh - o.f 88 2) * o.geom.ow.toNat * o.f 104 4
    let w := writeAll d (some n) (convs.zipIdx.map fun e => (start + e.2 * o.f 104 4, packElems fmt.code (e.1.map (·.pat))))
    match w.2 with
    | some st => (w.1, .error st)
    | none => (w.1, .ok acc1)

/-- Output rows in ascending order: `row` computes a row's pixels. -/
def quernRows (n : OpName) (o : Op) (row : Nat → Dev → Dev × Except Byte (List (List Val))) :
    List Nat → Dev → QuernOut → Dev × Except Byte QuernOut
  | [], d, acc => (d, .ok acc)
  | oh :: r, d, acc =>
    match row oh d with
    | (d1, .error st) => (d1, .error st)
    | (d1, .ok px) => match putRow n o d1 acc oh px with
      | (d2, .error st) => (d2, .error st)
      | (d2, .ok acc1) => quernRows n o row r d2 acc1

/-- Blocks of an output row (R203). -/
def rowBlocks (o : Op) : Nat :=
  (o.geom.ow.toNat + 63) / 64 * (if o.opcode = 0x0303 then (o.quernN + 63) / 64 else 1)

/-- An operation is the one that its Quern runs: the oldest issued to it and not over, with what it still sends (R199). -/
def quernRuns (d : Dev) (tile : Nat) (n : OpName) : Bool :=
  ((issuedTo d (.quern tile)).head?.map fun e => (e.1, e.2.seq)) == some (n.ring, n.seq)

/-- The Quern has done with its running operation: the next one starts (R199). -/
def quernNext (d : Dev) (tile : Nat) : Dev := modQuern d tile fun q => { q with since := engineCycles d (.quern tile) }

/-- A Quern operation over its rows (R199 to R206). -/
def quernOp (code : Nat) (n : OpName) (row : Nat → Op → Nat → Dev → Dev × Except Byte (List (List Val))) : Dev → Dev :=
  engineOp code n fun t o d =>
    match t with
    | .quern tile =>
      if !(quernRuns d tile n) then d
      else
        let rows := (List.range (o.f 90 2)).map (· + o.f 88 2)
        match quernRows n o (row tile o) rows d {} with
        | (d1, .error st) => completeOp (quernNext d1 tile) n st
        | (d1, .ok acc) =>
          let add : CensusAdd := { tensor := o.f 116 2 % 4096, saturated := acc.sat, nonfinite := acc.nonfinite }
          let d2 := modOp d1 n fun o => { o with census := o.census ++ [add] }
          let d3 := modQuern d2 tile fun q =>
            { q with blocks := BitVec.ofNat 32 (rowBlocks o * rows.length), row := BitVec.ofNat 16 (o.f 88 2 + o.f 90 2 - 1) }
          finishSending (quernNext (progress d3 n) tile) n acc.sends (min acc.sat 0xFFFFFFFF + 2 ^ 32 * min acc.nonfinite 0xFFFFFFFF)
    | _ => d

/-- The operands of output row `oh` of a QUERN_CONV (R201). -/
def quernConvPlan (tile : Nat) (o : Op) (oh : Nat) : ConvPlan :=
  let g := o.geom
  let ow := g.ow.toNat
  { g := g, base := sramBase tile, xOff := o.f 64 4, fOff := o.f 68 4, xsOff := o.f 72 4, fsOff := o.f 76 4
    fStride := o.f 80 4, fTapStride := o.f 84 4, xsPixStride := o.f 118 2, fsStride := o.f 120 2, fFmt := fmtOf (o.f 110 2)
    flip := false, p0 := (o.f 92 2 * g.oh.toNat + oh) * ow, t0 := 0, m := ow, n := o.quernN }

/-- The pixels of one output row of a QUERN_CONV (R201). -/
def quernConvRow (n : OpName) (tile : Nat) (o : Op) (oh : Nat) (d : Dev) : Dev × Except Byte (List (List Val)) :=
  let q := quernConvPlan tile o oh
  let g := q.g
  let start := (List.range q.m).map fun _ => List.replicate q.n (none : Option Nat)
  let biases := if o.bias then readMem d (some n) (sramBase tile + o.f 112 4) (4 * q.n) else (d, .ok [])
  match biases with
  | (d1, .error st) => (d1, .error st)
  | (d1, .ok bs) =>
    match productChunks .float 0 g.fmt q.fFmt (convChunk q n) (g.taps * g.cp / 32) 0 (d1, start) with
    | (d2, .error e) => (d2, .error e.1)
    | (d2, .ok res) => (d2, .ok (res.map fun px => px.zipIdx.map fun e =>
        let a := elemVal 0 false (e.1.getD 0)
        if o.bias then f32 (BitVec.ofNat 32 (addFmt 0 a (elemVal 0 false (fld bs (4 * e.2) 4)))) else a))

/-- QUERN_CONV (R201). -/
def quernConv (n : OpName) : Dev → Dev := quernOp 0x0302 n fun tile o oh d => quernConvRow n tile o oh d

def execQuernConv (ring : Nat) (seq : W32) (s : State) : Out := act s (running (quernConv { ring := ring, seq := seq }))

/-- The pooled value of one window of one channel: `none` is a padded position (R204). -/
def poolValue (mode taps : Nat) (vs : List (Option Val)) : Val :=
  let real := vs.filterMap id
  if mode = 0 then
    match firstNan real with
    | some v => v
    | none => match real with
      | [] => .zero false
      | x :: r => r.foldl (fun m y => if y.lt m || (y.le m && (y.neg || !m.neg)) then m else y) x
  else
    let s := f32 (BitVec.ofNat 32 (reduceFloat 0 none taps fun t => [(vs.getD t none).getD padded]))
    let div := if mode = 1 then taps else real.length
    if div = 0 then .zero false else f32 (toF32 (quotVal s (.fin false div 0)))

/-- The input pixel under tap `t` of the window of pixel `x` of output row `oh`, as a run of channels; none where it is padded
(R204). -/
def poolRun (tile : Nat) (o : Op) (oh x t : Nat) : Option (Nat × Nat) :=
  let g := o.geom
  (g.pixel t ((o.f 92 2 * g.oh.toNat + oh) * g.ow.toNat + x)).map fun p =>
    (sramBase tile + o.f 64 4 + p * g.pixStride, packedBytes g.fmt.code g.c)

/-- The pixels of one output row of a QUERN_POOL. -/
def quernPoolRow (n : OpName) (tile : Nat) (o : Op) (oh : Nat) (d : Dev) : Dev × Except Byte (List (List Val)) :=
  let g := o.geom
  let ow := g.ow.toNat
  match readSome d n ((List.range ow).flatMap fun x => (List.range g.taps).map (poolRun tile o oh x)) with
  | (d1, .error st) => (d1, .error st)
  | (d1, .ok got) => (d1, .ok ((List.range ow).map fun x =>
      let win := (got.drop (x * g.taps)).take g.taps
      (List.range g.c).map fun c => poolValue o.poolMode g.taps (win.map fun b => b.map fun b =>
        readVal g.fmt (unpackElem g.fmt.code b c) 127)))

/-- QUERN_POOL (R204). -/
def quernPool (n : OpName) : Dev → Dev := quernOp 0x0303 n fun tile o oh d => quernPoolRow n tile o oh d

def execQuernPool (ring : Nat) (seq : W32) (s : State) : Out := act s (running (quernPool { ring := ring, seq := seq }))

/-- QUERN_WATCHDOG_EXPIRY: no block of the running operation for LIMIT × 65,536 core cycles ends it (R199, R206). Its cycles
count from its issue, or from the end of the operation before it. -/
def quernWatchdogExpiry (n : OpName) (d : Dev) : Dev :=
  match issuedOp d n, ringTarget d n.ring with
  | some o, some (.quern tile) =>
    let q := tgetD d.querns tile {}
    if o.sends.isEmpty && quernRuns d tile n &&
        decide (max o.progressAt q.since + q.limit.toNat * 65536 ≤ engineCycles d (.quern tile)) then
      completeOp (quernNext d tile) n stEngineTimeout
    else d
  | _, _ => d

def execQuernWatchdogExpiry (ring : Nat) (seq : W32) (s : State) : Out :=
  act s (running (quernWatchdogExpiry { ring := ring, seq := seq }))

end Sys2Proof.Machine
end

