-- ==== Sys2Proof/Machine/Sequencer.lean ====
section
/-! DEFINITION. The Sequencer: scripts, the release of units, offload, abandoned steps and stage migration (10). -/

namespace Sys2Proof.Machine

/-! ## Members and units (Tables 10.1 to 10.4) -/

/-- Mj: micro-batches of a member (10, Table 10.2). -/
def microCount (micro : Nat) (m : Member) : Nat := (micro - m.mbRem + m.mbMod - 1) / m.mbMod

/-- SAVE_BYTES (Table 10.2). -/
def saveBytes (m : Member) : Nat := (m.tokens * m.saveBpt + 4095) / 4096 * 4096

/-- S: save slots in use; Mj for a member that fell back (R271). -/
def saveSlots (micro : Nat) (m : Member) : Nat := if m.fellBack then microCount micro m else m.slots

/-- The member moves its saves to the pool. -/
def offloads (m : Member) : Bool := m.offload && !m.fellBack

/-- Templates of a phase: 0 forward, 1 backward, 2 end; first and count. -/
def phaseTemplates (m : Member) (phase : Nat) : Nat × Nat := if phase = 0 then m.fwd else if phase = 1 then m.bwd else m.fin

/-- Units of a phase in one step; a unit with a count of zero is passed over (R266). -/
def unitCount (micro : Nat) (m : Member) (phase : Nat) : Nat :=
  if (phaseTemplates m phase).2 = 0 then 0 else if phase = 2 then 1 else microCount micro m

/-- The cursor moved on to the next unit there is, within `fuel` phases. -/
def settleCursor (micro : Nat) : Nat → Member → Member
  | 0, m => m
  | fuel + 1, m =>
    if m.j < unitCount micro m m.phase then m
    else settleCursor micro fuel (if m.phase < 2 then { m with phase := m.phase + 1, j := 0 }
      else { m with step := m.step + 1, phase := 0, j := 0 })

/-- The micro-batch place j of the cursor's unit: ascending forward, descending backward (R266). -/
def cursorJ (micro : Nat) (m : Member) : Nat := if m.phase = 1 then microCount micro m - 1 - m.j else m.j

/-- A script governs a step (R281). -/
def Script.governs (x : Script) (s : Nat) : Bool := decide (x.start ≤ s) && x.until_.all fun u => s < u

/-- Every member of a script with `f` applied. -/
def mapMembers (d : Dev) (f : Script → Member → Member) : Dev :=
  { d with seq.scripts := d.seq.scripts.map fun x => { x with members := x.members.map (f x) } }

/-- A ring is a member of a loaded script (R263). -/
def isMember (d : Dev) (ring : Nat) : Bool := d.seq.scripts.any fun x => x.members.any fun m => m.ring == ring && !m.removed

/-- The member of a ring in the script that governs a step. -/
def memberAt (d : Dev) (ring s : Nat) : Option (Script × Member) :=
  d.seq.scripts.findSome? fun x => if x.governs s then (x.members.find? fun m => m.ring == ring && !m.removed).map fun m => (x, m) else none

/-- A step has been abandoned on this device (R273). -/
def isAbandoned (d : Dev) (s : Nat) : Bool := d.seq.abandoned.any fun a => a.step == s

/-- The cursor passes over the abandoned steps; a HEALTH member still releases its units of them (R273, R275). -/
def passAbandoned (d : Dev) (x : Script) : Nat → Member → Member
  | 0, m => m
  | fuel + 1, m =>
    if isAbandoned d m.step && x.governs m.step && !m.health then
      passAbandoned d x fuel (settleCursor x.micro 4 { m with step := m.step + 1, phase := 0, j := 0, ripeAt := none })
    else m

/-- The turn of a step: every forward unit of every member has retired in the success class (R266). -/
def turnCome (d : Dev) (x : Script) (s : Nat) : Bool :=
  x.members.all fun m => m.removed || unitCount x.micro m 0 == 0 ||
    ((decide (s < m.step) || (m.step == s && m.phase != 0)) &&
      d.seq.units.all fun u => !(u.ring == m.ring && u.step == s && u.phase == 0) || u.retired == u.count)

/-- The stage of a ring is held by a migration (R278). -/
def ringHeld (d : Dev) (ring : Nat) : Bool := match d.seq.migration with
  | none => false
  | some g => (tget d.seq.stages g.stage).any fun st => st.rings.contains ring

/-- The member carries the health collective of an abandoned step: its units of it go out at once (R275). -/
def healthRun (d : Dev) (m : Member) : Bool := m.health && isAbandoned d m.step

/-- Pool entry of a micro-batch in one of the given states. -/
def copyIn (m : Member) (s j : Nat) (states : List Nat) : Bool := m.copies.any fun c => c.1 == s && c.2.1 == j && states.contains c.2.2

/-- Every condition of Table 10.4 for the cursor's unit, but the room in its ring. -/
def unitRipe (d : Dev) (x : Script) (m : Member) : Bool :=
  let s := m.step
  let j := cursorJ x.micro m
  let slots := saveSlots x.micro m
  !m.removed && x.governs s && s ≤ d.steps.oldest + 3 && !(ringHeld d m.ring) &&
  ((getRing d m.ring).any fun r => r.st == .running && r.haltAt.isNone) &&
  (healthRun d m ||
    (!(isAbandoned d s) &&
     (if m.phase = 0 then
        (m.j != 0 || decide (s ≤ x.start) || m.gateOpen || s ≤ d.steps.oldest) &&
        (!(offloads m) || j < slots || copyIn m s (j - slots) [2, 3, 4])
      else turnCome d x s &&
        (m.phase != 1 || !(offloads m) || microCount x.micro m - slots ≤ j || copyIn m s j [4]))))

/-- The ring has room for the cursor's unit. -/
def unitFits (d : Dev) (m : Member) : Bool :=
  (getRing d m.ring).any fun r => (phaseTemplates m m.phase).2 + (r.submitted - r.retired).toNat ≤ r.len

/-- A member after a look at its next unit: the cycle at which it became releasable, and the time since which it waits for
room alone (R264). -/
def markMember (d : Dev) (x : Script) (m0 : Member) : Member :=
  let m := passAbandoned d x 4 m0
  let ripe := unitRipe d x m
  let fits := unitFits d m
  { m with
    ripeAt := if ripe && fits then some (m.ripeAt.getD (cycle d)) else none
    spaceFrom := if ripe && !fits then some (m.spaceFrom.getD (deviceTime d)) else none
    spaceLogged := m.spaceLogged && ripe && !fits }

/-- Every member's next unit is looked at. -/
def markRipe (d : Dev) : Dev := mapMembers d (markMember d)

/-! ## Release (R263 to R269) -/

/-- A field of `n` bytes at `off`, changed modulo 2^(8n). -/
def patchField (b : Bytes) (off n : Nat) (f : Nat → Nat) : Bytes := splice b off (leBytes n (f (fld b off n)))

/-- One patch on a template (Table 10.3): `m` and `j` of the unit. -/
def applyPatch (d : Dev) (x : Script) (mb : Member) (s m j : Nat) (p : W64) (b : Bytes) : Dev × Bytes :=
  let v := p.toNat
  let off := bits v 20 14
  let n := 2 ^ bits v 25 24
  let arg := bits v 63 32
  let put (f : Nat → Nat) : Dev × Bytes := (d, patchField b off n f)
  match bits v 23 21 with
  | 0 => put (· + m * arg)
  | 1 => put (· + j % max 1 (saveSlots x.micro mb) * saveBytes mb)
  | 2 => put (· + s % 4 * x.bellCount)
  | 3 =>
    if d.steps.num.scaleAddr = 0 then
      let f := freeBytes d 1
      (f.1, patchField b off n fun _ => fld f.2 0 1)
    else match readMem d none (d.steps.num.scaleAddr + 8 * (arg % 4096) + s % 4) 1 with
      | (d1, .ok t) => (d1, patchField b off n fun _ => fld t 0 1)
      | (d1, .error _) =>
        let f := freeBytes d1 1
        (f.1, patchField b off n fun _ => fld f.2 0 1)
  | 4 => put fun _ => s
  | _ => put fun _ => m

/-- The patches of a template, in patch-list order. -/
def applyPatches (x : Script) (mb : Member) (s m j t : Nat) (db : Dev × Bytes) : Dev × Bytes :=
  (x.patches.filter fun p => bits p.toNat 13 0 == t).foldl (fun db p => applyPatch db.1 x mb s m j p db.2) db

/-- WAIT0_EN, WAIT1_EN and FENCE cleared, and the wait fields zero (R275). -/
def withoutWaits (b : Bytes) : Bytes :=
  splice (splice b 2 (leBytes 2 (fld b 2 2 - ofBool (bit (fld b 2 2) 0) - 2 * ofBool (bit (fld b 2 2) 1) - 8 * ofBool (bit (fld b 2 2) 3))))
    12 (List.replicate 12 0)

/-- The bells of a step's bank are set to 0 before its first unit (R269). -/
def resetBank (d : Dev) (x : Script) (s : Nat) : Dev :=
  if x.banked.contains s then d
  else
    let d1 := (List.range x.bellCount).foldl (fun d k => setBell d (x.bellBase + s % 4 * x.bellCount + k) 0) d
    { d1 with seq.scripts := d1.seq.scripts.map fun y => if y.number = x.number then { y with banked := s :: y.banked.take 7 } else y }

/-- The descriptors of a unit, from its template `t` on, are written into ring memory with RING, SEQ and patches (R263). -/
def writeUnit (x : Script) (mb : Member) (r : Ring) (s m j : Nat) (plain : Bool) : Nat → Nat → W32 → Dev → Dev
  | 0, _, _, d => d
  | fuel + 1, t, seq, d =>
    let b0 := splice (splice (x.templates.getD t []) 4 (leBytes 2 mb.ring)) 8 (leBytes 4 seq.toNat)
    let p := applyPatches x mb s m j t (d, b0)
    let b := if plain then withoutWaits p.2 else p.2
    writeUnit x mb r s m j plain fuel (t + 1) (seq + 1) (writeMem p.1 none (r.base + 128 * (seq.toNat % r.len)) b).1

/-- A script with nothing left to release is unloaded (R281). -/
def unloadDone (d : Dev) : Dev :=
  { d with seq.scripts := d.seq.scripts.filter fun x => match x.until_ with
    | none => true
    | some u => x.members.any fun m => !m.removed && decide (m.step < u) }

/-- The cursor's unit of a member is released whole (R263 to R266, R269, R275). -/
def releaseUnit (d : Dev) (x : Script) (mb : Member) : Dev :=
  match getRing d mb.ring with
  | none => d
  | some r =>
    let s := mb.step
    let cnt := phaseTemplates mb mb.phase
    let j := cursorJ x.micro mb
    let micro := if mb.phase = 2 then x.micro else mb.mbRem + j * mb.mbMod
    let plain := isAbandoned d s
    let d1 := resetBank d x s
    -- SLOT_ADD names no slot in an end unit: its j is a free value
    let draw := if mb.phase = 2 then freeBytes d1 1 else (d1, [])
    let jj := if mb.phase = 2 then fld draw.2 0 1 else j
    let d2 := writeUnit x mb r s micro jj plain cnt.2 cnt.1 r.submitted draw.1
    let stamp : W64 × W32 := (BitVec.ofNat 64 s, if mb.phase = 2 then 0xFFFFFFFF else BitVec.ofNat 32 micro)
    let d3 := modRing d2 mb.ring fun r => { r with
      submitted := r.submitted + BitVec.ofNat 32 cnt.2
      released := r.released ++ (List.range cnt.2).map fun k => (r.submitted + BitVec.ofNat 32 k, stamp) }
    let u : Unit := { ring := mb.ring, step := s, phase := mb.phase, j := j, first := r.submitted, count := cnt.2 }
    let d4 := { d3 with
      seq.units := d3.seq.units ++ [u]
      seq.scripts := d3.seq.scripts.map fun y =>
        if y.number = x.number then { y with members := y.members.map fun m =>
          if m.ring = mb.ring then settleCursor x.micro 4 { m with j := m.j + 1, ripeAt := none, lastStep := some s } else m }
        else y }
    markRipe (unloadDone d4)

/-- UNIT_RELEASE: of the members whose next unit is releasable, the arbiter picks one (R264). -/
def unitRelease (d : Dev) : Dev :=
  let d1 := markRipe d
  let reqs := d1.seq.scripts.flatMap fun x => x.members.zipIdx.filterMap fun e => e.1.ripeAt.map fun t => (e.2, t)
  match grant d1.seq.pointer 512 reqs with
  | none => d1
  | some i =>
    let oldest := (reqs.filter fun q => q.1 == i).foldl (fun m q => min m q.2) (cycle d1)
    match d1.seq.scripts.findSome? fun x => (x.members[i]?).bind fun m => if m.ripeAt == some oldest then some (x, m) else none with
    | none => d1
    | some (x, m) => releaseUnit { d1 with seq.pointer := (i + 1) % 512 } x m

/-- SEQ_RELEASE_STALL: a unit has waited for ring space longer than WAIT_LIMIT, logged once (R264). -/
def seqReleaseStall (ring : Nat) (d : Dev) : Dev :=
  let d1 := markRipe d
  let late (m : Member) : Bool := m.ring == ring && !m.spaceLogged && overdue d1 m.spaceFrom (ringLimit d1 ring)
  if d1.seq.scripts.any fun x => x.members.any late then
    logEvent (mapMembers d1 fun _ m => if late m then { m with spaceLogged := true } else m) evSeqReleaseStall (.ring ring) 0
  else d1

/-! ## Abandoned steps (R272 to R276) -/

/-- The lowest released sequence number of a ring that carries a step and has not retired. -/
def lowestOf (r : Ring) (s : Nat) : Option W32 := (r.released.find? fun e => e.2.1.toNat == s).map (·.1)

/-- The Sequencer keeps up to four abandoned steps (Table 10.7): a fifth takes the place of the oldest that has restarted. -/
def fourSteps (l : List Abandoned) : List Abandoned :=
  if l.length ≤ 4 then l else if l.any (·.restarted) then l.eraseP (·.restarted) else l.drop 1

/-- A step is abandoned on this device (R273): units of it are released no more, and every other member ring that holds an
operation of it is aborted there; a HEALTH member's ring is not (R275). `failed` is the ring whose operation failed. -/
def abandonStep (d : Dev) (s : Nat) (failed : Option Nat) (src detail : Nat) : Dev :=
  if isAbandoned d s || (stepState d s).isNone then d
  else
    let d1 := logEvent { d with seq.abandoned := fourSteps (d.seq.abandoned ++ [{ step := s }]) } evStepAbandoned (.ring src) detail
    let d2 := mapMembers d1 fun _ m => { m with copies := m.copies.filter (fun c => c.1 != s), starts := m.starts.filter fun c => c.step != s }
    let rings := (d2.seq.scripts.flatMap fun x => (x.members.filter fun m => !m.removed && !m.health).map (·.ring)).eraseDups
    markRipe (rings.foldl (fun d n =>
      if failed = some n then d
      else match (getRing d n).bind fun r => lowestOf r s with
        | none => d
        | some q => abortFrom d n q) d2)

/-- A HEALTH member's own ring halts before its health collective has retired: SKIP is decided as a STEP_DECIDE would (R275). -/
def loseHealth (d : Dev) (ring s : Nat) : Dev :=
  match memberAt d ring s with
  | none => d
  | some (_, m) =>
    if m.health && (stepState d s).any fun st => !st.healthDone then
      logEvent (decideStep (beforeDecision d s) s false true (.ring ring)) evStepHealthLost (.ring ring) 0
    else d

/-- An operation of a member ring has ended in the failure class: its step is abandoned (R273). -/
def seqFailure (d : Dev) (ring s : Nat) : Dev :=
  if isMember d ring then abandonStep d s (some ring) ring 0 else d

/-- A unit holds a sequence number. -/
def Unit.has (u : Unit) (ring : Nat) (seq : W32) : Bool := u.ring == ring && decide ((seq - u.first).toNat < u.count)

/-- A pool entry takes a state. -/
def setCopy (m : Member) (s j st : Nat) : Member :=
  { m with
    copies := (m.copies.filter fun c => !(c.1 == s && c.2.1 == j)) ++ [(s, j, st)]
    starts := m.starts.filter fun c => !(c.step == s && c.j == j) }

/-- A copy of a pool entry is started: `st` is 1 for one to the pool, 3 for one back. It asks the data mover of its die for its
work (R270, R345). -/
def startCopy (d : Dev) (m : Member) (s j st : Nat) : Member :=
  let code := 0x130 + ((ringTile d m.ring).map tileDie).getD 0
  let k := setCopy m s j st
  { k with starts := k.starts ++ [{ step := s, j := j, at_ := cycle d, pointer := tgetD d.hub.issuePtr code 0 }] }

/-- A unit has retired whole: the copy it lets begin (R270). -/
def unitRetired (d : Dev) (u : Unit) : Dev :=
  mapMembers d fun x m =>
    let n := microCount x.micro m
    let slots := saveSlots x.micro m
    if m.ring != u.ring || !(x.governs u.step) || !(offloads m) then m
    else if u.phase = 0 && u.j < n - slots then startCopy d m u.step u.j 1
    else if u.phase = 1 && slots ≤ u.j && u.j - slots < n - slots then startCopy d m u.step (u.j - slots) 3
    else m

/-- A ring's retirement or resume may make units of members releasable in its control cycle (R264). -/
def seqLook (d : Dev) (ring : Nat) : Dev := if isMember d ring then markRipe d else d

/-- An operation of a ring has retired in the success class (R264, R266, R270). -/
def seqSuccess (d : Dev) (ring : Nat) (seq : W32) : Dev :=
  let d1 := modRing d ring fun r => { r with released := r.released.filter fun e => e.1 != seq }
  match d1.seq.units.find? fun u => u.has ring seq && u.retired < u.count with
  | none => seqLook d1 ring
  | some u =>
    let u1 := { u with retired := u.retired + 1 }
    let d2 := { d1 with seq.units := (d1.seq.units.map fun w => if w = u then u1 else w).filter fun w =>
      w.retired < w.count || d1.steps.oldest ≤ w.step }
    seqLook (if u1.retired = u1.count then unitRetired d2 u1 else d2) ring

/-- Where a member's pool entry and save slot of a micro-batch lie: pool address, SRAM address (R270). -/
def copyPlaces (d : Dev) (x : Script) (m : Member) (s j : Nat) : Option (Nat × Nat) :=
  (ringTile d m.ring).map fun tile =>
    let n := microCount x.micro m
    let share := (n - m.slots) * saveBytes m
    let pool := m.pool + (if m.gateOpen then s % 2 * share else 0) + j * saveBytes m
    (pool, sramBase tile + m.saveOff + j % max 1 m.slots * saveBytes m)

/-- The sequence number that a clear for a failed copy names: that of forward unit j, or the one backward unit j would take
(R272). -/
def copySeq (d : Dev) (x : Script) (m : Member) (s j : Nat) (prefetch : Bool) : W32 :=
  if prefetch then
    let here := microCount x.micro m - 1 - m.j
    ((getRing d m.ring).map (·.submitted)).getD 0 + BitVec.ofNat 32 ((here - j) * m.bwd.2)
  else ((d.seq.units.find? fun u => u.ring == m.ring && u.step == s && u.phase == 0 && u.j == j).map (·.first)).getD 0

/-- A member's copy of entry j of a step has been started by the data mover (R345). -/
def copyRuns (d : Dev) (x : Script) (m : Member) (s j : Nat) : Bool :=
  match (ringTile d m.ring).map tileDie with
  | none => false
  | some die => ((copiesOn d die).find? fun c => c.1 == 16384 + x.members.findIdx (fun k => k.ring == m.ring) && c.2.step == s && c.2.j == j).any
      (copyStarted d die)

/-- OFFLOAD_DONE (R270, R272): the copy of entry j to the pool, or back into its slot, completes, or fails. -/
def offloadDone (ring j : Nat) (prefetch bad : Bool) (d : Dev) : Dev :=
  let want := if prefetch then 3 else 1
  let found := d.seq.scripts.findSome? fun x => (x.members.find? fun m => m.ring == ring).bind fun m =>
    (m.copies.find? fun c => c.2.1 == j && c.2.2 == want).map fun c => (x, m, c.1)
  match found with
  | none => d
  | some (x, m, s) => match (if copyRuns d x m s j then copyPlaces d x m s j else none) with
    | none => d
    | some (pool, slot) =>
      let r := readMem d none (if prefetch then pool else slot) (saveBytes m)
      let w : Dev × Bool := match r.2 with
        | .error _ => (r.1, true)
        | .ok b =>
          let w := writeMem r.1 none (if prefetch then slot else pool) b
          (w.1, w.2.isSome)
      if bad || w.2 then
        let d1 := if bad then d else w.1
        let place := (x.members.zipIdx.find? fun e => e.1.ring == ring).map (·.2) |>.getD 0
        abandonStep (clearFlag d1 s 1 (some { ring := ring, seq := copySeq d x m s j prefetch })) s none ring (place + 2 ^ 16 * j)
      else markRipe (mapMembers w.1 fun y k =>
        if y.number = x.number && k.ring = ring then setCopy k s j (if prefetch then 4 else 2) else k)

/-- The descriptors of a halted ring from its halt point on are written again without those of abandoned steps, and the
ring resumes (R273). -/
def restartRing (d : Dev) (ring : Nat) : Dev :=
  match getRing d ring with
  | none => d
  | some r =>
    let kept := r.released.filter fun e => !(isAbandoned d e.2.1.toNat)
    let at_ (q : W32) : Nat := r.base + 128 * (q.toNat % r.len)
    let old := kept.map fun e => (readMem d none (at_ e.1) 128).2
    let d1 := old.zipIdx.foldl (fun d e => match e.1 with
      | .error _ => d
      | .ok b =>
        let q := r.haltSeq + BitVec.ofNat 32 e.2
        (writeMem d none (at_ q) (splice b 8 (leBytes 4 q.toNat))).1) d
    let moved (q : W32) : W32 := r.haltSeq + BitVec.ofNat 32 ((kept.findIdx fun e => e.1 == q))
    let d2 := modRing d1 ring fun r => { r with
      submitted := r.haltSeq + BitVec.ofNat 32 kept.length
      released := kept.map fun e => (moved e.1, e.2) }
    resumeRing { d2 with seq.units := (d2.seq.units.filter fun u => !(u.ring == ring && isAbandoned d u.step && u.retired < u.count)).map fun u =>
      if u.ring = ring && u.retired < u.count then { u with first := moved u.first } else u } ring

/-- The member rings that hold operations of a step: all of them are HALTED, or go on for the step's health (R273, R275). -/
def ringsHalted (d : Dev) (s : Nat) : Bool :=
  d.seq.scripts.all fun x => x.members.all fun m =>
    m.removed || (match getRing d m.ring with
    | none => true
    | some r => (lowestOf r s).isNone || r.st == .halted || (m.health && r.st == .running && r.haltAt.isNone))

/-- STEP_ABANDON_RESTART (R273): once every aborted ring is HALTED and the step decided, its entries are dropped and the
halted member rings restart. -/
def stepAbandonRestart (s : Nat) (d : Dev) : Dev :=
  let due := d.seq.abandoned.any (fun a => a.step == s && !a.restarted) && ringsHalted d s &&
    (stepState d s).all fun st => st.decision.isSome
  if !due then d
  else
    let d1 := dropAbandoned { d with seq.abandoned := d.seq.abandoned.map fun a => if a.step = s then { a with restarted := true } else a }
    let rings := (d1.seq.scripts.flatMap fun x => (x.members.filter fun m => !m.removed).map (·.ring)).eraseDups
    markRipe (rings.foldl (fun d n => match getRing d n with
      | some r => if r.st = .halted && (lowestOf r s).isSome then restartRing d n else d
      | none => d) d1)

/-- A step has closed: its units are forgotten. -/
def seqClose (d : Dev) : Dev :=
  markRipe { d with seq.units := d.seq.units.filter fun u => u.retired < u.count || d.steps.oldest ≤ u.step }

/-- A member ring is destroyed (R276): the member leaves its script, and every step of which it had released units is
cleared and abandoned. -/
def seqDestroyed (d : Dev) (ring : Nat) : Dev :=
  if !(isMember d ring) then d
  else
    let steps := ((d.seq.units.filter fun u => u.ring == ring && d.steps.oldest ≤ u.step).map (·.step)).eraseDups
    let d1 := mapMembers d fun _ m => if m.ring = ring then { m with removed := true } else m
    steps.foldl (fun d s => abandonStep (clearFlag d s 4 none) s (some ring) ring 0)
      { d1 with seq.units := d1.seq.units.filter fun u => u.ring != ring }

/-! ## Migration (R277 to R279) -/

/-- The migrating stage. -/
def movingStage (d : Dev) : Option (Migration × Stage) :=
  d.seq.migration.bind fun g => (tget d.seq.stages g.stage).map fun st => (g, st)

/-- A tile's stage is being migrated (R261). -/
def tileMoving (d : Dev) (tile : Nat) : Bool := (movingStage d).any fun g => g.2.tile == tile

/-- MIGRATE_DRAIN_DONE: no operation that has sent to the stage's queues, and none released to its rings, is left to retire;
the copy begins (R278). -/
def migrateDrainDone (d : Dev) : Dev :=
  match movingStage d with
  | none => d
  | some (g, st) =>
    let senders := d.chutes.any fun q => q.1 / 16 == st.tile && q.2.entries.any fun e => e.st.isSent
    let busy := st.rings.any fun n => (getRing d n).any fun r => !r.ops.isEmpty || r.submitted != r.retired
    if g.phase = .drain && !senders && !busy then { d with seq.migration := some { g with phase := .copy } } else d

/-- SRAM of a tile copied to another of its type, byte for byte. -/
def copySram (d : Dev) (src dst : Nat) : Dev :=
  let n := tileCapacity src
  let inside (base a : Nat) : Bool := decide (base ≤ a ∧ a < base + n)
  let moved := d.mem.cells.filterMap fun c => if inside (sramBase src) c.1 then some (c.1 - sramBase src + sramBase dst, c.2) else none
  let flips := d.mem.flips.filterMap fun e =>
    if inside (sramBase src) (16 * e.1) && wordCheck d e.1 == .uncorrectable then some (e.1 - sramBase src / 16 + sramBase dst / 16, e.2)
    else none
  let d := noteWrite d (sramBase dst) n
  { d with
    mem.cells := moved.foldl (fun m c => cellPut m c.1 c.2) (d.mem.cells.filter fun c => !(inside (sramBase dst) c.1))
    mem.flips := flips.foldl (fun t e => tput t e.1 e.2) (d.mem.flips.filter fun e => !(inside (sramBase dst) (16 * e.1))) }

/-- The destination's images are those of the source, loaded again, and its watchdog limits the source's; its Mill holds no
claim (R278, R279). -/
def copyEngines (d : Dev) (src dst : Nat) : Dev :=
  let loom (d : Dev) (e : Nat) : Dev :=
    let l := tgetD d.looms (loomIndex src e) {}
    let new := { tgetD d.looms (loomIndex dst e) {} with
      images := l.images.filter (·.current), nextImage := l.nextImage, limit := l.limit }
    { d with looms := tput d.looms (loomIndex dst e) new }
  let d1 := ((List.range 2).filter (loomExists src)).foldl loom d
  let b := tgetD d1.badgers src {}
  { d1 with
    mills := tput d1.mills dst { limit := (tgetD d1.mills src {}).limit }
    querns := tput d1.querns dst { tgetD d1.querns dst {} with limit := (tgetD d1.querns src {}).limit }
    badgers := tput d1.badgers dst { tgetD d1.badgers dst {} with programs := b.programs.filter (·.1 < 16), limit := b.limit } }

/-- The bytes of a descriptor that name the consumer tiles of chutes (Tables 5.5, 6.17, 7.4 and 8.5). -/
def Op.chuteBytes (o : Op) : List Nat :=
  if o.opcode = 0x0201 then [48, 52, 56, 60].filter fun k => bit (o.f k 2) 15
  else if o.opcode = 0x0101 || o.opcode = 0x0102 then (if bit (o.f 75 1) 6 then [80] else [])
  else if o.opcode = 0x0302 || o.opcode = 0x0303 then (if bit (o.f 95 1) 5 then [96] else [])
  else if o.opcode = 0x0401 && bit (o.f 35 1) 1 then [48]
  else []

/-- An operation in flight sends to the destination what it would have sent to the source (R278; log 110). -/
def Op.retile (src dst : Nat) (o : Op) : Op :=
  if !o.inFlight then o
  else { o with
    sends := o.sends.map fun s => if s.consumer = src then { s with consumer := dst } else s
    desc := o.chuteBytes.foldl (fun b k =>
      if fld b k 1 % 64 = src then splice b k [BitVec.ofNat 8 (fld b k 1 - src + dst)] else b) o.desc }

/-- Sends that wait for queues of the source tile wait for those of the destination; so do the batch packers (R278; log 110). -/
def retileSends (d : Dev) (src dst : Nat) : Dev :=
  let key (k : Nat) : Nat := if k / 16 = src then 16 * dst + k % 16 else k
  { d with
    hub.rings := d.hub.rings.map fun e => (e.1, { e.2 with ops := e.2.ops.map (Op.retile src dst) })
    looms := d.looms.map fun e => (e.1, { e.2 with waitOut := e.2.waitOut.map key })
    threshers := d.threshers.map fun t => { t with classes := t.classes.map fun c =>
      if c.2.destTile = src then (c.1, { c.2 with destTile := dst }) else c } }

/-- Queues of a tile are rebound to another, and chutes with the tile as producer take the other as producer (R278). -/
def rebindChutes (d : Dev) (src dst : Nat) : Dev :=
  let moved := d.chutes.map fun q =>
    (if q.1 / 16 = src then 16 * dst + q.1 % 16 else q.1, if q.2.producer = src then { q.2 with producer := dst } else q.2)
  { d with chutes := moved.foldl (fun t q => tput t q.1 q.2) [] }

/-- MIGRATE_COPY_DONE: the copy ends; rings are retargeted, claims released, and releases resume (R278, R279). -/
def migrateCopyDone (d : Dev) : Dev :=
  match movingStage d with
  | none => d
  | some (g, st) =>
    if g.phase != .copy then d
    else
      let d1 := retileSends (rebindChutes (copyEngines (copySram d st.tile g.dest) st.tile g.dest) st.tile g.dest) st.tile g.dest
      let d2 := st.rings.foldl (fun d n => modRing d n fun r => { r with target := r.target - st.tile + g.dest }) d1
      let d3 := { d2 with mills := tmod d2.mills st.tile fun m =>
        { m with sets := m.sets.filter fun s => !(st.rings.contains s.owner) } }
      let d4 := { d3 with
        seq.stages := tput d3.seq.stages g.stage { st with tile := g.dest }
        seq.migration := none }
      let d5 := if g.retire then { d4 with
          units.testTiles := d4.units.testTiles ++ [st.tile]
          power.domains := (d4.power.domains.set st.tile .off).set (64 + st.tile) .off }
        else d4
      markRipe (answerMbx (logEvent d5 evStageMigrated .hub 0) g.mbx
        { result := 0, body := leBytes 8 (deviceTime d5) })

/-- STAGE_MIGRATE_TIMEOUT: the drain has not finished within 1 s (R278). -/
def stageMigrateTimeout (d : Dev) : Dev :=
  match d.seq.migration with
  | none => d
  | some g =>
    if g.phase = .drain && g.since + 1000000000 ≤ deviceTime d then
      markRipe (answerMbx (logEvent { d with seq.migration := none } evStageMigrateTimeout .hub 0) g.mbx { result := 9, detail := 1 })
    else d

def execUnitRelease (s : State) : Out := act s (running unitRelease)
def execSeqReleaseStall (ring : Nat) (s : State) : Out := act s (running (seqReleaseStall ring))
def execOffloadDone (ring j : Nat) (prefetch bad : Bool) (s : State) : Out := act s (running (offloadDone ring j prefetch bad))
def execStepAbandonRestart (step : W64) (s : State) : Out := act s (running (stepAbandonRestart step.toNat))
def execMigrateDrainDone (s : State) : Out := act s (running migrateDrainDone)

end Sys2Proof.Machine
end

