-- ==== Sys2Proof/Machine/SeqLoad.lean ====
section
/-! DEFINITION. Step-script images: their checks, and the script a load makes of one (10 R262, R270, R271, R281). -/

namespace Sys2Proof.Machine

/-- Counts of an image's header (Table 10.1). -/
def seqMembers (img : Bytes) : Nat := fld img 8 2
def seqTemplates (img : Bytes) : Nat := fld img 10 2
def seqPatches (img : Bytes) : Nat := fld img 12 4

/-- Bytes of an image, by its header. -/
def seqBytes (img : Bytes) : Nat := 64 + 32 * seqMembers img + 128 * seqTemplates img + 8 * seqPatches img

/-- Member entry `i`, template `i` and patch `i` of an image (R262). -/
def seqMember (img : Bytes) (i : Nat) : Bytes := slice img (64 + 32 * i) 32
def seqTemplate (img : Bytes) (i : Nat) : Bytes := slice img (64 + 32 * seqMembers img + 128 * i) 128
def seqPatch (img : Bytes) (i : Nat) : Nat := fld img (64 + 32 * seqMembers img + 128 * seqTemplates img + 8 * i) 8

/-- The header is in order (Table 10.1): its fields and its reserved bytes. -/
def seqHeaderOk (img : Bytes) : Bool :=
  fld img 0 4 == 0x53455153 && fld img 4 2 == 1 && zeroAt img 20 12 &&
  decide (1 ≤ fld img 6 2 ∧ fld img 6 2 ≤ 256) && decide (1 ≤ seqMembers img ∧ seqMembers img ≤ 512) &&
  decide (1 ≤ seqTemplates img ∧ seqTemplates img ≤ 16384) && decide (seqPatches img ≤ 65536) &&
  decide (fld img 18 2 ≤ 4096) && decide (fld img 16 2 + 4 * fld img 18 2 ≤ 65536)

/-- The digest in the header fits the rest of the image. -/
def seqDigestOk (img : Bytes) : Bool := shake256 (img.drop 64) == slice img 32 32

/-- A member entry as a member at the start of a step (Table 10.2). -/
def memberOf (b : Bytes) (start : Nat) : Member :=
  { ring := fld b 0 2 % 2 ^ 14, gateOpen := bit (fld b 2 1) 0, health := bit (fld b 2 1) 1, offload := bit (fld b 2 1) 2
    mbMod := fld b 3 1, mbRem := fld b 4 1, slots := fld b 5 1, fwd := (fld b 8 2, fld b 10 2), bwd := (fld b 12 2, fld b 14 2)
    fin := (fld b 16 2, fld b 18 2), tokens := fld b 20 4, saveOff := fld b 24 4, saveBpt := fld b 28 4, step := start }

/-- A template range lies within the image's templates and is at most 64 long. -/
def rangeOk (n : Nat) (r : Nat × Nat) : Bool := decide (r.2 ≤ 64) && (r.2 == 0 || decide (r.1 + r.2 ≤ n))

/-- A member entry's own fields are in order (Table 10.2). -/
def memberFieldsOk (img b : Bytes) : Bool :=
  let m := memberOf b 0
  bits (fld b 0 2) 15 14 == 0 && bits (fld b 2 1) 7 3 == 0 && zeroAt b 6 2 &&
  decide (1 ≤ m.mbMod ∧ m.mbMod ≤ 16) && decide (m.mbRem < m.mbMod) &&
  (if m.offload then decide (1 ≤ m.slots ∧ m.slots ≤ 16) && m.saveOff % 4096 == 0 && decide (1 ≤ m.saveBpt ∧ m.saveBpt ≤ 4096)
    else m.slots == 0) &&
  rangeOk (seqTemplates img) m.fwd && rangeOk (seqTemplates img) m.bwd && rangeOk (seqTemplates img) m.fin &&
  decide (1 ≤ m.tokens ∧ m.tokens ≤ 4194304) &&
  (List.range 3).any fun p => unitCount (fld img 6 2) m p != 0

/-- A member's ring may belong to the script: a stage ring that exists, named once, not a member of a script that stays, and
long enough for every unit (R262). -/
def memberRingOk (d : Dev) (replaces : Bool) (rings : List Nat) (m : Member) : Bool :=
  decide (64 ≤ m.ring) && (rings.filter (· == m.ring)).length == 1 && (replaces || !(isMember d m.ring)) &&
  (match getRing d m.ring with
    | none => false
    | some r => decide (m.fwd.2 ≤ r.len ∧ m.bwd.2 ≤ r.len ∧ m.fin.2 ≤ r.len))

/-- Members that release a template. -/
def releases (m : Member) (t : Nat) : Bool :=
  [m.fwd, m.bwd, m.fin].any fun r => decide (r.1 ≤ t ∧ t < r.1 + r.2)

/-- A patch keeps Table 10.3. -/
def patchOk (img : Bytes) (members : List Member) (p : Nat) : Bool :=
  let byte := bits p 20 14
  let n := 2 ^ bits p 25 24
  let kind := bits p 23 21
  decide (bits p 13 0 < seqTemplates img) && bits p 31 26 == 0 &&
  ((decide (6 ≤ byte) && decide (byte + n ≤ 8)) || (decide (12 ≤ byte) && decide (byte + n ≤ 128))) &&
  decide (kind ≤ 5) && (kind != 2 || n == 2) && (kind != 3 || n == 1) &&
  (kind != 1 || members.all fun m => m.offload || !(releases m (bits p 13 0)))

/-- The checks of R262 that need no pool: `none`, or the place of the first failing entry, 0xFFFF for the header. -/
def seqFault (d : Dev) (replaces : Bool) (img : Bytes) : Option Nat :=
  let entries := (List.range (seqMembers img)).map (seqMember img)
  let members := entries.map fun b => memberOf b 0
  let rings := members.map (·.ring)
  if !(seqHeaderOk img) || !(seqDigestOk img) then some 0xFFFF
  else match entries.findIdx? fun b => !(memberFieldsOk img b && memberRingOk d replaces rings (memberOf b 0)) with
    | some i => some i
    | none => match (List.range (seqTemplates img)).find? fun i => !(zeroAt (seqTemplate img i) 4 2 && zeroAt (seqTemplate img i) 8 4) with
      | some i => some i
      | none => (List.range (seqPatches img)).find? fun i => !(patchOk img members (seqPatch img i))

/-- Bytes of the pool that an offloading member takes (R270). -/
def poolShare (micro : Nat) (m : Member) : Nat :=
  (microCount micro m - m.slots) * saveBytes m * (if m.gateOpen then 2 else 1)

/-- A tile's stage owns a ring. -/
def ringOwned (d : Dev) (ring : Nat) : Bool := d.seq.stages.any fun s => s.2.rings.contains ring

/-- A member under the limits of R271, with the pool bytes taken so far on each die: the member placed, or none where the load
is refused. -/
def placeMember (d : Dev) (micro : Nat) (used : List Nat) (m : Member) : Option (Member × List Nat) :=
  if !m.offload then (if 262144 < m.tokens then none else some (m, used))
  else match ringTile d m.ring with
    | none => none
    | some tile =>
      let die := tileDie tile
      let taken := used.getD die 0
      let fits (n : Nat) : Bool := decide (m.saveOff + n * saveBytes m ≤ tileCapacity tile)
      if !(ringOwned d m.ring) || !(fits m.slots) then none
      else if taken + poolShare micro m ≤ (d.seq.pools.getD die (0, 0)).2 then
        some ({ m with pool := (d.seq.pools.getD die (0, 0)).1 + taken }, used.set die (taken + poolShare micro m))
      else if m.tokens ≤ 262144 && fits (microCount micro m) then some ({ m with fellBack := true }, used)
      else none

/-- Members placed in order, or the place of the first that breaks the limits of R271. -/
def placeMembers (d : Dev) (micro : Nat) : Nat → List Nat → List Member → Except Nat (List Member)
  | _, _, [] => .ok []
  | i, used, m :: r => match placeMember d micro used m with
    | none => .error i
    | some (m1, used1) => (placeMembers d micro (i + 1) used1 r).map (m1 :: ·)

/-- Bytes of each die's pool that the scripts that stay have taken. -/
def poolUsed (d : Dev) : List Nat := (List.range 2).map fun die =>
  let pool := d.seq.pools.getD die (0, 0)
  (d.seq.scripts.flatMap fun x => x.members.filterMap fun m =>
    if offloads m && pool.1 ≤ m.pool && m.pool < pool.1 + pool.2 then some (m.pool + poolShare x.micro m - pool.1) else none).foldl max 0

/-- The script that an image makes, from a step on, or the place of the entry that is refused. -/
def scriptOf (d : Dev) (img : Bytes) (start number : Nat) : Except Nat Script :=
  let micro := fld img 6 2
  (placeMembers d micro 0 (poolUsed d) ((List.range (seqMembers img)).map fun i => memberOf (seqMember img i) start)).map fun ms =>
    { number := number, micro := micro, bellBase := fld img 16 2, bellCount := fld img 18 2, start := start
      digest := slice img 32 32, members := ms.map (settleCursor micro 4)
      templates := (List.range (seqTemplates img)).map (seqTemplate img)
      patches := (List.range (seqPatches img)).map fun i => BitVec.ofNat 64 (seqPatch img i), image := img }

/-- A member of a loaded script has released a unit of a step or of a later one (R281). -/
def releasedFrom (d : Dev) (start : Nat) : Bool := d.seq.scripts.any fun x => x.members.any fun m =>
  !m.removed && m.lastStep.any (start ≤ ·)

/-- A script takes its place: an older one governs the steps before it (R281), and each member that fell back is logged
(R271). -/
def installScript (d : Dev) (x : Script) : Dev :=
  let old := d.seq.scripts.map fun y => { y with until_ := some (min x.start (y.until_.getD x.start)) }
  let d1 := { d with seq.scripts := old ++ [x] }
  let d2 := x.members.foldl (fun d m => if m.fellBack then logEvent d evOffloadFallback (.ring m.ring) 0 else d) d1
  markRipe (unloadDone d2)

end Sys2Proof.Machine
end

