-- ==== Sys2Proof/Machine/Granary.lean ====
section
/-! DEFINITION. The Granary: its store, snapshots and their pages, the Owl, and snapshot requests (14 R350 to R365). -/

namespace Sys2Proof.Machine

/-! ## Configuration (Tables 14.1 and 14.2) -/

/-- A field of the configuration record. -/
def Granary.field (g : Granary) (off n : Nat) : Nat := fld (g.cfg.getD []) off n
/-- STORE_WIN, SNAP_GROUP, N_REGIONS, REGION_ADDR, STORE_BYTES, WC_ADDR, CENSUS_K, SA_PAGES. -/
def Granary.win (g : Granary) : Nat := g.field 0 1 % 64
def Granary.snapGroup (g : Granary) : Nat := g.field 2 2
def Granary.nRegions (g : Granary) : Nat := g.field 4 4
def Granary.wcAddr (g : Granary) : Nat := g.field 24 8
def Granary.censusK (g : Granary) : Nat := g.field 32 2
def Granary.saPages (g : Granary) : Nat := g.field 34 2

/-- KIND of a region entry (Table 14.2): 2 is SHARD. -/
def regionKind (r : Bytes) : Nat := fld r 18 1 % 4

/-- Pages of 65,536 bytes that a length takes. -/
def pagesOf (n : Nat) : Nat := (n + 65535) / 65536

/-- Bytes of region `i`: its own, or its shard's as read at the configuration (R352). -/
def Granary.regionBytes (g : Granary) (i : Nat) : Nat :=
  match g.liveSel.find? fun e => e.1 == i with
  | some e => e.2.1
  | none => fld (g.regions.getD i []) 8 8

/-- N_PAGES (R352). -/
def Granary.nPages (g : Granary) : Nat := (List.range g.regions.length).foldl (fun n i => n + pagesOf (g.regionBytes i)) 0

/-- SLOT_SIZE for counts of regions and pages (R352). -/
def slotSize (saPages regions pages : Nat) : Nat :=
  65536 * (saPages + pagesOf (128 * regions) + pagesOf (32 * pages) + pages)

/-- SLOT_SIZE of the configuration. -/
def Granary.slotSize (g : Granary) : Nat := Machine.slotSize g.saPages g.regions.length g.nPages

/-- Device address of the store window's byte `off`. -/
def storeAddr (d : Dev) (off : Nat) : Nat := 0x300000000000 + 0x1000000000 * d.granary.win + off

/-- Offset of slot `k` in the store (Table 14.3). -/
def slotOff (d : Dev) (k : Nat) : Nat := 0x10000 + k * d.granary.slotSize

/-! ## The state area (R355, Table 14.10): sections of 64-bit words. The layout is the model's (log 36). -/

/-- Bytes as a length and words. -/
def bytesWords (b : Bytes) : List Nat := b.length :: (List.range ((b.length + 7) / 8)).map fun i => fld b (8 * i) 8

/-- A list of items, with its length first. -/
def listWords {α : Type} (f : α → List Nat) (l : List α) : List Nat := l.length :: l.flatMap f

/-- A reader of words. -/
abbrev Words (α : Type) := List Nat → Option (α × List Nat)

/-- The next word. -/
def takeWord : Words Nat
  | [] => none
  | x :: r => some (x, r)

/-- Bytes as `bytesWords` writes them. -/
def takeBytes : Words Bytes := fun w => match takeWord w with
  | none => none
  | some (n, r) => if r.length < (n + 7) / 8 then none
    else some (((r.take ((n + 7) / 8)).flatMap fun x => leBytes 8 x).take n, r.drop ((n + 7) / 8))

/-- `n` items. -/
def takeMany {α : Type} (f : Words α) : Nat → Words (List α)
  | 0, w => some ([], w)
  | n + 1, w => match f w with
    | none => none
    | some (x, r) => (takeMany f n r).map fun y => (x :: y.1, y.2)

/-- A list with its length first. -/
def takeList {α : Type} (f : Words α) : Words (List α) := fun w => match takeWord w with
  | none => none
  | some (n, r) => if r.length < n then none else takeMany f n r

/-- Two readers, one after the other. -/
def takePair {α β : Type} (f : Words α) (g : Words β) : Words (α × β) := fun w => match f w with
  | none => none
  | some (x, r) => (g r).map fun y => ((x, y.1), y.2)

/-- The numerical settings (Table 9.1). -/
def numWords (d : Dev) : List Nat :=
  let n := d.steps.num
  [n.seed.toNat, n.censusAddr, n.censusLog2, n.policyAddr, n.scaleAddr, n.shardAddr, n.shardCount, n.silentRun]

/-- Badger tables, as (tile, number, record). -/
def tableWords (d : Dev) : List Nat :=
  listWords (fun e => e.1 :: e.2.1 :: bytesWords e.2.2) (d.badgers.flatMap fun b => b.2.tables.map fun t => (b.1, t.1, t.2))

/-- Scripts with their START, stage bindings, chute bindings and offload pools. -/
def seqWords (d : Dev) : List Nat :=
  listWords (fun (x : Script) => x.number :: x.start :: bytesWords x.image) d.seq.scripts ++
  listWords (fun (s : Nat × Stage) => s.1 :: s.2.tile :: listWords (fun r => [r]) s.2.rings) d.seq.stages ++
  listWords (fun (c : Nat × Chute) => [c.1, c.2.producer, c.2.depth, c.2.slotKib, c.2.offset, c.2.stallMs]) d.chutes ++
  listWords (fun (p : Nat × Nat) => [p.1, p.2]) d.seq.pools

/-- Group records. -/
def groupWords (d : Dev) : List Nat :=
  listWords (fun (g : Nat × Group) => g.1 :: bytesWords g.2.header ++ bytesWords g.2.entryBytes) d.fabric.groups

/-- Exception entries 0 to 191. -/
def exceptionWords (d : Dev) : List Nat :=
  listWords (fun (e : Nat × W64) => [e.1, e.2.toNat]) (d.fabric.exceptions.filter fun e => e.1 < 192)

/-- The fabric configuration. -/
def fabricWords (d : Dev) : List Nat :=
  [d.fabric.coord.toNat, d.fabric.root.toNat] ++ listWords (fun n => [n]) d.fabric.dims ++ listWords (fun n => [n]) d.fabric.dirs

/-- The Granary configuration and the Owl table. -/
def keptWords (d : Dev) : List Nat := bytesWords (d.granary.cfg.getD []) ++ listWords (fun (r : W64) => [r.toNat]) d.owl.rules

/-- The sections of Table 14.10 in order, from the shard and weight-census tables' bytes and the regions' (version, scale
byte, length). -/
def stateSections (d : Dev) (shards census : Bytes) (regions : List (Nat × Nat × Nat)) : List (List Nat) :=
  [numWords d, bytesWords shards ++ bytesWords census, tableWords d, seqWords d, groupWords d, exceptionWords d, fabricWords d,
    keptWords d, listWords (fun r => [r.1, r.2.1, r.2.2]) regions]

/-- The state area of sections. -/
def areaBytes (sections : List (List Nat)) : Bytes :=
  (listWords (listWords fun x => [x]) sections).flatMap fun x => leBytes 8 x

/-- The sections of a state area. -/
def areaSections (b : Bytes) : List (List Nat) :=
  match takeList (takeList takeWord) ((List.range (b.length / 8)).map fun i => fld b (8 * i) 8) with
  | none => []
  | some x => x.1

/-! ## The store (Table 14.3) -/

/-- A generation record's fields (Table 14.4). -/
structure GenRecord where
  committed : Bool
  gen : Nat
  step : Nat
  ident : Nat
  coord : Nat
  regions : Nat
  pages : Nat
  stateDigest : Bytes
  root : Bytes
  rngStep : Nat
deriving DecidableEq, Repr

/-- A record from its 256 bytes; one without MAGIC is not committed and counts as generation 0. -/
def genRecord (b : Bytes) : GenRecord :=
  let ok := fld b 0 4 == 0x47524E59
  { committed := ok && fld b 5 1 == 0xA5
    gen := if ok then fld b 8 8 else 0
    step := fld b 16 8, ident := fld b 32 8, coord := fld b 40 2, regions := fld b 44 4, pages := fld b 48 8
    stateDigest := slice b 56 32, root := slice b 88 32, rngStep := fld b 120 8 }

/-- Both generation records of the store. -/
def readRecords (d : Dev) (who : Option OpName) : Dev × Except Byte (GenRecord × GenRecord) :=
  match readMem d who (storeAddr d 0) 512 with
  | (d1, .error st) => (d1, .error st)
  | (d1, .ok b) => (d1, .ok (genRecord (b.take 256), genRecord (b.drop 256)))

/-- The slot that does not hold the newer committed generation (Table 14.6). -/
def olderSlot (r : GenRecord × GenRecord) : Nat :=
  if r.1.committed && (!r.2.committed || r.2.gen < r.1.gen) then 1 else 0

/-- The slot of the newest committed generation (R366). -/
def newestSlot (r : GenRecord × GenRecord) : Option Nat :=
  if r.1.committed && (!r.2.committed || r.2.gen < r.1.gen) then some 0 else if r.2.committed then some 1 else none

/-- A generation root: the digest of the region roots followed by the state digest (R353). -/
def generationRoot (roots : List Bytes) (stateDigest : Bytes) : Bytes := shake256 (roots.flatMap id ++ stateDigest)

/-! ## Failure and idleness (R356, R360) -/

/-- The snapshot is armed at a step (R356). -/
def armSnapshot (d : Dev) (step : Nat) (byOwl : Bool) (op : Option OpName) : Dev :=
  { d with granary := { d.granary with st := .armed, step := step, byOwl := byOwl, waiters := op.toList } }

/-- Every other member of SNAP_GROUP is asked to cut at a step (R365). -/
def sendSnapReq (d : Dev) (step : Nat) : Dev :=
  match getGroup d d.granary.snapGroup with
  | none => d
  | some g => (g.members.filter fun m => m.1 != d.fabric.coord).foldl (fun d m =>
      (injectMsg d { dest := m.1, src := 0, cls := 3, op := opSnapReq, hops := 0, inject := 0, tag := 0, body := leBytes 8 step }).1) d

/-- The Owl's trigger arms a snapshot at the oldest open step plus 2, or is held (R356, R364, R365). -/
def owlArm (d : Dev) : Dev :=
  if d.granary.cfg.isNone then d
  else if d.granary.st != .idle || d.seq.migration.isSome then { d with granary.heldTrigger := true }
  else
    let t := d.steps.oldest + 2
    sendSnapReq (armSnapshot { d with granary.heldTrigger := false } t true none) t

/-- The step at which a request to cut at `t` arms: the oldest open one where that of `t` has been committed, which is recorded
(R365). -/
def requestStep (d : Dev) (t : Nat) : Dev × Nat :=
  if t < d.steps.oldest then (logEvent d evSnapReqLate (.ctl 0) 0, d.steps.oldest) else (d, t)

/-- A request or a trigger that waited arms now, where the Granary is IDLE and no stage migrates: a request first (R356, R365;
DEDUCED, log 120). -/
def armHeld (d : Dev) : Dev :=
  if d.granary.cfg.isNone || d.granary.st != .idle || d.seq.migration.isSome then d
  else match d.granary.heldStep with
    | some t =>
      let x := requestStep { d with granary.heldStep := none } t
      armSnapshot x.1 x.2 false none
    | none => if d.granary.heldTrigger then owlArm d else d

/-- The Granary is IDLE again: every page is released, and what was held arms (R356, R360). -/
def granaryIdle (d : Dev) : Dev := armHeld { d with
  granary := { d.granary with st := .idle, pages := [], area := [], waiters := [], byOwl := false }
  fabric.requests := d.fabric.requests.filter fun r => r.op.ring != 65600 }

/-- MIGRATE_COPY_DONE, and what waited for the end of the migration (R356). -/
def execMigrateCopyDone (s : State) : Out := act s (running fun d => armHeld (migrateCopyDone d))

/-- STAGE_MIGRATE_TIMEOUT, and what waited for the end of the migration (R356). -/
def execStageMigrateTimeout (s : State) : Out := act s (running fun d => armHeld (stageMigrateTimeout d))

/-- Operations that joined the snapshot complete (R360, R361). -/
def completeWaiters (d : Dev) (st : Byte) (detail : Nat) : Dev :=
  d.granary.waiters.foldl (fun d n => match issuedOp d n with
    | none => d
    | some _ => completeOp d n st detail) d

/-- The snapshot fails: the slot stays uncommitted and all its pages count as written (R357, R360). -/
def failSnapshot (d : Dev) (st : Byte) (detail : Nat := 0) : Dev :=
  let k := d.granary.slot
  let d1 := { d with
    granary.written := modAt d.granary.written k fun _ => none
    granary.digests := modAt d.granary.digests k fun _ => [] }
  granaryIdle (completeWaiters (logEvent d1 evSnapshotFailed (.ctl 0) 0) st detail)

/-- What a failed access to the store makes of the snapshot: the partner unreachable, or an error (R360). -/
def storeStatus (st : Byte) : Byte := if st = stFabricUnreachable || st = stUncorrectable then st else stRemoteError

/-! ## The cut (R355, R357) -/

/-- The engine that takes a page: its die's GDDR7 and SRAM, the west one for the windows (R357). -/
def pageDie (d : Dev) (a : Nat) : Nat := match regionOf d a with
  | .gddr die => die
  | .sram t => tileDie t
  | _ => 0

/-- Pages of a region, from page number `first` on. -/
def regionPages (d : Dev) (region addr len first : Nat) : List Page :=
  (List.range (pagesOf len)).map fun i =>
    { region := region, addr := addr + 65536 * i, bytes := min 65536 (len - 65536 * i), die := pageDie d (addr + 65536 * i), index := first + i }

/-- Where a region's data lie, and their length and version: the live buffer of a shard, or its own address (R351, R355). -/
def regionPlace (g : Granary) (shards : Bytes) (step i : Nat) : Nat × Nat × Nat :=
  let r := g.regions.getD i []
  if regionKind r = 2 then
    let e := slice shards (64 * (fld r 16 2 % 4096)) 64
    (fld e (if bit (fld e 26 1) 2 then 8 else 0) 8, fld e 16 8, fld e 32 8)
  else (fld r 0 8, fld r 8 8, step)

/-- Every page of every region, in region-table order. -/
def allPages (d : Dev) (shards : Bytes) (step : Nat) : Nat → Nat → Nat → List Page
  | 0, _, _ => []
  | fuel + 1, i, first =>
    let p := regionPlace d.granary shards step i
    let mine := regionPages d i p.1 p.2.1 first
    mine ++ allPages d shards step fuel (i + 1) (first + mine.length)

/-- A page need not be copied: it has not been written since the cut of the slot's last generation, whose digest of it is
kept, and it does not lie in host memory (R357). -/
def pageKept (d : Dev) (k : Nat) (p : Page) : Option Bytes :=
  let host := match regionOf d p.addr with
    | .host => true
    | _ => false
  match d.granary.written.getD k none, tget (d.granary.digests.getD k []) p.index with
  | some w, some b =>
    if !host && fld b 0 8 == p.addr && !(w.any fun r => decide (r.1 < p.addr + p.bytes ∧ p.addr < r.1 + r.2)) then some (b.drop 8) else none
  | _, _ => none

/-- A table of 64-byte entries in memory, empty where it has no address. -/
def readTable (d : Dev) (addr count : Nat) : Dev × Except Byte Bytes :=
  if addr = 0 || count = 0 then (d, .ok []) else readMem d none addr (64 * count)

/-- The byte of the scale table that holds the scale under which a region's version is read (R376). -/
def scaleByte (d : Dev) (r : Bytes) (version : Nat) : Nat :=
  if d.steps.num.scaleAddr = 0 then 0
  else match (readMem d none (d.steps.num.scaleAddr + 8 * (fld r 20 2 % 4096) + (version + 1) % 4) 1).2 with
    | .ok b => fld b 0 1
    | .error _ => 0

/-- The shard regions' lengths have stayed as they were at the configuration (R360). -/
def shardsSame (g : Granary) (shards : Bytes) (step : Nat) : Bool :=
  (List.range g.regions.length).all fun i => regionKind (g.regions.getD i []) != 2 || (regionPlace g shards step i).2.1 == g.regionBytes i

/-- Every page taken and acknowledged: the Granary seals (Table 14.6). -/
def settleCopying (d : Dev) : Dev :=
  if d.granary.st == .copying && d.granary.pages.all (fun p => p.taken && p.acked) then { d with granary.st := .sealing } else d

/-- The cut: the control cycle in which the STEP_COMMIT of the armed step retires (R355). -/
def cutSnapshot (d : Dev) (s : Nat) : Dev :=
  if d.granary.st != .armed || d.granary.step != s then d
  else
    let g := d.granary
    match readRecords d none with
    | (d1, .error st) => failSnapshot d1 (storeStatus st)
    | (d0, .ok recs) =>
      let k := olderSlot recs
      let d1 := { d0 with granary.slot := k }
      match readTable d1 d.steps.num.shardAddr d.steps.num.shardCount, readTable d1 g.wcAddr d.steps.num.shardCount with
      | (d2, .error st), _ => failSnapshot d2 st
      | _, (d2, .error st) => failSnapshot d2 st
      | (d2, .ok shards), (_, .ok census) =>
        let places := (List.range g.regions.length).map fun i =>
          let p := regionPlace g shards s i
          (p.2.2, scaleByte d2 (g.regions.getD i []) p.2.2, p.2.1)
        let area := areaBytes (stateSections d2 shards census places)
        if !(shardsSame g shards s) then failSnapshot d2 stBadShape 0
        else if g.saPages < pagesOf area.length then failSnapshot d2 stBadShape (pagesOf area.length)
        else match writeMem d2 none (storeAddr d (0x100 * k + 5)) [0] with
          | (d3, some st) => failSnapshot d3 (storeStatus st)
          | (d3, none) =>
            let pages := (allPages d3 shards s g.regions.length 0 0).map fun p => match pageKept d3 k p with
              | none => p
              | some h => { p with taken := true, acked := true, digest := h }
            settleCopying { d3 with
              granary.st := .copying
              granary.cutTime := deviceTime d
              granary.pages := pages
              granary.area := area
              granary.liveSel := g.liveSel.map fun e => (e.1, e.2.1, (regionPlace g shards s e.1).2.2)
              granary.written := modAt g.written k fun _ => some []
              owl.lastCut := if g.byOwl then some (deviceTime d) else d.owl.lastCut }

/-! ## Copying (R357, R358) -/

/-- An engine's list of pages, each with its place in the snapshot. -/
def engineList (d : Dev) (die : Nat) : List (Page × Nat) := d.granary.pages.zipIdx.filter fun e => e.1.die == die

/-- The place in an engine's list of the page that R62 grants of those that stalled writes wait for (R358). -/
def stalledPage (d : Dev) (die : Nat) : Option Nat :=
  let l := engineList d die
  grant (d.granary.pagePtr.getD die 0) l.length
    (l.zipIdx.filterMap fun e => if e.1.1.taken then none else e.1.1.wanted.map fun t => (e.2, t))

/-- The page that an engine takes next: those that a stalled write wants, oldest stall first, then region-table order
(R358). -/
def nextPage (d : Dev) (die : Nat) : Option Nat :=
  match stalledPage d die with
  | some i => ((engineList d die)[i]?).map (·.2)
  | none => ((engineList d die).find? fun e => !e.1.taken).map (·.2)

/-- The engine's pointer moves past a page granted to a stalled write (R62, R358). -/
def grantPage (d : Dev) (die : Nat) : Dev :=
  match stalledPage d die with
  | none => d
  | some i => { d with granary.pagePtr := modAt d.granary.pagePtr die fun _ => (i + 1) % (engineList d die).length }

/-- The name under which a page's write waits for its acknowledgement. -/
def pageName (k : Nat) : OpName := { ring := 65600, seq := BitVec.ofNat 32 k }

/-- A copy engine has read its next page whole: digested, and on its way to the partner (R357). -/
def pageTaken (die : Nat) (d : Dev) : Dev :=
  let busy := (d.granary.pages.filter fun p => p.die == die && p.sentAt.isSome && !p.acked).length
  if d.granary.st != .copying || 32 ≤ busy then d
  else match nextPage d die with
    | none => d
    | some k => match d.granary.pages[k]? with
      | none => d
      | some p => match readMem d none p.addr p.bytes with
        | (d1, .error st) => failSnapshot d1 (if st = stUncorrectable then st else storeStatus st)
        | (d1, .ok b) =>
          let data := slotOff d d.granary.slot + d.granary.slotSize - 65536 * d.granary.nPages
          match writeMem d1 none (storeAddr d (data + 65536 * p.index)) (slice b 0 65536) with
          | (d2, some st) => failSnapshot d2 (storeStatus st)
          | (d2, none) =>
            let d2 := grantPage d2 die
            let d3 := { d2 with granary.pages := modAt d2.granary.pages k fun p =>
              { p with taken := true, sentAt := some (deviceTime d), digest := shake256 b } }
            match tget d.fabric.borrows d.granary.win with
            | none => d3
            | some w =>
              let at_ := storeAddr d (data + 65536 * p.index)
              (messagePieces 65536).foldl (fun d x => (sendRequest d
                { tag := 0, sentAt := 0, op := pageName k, dest := w.lender, key := peerKey d (at_ + x.1), len := x.2
                  info := lendInfo w.lend ((at_ + x.1 - 0x300000000000) % 0x1000000000) x.2 } ((slice b 0 65536).drop x.1 |>.take x.2)).1) d3

/-- PAGE_TAKEN. -/
def execPageTaken (die : Nat) (s : State) : Out := act s (running (pageTaken die))

/-- The partner acknowledges a page (R357). -/
def pageAck (die page : Nat) (d : Dev) : Dev :=
  match d.granary.pages[page]? with
  | none => d
  | some p =>
    if d.granary.st != .copying || p.die != die || p.sentAt.isNone then d
    else settleCopying { d with
      granary.pages := modAt d.granary.pages page fun p => { p with acked := true }
      fabric.requests := d.fabric.requests.filter fun r => r.op != pageName page }

/-- PAGE_ACK. -/
def execPageAck (die page : Nat) (s : State) : Out := act s (running (pageAck die page))

/-- A page has had no acknowledgement for 1 ms (R360). -/
def ackTimeout (die page : Nat) (d : Dev) : Dev :=
  match d.granary.pages[page]? with
  | none => d
  | some p => match p.sentAt with
    | none => d
    | some t =>
      if d.granary.st == .copying && p.die == die && !p.acked && t + 1000000 ≤ deviceTime d then failSnapshot d stFabricUnreachable
      else d

/-- SNAPSHOT_ACK_TIMEOUT. -/
def execSnapshotAckTimeout (die page : Nat) (s : State) : Out := act s (running (ackTimeout die page))

/-- A page's write came back with an error, or could not reach the partner (R360). -/
def pageResponse (m : FabMsg) (d : Dev) : Dev :=
  match d.fabric.requests.find? fun r => r.tag == m.tag with
  | none => d
  | some r =>
    if r.op.ring != 65600 || m.cls != 1 || d.granary.st != .copying then d
    else if m.unreachable then failSnapshot d stFabricUnreachable
    else if m.error then failSnapshot d stRemoteError
    else d

/-- A message that arrives at a port, with what a response to a page's write means for the snapshot. -/
def fabMessage (q : Nat) (m : FabMsg) (d : Dev) : Dev := messageIn q m (match deliveredHere q m d with
  | some m => pageResponse m d
  | none => d)

/-- FAB_MESSAGE_RECEIVED. -/
def execFabMessageReceived (port : Nat) (msg : FabMsg) (s : State) : Out := act s (live (fabMessage port msg))

/-! ## Sealing (R361, R374) -/

/-- Region roots from the pages' digests (R353). -/
def regionRoots (n : Nat) (pages : List Page) : List Bytes :=
  (List.range n).map fun i => shake256 ((pages.filter fun p => p.region == i).flatMap (·.digest))

/-- A copied shard whose census entry records its version has the digest recorded (R374). -/
def censusAgrees (d : Dev) (roots : List Bytes) : Bool :=
  d.granary.wcAddr == 0 || d.granary.liveSel.all fun e =>
    let shard := fld (d.granary.regions.getD e.1 []) 16 2 % 4096
    match (readMem d none (d.granary.wcAddr + 64 * shard) 64).2 with
    | .error _ => true
    | .ok b => fld b 0 8 != e.2.2 || slice b 8 32 == roots.getD e.1 []

/-- A generation record (Table 14.4), without COMMITTED. -/
def recordBytes (d : Dev) (gen : Nat) (stateDigest root : Bytes) : Bytes :=
  leBytes 4 0x47524E59 ++ leBytes 1 d.granary.slot ++ leBytes 3 0 ++ leBytes 8 gen ++ leBytes 8 d.granary.step ++
  leBytes 8 d.granary.cutTime ++ leBytes 8 Config.ident.toNat ++ leBytes 2 d.fabric.coord.toNat ++ leBytes 2 0 ++
  leBytes 4 d.granary.regions.length ++ leBytes 8 d.granary.pages.length ++ stateDigest ++ root ++ leBytes 8 (2 ^ 64 - 1) ++
  List.replicate 128 0

/-- Sealing writes the page digests, the region table, the state area, the record and COMMITTED, in this order (R361). -/
def sealSnapshot (d : Dev) : Dev :=
  if d.granary.st != .sealing then d
  else
    let g := d.granary
    let roots := regionRoots g.regions.length g.pages
    if !(censusAgrees d roots) then failSnapshot d stDigestMismatch
    else match readRecords d none with
      | (d1, .error st) => failSnapshot d1 (storeStatus st)
      | (d1, .ok recs) =>
        let gen := max recs.1.gen recs.2.gen + 1
        let area := slice g.area 0 (65536 * g.saPages)
        let stateDigest := shake256 area
        let base := slotOff d g.slot
        let table := base + 65536 * (g.saPages + pagesOf (128 * g.regions.length))
        let writes := [
          (storeAddr d table, slice (g.pages.flatMap (·.digest)) 0 (65536 * pagesOf (32 * g.pages.length))),
          (storeAddr d (base + 65536 * g.saPages), slice (g.regions.flatMap id) 0 (65536 * pagesOf (128 * g.regions.length))),
          (storeAddr d base, area),
          (storeAddr d (0x100 * g.slot), recordBytes d gen stateDigest (generationRoot roots stateDigest)),
          (storeAddr d (0x100 * g.slot + 5), [0xA5])]
        match writeAll d1 none writes with
        | (d2, some st) => failSnapshot d2 (storeStatus st)
        | (d2, none) =>
          let copied := (g.pages.filter fun p => p.sentAt.isSome).length
          let d3 := { d2 with
            granary.lastCut := some g.step
            granary.digests := modAt d2.granary.digests g.slot fun _ => g.pages.map fun p => (p.index, leBytes 8 p.addr ++ p.digest) }
          let d4 := if g.byOwl then logEvent d3 evSnapshotDone (.ctl 0) (gen + 2 ^ 64 * g.step) else d3
          granaryIdle (completeWaiters d4 stOk (copied % 2 ^ 32 + 2 ^ 32 * (gen % 2 ^ 32)))

/-- SEAL. -/
def execSeal (s : State) : Out := act s (running sealSnapshot)

/-! ## GR_SNAPSHOT (R355, R356) -/

/-- Reserved bytes and ranges of class 0x07 descriptors, and the unconfigured Granary (R350, R354). -/
def granaryFetchCheck (d : Dev) (ring : Nat) (o : Op) : Option Byte :=
  let reserved : Bool := match o.opcode with
    | 0x0701 => o.zero 40 88
    | 0x0702 => o.zero 34 94 && decide (o.f 32 1 < 3) && decide (o.f 33 1 < 3)
    | 0x0703 => o.zero 32 1 && o.zero 34 94 && decide (o.f 33 1 < 3)
    | 0x0704 => o.zero 40 88
    | 0x0705 => o.zero 32 1 && o.zero 34 6 && o.zero 48 80 && decide (o.f 33 1 < 3) && o.f 40 8 % 128 == 0
    | _ => false
  if !([0x0701, 0x0702, 0x0703, 0x0704, 0x0705].contains o.opcode) then some stBadOpcode
  else if o.opcode == 0x0702 && !(privileged ring) then some stPrivileged
  else if d.granary.cfg.isNone then some stBadAddress
  else if !reserved then some stBadDescriptor
  else if o.opcode = 0x0705 then (match regionOf d (o.f 40 8) with
    | .gddr _ => none
    | .host => none
    | _ => some stBadAddress)
  else none

/-- An operation of class 0x07 that has been issued and not begun, the oldest such of its engine. -/
def granaryOp (code : Nat) (n : OpName) (f : Op → Dev → Dev) (d : Dev) : Dev :=
  match issuedOp d n, ringTarget d n.ring with
  | some o, some (.granary die) =>
    let first := (issuedTo d (.granary die)).find? fun e => e.2.done == 0
    if o.opcode = code && o.done = 0 && first.map (fun e => (e.1, e.2.seq)) == some (n.ring, n.seq) then f o d else d
  | _, _ => d

/-- GR_SNAPSHOT arms, joins the armed snapshot of its step, or waits for IDLE; one whose step has been committed while it waited
ends as at issue (R355, R356; DESIGN CHOICE, log 120). -/
def grSnapshot (n : OpName) : Dev → Dev := granaryOp 0x0701 n fun o d =>
  let step := if o.f 32 8 = 2 ^ 64 - 1 then d.steps.oldest else o.f 32 8
  let begun (d : Dev) : Dev := modOp d n fun o => { o with done := 1 }
  if step < d.steps.oldest then completeOp d n stBadDescriptor
  else if d.granary.st == .idle then
    if d.seq.migration.isSome then waitOn d n else begun (armSnapshot d step false (some n))
  else if d.granary.st == .armed && d.granary.step == step then begun { d with granary.waiters := d.granary.waiters ++ [n] }
  else waitOn d n

/-- GR_SNAPSHOT. -/
def execGrSnapshot (ring : Nat) (seq : W32) (s : State) : Out := act s (running (grSnapshot { ring := ring, seq := seq }))

/-- A request to cut at step `t` (R365). -/
def snapReq (t : Nat) (d : Dev) : Dev :=
  if d.granary.cfg.isNone then d
  else
    let x := requestStep d t
    let held := { x.1 with granary.heldStep := some (match d.granary.heldStep with
      | none => x.2
      | some h => min h x.2) }
    match d.granary.st with
    | .idle => if d.seq.migration.isSome then held else armSnapshot x.1 x.2 false none
    | .armed => { x.1 with granary.step := min d.granary.step x.2 }
    | _ => held

/-- SNAP_REQ_RECEIVED. -/
def execSnapReqReceived (step : W64) (s : State) : Out := act s (running (snapReq step.toNat))

/-! ## The Owl (R362 to R364) -/

/-- One rule's counter after an evaluation at `ms`: occurrences added, decay, temperature (R363). -/
def owlCounter (d : Dev) (ms : Nat) (rule : W64) (c : Nat) : Nat :=
  let r := rule.toNat
  let weight := bits r 31 14
  let decay := bits r 36 32
  match bits r 13 12 with
  | 1 =>
    let c1 := min 261888 (c + weight * tgetD d.owl.events (bits r 11 0) 0)
    if decay != 31 && ms % 2 ^ decay = 0 then c1 / 2 else c1
  | 2 =>
    let hottest := d.power.tileTemp.foldl max (d.power.tileTemp.headD 0)
    if (bits r 47 40 : Int) ≤ hottest then weight else 0
  | _ => if decay != 31 && ms % 2 ^ decay = 0 then c / 2 else c

/-- The estimate (R363). -/
def owlEstimate (counters : List Nat) : Nat := min 1023 (counters.foldl (· + ·) 0 / 256)

/-- The trigger at an evaluation, or its hold within the gap (R364). -/
def owlTrigger (d : Dev) : Dev :=
  let o := d.owl
  let gapOver := match o.lastCut with
    | none => true
    | some t => decide (t + o.minGapMs * 1000000 ≤ deviceTime d)
  let want := o.held || (decide (o.snapAt ≤ o.estimate) && o.armed)
  if !want then { d with owl.armed := o.armed || decide (o.estimate < o.rearm) }
  else if !gapOver then { d with owl.held := true }
  else owlArm (logEvent { d with owl.armed := decide (o.estimate < o.rearm), owl.held := false } evOwlTrigger .hub o.estimate)

/-- An evaluation at a multiple of 1,000,000 ns of device time, once for each that has come (R363). -/
def owlEvaluate (d : Dev) : Dev :=
  let ms := deviceTime d / 1000000
  if ms ≤ d.owl.lastEval then d
  else
    let counters := (d.owl.rules.zip d.owl.counters).map fun e => owlCounter d ms e.1 e.2
    owlTrigger { d with
      owl.counters := counters
      owl.estimate := owlEstimate counters
      owl.events := []
      owl.lastEval := ms }

/-- OWL_EVALUATE. -/
def execOwlEvaluate (s : State) : Out := act s (running owlEvaluate)

end Sys2Proof.Machine
end

