-- ==== Sys2Proof/Machine/LoomMemory.lean ====
section
/-! DEFINITION. The Loom's memory, accumulator, chute, census and update instructions (06 R164 to R175, Tables 6.15 and 6.16). -/

namespace Sys2Proof.Machine

/-- A buffer of `n` zero bytes with pieces laid into it. -/
def fillBuffer (n : Nat) (pieces : List (Nat × Bytes)) : Bytes :=
  pieces.foldl (fun b p => splice b p.1 p.2) (List.replicate n 0)

/-- The 256 lanes of 1,024 bytes. -/
def lanesOf (b : Bytes) : Lanes := (List.range 256).map fun i => BitVec.ofNat 32 (fld b (4 * i) 4)

/-- Reads pieces (offset in a buffer of `n` bytes, bytes) from a base, and goes on with the buffer. -/
def loomReads (at_ : LoomAt) (base n : Nat) (pieces : List (Nat × Nat)) (d : Dev) (k : Bytes → Dev → Dev × Flow) : Dev × Flow :=
  match readAll d (some at_.op) (pieces.map fun p => (base + p.1, p.2)) with
  | (d1, .ok bs) => k (fillBuffer n ((pieces.map (·.1)).zip bs)) d1
  | (d1, .error st) => (d1, .stop st)

/-- A fault code ends the instruction; without one it goes on. -/
def orFault (d : Dev) (fault : Option Nat) (k : Dev × Flow) : Dev × Flow :=
  match fault with
  | some c => (d, .fault c 0)
  | none => k

/-- A raw vector load from `base + off`: only active lanes are checked and read (R156). -/
def loadVector (at_ : LoomAt) (f : LoomFields) (fault : Nat → Nat → Option Nat) (base : Nat) (d : Dev) : Dev × Flow :=
  let m := (getLoom d at_.tile at_.eng).active f
  match laneExtent m with
  | none => (d, .next)
  | some (s, n) => orFault d (fault (4 * s) (4 * n))
      (loomReads at_ base 1024 ((laneRuns m).map fun r => (4 * r.1, 4 * r.2)) d fun b d =>
        (modLoom d at_.tile at_.eng fun l => l.putV f (lanesOf b), .next))

/-- A raw vector store to `base + off`: only active lanes are checked and written (R156). -/
def storeVector (at_ : LoomAt) (f : LoomFields) (fault : Nat → Nat → Option Nat) (base : Nat) (d : Dev) : Dev × Flow :=
  let l := getLoom d at_.tile at_.eng
  let m := l.active f
  match laneExtent m with
  | none => (d, .next)
  | some (s, n) => orFault d (fault (4 * s) (4 * n))
      (loomWrite at_ ((laneRuns m).map fun r =>
        (base + 4 * r.1, (((l.vreg f.d).drop r.1).take r.2).flatMap fun x => leBytes 4 x.toNat)) d)

/-- Bytes of 256 elements that lanes `s` to `s + n − 1` touch. -/
def elemSpan (bits s n : Nat) : Nat × Nat := (bits * s / 8, (bits * (s + n) + 7) / 8 - bits * s / 8)

/-- The lane of VLDF and VSTF is INT32 for INT32 and the integer formats without MX (R168). -/
def intLane (w : Nat) : Bool := intCode (fmtOf w).code && !(fmtOf w).mx

/-- A format word that VLDF and VSTF cannot accept (R168, R169). -/
def typedWordBad (w : Nat) : Bool := wordRefused w || (intLane w && (fmtOf w).scale != 0)

/-- A typed store of 256 lanes (R168, Table 6.6): formats below 8 bits or with MX are written whole, inactive lanes as +0.
`asInt` tells whether the lanes are INT32. -/
def storeTyped (at_ : LoomAt) (f : LoomFields) (off w scaleAt : Nat) (asInt : Bool) (draws : List Nat) (d : Dev) : Dev × Flow :=
  let l := getLoom d at_.tile at_.eng
  let m := l.active f
  let fmt := fmtOf w
  let xs := ((l.vreg f.d).zip (maskLanes m)).map fun e =>
    if e.2 then (if asInt then intVal e.1.toInt 0 else f32 e.1) else Val.zero false
  let blocks := if fmt.mx then (List.range 8).map fun b =>
      convertBlock fmt f.rc.toNat ((draws.drop (32 * b)).take 32) ((xs.drop (32 * b)).take 32)
    else [(0, xs.zipIdx.map fun e => convert fmt f.rc.toNat (draws.getD e.2 0) e.1)]
  let out := blocks.flatMap (·.2)
  let data := packElems fmt.code (out.map (·.pat))
  let base := sramBase at_.tile
  let satisfied (r : Dev × Flow) : Dev × Flow := match r.2 with
    | .next => (modLoom r.1 at_.tile at_.eng (putSat f out m), .next)
    | _ => r
  if fmtBits fmt.code < 8 || fmt.mx then
    match sramFault at_.tile off 0 data.length 16, (if fmt.mx then sramFault at_.tile scaleAt 0 8 1 else none) with
    | none, none => satisfied (loomWrite at_ ((base + off, data) ::
        (if fmt.mx then [(base + scaleAt, blocks.map fun b => BitVec.ofNat 8 b.1)] else [])) d)
    | a, b => if m = 0 then (d, .next) else (d, .fault ((a.or b).getD 1) 0)
  else
    let size := fmtBits fmt.code / 8
    match laneExtent m with
    | none => satisfied (d, .next)
    | some (s, n) => orFault d (sramFault at_.tile off (size * s) (size * n) 16)
        (satisfied (loomWrite at_ ((laneRuns m).map fun r => (base + off + size * r.1, (data.drop (size * r.1)).take (size * r.2))) d))

/-- Four-byte loads of one lane each, in lane order. -/
def loadLanes (at_ : LoomAt) : List (Nat × Nat) → List (Nat × Bytes) → Dev → (List (Nat × Bytes) → Dev → Dev × Flow) → Dev × Flow
  | [], got, d, k => k got d
  | (i, a) :: r, got, d, k => orFault d (sramFault at_.tile a 0 4 4)
      (loomRead at_ (sramBase at_.tile + a) 4 d fun b d => loadLanes at_ r ((4 * i, b) :: got) d k)

/-- Four-byte stores of one lane each, in lane order: of lanes that name one address the highest remains (R165). -/
def storeLanes (at_ : LoomAt) : List (Nat × W32) → Dev → Dev × Flow
  | [], d => (d, .next)
  | (a, x) :: r, d => orFault d (sramFault at_.tile a 0 4 4)
      (match loomWrite at_ [(sramBase at_.tile + a, leBytes 4 x.toNat)] d with
      | (d1, .next) => storeLanes at_ r d1
      | other => other)

/-- Addresses of the active lanes of VLDX and VSTX: sA + OFF + vX[i], modulo 2^64, the offsets unsigned (DEDUCED, log 22). -/
def Loom.laneAddresses (l : Loom) (f : LoomFields) : List (Nat × Nat) :=
  ((l.vreg f.x).zip (maskLanes (l.active f))).zipIdx.filterMap fun e =>
    if e.1.2 then some (e.2, (l.address f + e.1.1.toNat) % 2 ^ 64) else none

/-- The draws of an update-class instruction, where it rounds stochastically (R171). -/
def updateDraws (d : Dev) (at_ : LoomAt) (f : LoomFields) (tau : Nat) (e0 : W64) : List Nat :=
  if f.rc.toNat % 4 = 2 then
    let step : W64 := ((getOp d at_.op).map fun (o : Op) => o.step).getD 0
    (List.range 256).map fun i => r16 d.steps.num.seed step tau (e0 + BitVec.ofNat 64 i)
  else []

/-- A census contribution of the running operation, held until its retirement (R172). -/
def addCensus (d : Dev) (n : OpName) (c : CensusAdd) : Dev := modOp d n fun o => { o with census := o.census ++ [c] }

/-- The census of the elements of lanes (R172). -/
def censusOf (ty tensor : Nat) (xs : List W32) : CensusAdd :=
  let vals := if ty = 3 then xs.map fun x => intVal x.toInt 0
    else (xs.flatMap (laneElems ty)).map (elemVal ty false)
  let mag (v : Val) : Nat := if v.special then 0 else (toF32 (v.withSign false)).toNat
  { tensor := tensor, elements := vals.length
    zeros := (vals.filter fun v => match v with
      | .zero _ => true
      | _ => false).length
    nonfinite := (vals.filter Val.special).length
    maxmag := BitVec.ofNat 32 (vals.foldl (fun m v => max m (mag v)) 0) }

/-- CHSEND (R175), with what the consumer's check will find in the entry (R36). -/
def chsendBody (transit : Transit) : LoomBody := fun at_ f d =>
  let l := getLoom d at_.tile at_.eng
  match getOp d at_.op with
  | none => (d, .next)
  | some o =>
    let j := f.d.toNat
    let e := o.f (48 + 4 * j) 4
    let word := (l.sreg f.c).toNat
    let n := (l.sreg f.b).toNat
    match bit e 15, getChute d (e % 64) (bits e 11 8) with
    | true, some c =>
      if bits word 15 12 != 0 || bits word 63 56 != 0 then (d, .fault 0x0A 0)
      else if bits e 22 16 ≤ l.sent.getD j 0 then (d, .fault 5 0)
      else if c.slotBytes < n then (d, .fault 6 0)
      else if (c.credits = 0 || queueHeld d (e % 64)) then (d, .wait none (some (16 * (e % 64) + bits e 11 8)))
      else orFault d (sramFault at_.tile (l.sreg f.a).toNat 0 n 1)
        (loomRead at_ (sramBase at_.tile + (l.sreg f.a).toNat) n d fun b d =>
          let stamp := entryStamp at_.op o
          let header := chuteHeader at_.op.ring at_.op.seq.toNat stamp.1 (stamp.2 % 2 ^ 32) (bits word 11 0) (bits word 31 16)
            (bits word 47 32) (bits word 55 48) false n
          let d1 := sendEntry d at_.op { consumer := e % 64, queue := bits e 11 8, header := header, payload := b } transit
          (modLoom d1 at_.tile at_.eng fun l => { l with sent := modAt l.sent j (· + 1) }, .next))
    | _, _ => (d, .fault 4 0)

/-- VLD (Table 6.15). -/
def loomVld : LoomBody := fun at_ f d =>
  let off := (getLoom d at_.tile at_.eng).address f
  loadVector at_ f (fun lo n => sramFault at_.tile off lo n 16) (sramBase at_.tile + off) d
def execVld (tile eng : Nat) (f : LoomFields) (s : State) : Out :=
  act s (running (issueLoom .vld loomVld tile eng f))

/-- VST (Table 6.15). -/
def loomVst : LoomBody := fun at_ f d =>
  let off := (getLoom d at_.tile at_.eng).address f
  storeVector at_ f (fun lo n => sramFault at_.tile off lo n 16) (sramBase at_.tile + off) d
def execVst (tile eng : Nat) (f : LoomFields) (s : State) : Out :=
  act s (running (issueLoom .vst loomVst tile eng f))

/-- VLDF: a typed load of 256 elements (R168). -/
def loomVldf : LoomBody := fun at_ f d =>
  let l := getLoom d at_.tile at_.eng
  let w := (l.sreg f.f).toNat % 65536
  let fmt := fmtOf w
  let off := l.address f
  let sx := (l.sreg f.x).toNat
  let m := l.active f
  let size := fmtBits fmt.code
  if typedWordBad w then (d, .fault 9 0)
  else match laneExtent m with
    | none => (d, .next)
    | some (s, n) =>
      let all := elemSpan size s n
      let blocks := if fmt.mx then (List.range 8).filter fun b => ((laneRuns m).any fun r => r.1 < 32 * b + 32 && 32 * b < r.1 + r.2) else []
      let scaleFault := match blocks.head?, blocks.getLast? with
        | some a, some b => sramFault at_.tile sx a (b + 1 - a) 1
        | _, _ => none
      orFault d ((sramFault at_.tile off all.1 all.2 16).or scaleFault)
        (loomReads at_ (sramBase at_.tile + sx) 8 (blocks.map fun b => (b, 1)) d fun sc d =>
          loomReads at_ (sramBase at_.tile + off) (32 * size) ((laneRuns m).map fun r => elemSpan size r.1 r.2) d fun data d =>
            let lane (i : Nat) : W32 :=
              let v := readVal fmt (unpackElem fmt.code data i) (if fmt.mx then fld sc (i / 32) 1 else 127)
              if intLane w then BitVec.ofNat 32 (convert { code := 11, mx := false, scale := 0 } 0 0 v).pat else toF32 v
            (modLoom d at_.tile at_.eng fun l => l.putV f ((List.range 256).map lane), .next))
def execVldf (tile eng : Nat) (f : LoomFields) (s : State) : Out :=
  act s (running (issueLoom .vldf loomVldf tile eng f))

/-- VSTF: a typed store of 256 elements (R168). -/
def loomVstf : LoomBody := fun at_ f d =>
  let l := getLoom d at_.tile at_.eng
  let w := (l.sreg f.f).toNat % 65536
  if typedWordBad w then (d, .fault 9 0)
  else storeTyped at_ f (l.address f) w (l.sreg f.x).toNat (intLane w) [] d
def execVstf (tile eng : Nat) (f : LoomFields) (s : State) : Out :=
  act s (running (issueLoom .vstf loomVstf tile eng f))

/-- VLDX: four bytes for each lane (Table 6.15). -/
def loomVldx : LoomBody := fun at_ f d =>
  loadLanes at_ ((getLoom d at_.tile at_.eng).laneAddresses f) [] d fun got d =>
    (modLoom d at_.tile at_.eng fun l => l.putV f (lanesOf (fillBuffer 1024 got)), .next)
def execVldx (tile eng : Nat) (f : LoomFields) (s : State) : Out :=
  act s (running (issueLoom .vldx loomVldx tile eng f))

/-- VSTX: four bytes from each lane (R165). -/
def loomVstx : LoomBody := fun at_ f d =>
  let l := getLoom d at_.tile at_.eng
  storeLanes at_ ((l.laneAddresses f).map fun e => (e.2, (l.vreg f.d).getD e.1 0)) d
def execVstx (tile eng : Nat) (f : LoomFields) (s : State) : Out :=
  act s (running (issueLoom .vstx loomVstx tile eng f))

/-- SLD (Table 6.15). -/
def loomSld : LoomBody := fun at_ f d =>
  let off := (getLoom d at_.tile at_.eng).address f
  orFault d (sramFault at_.tile off 0 8 8) (loomRead at_ (sramBase at_.tile + off) 8 d fun b d =>
    (modLoom d at_.tile at_.eng fun l => l.setS f.d (BitVec.ofNat 64 (leNat b)), .next))
def execSld (tile eng : Nat) (f : LoomFields) (s : State) : Out :=
  act s (running (issueLoom .sld loomSld tile eng f))

/-- SST (Table 6.15). -/
def loomSst : LoomBody := fun at_ f d =>
  let l := getLoom d at_.tile at_.eng
  let off := l.address f
  orFault d (sramFault at_.tile off 0 8 8) (loomWrite at_ [(sramBase at_.tile + off, leBytes 8 (l.sreg f.d).toNat)] d)
def execSst (tile eng : Nat) (f : LoomFields) (s : State) : Out :=
  act s (running (issueLoom .sst loomSst tile eng f))

/-- MLD: inactive lanes keep their bits, and only bytes that hold an active lane are checked and read (R156, Tables 6.6 and
6.15). -/
def loomMld : LoomBody := fun at_ f d =>
  let l := getLoom d at_.tile at_.eng
  let off := l.address f
  let bytesOf (s n : Nat) : Nat × Nat := (s / 8, (s + n + 7) / 8 - s / 8)
  match laneExtent (l.active f) with
  | none => (d, .next)
  | some (s, n) => orFault d (sramFault at_.tile off (bytesOf s n).1 (bytesOf s n).2 8)
      (loomReads at_ (sramBase at_.tile + off) 32 ((laneRuns (l.active f)).map fun r => bytesOf r.1 r.2) d fun b d =>
    (modLoom d at_.tile at_.eng fun l =>
      l.setM f.d.toNat ((BitVec.ofNat 256 (leNat b) &&& l.active f) ||| (l.mreg f.d.toNat &&& ~~~(l.active f))), .next))
def execMld (tile eng : Nat) (f : LoomFields) (s : State) : Out :=
  act s (running (issueLoom .mld loomMld tile eng f))

/-- MST: inactive lanes are written as 0 (Tables 6.6 and 6.15). -/
def loomMst : LoomBody := fun at_ f d =>
  let l := getLoom d at_.tile at_.eng
  let off := l.address f
  match sramFault at_.tile off 0 32 8 with
  | some c => if l.active f = 0 then (d, .next) else (d, .fault c 0)
  | none => loomWrite at_ [(sramBase at_.tile + off, leBytes 32 (l.mreg f.d.toNat &&& l.active f).toNat)] d
def execMst (tile eng : Nat) (f : LoomFields) (s : State) : Out :=
  act s (running (issueLoom .mst loomMst tile eng f))

/-- VLDG: from GDDR7 (Table 6.15). -/
def loomVldg : LoomBody := fun at_ f d =>
  let a := (getLoom d at_.tile at_.eng).address f
  loadVector at_ f (fun lo n => gddrFault d a lo n 16) a d
def execVldg (tile eng : Nat) (f : LoomFields) (s : State) : Out :=
  act s (running (issueLoom .vldg loomVldg tile eng f))

/-- VSTG: to GDDR7 (Table 6.15). -/
def loomVstg : LoomBody := fun at_ f d =>
  let a := (getLoom d at_.tile at_.eng).address f
  storeVector at_ f (fun lo n => gddrFault d a lo n 16) a d
def execVstg (tile eng : Nat) (f : LoomFields) (s : State) : Out :=
  act s (running (issueLoom .vstg loomVstg tile eng f))

/-- ACCRD: vector (sA, sB) of a declared set (R142, R173). Of a set whose claim a release has ended meanwhile there is nothing
to read: fault code 0x03, which R173 gives an undeclared one (DESIGN CHOICE, log 106). -/
def loomAccrd : LoomBody := fun at_ f d =>
  let l := getLoom d at_.tile at_.eng
  let e := ((getOp d at_.op).map fun o => o.f (36 + f.c.toNat) 1).getD 0
  let i := (l.sreg f.a).toNat
  let c := (l.sreg f.b).toNat
  match bit e 7, setAt d at_.tile (e % 8) with
  | true, some s =>
    let dims := shapeDims s.shape.toNat
    if dims.1 ≤ i || dims.2 / 256 ≤ c then (d, .fault 3 0)
    else
      let lane (k : Nat) : W32 :=
        let x := s.elem i (256 * c + k)
        if s.fmt = 1 || s.fmt = 2 then toF32 (elemVal s.fmt.toNat false x) else BitVec.ofNat 32 x
      (modLoom d at_.tile at_.eng fun l => l.putV f ((List.range 256).map lane), .next)
  | _, _ => (d, .fault 3 0)
def execAccrd (tile eng : Nat) (f : LoomFields) (s : State) : Out :=
  act s (running (issueLoom .accrd loomAccrd tile eng f))

/-- The take is granted to the asking Loom: the tile's other Loom has no older wait to take from the queue that can be granted,
nor one of the same tick that the pointer puts first (R62, R174). -/
def takeGranted (d : Dev) (a : LoomAt) (q : Nat) (c : Chute) : Bool :=
  let l := getLoom d a.tile a.eng
  let mine := (a.eng, if l.waitIn = some q then l.waitTick else cycle d)
  let other := 1 - a.eng
  match loomExists a.tile other, loomRunning d a.tile other with
  | true, some (m, _) =>
    let lo := getLoom d a.tile other
    if lo.waitIn = some q && (c.takeable m.ring).isSome then
      grant (tgetD d.hub.takePtr q 0) 2 [mine, (other, lo.waitTick)] == some a.eng
    else true
  | _, _ => true

/-- The take is granted: the pointer of the queue's arbiter moves past the winner (R62, R174). -/
def grantTake (d : Dev) (a : LoomAt) (q : Nat) : Dev :=
  let n := if loomExists a.tile 0 then 2 else 1
  { d with hub.takePtr := tputD d.hub.takePtr q ((a.eng + 1) % n) 0 }

/-- CHTAKE (R174). -/
def loomChtake : LoomBody := fun at_ f d =>
  let l := getLoom d at_.tile at_.eng
  match getOp d at_.op with
  | none => (d, .next)
  | some o =>
    let j := f.imm.toNat % 4
    let e := o.f (40 + j) 1
    match bit e 7, getChute d at_.tile (e % 16) with
    | true, some c =>
      if c.depth ≤ l.taken.getD j 0 then (d, .fault 7 0)
      else match c.takeable at_.op.ring with
        | none => (d, .wait (some (16 * at_.tile + e % 16)) none)
        | some x =>
          let q := 16 * at_.tile + e % 16
          if !(takeGranted d at_ q c) then (d, .wait (some q) none)
          else
          let d0 := takeEntry (grantTake d at_ q) at_.tile (e % 16) x.slot at_.op
          let d1 := modLoom d0 at_.tile at_.eng fun l => { l with taken := modAt l.taken j (· + 1) }
          if x.transit then (noteTransitTaken d1 at_.op, .stop stUncorrectable)
          else (modLoom d1 at_.tile at_.eng fun l =>
            l.setS f.d (BitVec.ofNat 64 (c.slotOffset x.slot + 2 ^ 32 * c.headerOffset x.slot)), .next)
    | _, _ => (d, .fault 4 0)
def execChtake (tile eng : Nat) (f : LoomFields) (s : State) : Out :=
  act s (running (issueLoom .chtake loomChtake tile eng f))

/-- CHSEND (R175). -/
def loomChsend : LoomBody := chsendBody .clean
def execChsend (tile eng : Nat) (f : LoomFields) (s : State) : Out :=
  act s (running (issueLoom .chsend loomChsend tile eng f))

/-- CNS.VAL (R172). -/
def loomCnsVal : LoomBody := fun at_ f d =>
  let l := getLoom d at_.tile at_.eng
  match tensorOf (l.sreg f.b) with
  | none => (d, .fault 0x0A 0)
  | some t =>
    let xs := ((l.laneA f).zip (maskLanes (l.active f))).filterMap fun e => if e.2 then some e.1 else none
    (addCensus d at_.op (censusOf f.ty.toNat t xs), .next)
def execCnsVal (tile eng : Nat) (f : LoomFields) (s : State) : Out :=
  act s (running (issueLoom .cnsVal loomCnsVal tile eng f))

/-- CNS.SAT (Table 6.16). -/
def loomCnsSat : LoomBody := fun at_ f d =>
  let l := getLoom d at_.tile at_.eng
  match tensorOf (l.sreg f.b) with
  | none => (d, .fault 0x0A 0)
  | some t => (addCensus d at_.op { tensor := t, saturated := popCount (l.mreg f.a.toNat &&& l.active f) }, .next)
def execCnsSat (tile eng : Nat) (f : LoomFields) (s : State) : Out :=
  act s (running (issueLoom .cnsSat loomCnsSat tile eng f))

/-- CNS.NF (Table 6.16). -/
def loomCnsNf : LoomBody := fun at_ f d =>
  let l := getLoom d at_.tile at_.eng
  match tensorOf (l.sreg f.b) with
  | none => (d, .fault 0x0A 0)
  | some t => (addCensus d at_.op { tensor := t, nonfinite := popCount (l.mreg f.a.toNat &&& l.active f) }, .next)
def execCnsNf (tile eng : Nat) (f : LoomFields) (s : State) : Out :=
  act s (running (issueLoom .cnsNf loomCnsNf tile eng f))

/-- A format word that an update-class instruction does not accept: one that R169 names, or INT32, which the update path leaves
out (R258). -/
def updateWordBad (w : Nat) : Bool := wordRefused w || (fmtOf w).mx || (fmtOf w).code == 0x0B

/-- UCVT (R171). -/
def loomUcvt : LoomBody := fun at_ f d =>
  let l := getLoom d at_.tile at_.eng
  let w := (l.sreg f.b).toNat % 65536
  match tensorOf (l.sreg f.b) with
  | none => (d, .fault 0x0A 0)
  | some t =>
    if updateWordBad w then (d, .fault 9 0)
    else
      let draws := updateDraws d at_ f t (l.sreg f.c)
      let out := (l.laneA f).zipIdx.map fun e => convert (fmtOf w) f.rc.toNat (draws.getD e.2 0) (f32 e.1)
      (modLoom d at_.tile at_.eng fun l =>
        putSat f out (l.active f) (l.putV f (out.map fun c => BitVec.ofNat 32 c.pat)), .next)
def execUcvt (tile eng : Nat) (f : LoomFields) (s : State) : Out :=
  act s (running (issueLoom .ucvt loomUcvt tile eng f))

/-- USTF (R171). -/
def loomUstf : LoomBody := fun at_ f d =>
  let l := getLoom d at_.tile at_.eng
  let w := (l.sreg f.b).toNat % 65536
  match tensorOf (l.sreg f.b) with
  | none => (d, .fault 0x0A 0)
  | some t =>
    if updateWordBad w then (d, .fault 9 0)
    else storeTyped at_ f (l.sreg f.a).toNat w 0 false (updateDraws d at_ f t (l.sreg f.c)) d
def execUstf (tile eng : Nat) (f : LoomFields) (s : State) : Out :=
  act s (running (issueLoom .ustf loomUstf tile eng f))

end Sys2Proof.Machine
end

