-- ==== Sys2Proof/Machine/LoomRun.lean ====
section
/-! DEFINITION. Running a Loom program: its checks, its start, its fetches, its watchdog; chute sends and stalls (06 R151, R152,
R174, R176 to R179, R183 to R185; 01 R32, R37). -/

namespace Sys2Proof.Machine

/-- The meaning of each opcode, for a program that runs from its memory. -/
def loomBody : LoomOp → LoomBody
  | .loomNop => loomNop
  | .loomEnd => loomEnd
  | .loomFault => loomFault
  | .j => loomJ
  | .beq => loomBeq
  | .bne => loomBne
  | .blt => loomBlt
  | .bge => loomBge
  | .bltu => loomBltu
  | .loop => loomLoop
  | .bmz => loomBmz
  | .bmnz => loomBmnz
  | .call => loomCall
  | .ret => loomRet
  | .sadd => loomSadd
  | .ssub => loomSsub
  | .smul => loomSmul
  | .sand => loomSand
  | .sor => loomSor
  | .sxor => loomSxor
  | .sshl => loomSshl
  | .sshr => loomSshr
  | .ssra => loomSsra
  | .smin => loomSmin
  | .smax => loomSmax
  | .saddi => loomSaddi
  | .sshli => loomSshli
  | .sshri => loomSshri
  | .sli => loomSli
  | .slui => loomSlui
  | .sfadd => loomSfadd
  | .sfmul => loomSfmul
  | .sffma => loomSffma
  | .sctx => loomSctx
  | .vadd => loomVadd
  | .vsub => loomVsub
  | .vmul => loomVmul
  | .vfma => loomVfma
  | .vfms => loomVfms
  | .vfnma => loomVfnma
  | .vmin => loomVmin
  | .vmax => loomVmax
  | .vabs => loomVabs
  | .vneg => loomVneg
  | .vrcp => loomVrcp
  | .vrsqrt => loomVrsqrt
  | .vsqrt => loomVsqrt
  | .vdiv => loomVdiv
  | .vexp2 => loomVexp2
  | .vlog2 => loomVlog2
  | .vexp => loomVexp
  | .vtanh => loomVtanh
  | .vrint => loomVrint
  | .vldexp => loomVldexp
  | .viadd => loomViadd
  | .visub => loomVisub
  | .vimul => loomVimul
  | .vimin => loomVimin
  | .vimax => loomVimax
  | .vand => loomVand
  | .vor => loomVor
  | .vxor => loomVxor
  | .vshl => loomVshl
  | .vshr => loomVshr
  | .vmov => loomVmov
  | .vsel => loomVsel
  | .viota => loomViota
  | .vli => loomVli
  | .vcmpeq => loomVcmpeq
  | .vcmpne => loomVcmpne
  | .vcmplt => loomVcmplt
  | .vcmple => loomVcmple
  | .vcmpun => loomVcmpun
  | .visfin => loomVisfin
  | .mand => loomMand
  | .mor => loomMor
  | .mxor => loomMxor
  | .mnot => loomMnot
  | .mprefix => loomMprefix
  | .mpopc => loomMpopc
  | .mfirst => loomMfirst
  | .vcompress => loomVcompress
  | .vexpand => loomVexpand
  | .vperm => loomVperm
  | .vrot => loomVrot
  | .vbcast => loomVbcast
  | .vext => loomVext
  | .vins => loomVins
  | .rsumO => loomRsumO
  | .rsumOa => loomRsumOa
  | .rmax => loomRmax
  | .rmin => loomRmin
  | .risum => loomRisum
  | .viscan => loomViscan
  | .vcvtF2i => loomVcvtF2i
  | .vcvtI2f => loomVcvtI2f
  | .vpack => loomVpack
  | .vunpl => loomVunpl
  | .vunph => loomVunph
  | .vcvtX => loomVcvtX
  | .vdcdX => loomVdcdX
  | .vld => loomVld
  | .vst => loomVst
  | .vldf => loomVldf
  | .vstf => loomVstf
  | .vldx => loomVldx
  | .vstx => loomVstx
  | .sld => loomSld
  | .sst => loomSst
  | .mld => loomMld
  | .mst => loomMst
  | .vldg => loomVldg
  | .vstg => loomVstg
  | .accrd => loomAccrd
  | .chtake => loomChtake
  | .chsend => loomChsend
  | .cnsVal => loomCnsVal
  | .cnsSat => loomCnsSat
  | .cnsNf => loomCnsNf
  | .ucvt => loomUcvt
  | .ustf => loomUstf

/-! ## Checks (Table 6.18) -/

/-- Entry j of ACC, IN and OUT of a LOOM_RUN (Table 6.17). -/
def Op.acc (o : Op) (j : Nat) : Nat := o.f (36 + j) 1
def Op.inQueue (o : Op) (j : Nat) : Nat := o.f (40 + j) 1
def Op.outChute (o : Op) (j : Nat) : Nat := o.f (48 + 4 * j) 4

/-- No value stands twice in a list. -/
def allDistinct : List Nat → Bool
  | [] => true
  | x :: r => !(r.contains x) && allDistinct r

/-- Handles of the valid ACC entries. -/
def Op.accHandles (o : Op) : List Nat := ((List.range 4).filter fun j => bit (o.acc j) 7).map fun j => o.acc j % 8
/-- Queues of the valid IN entries. -/
def Op.inQueues (o : Op) : List Nat := ((List.range 4).filter fun j => bit (o.inQueue j) 7).map fun j => o.inQueue j % 16
/-- The valid OUT entries. -/
def Op.outChutes (o : Op) : List Nat := ((List.range 4).map o.outChute).filter fun e => bit e 15
/-- Queue of an OUT entry, as 16 × tile + queue. -/
def outKey (e : Nat) : Nat := 16 * (e % 64) + bits e 11 8
/-- SEND_MAX of an OUT entry. -/
def outMax (e : Nat) : Nat := bits e 22 16

/-- Check 1, at fetch. -/
def loomFetchCheck (tile : Nat) (o : Op) : Option Byte :=
  let entry (valid reserved v : Nat) : Bool := if bit v valid then v &&& reserved == 0 else v == 0
  let ok := bits (o.f 32 1) 7 5 == 0 && bits (o.f 33 1) 7 3 == 0 && o.zero 34 2 && o.zero 44 4 &&
    ((List.range 4).all fun j => entry 7 0x78 (o.acc j)) && ((List.range 4).all fun j => entry 7 0x70 (o.inQueue j)) &&
    ((List.range 4).all fun j => entry 15 0xFF8070C0 (o.outChute j)) &&
    (tileType tile == .mTile || o.accHandles.isEmpty) &&
    allDistinct o.accHandles && allDistinct o.inQueues && allDistinct (o.outChutes.map outKey) &&
    (o.outChutes.all fun e => 1 ≤ outMax e && decide (outMax e ≤ 64))
  if ok then none else some stBadDescriptor

/-- The status of check 5 for one declared handle (R144). -/
def holdFault (d : Dev) (tile h : Nat) : Option Byte :=
  match setAt d tile h with
  | none => some stAccBusy
  | some s => if writers d tile h != 0 then some stAccBusy else if s.stale then some stAccStale else none

/-- Checks 2 to 5, at issue: the status, or the image and the read holds that the operation takes (R144, R177). -/
def loomClaim (d : Dev) (tile eng : Nat) (o : Op) : Except Byte (LoomImage × List (Nat × Nat)) :=
  if !(o.inQueues.all fun q => (getChute d tile q).isSome) ||
      !(o.outChutes.all fun e => match getChute d (e % 64) (bits e 11 8) with
        | some c => c.producer == tile
        | none => false) then .error stBadAddress
  else if !(o.outChutes.all fun e => match getChute d (e % 64) (bits e 11 8) with
      | some c => decide (outMax e ≤ c.depth)
      | none => false) then .error stBadDescriptor
  else match slotImage d tile eng (o.f 32 1 % 32) with
    | none => .error stProgramNotLoaded
    | some i =>
      if i.entries.getD (o.f 33 1 % 8) 0xFFFF = 0xFFFF then .error stProgramNotLoaded
      else match o.accHandles.findSome? (holdFault d tile) with
        | some st => .error st
        | none => .ok (i, o.accHandles.map fun h => (h, ((setAt d tile h).map AccSet.span).getD 0))

/-! ## Running -/

/-- An operation starts: its registers as R153 sets them. -/
def startLoom (d : Dev) (tile eng : Nat) (n : OpName) (o : Op) : Dev :=
  match (getLoom d tile eng).images.find? fun i => i.id == o.image with
  | none => d
  | some img =>
    let args := (List.range 8).map fun k => BitVec.ofNat 64 (o.f (64 + 8 * k) 8)
    modLoom d tile eng fun l => { l with
      v := List.replicate 64 (List.replicate 256 0)
      m := List.replicate 16 0
      s := 0 :: args ++ List.replicate 23 0
      pc := (img.entries.getD (o.f 33 1 % 8) 0).toNat
      run := some n
      length := img.instrs.length
      startAt := engineCycles d (.loom tile eng)
      waited := 0
      waitFrom := none
      waitOut := none
      waitIn := none
      taken := List.replicate 4 0
      sent := List.replicate 4 0 }

/-- The instruction at the PC of the running program is fetched and issued. -/
def stepLoom (d : Dev) (tile eng : Nat) : Dev :=
  match standing? d tile eng with
  | none => d
  | some (a, img, _) => match fetched d a img with
    | (d1, none) => endLoom d1 a stUncorrectable 0
    | (d1, some i) => issueAt a (loomBody i.op) i.f d1

/-- Up to `fuel` instructions of the program, as far as its end or a wait. -/
def runLoom (tile eng : Nat) : Nat → Dev → Dev
  | 0, d => d
  | fuel + 1, d =>
    let d1 := stepLoom d tile eng
    if (loomRunning d1 tile eng).isNone || (getLoom d1 tile eng).waitFrom.isSome then d1 else runLoom tile eng fuel d1

/-- LOOM_RUN: the operation starts once it is the oldest issued to its Loom and none runs there, and up to `k` instructions
issue (R152). -/
def loomRunOp (n : OpName) (k : Nat) (d : Dev) : Dev :=
  match issuedOp d n, ringTarget d n.ring with
  | some o, some (.loom tile eng) =>
    if o.opcode != 0x0201 then d
    else match loomRunning d tile eng with
      | some (m, _) => if m = n then runLoom tile eng k d else d
      | none =>
        if ((issuedTo d (.loom tile eng)).head?.map fun e => (e.1, e.2.seq)) = some (n.ring, n.seq) then
          runLoom tile eng k (startLoom d tile eng n o)
        else d
  | _, _ => d

def execLoomRun (ring : Nat) (seq : W32) (n : Nat) (s : State) : Out :=
  act s (running (loomRunOp { ring := ring, seq := seq } n))

/-- LOOM_WATCHDOG_EXPIRY: core cycles since the start, less those spent in CHTAKE and CHSEND, reach the limit (R178, R179). -/
def loomWatchdogExpiry (tile eng : Nat) (d : Dev) : Dev :=
  match loomExists tile eng, loomRunning d tile eng with
  | true, some (n, _) =>
    let l := getLoom d tile eng
    let now := engineCycles d (.loom tile eng)
    let waiting := if l.waitFrom.isSome then now - l.waitCycle else 0
    if l.startAt + l.waited + waiting + l.limit.toNat * 65536 ≤ now then
      endLoom d { tile := tile, eng := eng, op := n } stEngineTimeout (l.pc % 65536)
    else d
  | _, _ => d

def execLoomWatchdogExpiry (tile eng : Nat) (s : State) : Out := act s (running (loomWatchdogExpiry tile eng))

/-- LOOM_TAKE_STALL: a wait of CHTAKE beyond the ring's WAIT_LIMIT is logged once (R174). -/
def loomTakeStall (tile eng : Nat) (d : Dev) : Dev :=
  match loomExists tile eng, loomRunning d tile eng with
  | true, some (n, _) =>
    let l := getLoom d tile eng
    let limit := ((getRing d n.ring).map fun r => r.waitLimit).getD 0
    if l.waitOut.isNone && !l.waitLogged && overdue d l.waitFrom limit then
      logEvent (modLoom d tile eng fun l => { l with waitLogged := true }) evLoomTakeStall (.ring n.ring) 0
    else d
  | _, _ => d

def execLoomTakeStall (tile eng : Nat) (s : State) : Out := act s (running (loomTakeStall tile eng))

/-! ## Chute sends -/

/-- CHUTE_SEND: the next entry that an operation has to send goes out on a credit (R32); of a Loom's operation, the CHSEND at
its PC issues. `transit`: what the consumer's check finds in it (R28, R36). -/
def chuteSendOp (n : OpName) (transit : Transit) (d : Dev) : Dev :=
  match issuedOp d n, ringTarget d n.ring with
  | some o, some t => match o.sends with
    | s :: _ => match getChute d s.consumer s.queue with
      | some c => if c.credits = 0 || queueHeld d s.consumer then d else sentOne (sendEntry d n s transit) n
      | none => d
    | [] => match t with
      | .loom tile eng =>
        match standing? d tile eng with
        | some (a, _, some i) =>
          if a.op = n && i.op == .chsend then issueLoom .chsend (chsendBody transit) tile eng i.f d else d
        | _ => d
      | _ => d
  | _, _ => d

def execChuteSend (ring : Nat) (seq : W32) (transit : Transit) (s : State) : Out :=
  act s (running (chuteSendOp { ring := ring, seq := seq } transit))

/-- CHUTE_STALL: a wait for a credit beyond the chute's stall limit is logged once for that wait (R37). -/
def chuteStallOp (n : OpName) (d : Dev) : Dev :=
  match issuedOp d n, ringTarget d n.ring with
  | some o, some t => match o.sends with
    | s :: _ => match getChute d s.consumer s.queue with
      | some c =>
        if (c.credits = 0 || queueHeld d s.consumer) && !o.sendLogged && overdue d o.sendFrom c.stallMs then
          logEvent (modOp d n fun o => { o with sendLogged := true }) evChuteStall (.ring n.ring) 0
        else d
      | none => d
    | [] => match t with
      | .loom tile eng =>
        let l := getLoom d tile eng
        match (loomRunning d tile eng).map (·.1), l.waitOut.bind (tget d.chutes) with
        | some m, some c =>
          if m = n && !l.waitLogged && overdue d l.waitFrom c.stallMs then
            logEvent (modLoom d tile eng fun l => { l with waitLogged := true }) evChuteStall (.ring n.ring) 0
          else d
        | _, _ => d
      | _ => d
  | _, _ => d

def execChuteStall (ring : Nat) (seq : W32) (s : State) : Out := act s (running (chuteStallOp { ring := ring, seq := seq }))

end Sys2Proof.Machine
end

