-- ==== Sys2Proof/Machine/Mover.lean ====
section
/-! DEFINITION. The data mover, recalibration, patrol scrubbing and ECS counts (13 R341, R342, R345). -/

namespace Sys2Proof.Machine

/-! ## The data mover (R345) -/

/-- Rows lie in the region of the first, mapped for the access. -/
def rowsMapped (d : Dev) (rows : List (Nat × Nat)) (write : Bool) : Bool :=
  match rows with
  | [] => true
  | (a, _) :: _ => rows.all fun r => rangeMapped d r.1 r.2 write && rangeRegion d r.1 r.2 == regionOf d a

/-- Some byte read is also a byte written. -/
def rowsOverlap (xs ys : List (Nat × Nat)) : Bool :=
  xs.any fun x => ys.any fun y => decide (x.1 < y.1 + y.2 ∧ y.1 < x.1 + x.2)

/-- The checks of a class 0x08 descriptor at fetch (R345). -/
def moverFetchCheck (d : Dev) (o : Op) : Option Byte :=
  let copy := o.opcode == 0x0801
  if !(copy || o.opcode == 0x0802) then some stBadOpcode
  else if !(o.zero 72 56) || (copy && !(o.zero 64 8)) || (!copy && !(o.zero 32 8 && o.zero 56 4)) then some stBadDescriptor
  else if decide (1 < o.f 52 4) && (decide (o.f 60 4 < o.f 48 4) || (copy && decide (o.f 56 4 < o.f 48 4))) then some stBadShape
  else if o.f 52 4 = 0 || o.f 48 4 = 0 then none
  else if rowsMapped d (moverSrc o) false && rowsMapped d (moverDst o) true && !(rowsOverlap (moverSrc o) (moverDst o)) then none
  else some stBadAddress

/-- A data-mover operation ends with the status that its rows have met. -/
def moverEnd (n : OpName) (r : Dev × Option Byte) : Dev := completeOp r.1 n (r.2.getD stOk)

/-- One row is copied. -/
def copyRow (n : OpName) (src dst len : Nat) (d : Dev) : Dev × Option Byte :=
  match readMem d (some n) src len with
  | (d1, .error st) => (d1, some st)
  | (d1, .ok b) => writeMem d1 (some n) dst b

/-- Steps that each may end in a status, in order, up to the first that does. -/
def untilStatus (steps : List (Dev → Dev × Option Byte)) (d : Dev) : Dev × Option Byte :=
  steps.foldl (fun r f => match r.2 with
    | some _ => r
    | none => f r.1) (d, none)

/-- Rows to move; none with ROWS or ROW_BYTES of 0 (R345). -/
def moverCount (o : Op) : Nat := if o.f 48 4 = 0 then 0 else o.f 52 4

/-- What the mover's check finds in the source word at `word` as it arrives over the mesh (R28, R345; log 76). -/
def moverArrival (n : OpName) (t : Target) (transit : Transit) (word : Nat) (r : Dev × Option Byte) : Dev × Option Byte :=
  match transit, r.2 with
  | .corrected, none => (meshCorrected r.1 (.ctl t.die) 1 n.ring, none)
  | .uncorrectable, none =>
    (logEvent r.1 evMemUncorrectable (wordSource r.1 word) (word % 2 ^ 48) (some n.ring), some stUncorrectable)
  | _, _ => r

/-- The mover has started an operation that it has not ended: fewer than 8 of those issued to it, and of the Sequencer's copies,
start before it (R345). -/
def moverStarted (d : Dev) (die : Nat) (n : OpName) (o : Op) : Bool :=
  let older := (issuedTo d (.mover die)).takeWhile fun e => !(e.1 == n.ring && e.2.seq == n.seq)
  decide (older.length + ((copiesOn d die).filter fun c => !(opBeforeCopy n.ring o c)).length < 8)

/-- An operation that the data mover has started opens the way to `f`. -/
def moverOp (code : Nat) (n : OpName) (f : Target → Op → Dev → Dev) (d : Dev) : Dev :=
  match issuedOp d n, ringTarget d n.ring with
  | some o, some (.mover die) => if o.opcode = code && moverStarted d die n o then f (.mover die) o d else d
  | _, _ => d

/-- DM_COPY: strided rows from SRC to DST; what lies in another device comes first (R349). A word of no source row cannot have met an error on its way. -/
def dmCopy (n : OpName) (transit : Transit) (word : Nat) : Dev → Dev := moverOp 0x0801 n fun t o => afterReads n fun d =>
  let hit := (List.range (moverCount o)).any fun i =>
    decide (o.f 32 8 + i * o.f 56 4 < word + 16) && decide (word < o.f 32 8 + i * o.f 56 4 + o.f 48 4)
  moverEnd n (moverArrival n t (if hit then transit else .clean) word (untilStatus ((List.range (moverCount o)).map fun i =>
    copyRow n (o.f 32 8 + i * o.f 56 4) (o.f 40 8 + i * o.f 60 4) (o.f 48 4)) d))

/-- The bytes of a row that DM_FILL writes: PATTERN from the row's first byte on. -/
def fillRow (o : Op) : Bytes := (List.range (o.f 48 4)).map fun i => (slice o.desc 64 8).getD (i % 8) 0

/-- DM_FILL: strided rows of a pattern. -/
def dmFill (n : OpName) : Dev → Dev := moverOp 0x0802 n fun _ o d =>
  moverEnd n (untilStatus ((List.range (moverCount o)).map fun i d => writeMem d (some n) (o.f 40 8 + i * o.f 60 4) (fillRow o)) d)

/-- DM_COPY. -/
def execDmCopy (ring : Nat) (seq : W32) (transit : Transit) (word : Nat) (s : State) : Out :=
  act s (running (dmCopy { ring := ring, seq := seq } transit word))

/-- DM_FILL. -/
def execDmFill (ring : Nat) (seq : W32) (s : State) : Out := act s (running (dmFill { ring := ring, seq := seq }))

/-! ## Recalibration (R341) -/

/-- A channel is due: forced to the head of the queue, 250 ms after its last calibration, or 4 °C from it. -/
def recalDue (d : Dev) (key : Nat) (temp : Int) : Bool :=
  match d.mem.forced with
  | k :: _ => k == key
  | [] =>
    let c := tgetD d.mem.channels key {}
    decide (c.at_ + 250000000 ≤ deviceTime d) || decide (4 ≤ (temp - c.temp).natAbs)

/-- A channel's recalibration ends: a second failure in a row marks it failed. -/
def gddrRecal (die mc ch : Nat) (ok : Bool) (d : Dev) : Dev :=
  let key := 48 * die + 4 * mc + ch
  let temp := d.power.gddrTemp.getD (12 * die + mc) 0
  let c := tgetD d.mem.channels key {}
  if 2 ≤ die || 12 ≤ mc || 4 ≤ ch || !(firmwareRuns d die) || !((goodControllers d die).contains mc) || c.failed || !(recalDue d key temp) then d
  else
    let d1 := logEvent { d with mem.forced := d.mem.forced.erase key } evGddrRecal (.mc die mc) 0
    if ok then { d1 with mem.channels := tput d1.mem.channels key { at_ := deviceTime d, temp := temp } }
    else
      let d2 := { d1 with mem.channels := tput d1.mem.channels key { c with fails := c.fails + 1, failed := decide (1 ≤ c.fails) } }
      if 1 ≤ c.fails then logEvent d2 evGddrChannelFailed (.mc die mc) 0 else d2

/-- GDDR_RECAL. -/
def execGddrRecal (die mc ch : Nat) (ok : Bool) (s : State) : Out := act s (live (gddrRecal die mc ch ok))

/-! ## Patrol scrubbing (R342, R343) -/

/-- The bit errors that a patrol finds in a word join those it already had. -/
def upset (d : Dev) (key : Nat) (flips : BitVec 144) : Dev :=
  { d with mem.flips := tputD d.mem.flips key (tgetD d.mem.flips key 0 ^^^ flips) 0 }

/-- A data word that the patrol reads: in GDDR7 or tile SRAM, and not in a failed channel or a group that is off (R342). -/
def patrolled (d : Dev) (w : Nat) : Bool :=
  (match regionOf d (16 * w) with
  | .gddr _ => true
  | .sram _ => true
  | _ => false) && (accessFault d (16 * w) 16 false).isNone

/-- A data word is scrubbed: a corrected word is written back, an uncorrectable one stays (R342). -/
def scrubData (d : Dev) (w : Nat) : Dev :=
  if !(patrolled d w) then d
  else match wordCheck d w with
    | .clean => d
    | .corrected => noteWord { d with mem.flips := tdel d.mem.flips w } false (16 * w) none
    | .miscorrected x =>
      noteWord { d with mem.flips := tdel d.mem.flips w, mem.cells := cellsWrite d.mem.cells (16 * w) (leBytes 16 x.toNat) } false (16 * w) none
    | .uncorrectable => noteWord d true (16 * w) none

/-- A word of instruction memory is scrubbed (R342). -/
def scrubImem (d : Dev) (key : Nat) : Dev :=
  let at_ := (key - 2 ^ 48) / 2 ^ 18
  let tile := at_ % 64
  let eng := at_ / 64
  let slot := key / 2 ^ 13 % 32
  let i := key % 2 ^ 13
  match slotImage d tile eng slot with
  | none => { d with mem.flips := tdel d.mem.flips key }
  | some img => match checkWord (imemData img i) (tgetD d.mem.flips key 0) with
    | .clean => d
    | .corrected => noteImem { d with mem.flips := tdel d.mem.flips key } false tile eng slot i none
    | .miscorrected x => noteImem (storeImem { d with mem.flips := tdel d.mem.flips key } tile eng img i x) false tile eng slot i none
    | .uncorrectable => noteImem d true tile eng slot i none

/-- A check sector is scrubbed: one that cannot be corrected makes each data word of its line uncorrectable (R343). -/
def scrubSector (d : Dev) (line : Nat) (flips : BitVec 144) : Dev :=
  let src := wordSource d line
  if (accessFault d line 512 false).isSome || flips = 0 then d
  else match checkWord 0 flips with
    | .clean => d
    | .uncorrectable =>
      logEvent { d with mem.flips := (List.range 32).foldl (fun t i => tput t (line / 16 + i) threeErrors) d.mem.flips }
        evMemUncorrectable src (2 ^ 60 + line)
    | _ => logEvent d evMemCorrected src (2 ^ 60 + line)

/-- A place in a firmware area, by controller (12 × die + mc), channel and byte offset, is that of a guarded word: its controller
is in service and its channel has not failed, and it lies in the 14 MiB of data, not among their check sectors or in the training
patterns, which are not guarded (R335, R341; the order of the three is DEDUCED, log 35). -/
def areaGuarded (d : Dev) (place : Nat) : Bool :=
  let mc := place / 2 ^ 26
  decide (mc < 24) && place % 16 == 0 && decide (place % 2 ^ 24 < 14 * 2 ^ 20) && (goodControllers d (mc / 12)).contains (mc % 12) &&
  domainOn d (controllerDomain (mc / 12) (mc % 12)) && !(tgetD d.mem.channels (4 * mc + place / 2 ^ 24 % 4) {}).failed

/-- A word of a firmware area is scrubbed: its errors are kept beside those of data words, a corrected one is written back and
an uncorrectable one stays (R342, R432). -/
def scrubArea (d0 : Dev) (place : Nat) (flips : BitVec 144) : Dev :=
  let key := 2 ^ 50 + place
  let d := upset d0 key flips
  let src : Source := .mc (place / 2 ^ 26 / 12) (place / 2 ^ 26 % 12)
  let detail := 3 * 2 ^ 60 + place % 2 ^ 26
  if !(areaGuarded d0 place) then d0
  else match checkWord 0 (tgetD d.mem.flips key 0) with
    | .clean => d
    | .uncorrectable => logEvent d evMemUncorrectable src detail
    | _ => logEvent { d with mem.flips := tdel d.mem.flips key } evMemCorrected src detail

/-- The patrol meets a word with the errors that have struck it; `last` ends a GDDR7 pass (R342). The numbering of words is
the model's (log 35). -/
def scrubPatrol (word : Nat) (flips : BitVec 144) (last : Bool) (d : Dev) : Dev :=
  let d1 :=
    if word < 2 ^ 44 then scrubData (if patrolled d word then upset d word flips else d) word
    else if 2 ^ 48 ≤ word && word < 2 ^ 49 then scrubImem (upset d word flips) word
    else if 2 ^ 49 ≤ word && word < 2 ^ 50 then scrubSector d ((word - 2 ^ 49) * 512) flips
    else if 2 ^ 50 ≤ word && word < 2 ^ 51 then scrubArea d (word - 2 ^ 50) flips
    else d
  if last then logEvent d1 evScrubPass (wordSource d (16 * (word % 2 ^ 44))) 0 else d1

/-- SCRUB_PATROL. -/
def execScrubPatrol (word : Nat) (flips : BitVec 144) (last : Bool) (s : State) : Out := act s (live (scrubPatrol word flips last))

/-- The ECS counts are read: each device whose count has changed is reported with it (R342, R432; log 119). -/
def gddrEcsRead (counts : List Nat) (d : Dev) : Dev :=
  let now := (List.range 24).map fun i => counts.getD i (d.mem.ecs.getD i 0)
  let changed := (List.range 24).filter fun i => now.getD i 0 != d.mem.ecs.getD i 0
  changed.foldl (fun d i => logEvent d evGddrEcs (.mc (i / 12) (i % 12)) (now.getD i 0)) { d with mem.ecs := now }

/-- GDDR_ECS_READ. -/
def execGddrEcsRead (counts : List Nat) (s : State) : Out := act s (live (gddrEcsRead counts))

end Sys2Proof.Machine
end

