-- ==== Sys2Proof/Machine/Restore.lean ====
section
/-! DEFINITION. Restore, verification, the weight census and export (14 R366 to R376). -/

namespace Sys2Proof.Machine

/-! ## A stored generation -/

/-- What the store holds of a slot besides its data: record, sections of the state area, region table and page digests. -/
structure Generation where
  slot : Nat
  record : GenRecord
  area : Bytes
  sections : List (List Nat)
  regions : List Bytes
  /-- For each region its version, scale byte and length at the cut. -/
  places : List (Nat × Nat × Nat)
  digests : List Bytes
deriving DecidableEq, Repr

/-- The slot that byte 33 of a descriptor names, where it holds a committed generation (R366). -/
def namedSlot (o : Op) (r : GenRecord × GenRecord) : Option Nat :=
  match o.f 33 1 % 4 with
  | 0 => if r.1.committed then some 0 else none
  | 1 => if r.2.committed then some 1 else none
  | _ => newestSlot r

/-- The triples of a section of regions. -/
def takePlaces (w : List Nat) : List (Nat × Nat × Nat) :=
  match takeList (takePair takeWord (takePair takeWord takeWord)) w with
  | none => []
  | some x => x.1

/-- Offset of the first data page of a generation's slot (Table 14.3). -/
def dataOff (d : Dev) (g : Generation) : Nat :=
  slotOff d g.slot + 65536 * (d.granary.saPages + pagesOf (128 * g.record.regions) + pagesOf (32 * g.record.pages))

/-- The tables of a slot's generation, read from the store. -/
def readGeneration (d : Dev) (n : OpName) (slot : Nat) (r : GenRecord) : Dev × Except Byte Generation :=
  let base := slotOff d slot
  let rt := base + 65536 * d.granary.saPages
  let reads := [(storeAddr d base, 65536 * d.granary.saPages), (storeAddr d rt, 128 * r.regions),
    (storeAddr d (rt + 65536 * pagesOf (128 * r.regions)), 32 * r.pages)]
  match readAll d (some n) reads with
  | (d1, .error st) => (d1, .error st)
  | (d1, .ok l) =>
    let area := l.getD 0 []
    let sections := areaSections area
    (d1, .ok { slot := slot, record := r, area := area, sections := sections
               regions := (List.range r.regions).map fun i => slice (l.getD 1 []) (128 * i) 128
               places := takePlaces (sections.getD 8 [])
               digests := (List.range r.pages).map fun i => slice (l.getD 2 []) (32 * i) 32 })

/-- Saved shard table and weight-census table of a generation. -/
def Generation.tables (g : Generation) : Bytes × Bytes :=
  match takePair takeBytes takeBytes (g.sections.getD 1 []) with
  | none => ([], [])
  | some x => x.1

/-- Length of a region at the cut. -/
def Generation.length (g : Generation) (i : Nat) : Nat := (g.places.getD i (0, 0, 0)).2.2

/-- Number of a region's first page. -/
def Generation.firstPage (g : Generation) (i : Nat) : Nat := (List.range i).foldl (fun n k => n + pagesOf (g.length k)) 0

/-- Where a region is restored to: its own address, or the buffer that the saved LIVE_SEL names (R367). -/
def Generation.dest (g : Generation) (i : Nat) : Nat :=
  let r := g.regions.getD i []
  if regionKind r = 2 then
    let e := slice g.tables.1 (64 * (fld r 16 2 % 4096)) 64
    fld e (if bit (fld e 26 1) 2 then 8 else 0) 8
  else fld r 0 8

/-- The root of a region, from the stored page digests. -/
def Generation.regionRoot (g : Generation) (i : Nat) : Bytes :=
  shake256 (((g.digests.drop (g.firstPage i)).take (pagesOf (g.length i))).flatMap id)

/-- The bytes of a region as its data pages hold them. -/
def readRegion (d : Dev) (n : OpName) (g : Generation) (i : Nat) : Dev × Except Byte Bytes :=
  readMem d (some n) (storeAddr d (dataOff d g + 65536 * g.firstPage i)) (g.length i)

/-- The first page of a region whose digest differs from the stored one. -/
def badPage (g : Generation) (i : Nat) (b : Bytes) : Option Nat :=
  (List.range (pagesOf (g.length i))).find? fun k =>
    shake256 ((b.drop (65536 * k)).take 65536) != g.digests.getD (g.firstPage i + k) []

/-- DETAIL of a digest that fails: region and page (R367). -/
def mismatchDetail (region page : Nat) : Nat := region + 2 ^ 32 * page

/-- DETAIL of a failed root or state digest: all ones (R367; for the state area DEDUCED, log 37). -/
def rootDetail : Nat := 2 ^ 64 - 1

/-- The stored roots fit the record's ROOT and STATE_DIGEST. -/
def Generation.rootsOk (g : Generation) : Bool :=
  generationRoot ((List.range g.regions.length).map g.regionRoot) g.record.stateDigest == g.record.root

/-! ## Restore (R366 to R370) -/

/-- Saved scripts as (number, START, image), stages, chute bindings and pools. -/
structure SavedSeq where
  scripts : List (Nat × Nat × Bytes)
  stages : List (Nat × Nat × List Nat)
  chutes : List (Nat × Nat × Nat × Nat × Nat × Nat)
  pools : List (Nat × Nat)
deriving DecidableEq, Repr

/-- The Sequencer's section read back. -/
def savedSeq (w : List Nat) : SavedSeq :=
  let six := takePair takeWord (takePair takeWord (takePair takeWord (takePair takeWord (takePair takeWord takeWord))))
  match takePair (takeList (takePair takeWord (takePair takeWord takeBytes)))
      (takePair (takeList (takePair takeWord (takePair takeWord (takeList takeWord))))
        (takePair (takeList six) (takeList (takePair takeWord takeWord)))) w with
  | none => { scripts := [], stages := [], chutes := [], pools := [] }
  | some x => { scripts := x.1.1, stages := x.1.2.1, chutes := x.1.2.2.1, pools := x.1.2.2.2 }

/-- A ring that a saved binding or script names does not exist (R366, code 0x05). -/
def savedRingMissing (d : Dev) (q : SavedSeq) : Bool :=
  (q.stages.any fun s => s.2.2.any fun r => (getRing d r).isNone) ||
  (q.scripts.any fun x => (List.range (seqMembers x.2.2)).any fun i => (getRing d (memberOf (seqMember x.2.2 i) 0).ring).isNone)

/-- The reason code for which a restore is refused at issue, from the committed generation found (R366). -/
def restoreRefusal (d : Dev) (mode : Nat) (g : Generation) : Option Nat :=
  let q := savedSeq (g.sections.getD 3 [])
  if mode = 1 && g.record.ident != Config.ident.toNat then some 3
  else if mode != 0 && (g.record.coord != d.fabric.coord.toNat || g.sections.getD 6 [] != fabricWords d) then some 4
  else if mode != 0 && savedRingMissing d q then some 5
  else if mode != 0 && q.stages.any (fun s => 2 ≤ tileState d s.2.1) then some 6
  else none

/-- The device is not quiet enough for a restore (R366, code 0x01). -/
def restoreBusy (d : Dev) (n : OpName) : Bool :=
  ((opsInFlight d).any fun e => e.1 != n.ring || (e.2.opcode == 0x0703 && e.2.phase == .issued && e.2.seq != n.seq)) ||
  d.granary.st != .idle || d.seq.migration.isSome

/-- Regions are written into place, in region order, each page's digest checked (R367): the status and DETAIL of the first
failure. -/
def restoreRegions (n : OpName) (g : Generation) : Nat → Nat → Dev → Dev × Option (Byte × Nat)
  | 0, _, d => (d, none)
  | fuel + 1, i, d =>
    match readRegion d n g i with
    | (d1, .error st) => (scramble d1 (g.dest i) (g.length i), some (st, 0))
    | (d1, .ok b) => match badPage g i b with
      | some k => (scramble d1 (g.dest i) (g.length i), some (stDigestMismatch, mismatchDetail i k))
      | none => match writeMem d1 none (g.dest i) b with
        | (d2, some st) => (scramble d2 (g.dest i) (g.length i), some (st, 0))
        | (d2, none) => restoreRegions n g fuel (i + 1) d2

/-- Numerical settings from their words. -/
def numOf (w : List Nat) : NumSettings :=
  let x (i : Nat) : Nat := w.getD i 0
  { seed := BitVec.ofNat 64 (x 0), censusAddr := x 1, censusLog2 := x 2, policyAddr := x 3, scaleAddr := x 4, shardAddr := x 5
    shardCount := x 6, silentRun := x 7 }

/-- Badger tables from their words. -/
def tablesOf (w : List Nat) : List (Nat × Nat × Bytes) :=
  match takeList (takePair takeWord (takePair takeWord takeBytes)) w with
  | none => []
  | some x => x.1

/-- The Badgers with the saved tables and no ledger entries. -/
def restoreBadgers (d : Dev) (saved : List (Nat × Nat × Bytes)) : Dev :=
  let d1 := { d with badgers := d.badgers.map fun b => (b.1, { b.2 with tables := [] }) }
  saved.foldl (fun d e => modBadger d e.1 fun b => { b with tables := tput b.tables e.2.1 e.2.2 }) d1

/-- Every ledger entry is discarded, with its event (R368). -/
def discardLedgers (d : Dev) : Dev :=
  d.badgers.foldl (fun d b => if b.2.ledger.isEmpty then d
    else logEvent (modBadger d b.1 fun x => { x with ledger := [] }) evLedgerDiscard (.engine b.1 0) 0) d

/-- The Sequencer's section restored: bindings, pools and scripts, with every cursor at the first forward unit of the next
step (R368). -/
def restoreSeq (d : Dev) (q : SavedSeq) (next : Nat) : Dev :=
  let d1 := { d with
    chutes := q.chutes.foldl (fun t c => tput t c.1
      ({ producer := c.2.1, depth := c.2.2.1, slotKib := c.2.2.2.1, offset := c.2.2.2.2.1, stallMs := c.2.2.2.2.2 } : Chute)) []
    seq.stages := q.stages.foldl (fun t s => tput t s.1 ({ tile := s.2.1, rings := s.2.2 } : Stage)) []
    seq.pools := q.pools
    seq.scripts := []
    seq.units := []
    seq.abandoned := [] }
  let d2 := q.scripts.foldl (fun d x => match scriptOf d x.2.2 x.2.1 x.1 with
    | .error _ => d
    | .ok y => installScript d y) d1
  mapMembers d2 fun x m => settleCursor x.micro 4 { m with step := next, phase := 0, j := 0, copies := [], starts := [], spaceFrom := none, spaceLogged := false, ripeAt := none }

/-- Group records and exception entries 0 to 191 from their words. -/
def restoreGroups (d : Dev) (groups exceptions : List Nat) : Dev :=
  let gs := match takeList (takePair takeWord (takePair takeBytes takeBytes)) groups with
    | none => []
    | some x => x.1
  let es := match takeList (takePair takeWord takeWord) exceptions with
    | none => []
    | some x => x.1
  { d with
    fabric.groups := gs.foldl (fun t g => tput t g.1 (groupOf g.2.1 g.2.2)) []
    fabric.exceptions := es.foldl (fun t e => tput t e.1 (BitVec.ofNat 64 e.2)) (d.fabric.exceptions.filter fun e => 192 ≤ e.1) }

/-- What a restore of step g leaves: step g + 1 the oldest open one, and nothing of the steps that were (R368). -/
def restoreSteps (d : Dev) (next : Nat) : Dev :=
  { d with
    steps.oldest := next
    steps.opened := List.replicate 4 {}
    steps.silent := []
    steps.closed := []
    fabric.coordinators := []
    fabric.roots := []
    granary.written := [none, none]
    granary.digests := [[], []] }

/-- The state sections take effect (R367, R368, Table 14.10). -/
def applyState (d : Dev) (mode : Nat) (g : Generation) : Dev :=
  let next := g.record.step + 1
  let num := numOf (g.sections.getD 0 [])
  let t := g.tables
  let d1 := { d with steps.num := num }
  let d2 := if num.shardAddr = 0 || t.1.isEmpty then d1 else (writeMem d1 none num.shardAddr t.1).1
  let d3 := if d.granary.wcAddr = 0 || t.2.isEmpty then d2 else (writeMem d2 none d.granary.wcAddr t.2).1
  let d4 := restoreBadgers (discardLedgers d3) (tablesOf (g.sections.getD 2 []))
  let d5 := restoreSteps d4 next
  let d6 := restoreSeq d5 (savedSeq (g.sections.getD 3 [])) next
  let d7 := if mode = 0 then d6 else restoreGroups d6 (g.sections.getD 4 []) (g.sections.getD 5 [])
  markRipe d7

/-- Every saved script's digest fits its image (Table 14.10). -/
def scriptsOk (g : Generation) : Bool := (savedSeq (g.sections.getD 3 [])).scripts.all fun x => seqDigestOk x.2.2

/-- The events of a restore (R367, R369, R370). -/
def restoreEvents (d : Dev) (mode : Nat) (g : Generation) : Dev :=
  let d1 := if mode = 2 then logEvent d evGranaryRecovered (.ctl 0) (g.record.ident + 2 ^ 64 * Config.ident.toNat) else d
  let d2 := if g.record.rngStep != 2 ^ 64 - 1 && g.record.rngStep != g.record.step + 1 then
    logEvent d1 evRngRealign (.ctl 0) (g.record.rngStep + 2 ^ 64 * (g.record.step + 1)) else d1
  logEvent d2 evRestoreDone (.ctl 0) 0

/-- A restore of a generation that is not refused (R367). -/
def restoreGeneration (d : Dev) (n : OpName) (mode : Nat) (g : Generation) : Dev :=
  if shake256 g.area != g.record.stateDigest || !(scriptsOk g) then completeOp d n stDigestMismatch rootDetail
  else match (List.range g.regions.length).find? fun i => !(rangeMapped d (g.dest i) (g.length i) true) with
    | some i => completeOp d n stBadAddress i
    | none => match restoreRegions n g g.regions.length 0 d with
      | (d1, some e) => completeOp d1 n e.1 e.2
      | (d1, none) =>
        if !g.rootsOk then completeOp d1 n stDigestMismatch rootDetail
        else completeOp (restoreEvents (applyState d1 mode g) mode g) n stOk g.record.gen

/-- The committed generation that an operation names, or the status and DETAIL for which it ends. -/
def namedGeneration (d : Dev) (n : OpName) (o : Op) : Dev × Except (Byte × Nat) Generation :=
  match readRecords d (some n) with
  | (d1, .error st) => (d1, .error (st, 0))
  | (d1, .ok recs) => match namedSlot o recs with
    | none => (d1, .error (stBadDescriptor, 2))
    | some k => match readGeneration d1 n k (if k = 0 then recs.1 else recs.2) with
      | (d2, .error st) => (d2, .error (st, 0))
      | (d2, .ok g) => (d2, .ok g)

/-- GR_RESTORE (R366, R367). -/
def grRestore (n : OpName) : Dev → Dev := granaryOp 0x0702 n fun o d =>
  let mode := o.f 32 1 % 4
  match namedGeneration d n o with
  | (d1, .error e) => completeOp d1 n e.1 e.2
  | (d1, .ok g) => match restoreRefusal d1 mode g with
    | some c => completeOp d1 n stBadDescriptor c
    | none => restoreGeneration d1 n mode g

/-- GR_RESTORE. -/
def execGrRestore (ring : Nat) (seq : W32) (s : State) : Out := act s (running (grRestore { ring := ring, seq := seq }))

/-! ## Verification (R371) -/

/-- Bit n for each section that differs from the device's present state (Table 14.10). -/
def sectionBits (d : Dev) (g : Generation) : Nat :=
  let shards := match (readTable d d.steps.num.shardAddr d.steps.num.shardCount).2 with
    | .ok b => b
    | .error _ => []
  let census := match (readTable d d.granary.wcAddr d.steps.num.shardCount).2 with
    | .ok b => b
    | .error _ => []
  let now := stateSections d shards census []
  (List.range 7).foldl (fun m k => if g.sections.getD k [] != now.getD k [] then m + 2 ^ k else m) 0

/-- The first region whose data pages do not have the stored digests, all ones for a root or the state area. -/
def verifyRegions (n : OpName) (g : Generation) : Nat → Nat → Dev → Dev × Except Byte (Option Nat)
  | 0, _, d => (d, .ok (if g.rootsOk && shake256 g.area == g.record.stateDigest then none else some 0xFFFFFFFF))
  | fuel + 1, i, d => match readRegion d n g i with
    | (d1, .error st) => (d1, .error st)
    | (d1, .ok b) => if (badPage g i b).isSome then (d1, .ok (some i)) else verifyRegions n g fuel (i + 1) d1

/-- A slot that a snapshot is writing (R371). -/
def slotBusy (d : Dev) (k : Nat) : Bool := (d.granary.st == .copying || d.granary.st == .sealing) && d.granary.slot == k

/-- GR_VERIFY: every digest of a slot, and the state sections against the device. -/
def grVerify (n : OpName) : Dev → Dev := granaryOp 0x0703 n fun o d =>
  match namedGeneration d n o with
  | (d1, .error e) => completeOp d1 n e.1 (if e.1 = stBadDescriptor then 0 else e.2)
  | (d1, .ok g) =>
    if slotBusy d1 g.slot then completeOp d1 n stBadDescriptor
    else
      let differs := sectionBits d1 g
      match verifyRegions n g g.regions.length 0 d1 with
      | (d2, .error st) => completeOp d2 n st
      | (d2, .ok none) => completeOp d2 n stOk differs
      | (d2, .ok (some i)) => completeOp d2 n stDigestMismatch (differs + 2 ^ 32 * i)

/-- GR_VERIFY. -/
def execGrVerify (ring : Nat) (seq : W32) (s : State) : Out := act s (running (grVerify { ring := ring, seq := seq }))

/-! ## Export (R376) -/

/-- The format word of an export record: with SCALE_FROM_TABLE, TSCALE as it stood at the cut. -/
def exportFormat (r : Bytes) (scale : Nat) : Nat :=
  if bit (fld r 18 1) 7 then fld r 22 1 + 256 * scale else fld r 22 2

/-- An export record (Table 14.12). -/
def exportRecord (d : Dev) (g : Generation) (i : Nat) : Bytes :=
  let r := g.regions.getD i []
  let p := g.places.getD i (0, 0, 0)
  leBytes 2 (fld r 20 2 % 4096) ++ leBytes 1 (fld r 18 1 % 128) ++ leBytes 1 (fld r 19 1) ++ leBytes 2 (exportFormat r p.2.1) ++ leBytes 2 0 ++
  leBytes 8 (if regionKind r = 2 then p.1 else g.record.step) ++ leBytes 8 p.2.2 ++ slice r 24 48 ++ leBytes 2 d.fabric.coord.toNat ++ leBytes 6 0 ++
  g.regionRoot i ++ leBytes 8 g.record.gen ++ leBytes 8 (dataOff d g + 65536 * g.firstPage i)

/-- GR_EXPORT: one record for each region of a committed slot. -/
def grExport (n : OpName) : Dev → Dev := granaryOp 0x0705 n fun o d =>
  match namedGeneration d n o with
  | (d1, .error e) => completeOp d1 n e.1 (if e.1 = stBadDescriptor then 0 else e.2)
  | (d1, .ok g) =>
    match writeMem d1 (some n) (o.f 40 8) ((List.range g.regions.length).flatMap (exportRecord d1 g)) with
    | (d2, some st) => finishOp d2 n [(o.f 40 8, 128 * g.regions.length)] (.error st)
    | (d2, none) => completeOp d2 n stOk g.regions.length

/-- GR_EXPORT. -/
def execGrExport (ring : Nat) (seq : W32) (s : State) : Out := act s (running (grExport { ring := ring, seq := seq }))

/-! ## The weight census (R372, R373) -/

/-- A step is a census step (R372). -/
def censusStep (d : Dev) (s : Nat) : Bool :=
  let k := d.granary.censusK
  k != 0 && (k == 1 || s % k == 0 || s % k == 1)

/-- The digest of a buffer, as the shard root digest: the digest of its pages' digests (R353). -/
def bufferDigest (d : Dev) (n : OpName) (a len : Nat) : Dev × Except Byte Bytes :=
  match readMem d (some n) a len with
  | (d1, .error st) => (d1, .error st)
  | (d1, .ok b) => (d1, .ok (shake256 ((List.range (pagesOf len)).flatMap fun k => shake256 ((b.drop (65536 * k)).take 65536))))

/-- How a shard's treatment ends: it is done, the operation ends, it waits while the owner's entry is behind, or for the
responses to its reads. -/
inductive CensusEnd where
  | done
  | ended (st : Byte) (detail : Nat)
  | waits
  | asks
deriving DecidableEq, Repr

/-- Live and next buffer of a shard entry (Table 9.7). -/
def liveBuf (e : Bytes) : Nat := fld e (if bit (fld e 26 1) 2 then 8 else 0) 8
def nextBuf (e : Bytes) : Nat := fld e (if bit (fld e 26 1) 2 then 0 else 8) 8

/-- Address of a weight-census entry. -/
def wcEntry (d : Dev) (i : Nat) : Nat := d.granary.wcAddr + 64 * i

/-- FLAGS of a census entry with bits set. -/
def setWcFlags (d : Dev) (n : OpName) (i flags : Nat) : Dev :=
  match readMem d (some n) (wcEntry d i + 52) 1 with
  | (d1, .error _) => d1
  | (d1, .ok b) => (writeMem d1 none (wcEntry d i + 52) [BitVec.ofNat 8 (fld b 0 1 ||| flags)]).1

/-- An owner's live version against its recorded digest, at issue (R373). -/
def ownerCheck (d : Dev) (n : OpName) (i : Nat) (e : Bytes) : Dev × CensusEnd :=
  match readMem d (some n) (wcEntry d i) 64 with
  | (d1, .error st) => (d1, .ended st 0)
  | (d1, .ok c) =>
    if fld c 0 8 != fld e 32 8 then (d1, .done)
    else match bufferDigest d1 n (liveBuf e) (fld e 16 8) with
      | (d2, .error st) => (d2, .ended st 0)
      | (d2, .ok h) =>
        if h = slice c 8 32 then (d2, .done)
        else (logEvent (setWcFlags d2 n i 2) evShardCorrupt (.ring n.ring) 0, .ended stDigestMismatch (i + 2 ^ 12))

/-- An owner after the decision (R373): under APPLY the next version's digest and then STEP, under SKIP STEP and SKIPPED. -/
def ownerRecord (d : Dev) (n : OpName) (i s : Nat) (apply : Bool) (e : Bytes) : Dev × CensusEnd :=
  if apply then
    match bufferDigest d n (nextBuf e) (fld e 16 8) with
    | (d1, .error st) => (d1, .ended st 0)
    | (d1, .ok h) => match readMem d1 (some n) (wcEntry d i + 52) 1 with
      | (d2, .error st) => (d2, .ended st 0)
      | (d2, .ok f) =>
        match writeAll d2 none [(wcEntry d i + 52, [BitVec.ofNat 8 (fld f 0 1 % 256 - fld f 0 1 / 4 % 2 * 4)]), (wcEntry d i + 8, h), (wcEntry d i, leBytes 8 s)] with
        | (d3, some st) => (d3, .ended st 0)
        | (d3, none) => (d3, .done)
  else
    match writeMem (setWcFlags d n i 4) none (wcEntry d i) (leBytes 8 s) with
    | (d1, some st) => (d1, .ended st 0)
    | (d1, none) => (d1, .done)

/-- Marks of how far a replica's treatment has come, kept beside its reads: `kind` 0, refetch `f` has begun; 1, it is done. -/
def hasMark (d : Dev) (n : OpName) (kind f : Nat) : Bool := hasFetched d n kind 0 f
def putMark (d : Dev) (n : OpName) (kind f : Nat) : Dev := modOp d n fun o => { o with fetched := o.fetched ++ [(kind, 0, f)] }

/-- A replica's next version is copied from the owner's live buffer again, under the checks of R256 (R373). -/
def refetch (d : Dev) (n : OpName) (i s f : Nat) (e : Bytes) : Dev × CensusEnd :=
  let owner : W16 := BitVec.ofNat 16 (fld e 28 2 % 2 ^ 15)
  match remoteRead d n owner (fld e 40 8) 64 (10 + 3 * f) with
  | (d1, .unreachable) => (d1, .ended stFabricUnreachable 0)
  | (d1, .waits) => (d1, .asks)
  | (d1, .got oe) =>
    if fld oe 32 8 != s then (d1, .ended stRemoteError (fld oe 32 8))
    else match remoteRead d1 n owner (liveBuf oe) (fld e 16 8) (11 + 3 * f) with
      | (d2, .unreachable) => (d2, .ended stFabricUnreachable 0)
      | (d2, .waits) => (d2, .asks)
      | (d2, .got data) => match writeMem d2 none (nextBuf e) data with
        | (d3, some st) => (d3, .ended st 0)
        | (d3, none) => match remoteRead d3 n owner (fld e 40 8) 64 (12 + 3 * f) with
          | (d4, .unreachable) => (d4, .ended stFabricUnreachable 0)
          | (d4, .waits) => (d4, .asks)
          | (d4, .got oe2) =>
            if fld oe2 32 8 != s then (d4, .ended stRemoteError (fld oe2 32 8))
            else match readMem d4 (some n) (wcEntry d i + 48) 4 with
              | (d5, .error st) => (d5, .ended st 0)
              | (d5, .ok c) =>
                let d6 := (writeMem d5 none (wcEntry d i + 48) (leBytes 4 (fld c 0 4 + 1))).1
                (putMark (modOp d6 n fun o => { o with tallyCount := o.tallyCount + 1 }) n 1 f, .done)

/-- A replica's next version is digested, and refetched from the owner while it differs, at most twice (R373). -/
def replicaDigest (n : OpName) (i s : Nat) (e : Bytes) (want : Bytes) : Nat → Dev → Dev × CensusEnd
  | fuel, d =>
    -- while a refetch is under way, what it has copied is not judged yet
    let x : Dev × Except Byte (Option Bytes) :=
      if fuel != 0 && hasMark d n 0 (fuel - 1) then (d, .ok none)
      else let y := bufferDigest d n (nextBuf e) (fld e 16 8); (y.1, y.2.map some)
    match x with
    | (d1, .error st) => (d1, .ended st 0)
    | (d1, .ok h) =>
      if h = some want then
        match writeAll d1 none [(wcEntry d i + 8, want), (wcEntry d i, leBytes 8 s)] with
        | (d2, some st) => (d2, .ended st 0)
        | (d2, none) => (d2, .done)
      else match fuel with
        | 0 => (d1, .ended stDigestMismatch i)
        | f + 1 =>
          let d2 := if hasMark d1 n 0 f then d1 else putMark (logEvent (setWcFlags d1 n i 1) evReplicaDiverged (.ring n.ring) 0) n 0 f
          match refetch d2 n i s f e with
          | (d3, .done) => replicaDigest n i s e want f d3
          | x => x

/-- A replica after the decision APPLY (R373): it reads the owner's census entry, and waits while that is behind. -/
def replicaCheck (d : Dev) (n : OpName) (i s : Nat) (e : Bytes) : Dev × CensusEnd :=
  match readMem d (some n) (wcEntry d i) 64 with
  | (d1, .error st) => (d1, .ended st 0)
  | (d1, .ok c) => match remoteRead d1 n (BitVec.ofNat 16 (fld e 28 2 % 2 ^ 15)) (fld c 40 8) 64 9 with
    | (d2, .unreachable) => (d2, .ended stFabricUnreachable 0)
    | (d2, .waits) => (d2, .asks)
    | (d2, .got oc) =>
      let step := fld oc 0 8
      if step = 2 ^ 64 - 1 || step < s then (d2, .waits)
      else if s < step then (d2, .ended stRemoteError 0)
      else if bit (fld oc 52 1) 2 then (d2, .ended stDigestMismatch (i + 2 ^ 13))
      else replicaDigest n i s e (slice oc 8 32) (2 - ((List.range 2).filter (hasMark d2 n 1)).length) d2

/-- Shard entries with VALID set, checked as owners at issue. -/
def censusIssue (n : OpName) : List (Nat × Bytes) → Dev → Dev × CensusEnd
  | [], d => (d, .done)
  | (i, e) :: r, d =>
    if bit (fld e 26 1) 1 then match ownerCheck d n i e with
      | (d1, .done) => censusIssue n r d1
      | x => x
    else censusIssue n r d

/-- Shard entries treated after the decision, from place `done − 1` on. -/
def censusDecided (n : OpName) (s : Nat) (apply : Bool) : List (Nat × Bytes) → Dev → Dev × CensusEnd
  | [], d => (d, .done)
  | (i, e) :: r, d =>
    let x := if bit (fld e 26 1) 1 then ownerRecord d n i s apply e else if apply then replicaCheck d n i s e else (d, .done)
    match x with
    | (d1, .done) => censusDecided n s apply r (modOp d1 n fun o =>
        { o with done := o.done + 1, fetched := [], stallFrom := none, stallLogged := false })
    | y => y

/-- The operation's end, or its wait. -/
def censusEnd (n : OpName) (r : Dev × CensusEnd) : Dev :=
  match r.2 with
  | .done => completeOp r.1 n stOk (((getOp r.1 n).map (·.tallyCount)).getD 0)
  | .ended st detail => completeOp r.1 n st detail
  | .waits => modOp (waitOn r.1 n) n fun o => { o with sendFrom := some (deviceTime r.1), fetched := [] }
  | .asks => r.1

/-- The part after the decision, once it has been taken; where the step has closed meanwhile, the operation ends with what
it has counted (DEDUCED, log 38). -/
def censusContinue (n : OpName) (o : Op) (l : List (Nat × Bytes)) (d : Dev) : Dev :=
  let s := o.f 32 8
  match stepState d s with
  | none => completeOp d n stOk o.tallyCount
  | some st => match st.decision with
    | none => d
    | some apply => censusEnd n (censusDecided n s apply (l.drop (o.done - 1)) d)

/-- GR_WCENSUS: the owner's check at issue, then what follows the decision (R373). -/
def grWcensus (n : OpName) (d : Dev) : Dev :=
  match issuedOp d n, ringTarget d n.ring with
  | some o, some (.granary die) =>
    let first := (issuedTo d (.granary die)).find? fun e => e.2.done == 0
    if o.opcode != 0x0704 then d
    else if o.done != 0 then
      if o.sendFrom.isSome then d
      else match validShards d with
        | (d1, .error st) => completeOp d1 n st
        | (d1, .ok l) => censusContinue n o l d1
    else if first.map (fun e => (e.1, e.2.seq)) != some (n.ring, n.seq) then d
    else if !(censusStep d (o.f 32 8)) || d.granary.wcAddr = 0 then completeOp d n stOk
    else match validShards d with
      | (d1, .error st) => completeOp d1 n st
      | (d1, .ok l) => match censusIssue n l (modOp d1 n fun o => { o with done := 1 }) with
        | (d2, .done) => match getOp d2 n with
          | none => d2
          | some o1 => censusContinue n o1 l d2
        | r => censusEnd n r
  | _, _ => d

/-- GR_WCENSUS. -/
def execGrWcensus (ring : Nat) (seq : W32) (s : State) : Out := act s (running (grWcensus { ring := ring, seq := seq }))

/-- 1 µs after its last read, a waiting replica reads the owner's entry again (R373). -/
def wcensusRetry (n : OpName) (d : Dev) : Dev :=
  match issuedOp d n with
  | none => d
  | some o => match o.sendFrom with
    | none => d
    | some t =>
      if o.opcode != 0x0704 || deviceTime d < t + 1000 then d
      else match validShards (modOp d n fun o => { o with sendFrom := none }) with
        | (d1, .error st) => completeOp d1 n st
        | (d1, .ok l) => censusContinue n o l d1

/-- WCENSUS_RETRY. -/
def execWcensusRetry (ring : Nat) (seq : W32) (s : State) : Out := act s (running (wcensusRetry { ring := ring, seq := seq }))

/-- A replica has waited longer than WAIT_LIMIT: logged once (R373). -/
def wcensusStall (n : OpName) (d : Dev) : Dev :=
  match issuedOp d n with
  | none => d
  | some o =>
    if o.opcode == 0x0704 && !o.stallLogged && overdue d o.stallFrom (ringLimit d n.ring) then
      logEvent (modOp d n fun o => { o with stallLogged := true }) evWcensusStall (.ring n.ring) 0
    else d

/-- WCENSUS_STALL. -/
def execWcensusStall (ring : Nat) (seq : W32) (s : State) : Out := act s (running (wcensusStall { ring := ring, seq := seq }))

end Sys2Proof.Machine
end

