-- ==== Sys2Proof/Machine/Thresher.lean ====
section
/-! DEFINITION. The Thresher: stream blocks, samples, decoding, batches, and the operations of opcode class 0x05 (11). -/

namespace Sys2Proof.Machine

/-! ## Small tools -/

/-- The class of a die with `f` applied. -/
def modClass (d : Dev) (die cls : Nat) (f : BatchClass → BatchClass) : Dev :=
  modTh d die fun t => { t with classes := tmod t.classes cls f }

/-- The batch is open: started and not emitted (R298). -/
def Batch.isOpen (b : Batch) : Bool := b.emitted.isNone

/-- An open batch of a class with `f` applied. -/
def modBatch (d : Dev) (die cls n : Nat) (f : Batch → Batch) : Dev :=
  modClass d die cls fun c => { c with batches := c.batches.map fun b => if b.number = n ∧ b.isOpen then f b else b }

/-- An open batch of a class. -/
def getBatch (d : Dev) (die cls n : Nat) : Option Batch :=
  (tget (getTh d die).classes cls).bind fun c => c.batches.find? fun b => b.number == n && b.isOpen

/-- The sample at a place of a die's list with `f` applied. -/
def modSample (d : Dev) (die k : Nat) (f : Sample → Sample) : Dev :=
  modTh d die fun t => { t with samples := modAt t.samples k f }

/-- Blocks of the receive buffer are freed (R286). -/
def freeBlocks (d : Dev) (die n : Nat) : Dev := modTh d die fun t => { t with freed := t.freed + BitVec.ofNat 32 n }

/-- The header of a sample has arrived whole (R289). -/
def Sample.whole (s : Sample) : Bool := 64 ≤ s.bytes.length

/-- Fields of the sample header (Table 11.3). -/
def Sample.id (s : Sample) : W64 := BitVec.ofNat 64 (fld s.bytes 0 8)
def Sample.capture (s : Sample) : Nat := fld s.bytes 8 8
def Sample.batch (s : Sample) : Nat := fld s.bytes 16 8
def Sample.slot (s : Sample) : Nat := fld s.bytes 24 2
def Sample.augIndex (s : Sample) : Nat := fld s.bytes 28 4

/-- The header breaks Table 11.3 or is larger than the stream's MAX_BYTES, its slot apart (R294). -/
def Sample.headerWrong (s : Sample) (cfg : StreamCfg) : Bool :=
  !(zeroAt s.bytes 26 2) || !(zeroAt s.bytes 36 28) || decide (cfg.maxBytes < 64 + fld s.bytes 32 4)

/-- A sample leaves the list once it has ended; until then its blocks are freed as they come (R286, R294). -/
def dropSample (d : Dev) (die k : Nat) : Dev :=
  match (getTh d die).samples[k]? with
  | none => d
  | some s => freeBlocks (modSample d die k fun s => { s with dropped := true, blocks := 0 }) die s.blocks

/-- Samples that are done and have ended leave the list. -/
def sweepSamples (d : Dev) (die : Nat) : Dev :=
  modTh d die fun t => { t with samples := t.samples.filter fun s => !(s.dropped && s.ended) }

/-- An injected sample's operation completes with STATE and DAMAGE of its slot (Table 11.9). -/
def completeInjector (d : Dev) (s : Sample) (state : Byte) (damage : W16) : Dev :=
  match s.injector with
  | none => d
  | some op => completeOp d op stOk (state.toNat + 65536 * damage.toNat)

/-- An injected sample that is late or a duplicate resolves no slot: DETAIL then holds free values (log 34). -/
def completeUnplaced (d : Dev) (s : Sample) : Dev :=
  match s.injector with
  | none => d
  | some op => completeOp { d with draws := d.draws + 1 } op stOk (Config.freeValue 32 d.draws).toNat

/-- The slot of a sample is resolved with its status (R299). -/
def resolveSlot (d : Dev) (die cls k : Nat) (s : Sample) (st : SlotStatus) (counts : List CensusAdd) : Dev :=
  let d1 := modBatch d die cls s.batch fun b => { b with
    claimed := b.claimed.filter (· != s.slot)
    slots := tput b.slots s.slot st
    census := b.census ++ counts }
  dropSample (completeInjector (countEvent d1 evThSample 1 die none none) s st.state st.damage) die k

/-- A sample's slot becomes padding with a STATE (R294, R297). -/
def padSample (d : Dev) (die cls k : Nat) (c : BatchClass) (s : Sample) (state : Byte) (damage : W16 := 0)
    (firstDamage regions : W32 := 0xFFFFFFFF) : Dev :=
  resolveSlot d die cls k s
    { sampleId := s.id, capture := BitVec.ofNat 64 s.capture, firstDamage := firstDamage, damage := damage, state := state
      flags := s.flags, regions := if firstDamage = 0xFFFFFFFF then 0 else regions, content := padSlot c } []

/-! ## Batches and their window (R298, R299) -/

/-- The timer start of batch `n`: the time of the first header that named it or a later one (R299). -/
def BatchClass.timer (c : BatchClass) (n : Nat) : Option W64 := (c.marks.find? fun m => decide (n ≤ m.1)).map (·.2)

/-- The window's batches whose timer has started are open (R298). -/
def openBatches (c : BatchClass) : BatchClass :=
  let add := (List.range 8).filterMap fun i =>
    let n := c.next + i
    if c.batches.any fun b => b.number == n && b.isOpen then none
    else (c.timer n).map fun t => ({ number := n, timerStart := t } : Batch)
  { c with batches := c.batches ++ add, marks := c.marks.filter fun m => decide (c.next ≤ m.1) }

/-- A header names batch `n`: the timers of the batches up to it that have none start now (R299). -/
def markBatch (now : W64) (n : Nat) (c : BatchClass) : BatchClass :=
  openBatches (if c.next ≤ n && c.marks.all (fun m => decide (m.1 < n)) then { c with marks := c.marks ++ [(n, now)] } else c)

/-- The slot of a placed sample is no longer open to it at its arrival: resolved, emitted, or past the deadline (R299). -/
def arrivedLate (c : BatchClass) (b : Option Batch) (s : Sample) : Bool := match b with
  | none => true
  | some b => thas b.slots s.slot || decide (b.timerStart.toNat + c.timeoutNs ≤ s.arrival.toNat)

/-- A sample that has ended and whose slot is in the window is judged: late at the deadline, in the future, or stale (R297,
R299). -/
def judgeArrival (d : Dev) (die k : Nat) : Dev :=
  match (getTh d die).samples[k]? with
  | none => d
  | some s =>
    match tget (getTh d die).streams s.stream with
    | none => d
    | some cfg => match tget (getTh d die).classes cfg.cls with
      | none => d
      | some c =>
        if !s.ended || s.dropped || !s.placed then d
        else if arrivedLate c (getBatch d die cfg.cls s.batch) s then
          let d1 := modBatch d die cfg.cls s.batch fun b => { b with claimed := b.claimed.filter (· != s.slot) }
          dropSample (completeUnplaced (logEvent d1 evThSampleLate (.streamPort die) 0) s) die k
        else
          let age := s.arrival.toNat - s.capture
          let s1 := if s.arrival.toNat < s.capture then { s with flags := s.flags ||| 4 } else s
          let d1 := modSample d die k fun _ => s1
          if cfg.staleNs != 0 && cfg.staleNs ≤ age then padSample d1 die cfg.cls k c s1 4 else d1

/-- A sample whose header has arrived takes its slot, if its batch is in the window (R298): late, a duplicate, refused, or
claimed. -/
def placeSample (d : Dev) (die k : Nat) : Dev :=
  match (getTh d die).samples[k]? with
  | none => d
  | some s =>
    match tget (getTh d die).streams s.stream with
    | none => d
    | some cfg => match tget (getTh d die).classes cfg.cls with
      | none => d
      | some c =>
        if s.dropped || s.placed || !s.whole || c.next + 8 ≤ s.batch then d
        else if s.batch < c.next then
          dropSample (completeUnplaced (logEvent d evThSampleLate (.streamPort die) 0) s) die k
        else if c.samples ≤ s.slot then
          dropSample (completeInjector (logEvent d evThSampleRefused (.streamPort die) 0) s 3 0) die k
        else match getBatch d die cfg.cls s.batch with
          | none => d
          | some b =>
            if thas b.slots s.slot && (tgetD b.slots s.slot {}).state != 5 && (tgetD b.slots s.slot {}).state != 6 || b.claimed.contains s.slot then
              dropSample (completeUnplaced (logEvent d evThSampleDuplicate (.streamPort die) 0) s) die k
            else if thas b.slots s.slot then
              dropSample (completeUnplaced (logEvent d evThSampleLate (.streamPort die) 0) s) die k
            else
              let d1 := modBatch d die cfg.cls s.batch fun b => { b with claimed := b.claimed ++ [s.slot] }
              let d2 := modSample d1 die k fun s => { s with placed := true }
              if s.headerWrong cfg then padSample (logEvent d2 evThSampleRefused (.streamPort die) 0) die cfg.cls k c s 3
              else judgeArrival d2 die k

/-- The places of a die's held samples, by the order in which their headers arrived. -/
def heldSamples (t : Thresher) : List Nat :=
  (List.range t.samples.length).filter fun k => match t.samples[k]? with
    | some s => s.whole && !s.placed && !s.dropped
    | none => false

/-- The window of a class has moved on: held samples take their slots (R298). -/
def placeHeld (d : Dev) (die : Nat) : Dev :=
  sweepSamples ((heldSamples (getTh d die)).foldl (fun d k => placeSample d die k) d) die

/-- The augmentation record of a sample: its parameters, and whether it fell back to the default (R302). -/
def augRecord (d : Dev) (cfg : StreamCfg) (s : Sample) : Dev × Except Byte (Bytes × Bool) :=
  let dflt (d : Dev) (bad : Bool) : Dev × Except Byte (Bytes × Bool) :=
    let r := readMem d none cfg.augDefault 64
    (r.1, r.2.map fun b => (b, bad))
  if s.augIndex = 0xFFFFFFFF then dflt d false
  else if cfg.augCount ≤ s.augIndex then dflt d true
  else
    let r := readMem d none (cfg.augTable + 64 * s.augIndex) 64
    match r.2 with
    | .error st => (r.1, .error st)
    | .ok b => if fld b 0 8 = s.id.toNat then (r.1, .ok (b, false)) else dflt r.1 true

/-- A sample's header has arrived: its record is read, the timers start, and it takes its slot (R292, R298, R299, R302). -/
def headerArrived (d : Dev) (die k : Nat) : Dev :=
  match (getTh d die).samples[k]? with
  | none => d
  | some s =>
    match tget (getTh d die).streams s.stream with
    | none => d
    | some cfg =>
      let r := if cfg.augSlot = 0xFF then (d, .ok ([], false)) else augRecord d cfg s
      let d1 := if s.injector.isSome then r.1 else modSample r.1 die k fun s => { s with headerTick := cycle d }
      let d2 := modClass d1 die cfg.cls (markBatch (if s.injector.isSome then s.arrival else BitVec.ofNat 64 (deviceTime d)) s.batch)
      match r.2 with
      | .error _ =>
        let d3 := placeSample d2 die k
        match (getTh d3 die).samples[k]?, tget (getTh d3 die).classes cfg.cls with
        | some s1, some c => if s1.placed && !s1.dropped then padSample d3 die cfg.cls k c s1 7 65535 else d3
        | _, _ => d3
      | .ok (b, bad) =>
        let params := if b.isEmpty then [] else (List.range 12).map fun i => BitVec.ofNat 32 (fld b (16 + 4 * i) 4)
        let d3 := modSample d2 die k fun s => { s with params := params, flags := if bad then s.flags ||| 2 else s.flags }
        placeSample (if bad then logEvent d3 evThAugMismatch (.streamPort die) 0 else d3) die k

/-! ## The stream port (R284 to R289, R292, R293) -/

/-- A sample's header cannot be read whole: its blocks are freed, and those to come (R293). -/
def loseHeader (d : Dev) (die k : Nat) (ended : Bool) : Dev :=
  match (getTh d die).samples[k]? with
  | none => d
  | some s =>
    let d1 := freeBlocks d die s.blocks
    let d2 := modTh d1 die fun t => { t with
      samples := t.samples.eraseIdx k
      skipping := if ended then t.skipping else t.skipping ++ [s.stream] }
    logEvent d2 evThHeaderLost (.streamPort die) (s.stream + 2 ^ 12 * s.sos.toNat)

/-- The place of the sample that a stream is receiving. -/
def receiving (t : Thresher) (stream : Nat) : Option Nat :=
  t.samples.findIdx? fun s => s.stream == stream && !s.ended && s.injector.isNone

/-- A sample has ended: by its EOS, or by the next SOS of its stream (R289, R292). -/
def endSample (d : Dev) (die k : Nat) (damaged : Bool) : Dev :=
  match (getTh d die).samples[k]? with
  | none => d
  | some s =>
    if !s.whole && !s.dropped then loseHeader d die k true
    else
      let d1 := modSample d die k fun s => { s with
        ended := true, arrival := BitVec.ofNat 64 (deviceTime d), damaged := s.damaged || damaged || decide (s.bytes.length < 64 + fld s.bytes 32 4) }
      sweepSamples (judgeArrival d1 die k) die

/-- A gap of BSEQ before a block of the sample in progress: damage, logged once (R292). -/
def noteGap (d : Dev) (die k : Nat) (bseq : W16) : Dev :=
  match (getTh d die).samples[k]? with
  | none => d
  | some s =>
    if s.bseq = bseq then d
    else
      let d1 := modSample d die k fun s => { s with
        damaged := true, gapLogged := true, gapAt := some (s.gapAt.getD s.bytes.length) }
      if s.gapLogged then d1 else logEvent d1 evStreamSeqGap (.streamPort die) 0

/-- The payload of a DATA block joins the sample of its stream (R289). Its block is freed once the decoder has taken it, or
where it is discarded (R286). -/
def takeBlock (d : Dev) (die stream : Nat) (bseq : W16) (payload : Bytes) (eos : Bool) : Dev :=
  match receiving (getTh d die) stream with
  | none => freeBlocks (modTh d die fun t => { t with skipping := if eos then t.skipping.erase stream else t.skipping }) die 1
  | some k =>
    let d1 := noteGap d die k bseq
    match (getTh d1 die).samples[k]? with
    | none => d1
    | some s =>
      if s.dropped then
        let d2 := freeBlocks (modSample d1 die k fun s => { s with bseq := bseq + 1 }) die 1
        if eos then endSample d2 die k false else d2
      else if !s.whole && s.gapAt.isSome then
        loseHeader (modSample d1 die k fun s => { s with blocks := s.blocks + 1 }) die k eos
      else
        let room := if s.whole then 64 + fld s.bytes 32 4 - s.bytes.length else payload.length
        let grown := s.bytes ++ payload.take room
        let d2 := modSample d1 die k fun s => { s with
          bytes := if 64 ≤ grown.length then grown.take (64 + fld grown 32 4) else grown
          bseq := bseq + 1
          blocks := if s.decoding then 0 else s.blocks + 1 }
        let d3 := if s.decoding then freeBlocks d2 die 1 else d2
        let d4 := if !s.whole && 64 ≤ grown.length then headerArrived d3 die k else d3
        if eos then endSample d4 die k false else sweepSamples d4 die

/-- A block with SOS ends what its stream had in progress and begins a sample (R289, R292). -/
def startSample (d : Dev) (die stream : Nat) (bseq : W16) : Dev :=
  let d1 := match receiving (getTh d die) stream with
    | none => d
    | some k => endSample (noteGap d die k bseq) die k true
  modTh d1 die fun t => { t with
    skipping := t.skipping.erase stream
    samples := t.samples ++ [{ stream := stream, sos := bseq, bseq := bseq }] }

/-- A block of the right CRC breaks Table 11.1 or names a stream that is not configured (R285). -/
def blockBad (t : Thresher) (blk : Bytes) : Bool :=
  let h := fld blk 0 8
  let ty := bits h 3 0
  let len := bits h 27 20
  !([1, 2, 3, 4].contains ty) || bits h 7 6 != 0 || bits h 31 28 != 0 || bits h 63 48 != 0 ||
  (ty != 1 && len != 0) || (ty == 1 && (len == 0 || 244 < len || !(thas t.streams (bits h 19 8))))

/-- A block arrives at a stream port (R285). A source sends DATA and IDLE blocks only (R284): CREDIT and TIME blocks count
as bad ones (DEDUCED, log 29). -/
def streamBlock (die : Nat) (blk : Bytes) (d : Dev) : Dev :=
  let t := getTh d die
  let h := fld blk 0 8
  if !(t.port == 1 || t.port == 2) || blk.length != 256 then d
  else if (crc32c (blk.take 252)).toNat != fld blk 252 4 then logEvent (freeBlocks d die 1) evStreamCrc (.streamPort die) 0
  else if blockBad t blk || bits h 3 0 == 3 || bits h 3 0 == 4 then
    logEvent (freeBlocks d die 1) evStreamBadBlock (.streamPort die) 0
  else if bits h 3 0 == 2 then d
  else
    let stream := bits h 19 8
    let bseq := BitVec.ofNat 16 (bits h 47 32)
    let d1 := if bit h 4 then startSample d die stream bseq else d
    takeBlock d1 die stream bseq (slice blk 8 (bits h 27 20)) (bit h 5)

/-- STREAM_BLOCK_RECEIVED. -/
def execStreamBlockReceived (die : Nat) (blk : Bytes) (s : State) : Out :=
  act s (running fun d => if die < 2 then streamBlock die blk d else d)

/-- A block that the Zorou sends: TYPE and 8 payload bytes (Table 11.1). -/
def portBlock (ty : Nat) (payload : Bytes) : Bytes :=
  let b := slice (leBytes 8 ty ++ payload) 0 252
  b ++ leBytes 4 (crc32c b).toNat

/-- CREDIT and TIME blocks leave a port that is up (R286, R287). -/
def sendBlock (d : Dev) (die : Nat) (blk : Bytes) : Dev := { d with out.stream := d.out.stream ++ [(die, blk)] }

/-- The port sends a CREDIT block (R286). -/
def creditBlock (die : Nat) (d : Dev) : Dev :=
  let t := getTh d die
  if die < 2 && (t.port == 1 || t.port == 2) then
    sendBlock (modTh d die fun t => { t with freedSent := t.freed, creditAt := deviceTime d }) die (portBlock 3 (leBytes 4 t.freed.toNat))
  else d

/-- The port sends a TIME block (R287). -/
def timeBlock (die : Nat) (d : Dev) : Dev :=
  let t := getTh d die
  if die < 2 && (t.port == 1 || t.port == 2) then
    sendBlock (modTh d die fun t => { t with timeAt := deviceTime d }) die (portBlock 4 (leBytes 8 (deviceTime d)))
  else d

/-- CREDIT_BLOCK_SEND. -/
def execCreditBlockSend (die : Nat) (s : State) : Out := act s (running (creditBlock die))

/-- TIME_BLOCK_SEND. -/
def execTimeBlockSend (die : Nat) (s : State) : Out := act s (running (timeBlock die))

/-! ## Decoding (R290 to R296) -/

/-- A sample waits for a decoder core: its header has arrived and its slot is in the window (R292, R298). -/
def Sample.waits (s : Sample) : Bool := s.placed && !s.dropped && !s.decoding

/-- Decoder cores of a die (R292, R407). -/
def dieCores (d : Dev) (die : Nat) : Nat := (List.range 4).foldl (fun n c => n + d.units.decoders.getD (4 * die + c) 0) 0

/-- The next sample is granted a core under R62, and its blocks are taken (R286, R292). -/
def decodeStart (die : Nat) (d : Dev) : Dev :=
  let t := getTh d die
  let ready := t.samples.filter Sample.waits
  if dieCores d die ≤ (t.samples.filter (·.decoding)).length then d
  else match grant t.pointer 4096 (ready.map fun s => (s.stream, s.headerTick)) with
    | none => d
    | some stream =>
      let first := ((ready.filter fun s => s.stream == stream).map (·.headerTick)).foldl min (cycle d)
      match t.samples.findIdx? fun s => s.waits && s.stream == stream && s.headerTick == first with
      | none => d
      | some k =>
        let n := ((t.samples[k]?).map (·.blocks)).getD 0
        let d1 := modSample d die k fun s => { s with decoding := true, blocks := 0 }
        freeBlocks (modTh d1 die fun t => { t with pointer := (stream + 1) % 4096 }) die n

/-- DECODE_START. -/
def execDecodeStart (die : Nat) (s : State) : Out := act s (running fun d => if die < 2 then decodeStart die d else d)

/-- Declared units of a sample, which MAX_UNITS bounds: pictures, audio frames or input bytes (Table 11.2). -/
def declaredUnits (cfg : StreamCfg) (s : Sample) (out : Decoded) : Nat :=
  if cfg.kind = 0x10 || cfg.kind = 0x20 then fld s.bytes 32 4 else if cfg.kind = 0x21 then 0 else out.units.length

/-- What decoding shows makes the sample refused (R294): an unsupported coding, a size above the stream's limits, or an audio
rate or channel count other than the stream's. -/
def decodeRefused (cfg : StreamCfg) (s : Sample) (out : Decoded) : Bool :=
  !out.supported || decide (cfg.maxUnits < declaredUnits cfg s out) ||
  (decide (cfg.kind < 8) && (decide (cfg.maxW < out.width) || decide (cfg.maxH < out.height))) ||
  (decide (8 ≤ cfg.kind ∧ cfg.kind ≤ 0x0A) && (out.channels != cfg.channels || out.rate != cfg.rate))

/-- DAMAGE (R295). -/
def damageOf (out : Decoded) : Nat := min (65536 * out.concealed / max 1 out.declared) 65535

/-- Decoding of the first ended sample of a stream is over: it is judged, augmented and placed (R294 to R296, R301). -/
def decodeDone (die stream : Nat) (handed : Decoded) (d : Dev) : Dev :=
  let t := getTh d die
  match t.samples.findIdx? fun s => s.stream == stream && s.decoding && s.ended && !s.dropped with
  | none => d
  | some k => match t.samples[k]?, tget t.streams stream with
    | some s, some cfg => match tget t.classes cfg.cls with
      | none => d
      | some c =>
        let done (d : Dev) : Dev := sweepSamples d die
        let out := decodedOf t cfg s handed
        let w := decodedWork s out
        let damage := BitVec.ofNat 16 (damageOf out)
        let s1 := if out.grain then { s with flags := s.flags ||| 8 } else s
        if decodeRefused cfg s out then done (padSample (logEvent d evThSampleRefused (.decoder die 2) 0) die cfg.cls k c s 3)
        else if out.memFault then
          done (padSample (logEvent d evMemUncorrectable (.decoder die 2) (stream + 2 ^ 12 * (s.id.toNat % 2 ^ 48))) die cfg.cls k c s1 7 65535
            out.firstDamage out.regionMap)
        else if cfg.damageMax < damage.toNat then
          done (padSample d die cfg.cls k c s1 2 damage out.firstDamage out.regionMap)
        else
          let w1 := match s.prog.orElse fun _ => tget t.programs cfg.augSlot with
            | none => w
            | some prog => runAug t prog w
          let f := fillSlot c w1
          let st : SlotStatus :=
            { sampleId := s.id, capture := BitVec.ofNat 64 s.capture, length := BitVec.ofNat 32 f.length
              firstDamage := if damage = 0 then 0xFFFFFFFF else out.firstDamage, damage := damage
              state := if damage = 0 then 0 else 1, flags := s1.flags ||| BitVec.ofNat 8 f.flags
              regions := if damage = 0 then 0 else out.regionMap, content := f.content }
          let counts : List CensusAdd := if f.sat = 0 && f.nonfinite = 0 then []
            else [{ tensor := c.tensor, saturated := f.sat, nonfinite := f.nonfinite }]
          done (resolveSlot (modTh d die fun t => { t with aug := w1 }) die cfg.cls k s1 st counts)
    | _, _ => d

/-- SAMPLE_DECODE_DONE. -/
def execSampleDecodeDone (die stream : Nat) (out : Decoded) (s : State) : Out :=
  act s (running fun d => if die < 2 then decodeDone die stream out d else d)

/-! ## The batch packer (R299, R300) -/

/-- Slots of a batch with neither a status nor a sample that has arrived (R299). -/
def unarrived (t : Thresher) (cls : Nat) (c : BatchClass) (b : Batch) : List Nat :=
  (List.range c.samples).filter fun i => !(thas b.slots i) && !(t.samples.any fun s =>
    s.placed && s.ended && !s.dropped && s.batch == b.number && s.slot == i && ((tget t.streams s.stream).map (·.cls)) == some cls)

/-- Slots are padded with MISSING (5) or EMPTY (6). -/
def padBatch (d : Dev) (die cls n : Nat) (c : BatchClass) (slots : List Nat) (state : Byte) : Dev :=
  let d1 := modBatch d die cls n fun b => { b with
    slots := slots.foldl (fun t i => tput t i ({ state := state, content := padSlot c } : SlotStatus)) b.slots
    claimed := b.claimed.filter fun i => !(slots.contains i) }
  countEvent d1 evThSample slots.length die none none

/-- The deadline of the oldest batch that has one behind it and is not resolved (R299). -/
def batchTimeout (die cls : Nat) (d : Dev) : Dev :=
  match tget (getTh d die).classes cls with
  | none => d
  | some c =>
    match c.batches.find? fun b => b.isOpen && !b.timedOut && decide (b.timerStart.toNat + c.timeoutNs ≤ deviceTime d) &&
        (List.range c.samples).any fun i => !(thas b.slots i) with
    | none => d
    | some b =>
      let d1 := padBatch d die cls b.number c (unarrived (getTh d die) cls c b) 5
      logEvent (modBatch d1 die cls b.number fun b => { b with timedOut := true }) evThBatchTimeout (.decoder die 2) 0

/-- TH_BATCH_TIMEOUT. -/
def execThBatchTimeout (die cls : Nat) (s : State) : Out := act s (running fun d => if die < 2 then batchTimeout die cls d else d)

/-- STEP of a batch (Table 11.5). -/
def BatchClass.step (c : BatchClass) (n : Nat) : Nat := (c.stepBase.toNat + n / c.bps) % 2 ^ 64

/-- MICRO_BATCH of a batch (Table 11.5). -/
def BatchClass.micro (c : BatchClass) (n : Nat) : Nat := n % c.bps

/-- A slot's mask bit: STATE OK or CONCEALED (R300). -/
def SlotStatus.valid (s : SlotStatus) : Bool := s.state == 0 || s.state == 1

/-- A slot's 32 status bytes (Table 11.7). -/
def SlotStatus.bytes (s : SlotStatus) : Bytes :=
  leBytes 8 s.sampleId.toNat ++ leBytes 8 s.capture.toNat ++ leBytes 4 s.length.toNat ++ leBytes 4 s.firstDamage.toNat ++
  leBytes 2 s.damage.toNat ++ [s.state, s.flags] ++ leBytes 4 s.regions.toNat

/-- A length rounded up to a multiple of 64. -/
def round64 (n : Nat) : Nat := (n + 63) / 64 * 64

/-- Bytes of the batch header, mask and status vector: SLOTS_OFF in CHUTE mode (R300). -/
def slotsOff (samples : Nat) : Nat := round64 (64 + round64 ((samples + 7) / 8) + 32 * samples)

/-- The mask of a batch's slots as bytes (R300). -/
def maskBytes (slots : List SlotStatus) : Bytes :=
  let v := slots.zipIdx.foldl (fun m e => if e.1.valid then m + 2 ^ e.2 else m) 0
  leBytes (round64 ((slots.length + 7) / 8)) v

/-- The 64 bytes of a batch header (Table 11.6). -/
def batchHeader (die cls : Nat) (c : BatchClass) (b : Batch) (slots : List SlotStatus) (bufAddr now : Nat) : Bytes :=
  let valid := (slots.filter SlotStatus.valid).length
  leBytes 8 b.number ++ leBytes 2 (cls + 2 ^ 15 * die) ++ leBytes 2 c.samples ++ leBytes 4 c.slotBytes ++ leBytes 8 bufAddr ++
  leBytes 4 (if c.mode = 0 then slotsOff c.samples else 0) ++ leBytes 2 valid ++ leBytes 2 (c.samples - valid) ++
  leBytes 8 b.timerStart.toNat ++ leBytes 8 now ++ leBytes 1 (ofBool b.timedOut + 2 * ofBool b.flushed) ++ List.replicate 15 0

/-- The name under which a batch's entry is sent until it commits. -/
def batchName (die cls n : Nat) : OpName := { ring := 65536 + 16 * die + cls, seq := BitVec.ofNat 32 n }

/-- The next batch of a class is written once it may be and a credit is held (R299, R300). -/
def batchEmit (die cls : Nat) (d : Dev) : Dev :=
  match tget (getTh d die).classes cls with
  | none => d
  | some c => match c.batches.find? (fun b => b.number == c.next && b.isOpen), getChute d c.destTile c.destQueue with
    | some b, some q =>
      if !((List.range c.samples).all fun i => thas b.slots i) || q.credits = 0 || queueHeld d c.destTile then d
      else
        let slots := (List.range c.samples).map fun i => tgetD b.slots i {}
        let i := q.freeSlot
        let bufAddr := if c.mode = 0 then 0 else c.bufBase + i * c.bufStride
        let front := batchHeader die cls c b slots bufAddr (deviceTime d) ++ maskBytes slots ++ slots.flatMap SlotStatus.bytes
        let contents := slots.flatMap (·.content)
        let payload := if c.mode = 0 then slice front 0 (slotsOff c.samples) ++ contents else front
        let d1 := if c.mode = 0 then d else (writeMem d none bufAddr contents).1
        let name := batchName die cls b.number
        let header := chuteHeader 0xFFFF name.seq.toNat (c.micro b.number) (c.step b.number % 2 ^ 32) c.tensor cls 0
          (bits c.format.toNat 7 0) true payload.length
        let d2 := sendEntry d1 name { consumer := c.destTile, queue := c.destQueue, header := header, payload := payload } .clean
        let d3 := modBatch d2 die cls b.number fun b => { b with
          emitted := some (BitVec.ofNat 64 (deviceTime d)), chuteSlot := i, dest := (c.destTile, c.destQueue), step := c.step b.number }
        let d4 := modClass d3 die cls fun c => openBatches { c with next := c.next + 1 }
        placeHeld (countEvent d4 evThBatch 1 die none none) die
    | _, _ => d

/-- BATCH_EMIT. -/
def execBatchEmit (die cls : Nat) (s : State) : Out := act s (running fun d => if die < 2 then batchEmit die cls d else d)

/-- An entry sent under a name arrived with an uncorrectable word: its header says so (R36). -/
def spoilSent (d : Dev) (tile queue : Nat) (op : OpName) : Dev :=
  match getChute d tile queue with
  | none => d
  | some c => match c.entries.find? fun e => e.st.sentBy op with
    | none => d
    | some e =>
      let h := withTransit e.header
      let d1 := modChute d tile queue fun c => { c with entries := c.entries.map fun x => if x.slot = e.slot then { x with header := h } else x }
      keepFailed .uncorrectable (sramBase tile + c.slotOffset e.slot) e.bytes (storeBytes d1 (sramBase tile + c.headerOffset e.slot) h)

/-- A TH_FLUSH completes with the commit of the last batch it flushed (R304). -/
def flushCommitted (d : Dev) (die : Nat) (op : OpName) : Dev :=
  let left := (getTh d die).classes.any fun c => c.2.batches.any fun b => b.flushers.contains op
  if left then d
  else match getOp d op with
    | none => d
    | some o => completeOp d op stOk o.tallyCount

/-- Every write of the oldest emitted batch of a class has been acknowledged: its entry commits, and its counts go into the
census (R300, R301). -/
def batchCommit (die cls : Nat) (transit : Transit) (d0 : Dev) : Dev :=
  let d := if mergesFull d0 then nextCycle d0 else d0
  match tget (getTh d die).classes cls with
  | none => d0
  | some c => match c.batches.find? fun b => b.emitted.isSome with
    | none => d0
    | some b =>
      let name := batchName die cls b.number
      let d1 := match transit with
        | .clean => d
        | .corrected => meshCorrected d (.engine b.dest.1 0) 2 name.ring
        | .uncorrectable => spoilSent d b.dest.1 b.dest.2 name
      let d2 := mergeCensus (commitEntries d1 name) b.step none b.census
      let d3 := modClass d2 die cls fun c => { c with batches := c.batches.erase b }
      b.flushers.foldl (fun d op => flushCommitted d die op) d3

/-- BATCH_COMMIT. -/
def execBatchCommit (die cls : Nat) (transit : Transit) (s : State) : Out :=
  act s (running fun d => if die < 2 then batchCommit die cls transit d else d)

/-! ## Thresher operations (R304) -/

/-- The checks of a class 0x05 descriptor at fetch (R304). -/
def threshFetchCheck (d : Dev) (die ring : Nat) (o : Op) : Option Byte :=
  let t := getTh d die
  if o.opcode = 0x0501 then
    if !(o.zero 34 2 && o.zero 48 80) || bits (o.f 32 2) 15 12 != 0 || !(thas t.streams (o.f 32 2 % 4096)) || o.f 36 4 < 64 then
      some stBadDescriptor
    else
      let r := rangeRegion d (o.f 40 8) (o.f 36 4)
      match r with
      | .gddr _ => none
      | .host => none
      | _ => some stBadAddress
  else if o.opcode = 0x0502 then
    if !(privileged ring) then some stPrivileged
    else if !(o.zero 33 95) || 16 ≤ o.f 32 1 || !(thas t.classes (o.f 32 1)) then some stBadDescriptor
    else none
  else some stBadOpcode

/-- An operation of class 0x05 that has been issued and not begun, the oldest such of its Thresher. -/
def threshOp (code : Nat) (n : OpName) (f : Nat → Op → Dev → Dev) (d : Dev) : Dev :=
  match issuedOp d n, ringTarget d n.ring with
  | some o, some (.thresher die) =>
    let first := (issuedTo d (.thresher die)).find? fun e => e.2.done == 0
    if o.opcode = code && o.done = 0 && first.map (fun e => (e.1, e.2.seq)) == some (n.ring, n.seq) then
      f die o (modOp d n fun o => { o with done := 1 })
    else d
  | _, _ => d

/-- A TH_INJECT's sample as its operation brings it: it has arrived at the issue (R297, R304). -/
def injectedSample (n : OpName) (o : Op) (bytes : Bytes) : Sample :=
  { stream := o.f 32 2 % 4096, bytes := bytes, ended := true, arrival := BitVec.ofNat 64 o.issuedNs, headerTick := o.issuedAt
    injector := some n, damaged := 64 ≤ bytes.length && decide (bytes.length < 64 + fld bytes 32 4) }

/-- The slot of an injected sample that could not be read is MISSING (R304). -/
def missInjected (d : Dev) (die : Nat) (s : Sample) : Dev :=
  match (tget (getTh d die).streams s.stream) with
  | none => d
  | some cfg =>
    let d1 := modClass d die cfg.cls (markBatch s.arrival s.batch)
    match tget (getTh d1 die).classes cfg.cls, getBatch d1 die cfg.cls s.batch with
    | some c, some b =>
      if b.isOpen && s.slot < c.samples && !(thas b.slots s.slot) && !(b.claimed.contains s.slot) then
        padBatch d1 die cfg.cls s.batch c [s.slot] 5
      else d1
    | _, _ => d1

/-- TH_INJECT: bytes in memory taken as one sample, which has arrived at the issue (R297, R304). -/
def thInject (n : OpName) : Dev → Dev := threshOp 0x0501 n fun die o d =>
  let h := readMem d (some n) (o.f 40 8) 64
  match h.2 with
  | .error st => completeOp h.1 n st
  | .ok head =>
    let r := readMem h.1 (some n) (o.f 40 8 + 64) (o.f 36 4 - 64)
    match r.2 with
    | .error st => completeOp (missInjected r.1 die (injectedSample n o head)) n st
    | .ok body =>
      let s := injectedSample n o ((head ++ body).take (64 + fld head 32 4))
      let d1 := modTh r.1 die fun t => { t with samples := t.samples ++ [s] }
      sweepSamples (headerArrived d1 die ((getTh d1 die).samples.length - 1)) die

/-- A PCI Express error ends a TH_INJECT that still reads its sample: its slot is MISSING, by the header that stands in memory
(R304; log 113). -/
def missAborted (d : Dev) (n : OpName) : Dev :=
  match issuedOp d n, ringTarget d n.ring with
  | some o, some (.thresher die) =>
    if o.opcode = 0x0501 && o.done = 0 then missInjected d die (injectedSample n o (rawRead d (o.f 40 8) 64)) else d
  | _, _ => d

/-- TH_FLUSH: every batch of the class that was open at its issue is emitted with what has arrived (R304). -/
def thFlush (n : OpName) : Dev → Dev := threshOp 0x0502 n fun die o d =>
  let cls := o.f 32 1 % 16
  match tget (getTh d die).classes cls with
  | none => d
  | some c =>
    let mine := c.batches.filter fun b => b.isOpen && o.batches.contains b.number
    let d1 := mine.foldl (fun d b => padBatch d die cls b.number c (unarrived (getTh d die) cls c b) 6) d
    let flush (b : Batch) : Batch :=
      if o.batches.contains b.number then { b with flushed := b.flushed || b.isOpen, flushers := b.flushers ++ [n] } else b
    let d2 := modClass d1 die cls fun c => { c with batches := c.batches.map flush }
    flushCommitted (modOp d2 n fun o => { o with tallyCount := o.batches.length }) die n

/-- TH_INJECT. -/
def execThInject (ring : Nat) (seq : W32) (s : State) : Out := act s (running (thInject { ring := ring, seq := seq }))

/-- TH_FLUSH. -/
def execThFlush (ring : Nat) (seq : W32) (s : State) : Out := act s (running (thFlush { ring := ring, seq := seq }))

end Sys2Proof.Machine
end

