-- ==== Sys2Proof/Machine/Hub.lean ====
section
/-! DEFINITION. The ring hub: doorbells, fetch and its checks, issue, ring-hub operations, retirement (02 R42 to R76). -/

namespace Sys2Proof.Machine

/-! ## Fetch (R52, Table 2.5) -/

/-- Table 2.6 with the tables of the owning chapters: an opcode is defined and its class suits a target. -/
def opcodeSuits (t : Target) (code : Nat) : Bool :=
  code < 3 || (match t with
  | .mill _ => [0x0101, 0x0102, 0x0103, 0x0301].contains code
  | .loom _ _ => code == 0x0201
  | .quern _ => code == 0x0302 || code == 0x0303
  | .badger _ => [0x0401, 0x0402, 0x0403, 0x0404].contains code
  | .thresher _ => code == 0x0501 || code == 0x0502
  | .collective _ => code == 0x0601
  | .granary _ => [0x0701, 0x0702, 0x0703, 0x0704, 0x0705].contains code
  | .mover _ => code == 0x0801 || code == 0x0802
  | .hub => [0x0980, 0x0981, 0x0982].contains code)

/-- The opcodes allowed on privileged rings only (Tables 2.6a, 9.3, 11.8, 14.2). -/
def privilegedOnly (code : Nat) : Bool := [0x0001, 0x0502, 0x0702, 0x0980, 0x0981].contains code

/-- STATUS_ADDR is aligned and names GDDR7, tile SRAM or the host-memory window (R51). -/
def statusAddrOk (d : Dev) (a : Nat) : Bool :=
  a % 32 == 0 && (match rangeRegion d a 32 with
  | .gddr _ => true
  | .sram _ => true
  | .host => true
  | _ => false)

/-- Reserved header fields are zero: those of FLAGS and RING, and what a clear flag leaves disabled (R50). -/
def headerReserved (o : Op) : Bool :=
  let f := o.flags
  f < 64 && o.f 4 2 < 16384 && (bit f 0 || (o.zero 12 4 && o.zero 20 2)) && (bit f 1 || (o.zero 16 4 && o.zero 22 2)) &&
  (bit f 2 || o.zero 6 2) && (bit f 4 || o.zero 24 8)

/-- Check 7 of Table 2.5: that of the owning chapter. -/
def ownerFetchCheck (d : Dev) (ring : Nat) (t : Target) (o : Op) : Option Byte :=
  let reserved (ok : Bool) : Option Byte := if ok then none else some stBadDescriptor
  if o.opcode = 0 then reserved (o.zero 32 96)
  else if o.opcode < 3 then reserved (o.zero 34 2 && o.zero 40 88)
  else match t with
    | .mill tile => if o.opcode = 0x0301 then convFetchCheck d tile o else millFetchCheck d tile o
    | .loom tile _ => loomFetchCheck tile o
    | .quern tile => convFetchCheck d tile o
    | .badger tile => badgerFetchCheck d tile ring o
    | .thresher die => threshFetchCheck d die ring o
    | .collective p => collFetchCheck d (p / 3) o
    | .granary _ => granaryFetchCheck d ring o
    | .mover _ => moverFetchCheck d o
    | .hub => reserved (stepReserved o)

/-- The checks of Table 2.5 in order: the status of the first that fails, and whether a status word may be written. -/
def headerCheck (d : Dev) (ring : Nat) (t : Target) (o : Op) : Option (Byte × Bool) :=
  if o.f 8 4 != o.seq.toNat then some (stBadSequence, false)
  else if o.f 4 2 % 16384 != ring then some (stBadRing, false)
  else if o.statusEn && !(statusAddrOk d o.statusAddr) then some (stBadStatusAddr, false)
  else if !(headerReserved o) then some (stBadDescriptor, true)
  else if !(opcodeSuits t o.opcode) then some (stBadOpcode, true)
  else if privilegedOnly o.opcode && !(privileged ring) then some (stPrivileged, true)
  else (ownerFetchCheck d ring t o).map fun st => (st, true)

/-- A ring has room for one more operation in flight: 64, and never more than its length (R55). -/
def Ring.hasPlace (r : Ring) : Bool := decide (r.inFlight < min 64 r.len)

/-- The package has room for one more operation in flight (R55). -/
def packageHasPlace (d : Dev) : Bool := decide (inFlightTotal d < 4096)

/-- The next operation of a ring as it comes from its descriptor, with the STEP and MICRO_BATCH of its release (R265). -/
def fetchedOp (d : Dev) (r : Ring) (desc : Bytes) : Op :=
  let o : Op := { seq := r.fetch, desc := desc }
  match r.released.find? fun e => e.1 == r.fetch with
  | some e => { o with step := e.2.1, micro := e.2.2, stamped := true }
  | none => { o with step := BitVec.ofNat 64 (stepCounter d) }

/-- A fetched operation joins its ring. -/
def addOp (d : Dev) (ring : Nat) (o : Op) : Dev :=
  modRing d ring fun r => { r with fetch := r.fetch + 1, ops := r.ops ++ [o] }

/-! ## Issue (R53, R55, R61, R62, R261, R413) -/

/-- The operation that a ring issues next: the first not issued, with nothing failed ahead of it (R53, R65). -/
def Ring.nextToIssue (r : Ring) : Option Op :=
  match r.ops.find? fun o => o.phase == .fetched with
  | none => none
  | some o => if (r.ops.takeWhile fun p => p.seq != o.seq).any Op.failed then none else some o

/-- A Mill takes up to two operations of its issue arbiter in one control cycle (R139). -/
def millFull (d : Dev) (code : Nat) : Bool :=
  match targetOf code with
  | some (.mill _) => decide (2 ≤ (d.hub.rings.flatMap fun e => if e.2.target = code then
      e.2.ops.filter fun o => o.phase != .fetched && !o.failedFetch && 3 ≤ o.opcode && o.issuedAt == cycle d else []).length)
  | _ => false

/-- An operation goes through the issue arbiter of its ring's target: all but those of class 0x00, and a descriptor that failed
a check (R52, R61). -/
def Op.goesToTarget (o : Op) : Bool := 3 ≤ o.opcode && !o.failedFetch

/-- The operation that a ring asks to issue in the control cycle in progress: it is ready, the ring has a place, and no Loom
holds a set that it would write (R53, R55, R141). A descriptor that failed a check asks for a place only (R52). -/
def issuable (d : Dev) (r : Ring) : Option Op :=
  match r.nextToIssue with
  | none => none
  | some o =>
    let held := match targetOf r.target with
      | some (.mill tile) => heldByLoom d tile o
      | _ => false
    if r.st == .running && r.hasPlace && o.readyAt.any (· ≤ cycle d) && (o.failedFetch || !held) then some o else none

/-- The requests to issue, as (ring, control cycle of readiness) with their operations. -/
def issueRequests (d : Dev) : List (Nat × Nat × Op) :=
  d.hub.rings.filterMap fun e => (issuable d e.2).map fun o => (e.1, o.readyAt.getD 0, o)

/-- The requests at the issue arbiter of a target: every opcode but those of class 0x00 (R61, Table 2.8). -/
def targetRequests (d : Dev) (code : Nat) : List (Nat × Nat) :=
  ((issueRequests d).filter fun q => q.2.2.goesToTarget && ((getRing d q.1).map (·.target)) == some code).map fun q => (q.1, q.2.1)

/-- A ring wins the issue arbiter of a target. -/
def targetWins (d : Dev) (ring code : Nat) : Bool :=
  !(millFull d code) && grant (tgetD d.hub.issuePtr code 0) 16384 (targetRequests d code) == some ring

/-- The requests for a place in the package: that of a ring's operation, and those of the other rings that have what else they
need (R55, Table 2.8). -/
def placeRequests (d : Dev) (ring : Nat) (o : Op) : List (Nat × Nat) :=
  (ring, o.readyAt.getD 0) :: (((issueRequests d).filter fun q => q.1 != ring &&
    (!q.2.2.goesToTarget || targetWins d q.1 (((getRing d q.1).map (·.target)).getD 0))).map fun q => (q.1, q.2.1))

/-- A ring gets a place in the package: there is one for every request, or the arbiter of the places grants it the next (R55,
R62). -/
def placeGranted (d : Dev) (ring : Nat) (o : Op) : Bool :=
  decide (inFlightTotal d + (placeRequests d ring o).length ≤ 4096) ||
  (packageHasPlace d && grant d.hub.placePtr 16384 (placeRequests d ring o) == some ring)

/-- A ring's request is granted by its target's issue arbiter and by the arbiter of the package's places (R55, R61, R62). -/
def issueGranted (d : Dev) (ring : Nat) (r : Ring) (o : Op) : Bool :=
  (!o.goesToTarget || targetWins d ring r.target) && placeGranted d ring o

/-- A descriptor that failed a check takes its place in flight; its failure counts from now (R52, R65). -/
def takePlace (d : Dev) (ring : Nat) (o : Op) : Dev :=
  noteFailure (modOp { d with hub.placePtr := (ring + 1) % 16384 } (o.name ring) fun o => { o with
    phase := .complete, completeAt := cycle d }) (o.name ring) o.status

/-- A descriptor that failed a check joins its ring, never to be sent to its target: it takes an in-flight place, or waits for
one (R52, R55). -/
def addFailed (d : Dev) (ring : Nat) (o0 : Op) (st : Byte) (word : Bool) : Dev :=
  let o := { o0 with failedFetch := true, wordAllowed := word, status := st, readyAt := some (cycle d) }
  let d1 := addOp d ring o
  match getRing d1 ring with
  | none => d1
  | some r => if r.hasPlace && placeGranted d1 ring o then takePlace d1 ring o else d1

/-- An operation that passed its checks is ready, or waits. The checks of its own control cycle do not see the bell updates of
that cycle; those of the next do (R53). -/
def addChecked (d : Dev) (ring : Nat) (o : Op) : Dev :=
  let seen := o.waits.all fun w => waitMet (bellSeen d w.1) w.2
  match getRing d ring with
  | none => d
  | some r => markReady (cycle d + 1) (addOp d ring (markOp seen (cycle d) d { r with ops := r.ops ++ [o] } o))

/-- A ring may fetch: it runs, nothing has failed, and a descriptor is submitted before its halt point (R47, R52, R65). -/
def mayFetch (r : Ring) : Bool :=
  r.st == .running && !(r.ops.any Op.failed) && r.fetch != r.submitted && r.haltAt != some r.fetch

/-- DESCRIPTOR_FETCH (R45, R52, R449): `hostErr` tells of a PCI Express error on a read of host memory. -/
def descriptorFetch (ring : Nat) (hostErr : Bool) (d : Dev) : Dev :=
  match getRing d ring, ringTarget d ring with
  | some r, some t =>
    if !(mayFetch r) then d
    else
      let a := r.base + 128 * (r.fetch.toNat % r.len)
      let x := readMem d (some { ring := ring, seq := r.fetch }) a 128
      match x.2 with
      | .error st => addFailed x.1 ring (fetchedOp d r (List.replicate 128 0)) st false
      | .ok desc =>
        if hostErr && regionOf d a == .host then addFailed x.1 ring (fetchedOp d r (List.replicate 128 0)) stHostAbort false
        else
          let o := fetchedOp d r desc
          match headerCheck x.1 ring t o with
          | some c => addFailed x.1 ring o c.1 c.2
          | none => addChecked x.1 ring o
  | _, _ => d

/-! ## What an issue takes -/

/-- The ring that loses a free set to another operation of the same control cycle: its own operation claimed the layers in this
cycle and has not begun, and the arbiter of the claims, from the pointer that the cycle found, puts the other ring first (R62,
R63, R139, Table 5.6; DEDUCED, log 41). -/
def claimLoser (d : Dev) (tile ring : Nat) (o : Op) : Option AccSet :=
  match setsMet d tile o, tget d.hub.claimNow tile with
  | [s], some c =>
    let waiting := (getOp d { ring := s.owner, seq := s.claimedBy }).any fun p => p.phase == .issued
    if c.cycle = cycle d && s.claimedAt = cycle d && s.owner != ring && waiting && o.opcode != 0x0103 &&
        firstFrom c.pointer 16384 [s.owner, ring] == some ring then some s else none
  | _, _ => none

/-- A claim that is lost in its own control cycle: the set is free again, and its operation completes as `ST_ACC_BUSY` (R63). -/
def loseClaim (d : Dev) (tile : Nat) (s : AccSet) : Dev :=
  let n : OpName := { ring := s.owner, seq := s.claimedBy }
  let d1 := releaseSet d tile s.handle
  modOp (completeOp { d1 with hub.claimNow := tmod d1.hub.claimNow tile fun c => { c with rings := c.rings.filter (· != s.owner) } }
    n stAccBusy) n fun o => { o with completeAt := o.issuedAt + 1 }

/-- The claim of a Mill operation at issue (R63, R139). -/
def claimAtIssue (d : Dev) (tile ring : Nat) (o : Op) : Except Byte Dev :=
  match claimLoser d tile ring o with
  | some s => millClaim (loseClaim d tile s) tile ring o
  | none => millClaim d tile ring o

/-- A ring aims at a tile where nothing runs for it: it is a stage ring that no bound stage owns, or the tile's stage is being
migrated (R261). -/
def noStage (d : Dev) (ring : Nat) (t : Target) : Bool :=
  let staged := d.seq.stages.any fun s => s.2.rings.contains ring
  match t.tile with
  | none => false
  | some tile => (!(privileged ring) && !staged) || tileMoving d tile

/-- Why a ring's operation ends at its issue (R261, R413). Class 0x00 is carried out by the ring hub, which no retirement and no
domain takes away (DEDUCED, log 89). -/
def targetRefuses (d : Dev) (ring : Nat) (t : Target) (o : Op) : Option Byte :=
  if 3 ≤ o.opcode && targetRetired d t then some stUnitRetired
  else if 3 ≤ o.opcode && !(domainOn d (targetDomain t)) then some stUnitOff
  else if noStage d ring t then some stNoStage
  else none

/-- The rows that a Quern operation would send are more than the entries of its chute (R33). -/
def sendsTooMany (d : Dev) (o : Op) : Bool :=
  o.quernChute && (quernTarget d o).any fun c => decide (c.depth < o.f 90 2)

/-- A STEP_DECIDE takes the flag of its step as it stands at its issue: a clear from now on is late (R237, R238). -/
def takeFlag (d : Dev) (s : Nat) : Dev := modStep d s fun st => { st with deciding := some (st.deciding.getD st.flag) }

/-- A class 0x07 operation that ends at its issue: a snapshot of a step that has closed, a restore of a device that is not quiet,
and a census of a step that is none (R355, R366, R373). -/
def granaryAtIssue (d : Dev) (ring : Nat) (o : Op) : Option (Byte × Nat) :=
  if o.opcode = 0x0701 && decide (o.f 32 8 < d.steps.oldest) then some (stBadDescriptor, 0)
  else if o.opcode = 0x0702 && restoreBusy d (o.name ring) then some (stBadDescriptor, 1)
  else if o.opcode = 0x0704 && !(censusStep d (o.f 32 8)) then some (stOk, 0)
  else none

/-- The status and DETAIL with which an operation ends at its issue, by its own chapter. One with nothing to do, a forward
operation of an empty output or a move of no rows, takes nothing and is over (R191, R345). -/
def endsAtIssue (d : Dev) (ring : Nat) (t : Target) (o : Op) : Option (Byte × Nat) :=
  match t with
  | .mill _ => if o.opcode = 0x0301 && convEmpty o then some (stOk, 0) else none
  | .quern _ => if convEmpty o then some (stOk, 0) else if sendsTooMany d o then some (stBadDescriptor, 0) else none
  | .mover _ => if moverCount o = 0 then some (stOk, 0) else none
  | .granary _ => granaryAtIssue d ring o
  | .hub => (stepIssueCheck d o).map fun st => (st, 0)
  | _ => none

/-- What an operation that stays takes at its issue: the device with it, or the status that ends it there. -/
def issueTakes (d : Dev) (ring : Nat) (t : Target) (o : Op) : Except Byte Dev :=
  match t with
      | .mill tile => claimAtIssue d tile ring o
      | .loom tile eng => match loomClaim d tile eng o with
        | .error st => .error st
        | .ok c => .ok (modOp d (o.name ring) fun o => { o with image := c.1.id, holds := c.2 })
      | .hub => .ok (if o.opcode = 0x0980 then takeFlag d (o.f 32 8) else d)
      | .thresher die => .ok (if o.opcode = 0x0502 then
          modOp d (o.name ring) fun x => { x with batches := openNumbers (getTh d die) (o.f 32 1 % 16) } else d)
      | _ => .ok d

/-- What happens at issue: the status and DETAIL that end the operation there, or the device with what the issue takes. -/
def issueChecks (d : Dev) (ring : Nat) (t : Target) (o : Op) : Except (Byte × Nat) Dev :=
  match targetRefuses d ring t o with
  | some st => .error (st, 0)
  | none =>
    if o.opcode < 3 then .ok d
    else match endsAtIssue d ring t o with
      | some e => .error e
      | none => (issueTakes d ring t o).mapError fun st => (st, 0)

/-- The operation is issued: it takes its rank, and its STEP and MICRO_BATCH where nothing attached them (R265, R268). -/
def markIssued (d : Dev) (ring : Nat) (r : Ring) (t : Target) (o : Op) : Dev :=
  let d1 := { d with
    hub.nextStamp := d.hub.nextStamp + 1
    hub.placePtr := (ring + 1) % 16384
    hub.issuePtr := if o.opcode < 3 then d.hub.issuePtr else tput d.hub.issuePtr r.target ((ring + 1) % 16384) }
  let d2 := modOp d1 (o.name ring) fun o => { o with
    phase := .issued
    step := BitVec.ofNat 64 (opStep d o)
    micro := if o.stamped then o.micro else 0
    stamp := d.hub.nextStamp + 1
    issuedAt := cycle d
    issuedNs := deviceTime d
    progressAt := engineCycles d t }
  countEvent d2 evOpIssued 1 t.die t.tile (some ring)

/-- An operation that ends at its issue completes in the next control cycle (R61, R191, Table 5.6). -/
def endAtIssue (d : Dev) (n : OpName) (st : Byte) (detail : Nat := 0) : Dev :=
  modOp (completeOp d n st detail) n fun o => { o with completeAt := o.issuedAt + 1 }

/-- A ring's operation is issued to its target. -/
def issueOp (d : Dev) (ring : Nat) (r : Ring) (t : Target) (o : Op) : Dev :=
  let d1 := markIssued d ring r t o
  match issueChecks d1 ring t { o with phase := .issued, step := BitVec.ofNat 64 (opStep d o) } with
  | .error e => endAtIssue d1 (o.name ring) e.1 e.2
  | .ok d2 => d2

/-- The control cycle of an issue: not before its readiness is seen, nor when its Mill has taken two operations already (R53,
R139); a STEP_DECIDE comes after the cycle of a clear (R237, log 60). -/
def issueCycle (ring : Nat) (d : Dev) : Dev :=
  match getRing d ring with
  | none => d
  | some r => match r.nextToIssue with
    | none => d
    | some o =>
      if o.readyAt.any (cycle d < ·) || (o.goesToTarget && o.readyAt.isSome && millFull d r.target) then nextCycle d
      else if o.opcode = 0x0980 && o.readyAt.isSome && targetOf r.target = some .hub then beforeDecision d (o.f 32 8)
      else d

/-- OP_ISSUE: the ring's next operation issues once its readiness is seen and the arbiters grant it (R53, R55, R62). -/
def opIssue (ring : Nat) (d0 : Dev) : Dev :=
  let d := issueCycle ring d0
  match getRing d ring, ringTarget d ring with
  | some r, some t => match issuable d r with
    | none => d
    | some o =>
      if !(issueGranted d ring r o) then d
      else if o.failedFetch then takePlace d ring o
      else issueOp d ring r t o
  | _, _ => d

/-- BELL_WAIT_STALL (R54): the first operation of the ring that has waited for its bells longer than the limit. -/
def bellWaitStall (ring : Nat) (d : Dev) : Dev :=
  match getRing d ring with
  | none => d
  | some r =>
    match r.ops.find? fun o => o.phase == .fetched && o.readyAt.isNone && !(waitsMet d o) && !o.waitLogged && overdue d o.waitFrom r.waitLimit with
    | none => d
    | some o => logEvent (modOp d (o.name ring) fun o => { o with waitLogged := true }) evBellWaitStall (.ring ring) 0

/-! ## Retirement (R56, R57, R66 to R71) -/

/-- A ring is gone: what it reserved, claimed and left in ledgers goes with it, and its destruction is answered (R35, R63,
R71, R228). -/
def ringGone (d : Dev) (ring : Nat) : Dev :=
  match getRing d ring with
  | none => d
  | some r =>
    let d1 := discardOfRing (endReservations { d with
      mills := d.mills.map fun m => (m.1, { m.2 with sets := m.2.sets.filter fun s => s.owner != ring }) } ring) ring
    r.destroyers.foldl (fun d m => answerMbx d m { result := 0, body := leBytes 4 r.abortedOps })
      { d1 with hub.rings := tdel d1.hub.rings ring }

/-- Images and pooling programs that a retired operation ran last are given up (R183, R217). -/
def sweepPrograms (d : Dev) (t : Target) : Dev := match t with
  | .loom tile eng => sweepImages d tile eng
  | .badger tile =>
    let used := d.hub.rings.flatMap fun e => if targetOf e.2.target = some t then e.2.ops.map (·.image) else []
    if (getBadger d tile).programs.all fun p => p.1 < 16 || used.contains p.1 then d
    else modBadger d tile fun b => { b with programs := b.programs.filter fun p => p.1 < 16 || used.contains p.1 }
  | _ => d

/-- An operation leaves its ring: its requests are forgotten, and its part in a collective is over. -/
def leaveRing (d : Dev) (ring : Nat) (t : Target) (o : Op) : Dev :=
  let n := o.name ring
  let d1 := dropPart (dropRequests d n) n
  let d2 := countEvent d1 evOpRetired 1 t.die t.tile (some ring)
  let d3 := { d2 with hub.lastRetire := tput d2.hub.lastRetire ring (cycle d2) }
  sweepPrograms (modRing d3 ring fun r => { r with ops := r.ops.filter fun p => p.seq != o.seq }) t

/-- An operation that ends outside the success class has its effects taken back or marked (R33, R64, R67). -/
def spoilOp (d : Dev) (ring : Nat) (t : Target) (o : Op) : Dev :=
  let d1 := undoOp d (o.name ring) o
  match t with
  | .mill tile => if o.wroteSet then staleSet d1 tile o.handle else d1
  | .hub => if o.opcode = 0x0980 then modStep d1 (o.f 32 8) fun st => { st with deciding := none } else d1
  | _ => d1

/-- The end of an operation outside the success class acts on its step's flag, unless its failure has (R70, R225). -/
def noteEnd (d : Dev) (n : OpName) (o : Op) (st : Byte) : Dev := if o.noted then d else endClears d n o st

/-- The halt point of a ring retires with a status; `word` tells whether its status word may still be written (R57, R66). -/
def retireHalt (d : Dev) (ring : Nat) (t : Target) (o : Op) (st : Byte) (word hostErr : Bool) : Dev :=
  let n := o.name ring
  let d1 := if word then (writeStatus d n o st hostErr).1 else d
  let d2 := leaveRing (spoilOp (noteEnd d1 n o st) ring t o) ring t o
  if 0xF0 ≤ st.toNat then
    let d3 := if o.status.toNat < 0x20 || 0xF0 ≤ o.status.toNat || o.failedFetch then d2 else logFailed d2 n o o.status
    loseHealth (haltRing d3 ring o.seq st) ring (opStep d o)
  else loseHealth (seqFailure (haltRing (logFailed d2 n o st) ring o.seq st) ring (opStep d o)) ring (opStep d o)

/-- An operation behind the halt point retires as `ST_CANCELLED`, and one of a ring being destroyed as `ST_ABORTED` (R67,
R71). A status word that cannot be written is recorded; so is a failure that the engine reported. IRQ raises nothing for it: R56
raises the vector in the success class, and R67 once for the whole halt (DESIGN CHOICE, log 84). -/
def retireCancelled (d : Dev) (ring : Nat) (t : Target) (o : Op) (st : Byte) (hostErr : Bool) : Dev :=
  let n := o.name ring
  let w := writeStatus d n o st hostErr
  let d1 := match w.2 with
    | some e => logFailed w.1 n o e
    | none => w.1
  let d2 := if o.failed && !o.failedFetch && o.status.toNat < 0xF0 then logFailed d1 n o o.status else d1
  leaveRing (spoilOp (noteEnd d2 n o st) ring t o) ring t o

/-- The last operation in flight of a halting or destroyed ring has retired (R67, R71). -/
def settleRing (d : Dev) (ring : Nat) : Dev :=
  match getRing d ring with
  | none => d
  | some r =>
    if r.st = .destroying then (if r.ops.isEmpty then ringGone d ring else d) else settleHalt d ring

/-- What a success-class retirement does beside R56: entries taken are freed, the census is merged, and the engine gives up
what the operation held (R32, R140, R247). R32 frees what an operation took when it retires with `ST_OK`; the other statuses of
the success class free it too (DESIGN CHOICE, log 106). -/
def settleSuccess (d : Dev) (ring : Nat) (t : Target) (o : Op) : Dev :=
  let n := o.name ring
  let d1 := mergeCensus (freeTaken d n) (opStep d o) (some n) o.census
  match t with
  | .mill tile =>
    if o.opcode = 0x0103 || ((o.opcode = 0x0101 || o.opcode = 0x0102) && bit (o.f 74 1) 2) then releaseAtRetire d1 tile ring o else d1
  | .collective _ => collRetired d1 n o
  | _ => d1

/-- The change that a BELL_SET or BELL_ADD makes, ranked by its retirement (R60, R61; DEDUCED, log 42). -/
def hubBell (d : Dev) (ring : Nat) (o : Op) : Dev :=
  let b := o.f 32 2
  let v := BitVec.ofNat 32 (o.f 36 4)
  if o.opcode = 0x0001 then changeBell d b ring (.set v)
  else if o.opcode = 0x0002 then changeBell d b ring (.add v)
  else d

/-- Steps 3 to 6 of R56. -/
def retireEffects (d : Dev) (ring : Nat) (r : Ring) (t : Target) (o : Op) : Dev :=
  let n := o.name ring
  let d1 := commitEntries (markLast d n) n
  let d2 := hubBell (settleSuccess d1 ring t o) ring o
  let d3 := if o.sigEn then changeBell d2 o.sigBell ring (.add 1) else d2
  let d4 := if o.irq then raiseVector d3 r.vector else d3
  seqSuccess (leaveRing (modRing d4 ring fun r => { r with retired := r.retired + 1 }) ring t o) ring o.seq

/-- A STEP_COMMIT closes its step as it retires: before its status word what R242 lists, after it the Sequencer's and the
Granary's part (R242, R355). -/
def commitsStep (o : Op) : Bool := o.opcode == 0x0981

/-- The oldest operation of a ring retires in the success class (R56). -/
def retireSuccess (d : Dev) (ring : Nat) (r : Ring) (t : Target) (o : Op) (hostErr : Bool) : Dev :=
  let n := o.name ring
  let s := o.f 32 8
  let d1 := if commitsStep o then closeStep d s o.detail.toNat else d
  let w := writeStatus d1 n o o.status hostErr
  match w.2 with
  | some st =>
    -- R57: the write failed, so the operation is the halt point with that status; the step it closed is cut all the same (R355)
    let d2 := retireHalt w.1 ring t o st false hostErr
    if commitsStep o then cutSnapshot d2 s else d2
  | none =>
    let d2 := retireEffects w.1 ring r t o
    if commitsStep o then cutSnapshot (seqClose d2) s else d2

/-- Retirements that wait for a merge place, each with the control cycle in which it first sought one (R247). -/
def mergeSeekers (d : Dev) : List (Nat × Nat) := d.hub.rings.filterMap fun e => e.2.ops.head?.bind fun o =>
  if o.phase == .complete && !o.failed && !o.aborted then o.mergeFrom.map fun t => (e.1, t) else none

/-- The rings to which R62 grants `k` places one after another. -/
def mergeWinners : Nat → Nat → List (Nat × Nat) → List Nat
  | 0, _, _ => []
  | k + 1, p, l => match grant p 16384 l with
    | none => []
    | some w => w :: mergeWinners k ((w + 1) % 16384) (l.filter fun e => e.1 != w)

/-- A retirement seeks a merge place for its census, and waits where older ones take all that the control cycle has left
(R247). -/
def seekMerge (d : Dev) (ring : Nat) (o : Op) : Dev × Bool :=
  let t := o.mergeFrom.getD (cycle d)
  let free := 64 - (if d.hub.mergeCycle = cycle d then d.hub.merges else 0)
  if o.census.isEmpty then (d, true)
  else if (mergeWinners free d.hub.mergePtr ((ring, t) :: (mergeSeekers d).filter fun e => e.1 != ring)).contains ring then
    ({ d with hub.mergePtr := (ring + 1) % 16384 }, true)
  else (modOp d (o.name ring) fun o => { o with mergeFrom := some t }, false)

/-- The control cycle of a retirement: after that of completion, one for each ring, and none merged before a close (R56,
R248). -/
def retireTime (d : Dev) (ring : Nat) (o : Op) : Dev :=
  let d0 := if cycle d < o.completeAt then nextCycle d else d
  let d1 := if cycle d0 ≤ o.completeAt then nextCycle d0 else d0
  let d2 := if tget d1.hub.lastRetire ring = some (cycle d1) then nextCycle d1 else d1
  if commitsStep o && d2.hub.mergeCycle = cycle d2 && d2.hub.merges != 0 then nextCycle d2 else d2

/-- The oldest operation of a ring retires, if it has completed and its requests are answered (R56, R66, R67, R71). -/
def opRetire (ring : Nat) (hostErr : Bool) (d0 : Dev) : Dev :=
  match getRing d0 ring, ringTarget d0 ring with
  | some r, some t => match r.ops.head? with
    | none => d0
    | some o =>
      if o.phase != .complete then d0
      else
        let d := retireTime d0 ring o
        let n := o.name ring
        if r.st = .destroying then settleRing (retireCancelled d ring t o stAborted hostErr) ring
        else if r.st = .halting then settleRing (retireCancelled d ring t o stCancelled hostErr) ring
        else if o.aborted then retireHalt d ring t o stCancelled o.wordAllowed hostErr
        else if o.failed then retireHalt d ring t o o.status o.wordAllowed hostErr
        else if awaits d n then d0
        else match seekMerge d ring o with
          | (d1, false) => d1
          | (d1, true) => markReady (cycle d + 1) (settleRing (retireSuccess d1 ring r t o hostErr) ring)
  | _, _ => d0

/-! ## Operations of class 0x00 (R61), and the commit -/

/-- An operation that the ring hub carries out completes in the next control cycle, and retires where it is the oldest of its
ring. -/
def thenRetire (n : OpName) (d d' : Dev) : Dev :=
  match issuedOp d n, getOp d' n, getRing d' n.ring with
  | some _, some o, some r =>
    if o.phase == .complete && (r.ops.head?.map (·.seq)) == some n.seq then opRetire n.ring false d' else d'
  | _, _, _ => d'

/-- NOP, BELL_SET and BELL_ADD: the operation completes in the next control cycle; the bell changes as it retires (R60,
R61). -/
def hubSimple (code : Nat) (n : OpName) (d : Dev) : Dev :=
  match issuedOp d n with
  | none => d
  | some o =>
    if o.opcode != code then d
    else thenRetire n d (endAtIssue d n stOk)

/-- STEP_COMMIT (R242): once its waits are over it completes, and closes its step at its retirement. -/
def stepCommit (n : OpName) (d : Dev) : Dev := thenRetire n d (stepCommitReady n d)

/-! ## Doorbells and bells from the host (R46, R47, R59, R60, R69) -/

/-- Configuration space answers: the package is powered and past phase A, PERST_N is deasserted, and the 100 MHz reference is
there, without which the link does not train (R401, R402, R442, R444). -/
def configOpen (d : Dev) : Bool := d.power.on && d.power.phase != 1 && !d.power.perst && d.power.reference

/-- BAR0 and BAR2 answer the host: the link is up, and the function is in D0 (R401, R423, R444). -/
def barOpen (d : Dev) : Bool := configOpen d && !d.host.d3hot

/-- DB_TAIL of ring n (R46, R47, R263). -/
def dbTail (n : Nat) (v : W32) (d : Dev) : Dev :=
  if !(barOpen d) then d
  else match getRing d n with
    | none => logEvent d evRingNotCreated (.ring n) 0
    | some r =>
      if isMember d n then logEvent d evSeqTailWrite (.ring n) 0
      else if v = r.submitted then d
      else if !d.hub.hardHalted && (v - r.submitted).toNat < 2 ^ 31 && (v - r.retired).toNat ≤ r.len then
        modRing d n fun r => { r with submitted := v }
      else logEvent d evRingOverrun (.ring n) 0

/-- DB_RESUME of ring n (R46, R69). -/
def dbResume (n : Nat) (v : W32) (d : Dev) : Dev :=
  if !(barOpen d) then d
  else match getRing d n with
    | none => logEvent d evRingNotCreated (.ring n) 0
    | some r =>
      if r.st = .halted && !d.hub.hardHalted && v = r.haltSeq then seqLook (resumeRing d n) n else logEvent d evRingBadResume (.ring n) 0

/-- A host write to BELL_VALUE or BELL_ADD; under a hard halt no bell changes (R59, R60, R72). -/
def bellWrite (b : Nat) (change : BellChange) (d : Dev) : Dev :=
  if !(barOpen d) || d.hub.hardHalted || 65536 ≤ b then d else changeBell d b 16384 change

/-- DESCRIPTOR_FETCH. -/
def execDescriptorFetch (ring : Nat) (hostErr : Bool) (s : State) : Out := act s (running (descriptorFetch ring hostErr))
/-- OP_ISSUE. -/
def execOpIssue (ring : Nat) (s : State) : Out := act s (running (opIssue ring))
/-- BELL_WAIT_STALL. -/
def execBellWaitStall (ring : Nat) (s : State) : Out := act s (running (bellWaitStall ring))
/-- OP_RETIRE. -/
def execOpRetire (ring : Nat) (hostErr : Bool) (s : State) : Out := act s (running (opRetire ring hostErr))
/-- NOP. -/
def execHubNop (ring : Nat) (seq : W32) (s : State) : Out := act s (running (hubSimple 0x0000 { ring := ring, seq := seq }))
/-- BELL_SET. -/
def execBellSet (ring : Nat) (seq : W32) (s : State) : Out := act s (running (hubSimple 0x0001 { ring := ring, seq := seq }))
/-- BELL_ADD. -/
def execBellAdd (ring : Nat) (seq : W32) (s : State) : Out := act s (running (hubSimple 0x0002 { ring := ring, seq := seq }))
/-- STEP_COMMIT. -/
def execStepCommit (ring : Nat) (seq : W32) (s : State) : Out := act s (running (stepCommit { ring := ring, seq := seq }))
/-- DB_TAIL_WRITE. -/
def execDbTailWrite (ring : Nat) (value : W32) (s : State) : Out := act s (live (dbTail ring value))
/-- DB_RESUME_WRITE. -/
def execDbResumeWrite (ring : Nat) (value : W32) (s : State) : Out := act s (live (dbResume ring value))
/-- BELL_VALUE_WRITE. -/
def execBellValueWrite (bell : Nat) (value : W32) (s : State) : Out := act s (live (bellWrite bell (.set value)))
/-- BELL_ADD_WRITE. -/
def execBellAddWrite (bell : Nat) (value : W32) (s : State) : Out :=
  act s (live (bellWrite bell (.add value)))

end Sys2Proof.Machine
end

