-- ==== Sys2Proof/Machine/Mailbox.lean ====
section
/-! DEFINITION. The mailboxes: doorbell, acceptance, checks, results and completion; firmware images, identity and
attestation (15 R380 to R400). -/

namespace Sys2Proof.Machine

/-! ## Results (Table 15.6) -/

/-- OK, with a response body. -/
def mbOk (body : Bytes := []) (detail : Nat := 0) : MbxResponse := { result := 0, detail := BitVec.ofNat 32 detail, body := body }

/-- Another result, with its DETAIL. -/
def mbEnd (result : Nat) (detail : Nat := 0) : MbxResponse := { result := BitVec.ofNat 16 result, detail := BitVec.ofNat 32 detail }

/-- A command that completes later: its mailbox stays BUSY (Table 15.5). -/
def mbHeld : MbxResponse := { result := 0, held := true }

abbrev rsUnknown : Nat := 1
abbrev rsBadLength : Nat := 2
abbrev rsReserved : Nat := 3
abbrev rsRange : Nat := 4
abbrev rsState : Nat := 5
abbrev rsImage : Nat := 6
abbrev rsSignature : Nat := 7
abbrev rsRollback : Nat := 8
abbrev rsFailed : Nat := 9
abbrev rsUncorrectable : Nat := 0xA
abbrev rsInterrupted : Nat := 0xB
abbrev rsNoFirmware : Nat := 0xC

/-! ## Request layouts (R387) -/

/-- A field of a request body: its offset, its bytes, and the bits of it that are not reserved. -/
structure MbField where
  off : Nat
  len : Nat
  mask : Nat
deriving DecidableEq, Repr

/-- A field of whole bytes. -/
def whole (off len : Nat) : MbField := { off := off, len := len, mask := 256 ^ len - 1 }

/-- A field of the low bits of its bytes. -/
def lowBits (off len n : Nat) : MbField := { off := off, len := len, mask := 2 ^ n - 1 }

/-- Bits that a field allows in a body byte. -/
def MbField.allows (f : MbField) (i : Nat) : Nat :=
  if f.off ≤ i && i < f.off + f.len then f.mask / 256 ^ (i - f.off) % 256 else 0

/-- The request length: up to the end of the last field (R387). -/
def bodyLength (fs : List MbField) : Nat := fs.foldl (fun n f => max n (f.off + f.len)) 0

/-- The first byte of a body with a reserved bit set (R7). -/
def badReserved (fs : List MbField) (body : Bytes) : Option Nat :=
  (List.range body.length).find? fun i =>
    let allowed := fs.foldl (fun m f => m ||| f.allows i) 0
    (body.getD i 0).toNat ||| allowed != allowed

/-- A command of Table 15.7: its code, its layout, its ranges as (body offset, in range), its refusal conditions as (number,
holds), and its effect with the response. -/
structure MbCmd where
  code : Nat
  fields : Bytes → List MbField := fun _ => []
  ranges : Dev → Bytes → List (Nat × Bool) := fun _ _ => []
  conds : Dev → Bytes → List (Nat × Bool) := fun _ _ => []
  run : Nat → Bytes → Dev → Dev × MbxResponse

/-- The codes of Table 15.7. -/
def mbCodes : List Nat :=
  [0x0001, 0x0002, 0x0010, 0x0011, 0x0012, 0x0013, 0x0020, 0x0021, 0x0022, 0x0101, 0x0102, 0x0103, 0x0104, 0x0201, 0x0202, 0x0203,
   0x0204, 0x0301, 0x0302, 0x0401, 0x0402, 0x0403, 0x0404, 0x0405, 0x0501, 0x0502, 0x0503, 0x0504, 0x0505, 0x0601, 0x0602, 0x0603] ++
  [0x0604, 0x0605, 0x0606, 0x0701, 0x0702, 0x0703, 0x0704, 0x0705, 0x0801, 0x0802, 0x0803, 0x0901, 0x0902, 0x0903, 0x0904,
   0x0A01, 0x0A02]

/-- What the boot ROM answers (R391). -/
def romCodes : List Nat := [0x0001, 0x0002, 0x0010, 0x0011]

/-- What firmware answers before ready (R403). -/
def earlyCodes : List Nat := [0x0001, 0x0002, 0x0013, 0x0901]

/-- What a hard halt does not refuse: the commands that only report (R420; DEDUCED, log 39). -/
def haltCodes : List Nat := [0x0001, 0x0002, 0x0013, 0x0020, 0x0021, 0x0603, 0x0803, 0x0901, 0x0A01]

/-! ## Acceptance (R383) -/

/-- The boot ROM serves mailbox 0 (R391). -/
def romServes (d : Dev) : Bool := d.power.noFw && !d.iabor.up

/-- A request is queued. -/
def Mailbox.waits (b : Mailbox) : Bool := b.st == .busy && b.answer.isNone

/-- The mailbox whose request is accepted next (R62, R383). -/
def nextMbx (d : Dev) : Option Nat :=
  grant d.iabor.pointer 8 ((d.iabor.mbx.zipIdx.filter fun e => e.1.waits).map fun e => (e.2, e.1.ringTick))

/-- A mailbox whose request may be accepted now. -/
def accepting (d : Dev) (m : Nat) : Option Mailbox :=
  if (firmwareRuns d 0 || (romServes d && d.iabor.activation.isNone)) && nextMbx d == some m then d.iabor.mbx[m]? else none

/-- COMMAND, LENGTH and TAG of a request (Table 15.3). -/
def Mailbox.code (b : Mailbox) : Nat := fld b.req 0 2
def Mailbox.length (b : Mailbox) : Nat := fld b.req 2 2
def Mailbox.tag (b : Mailbox) : Nat := fld b.req 4 4

/-- The refusals that do not depend on the body: of the ROM, before ready, under a hard halt (R383, R391, R403, R420). -/
def earlyRefusal (d : Dev) (code : Nat) : Option MbxResponse :=
  if romServes d then (if romCodes.contains code then none else some (mbEnd rsNoFirmware))
  else if !d.power.ready && !(earlyCodes.contains code) then some (mbEnd rsState 0xFE)
  else if d.hub.hardHalted && !(haltCodes.contains code) then some (mbEnd rsState 0xFD)
  else none

/-- The checks of R383 up to the conditions: the response of a refusal, or the body. -/
def checkRequest (c : MbCmd) (d : Dev) (b : Mailbox) : Except MbxResponse Bytes :=
  let raw := slice b.req 16 4080
  let fs := c.fields raw
  let n := bodyLength fs
  let body := raw.take n
  match earlyRefusal d c.code with
  | some r => .error r
  | none =>
    if b.length != n then .error (mbEnd rsBadLength n)
    else if !(zeroAt b.req 8 8) then .error (mbEnd rsReserved 0xFFFF)
    else match badReserved fs body with
      | some i => .error (mbEnd rsReserved i)
      | none => match (c.ranges d body).find? fun x => !x.2 with
        | some x => .error (mbEnd rsRange x.1)
        | none => match (c.conds d body).find? fun x => x.2 with
          | some x => .error (mbEnd rsState x.1)
          | none => .ok body

/-- A mailbox's response is made up. -/
def putAnswer (d : Dev) (m : Nat) (r : MbxResponse) : Dev :=
  { d with iabor.mbx := modAt d.iabor.mbx m fun b => { b with answer := some r } }

/-- A request is accepted, checked and carried out (R383). -/
def mbxCommand (c : MbCmd) (m : Nat) (d : Dev) : Dev :=
  match accepting d m with
  | none => d
  | some b =>
    if b.code != c.code then d
    else
      let d1 := { d with iabor.pointer := (m + 1) % 8 }
      match checkRequest c d1 b with
      | .error r => putAnswer d1 m r
      | .ok body =>
        let x := c.run m body d1
        putAnswer x.1 m x.2

/-! ## Doorbell and completion (R381, R382) -/

/-- The program log takes a load that was accepted (R398). -/
def extendLog (d : Dev) (kind unit slot : Nat) (digest : Bytes) : Dev :=
  { d with iabor.programLog := shake256 (d.iabor.programLog ++ leBytes 1 kind ++ leBytes 2 unit ++ leBytes 1 slot ++ digest) }

/-- A RING write: bit 0 submits the request buffer (Table 15.2). -/
def mbxDoorbell (m : Nat) (value : W32) (d : Dev) : Dev :=
  match d.iabor.mbx[m]? with
  | none => d
  | some b =>
    if !(value.getLsbD 0) || b.st == .noFirmware then d
    else if b.st == .busy then logEvent d evMbxBusy .hostLink 0
    else
      let f := freeBytes d 4096
      { f.1 with iabor.mbx := modAt f.1.iabor.mbx m fun b =>
          { b with st := .busy, ringTick := cycle d, answer := none, resp := f.2 } }

/-- MBX_DOORBELL_RING. -/
def execMbxDoorbellRing (m : Nat) (value : W32) (s : State) : Out := act s (live (mbxDoorbell m value))

/-- The response header (Table 15.4). -/
def responseHeader (b : Mailbox) (r : MbxResponse) : Bytes :=
  leBytes 2 b.code ++ leBytes 2 r.body.length ++ leBytes 4 b.tag ++ leBytes 2 r.result.toNat ++ leBytes 2 0 ++ leBytes 4 r.detail.toNat

/-- A Loom load ends as its command completes: the slot switches to the image, which the program log takes (R183, R398); an
image refused leaves the slot as it was (R182); and a command that ended INTERRUPTED has loaded nothing. -/
def settleLoad (d : Dev) (m result : Nat) : Dev :=
  match d.looms.find? fun e => e.2.loading.any fun x => x.mbx == m with
  | none => d
  | some (k, l) =>
    let t := k / 2
    let e := k % 2
    let d1 := modLoom d t e fun l => { l with loading := none }
    match l.loading with
    | none => d
    | some x =>
      if result = rsImage then logEvent d1 evLoomLoadRefused (.engine t e) x.fault
      else match x.image with
        | none => d1
        | some img =>
          if result != 0 then d1
          else
            let d2 := if (slotImage d1 t e x.slot).isSome then logEvent (dropSlot d1 t e x.slot) evLoomReplaced (.engine t e) 0 else d1
            let flips := d2.mem.flips.filter fun w => w.1 / 2 ^ 13 != imemWord t e x.slot 0 / 2 ^ 13
            extendLog (modLoom { d2 with mem.flips := flips } t e fun l =>
              { l with
                nextImage := l.nextImage + 1
                images := l.images ++ [{ id := l.nextImage + 1, slot := x.slot, instrs := img.1, entries := img.2 }] }) 1 t x.slot x.digest

/-- The response body and header are written, then STATE becomes DONE and vector 1 + m is raised (R381, Table 17.4). -/
def finishMbx (d : Dev) (m : Nat) (r : MbxResponse) : Dev :=
  raiseVector { d with iabor.mbx := modAt d.iabor.mbx m fun b =>
    { b with st := .done, doneCount := b.doneCount + 1, answer := none, resp := splice b.resp 0 (responseHeader b r ++ r.body) } } (1 + m)

/-- MBX_COMPLETE (R381): a response that is ready is written; a code that Table 15.7 does not have is answered (R383). -/
def mbxComplete (m : Nat) (d : Dev) : Dev :=
  match d.iabor.mbx[m]? with
  | none => d
  | some b => match b.answer with
    | some r => if b.st == .busy && !r.held then finishMbx (settleLoad d m r.result.toNat) m r else d
    | none =>
      if (accepting d m).isSome && !(mbCodes.contains b.code) then
        finishMbx { d with iabor.pointer := (m + 1) % 8 } m (if romServes d then mbEnd rsNoFirmware else mbEnd rsUnknown)
      else d

/-- MBX_COMPLETE. -/
def execMbxComplete (m : Nat) (s : State) : Out := act s (live (mbxComplete m))

/-- A meaning of a mailbox command. -/
def mbxAct (c : MbCmd) (m : Nat) (s : State) : Out := act s (live (mbxCommand c m))

/-! ## Records and images in memory (R387) -/

/-- A record lies in GDDR7; one that runs past the end is out of range too (R387). -/
def inGddr (d : Dev) (a len : Nat) : Bool := match rangeRegion d a len with
  | .gddr _ => true
  | _ => false

/-- A range lies in GDDR7 or in the host-memory window. -/
def inGddrOrHost (d : Dev) (a len : Nat) : Bool := match rangeRegion d a len with
  | .gddr _ => true
  | .host => true
  | _ => false

/-- The result of a read that a command's own memory refuses: an uncorrectable word, else memory that does not answer
(Table 15.6; the second DEDUCED, log 40). -/
def readRefused (st : Byte) (off : Nat) : MbxResponse :=
  if st = stUncorrectable then mbEnd rsUncorrectable off else mbEnd rsRange off

/-- An image read from memory: its header of `head` bytes, then all of the `size header` bytes (R387). `off` is the body
offset of its address. -/
def readImage (d : Dev) (off a head : Nat) (size : Bytes → Nat) : Dev × Except MbxResponse Bytes :=
  if !(inGddrOrHost d a head) then (d, .error (mbEnd rsImage 0xFFFF))
  else match readMem d none a head with
    | (d1, .error st) => (d1, .error (readRefused st off))
    | (d1, .ok h) =>
      let n := max head (size h)
      if !(inGddrOrHost d1 a n) then (d1, .error (mbEnd rsImage 0xFFFF))
      else match readMem d1 none a n with
        | (d2, .error st) => (d2, .error (readRefused st off))
        | (d2, .ok b) => (d2, .ok b)

/-! ## Firmware images (R389 to R394) -/

/-- The floor (R394). -/
def fwFloor (d : Dev) : Nat := (List.range 64).foldl (fun f i => if d.flash.fuses.getLsbD i then i + 1 else f) 0

/-- A firmware slot. -/
def fwSlot (d : Dev) (k : Nat) : FwSlot := d.flash.slots.getD k {}

/-- A firmware slot with `f` applied. -/
def modSlot (d : Dev) (k : Nat) (f : FwSlot → FwSlot) : Dev := { d with flash.slots := modAt d.flash.slots k f }

/-- Section entry `i` of a manifest (Table 15.9). -/
def fwSection (b : Bytes) (i : Nat) : Bytes := slice b (64 + 64 * i) 64

/-- Sections of a manifest that are used. -/
def fwSections (b : Bytes) : List Bytes := ((List.range 16).map (fwSection b)).filter fun s => fld s 8 1 != 0

/-- The header fields and the section table are in order (R389). -/
def manifestOk (b : Bytes) : Bool :=
  let secs := fwSections b
  let spans := secs.map fun s => (fld s 0 4, fld s 4 4)
  fld b 0 4 == 0x49414246 && fld b 4 2 == 1 && fld b 6 2 == secs.length && decide (1 ≤ secs.length) && decide (fld b 12 1 ≤ 64) &&
  decide (fld b 13 1 ≤ 3) && zeroAt b 14 2 && decide (fld b 16 8 ≤ 2 ^ 25) && zeroAt b 24 40 && zeroAt b 1088 64 && zeroAt b 1266 14 &&
  ((List.range 16).all fun i => let s := fwSection b i; zeroAt s 9 7 && zeroAt s 24 8 && decide (fld s 8 1 ≤ 4)) &&
  (spans.all fun p => p.1 % 4096 == 0 && decide (4096 ≤ p.1) && decide (p.1 + p.2 ≤ fld b 16 8)) &&
  (spans.zipIdx.all fun p => spans.zipIdx.all fun q => p.2 == q.2 || decide (p.1.1 + p.1.2 ≤ q.1.1 ∨ q.1.1 + q.1.2 ≤ p.1.1)) &&
  secs.any (fun s => fld s 8 1 == 1) && secs.any (fun s => fld s 8 1 == 2)

/-- Every section's digest fits the image (R389). -/
def sectionsOk (img : Bytes) : Bool :=
  (fwSections img).all fun s => shake256 (slice img (fld s 0 4) (fld s 4 4)) == slice s 32 32

/-- The checks of R389 that need no more than the manifest, after those of its form: key, signature, SVN. -/
def manifestTrust (d : Dev) (b : Bytes) : Option MbxResponse :=
  let key := fld b 13 1
  if d.flash.revoked.getLsbD key || !(Config.manifestSigned key (slice b 0 1152) (slice b 1152 114)) then some (mbEnd rsSignature key)
  else if fld b 12 1 < fwFloor d then some (mbEnd rsRollback (fwFloor d))
  else none

/-- The check of an image that a slot holds: its sections were checked as they were written (R392). -/
def slotFault (d : Dev) (k : Nat) : Option MbxResponse :=
  if !(manifestOk (fwSlot d k).manifest) then some (mbEnd rsImage 0xFFFF) else manifestTrust d (fwSlot d k).manifest

/-- The check of an image of `n` bytes that is to be staged (R389, R392). -/
def imageRefused (d : Dev) (img : Bytes) : Option MbxResponse :=
  if !(manifestOk img) || fld img 16 8 != img.length || !(sectionsOk img) then some (mbEnd rsImage 0xFFFF) else manifestTrust d img

/-- `LL_IDENT` (Table 0.1). -/
def llIdent : Nat := 0x11A14896

/-- MB_NOP. -/
def mbNop : MbCmd := { code := 0x0001, run := fun _ _ d => (d, mbOk) }

/-- Slot, FW_VERSION and SVN of what runs: free values for the boot ROM (R395). -/
def runningImage (d : Dev) : Dev × (Nat × Nat × Nat) :=
  if romServes d then
    let f := freeBytes d 6
    (f.1, (fld f.2 0 1, fld f.2 1 4, fld f.2 5 1))
  else
    let s := fwSlot d d.iabor.running
    (d, (d.iabor.running, s.version.toNat, s.svn))

/-- MB_DEVICE_INFO. -/
def mbDeviceInfo : MbCmd :=
  { code := 0x0002
    run := fun _ _ d =>
      let r := runningImage d
      (r.1, mbOk (leBytes 4 llIdent ++ leBytes 4 0 ++ leBytes 8 Config.ident.toNat ++ leBytes 1 r.2.1 ++ leBytes 1 (fwFloor d) ++
        leBytes 2 0 ++ leBytes 4 r.2.2.1 ++ leBytes 1 r.2.2.2)) }

/-- MB_FW_STAGE (R392): `flashOk` tells whether the flash write succeeds. -/
def mbFwStage (flashOk : Bool) : MbCmd :=
  { code := 0x0010
    fields := fun _ => [whole 0 8, whole 8 4]
    ranges := fun d b => [(0, fld b 0 8 % 4096 == 0 && inGddrOrHost d (fld b 0 8) 1)]
    conds := fun d _ =>
      let s := fwSlot d (1 - d.iabor.running)
      [(1, s.st == 3 && s.preferred), (2, d.iabor.activation.isSome)]
    run := fun _ b d =>
      let k := 1 - d.iabor.running
      match readImage d 0 (fld b 0 8) 1280 (fun _ => fld b 8 4) with
      | (d1, .error r) => (d1, r)
      | (d1, .ok img0) =>
        let img := img0.take (fld b 8 4)
        match imageRefused d1 img with
        | some r => (d1, r)
        | none =>
          if !flashOk then (modSlot d1 k fun _ => {}, mbEnd rsFailed)
          else
            (modSlot d1 k fun s =>
              { st := 1, preferred := s.preferred && s.st == 3, svn := fld img 12 1, version := BitVec.ofNat 32 (fld img 8 4), manifest := slice img 0 1280 },
             mbOk (leBytes 1 k ++ leBytes 1 (fld img 12 1) ++ leBytes 2 0 ++ leBytes 4 (fld img 8 4))) }

/-- MB_FW_ACTIVATE (R393): the slot is checked, then the switch is under way until FW_READY or FW_ACTIVATE_TIMEOUT. -/
def mbFwActivate : MbCmd :=
  { code := 0x0011
    fields := fun _ => [whole 0 1]
    ranges := fun _ b => [(0, decide (fld b 0 1 ≤ 1))]
    conds := fun d b =>
      let st := (fwSlot d (fld b 0 1)).st
      [(1, st != 1 && st != 3), (2, !(romServes d) && d.iabor.running == fld b 0 1),
       (3, decide (1 < (d.iabor.mbx.filter fun x => x.st == .busy).length))]
    run := fun m b d => match slotFault d (fld b 0 1) with
      | some r => (d, r)
      | none => ({ d with iabor.activation := some { mbx := m, slot := fld b 0 1, since := deviceTime d } }, mbHeld) }

/-- A switch of firmware is over: the watchdogs count again (R379). -/
def endSwitch (d : Dev) : Dev :=
  { d with
    iabor.activation := none
    iabor.clusters := d.iabor.clusters.map fun c => { c with watchFrom := deviceTime d } }

/-- FW_READY (R393): the new image reports ready within 2 s. Under the boot ROM it starts from cold, and phase B ends. -/
def fwReady (d : Dev) : Dev :=
  match d.iabor.activation with
  | none => d
  | some a =>
    if a.since + 2000000000 < deviceTime d then d
    else
      let rom := romServes d
      let d1 := modSlot { endSwitch d with iabor.running := a.slot, iabor.up := true } a.slot fun s => { s with st := 2 }
      let d2 := if rom then { d1 with
          power.noFw := false
          power.phase := if d1.power.phase = 2 then 3 else d1.power.phase
          iabor.mbx := d1.iabor.mbx.map fun b => if b.st = .noFirmware then { b with st := .idle } else b }
        else d1
      answerMbx d2 a.mbx (mbOk (leBytes 8 (deviceTime d)))

/-- FW_READY. -/
def execFwReady (s : State) : Out := act s (live fwReady)

/-- FW_ACTIVATE_TIMEOUT (R393): no ready within 2 s, or the hand-over record refused; the old image goes on. -/
def fwActivateTimeout (refused : Bool) (d : Dev) : Dev :=
  match d.iabor.activation with
  | none => d
  | some a =>
    if !refused && deviceTime d < a.since + 2000000000 then d
    else answerMbx (logEvent (endSwitch d) evFwActivateFailed (.core 0 1) 0) a.mbx
      (mbEnd rsFailed (if refused then 2 else 1))

/-- FW_ACTIVATE_TIMEOUT. -/
def execFwActivateTimeout (refused : Bool) (s : State) : Out := act s (live (fwActivateTimeout refused))

/-- MB_FW_COMMIT (R394): `blown` bits pass their check before one fails. -/
def mbFwCommit (blown : Nat) : MbCmd :=
  { code := 0x0012
    fields := fun _ => [lowBits 0 1 1]
    conds := fun d _ =>
      let st := (fwSlot d d.iabor.running).st
      [(1, st != 2 && st != 3)]
    run := fun _ b d =>
      let k := d.iabor.running
      let s := fwSlot d k
      let d1 := if s.st = 2 then
          modSlot (modSlot d k fun s => { s with st := 3, preferred := true }) (1 - k) fun s => { s with preferred := false }
        else d
      let old := fwFloor d
      let need := if bit (fld b 0 1) 0 then s.svn - old else 0
      let n := min need blown
      let d2 := { d1 with flash.fuses := (List.range n).foldl (fun f i => f ||| BitVec.twoPow 64 (old + i)) d1.flash.fuses }
      let o := fwSlot d2 (1 - k)
      let drop := o.st != 0 && o.st != 4 && decide (o.svn < fwFloor d2)
      let d3 := if drop then modSlot d2 (1 - k) fun s => { s with st := 4 } else d2
      if n < need then (d3, mbEnd rsFailed) else (d3, mbOk (leBytes 1 (fwFloor d3) ++ leBytes 1 (ofBool drop))) }

/-- MB_FW_STATUS (R390). -/
def mbFwStatus : MbCmd :=
  { code := 0x0013
    run := fun _ _ d => (d, mbOk ((List.range 2).flatMap fun k =>
      let s := fwSlot d k
      leBytes 1 s.st ++ leBytes 1 s.svn ++ leBytes 1 (ofBool s.preferred) ++ leBytes 1 0 ++ leBytes 4 s.version.toNat ++ leBytes 8 0)) }

/-! ## Identity and attestation (R395 to R400) -/

/-- MB_IDENT_CERT (R396). -/
def mbIdentCert : MbCmd :=
  { code := 0x0020
    fields := fun _ => [whole 0 4]
    ranges := fun _ b => [(0, decide (fld b 0 4 ≤ Config.certChain.length))]
    run := fun _ b d =>
      let part := (Config.certChain.drop (fld b 0 4)).take 4064
      (d, mbOk (leBytes 4 Config.certChain.length ++ leBytes 4 part.length ++ part)) }

/-- Bytes 0 to 397 of an attestation report (Table 15.10). -/
def attestReport (d : Dev) (nonce user : Bytes) : Bytes :=
  let run := fwSlot d d.iabor.running
  let other := fwSlot d (1 - d.iabor.running)
  leBytes 4 0x41545354 ++ leBytes 2 1 ++ leBytes 2 512 ++ leBytes 8 Config.ident.toNat ++ nonce ++ leBytes 8 (deviceTime d) ++
  leBytes 4 llIdent ++ leBytes 1 (fwFloor d) ++ leBytes 1 d.iabor.running ++ leBytes 1 d.flash.revoked.toNat ++ leBytes 1 0 ++
  shake256 (slice run.manifest 0 1152) ++ d.iabor.programLog ++ user ++ leBytes 4 run.version.toNat ++ leBytes 1 run.svn ++ leBytes 3 0 ++
  (if other.st = 0 then List.replicate 32 0 else shake256 (slice other.manifest 0 1152)) ++ List.replicate 198 0

/-- MB_ATTEST (R399). -/
def mbAttest : MbCmd :=
  { code := 0x0021
    fields := fun _ => [whole 0 32, whole 32 32]
    run := fun _ b d =>
      let r := attestReport d (slice b 0 32) (slice b 32 32)
      (d, mbOk (r ++ slice (Config.attestSignature r) 0 114)) }

/-- Bytes that MB_SANITISE clears: the data windows and the SRAM of the tiles that are not retired. -/
def sanitisedBytes (d : Dev) : Nat :=
  gddrSize d 0 + gddrSize d 1 + (List.range 64).foldl (fun n t => if tileRetired d t then n else n + tileCapacity t) 0

/-- MB_SANITISE (R400). -/
def mbSanitise : MbCmd :=
  { code := 0x0022
    conds := fun d _ => [(1, !d.hub.rings.isEmpty), (2, !d.seq.stages.isEmpty)]
    run := fun _ _ d =>
      let d1 := noteWrite d 0 (2 ^ 45)
      ({ d1 with
          mem.cells := []
          mem.flips := d1.mem.flips.filter fun e => 2 ^ 50 ≤ e.1
          looms := d1.looms.map fun l =>
            (l.1, { l.2 with images := [], loading := l.2.loading.map fun x => { x with image := none } })
          badgers := d1.badgers.map fun b => (b.1, { b.2 with programs := [], tables := [] })
          threshers := d1.threshers.map fun t => { t with programs := [], vocabs := [] }
          iabor.programLog := List.replicate 32 0 }, mbOk (leBytes 8 (sanitisedBytes d))) }

def execMbNop (m : Nat) (s : State) : Out := mbxAct mbNop m s
def execMbDeviceInfo (m : Nat) (s : State) : Out := mbxAct mbDeviceInfo m s
def execMbFwStage (m : Nat) (flashOk : Bool) (s : State) : Out := mbxAct (mbFwStage flashOk) m s
def execMbFwActivate (m : Nat) (s : State) : Out := mbxAct mbFwActivate m s
def execMbFwCommit (m blown : Nat) (s : State) : Out := mbxAct (mbFwCommit blown) m s
def execMbFwStatus (m : Nat) (s : State) : Out := mbxAct mbFwStatus m s
def execMbIdentCert (m : Nat) (s : State) : Out := mbxAct mbIdentCert m s
def execMbAttest (m : Nat) (s : State) : Out := mbxAct mbAttest m s
def execMbSanitise (m : Nat) (s : State) : Out := mbxAct mbSanitise m s

end Sys2Proof.Machine
end

