-- ==== Sys2Proof/Machine/MbxWork.lean ====
section
/-! DEFINITION. The mailbox commands for rings, chutes, program images, tables, numerics, stages and scripts (15 Table 15.7,
codes 0x01xx to 0x04xx). -/

namespace Sys2Proof.Machine

/-! ## Rings (R43, R71) -/

/-- A named tile is retired (R388). -/
def retiredCond (d : Dev) (tile : Nat) : Nat × Bool := (0xFF, tileRetired d tile)

/-- MB_RING_CREATE (R43). -/
def mbRingCreate : MbCmd :=
  { code := 0x0101
    fields := fun _ => [whole 0 2, lowBits 2 2 12, whole 4 1, whole 6 2, whole 8 8, whole 16 2]
    ranges := fun d b =>
      let size := 128 * 2 ^ fld b 4 1
      [(0, decide (fld b 0 2 < 16384)), (4, decide (4 ≤ fld b 4 1 ∧ fld b 4 1 ≤ 16)), (6, decide (fld b 6 2 < 2048)),
       (8, fld b 8 8 % size == 0 && inGddrOrHost d (fld b 8 8) size)]
    conds := fun d b =>
      let t := targetOf (fld b 2 2 % 4096)
      [(0xFF, t.any (targetRetired d)), (1, (getRing d (fld b 0 2)).isSome), (5, t.isNone)]
    run := fun _ b d =>
      let r : Ring :=
        { base := fld b 8 8, log2len := fld b 4 1, target := fld b 2 2 % 4096, vector := fld b 6 2
          waitLimit := if fld b 16 2 = 0 then 100 else fld b 16 2 }
      ({ d with hub.rings := tput d.hub.rings (fld b 0 2) r }, mbOk) }

/-- MB_RING_DESTROY (R71): operations not issued are dropped, those in flight aborted; the response waits for the last of
them. -/
def mbRingDestroy : MbCmd :=
  { code := 0x0102
    fields := fun _ => [whole 0 2]
    ranges := fun _ b => [(0, decide (fld b 0 2 < 16384))]
    run := fun m b d =>
      let n := fld b 0 2
      match getRing d n with
      | none => (d, mbOk (leBytes 4 0))
      | some r =>
        let first := r.st != .destroying
        let d1 := modRing d n fun r => { r with
          st := .destroying
          destroyers := r.destroyers ++ [m]
          abortedOps := if first then r.inFlight else r.abortedOps
          ops := (r.ops.filter Op.inFlight).map fun o => if first then o.abort (cycle d) stAborted else o }
        let d2 := if first then seqDestroyed d1 n else d1
        match getRing d2 n with
        | none => (d2, mbOk (leBytes 4 0))
        | some r2 => if r2.ops.isEmpty then (ringGone d2 n, mbOk (leBytes 4 r2.abortedOps)) else (d2, mbHeld) }

/-! ## Chutes (R30, R31, R37) -/

/-- The queue that a binding would make. -/
def boundChute (b : Bytes) : Chute :=
  { producer := fld b 2 1, depth := fld b 3 1, slotKib := fld b 4 2, offset := fld b 8 4
    stallMs := if fld b 12 4 = 0 then 100 else fld b 12 4 }

/-- Bound queues of a tile. -/
def tileChutes (d : Dev) (tile : Nat) : List Chute := (d.chutes.filter fun q => q.1 / 16 == tile).map (·.2)

/-- A producer is retired: a tile, or the die of a batch packer (R388). -/
def producerRetired (d : Dev) (p : Nat) : Bool := if p < 64 then tileRetired d p else dieRetired d (p - 64)

/-- MB_CHUTE_BIND (R30). -/
def mbChuteBind : MbCmd :=
  { code := 0x0103
    fields := fun _ => [whole 0 1, whole 1 1, whole 2 1, whole 3 1, whole 4 2, whole 8 4, whole 12 4]
    ranges := fun _ b =>
      [(0, decide (fld b 0 1 < 64)), (1, decide (fld b 1 1 < 16)), (2, decide (fld b 2 1 ≤ 0x41)),
       (3, decide (2 ≤ fld b 3 1 ∧ fld b 3 1 ≤ 64)), (4, decide (1 ≤ fld b 4 2 ∧ fld b 4 2 ≤ 256)), (8, fld b 8 4 % 4096 == 0),
       (12, decide (fld b 12 4 ≤ 10000))]
    conds := fun d b =>
      let t := fld b 0 1
      let c := boundChute b
      let others := tileChutes d t
      [(0xFF, tileRetired d t || producerRetired d c.producer), (1, (getChute d t (fld b 1 1)).isSome),
       (2, decide (tileCapacity t < 4 * others.foldl (fun n x => n + x.storage) c.storage)),
       (3, others.any fun x => decide (x.offset < c.offset + c.storage ∧ c.offset < x.offset + x.storage)),
       (4, decide (tileCapacity t < c.offset + c.storage))]
    run := fun _ b d => ({ d with chutes := tput d.chutes (16 * fld b 0 1 + fld b 1 1) (boundChute b) }, mbOk) }

/-- An operation names a queue in its descriptor: as an inbound queue, an outbound chute, or a destination (R30). -/
def namesQueue (t : Target) (o : Op) (tile queue : Nat) : Bool :=
  let key := 16 * tile + queue
  match t with
  | .loom u _ => o.opcode == 0x0201 && ((u == tile && o.inQueues.contains queue) || (o.outChutes.map outKey).contains key)
  | .mill _ => o.drains && o.toChute && 16 * (o.f 80 1 % 64) + bits (o.f 80 2) 11 8 == key
  | .quern _ => o.quernChute && 16 * (o.f 96 1 % 64) + bits (o.f 96 2) 11 8 == key
  | .badger u =>
    let ctl := o.f 35 1
    (u == tile && bit ctl 0 && (o.opcode == 0x0401 || o.opcode == 0x0402) && o.f 36 1 == queue) ||
    (u == tile && bit ctl 1 && o.opcode == 0x0402 && o.f 37 1 == queue) ||
    (bit ctl 1 && o.opcode == 0x0401 && 16 * (o.f 48 1 % 64) + bits (o.f 48 2) 11 8 == key)
  | _ => false

/-- MB_CHUTE_UNBIND (R30). -/
def mbChuteUnbind : MbCmd :=
  { code := 0x0104
    fields := fun _ => [whole 0 1, whole 1 1]
    ranges := fun _ b => [(0, decide (fld b 0 1 < 64)), (1, decide (fld b 1 1 < 16))]
    conds := fun d b =>
      let t := fld b 0 1
      let q := fld b 1 1
      retiredCond d t :: (match getChute d t q with
      | none => []
      | some c =>
        [(1, c.filled != 0), (2, decide (c.credits < c.depth)),
         (3, (opsInFlight d).any fun e => !e.2.failedFetch && (ringTarget d e.1).any fun u => namesQueue u e.2 t q)])
    run := fun _ b d => ({ d with chutes := tdel d.chutes (16 * fld b 0 1 + fld b 1 1) }, mbOk) }

/-! ## Loom images (R181 to R184) -/

/-- A load whose image is refused logs its event (R388). -/
def refuseLoad (d : Dev) (r : MbxResponse) (ev : Nat) (src : Source) (detail : Nat) : Dev × MbxResponse :=
  (if r.result.toNat = rsImage then logEvent d ev src detail else d, r)

/-- TILE holds a Loom and ENGINE is one (R183). -/
def loomRanges (b : Bytes) : List (Nat × Bool) :=
  [(0, decide (fld b 0 1 < 64) && (loomExists (fld b 0 1) 0 || loomExists (fld b 0 1) 1)), (1, loomExists (fld b 0 1) (fld b 1 1))]

/-- Bytes of a Loom image by its header. -/
def loomImageBytes (h : Bytes) : Nat := if imageLength h ≤ 8192 then 64 + 8 * imageLength h else 64

/-- MB_LOOM_LOAD (R183): the image is read and checked, and the slot is loading until the command completes (`settleLoad`). -/
def mbLoomLoad : MbCmd :=
  { code := 0x0201
    fields := fun _ => [whole 0 1, whole 1 1, whole 2 1, lowBits 3 1 1, whole 8 8]
    ranges := fun d b => loomRanges b ++ [(2, decide (fld b 2 1 < 32)), (8, inGddr d (fld b 8 8) 1)]
    conds := fun d b =>
      let t := fld b 0 1
      let n := imageLength (rawRead d (fld b 8 8) 64)
      let l := getLoom d t (fld b 1 1)
      let loaded := (slotImage d t (fld b 1 1) (fld b 2 1)).isSome
      [retiredCond d t, (1, n ≤ 8192 && decide (128 < usedPages l + loomPages n)), (2, l.loading.isSome),
       (3, bit (fld b 3 1) 0 && !loaded), (4, !(bit (fld b 3 1) 0) && loaded)]
    run := fun m b d =>
      let t := fld b 0 1
      let e := fld b 1 1
      let begun (d : Dev) (img : Bytes) (image : Option (List W64 × List W16)) (fault : Nat) (r : MbxResponse) : Dev × MbxResponse :=
        let pages := if imageLength img ≤ 8192 then loomPages (imageLength img) else 0
        (modLoom d t e fun l => { l with
          loading := some { mbx := m, slot := fld b 2 1, image := image, digest := slice img 32 32, fault := fault, pages := pages } }, r)
      match readImage d 8 (fld b 8 8) 64 loomImageBytes with
      | (d1, .error r) => begun d1 [] none 0xFFFF r
      | (d1, .ok img) => match imageFault img with
        | some i => begun d1 img none i (mbEnd rsImage i)
        | none => begun d1 img (some (imageWords img, imageEntries img)) 0 (mbOk (leBytes 1 (loomPages (imageLength img)))) }

/-- A load is in progress into an absent slot: the slot is loading (R183). -/
def slotLoading (d : Dev) (t e slot : Nat) : Bool :=
  (slotImage d t e slot).isNone && ((getLoom d t e).loading.any fun x => x.slot == slot)

/-- MB_LOOM_UNLOAD (R184). -/
def mbLoomUnload : MbCmd :=
  { code := 0x0202
    fields := fun _ => [whole 0 1, whole 1 1, whole 2 1]
    ranges := fun _ b => loomRanges b ++ [(2, decide (fld b 2 1 < 32))]
    conds := fun d b => [retiredCond d (fld b 0 1), (1, slotLoading d (fld b 0 1) (fld b 1 1) (fld b 2 1))]
    run := fun _ b d =>
      (if (slotImage d (fld b 0 1) (fld b 1 1) (fld b 2 1)).isSome then dropSlot d (fld b 0 1) (fld b 1 1) (fld b 2 1) else d, mbOk) }

/-! ## Pooling programs and tables (R210, R217) -/

/-- A pooling instruction may stand in a section (Table 8.7): row section but its end, its end, or the bag section. -/
def poolWordOk (bag last : Bool) (w : W64) : Bool :=
  let op := bits w.toNat 63 56
  let listed := if bag then [0x20, 0x21, 0x22, 0x23].contains op
    else if last then op == 0x10 || op == 0x11 else decide (1 ≤ op ∧ op ≤ 6)
  listed && bits w.toNat 55 32 == 0 && ([0x02, 0x03, 0x04, 0x05, 0x20, 0x21].contains op || bits w.toNat 31 0 == 0)

/-- N_ROW and N_BAG of a pooling image. -/
def poolRowsOf (img : Bytes) : Nat := fld img 6 1
def poolBagsOf (img : Bytes) : Nat := fld img 7 1

/-- The instructions of a pooling image from `k` on, `n` of them. -/
def poolWords (img : Bytes) (k n : Nat) : List W64 := (List.range n).map fun i => BitVec.ofNat 64 (fld img (64 + 8 * (k + i)) 8)

/-- Bytes of a pooling image by its header. -/
def poolImageBytes (h : Bytes) : Nat := 64 + 8 * (poolRowsOf h + poolBagsOf h)

/-- What is wrong with a pooling image (R217): the index of the first failing instruction, or 0xFFFF for the header. -/
def poolFault (img : Bytes) : Option Nat :=
  let n := poolRowsOf img
  let words := poolWords img 0 (n + poolBagsOf img)
  if fld img 0 4 != 0x42444752 || fld img 4 2 != 1 || n < 1 || 16 < n || 16 < poolBagsOf img || !(zeroAt img 8 24) ||
      shake256 (slice img 64 (8 * words.length)) != slice img 32 32 then some 0xFFFF
  else (words.zipIdx.find? fun w => !(poolWordOk (decide (n ≤ w.2)) (w.2 + 1 == n) w.1)).map (·.2)

/-- A number of 16 or more that names no pooling program. -/
def freePoolKey (b : Badger) : Nat := b.programs.foldl (fun n p => max n (p.1 + 1)) 16

/-- A slot takes a program; gathers in flight go on with the one it held (R183, R217). -/
def putPoolProgram (d : Dev) (tile slot : Nat) (p : PoolProgram) : Dev :=
  let b := getBadger d tile
  let key := freePoolKey b
  let runs (o : Op) : Bool := o.inFlight && o.opcode == 0x0401 && o.f 33 1 == 5 && o.f 34 1 == slot && o.image == 0
  let d1 := match tget b.programs slot with
    | some old =>
      if d.hub.rings.any fun e => targetOf e.2.target == some (.badger tile) && e.2.ops.any runs then
        { modBadger d tile (fun b => { b with programs := tput b.programs key old }) with
          hub.rings := d.hub.rings.map fun e => if targetOf e.2.target = some (.badger tile) then
            (e.1, { e.2 with ops := e.2.ops.map fun o => if runs o then { o with image := key } else o }) else e }
      else d
    | none => d
  modBadger d1 tile fun b => { b with programs := tput b.programs slot p }

/-- TILE is a B-tile. -/
def isBTile (t : Nat) : Bool := decide (t < 64) && tileType t == .bTile

/-- MB_BADGER_LOAD (R217). -/
def mbBadgerLoad : MbCmd :=
  { code := 0x0203
    fields := fun _ => [whole 0 1, whole 2 1, lowBits 3 1 1, whole 8 8]
    ranges := fun d b => [(0, isBTile (fld b 0 1)), (2, decide (fld b 2 1 < 16)), (8, inGddr d (fld b 8 8) 1)]
    conds := fun d b =>
      let loaded := thas (getBadger d (fld b 0 1)).programs (fld b 2 1)
      [retiredCond d (fld b 0 1), (3, bit (fld b 3 1) 0 && !loaded), (4, !(bit (fld b 3 1) 0) && loaded)]
    run := fun _ b d =>
      let t := fld b 0 1
      match readImage d 8 (fld b 8 8) 64 poolImageBytes with
      | (d1, .error r) => refuseLoad d1 r evBadgerLoadRefused (.engine t 0) 0
      | (d1, .ok img) => match poolFault img with
        | some i => refuseLoad d1 (mbEnd rsImage i) evBadgerLoadRefused (.engine t 0) 0
        | none =>
          let n := poolRowsOf img
          let p : PoolProgram := { rows := poolWords img 0 n, bags := poolWords img n (poolBagsOf img) }
          (extendLog (putPoolProgram d1 t (fld b 2 1) p) 2 t (fld b 2 1) (slice img 32 32), mbOk) }

/-- An operation in flight names a table of a Badger (R210). -/
def tableInUse (d : Dev) (tile table : Nat) : Bool :=
  (opsInFlight d).any fun e => !e.2.failedFetch && ringTarget d e.1 == some (.badger tile) && 3 ≤ e.2.opcode && e.2.f 32 1 == table

/-- The ranges of a table record, by record offset (Table 8.2). -/
def tableRanges (d : Dev) (tile : Nat) (r : Bytes) : List (Nat × Bool) :=
  let t := tableRec tile r
  let adam := t.opt == 3
  let moment (off : Nat) : Bool := if adam then plainFmt (fld r off 2) (fun c => c < 13 && c != 11) else fld r off 2 == 0
  let cellar := match regionOf d (fld r 48 8) with
    | .host => true
    | .peer _ => true
    | _ => false
  [(0, decide (t.rows ≤ 2 ^ 30)), (4, decide (1 ≤ t.rowMod ∧ t.rowMod ≤ 64)), (5, decide (t.rowRem < t.rowMod)),
   (6, decide (1 ≤ t.dim ∧ t.dim ≤ 2048)), (8, plainFmt (fld r 8 2) (· < 11)),
   (10, t.stride % 64 == 0 && decide (64 ≤ t.stride ∧ t.stride ≤ 4096 ∧ t.layout ≤ t.stride)),
   (16, adam || fld r 16 2 == 0), (18, adam || fld r 18 2 == 0), (20, decide (t.updRing < 16384)), (22, moment 22), (24, moment 24),
   (32, fld r 32 4 % 64 == 0 && (fld r 28 4 == 0 || decide (fld r 32 4 < tileCapacity tile))),
   (40, fld r 40 8 % 64 == 0 && (fld r 36 4 == 0 || inGddr d (fld r 40 8) 1)), (48, fld r 56 4 == 0 || cellar),
   (60, decide (t.entries ≤ 2 ^ 24) && (t.opt != 0 || t.entries == 0)), (64, localOrGddr d tile t.map 1), (72, inGddr d t.ledger 1),
   (80, inGddr d t.occ 1)]

/-- A format word in a request: bit [7] is reserved (Table 3.1). -/
def formatWord (off : Nat) : MbField := { off := off, len := 2, mask := 0xFF7F }

/-- The fields of a table record in its request. -/
def tableFields : List MbField :=
  [whole 8 4, whole 12 1, whole 13 1, whole 14 2, formatWord 16, whole 18 2, lowBits 20 1 2, lowBits 22 2 12, lowBits 24 2 12,
   lowBits 26 2 12, whole 28 2, formatWord 30, formatWord 32, whole 36 4, whole 40 4, whole 44 4, whole 48 8, whole 56 8, whole 64 4,
   whole 68 4, whole 72 8, whole 80 8, whole 88 8, { off := 96, len := 40, mask := 0 }]

/-- MB_BADGER_TABLE (R210). -/
def mbBadgerTable : MbCmd :=
  { code := 0x0204
    fields := fun _ => whole 0 1 :: whole 1 1 :: tableFields
    ranges := fun d b =>
      [(0, isBTile (fld b 0 1)), (1, decide (fld b 1 1 < 64))] ++
      (if fld b 8 4 = 0 then [] else (tableRanges d (fld b 0 1) (b.drop 8)).map fun x => (8 + x.1, x.2))
    conds := fun d b =>
      [retiredCond d (fld b 0 1), (3, tableInUse d (fld b 0 1) (fld b 1 1)),
       (4, (getBadger d (fld b 0 1)).ledger.any fun e => e.table == fld b 1 1)]
    run := fun _ b d =>
      (modBadger d (fld b 0 1) fun x => { x with
        tables := if fld b 8 4 = 0 then tdel x.tables (fld b 1 1) else tput x.tables (fld b 1 1) (slice b 8 128) }, mbOk) }

/-! ## Numerics (R235, R237) -/

/-- An area of `n` bytes at an address, or none at 0, aligned to `k` in GDDR7. -/
def areaOk (d : Dev) (a k n : Nat) : Bool := a == 0 || (a % k == 0 && inGddr d a n)

/-- A ledger holds an entry. -/
def anyLedger (d : Dev) : Bool := d.badgers.any fun b => !b.2.ledger.isEmpty

/-- The settings that a request makes of those in force. -/
def numOfRequest (b : Bytes) (n : NumSettings) : NumSettings :=
  let v := fld b 0 4
  { seed := if bit v 0 then BitVec.ofNat 64 (fld b 8 8) else n.seed
    censusAddr := if bit v 1 then fld b 16 8 else n.censusAddr
    censusLog2 := if bit v 2 then fld b 24 1 else n.censusLog2
    policyAddr := if bit v 3 then fld b 32 8 else n.policyAddr
    scaleAddr := if bit v 4 then fld b 40 8 else n.scaleAddr
    shardAddr := if bit v 5 then fld b 48 8 else n.shardAddr
    shardCount := if bit v 6 then fld b 56 2 else n.shardCount
    silentRun := if bit v 7 then fld b 58 2 else n.silentRun }

/-- MB_NUM_CONFIG (R235). -/
def mbNumConfig : MbCmd :=
  { code := 0x0301
    fields := fun _ => [lowBits 0 4 8, whole 8 8, whole 16 8, whole 24 1, whole 32 8, whole 40 8, whole 48 8, whole 56 2, whole 58 2]
    ranges := fun d b =>
      let v := fld b 0 4
      let n := numOfRequest b d.steps.num
      let log := min n.censusLog2 8
      [(16, !(bit v 1) || areaOk d n.censusAddr 4096 (2 ^ log * 135168)),
       (24, !(bit v 2) || (decide (4 ≤ n.censusLog2 ∧ n.censusLog2 ≤ 8) && areaOk d n.censusAddr 4096 (2 ^ log * 135168))),
       (32, !(bit v 3) || areaOk d n.policyAddr 64 32768), (40, !(bit v 4) || areaOk d n.scaleAddr 64 32768),
       (48, !(bit v 5) || areaOk d n.shardAddr 64 (64 * max 1 (min n.shardCount 4096))),
       (56, !(bit v 6) || (decide (n.shardCount ≤ 4096) && areaOk d n.shardAddr 64 (64 * max 1 (min n.shardCount 4096)))),
       (58, !(bit v 7) || decide (16 ≤ n.silentRun ∧ n.silentRun ≤ 4096))]
    conds := fun d b => [(1, fld b 0 4 % 128 != 0 && (inFlightTotal d != 0 || anyLedger d))]
    run := fun _ b d =>
      let n := numOfRequest b d.steps.num
      ({ d with
          steps.num := n
          steps.policyLogged := []
          steps.closed := if n.censusAddr = d.steps.num.censusAddr then d.steps.closed else [] }, mbOk) }

/-- MB_STEP_CLEAR (R237). -/
def mbStepClear : MbCmd :=
  { code := 0x0302
    fields := fun _ => [whole 0 8]
    run := fun _ b d =>
      let s := fld b 0 8
      let counted := (stepState d s).any fun st => !clearsLate st
      (clearFlag d s 4 none, mbOk (leBytes 1 (ofBool counted))) }

/-! ## Stages and scripts (R259, R262, R270, R277) -/

/-- The rings that a binding names. -/
def stageRings (b : Bytes) : List Nat := (List.range (min 8 (fld b 2 1))).map fun k => fld b (4 + 2 * k) 2

/-- MB_STAGE_BIND (R259). -/
def mbStageBind : MbCmd :=
  { code := 0x0401
    fields := fun raw => [whole 0 1, whole 1 1, whole 2 1] ++ (List.range 8).map fun k =>
      if k < fld raw 2 1 then whole (4 + 2 * k) 2 else { off := 4 + 2 * k, len := 2, mask := 0 }
    ranges := fun _ b => [(0, decide (fld b 0 1 < 64)), (1, decide (fld b 1 1 < 64)), (2, decide (1 ≤ fld b 2 1 ∧ fld b 2 1 ≤ 8))]
    conds := fun d b =>
      let t := fld b 1 1
      let rings := stageRings b
      let bad (n : Nat) : Bool :=
        n < 64 || ringOwned d n || ringTile d n != some t || (rings.filter (· == n)).length != 1
      [retiredCond d t, (2, d.seq.stages.any fun s => s.2.tile == t), (3, thas d.seq.stages (fld b 0 1)), (4, rings.any bad)]
    run := fun _ b d => ({ d with seq.stages := tput d.seq.stages (fld b 0 1) { tile := fld b 1 1, rings := stageRings b } }, mbOk) }

/-- MB_STAGE_UNBIND (R259): a migration of the stage ends with it. -/
def mbStageUnbind : MbCmd :=
  { code := 0x0402
    fields := fun _ => [whole 0 1]
    ranges := fun _ b => [(0, decide (fld b 0 1 < 64))]
    conds := fun d b => [(1, (tget d.seq.stages (fld b 0 1)).any fun s => s.rings.any (isMember d))]
    run := fun _ b d =>
      let d1 := match d.seq.migration with
        | some g => if g.stage = fld b 0 1 then answerMbx { d with seq.migration := none } g.mbx (mbEnd rsFailed 0) else d
        | none => d
      ({ d1 with seq.stages := tdel d1.seq.stages (fld b 0 1) }, mbOk) }

/-- MB_SEQ_LOAD (R262, R281). -/
def mbSeqLoad : MbCmd :=
  { code := 0x0403
    fields := fun _ => [whole 0 8, whole 8 8, lowBits 16 1 1]
    ranges := fun d b => [(0, inGddr d (fld b 0 8) 1)]
    conds := fun d b =>
      let replace := bit (fld b 16 1) 0
      [(1, replace && releasedFrom d (fld b 8 8)), (2, !replace && !d.seq.scripts.isEmpty), (3, decide (2 ≤ d.seq.scripts.length))]
    run := fun _ b d =>
      match readImage d 0 (fld b 0 8) 64 (fun h => if seqHeaderOk h then seqBytes h else 64) with
      | (d1, .error r) => refuseLoad d1 r evSeqLoadRefused .hub 0
      | (d1, .ok img) =>
        let number := if d1.seq.scripts.any fun x => x.number == 0 then 1 else 0
        match seqFault d1 (bit (fld b 16 1) 0) img with
        | some i => refuseLoad d1 (mbEnd rsImage i) evSeqLoadRefused .hub 0
        | none => match scriptOf d1 img (fld b 8 8) number with
          | .error i => refuseLoad d1 (mbEnd rsImage i) evSeqLoadRefused .hub 0
          | .ok x => (extendLog (installScript d1 x) 4 0 number (slice img 32 32), mbOk (leBytes 1 number)) }

/-- A pool lies in a die's window. -/
def poolOk (d : Dev) (die base size : Nat) : Bool :=
  size == 0 || (rangeRegion d base size == .gddr die)

/-- MB_SEQ_CONFIG (R270). -/
def mbSeqConfig : MbCmd :=
  { code := 0x0404
    fields := fun _ => [whole 0 8, whole 8 8, whole 16 8, whole 24 8]
    ranges := fun d b =>
      [(0, fld b 0 8 % 4096 == 0 && poolOk d 0 (fld b 0 8) (min 1 (fld b 8 8))), (8, poolOk d 0 (fld b 0 8) (fld b 8 8)),
       (16, fld b 16 8 % 4096 == 0 && poolOk d 1 (fld b 16 8) (min 1 (fld b 24 8))), (24, poolOk d 1 (fld b 16 8) (fld b 24 8))]
    conds := fun d _ => [(1, !d.seq.scripts.isEmpty)]
    run := fun _ b d => ({ d with seq.pools := [(fld b 0 8, fld b 8 8), (fld b 16 8, fld b 24 8)] }, mbOk) }

/-- MB_STAGE_MIGRATE (R277, R278): the hold begins. -/
def mbStageMigrate : MbCmd :=
  { code := 0x0405
    fields := fun _ => [whole 0 1, whole 1 1, lowBits 2 1 1]
    ranges := fun d b => [(0, thas d.seq.stages (fld b 0 1)), (1, decide (fld b 1 1 < 64))]
    conds := fun d b =>
      let dest := fld b 1 1
      [retiredCond d dest, (1, (tget d.seq.stages (fld b 0 1)).any fun s => tileType s.tile != tileType dest),
       (3, d.seq.stages.any fun s => s.2.tile == dest), (4, d.seq.migration.isSome)]
    run := fun m b d =>
      let g : Migration :=
        { stage := fld b 0 1, dest := fld b 1 1, retire := bit (fld b 2 1) 0, phase := .drain, since := deviceTime d, mbx := m }
      ({ d with seq.migration := some g }, mbHeld) }

def execMbRingCreate (m : Nat) (s : State) : Out := mbxAct mbRingCreate m s
def execMbRingDestroy (m : Nat) (s : State) : Out := mbxAct mbRingDestroy m s
def execMbChuteBind (m : Nat) (s : State) : Out := mbxAct mbChuteBind m s
def execMbChuteUnbind (m : Nat) (s : State) : Out := mbxAct mbChuteUnbind m s
def execMbLoomLoad (m : Nat) (s : State) : Out := mbxAct mbLoomLoad m s
def execMbLoomUnload (m : Nat) (s : State) : Out := mbxAct mbLoomUnload m s
def execMbBadgerLoad (m : Nat) (s : State) : Out := mbxAct mbBadgerLoad m s
def execMbBadgerTable (m : Nat) (s : State) : Out := mbxAct mbBadgerTable m s
def execMbNumConfig (m : Nat) (s : State) : Out := mbxAct mbNumConfig m s
def execMbStepClear (m : Nat) (s : State) : Out := mbxAct mbStepClear m s
def execMbStageBind (m : Nat) (s : State) : Out := mbxAct mbStageBind m s
def execMbStageUnbind (m : Nat) (s : State) : Out := mbxAct mbStageUnbind m s
def execMbSeqLoad (m : Nat) (s : State) : Out := mbxAct mbSeqLoad m s
def execMbSeqConfig (m : Nat) (s : State) : Out := mbxAct mbSeqConfig m s
def execMbStageMigrate (m : Nat) (s : State) : Out := mbxAct mbStageMigrate m s

end Sys2Proof.Machine
end

