-- ==== Sys2Proof/Machine/MbxUnits.lean ====
section
/-! DEFINITION. The mailbox commands for the Thresher, the fabric, memory, the Granary and the Owl (15 Table 15.7, codes 0x05xx
to 0x08xx). -/

namespace Sys2Proof.Machine

/-! ## Stream ports (R283) -/

/-- A Thresher's unit is retired (R388). -/
def threshRetired (d : Dev) (die : Nat) : Nat × Bool := (0xFF, targetRetired d (.thresher die))

/-- Lanes at which a stream port comes up, where bit k of `trained` says that lane k trained: all 8, or lanes 0 to 3, or none
(R283). -/
def streamWidth (trained : Nat) : Nat := if bits trained 7 0 = 0xFF then 8 else if bits trained 3 0 = 0xF then 4 else 0

/-- A stream port has trained on some lanes: it is up, degraded or down; both block counts start from 0 (R283, R286). -/
def trainStream (d : Dev) (die trained : Nat) : Dev :=
  let n := streamWidth trained
  let d1 := modTh d die fun t => { t with
    port := if n = 8 then 1 else if n = 4 then 2 else 0
    lanes := n
    freed := 0
    freedSent := 0
    creditAt := deviceTime d
    timeAt := deviceTime d
    samples := t.samples.map fun s => { s with blocks := 0 } }
  if n = 4 then logEvent d1 evStreamPortDegraded (.streamPort die) 0 else d1

/-- A stream port is switched off (R283). -/
def disableStream (d : Dev) (die : Nat) : Dev := modTh d die fun t => { t with port := 3, lanes := 0 }

/-- MB_TH_PORT (R283): the lanes whose bits `trained` sets train. -/
def mbThPort (trained : Nat) : MbCmd :=
  { code := 0x0501
    fields := fun _ => [whole 0 1, whole 1 1]
    ranges := fun _ b => [(0, decide (fld b 0 1 < 2)), (1, decide (fld b 1 1 < 2))]
    conds := fun d b => [threshRetired d (fld b 0 1)]
    run := fun _ b d =>
      let die := fld b 0 1
      let d1 := if fld b 1 1 = 0 then trainStream d die trained else disableStream d die
      (d1, mbOk (leBytes 1 (getTh d1 die).port ++ leBytes 1 (getTh d1 die).lanes)) }

/-! ## Streams, classes, programs and vocabularies (R288, R298, R302, R303) -/

/-- The element kind of a class that suits a KIND of Table 11.4; 4 for a KIND that the table does not have. -/
def elementKind (kind : Nat) : Nat :=
  if [1, 2, 3, 4].contains kind then 0
  else if decide (8 ≤ kind ∧ kind ≤ 0x0D) then 1
  else if kind = 0x10 then 2
  else if kind = 0x20 || kind = 0x21 then 3
  else 4

/-- A stream configuration from a request. -/
def streamOf (b : Bytes) : StreamCfg :=
  { kind := fld b 4 1, cls := fld b 5 1, augSlot := fld b 6 1, vocab := fld b 7 1, augTable := fld b 8 8, augCount := fld b 16 4
    augDefault := fld b 24 8, maxW := fld b 32 2, maxH := fld b 34 2, maxUnits := fld b 36 4, maxBytes := fld b 40 4, rate := fld b 44 4
    channels := fld b 48 1, damageMax := fld b 50 2, staleNs := fld b 56 8, workAddr := fld b 64 8 }

/-- The ranges of Table 11.2, asked of every stream whatever its KIND (R288). -/
def streamRanges (d : Dev) (b : Bytes) : List (Nat × Bool) :=
  let c := streamOf b
  let k := elementKind c.kind
  [(0, decide (fld b 0 1 < 2)), (2, decide (fld b 2 2 < 4096)), (4, k != 4), (5, decide (c.cls < 16)),
   (6, decide (c.augSlot < 32) || c.augSlot == 0xFF), (7, decide (c.vocab < 4)),
   (8, c.augTable % 64 == 0 && inGddr d c.augTable (64 * max 1 (min c.augCount (2 ^ 24)))), (16, decide (c.augCount ≤ 2 ^ 24)),
   (24, c.augDefault % 64 == 0 && inGddr d c.augDefault 64), (32, decide (1 ≤ c.maxW ∧ c.maxW ≤ 8192)),
   (34, decide (1 ≤ c.maxH ∧ c.maxH ≤ 8192)), (36, decide (1 ≤ c.maxUnits)), (40, decide (64 ≤ c.maxBytes)),
   (44, decide (8000 ≤ c.rate ∧ c.rate ≤ 192000)), (48, decide (1 ≤ c.channels ∧ c.channels ≤ 8)),
   (56, decide (c.staleNs ≤ 2 ^ 40)), (64, bit (fld b 1 1) 0 || (c.workAddr % 4096 == 0 && inGddr d c.workAddr 1))]

/-- A stream has a sample in progress. -/
def Thresher.busy (t : Thresher) (stream : Nat) : Bool := t.samples.any fun s => s.stream == stream

/-- The die's limits of R288 with a stream configured: video streams, audio channels, streams. -/
def streamsFit (l : List StreamCfg) : Bool :=
  decide ((l.filter fun c => decide (c.kind < 4)).length ≤ 256) &&
  decide ((l.filter fun c => elementKind c.kind == 1).foldl (fun n c => n + c.channels) 0 ≤ 2048) && decide (l.length ≤ 1024)

/-- MB_TH_STREAM (R288). -/
def mbThStream : MbCmd :=
  { code := 0x0502
    fields := fun _ => [whole 0 1, lowBits 1 1 1, whole 2 2, whole 4 1, whole 5 1, whole 6 1, whole 7 1, whole 8 8, whole 16 4, whole 24 8,
      whole 32 2, whole 34 2, whole 36 4, whole 40 4, whole 44 4, whole 48 1, whole 50 2, whole 56 8, whole 64 8]
    ranges := streamRanges
    conds := fun d b =>
      let t := getTh d (fld b 0 1)
      let c := streamOf b
      let n := fld b 2 2
      [threshRetired d (fld b 0 1), (2, (tget t.classes c.cls).map (·.kind) != some (elementKind c.kind)),
       (3, !(streamsFit (c :: (tdel t.streams n).map (·.2)))), (4, t.busy n)]
    run := fun _ b d =>
      let c := streamOf b
      let n := fld b 2 2
      (if bit (fld b 1 1) 0 then d
        else modTh d (fld b 0 1) fun t => { t with streams := tput t.streams n c, skipping := t.skipping.erase n },
       mbOk (leBytes 8 (Config.workBytes c.kind c.maxW c.maxH).toNat)) }

/-- A batch class from a request. -/
def classOfRequest (b : Bytes) : BatchClass :=
  let c : BatchClass :=
    { samples := fld b 2 2, mode := fld b 4 1, destTile := fld b 5 1, destQueue := fld b 6 1, kind := fld b 7 1
      shape := (List.range 4).map fun k => fld b (8 + 4 * k) 4
      format := BitVec.ofNat 16 (fld b 24 2), tensor := fld b 26 2, pad := BitVec.ofNat 32 (fld b 28 4)
      bufBase := fld b 32 8, bufStride := fld b 40 4, stageAddr := fld b 48 8, timeoutNs := fld b 56 8
      stepBase := BitVec.ofNat 64 (fld b 64 8), bps := fld b 72 2, slotBytes := 0 }
  { c with slotBytes := round64 (shapeElems c * slotElemBytes c) }

/-- Values of SHAPE that an element kind uses (Table 11.5). -/
def shapeUsed (kind : Nat) : Nat := if kind = 0 then 4 else if kind = 1 then 2 else 1

/-- FORMAT suits the element kind (Table 11.5). -/
def classFormatOk (c : BatchClass) : Bool :=
  plainFmt c.format.toNat fun f => if c.kind = 2 then f == 11 else if c.kind = 3 then f == 9 else f == 0 || f == 1 || f == 2 || f == 9

/-- The payload of a batch without its slots, or with them in CHUTE mode (R300). -/
def BatchClass.payload (c : BatchClass) : Nat := slotsOff c.samples + (if c.mode = 0 then c.samples * c.slotBytes else 0)

/-- The consumer chute, where it is bound with this die's packer as its producer (Table 11.5). -/
def classChute (d : Dev) (die : Nat) (c : BatchClass) : Option Chute :=
  (getChute d c.destTile c.destQueue).filter fun q => q.producer == 0x40 + die

/-- The ranges of Table 11.5. -/
def classRanges (d : Dev) (b : Bytes) : List (Nat × Bool) :=
  let c := classOfRequest b
  let chute := classChute d (fld b 0 1) c
  let depth := (chute.map (·.depth)).getD 0
  [(0, decide (fld b 0 1 < 2)), (1, decide (fld b 1 1 < 16)), (2, decide (1 ≤ c.samples ∧ c.samples ≤ 1024)), (4, decide (c.mode < 2)),
   (5, decide (c.destTile < 64) && chute.isSome), (6, decide (c.destQueue < 16)), (7, decide (c.kind < 4))] ++
  ((List.range (shapeUsed c.kind)).map fun k => (8 + 4 * k, c.shape.getD k 0 != 0 && (k != 3 || c.shape.getD k 0 == 1 || c.shape.getD k 0 == 3))) ++
  [(8, decide (c.slotBytes < 2 ^ 32)), (24, classFormatOk c), (26, decide (c.tensor < 4096)),
   (32, c.mode != 1 || (List.range depth).all fun i => rangeMapped d (c.bufBase + i * c.bufStride) (c.samples * c.slotBytes) true),
   (48, c.stageAddr % 4096 == 0 && inGddr d c.stageAddr 1), (56, decide (1000 ≤ c.timeoutNs ∧ c.timeoutNs ≤ 2 ^ 40)),
   (72, decide (1 ≤ c.bps ∧ c.bps ≤ 256))]

/-- MB_TH_CLASS (R298, R300). -/
def mbThClass : MbCmd :=
  { code := 0x0503
    fields := fun raw => [whole 0 1, whole 1 1, whole 2 2, whole 4 1, whole 5 1, whole 6 1, whole 7 1] ++
      ((List.range 4).map fun k => if k < shapeUsed (fld raw 7 1) then whole (8 + 4 * k) 4 else { off := 8 + 4 * k, len := 4, mask := 0 }) ++
      [{ off := 24, len := 2, mask := 0xFF7F }, whole 26 2, whole 28 4, whole 32 8, whole 40 4, whole 48 8, whole 56 8, whole 64 8, whole 72 2]
    ranges := classRanges
    conds := fun d b =>
      let die := fld b 0 1
      let t := getTh d die
      let c := classOfRequest b
      [(0xFF, targetRetired d (.thresher die) || tileRetired d c.destTile),
       (1, t.streams.any fun s => s.2.cls == fld b 1 1 && t.busy s.1),
       (2, (tget t.classes (fld b 1 1)).any fun x => x.batches.any Batch.isOpen),
       (3, (classChute d die c).any fun q => decide (q.slotBytes < c.payload))]
    run := fun _ b d =>
      let c := classOfRequest b
      let left := ((tget (getTh d (fld b 0 1)).classes (fld b 1 1)).map (·.batches)).getD []
      (modTh d (fld b 0 1) fun t => { t with classes := tput t.classes (fld b 1 1) { c with batches := left } }, mbOk (leBytes 4 c.slotBytes)) }

/-- Instructions of an augmentation image. -/
def augWords (img : Bytes) : List W64 := (List.range (fld img 4 1)).map fun i => BitVec.ofNat 64 (fld img (64 + 8 * i) 8)

/-- The kinds that an augmentation opcode suits: pictures, audio (Table 11.8). -/
def augSuits (op : Nat) : Bool × Bool := (decide (op ≤ 6), decide (6 ≤ op))

/-- The highest parameter index that an instruction names (Table 11.8). -/
def augIndexOf (w : W64) : Nat :=
  let a := bits w.toNat 55 48
  let b := bits w.toNat 47 40
  match bits w.toNat 63 56 with
  | 1 => max a b
  | 2 => a + 3
  | 6 => max a b
  | 4 => 0
  | 5 => 0
  | _ => a

/-- An augmentation instruction stands in Table 11.8, and its fields are in order (R302; the reserved bits and COLOUR's IMM
DEDUCED, log 27). -/
def augWordOk (w : W64) : Bool :=
  let op := bits w.toNat 63 56
  decide (1 ≤ op ∧ op ≤ 8) && decide (augIndexOf w ≤ 11) && bits w.toNat 39 32 == 0 && (op != 5 || decide (bits w.toNat 31 0 ≤ 3))

/-- What is wrong with an augmentation image (R302): the first failing instruction, or 0xFFFF. An instruction does not suit
the slot's kind where those before it suit only the other (DEDUCED, log 27). -/
def augFault (img : Bytes) : Option Nat :=
  let n := fld img 4 1
  let words := augWords img
  if fld img 0 4 != 0x41554731 || n < 1 || 32 < n || !(zeroAt img 5 27) || shake256 (slice img 64 (8 * n)) != slice img 32 32 then
    some 0xFFFF
  else (words.zipIdx.find? fun w =>
    let kinds := ((words.take (w.2 + 1)).map fun x => augSuits (bits x.toNat 63 56))
    !(augWordOk w.1) || !(kinds.all (·.1) || kinds.all (·.2))).map (·.2)

/-- A slot takes an augmentation program; samples that have a core go on with the one it held (R183, R302). -/
def putAugProgram (t : Thresher) (slot : Nat) (prog : List W64) : Thresher :=
  let old := tget t.programs slot
  let keeps (s : Sample) : Bool := s.decoding && s.prog.isNone && (tget t.streams s.stream).any fun c => c.augSlot == slot
  { t with
    programs := tput t.programs slot prog
    samples := t.samples.map fun s => if keeps s then { s with prog := some (old.getD []) } else s }

/-- MB_TH_AUG_LOAD (R302). -/
def mbThAugLoad : MbCmd :=
  { code := 0x0504
    fields := fun _ => [whole 0 1, whole 2 1, lowBits 3 1 1, whole 8 8]
    ranges := fun d b => [(0, decide (fld b 0 1 < 2)), (2, decide (fld b 2 1 < 32)), (8, inGddr d (fld b 8 8) 1)]
    conds := fun d b =>
      let loaded := thas (getTh d (fld b 0 1)).programs (fld b 2 1)
      [threshRetired d (fld b 0 1), (3, bit (fld b 3 1) 0 && !loaded), (4, !(bit (fld b 3 1) 0) && loaded)]
    run := fun _ b d =>
      let die := fld b 0 1
      match readImage d 8 (fld b 8 8) 64 (fun h => 64 + 8 * fld h 4 1) with
      | (d1, .error r) => refuseLoad d1 r evThLoadRefused (.streamPort die) 0
      | (d1, .ok img) => match augFault img with
        | some i => refuseLoad d1 (mbEnd rsImage i) evThLoadRefused (.streamPort die) 0
        | none =>
          (extendLog (modTh d1 die fun t => putAugProgram t (fld b 2 1) (augWords img)) 3 die (fld b 2 1) (slice img 32 32), mbOk) }

/-- Bytes of a vocabulary table of `n` entries: the entries, then the class table. -/
def vocabBytes (n : Nat) : Nat := 8 * n + 256

/-- What is wrong with a vocabulary table (Table 15.7): the first failing entry, or 0xFFFF for the class table. -/
def vocabFault (tbl : Bytes) (n : Nat) : Option Nat :=
  match (List.range n).find? fun i => if i < 256 then !(zeroAt tbl (8 * i) 8) else fld tbl (8 * i) 8 / 2 ^ 36 != 0 with
  | some i => some i
  | none => if (slice tbl (8 * n) 256).any fun x => 1 < x.toNat then some 0xFFFF else none

/-- A vocabulary from its table (R303). -/
def vocabOf (tbl : Bytes) (n : Nat) : Vocab :=
  { merges := (List.range (n - 256)).map fun i =>
      let e := fld tbl (8 * (256 + i)) 8
      (bits e 17 0, bits e 35 18)
    split := (List.range 256).filter fun i => fld tbl (8 * n + i) 1 == 1 }

/-- MB_TH_VOCAB (R303). -/
def mbThVocab : MbCmd :=
  { code := 0x0505
    fields := fun _ => [whole 0 1, whole 1 1, whole 8 8, whole 16 4]
    ranges := fun d b =>
      [(0, decide (fld b 0 1 < 2)), (1, decide (fld b 1 1 < 4)), (8, inGddr d (fld b 8 8) 1),
       (16, decide (256 ≤ fld b 16 4 ∧ fld b 16 4 ≤ 262144))]
    conds := fun d b =>
      let t := getTh d (fld b 0 1)
      [threshRetired d (fld b 0 1), (1, t.streams.any fun s => s.2.kind == 0x10 && s.2.vocab == fld b 1 1 && t.busy s.1)]
    run := fun _ b d =>
      let die := fld b 0 1
      let n := fld b 16 4
      match readImage d 8 (fld b 8 8) 1 (fun _ => vocabBytes n) with
      | (d1, .error r) => refuseLoad d1 r evThLoadRefused (.streamPort die) 0
      | (d1, .ok tbl) => match vocabFault tbl n with
        | some i => refuseLoad d1 (mbEnd rsImage i) evThLoadRefused (.streamPort die) 0
        | none =>
          (extendLog (modTh d1 die fun t => { t with vocabs := tput t.vocabs (fld b 1 1) (vocabOf tbl n) }) 5 die (fld b 1 1) (shake256 tbl),
           mbOk) }

/-! ## The fabric (R315, R317, R318, R320) -/

/-- A direction code that a port may have: its dimension is larger than 1, or it is unconnected (R317). -/
def directionOk (b : Bytes) (q : Nat) : Bool :=
  let dir := fld b (6 + q) 1
  dir == 7 || (decide (dir < 6) && fld b (2 + dir / 2) 1 != 1)

/-- Coordinates lie in the torus of a request. -/
def coordInside (b : Bytes) (c : Nat) : Bool := (List.range 3).all fun k => decide (bits c (5 * k + 4) (5 * k) < fld b (2 + k) 1)

/-- A retrain of a port is over for the mailbox that asked for it: it gets the record (R315). -/
def answerPort (d : Dev) (m : Option Nat) (q : Nat) : Dev := match m with
  | none => d
  | some m => answerMbx d m (mbOk (portRecord d q))

/-- Firmware retrains every port, one at a time (Table 15.7). -/
def retrainAll (d : Dev) (trained : List PortTrain) : Dev :=
  (List.range 6).foldl (fun d q => answerPort (trainPort d q (trained.getD q noLanes) false true) (getPort d q).mbx q) d

/-- The time parent is chosen anew; a device that finds none runs free (R323, R324). -/
def chooseParent (d : Dev) : Dev :=
  match pickParent d none, d.fabric.parent with
  | some q, _ => { d with fabric.parent := some q, fabric.holdover := false }
  | none, none => d
  | none, some q =>
    if d.fabric.coord = d.fabric.root then { d with fabric.parent := none, fabric.holdover := false }
    else logEvent { d with fabric.parent := none, fabric.holdover := true } evTimeHoldover (.port q) 0

/-- MB_FAB_CONFIG (R317): `trained` is what each port's retrain finds. -/
def mbFabConfig (trained : List PortTrain) : MbCmd :=
  { code := 0x0601
    fields := fun _ => [lowBits 0 2 15, whole 2 1, whole 3 1, whole 4 1] ++ ((List.range 6).map fun q => whole (6 + q) 1) ++ [lowBits 12 2 15]
    ranges := fun _ b =>
      [(0, coordInside b (fld b 0 2))] ++ ((List.range 3).map fun k => (2 + k, decide (1 ≤ fld b (2 + k) 1 ∧ fld b (2 + k) 1 ≤ 32))) ++
      ((List.range 6).map fun q => (6 + q, directionOk b q)) ++ [(12, coordInside b (fld b 12 2))]
    conds := fun d _ => [(1, !d.fabric.groups.isEmpty), (2, !d.fabric.borrows.isEmpty)]
    run := fun _ b d =>
      let d1 := { d with
        fabric.coord := BitVec.ofNat 16 (fld b 0 2)
        fabric.dims := (List.range 3).map fun k => fld b (2 + k) 1
        fabric.dirs := (List.range 6).map fun q => fld b (6 + q) 1
        fabric.root := BitVec.ofNat 16 (fld b 12 2) }
      (chooseParent (retrainAll d1 trained), mbOk) }

/-- A port is disabled: nothing goes by it, and what its replay buffer held is lost (R315). -/
def disablePort (d : Dev) (q : Nat) : Dev :=
  dropWaiting (refreshDetours (modPort d q fun p =>
    { retrains := p.retrains, replays := p.replays, waiting := p.waiting, pointer := p.pointer, peerUnsynced := p.peerUnsynced, st := 4 })) q

/-- MB_FAB_PORT (R315): `trained` is what training afresh finds; a retrain ends with PORT_RETRAIN_DONE. -/
def mbFabPort (trained : PortTrain) : MbCmd :=
  { code := 0x0602
    fields := fun _ => [whole 0 1, whole 1 1]
    ranges := fun _ b => [(0, decide (fld b 0 1 < 6)), (1, decide (fld b 1 1 < 3))]
    conds := fun d b => [(0xFF, dieRetired d (fld b 0 1 / 3)), (1, retrainBusy d)]
    run := fun m b d =>
      let q := fld b 0 1
      if fld b 1 1 = 0 then
        let d1 := trainPort d q trained true false
        (d1, mbOk (portRecord d1 q))
      else if fld b 1 1 = 1 then (beginRetrain d q false (some m), mbHeld)
      else
        let d1 := disablePort d q
        (d1, mbOk (portRecord d1 q)) }

/-- MB_FAB_STATUS (R318). -/
def mbFabStatus : MbCmd :=
  { code := 0x0603
    run := fun _ _ d => (d, mbOk ((List.range 6).flatMap (portRecord d))) }

/-- Fields of an exception entry are in range: a port or 7, and DL_SET not 0b11 (Table 12.5). -/
def routeEntryOk (e : Nat) : Bool := bits e 3 1 != 6 && bits e 28 26 != 6 && bits e 30 29 != 3

/-- MB_FAB_ROUTE (R320). -/
def mbFabRoute : MbCmd :=
  { code := 0x0604
    fields := fun raw => [whole 0 1, whole 1 1, { off := 2, len := 6, mask := 0 }] ++
      (List.range (fld raw 1 1)).map fun k => { off := 8 + 8 * k, len := 8, mask := 0x7FFFFF7F }
    ranges := fun _ b =>
      [(0, decide (fld b 0 1 < 192)), (1, decide (1 ≤ fld b 1 1 ∧ fld b 1 1 ≤ 192 ∧ fld b 0 1 + fld b 1 1 ≤ 192))] ++
      (List.range (fld b 1 1)).map fun k => (8 + 8 * k, routeEntryOk (fld b (8 + 8 * k) 8))
    run := fun _ b d =>
      let put (t : Table W64) (k : Nat) : Table W64 := tputD t (fld b 0 1 + k) (BitVec.ofNat 64 (fld b (8 + 8 * k) 8)) 0
      ({ d with fabric.exceptions := (List.range (fld b 1 1)).foldl put d.fabric.exceptions }, mbOk) }

/-! ## Groups (R325) -/

/-- A collective of a group is in flight on this device. -/
def collInFlight (d : Dev) (g : Nat) : Bool :=
  (opsInFlight d).any fun e => e.2.opcode == 0x0601 && !e.2.failedFetch && e.2.f 32 2 % 4096 == g

/-- The fields of a group's header and member entries are in range (Table 12.6). -/
def groupRangesOk (d : Dev) (h members : Bytes) : Bool :=
  let n := fld h 2 2
  let rc := fld h 11 1
  decide (fld h 0 2 < 4096) && decide (1 ≤ n ∧ n ≤ 32768) && decide (1 ≤ fld h 4 4 ∧ fld h 4 4 ≤ 65535) && decide (fld h 8 2 < n) &&
  decide (fld h 10 1 ≤ 1) && decide (rc < 8) && decide (rc % 4 ≤ 1) && zeroAt h 12 4 && decide (1000 ≤ fld h 16 8 ∧ fld h 16 8 ≤ 10 ^ 10) &&
  decide (10 ^ 6 ≤ fld h 24 8 ∧ fld h 24 8 ≤ 6 * 10 ^ 10) && fld h 32 8 % 4096 == 0 && inGddr d (fld h 32 8) (max 1 (fld h 40 8)) &&
  zeroAt h 48 16 && (List.range n).all fun k => let e := fld members (4 * k) 4; !(bit e 15) && e / 2 ^ 20 == 0

/-- The condition for which a group record is refused (R325). -/
def groupFault (d : Dev) (h members : Bytes) : Option Nat :=
  let g := groupOf h members
  let coords := g.members.map (·.1)
  if collInFlight d (fld h 0 2) then some 1
  else if !(coords.contains d.fabric.coord) then some 2
  else if coords.any fun c => 1 < (coords.filter (· == c)).length then some 3
  else if fld h 4 4 != g.places then some 4
  else if !(groupRangesOk d h members) then some 5
  else if coords.any fun c => !(routable d c 2) then some 6
  else none

/-- MB_GROUP_SET (R325). -/
def mbGroupSet : MbCmd :=
  { code := 0x0605
    fields := fun _ => [whole 0 8]
    ranges := fun d b => [(0, fld b 0 8 % 64 == 0 && inGddr d (fld b 0 8) 64)]
    run := fun _ b d =>
      match readMem d none (fld b 0 8) 64 with
      | (d1, .error st) => (d1, readRefused st 0)
      | (d1, .ok h) =>
        let n := 4 * fld h 2 2
        if !(inGddr d1 (fld b 0 8) (64 + n)) then (d1, mbEnd rsRange 0)
        else match readMem d1 none (fld b 0 8 + 64) n with
          | (d2, .error st) => (d2, readRefused st 0)
          | (d2, .ok members) => match groupFault d2 h members with
            | some i => (d2, mbEnd rsState i)
            | none => ({ d2 with fabric.groups := tput d2.fabric.groups (fld h 0 2) (groupOf h members) }, mbOk) }

/-- MB_GROUP_CLEAR (R325). -/
def mbGroupClear : MbCmd :=
  { code := 0x0606
    fields := fun _ => [whole 0 2]
    ranges := fun _ b => [(0, decide (fld b 0 2 < 4096))]
    conds := fun d b => match getGroup d (fld b 0 2) with
      | none => [(1, collInFlight d (fld b 0 2))]
      | some g => (groupFault d g.header g.entryBytes).toList.map fun i => (i, true)
    run := fun _ b d => ({ d with fabric.groups := tdel d.fabric.groups (fld b 0 2) }, mbOk) }

/-! ## Memory (R341, R342, R346, R348) -/

/-- MB_MEM_RECAL (R341). -/
def mbMemRecal : MbCmd :=
  { code := 0x0701
    fields := fun _ => [whole 0 1, whole 1 1, whole 2 1]
    ranges := fun _ b => [(0, decide (fld b 0 1 < 2)), (1, decide (fld b 1 1 < 12)), (2, decide (fld b 2 1 < 4))]
    conds := fun d b => [(0xFF, !((goodControllers d (fld b 0 1)).contains (fld b 1 1)))]
    run := fun _ b d =>
      let k := 48 * fld b 0 1 + 4 * fld b 1 1 + fld b 2 1
      if (tgetD d.mem.channels k {}).failed then (d, mbOk) else ({ d with mem.forced := k :: d.mem.forced.filter (· != k) }, mbOk) }

/-- MB_MEM_SCRUB (R342). -/
def mbMemScrub : MbCmd :=
  { code := 0x0702
    fields := fun _ => [whole 0 1]
    ranges := fun _ b => [(0, decide (1 ≤ fld b 0 1 ∧ fld b 0 1 ≤ 168))]
    run := fun _ b d => ({ d with mem.scrubHours := fld b 0 1 }, mbOk) }

/-- MB_MEM_HOSTMAP (R346): the entries are cached anew. -/
def mbMemHostmap : MbCmd :=
  { code := 0x0703
    fields := fun _ => [whole 0 8, whole 8 4]
    ranges := fun d b =>
      [(0, fld b 0 8 % 4096 == 0 && inGddr d (fld b 0 8) (8 * max 1 (min (fld b 8 4) 1048576))), (8, decide (fld b 8 4 ≤ 1048576))]
    run := fun _ b d =>
      let a := fld b 0 8
      let n := fld b 8 4
      ({ d with
          mem.hostTable := a
          mem.hostEntries := n
          mem.hostCells := d.mem.cells.filter fun c => decide (a ≤ c.1 ∧ c.1 < a + 8 * n) }, mbOk) }

/-- MB_MEM_LEND (R348). -/
def mbMemLend : MbCmd :=
  { code := 0x0704
    fields := fun _ => [whole 0 1, lowBits 2 2 15, whole 8 8, whole 16 8]
    ranges := fun d b =>
      let size := fld b 16 8
      [(0, decide (fld b 0 1 < 64)), (8, size == 0 || (fld b 8 8 % 2 ^ 21 == 0 && inGddr d (fld b 8 8) (min size (2 ^ 36)))),
       (16, size % 2 ^ 21 == 0 && decide (size ≤ 2 ^ 36))]
    run := fun _ b d =>
      let n := fld b 0 1
      let l : Lend := { base := fld b 8 8, size := fld b 16 8, borrower := BitVec.ofNat 16 (fld b 2 2) }
      ({ d with fabric.lends := if fld b 16 8 = 0 then tdel d.fabric.lends n else tput d.fabric.lends n l }, mbOk) }

/-- An address lies in a peer window. -/
def inWindow (w a : Nat) : Bool := decide (0x300000000000 + 0x1000000000 * w ≤ a ∧ a < 0x300000000000 + 0x1000000000 * (w + 1))

/-- The device addresses in a descriptor, where its opcode has them (Tables 2.3, 5.5, 7.3, 7.4, 8.5, 8.7, 11.8, 12.7, 13.5 and
14.5). -/
def Op.addresses (o : Op) : List Nat :=
  let set (l : List Nat) : List Nat := (l.map fun i => o.f i 8).filter (· != 0)
  (if o.statusEn then [o.statusAddr] else []) ++ (match o.opcode with
  | 0x0101 | 0x0102 => if o.drains then set [88, 96] ++ (if o.toChute then [] else [o.f 80 8]) else []
  | 0x0302 | 0x0303 => if bit (o.f 95 1) 5 then [] else [o.f 96 8]
  | 0x0401 => set [56] ++ (if bit (o.f 35 1) 1 then [] else [o.f 48 8])
  | 0x0402 => if bit (o.f 35 1) 1 then [] else [o.f 48 8]
  | 0x0404 | 0x0501 | 0x0705 | 0x0802 => [o.f 40 8]
  | 0x0601 => set [48, 64, 80, 88]
  | 0x0801 => [o.f 32 8, o.f 40 8]
  | _ => [])

/-- An operation in flight uses a peer window: its descriptor gives an address there, it has written there, its table's Cellar
lies there, or the Granary's store does (R348; DEDUCED, log 44). -/
def usesWindow (d : Dev) (w ring : Nat) (o : Op) : Bool :=
  (o.addresses ++ o.outs.map (·.1)).any (inWindow w) ||
  (match ringTarget d ring with
  | some (.badger t) => (tget (getBadger d t).tables (o.f 32 1)).any fun r => inWindow w (fld r 48 8)
  | some (.granary _) => d.granary.cfg.isSome && d.granary.win == w
  | _ => false)

/-- MB_MEM_BORROW (R348). -/
def mbMemBorrow : MbCmd :=
  { code := 0x0705
    fields := fun _ => [whole 0 1, lowBits 2 2 15, whole 4 1, whole 8 8]
    ranges := fun _ b =>
      [(0, decide (fld b 0 1 < 64)), (4, decide (fld b 4 1 < 64)), (8, fld b 8 8 % 2 ^ 21 == 0 && decide (fld b 8 8 ≤ 2 ^ 36))]
    conds := fun d b =>
      [(1, (opsInFlight d).any fun e => usesWindow d (fld b 0 1) e.1 e.2),
       (2, fld b 8 8 != 0 && !(routable d (BitVec.ofNat 16 (fld b 2 2))))]
    run := fun _ b d =>
      let w := fld b 0 1
      let x : Borrow := { lender := BitVec.ofNat 16 (fld b 2 2), lend := fld b 4 1, size := fld b 8 8 }
      ({ d with fabric.borrows := if fld b 8 8 = 0 then tdel d.fabric.borrows w else tput d.fabric.borrows w x }, mbOk) }

/-! ## The Granary and the Owl (R350, R351, R362, R363) -/

/-- Extents of a region entry's dimensions. -/
def regionExtents (r : Bytes) : List Nat := (List.range (min 6 (fld r 19 1))).map fun k => fld r (28 + 8 * k) 4

/-- BYTES of a DENSE or MX_SCALES region by its extents (R351). -/
def regionShapeBytes (r : Bytes) : Nat :=
  let e := regionExtents r
  if regionKind r = 3 then (e.dropLast.foldl (· * ·) 1) * (((e.getLast?).getD 0 + 31) / 32)
  else (e.foldl (· * ·) 1 * fmtBits (bits (fld r 22 2) 5 0) + 7) / 8

/-- Reserved and unused fields of a region entry are zero, and the others in range (Table 14.2). -/
def regionFieldsOk (r : Bytes) : Bool :=
  let n := fld r 19 1
  decide (1 ≤ fld r 8 8 ∧ fld r 8 8 ≤ 2 ^ 36) && decide (n ≤ 6) && decide (fld r 16 2 < 4096) && (regionKind r == 2 || fld r 16 2 == 0) &&
  bits (fld r 18 1) 6 2 == 0 && decide (fld r 20 2 < 4096) && zeroAt r (24 + 8 * n) (48 - 8 * n) && zeroAt r 72 56

/-- The ranges that a region covers: its own, or both buffers of its shard (R351). -/
def regionSpans (shards r : Bytes) : List (Nat × Nat) :=
  if regionKind r = 2 then
    let e := slice shards (64 * fld r 16 2) 64
    [(fld e 0 8, fld e 16 8), (fld e 8 8, fld e 16 8)]
  else [(fld r 0 8, fld r 8 8)]

/-- A region keeps R351, its overlap with others apart. -/
def regionOk (d : Dev) (win : Nat) (r : Bytes) : Bool :=
  let k := regionKind r
  regionFieldsOk r &&
  (if k = 2 then fld r 0 8 == 0 && decide (fld r 16 2 < d.steps.num.shardCount) && d.steps.num.shardAddr != 0
    else rangeMapped d (fld r 0 8) (fld r 8 8) false && !(inWindow win (fld r 0 8))) &&
  (if k = 0 then fld r 19 1 == 0 else k == 2 || (decide (1 ≤ fld r 19 1) && !(wordRefused (fld r 22 2)) && fld r 8 8 == regionShapeBytes r))

/-- No two regions overlap (R351). -/
def regionsApart (shards : Bytes) (regions : List Bytes) : Bool :=
  let spans := regions.zipIdx.flatMap fun e => (regionSpans shards e.1).map fun s => (e.2, s)
  spans.all fun x => spans.all fun y => x.1 == y.1 || decide (x.2.1 + x.2.2 ≤ y.2.1 ∨ y.2.1 + y.2.2 ≤ x.2.1)

/-- A GR_RESTORE or GR_VERIFY is in flight. -/
def granaryBusy (d : Dev) : Bool := (opsInFlight d).any fun e => (e.2.opcode == 0x0702 || e.2.opcode == 0x0703) && !e.2.failedFetch

/-- The configuration that a record and its tables make. -/
def granaryConfigured (d : Dev) (cfg shards : Bytes) (regions : List Bytes) : Granary :=
  { d.granary with
    cfg := some cfg
    regions := regions
    liveSel := regions.zipIdx.filterMap fun e =>
      if regionKind e.1 = 2 then some (e.2, fld (slice shards (64 * fld e.1 16 2) 64) 16 8, 0) else none
    written := [none, none]
    digests := [[], []]
    pages := []
    area := [] }

/-- The condition for which a Granary configuration is refused (R350). -/
def granaryFault (d : Dev) (cfg shards : Bytes) (regions : List Bytes) : Option Nat :=
  if !(regions.all (regionOk d (fld cfg 0 1))) || !(regionsApart shards regions) then some 2
  else if d.granary.st != .idle then some 3
  else if granaryBusy d then some 4
  else if fld cfg 16 8 < 65536 + 2 * (granaryConfigured d cfg shards regions).slotSize then some 5
  else none

/-- MB_GRANARY_CONFIG (R350). -/
def mbGranaryConfig : MbCmd :=
  { code := 0x0801
    fields := fun _ => [lowBits 0 1 6, whole 2 2, whole 4 4, whole 8 8, whole 16 8, whole 24 8, whole 32 2, whole 34 2, { off := 36, len := 28, mask := 0 }]
    ranges := fun d b =>
      [(2, decide (fld b 2 2 < 4096) || fld b 2 2 == 0xFFFF), (4, decide (fld b 4 4 ≤ 4096)),
       (8, fld b 8 8 % 128 == 0 && inGddr d (fld b 8 8) (128 * max 1 (min (fld b 4 4) 4096))),
       (16, fld b 16 8 % 65536 == 0 && decide (fld b 16 8 ≤ 2 ^ 36)), (24, areaOk d (fld b 24 8) 64 64),
       (34, decide (1 ≤ fld b 34 2 ∧ fld b 34 2 ≤ 8192))]
    run := fun _ b d =>
      match readMem d none (fld b 8 8) (128 * fld b 4 4) with
      | (d1, .error st) => (d1, readRefused st 8)
      | (d1, .ok tbl) => match readTable d1 d1.steps.num.shardAddr d1.steps.num.shardCount with
        | (d2, .error st) => (d2, readRefused st 8)
        | (d2, .ok shards) =>
          let regions := (List.range (fld b 4 4)).map fun i => slice tbl (128 * i) 128
          let cfg := slice b 0 64
          match granaryFault d2 cfg shards regions with
          | some i => (d2, mbEnd rsState i)
          | none =>
            let g := granaryConfigured d2 cfg shards regions
            ({ d2 with granary := g }, mbOk (leBytes 8 g.slotSize)) }

/-- MB_OWL_CONFIG (R362). -/
def mbOwlConfig : MbCmd :=
  { code := 0x0802
    fields := fun _ => [whole 0 2, whole 2 2, whole 4 4] ++ (List.range 64).map fun k => { off := 8 + 8 * k, len := 8, mask := 0xFF1FFFFFFFFF }
    ranges := fun _ b =>
      [(0, decide (1 ≤ fld b 0 2 ∧ fld b 0 2 ≤ 1023)), (2, decide (fld b 2 2 < fld b 0 2))] ++
      (List.range 64).map fun k => (8 + 8 * k, bits (fld b (8 + 8 * k) 8) 13 12 != 3)
    run := fun _ b d =>
      ({ d with
          owl.snapAt := fld b 0 2
          owl.rearm := fld b 2 2
          owl.minGapMs := fld b 4 4
          owl.rules := (List.range 64).map fun k => BitVec.ofNat 64 (fld b (8 + 8 * k) 8)
          owl.counters := List.replicate 64 0 }, mbOk) }

/-- MB_OWL_STATUS (R363). -/
def mbOwlStatus : MbCmd :=
  { code := 0x0803
    run := fun _ _ d => (d, mbOk (leBytes 2 d.owl.estimate ++ leBytes 6 0 ++ d.owl.counters.flatMap (leBytes 4))) }

def execMbThPort (m trained : Nat) (s : State) : Out := mbxAct (mbThPort trained) m s
def execMbThStream (m : Nat) (s : State) : Out := mbxAct mbThStream m s
def execMbThClass (m : Nat) (s : State) : Out := mbxAct mbThClass m s
def execMbThAugLoad (m : Nat) (s : State) : Out := mbxAct mbThAugLoad m s
def execMbThVocab (m : Nat) (s : State) : Out := mbxAct mbThVocab m s
def execMbFabConfig (m : Nat) (trained : List PortTrain) (s : State) : Out := mbxAct (mbFabConfig trained) m s
def execMbFabPort (m : Nat) (trained : PortTrain) (s : State) : Out := mbxAct (mbFabPort trained) m s
def execMbFabStatus (m : Nat) (s : State) : Out := mbxAct mbFabStatus m s
def execMbFabRoute (m : Nat) (s : State) : Out := mbxAct mbFabRoute m s
def execMbGroupSet (m : Nat) (s : State) : Out := mbxAct mbGroupSet m s
def execMbGroupClear (m : Nat) (s : State) : Out := mbxAct mbGroupClear m s
def execMbMemRecal (m : Nat) (s : State) : Out := mbxAct mbMemRecal m s
def execMbMemScrub (m : Nat) (s : State) : Out := mbxAct mbMemScrub m s
def execMbMemHostmap (m : Nat) (s : State) : Out := mbxAct mbMemHostmap m s
def execMbMemLend (m : Nat) (s : State) : Out := mbxAct mbMemLend m s
def execMbMemBorrow (m : Nat) (s : State) : Out := mbxAct mbMemBorrow m s
def execMbGranaryConfig (m : Nat) (s : State) : Out := mbxAct mbGranaryConfig m s
def execMbOwlConfig (m : Nat) (s : State) : Out := mbxAct mbOwlConfig m s
def execMbOwlStatus (m : Nat) (s : State) : Out := mbxAct mbOwlStatus m s

end Sys2Proof.Machine
end

