-- ==== Sys2Proof/Machine/Power.lean ====
section
/-! DEFINITION. Power, bring-up, throttling, heat and the Reeve; Iabor heartbeats and watchdogs; the training record (15 R379,
R391; 16 R401 to R418; 18 R441). -/

namespace Sys2Proof.Machine

/-! ## Power domains (R407, R411) -/

/-- A power domain belongs to a retired unit only: it stays off (R407, R411, Table 16.4). -/
def domainRetired (d : Dev) (n : Nat) : Bool :=
  if n < 128 then tileRetired d (n % 64)
  else if n < 136 then
    let die := (n - 128) / 4
    let g := (n - 128) % 4
    (List.range 3).all fun k => !((goodControllers d die).contains (3 * g + k))
  else if n < 142 then dieRetired d ((n - 136) / 3)
  else if n < 144 then dieRetired d (n - 142)
  else if n < 152 then
    -- DC2 keeps its domain on a live die, as it holds the batch packer
    dieRetired d ((n - 144) / 4) || (n % 4 != 2 && d.units.decoders.getD (n - 144) 0 == 0)
  else if n = 153 then dieRetired d 1
  else if n = 154 then bridgeLost d
  else if n = 155 then dieRetired d 1
  else false

/-- The domains of retired units are switched off (R407). -/
def dropRetired (d : Dev) : Dev :=
  { d with power.domains := d.power.domains.zipIdx.map fun e => if domainRetired d e.2 then .off else e.1 }

/-- Every domain that is not retired is powered (Table 16.1, phase C). -/
def powerAll (d : Dev) : Dev :=
  { d with power.domains := (List.range 157).map fun n => if domainRetired d n then .off else .on }

/-! ## Power on and off (R401, R416, R418, R441) -/

/-- What the fuses say of the units, with logical hamlets as they assign them (R4, R406). -/
def UnitMap.fused (u : UnitMap) : UnitMap :=
  (assignHamlets { units := { fuseHamlet := u.fuseHamlet, fuseLanes := u.fuseLanes, fuseCores := u.fuseCores, fuseRepairs := u.fuseRepairs } }).units

/-- A device that has lost its state with its power: the fuses and the flash stay, and what lies outside the device. -/
def unpoweredDev (d : Dev) : Dev :=
  { units := d.units.fused
    flash := { d.flash with trainedAt := 0 }
    out := d.out
    mem := { host := d.mem.host, remote := d.mem.remote }
    power := { on := false, tripLatched := d.power.tripLatched, perst := d.power.perst, reference := d.power.reference, domains := List.replicate 157 .off }
    counters := { evictions := d.counters.evictions }
    draws := d.draws }

/-- POWER_ON (R441): phase A begins, unless a thermal trip is latched (R418). -/
def powerOn (d : Dev) : Dev :=
  if d.power.on || d.power.tripLatched then d
  else
    let u := unpoweredDev d
    { u with power := { perst := d.power.perst, reference := d.power.reference } }

/-- POWER_LOSS (R416). -/
def powerLoss (d : Dev) : Dev := if d.power.on then unpoweredDev d else d

/-- THERMAL_TRIP (R418): a die sensor at 115 °C or above. -/
def thermalTrip (temp : Int) (d : Dev) : Dev :=
  if d.power.on && decide (115 ≤ temp) then
    let u := unpoweredDev d
    { u with power.tripLatched := true }
  else d

/-- TRIP_RELEASE (R418). -/
def tripRelease (d : Dev) : Dev := if d.power.on then d else { d with power.tripLatched := false }

/-! ## Units that start-up retires (R407, R408) -/

/-- A unit is reported: the unit, the phase and the failing test (R408). -/
def reportRetired (phase : Nat) (d : Dev) (src : Source) : Dev :=
  let test := (Config.failingTest (sourceDie d src) src.code).toNat
  logEvent { d with power.retiredAny := true } evUnitRetired src (src.code + phase * 2 ^ 16 + test * 2 ^ 20)

/-- The Mill of a hamlet's M-tile stands for the hamlet, by its logical number (R17). -/
def hamletSource (d : Dev) (die p : Nat) : Source := .engine (32 * die + 3 * ((logicalHamlets d die).findIdx (· == p))) 0

/-- The units of the east die that still work, reported when the whole die is retired (R29, R407). -/
def eastUnits (d : Dev) : List Source :=
  ((List.range 9).filter (hamletGood d 1)).map (hamletSource d 1) ++
  ((List.range 5).filter fun k => !(tileRetired d (59 + k))).map (fun k => .engine (59 + k) 0) ++
  (goodControllers d 1).map (.mc 1) ++ (List.range 3).map (fun q => .port (3 + q)) ++ [.streamPort 1] ++
  ((List.range 4).filter fun c => d.units.decoders.getD (4 + c) 0 != 0).map (.decoder 1) ++ [.ctl 1]

/-- Findings of bad Iabor cores of dies that still work (R407). -/
def iaborLosses (d : Dev) (found : Findings) : List (Nat × Nat) :=
  found.iabor.filter fun f => decide (f.1 < 2 ∧ 1 ≤ f.2) && !(dieRetired d f.1)

/-- The map without the Iabor cores that were found bad; bad cores of the east die retire that die (R407). -/
def loseCores (found : Findings) (d : Dev) : Dev :=
  (iaborLosses d found).foldl (fun d f => { d with units.iabor := modAt d.units.iabor f.1 (· - f.2) }) d

/-- A finding of bad Iabor cores is reported: those of the west die, and every unit of an east die that they retire, `east`
being those that worked before (R407, R408). -/
def reportCores (phase : Nat) (found : Findings) (before : Dev) (d : Dev) : Dev :=
  let d2 := ((iaborLosses before found).filter fun f => f.1 == 0).foldl (fun d _ => reportRetired phase d (.ctl 0)) d
  if dieRetired d 1 && !(dieRetired before 1) then (eastUnits before).foldl (reportRetired phase) d2 else d2

/-- A finding of bad Iabor cores (R407): those of the west die leave the boot ROM, those of the east die retire that die. -/
def iaborFindings (phase : Nat) (found : Findings) (d : Dev) : Dev := reportCores phase found d (loseCores found d)

/-- No image can start, or a west Iabor core is bad: the boot ROM serves mailbox 0 (R391, R402, R407). -/
def enterRom (d : Dev) : Dev :=
  { d with
    power.noFw := true
    power.phase := 2
    iabor.up := false
    iabor.mbx := d.iabor.mbx.zipIdx.map fun e => if e.2 = 0 then e.1 else { e.1 with st := .noFirmware } }

/-! ## Phases A to E -/

/-- A speed in GT/s and a width at which the host link runs (R422). -/
def linkRuns (speed width : Nat) : Bool := [64, 32, 16, 8, 5, 2].contains speed && [8, 4, 2, 1].contains width

/-- Phase A ends: configuration space and the lifeline page are served from now on, over the link as it has first trained
(R422). -/
def endPhaseA (found : Findings) (d : Dev) : Dev :=
  let d1 := { d with power.phase := 2, power.bootFrom := deviceTime d }
  if linkRuns found.link.1 found.link.2 then { d1 with host.speed := found.link.1, host.width := found.link.2 } else d1

/-- A TRIAL slot found at power-on becomes STAGED (R391). -/
def discardTrial (d : Dev) : Dev :=
  (List.range 2).foldl (fun d k =>
    if (fwSlot d k).st = 2 then logEvent (modSlot d k fun s => { s with st := 1 }) evFwTrialDiscarded (.core 0 0) 0 else d) d

/-- The image in a slot starts (R391). -/
def startImage (d : Dev) (k : Nat) : Dev := { d with power.phase := 3, iabor.running := k, iabor.up := true }

/-- Phase B ends (R391): the preferred committed image starts, or the other committed one, or the ROM serves mailbox 0. -/
def endPhaseB (found : Findings) (d0 : Dev) : Dev :=
  let d := iaborFindings 2 found (discardTrial d0)
  if d.units.iabor.getD 0 4 < 4 then enterRom d
  else
    let committed (k : Nat) : Bool := (fwSlot d k).st == 3
    let k := if (fwSlot d 1).preferred && !(fwSlot d 0).preferred then 1 else 0
    if committed k && found.imageOk && (slotFault d k).isNone then startImage d k
    else if committed (1 - k) && found.otherOk && (slotFault d (1 - k)).isNone then
      logEvent (startImage d (1 - k)) evFwFallback (.core 0 0) 0
    else enterRom d

/-- Phase C ends: every domain that is not retired is on. -/
def endPhaseC (d : Dev) : Dev := powerAll { d with power.phase := 4 }

/-- Words that a phase tests and zeroes: `sram` for those of tile SRAM and Loom instruction memory, else those of GDDR7. -/
def zeroMemory (sram : Bool) (d : Dev) : Dev :=
  let inSram (a : Nat) : Bool := decide (0x100000000000 ≤ a)
  let mark (k : Nat) : Bool := decide ((2 ^ 40 ≤ k ∧ k < 2 ^ 44) ∨ (2 ^ 48 ≤ k ∧ k < 2 ^ 49))
  { d with
    mem.cells := d.mem.cells.filter fun c => inSram c.1 != sram
    mem.flips := d.mem.flips.filter fun e => mark e.1 != sram }

/-- Sums of the rows and of the columns of repairs. -/
def repairSums (l : List MacroRepair) : Nat × Nat := l.foldl (fun n m => (n.1 + m.rows, n.2 + m.cols)) (0, 0)

/-- A macro has more defects, fused and found, than its 8 spare rows and 2 spare columns cover (R333, R407). -/
def macroSpent (d : Dev) (found : Findings) (m : MacroRepair) : Bool :=
  let all := (d.units.fuseRepairs ++ found.macros).filter fun k => k.tile == m.tile && k.macroNo == m.macroNo
  decide (8 < (repairSums all).1) || decide (2 < (repairSums all).2)

/-- Hamlets of phase D's findings that are neither retired yet nor off, those with a macro beyond repair among them (R16,
R333). -/
def badHamlets (d : Dev) (found : Findings) : List (Nat × Nat) :=
  let spent := (found.macros.filter fun m => decide (m.tile % 32 < 27) && macroSpent d found m).map fun m => (m.tile / 32, m.tile % 32 / 3)
  ((found.hamlets ++ spent).filter fun h => decide (h.1 < 2 ∧ h.2 < 9) && hamletGood d h.1 h.2).eraseDups

/-- B- and Q-tiles of phase D's findings that are not retired yet, those with a macro beyond repair among them (R21, R333). -/
def badTiles (d : Dev) (found : Findings) : List Nat :=
  let spent := (found.macros.filter fun m => decide (27 ≤ m.tile % 32) && macroSpent d found m).map (·.tile)
  ((found.tiles ++ spent).filter fun t => decide (t < 64 ∧ 27 ≤ t % 32) && !(tileRetired d t)).eraseDups

/-- Spare rows and columns in use in each tile, as `TILE_SRAM_ERR` shows them: at most 0xFF (R333, Table 13.4). -/
def countSpares (d : Dev) : Dev :=
  (List.range 64).foldl (fun d t =>
    let n := repairSums ((d.units.fuseRepairs ++ d.units.testRepairs).filter fun m => m.tile == physTile d t)
    if n = (0, 0) then d
    else { d with mem.sramErr := tput d.mem.sramErr t { tgetD d.mem.sramErr t {} with
      rows := BitVec.ofNat 8 (min 255 n.1), cols := BitVec.ofNat 8 (min 255 n.2) } }) d

/-- Decoder clusters that a finding leaves with no core. -/
def deadClusters (d : Dev) : List Nat := (List.range 8).filter fun c => d.units.decoders.getD c 0 == 0

/-- The effective map after phase D (R333, R407): units found bad are retired, spares go to what they can repair, and a cluster
keeps the cores that neither fuses nor the test retire, eight at most. -/
def mergeFindings (found : Findings) (d : Dev) : Dev :=
  { d with
    units.testHamlets := d.units.testHamlets ++ (badHamlets d found).map fun h => h.1 * 9 + h.2
    units.testTiles := d.units.testTiles ++ badTiles d found
    units.testRepairs := d.units.testRepairs ++ found.macros.filter fun m => !(macroSpent d found m)
    units.decoders := d.units.decoders.zipIdx.map fun e =>
      let bad := (found.decoders.filter fun f => f.1 == e.2).foldl (fun n f => n + f.2) 0
      min e.1 (9 - d.units.fuseCores.getD e.2 0 - bad) }

/-- Phase D ends (R407, R408): bad units are retired, hamlets get their logical numbers, and every SRAM word is zero. Each unit
is named by the numbers assigned then. -/
def endPhaseD (found : Findings) (d : Dev) : Dev :=
  let merged := mergeFindings found { d with power.phase := 5 }
  let order := (assignHamlets (loseCores found merged)).units.order
  let before := { merged with units.order := order }
  let d1 := loseCores found before
  let d2 := (badHamlets d found).foldl (fun d h => reportRetired 4 d (hamletSource d h.1 h.2)) d1
  let d3 := (badTiles d found).foldl (fun d t => reportRetired 4 d (.engine t 0)) d2
  let d4 := (deadClusters d3).foldl (fun d c => reportRetired 4 d (.decoder (c / 4) (c % 4))) d3
  let d5 := zeroMemory true (dropRetired (countSpares (reportCores 4 found before d4)))
  if d5.units.iabor.getD 0 4 < 4 then enterRom d5 else d5

/-- Units whose saved values failed the short check of a warm start are named (R405). -/
def rejectSaved (found : Findings) (d : Dev) : Dev :=
  if !d.flash.trained then d
  else found.savedRejected.foldl (fun d u => logEvent d evTrainSavedRejected (.unit u.1 u.2) 0) d

/-- Phase E ends (R29, R402): gateways that failed are retired, with the east die where all have; phase F begins, from the saved
settings where a record is valid. -/
def endPhaseE (found : Findings) (d0 : Dev) : Dev :=
  let d := rejectSaved found d0
  let lost := (found.gateways.filter fun g => decide (g < 6) && !(d.units.gateways.contains g)).eraseDups
  let d1 := { d with power.phase := 6, power.warm := d.flash.trained, units.gateways := d.units.gateways ++ lost }
  let d2 := lost.foldl (fun d g => reportRetired 5 d (.gateway g)) d1
  let d3 := if dieRetired d1 1 && !(dieRetired d 1) then (eastUnits d).foldl (reportRetired 5) d2 else d2
  dropRetired d3

/-! ## Phases F to H -/

/-- The rate at which a device runs: a multiple of 4 from 28 to 48 Gbit/s, or 0 (R336). -/
def trainedRate (r : Nat) : Nat := if r < 28 then 0 else min 48 (r / 4 * 4)

/-- A controller has trained (R336). -/
def trainController (d : Dev) (c rate : Nat) : Dev :=
  let die := c / 12
  if 24 ≤ c || !((goodControllers d die).contains (c % 12)) then d
  else
    let r := trainedRate rate
    let d1 := { d with units.gddrRate := d.units.gddrRate.set c r }
    if r = 0 then reportRetired 6 d1 (.mc die (c % 12))
    else if r < 48 then logEvent d1 evGddrSlow (.mc die (c % 12)) r
    else d1

/-- Every channel of a good controller has just been calibrated (R341). -/
def calibrateAll (d : Dev) : Dev :=
  { d with mem.channels := (List.range 96).filterMap fun k =>
      if (goodControllers d (k / 48)).contains (k % 48 / 4) then
        some (k, { at_ := deviceTime d, temp := d.power.gddrTemp.getD (12 * (k / 48) + k % 48 / 4) 0 })
      else none }

/-- Phase F ends (R336). -/
def endPhaseF (found : Findings) (d : Dev) : Dev :=
  calibrateAll (dropRetired (found.gddr.foldl (fun d f => trainController d f.1 f.2) { rejectSaved found d with power.phase := 7 }))

/-- Whole seconds since the end of phase A, or as the count stopped at ready (Table 16.2). -/
def bootElapsed (d : Dev) : Nat := min 65535 (d.power.elapsedStop.getD ((deviceTime d - d.power.bootFrom) / 1000000000))

/-- The state of the Reeve (Table 16.7): the last in table order whose condition holds. -/
def reeveState (d : Dev) : Nat :=
  if d.power.shed then 4
  else if d.power.thermal.any (0 < ·) then 3
  else if 0 < d.power.level then 2
  else if d.power.ready then 1
  else 0

/-- The Reeve writes its state to the lifeline page (R430). -/
def writeReeve (d : Dev) : Dev := { d with iabor.reeve := reeveState d }

/-- The device is ready (R401 to R404). -/
def becomeReady (d : Dev) : Dev :=
  let n := bootElapsed d
  let d1 := { d with
    power.phase := 0xF
    power.ready := true
    power.elapsedStop := some n
    power.readyAt := deviceTime d
    power.recordDue := !d.power.warm }
  writeReeve (setCause (logEvent d1 evReady (.core 0 0) (ofBool d.power.warm + 2 * n)) 0)

/-- Phase G ends, once phase H has (R401, R407): bad controllers are retired, GDDR7 is zero, and the device is ready. -/
def endPhaseG (found : Findings) (d : Dev) : Dev :=
  if !d.power.phaseH then d
  else
    let bad := (found.gddrBad.filter fun c => decide (c < 24) && (goodControllers d (c / 12)).contains (c % 12)).eraseDups
    let d1 := bad.foldl (fun d c => reportRetired 7 { d with units.gddrRate := d.units.gddrRate.set c 0 } (.mc (c / 12) (c % 12))) d
    becomeReady (zeroMemory false (dropRetired d1))

/-- Phase H ends (R283, R314, R323): ports and stream ports have trained, and the time base steps to its parent's. -/
def endPhaseH (found : Findings) (d : Dev) : Dev :=
  let d1 := (List.range 6).foldl (fun d q =>
    if dieRetired d (q / 3) then d else trainPort d q (found.ports.getD q noLanes) true false) (rejectSaved found d)
  let d2 := (List.range 2).foldl (fun d die => if dieRetired d die then d else trainStream d die (found.streams.getD die 0)) d1
  let d3 := { d2 with power.phaseH := true }
  match d3.fabric.parent, found.parentTime with
  | some _, some t =>
    if d3.fabric.locked then d3
    else { d3 with clock.offset := d3.clock.offset + ((t : Int) - deviceTime d3), fabric.locked := true }
  | _, _ => d3

/-- The 100 MHz reference as a phase up to C meets it (R442); later phases run on PLLs that have locked. -/
def seeReference (found : Findings) (d : Dev) : Dev :=
  if d.power.phase.toNat ≤ 3 then { d with power.reference := found.reference } else d

/-- BRINGUP_PHASE_DONE (R401, R402): phase H is what ends when six ports are reported beside phase F or G. From phase C on
firmware carries the sequence; under the boot ROM it stands still. Without its reference phase C cannot lock and does not end
(R442). -/
def bringupPhaseDone (found : Findings) (d0 : Dev) : Dev :=
  let d := seeReference found d0
  if d.power.phase = 1 then endPhaseA found d
  else if d.power.phase = 2 then (if d.power.noFw then d else endPhaseB found d)
  else if !(firmwareRuns d 0) then d
  else if d.power.phase = 3 then (if d.power.reference then endPhaseC d else d)
  else if d.power.phase = 4 then endPhaseD found d
  else if d.power.phase = 5 then endPhaseE found d
  else if (d.power.phase = 6 || d.power.phase = 7) && found.ports.length = 6 && !d.power.phaseH then endPhaseH found d
  else if d.power.phase = 6 then endPhaseF found d
  else if d.power.phase = 7 then endPhaseG found d
  else d

/-! ## The training record (R404) -/

/-- The record is written (R404). -/
def writeRecord (d : Dev) : Dev := { d with flash.trained := true, flash.trainedAt := deviceTime d }

/-- TRAINING_RECORD_WRITE (R404): the background write after a cold start completes. -/
def trainingRecordWrite (d : Dev) : Dev :=
  if d.power.recordDue && firmwareRuns d 0 then { writeRecord d with power.recordDue := false } else d

/-! ## The fast limiter and the power limit (R415, R416) -/

/-- FAST_LIMIT_ENGAGE (R415). -/
def fastLimitEngage (d : Dev) : Dev :=
  if d.power.fastLimit then d else logEvent { d with power.fastLimit := true } evPowerFastLimit (.core 0 0) 0

/-- FAST_LIMIT_RELEASE (R415). -/
def fastLimitRelease (d : Dev) : Dev := { d with power.fastLimit := false }

/-- The sum of a list. -/
def sumOf (l : List Nat) : Nat := l.foldl (· + ·) 0

/-- The power level after a sample of 100 µs (R416): up by 1 above LIMIT_W, down by 1 every ten samples below 95 % of it. -/
def powerLevels (d : Dev) : Dev :=
  let n := d.power.window.length
  let total := sumOf d.power.window
  let limit := d.power.limitW * 1000 * n
  if limit < total then { d with power.level := min 56 (d.power.level + 1), power.lowerTick := 0 }
  else if 100 * total < 95 * limit then
    if 10 ≤ d.power.lowerTick + 1 then { d with power.level := d.power.level - 1, power.lowerTick := 0 }
    else { d with power.lowerTick := d.power.lowerTick + 1 }
  else { d with power.lowerTick := 0 }

/-- REEVE_POWER_MEASURE (R416): a sample of the input, in mV and mA. -/
def reevePowerMeasure (mv ma : Nat) (d : Dev) : Dev :=
  if !(firmwareRuns d 0) then d
  else
    let mw := mv * ma / 1000
    writeReeve (powerLevels { d with
      power.inputMv := mv
      power.inputMa := ma
      power.lastMs := (mw :: d.power.lastMs).take 10
      power.peakMw := max d.power.peakMw mw
      power.window := (mw :: d.power.window).take (10 * d.power.tauMs) })

/-! ## Heat (R417) -/

/-- The largest of some temperatures. -/
def hottest (l : List Int) : Int := match l with
  | [] => 0
  | x :: r => r.foldl max x

/-- The sensor of each tile: one for each hamlet, read at its M-tile's place, and one for each commons tile (R417). -/
def tileSensors (temps : List Int) : List Int :=
  (List.range 64).map fun t => temps.getD (if 27 ≤ t % 32 then t else t - t % 32 % 3) 0

/-- The hottest sensor of a core branch. -/
def branchTemp (d : Dev) (b : Nat) : Int :=
  hottest (((List.range 64).filter fun t => tileBranch d t == some b).map fun t => d.power.tileTemp.getD t 0)

/-- The thermal level and its count of samples of a branch after a sample (R417). -/
def thermalNext (d : Dev) (b : Nat) : Nat × Nat :=
  let t := branchTemp d b
  let l := d.power.thermal.getD b 0
  let k := d.power.coolTick.getD b 0
  if (d.power.tThrottle : Int) ≤ t then (min 56 (l + 4), 0)
  else if t ≤ (d.power.tThrottle : Int) - 3 then (if 10 ≤ k + 1 then (l - 1, 0) else (l, k + 1))
  else (l, 0)

/-- SHED is entered at 105 °C on a die sensor or 100 °C on a GDDR7 device, and left once every sensor is 5 °C below (R417). -/
def shedNext (d : Dev) : Dev :=
  let die := hottest d.power.tileTemp
  let gddr := hottest d.power.gddrTemp
  if !d.power.shed && (decide (105 ≤ die) || decide (100 ≤ gddr)) then
    setCause (logEvent { d with power.shed := true } evThermalShed (.core 0 0) 0) 5
  else if d.power.shed && decide (die ≤ 100) && decide (gddr ≤ 95) then { d with power.shed := false }
  else d

/-- TEMP_SAMPLE (R417): the sensors of 64 tiles and 24 GDDR7 devices. -/
def tempSample (tiles gddr : List Int) (d : Dev) : Dev :=
  if tiles.length != 64 || gddr.length != 24 then d
  else
    let d1 := { d with power.tileTemp := tileSensors tiles, power.gddrTemp := gddr }
    if !(firmwareRuns d 0) then d1
    else
      let next := (List.range 20).map (thermalNext d1)
      writeReeve (shedNext { d1 with power.thermal := next.map (·.1), power.coolTick := next.map (·.2) })

/-! ## Heartbeats and watchdogs (R379) -/

/-- A cluster with `f` applied. -/
def modCluster (d : Dev) (die : Nat) (f : Cluster → Cluster) : Dev := { d with iabor.clusters := modAt d.iabor.clusters die f }

/-- HEARTBEAT (R379): once every 1 ms. -/
def heartbeat (die : Nat) (d : Dev) : Dev :=
  let c := d.iabor.clusters.getD die {}
  if firmwareRuns d die && c.lastBeat.all (fun t => decide (t + 1000000 ≤ deviceTime d)) then
    modCluster d die fun c => { c with beats := c.beats + 1, lastBeat := some (deviceTime d) }
  else d

/-- Device time since which a cluster has been silent. -/
def silentSince (d : Dev) (die : Nat) : Nat :=
  let c := d.iabor.clusters.getD die {}
  max d.power.bootFrom (max (c.lastBeat.getD 0) c.watchFrom)

/-- Every command that is BUSY is answered INTERRUPTED, and nothing answers it later (R379, Table 15.6). -/
def interruptAll (d : Dev) : Dev :=
  { d with
    iabor.mbx := d.iabor.mbx.map fun b => if b.st = .busy then { b with answer := some (mbEnd rsInterrupted) } else b
    hub.rings := d.hub.rings.map fun e => (e.1, { e.2 with destroyers := [] })
    fabric.ports := d.fabric.ports.map fun p => { p with mbx := none }
    seq.migration := d.seq.migration.map fun g => { g with mbx := 8 } }

/-- The die that a power domain lies on (Table 16.4). -/
def domainDie (n : Nat) : Nat :=
  if n < 128 then n % 64 / 32
  else if n < 136 then (n - 128) / 4
  else if n < 142 then (n - 136) / 3
  else if n < 144 then n - 142
  else if n < 152 then (n - 144) / 4
  else if n = 153 || n = 155 then 1
  else 0

/-- The migration in progress leaves a tile of the east die, or goes to one. -/
def eastMigration (d : Dev) : Bool :=
  d.seq.migration.any fun g => 32 ≤ g.dest || (tget d.seq.stages g.stage).any fun s => decide (32 ≤ s.tile)

/-- A request names a unit of the east die, so that west core 1 passes it on, in whole or in part (R379, Tables 15.1, 15.7). -/
def namesEast (d : Dev) (b : Mailbox) : Bool :=
  let f (i n : Nat) : Nat := fld b.req (16 + i) n
  match b.code with
  | 0x0101 => (targetOf (f 2 2 % 4096)).any fun t => t.die == 1
  | 0x0103 => decide (32 ≤ f 0 1) || decide (32 ≤ f 2 1 ∧ f 2 1 < 64) || f 2 1 == 0x41
  | 0x0104 | 0x0201 | 0x0202 | 0x0203 | 0x0204 => decide (32 ≤ f 0 1)
  | 0x0401 => decide (32 ≤ f 1 1)
  | 0x0405 => eastMigration d || decide (32 ≤ f 1 1)
  | 0x0501 | 0x0502 | 0x0503 | 0x0504 | 0x0505 | 0x0701 | 0x0A01 => f 0 1 == 1
  | 0x0601 => true
  | 0x0602 => decide (3 ≤ f 0 1)
  | 0x0902 => domainDie (f 0 2) == 1
  | 0x0A02 => if f 0 1 = 0 then decide (32 ≤ f 1 1) else f 1 1 == 1
  | _ => false

/-- The east cluster alone is reset: what was passed on to it and has not completed is interrupted, and nothing answers it
later (R379). -/
def interruptEast (d : Dev) : Dev :=
  { d with
    iabor.mbx := d.iabor.mbx.map fun b =>
      if b.st = .busy && b.answer.isSome && namesEast d b then { b with answer := some (mbEnd rsInterrupted) } else b
    fabric.ports := d.fabric.ports.zipIdx.map fun p => if 3 ≤ p.2 then { p.1 with mbx := none } else p.1
    seq.migration := d.seq.migration.map fun g => if eastMigration d then { g with mbx := 8 } else g }

/-- IABOR_WATCHDOG_EXPIRY (R379): a cluster silent for 250 ms, outside a switch, is reset; at the third reset within 10 s it
stays halted. -/
def iaborWatchdogExpiry (die : Nat) (d : Dev) : Dev :=
  if !(firmwareRuns d die) || 2 ≤ die || deviceTime d < silentSince d die + 250000000 then d
  else
    let now := deviceTime d
    let recent := (d.iabor.clusters.getD die {}).resets.filter fun t => decide (now < t + 10000000000)
    let halts := decide (2 ≤ recent.length)
    let d1 := setCause (logEvent (modCluster d die fun c => { c with resets := now :: recent, halted := halts, watchFrom := now }) evIaborRestart (.core die 0) 0) 4
    let d2 := if die = 0 then interruptAll d1 else interruptEast d1
    if halts then
      { d2 with iabor.mbx := d2.iabor.mbx.map fun b => { b with st := .noFirmware, answer := none } }
    else d2

/-! ## The rows -/

/-- POWER_ON. -/
def execPowerOn (s : State) : Out := act s powerOn
/-- POWER_LOSS. -/
def execPowerLoss (s : State) : Out := act s powerLoss
/-- BRINGUP_PHASE_DONE. -/
def execBringupPhaseDone (found : Findings) (s : State) : Out := act s (live (bringupPhaseDone found))
/-- TRAINING_RECORD_WRITE. -/
def execTrainingRecordWrite (s : State) : Out := act s (live trainingRecordWrite)
/-- THERMAL_TRIP. -/
def execThermalTrip (temp : Int) (s : State) : Out := act s (thermalTrip temp)
/-- TRIP_RELEASE. -/
def execTripRelease (s : State) : Out := act s tripRelease
/-- FAST_LIMIT_ENGAGE. -/
def execFastLimitEngage (s : State) : Out := act s (live fastLimitEngage)
/-- FAST_LIMIT_RELEASE. -/
def execFastLimitRelease (s : State) : Out := act s (live fastLimitRelease)
/-- REEVE_POWER_MEASURE. -/
def execReevePowerMeasure (mv ma : Nat) (s : State) : Out := act s (live (reevePowerMeasure mv ma))
/-- TEMP_SAMPLE. -/
def execTempSample (tiles gddr : List Int) (s : State) : Out := act s (live (tempSample tiles gddr))
/-- HEARTBEAT. -/
def execHeartbeat (die : Nat) (s : State) : Out := act s (live (heartbeat die))
/-- IABOR_WATCHDOG_EXPIRY. -/
def execIaborWatchdogExpiry (die : Nat) (s : State) : Out := act s (live (iaborWatchdogExpiry die))

end Sys2Proof.Machine
end

