-- ==== Sys2Proof/Machine/MbxPower.lean ====
section
/-! DEFINITION. The mailbox commands for telemetry, power and the training record, those for Tally records and counters, the
spilling of records, and the sampling windows (16 R414 to R417, R404; 17 R434 to R439). -/

namespace Sys2Proof.Machine

/-! ## Telemetry (Table 16.9) -/

/-- A temperature as a signed byte. -/
def tempByte (t : Int) : Bytes := [BitVec.ofInt 8 t]

/-- The code of a power state (Table 16.9). -/
def PState.code : PState → Nat
  | .off => 0
  | .on => 1
  | .retain => 2

/-- The hottest sensor of a die. -/
def dieTemp (d : Dev) (die : Nat) : Int := hottest ((d.power.tileTemp.drop (32 * die)).take 32)

/-- Effective level of the clock that a tile runs on (Table 16.9). -/
def tileLevel (d : Dev) (t : Nat) : Nat := match tileBranch d t with
  | some b => branchLevel d b
  | none => controlLevel d

/-- Power averaged over the last 1 ms in mW. -/
def averagePower (d : Dev) : Nat := sumOf d.power.lastMs / max 1 d.power.lastMs.length

/-- Page 0: power and heat. -/
def powerPage (d : Dev) : Bytes :=
  leBytes 4 d.power.inputMv ++ leBytes 4 d.power.inputMa ++ leBytes 4 (averagePower d) ++ leBytes 4 d.power.peakMw ++
  leBytes 1 (reeveState d) ++ tempByte (dieTemp d 0) ++ tempByte (dieTemp d 1) ++ tempByte (hottest d.power.gddrTemp) ++
  leBytes 1 (controlLevel d) ++ leBytes 3 0 ++ (List.range 64).flatMap (fun t => leBytes 1 (tileLevel d t)) ++
  d.power.tileTemp.flatMap tempByte ++ d.power.gddrTemp.flatMap tempByte ++ d.power.domains.flatMap fun p => leBytes 1 p.code

/-- The code of the failing test of a unit. -/
def failingCode (d : Dev) (src : Source) : Nat := (Config.failingTest (sourceDie d src) src.code).toNat

/-- The byte of a tile in page 1. -/
def tileByte (d : Dev) (t : Nat) : Nat :=
  let st := tileState d t
  let unit := if 27 ≤ t % 32 then t else t - t % 32 % 3
  st + 4 * (if st = 3 then failingCode d (.engine unit 0) else 0)

/-- The byte of a GDDR7 controller in page 1. -/
def controllerByte (d : Dev) (c : Nat) : Nat :=
  let r := d.units.gddrRate.getD c 0
  if !((goodControllers d (c / 12)).contains (c % 12)) then 3 else (if r < 48 then 1 else 0) + 4 * (r / 4)

/-- Page 1: the effective map. -/
def mapPage (d : Dev) : Bytes :=
  (List.range 64).flatMap (fun t => leBytes 1 (tileByte d t)) ++ (List.range 24).flatMap (fun c => leBytes 1 (controllerByte d c)) ++
  (List.range 6).flatMap (fun g => leBytes 1 (if d.units.gateways.contains g then 3 else 0)) ++
  (List.range 8).flatMap (fun c => leBytes 1 (if dieRetired d (c / 4) then 0 else d.units.decoders.getD c 0)) ++
  (List.range 2).flatMap fun die => leBytes 1 (d.units.iabor.getD die 0)

/-- MB_TELEMETRY: a read of page 0 starts the peak anew. -/
def mbTelemetry : MbCmd :=
  { code := 0x0901
    fields := fun _ => [whole 0 1]
    ranges := fun _ b => [(0, decide (fld b 0 1 < 2))]
    run := fun _ b d =>
      if fld b 0 1 = 0 then ({ d with power.peakMw := 0 }, mbOk (powerPage d)) else (d, mbOk (mapPage d)) }

/-- MB_POWER_LIMIT (Table 16.8). -/
def mbPowerLimit : MbCmd :=
  { code := 0x0903
    fields := fun _ => [whole 0 4, whole 4 4, whole 8 1]
    ranges := fun _ b =>
      [(0, decide (300 ≤ fld b 0 4 ∧ fld b 0 4 ≤ 1800)), (4, decide (10 ≤ fld b 4 4 ∧ fld b 4 4 ≤ 10000)),
       (8, decide (80 ≤ fld b 8 1 ∧ fld b 8 1 ≤ 100))]
    run := fun _ b d =>
      ({ d with power.limitW := fld b 0 4, power.tauMs := fld b 4 4, power.tThrottle := fld b 8 1 },
       mbOk (leBytes 4 d.power.limitW ++ leBytes 4 d.power.tauMs)) }

/-- MB_TRAIN_SAVE (R404, Table 16.10): `flashOk` tells whether the flash write succeeds. -/
def mbTrainSave (flashOk : Bool) : MbCmd :=
  { code := 0x0904
    fields := fun _ => [whole 0 1]
    ranges := fun _ b => [(0, decide (fld b 0 1 ≤ 2))]
    conds := fun d b => [(1, fld b 0 1 == 0 && d.power.recordDue)]
    run := fun _ b d =>
      let answer (d : Dev) : MbxResponse := mbOk (leBytes 1 (ofBool d.flash.trained) ++ leBytes 7 0 ++ leBytes 8 d.flash.trainedAt ++
        leBytes 4 Config.trainRecordBytes.toNat)
      let invalid := { d with flash.trained := false }
      if fld b 0 1 = 2 then (d, answer d)
      else if !flashOk then (invalid, mbEnd rsFailed)
      else if fld b 0 1 = 1 then (invalid, answer invalid)
      else (writeRecord d, answer (writeRecord d)) }

/-! ## MB_POWER_DOMAIN (R412, R414) -/

/-- A range of memory reaches a group of GDDR7 controllers: twelve lines in a row meet every controller of a die (R334). -/
def touchesGroup (d : Dev) (n a len : Nat) : Bool :=
  ((linesOf a len).take 13).any fun l => (gddrLocate d l).any fun p => controllerDomain p.die p.mc == n

/-- An address lies in the memory of a domain's unit: a tile's SRAM, or a GDDR7 group. -/
def inDomain (d : Dev) (n a : Nat) : Bool :=
  if n < 128 then decide (sramBase (n % 64) ≤ a ∧ a < sramBase (n % 64) + tileCapacity (n % 64))
  else 128 ≤ n && n < 136 && touchesGroup d n a 1

/-- Condition 3 of R414: a stage, a bound queue or a ring holds the tile. -/
def tileHeld (d : Dev) (t : Nat) : Bool :=
  d.seq.stages.any (fun s => s.2.tile == t) || !(tileChutes d t).isEmpty ||
  d.hub.rings.any fun e => (targetOf e.2.target).any fun x => x.tile == some t

/-- Condition 4 of R414: an operation in flight, a script, a batch class or a Badger table names the unit. -/
def namesDomain (d : Dev) (n : Nat) : Bool :=
  let unitOf (ring : Nat) : Bool := (ringTarget d ring).any fun t => targetDomain t == n
  let die := if n < 144 then n - 142 else (n - 144) / 4
  let thresh := decide (142 ≤ n ∧ n < 152) && !(getTh d die).classes.isEmpty
  let dest := decide (n < 128) && d.threshers.any fun t => t.classes.any fun c => c.2.mode == 0 && c.2.destTile == n % 64
  let tables := d.badgers.any fun b => b.2.tables.any fun t =>
    (decide (n < 128) && b.1 == n % 64) || [40, 64, 72, 80].any fun off => inDomain d n (fld t.2 off 8)
  (opsInFlight d).any (fun e => unitOf e.1 || e.2.addresses.any (inDomain d n)) ||
  d.seq.scripts.any (fun x => x.members.any fun m => !m.removed && unitOf m.ring) || thresh || dest || tables

/-- Condition 5 of R414: what must not lie in a GDDR7 group that goes OFF. -/
def groupUsed (d : Dev) (n : Nat) : Bool :=
  d.hub.rings.any (fun e => touchesGroup d n e.2.base (128 * e.2.len)) ||
  (opsInFlight d).any (fun e => e.2.statusEn && touchesGroup d n e.2.statusAddr 32) ||
  d.fabric.groups.any (fun g => touchesGroup d n g.2.stageAddr g.2.stageBytes) ||
  d.fabric.lends.any fun l => touchesGroup d n l.2.base l.2.size

/-- Domains set to a state. -/
def setDomains (d : Dev) (l : List (Nat × PState)) : Dev :=
  { d with power.domains := l.foldl (fun p x => p.set x.1 x.2) d.power.domains }

/-- A tile's SRAM is zeroed with valid check bits (R412). -/
def zeroTile (d : Dev) (t : Nat) : Dev :=
  let a := sramBase t
  let e := a + tileCapacity t
  let d := noteWrite d a (tileCapacity t)
  { d with
    mem.cells := d.mem.cells.filter fun c => !(decide (a ≤ c.1 ∧ c.1 < e))
    mem.flips := d.mem.flips.filter fun f => !(decide (a / 16 ≤ f.1 ∧ f.1 < e / 16)) }

/-- A tile is put into a state (R412): 0 OFF, 1 ON, 2 RETAIN. SRAM that was OFF comes back as zeros. -/
def tileTo (d : Dev) (t st : Nat) : Dev :=
  let d1 := if domainState d (64 + t) = .off && st != 0 then zeroTile d t else d
  if st = 0 then setDomains d1 [(t, .off), (64 + t, .off)]
  else setDomains d1 [(t, if st = 1 then .on else .retain), (64 + t, .on)]

/-- The check caches of a group of GDDR7 controllers are empty, what they held written back (R337, R412; DEDUCED, log 55). -/
def dropCaches (d : Dev) (n : Nat) : Dev :=
  { d with counters.cached := d.counters.cached.filter fun c => controllerDomain (c.1 / 48) (c.1 % 48 / 4) != n }

/-- A domain that is no tile's is switched (R412): a fabric or stream port that goes OFF is DOWN. -/
def unitTo (d : Dev) (n st : Nat) : Dev :=
  let off := st = 0
  let d1 := if off && decide (136 ≤ n ∧ n < 142) && domainOn d n then trainPort d (n - 136) noLanes true false
    else if off && decide (142 ≤ n ∧ n < 144) then modTh d (n - 142) fun t => { t with port := 0, lanes := 0 }
    else if off && decide (128 ≤ n ∧ n < 136) then dropCaches d n
    else d
  setDomains d1 [(n, if off then .off else .on)]

/-- The state of a domain changes (R412). Retention ON alone leaves its tile in RETAIN; retention OFF takes it to OFF. -/
def switchDomain (d : Dev) (n st : Nat) : Dev :=
  if n < 64 then tileTo d n st
  else if n < 128 then
    if st = 0 then tileTo d (n - 64) 0 else if domainState d n = .off then tileTo d (n - 64) 2 else d
  else unitTo d n st

/-- MB_POWER_DOMAIN (R414, Table 16.5). -/
def mbPowerDomain : MbCmd :=
  { code := 0x0902
    fields := fun _ => [whole 0 2, whole 2 1]
    ranges := fun _ b => [(0, decide (fld b 0 2 ≤ 156)), (2, decide (fld b 2 1 ≤ 1 ∨ (fld b 2 1 = 2 ∧ fld b 0 2 < 64)))]
    conds := fun d b =>
      let n := fld b 0 2
      [(1, n == 152 || n == 153 || n == 156), (2, domainRetired d n), (3, decide (n < 128) && tileHeld d (n % 64)), (4, namesDomain d n),
       (5, decide (128 ≤ n ∧ n < 136) && fld b 2 1 == 0 && groupUsed d n), (6, d.seq.migration.isSome || d.iabor.activation.isSome)]
    run := fun _ b d =>
      let n := fld b 0 2
      let old := (domainState d n).code
      (switchDomain d n (fld b 2 1), mbOk (leBytes 1 old ++ leBytes 3 0 ++ leBytes 4 (Config.transitionMicros n old (fld b 2 1)).toNat)) }

/-! ## Tally records (R434 to R436) -/

/-- The 32 bytes of a record (Table 17.15). -/
def TallyRec.bytes (r : TallyRec) : Bytes :=
  leBytes 8 r.first.toNat ++ leBytes 8 r.last.toNat ++ leBytes 8 r.detail.toNat ++ leBytes 4 r.count.toNat ++ leBytes 2 r.event.toNat ++
  leBytes 2 r.source.toNat

/-- TALLY_SPILL (R434): the next record of a die is spilled, where its spill slot is free. -/
def tallySpill (die : Nat) (d : Dev) : Dev :=
  let t := d.tally.getD die {}
  if firmwareRuns d die && decide (t.spilled < t.written ∧ t.spilled < t.consumed + 524288) then
    { d with tally := modAt d.tally die fun t => { t with spilled := t.spilled + 1 } }
  else d

/-- The records up to CONSUMED − 1 free their spill space; those still in a slot stay readable (R434, R436). -/
def Tally.consume (t : Tally) (n : Nat) : Tally :=
  let c := max t.consumed n
  { t with consumed := c, recs := t.recs.filter fun e => decide (t.written ≤ e.1 + 4096) || decide (c ≤ e.1) }

/-- The oldest record still held (Table 17.17). -/
def Tally.oldest (t : Tally) : Nat := t.recs.foldl (fun n e => min n e.1) t.written

/-- MB_TALLY_READ (R436, Table 17.17). -/
def mbTallyRead : MbCmd :=
  { code := 0x0A01
    fields := fun _ => [whole 0 1, whole 8 8, whole 16 8]
    ranges := fun d b => [(0, decide (fld b 0 1 < 2)), (16, decide (fld b 16 8 ≤ (d.tally.getD (fld b 0 1) {}).written))]
    conds := fun d b => [(0xFF, dieRetired d (fld b 0 1))]
    run := fun _ b d =>
      let die := fld b 0 1
      let t := (d.tally.getD die {}).consume (fld b 16 8)
      let recs := ((t.recs.reverse.filter fun e => decide (max (fld b 8 8) t.oldest ≤ e.1)).take 126).map (·.2)
      ({ d with tally := d.tally.set die t },
       mbOk (leBytes 8 t.oldest ++ leBytes 8 t.written ++ leBytes 8 recs.length ++ leBytes 8 0 ++ recs.flatMap TallyRec.bytes)) }

/-! ## Counters and sampling windows (R437 to R439) -/

/-- A counter of a tile (scope 0) or die. -/
def getCounter (d : Dev) (scope unit i : Nat) : Counter :=
  if scope = 0 then tgetD d.counters.tile (8 * unit + i) {} else tgetD d.counters.die (32 * unit + i) {}

/-- A counter with a new selection: it counts from 0, and the window it changes in, of number `k`, is partial; one that has ended
and not closed keeps its amount (R12, R438, Table 17.12). -/
def Counter.select (c : Counter) (sel : W32) (next : Nat) (k : Option Nat) : Counter :=
  match k with
  | none => { value := c.value, partSel := c.partSel, sel := sel, since := next }
  | some k =>
    if k ≤ next then { value := c.value, partSel := c.partSel, sel := sel, changed := true, since := next }
    else { c with sel := sel, count := 0, valid := false, ahead := tdel c.ahead k, changedAhead := k :: c.changedAhead, since := k }

/-- The counter takes a selection (R438). -/
def selectCounter (d : Dev) (scope unit i : Nat) (sel : W32) : Dev :=
  let c := (getCounter d scope unit i).select sel d.counters.next (windowNow d)
  if scope = 0 then { d with counters.tile := tput d.counters.tile (8 * unit + i) c }
  else { d with counters.die := tput d.counters.die (32 * unit + i) c }

/-- MB_COUNTER_SELECT (R438). -/
def mbCounterSelect : MbCmd :=
  { code := 0x0A02
    fields := fun _ => [whole 0 1, whole 1 1, whole 2 1, { off := 4, len := 4, mask := 0x3FFF3FFF }]
    ranges := fun _ b =>
      let tile := fld b 0 1 == 0
      [(0, decide (fld b 0 1 < 2)), (1, decide (fld b 1 1 < if tile then 64 else 2)), (2, decide (fld b 2 1 < if tile then 8 else 32)),
       (4, eventCodes.contains (bits (fld b 4 4) 11 0))]
    conds := fun d b => [(0xFF, if fld b 0 1 = 0 then tileRetired d (fld b 1 1) else dieRetired d (fld b 1 1))]
    run := fun _ b d =>
      let old := (getCounter d (fld b 0 1) (fld b 1 1) (fld b 2 1)).count
      (selectCounter d (fld b 0 1) (fld b 1 1) (fld b 2 1) (BitVec.ofNat 32 (fld b 4 4)), mbOk (leBytes 8 old.toNat)) }

/-- Every counter with `f` applied. -/
def mapCounters (d : Dev) (f : Counter → Counter) : Dev :=
  { d with
    counters.tile := d.counters.tile.map fun e => (e.1, f e.2)
    counters.die := d.counters.die.map fun e => (e.1, f e.2) }

/-- The value that a write of CNT_PERIOD stores (R439): bits [40:0], or 2^40 where P is above it. -/
def clampPeriod (v : Nat) : Nat :=
  let p := v % 2 ^ 41
  if p = 0 then 0 else if p < 1000 then 1000 else min p (2 ^ 40)

/-- The first effective start of the windows that is not before `now` (R439). -/
def firstStart (start period now : Nat) : Nat :=
  if now ≤ start || period = 0 then start else start + (now - start + period - 1) / period * period

/-- CNT_WINDOW_RESTART (R439): a write of CNT_START, or of CNT_PERIOD, restarts the windows. -/
def restartWindows (period : Bool) (v : W64) (d : Dev) : Dev :=
  let start : W64 := if period then d.counters.start else v
  let p := if period then clampPeriod v.toNat else d.counters.period
  mapCounters { d with
    counters.start := start
    counters.period := p
    counters.base := firstStart start.toNat p (deviceTime d)
    counters.next := 0 } fun c => { c with inWindow := 0, changed := false, ahead := [], changedAhead := [], since := 0 }

/-- A counter as window `k` closes: its VALUE is that window's amount, and the next window goes on with what it has counted
already (R12, R439). -/
def Counter.close (c : Counter) (k : Nat) : Counter :=
  { c with
    value := BitVec.ofNat 48 c.inWindow
    partSel := c.changed
    valid := c.valid || decide (c.since ≤ k)
    inWindow := tgetD c.ahead (k + 1) 0
    changed := c.changedAhead.contains (k + 1)
    ahead := tdel c.ahead (k + 1)
    changedAhead := c.changedAhead.filter (· != k + 1) }

/-- COUNTER_WINDOW_CLOSE (R439): window k closes when its end has come. -/
def counterWindowClose (d : Dev) : Dev :=
  let c := d.counters
  if c.period = 0 || deviceTime d < c.base + (c.next + 1) * c.period then d
  else mapCounters { d with counters.window := BitVec.ofNat 64 c.next, counters.next := c.next + 1 } (·.close c.next)

/-! ## The rows -/

/-- MB_TELEMETRY. -/
def execMbTelemetry (m : Nat) (s : State) : Out := mbxAct mbTelemetry m s
/-- MB_POWER_DOMAIN. -/
def execMbPowerDomain (m : Nat) (s : State) : Out := mbxAct mbPowerDomain m s
/-- MB_POWER_LIMIT. -/
def execMbPowerLimit (m : Nat) (s : State) : Out := mbxAct mbPowerLimit m s
/-- MB_TRAIN_SAVE. -/
def execMbTrainSave (m : Nat) (flashOk : Bool) (s : State) : Out := mbxAct (mbTrainSave flashOk) m s
/-- MB_TALLY_READ. -/
def execMbTallyRead (m : Nat) (s : State) : Out := mbxAct mbTallyRead m s
/-- MB_COUNTER_SELECT. -/
def execMbCounterSelect (m : Nat) (s : State) : Out := mbxAct mbCounterSelect m s
/-- TALLY_SPILL. -/
def execTallySpill (die : Nat) (s : State) : Out := act s (live (tallySpill die))
/-- COUNTER_WINDOW_CLOSE. -/
def execCounterWindowClose (s : State) : Out := act s (live counterWindowClose)

end Sys2Proof.Machine
end

