-- ==== Sys2Proof/Machine/HostLink.lean ====
section
/-! DEFINITION. Function-level reset, PERST_N, the PCI Express link and its errors, and the hard halt (16 R420, R421; 17 R422,
R425; 18 R444). -/

namespace Sys2Proof.Machine

/-! ## Function-level reset (R421) -/

/-- A mailbox returns to IDLE (R381), and its request buffer, which the host writes, to zero. DONE_COUNT and the response buffer
are read-only and no chapter says that function-level reset clears them, so they stay (R8; DEDUCED, log 46). One that a halted or absent firmware does not serve stays in
NO_FIRMWARE under the boot ROM (R391). -/
def Mailbox.reset (rom : Bool) (b : Mailbox) : Mailbox :=
  { st := if rom && b.st = .noFirmware then .noFirmware else .idle, doneCount := b.doneCount, resp := b.resp }

/-- The firmware's side after function-level reset (R381, R398, R421). -/
def resetIabor (d : Dev) : Iabor :=
  { d.iabor with
    mbx := d.iabor.mbx.map (Mailbox.reset (romServes d))
    pointer := 0
    clusters := d.iabor.clusters.map fun c =>
      if c.halted then { c with halted := false, resets := [], watchFrom := deviceTime d } else c
    activation := d.iabor.activation.map fun a => { a with mbx := 8 }
    programLog := List.replicate 32 0 }

/-- A Thresher keeps its port; what its samples held of the receive buffer is freed (R283, R286). -/
def Thresher.reset (t : Thresher) : Thresher :=
  { port := t.port
    lanes := t.lanes
    freed := t.freed + BitVec.ofNat 32 (sumOf (t.samples.map (·.blocks)))
    freedSent := t.freedSent
    creditAt := t.creditAt
    timeAt := t.timeAt }

/-- The fabric keeps its configuration, its links and its time base; collectives and requests are gone, and every pointer is 0
(R62). -/
def resetFabric (f : Fabric) : Fabric :=
  { f with
    ports := f.ports.map fun p => { p with pointer := 0, mbx := none }
    coordinators := []
    roots := []
    parts := []
    requests := [] }

/-- The host side keeps its link, its BAR2 size and its AER status: registers return to their reset values (R8). -/
def resetHost (h : HostIf) : HostIf :=
  { bar2 := 4, speed := h.speed, width := h.width, aerUnc := h.aerUnc, aerCor := h.aerCor }

/-- The counters keep their counts and selections; CNT_START and CNT_PERIOD return to 0, so sampling is off (R8, R439). -/
def resetCounters (c : Counters) : Counters :=
  { c with start := 0, period := 0, base := 0, next := 0 }

/-- The device after function-level reset: memory, training, the effective map, power, clocks, the Tally and the flash stay
(R421), and each chapter's part is as that chapter leaves it. -/
def functionReset (d : Dev) : Dev :=
  { d with
    host := resetHost d.host
    counters := resetCounters d.counters
    iabor := resetIabor d
    hub := { dropped := d.hub.dropped }
    mills := []
    looms := []
    querns := []
    badgers := d.badgers.map fun b => (b.1, { tierReq := b.2.tierReq })
    chutes := []
    steps := { oldest := stepCounter d }
    seq := {}
    threshers := d.threshers.map Thresher.reset
    fabric := resetFabric d.fabric
    mem.flips := d.mem.flips.filter fun f => !(decide (2 ^ 48 ≤ f.1 ∧ f.1 < 2 ^ 49))
    mem.sramErr := d.mem.sramErr.map fun e => (e.1, { e.2 with corrected := 0, uncorrectable := 0 })
    granary := {}
    owl := { rules := resetRules, lastEval := d.owl.lastEval } }

/-- FUNCTION_LEVEL_RESET, which configuration space starts (R421, R423). -/
def functionLevelReset (d : Dev) : Dev := if configOpen d then functionReset d else d

/-! ## PERST_N (R444) -/

/-- PERST_N_ASSERT (R444): after ready the device acts as for function-level reset, and the link's own status is lost. -/
def perstAssert (d : Dev) : Dev :=
  if d.power.perst then d
  else if d.power.on && d.power.ready then
    let r := functionReset d
    { r with power.perst := true, host.aerUnc := 0, host.aerCor := 0 }
  else { d with power.perst := true }

/-- PERST_N_DEASSERT (R444). -/
def perstDeassert (d : Dev) : Dev := { d with power.perst := false }

/-! ## Link events and AER (R422, R425) -/

/-- A change of speed or width after the first training (R422). -/
def linkChange (speed width : Nat) (d : Dev) : Dev :=
  if configOpen d && linkRuns speed width && (speed != d.host.speed || width != d.host.width)
  then logEvent { d with host.speed := speed, host.width := width } evPcieLinkChange .hostLink (speed + 256 * width)
  else d

/-- An error is reported through AER and recorded (R425). -/
def reportAer (d : Dev) (aer : BitVec 5) (unc : Bool) : Dev :=
  let m : W32 := BitVec.twoPow 32 aer.toNat
  logEvent { d with
    host.aerUnc := if unc then d.host.aerUnc ||| m else d.host.aerUnc
    host.aerCor := if unc then d.host.aerCor else d.host.aerCor ||| m } evPcieError .hostLink (aer.toNat + 32 * ofBool unc)

/-- An operation that has ended well and wrote to host memory: before it retires, a read follows its posted writes (R347). -/
def flushes (d : Dev) (n : OpName) : Bool := (getOp d n).any fun o =>
  o.phase == .complete && isSuccess o.status && !o.aborted && o.outs.any fun r => regionOf d r.1 == .host

/-- Device requests to host memory end their operations with ST_HOST_ABORT: those of an operation at work, and the read that
follows the writes of one before its retirement (R347, R425). -/
def hostAbort (d : Dev) (n : OpName) : Dev :=
  if (issuedOp d n).isSome then failRequest (missAborted d n) n stHostAbort
  else if flushes d n then failRequest d n stHostAbort
  else d

/-- PCIE_ERROR (R425): an uncorrectable error may end device requests. -/
def pcieError (aer : BitVec 5) (unc : Bool) (ended : List OpName) (d : Dev) : Dev :=
  if !(configOpen d) then d
  else
    let d1 := reportAer d aer unc
    if unc && !d.hub.hardHalted then ended.foldl hostAbort d1 else d1

/-- The AER status bits of a completion timeout and of a Completer Abort sent (PRESUMED, log 45). -/
abbrev aerTimeout : BitVec 5 := 14
abbrev aerAbort : BitVec 5 := 15

/-- HOST_READ_TIMEOUT (R425). -/
def hostReadTimeout (n : OpName) (d : Dev) : Dev :=
  if configOpen d && ((issuedOp d n).isSome || flushes d n) then hostAbort (reportAer d aerTimeout true) n else d

/-! ## The hard halt (R72, R420) -/

/-- A snapshot in any state is abandoned, its slot left uncommitted (R356). -/
def abandonSnapshot (d : Dev) : Dev :=
  let k := d.granary.slot
  let began := d.granary.st == .copying || d.granary.st == .sealing
  { d with
    granary.st := .idle
    granary.pages := []
    granary.area := []
    granary.waiters := []
    granary.byOwl := false
    granary.heldTrigger := false
    granary.heldStep := none
    granary.written := if began then modAt d.granary.written k fun _ => none else d.granary.written
    granary.digests := if began then modAt d.granary.digests k fun _ => [] else d.granary.digests }

/-- LL_HARD_HALT_WRITE (R420): the halt key stops every engine; any other value, and a second key, does nothing. -/
def hardHalt (v : W32) (d : Dev) : Dev :=
  if barOpen d && v = 0x48414C54#32 && !d.hub.hardHalted then
    let a := abandonSnapshot d
    setCause { a with hub.hardHalted := true } 6
  else d

/-! ## The rows -/

/-- FUNCTION_LEVEL_RESET. -/
def execFunctionLevelReset (s : State) : Out := act s functionLevelReset
/-- PERST_N_ASSERT. -/
def execPerstNAssert (s : State) : Out := act s perstAssert
/-- PERST_N_DEASSERT. -/
def execPerstNDeassert (s : State) : Out := act s perstDeassert
/-- PCIE_LINK_CHANGE. -/
def execPcieLinkChange (speed width : Nat) (s : State) : Out := act s (live (linkChange speed width))
/-- PCIE_ERROR. -/
def execPcieError (aer : BitVec 5) (unc : Bool) (ended : List OpName) (s : State) : Out := act s (live (pcieError aer unc ended))
/-- HOST_READ_TIMEOUT. -/
def execHostReadTimeout (ring : Nat) (seq : W32) (s : State) : Out := act s (running (hostReadTimeout { ring := ring, seq := seq }))
/-- LL_HARD_HALT_WRITE. -/
def execLlHardHaltWrite (value : W32) (s : State) : Out := act s (live (hardHalt value))

end Sys2Proof.Machine
end

