-- ==== Sys2Proof/Machine/HostPort.lean ====
section
/-! DEFINITION. What the host reaches through BAR0, BAR2 and configuration space: every register's place, width, value and
write (00 R8, R9; 17 R423 to R439, and the register tables of the other chapters). -/

namespace Sys2Proof.Machine

/-- A register: 64 bits wide or 32, and its value as a read returns it. -/
structure Reg where
  wide : Bool
  value : Nat
deriving DecidableEq, Repr

/-- A 32-bit register. -/
def reg32 (v : Nat) : Option Reg := some { wide := false, value := v }
/-- A 64-bit register. -/
def reg64 (v : Nat) : Option Reg := some { wide := true, value := v }

/-! ## The lifeline page (R430) -/

/-- `LL_BOOT` (Table 16.2). -/
def llBoot (d : Dev) : Nat :=
  d.power.phase.toNat + 16 * ofBool d.power.ready + 32 * ofBool d.power.warm + 64 * ofBool d.power.retiredAny +
  128 * ofBool d.power.noFw + 256 * bootElapsed d

/-- Whole ms since the last heartbeat of a cluster (Table 17.6). -/
def beatAge (d : Dev) (c : Cluster) : Nat := match c.lastBeat with
  | none => 0xFFFF
  | some t => min 0xFFFF ((deviceTime d - t) / 1000000)

/-- `LL_HEARTBEAT` (Table 17.6). -/
def llHeartbeat (d : Dev) : Nat :=
  let w := d.iabor.clusters.getD 0 {}
  let e := d.iabor.clusters.getD 1 {}
  w.beats.toNat + 2 ^ 16 * e.beats.toNat + 2 ^ 32 * beatAge d w + 2 ^ 48 * beatAge d e

/-- `LL_TEMP` (Table 17.7). -/
def llTemp (d : Dev) : Nat :=
  wrap 8 (dieTemp d 0) + 2 ^ 8 * wrap 8 (dieTemp d 1) + 2 ^ 16 * wrap 8 (hottest d.power.gddrTemp) + 2 ^ 24 * (d.iabor.reeve % 8)

/-- `RING_HUB_STATUS` (Table 2.4). Under a hard halt every ring reads HARD_HALTED, so none is in HALTING or HALTED. -/
def hubStatus (d : Dev) : Nat :=
  let n := (d.hub.rings.filter fun e => e.2.st == .halting || e.2.st == .halted).length
  inFlightTotal d + 2 ^ 13 * ofBool d.hub.hardHalted + 2 ^ 16 * if d.hub.hardHalted then 0 else n

/-- `LL_TALLY_HEAD` of a die (Table 17.8). -/
def tallyHead (d : Dev) (die : Nat) : Nat :=
  let t := d.tally.getD die {}
  t.written % 2 ^ 32 + 2 ^ 32 * (t.spilled % 2 ^ 32)

/-- The lifeline page's registers (Table 17.5). -/
def lifelineReg (d : Dev) (off : Nat) : Option Reg :=
  match off with
  | 0x000 => reg32 llIdent
  | 0x008 => reg32 (llBoot d)
  | 0x010 => reg64 (llHeartbeat d)
  | 0x018 => reg32 (llTemp d)
  | 0x020 => reg64 (deviceTime d)
  | 0x028 => reg32 (hubStatus d)
  | 0x030 => reg64 (tallyHead d 0)
  | 0x038 => reg64 (tallyHead d 1)
  | 0x040 => reg32 0
  | 0x048 => reg32 (ofBool d.hub.hardHalted + 2 * d.hub.dropped.toNat)
  | 0x050 => reg32 (d.host.irqCause.toNat + 256 * d.host.irqEnable.toNat)
  | 0x058 => reg64 (d.host.slide * 2 ^ 30)
  | _ => none

/-! ## Mailboxes and rings -/

/-- `MBX_STATE` (Table 15.2). -/
def mbxStateReg (d : Dev) (m : Nat) : Nat :=
  let b := d.iabor.mbx.getD m {}
  let st := match b.st with
    | .idle => 0
    | .busy => 1
    | .done => 2
    | .noFirmware => 3
  st + 4 * ofBool (m == 0 && romServes d) + 2 ^ 16 * b.doneCount.toNat

/-- The mailboxes' registers (Table 15.2). -/
def mailboxReg (d : Dev) (off : Nat) : Option Reg :=
  let r := off % 0x40
  if r = 0 then reg32 0 else if r = 8 then reg32 (mbxStateReg d (off / 0x40)) else none

/-- `RING_STATE` (Table 2.4). -/
def ringStateReg (d : Dev) (r : Ring) : Nat :=
  let st := if d.hub.hardHalted then 5 else match r.st with
    | .running => 1
    | .halting => 2
    | .halted => 3
    | .destroying => 4
  st + 2 ^ 8 * r.haltStatus.toNat + 2 ^ 32 * r.haltSeq.toNat

/-- `RING_COUNTS` (Table 2.4). -/
def ringCountsReg (r : Ring) : Nat := r.retired.toNat + 2 ^ 32 * r.submitted.toNat

/-- `RING_CFG` (Table 2.4). -/
def ringCfgReg (n : Nat) (r : Ring) : Nat :=
  r.log2len + 2 ^ 8 * r.target + 2 ^ 20 * r.vector + 2 ^ 31 * ofBool (privileged n) + 2 ^ 32 * r.waitLimit

/-- A field of a ring; 0 for one that does not exist (R46). -/
def ringField (d : Dev) (n : Nat) (f : Ring → Nat) : Nat := ((getRing d n).map f).getD 0

/-- The doorbell page of a ring (Table 2.2). -/
def doorbellReg (d : Dev) (n r : Nat) : Option Reg :=
  match r with
  | 0x00 => reg32 0
  | 0x08 => reg32 0
  | 0x10 => reg64 (ringField d n ringCountsReg)
  | 0x18 => reg64 (ringField d n (ringStateReg d))
  | _ => none

/-- The ring control registers of a ring (Table 2.4). -/
def ringReg (d : Dev) (n r : Nat) : Option Reg :=
  match r with
  | 0x00 => reg64 (ringField d n (·.base))
  | 0x08 => reg64 (ringField d n (ringCfgReg n))
  | 0x10 => reg64 (ringField d n (ringStateReg d))
  | 0x18 => reg64 (ringField d n ringCountsReg)
  | 0x20 => reg32 (ringField d n Ring.inFlight)
  | _ => none

/-! ## Tile windows (R19) -/

/-- `TILE_ID` (Table 1.3). -/
def tileIdReg (d : Dev) (t : Nat) : Nat :=
  t + 2 ^ 6 * (tileType t).code + 2 ^ 8 * physHamlet d t + 2 ^ 12 * tileSlot t + 2 ^ 14 * tileState d t + 2 ^ 16 * tileDie t +
  2 ^ 17 * ofBool (d.seq.stages.any fun s => s.2.tile == t)

/-- `TILE_CHUTE_CFG` (Table 1.7). -/
def chuteCfgReg (c : Chute) : Nat :=
  c.producer + 2 ^ 7 + 2 ^ 8 * c.depth + 2 ^ 16 * c.slotKib + 2 ^ 32 * c.filled + 2 ^ 40 * c.credits

/-- `TILE_SRAM_ERR` (Table 13.4). -/
def sramErrReg (e : SramErr) : Nat :=
  e.corrected.toNat + 2 ^ 32 * e.uncorrectable.toNat + 2 ^ 48 * e.rows.toNat + 2 ^ 56 * e.cols.toNat

/-- The set that covers a layer. -/
def layerSet (d : Dev) (t h : Nat) : Option AccSet := (getMill d t).sets.find? fun s => layersMeet s.handle s.span h 1

/-- A mask of 8 layers. -/
def layerMask (f : Nat → Bool) : Nat := (List.range 8).foldl (fun n h => n + ofBool (f h) * 2 ^ h) 0

/-- `MILL_STATUS` (Table 5.8). -/
def millStatusReg (d : Dev) (t : Nat) : Nat :=
  let ops := (issuedTo d (.mill t)).map (·.2)
  let drains (o : Op) : Bool := o.opcode == 0x0102 || !o.sends.isEmpty
  layerMask (fun h => (layerSet d t h).isSome) + 2 ^ 8 * layerMask (fun h => (layerSet d t h).any (·.stale)) +
  2 ^ 16 * ofBool (ops.any fun o => (o.opcode == 0x0101 || o.opcode == 0x0301) && o.sends.isEmpty) + 2 ^ 17 * ofBool (ops.any drains)

/-- `MILL_ACC_CFG` of a layer (Table 5.10). -/
def millAccReg (d : Dev) (t h : Nat) : Nat := match layerSet d t h with
  | none => 0
  | some s =>
    s.owner + 2 ^ 14 + 2 ^ 15 * ofBool s.stale + 2 ^ 16 * s.fmt.toNat + 2 ^ 22 * s.shape.toNat + 2 ^ 24 * s.handle +
    2 ^ 32 * writers d t s.handle + 2 ^ 40 * readHolds d t s.handle

/-- The registers of a Mill (R147). -/
def millReg (d : Dev) (t r : Nat) : Option Reg :=
  if r = 0 then reg32 (millStatusReg d t)
  else if r = 8 then reg32 (getMill d t).limit.toNat
  else if decide (0x10 ≤ r ∧ r < 0x50) && r % 8 == 0 then reg64 (millAccReg d t ((r - 0x10) / 8))
  else none

/-- `LOOM_STATUS` (Table 6.22). -/
def loomStatusReg (d : Dev) (t e : Nat) : Nat :=
  match loomRunning d t e with
  | none => 0
  | some (n, o) =>
    1 + 2 * (((getLoom d t e).images.find? fun i => i.id == o.image).map (·.slot)).getD 0 + 2 ^ 16 * n.ring

/-- State of a Loom's program slot (Table 6.25): absent, loading, loaded, or loaded with a replaced image retiring. -/
def loomSlotState (l : Loom) (j : Nat) : Nat :=
  let here := l.images.filter fun i => i.slot == j
  if !(here.any (·.current)) then ofBool (l.loading.any fun x => x.slot == j) else if here.any (!·.current) then 3 else 2

/-- The registers of a Loom (R187). -/
def loomReg (d : Dev) (t e r : Nat) : Option Reg :=
  let l := getLoom d t e
  match r with
  | 0x00 => reg32 (loomStatusReg d t e)
  | 0x08 => reg32 l.limit.toNat
  | 0x10 => reg32 (128 - usedPages l)
  | 0x18 => reg64 ((List.range 32).foldl (fun n j => n + loomSlotState l j * 4 ^ j) 0)
  | _ => none

/-- The registers of a Quern (R208). -/
def quernReg (d : Dev) (t r : Nat) : Option Reg :=
  let q := tgetD d.querns t {}
  let run := (issuedTo d (.quern t)).head?
  match r with
  | 0x00 => reg32 (match run with
    | none => 0
    | some e => 1 + 2 * ofBool (e.2.opcode == 0x0303) + 2 ^ 16 * e.1)
  | 0x08 => reg32 q.limit.toNat
  | 0x10 => reg64 (match run with
    | none => 0
    | some e =>
      -- before its first block the operation has none behind it; while it sends, all
      if e.2.sends.isEmpty then 2 ^ 32 * e.2.f 88 2 else q.blocks.toNat + 2 ^ 32 * q.row.toNat)
  | _ => none

/-- The registers of a Badger (R233). -/
def badgerReg (d : Dev) (t r : Nat) : Option Reg :=
  let b := getBadger d t
  let waits := (b.ledger.filter (·.pending)).length
  match r with
  | 0x00 => reg32 (min 2048 waits + (match (issuedTo d (.badger t)).head? with
    | none => 0
    | some e => 2 ^ 12 + 2 ^ 16 * e.1))
  | 0x08 => reg32 b.limit.toNat
  | 0x10 => reg64 (b.ledger.length + 2 ^ 32 * waits)
  | 0x18 => reg64 (b.tierReq.getD 0 0).toNat
  | 0x20 => reg64 (b.tierReq.getD 1 0).toNat
  | 0x28 => reg64 (b.tierReq.getD 2 0).toNat
  | _ => none

/-- The registers of a tile window (R19). -/
def tileReg (d : Dev) (t r : Nat) : Option Reg :=
  if r = 0 then reg32 (tileIdReg d t)
  else if decide (0x100 ≤ r ∧ r < 0x180) then
    (if r % 8 = 0 then reg64 (((getChute d t ((r - 0x100) / 8)).map chuteCfgReg).getD 0) else none)
  else if r = 0x180 then reg64 (sramErrReg (tgetD d.mem.sramErr t {}))
  else if decide (0x2000 ≤ r ∧ r < 0x2100) && tileType t == .mTile then millReg d t (r - 0x2000)
  else if decide (0x3000 ≤ r ∧ r < 0x3200) && loomExists t ((r - 0x3000) / 0x100) then loomReg d t ((r - 0x3000) / 0x100) (r % 0x100)
  else if decide (0x4000 ≤ r ∧ r < 0x4100) && tileType t == .qTile then quernReg d t (r - 0x4000)
  else if decide (0x5000 ≤ r ∧ r < 0x5100) && tileType t == .bTile then badgerReg d t (r - 0x5000)
  else none

/-! ## Counters and the Tally window -/

/-- `CNT_SAMPLE` (Table 17.12). -/
def sampleReg (c : Counter) : Nat := c.value.toNat + 2 ^ 48 * ofBool c.partSel + 2 ^ 49 * ofBool c.valid

/-- A counter's registers within its tile's or die's block: `n` counters, whose CNT_SEL begin at `sel` (Table 17.12). -/
def counterReg (d : Dev) (scope unit n sel r : Nat) : Option Reg :=
  if r < 16 * n then
    let c := getCounter d scope unit (r / 16)
    if r % 16 = 0 then reg64 c.count.toNat else if r % 16 = 8 then reg64 (sampleReg c) else none
  else if decide (sel ≤ r ∧ r < sel + 4 * n) && r % 4 == 0 then reg32 (getCounter d scope unit ((r - sel) / 4)).sel.toNat
  else none

/-- The counters' registers (Table 17.12). -/
def countersReg (d : Dev) (r : Nat) : Option Reg :=
  if r < 0x4000 then counterReg d 0 (r / 0x100) 8 0x80 (r % 0x100)
  else if r < 0x4800 then counterReg d 1 ((r - 0x4000) / 0x400) 32 0x200 (r % 0x400)
  else if r = 0x5000 then reg64 d.counters.start.toNat
  else if r = 0x5008 then reg64 d.counters.period
  else if r = 0x5010 then reg64 d.counters.window.toNat
  else none

/-- The record in an on-chip slot of a die; a slot that no record has filled reads as zeros. -/
def slotRecord (d : Dev) (die slot : Nat) : Bytes :=
  let t := d.tally.getD die {}
  match t.recs.find? fun e => e.1 % 4096 == slot && decide (t.written ≤ e.1 + 4096) with
  | none => List.replicate 32 0
  | some e => e.2.bytes

/-- The Tally window (Table 17.9, R435). -/
def tallyReg (d : Dev) (r : Nat) : Option Reg :=
  if r < 0x40000 then
    (if r % 8 = 0 then reg64 (fld (slotRecord d (r / 0x20000) (r % 0x20000 / 32)) (r % 32) 8) else none)
  else if r % 4 = 0 then reg32 (tgetD (d.tally.getD ((r - 0x40000) / 0x400) {}).ovf (r % 0x400 / 4) 0).toNat
  else none

/-! ## BAR0 (R9, R426) -/

/-- The register that begins at a BAR0 offset (Table 17.3). -/
def regAt (d : Dev) (off : Nat) : Option Reg :=
  if off < 0x1000 then lifelineReg d off
  else if off < 0x1200 then mailboxReg d (off - 0x1000)
  else if decide (0x100000 ≤ off ∧ off < 0x200000) then doorbellReg d ((off - 0x100000) / 0x40) (off % 0x40)
  else if decide (0x200000 ≤ off ∧ off < 0x300000) then ringReg d ((off - 0x200000) / 0x40) (off % 0x40)
  else if decide (0x300000 ≤ off ∧ off < 0x340000) then (if off % 4 = 0 then reg32 (bellValue d ((off - 0x300000) / 4)).toNat else none)
  else if decide (0x340000 ≤ off ∧ off < 0x380000) then (if off % 4 = 0 then reg32 0 else none)
  else if off = 0x380000 then reg32 (hubStatus d)
  else if decide (0x1000000 ≤ off ∧ off < 0x3000000) then tileReg d ((off - 0x1000000) / 0x80000) (off % 0x80000)
  else if decide (0x3000000 ≤ off ∧ off < 0x3005018) then countersReg d (off - 0x3000000)
  else if decide (0x3800000 ≤ off ∧ off < 0x3840800) then tallyReg d (off - 0x3800000)
  else none

/-- What BAR0 holds besides registers: buffers of bytes. -/
inductive Buffer where
  | request (m off : Nat)
  | response (m off : Nat)
  | msix (off : Nat)
  | pending (off : Nat)
deriving DecidableEq, Repr

/-- The buffer at a BAR0 offset (Tables 15.2 and 17.3). -/
def bufferAt (off : Nat) : Option Buffer :=
  if decide (0x2000 ≤ off ∧ off < 0x12000) then
    let m := (off - 0x2000) / 0x2000
    let r := (off - 0x2000) % 0x2000
    some (if r < 0x1000 then .request m r else .response m (r - 0x1000))
  else if decide (0x40000 ≤ off ∧ off < 0x48000) then some (.msix (off - 0x40000))
  else if decide (0x48000 ≤ off ∧ off < 0x48100) then some (.pending (off - 0x48000))
  else none

/-- An access to a tile window goes as R9 says of what is not allowed: any but `TILE_ID`, where the tile is retired or its logic
domain is not ON (R20, R413). -/
def windowShut (d : Dev) (off : Nat) : Bool :=
  decide (0x1000000 ≤ off ∧ off < 0x3000000) &&
  (let t := (off - 0x1000000) / 0x80000
   off % 0x80000 != 0 && (tileRetired d t || !(domainOn d t)))

/-- R9 allows an access of a width at an offset. An aligned 8 bytes of a mailbox's request or response buffer are allowed too:
R9 names the buffers in none of its cases, and the buffers hold no 32-bit register (DESIGN CHOICE, log 105). -/
def accessAllowed (d : Dev) (off width : Nat) : Bool :=
  !(windowShut d off) &&
  (if width = 4 then off % 4 == 0
  else if width = 8 then
    off % 8 == 0 && ((bufferAt off).isSome || (match regAt d off with
      | some r => r.wide
      | none => (regAt d (off + 4)).isNone))
  else false)

/-- An access that R9 does not allow is recorded. -/
def badAccess (d : Dev) : Dev := logEvent d evHostBadAccess .hostLink 0

/-- The 16 bytes of an MSI-X table entry. -/
def MsixEntry.bytes (e : MsixEntry) : Bytes := leBytes 8 e.address.toNat ++ leBytes 4 e.data.toNat ++ leBytes 4 (ofBool e.masked)

/-- The MSI-X table entry of 16 bytes. -/
def msixOf (b : Bytes) : MsixEntry :=
  { address := BitVec.ofNat 64 (fld b 0 8 / 4 * 4), data := BitVec.ofNat 32 (fld b 8 4), masked := bit (fld b 12 4) 0 }

/-- A byte of the pending-bit array (R429). -/
def pendingByte (d : Dev) (i : Nat) : Nat :=
  (List.range 8).foldl (fun n k => n + ofBool (d.host.pending.contains (8 * i + k)) * 2 ^ k) 0

/-- What a buffer holds. -/
def bufferRead (d : Dev) (b : Buffer) (width : Nat) : Nat := match b with
  | .request m r => fld (d.iabor.mbx.getD m {}).req r width
  | .response m r => fld (d.iabor.mbx.getD m {}).resp r width
  | .msix r => fld (tgetD d.host.msix (r / 16) {}).bytes (r % 16) width
  | .pending r => leNat ((List.range width).map fun k => BitVec.ofNat 8 (pendingByte d (r + k)))

/-- The value of an allowed read: a register or its upper half, a buffer, or zero. -/
def bar0Value (d : Dev) (off width : Nat) : Nat :=
  match bufferAt off with
  | some b => bufferRead d b width
  | none => match regAt d off with
    | some r => r.value % 256 ^ width
    | none =>
      if off % 8 = 4 then (match regAt d (off - 4) with
        | some r => if r.wide then r.value / 2 ^ 32 else 0
        | none => 0)
      else 0

/-- A read completes. -/
def answerRead (d : Dev) (c : Completion) : Dev := { d with out.reads := d.out.reads ++ [c] }

/-- The host link is up, so that a request of the host reaches the function (R401, R444). -/
def linkUp (d : Dev) : Bool := configOpen d

/-- BAR0_READ (R9, R20, R423). -/
def bar0Read (off width : Nat) (d : Dev) : Dev :=
  if !(linkUp d) then d
  else if d.host.d3hot then answerRead d .unsupported
  else if accessAllowed d off width then answerRead d (.data (leBytes width (bar0Value d off width)))
  else answerRead (badAccess d) (.data (List.replicate width 0xFF))

/-! ## BAR0 writes -/

/-- Bits of a register that a write covers, and what it brings to them. -/
structure RegWrite where
  mask : Nat
  value : Nat
deriving DecidableEq, Repr

/-- A field's new value: the bits written from the write, the others as they were. -/
def RegWrite.merge (w : RegWrite) (old : Nat) : Nat := (w.value &&& w.mask) ||| (old &&& (w.mask ^^^ (2 ^ 64 - 1)))

/-- `LL_IRQ_CAUSE` (Table 17.10): causes are cleared by ones, ENABLE is set. -/
def writeIrq (d : Dev) (v : Nat) : Dev :=
  { d with host.irqCause := d.host.irqCause &&& ~~~(BitVec.ofNat 7 v), host.irqEnable := BitVec.ofNat 7 (bits v 14 8) }

/-- `LL_BAR2_SLIDE` (Table 17.11, R427). -/
def writeSlide (d : Dev) (v : Nat) : Dev :=
  let n := bits v 36 30
  if n % 2 ^ d.host.bar2 = 0 then { d with host.slide := n } else badAccess d

/-- A watchdog LIMIT: a write of 0 is ignored (Tables 5.9, 6.23, 7.10, 8.13). -/
def newLimit (old : W16) (v : Nat) : W16 := if v % 2 ^ 16 = 0 then old else BitVec.ofNat 16 v

/-- `TILE_SRAM_ERR` (Tables 0.5, 13.4): each 1 clears its bit of a count, so that ones in every bit clear the count. -/
def writeSramErr (d : Dev) (t : Nat) (w : RegWrite) : Dev :=
  let v := w.value &&& w.mask
  { d with mem.sramErr := tmod d.mem.sramErr t fun e => { e with
      corrected := e.corrected &&& ~~~(BitVec.ofNat 32 (bits v 31 0))
      uncorrectable := e.uncorrectable &&& ~~~(BitVec.ofNat 16 (bits v 47 32)) } }

/-- A write to a register of a tile window. -/
def writeTileReg (d : Dev) (t r : Nat) (w : RegWrite) : Dev :=
  let v := w.value
  if r = 0x180 then writeSramErr d t w
  else if r = 0x2008 && tileType t == .mTile then modMill d t fun m => { m with limit := newLimit m.limit v }
  else if (r = 0x3008 || r = 0x3108) && loomExists t ((r - 0x3000) / 0x100) then
    modLoom d t ((r - 0x3000) / 0x100) fun l => { l with limit := newLimit l.limit v }
  else if r = 0x4008 && tileType t == .qTile then modQuern d t fun q => { q with limit := newLimit q.limit v }
  else if r = 0x5008 && tileType t == .bTile then modBadger d t fun b => { b with limit := newLimit b.limit v }
  else d

/-- A write to a register by its access code (R8); read-only ones ignore it. -/
def writeReg (d : Dev) (off : Nat) (w : RegWrite) : Dev :=
  let v32 : W32 := BitVec.ofNat 32 w.value
  if off = 0x40 then hardHalt v32 d
  else if off = 0x50 then writeIrq d w.value
  else if off = 0x58 then writeSlide d (w.merge (d.host.slide * 2 ^ 30))
  else if decide (0x1000 ≤ off ∧ off < 0x1200) && off % 0x40 == 0 then mbxDoorbell ((off - 0x1000) / 0x40) v32 d
  else if decide (0x100000 ≤ off ∧ off < 0x200000) then
    (let n := (off - 0x100000) / 0x40
     if off % 0x40 = 0 then dbTail n v32 d else if off % 0x40 = 8 then dbResume n v32 d
     else if (getRing d n).isNone then logEvent d evRingNotCreated (.ring n) 0 else d)
  else if decide (0x300000 ≤ off ∧ off < 0x340000) then bellWrite ((off - 0x300000) / 4) (.set v32) d
  else if decide (0x340000 ≤ off ∧ off < 0x380000) then
    bellWrite ((off - 0x340000) / 4) (.add v32) d
  else if decide (0x1000000 ≤ off ∧ off < 0x3000000) then writeTileReg d ((off - 0x1000000) / 0x80000) (off % 0x80000) w
  else if off = 0x3005000 then restartWindows false (BitVec.ofNat 64 (w.merge d.counters.start.toNat)) d
  else if off = 0x3005008 then restartWindows true (BitVec.ofNat 64 (w.merge d.counters.period)) d
  else if decide (0x3840000 ≤ off ∧ off < 0x3840800) then
    { d with tally := modAt d.tally ((off - 0x3840000) / 0x400) fun t => { t with ovf := tputD t.ovf (off % 0x400 / 4) v32 0 } }
  else d

/-- A write to a buffer: the request buffer of a mailbox that may take it (R381), or the MSI-X table (R429). -/
def bufferWrite (d : Dev) (b : Buffer) (data : Bytes) : Dev := match b with
  | .request m r => match d.iabor.mbx[m]? with
    | none => d
    | some x =>
      if x.st = .busy then logEvent d evMbxBusy .hostLink 0
      else if x.st = .noFirmware then d
      else { d with iabor.mbx := modAt d.iabor.mbx m fun x => { x with req := splice x.req r data } }
  | .msix r =>
    let e := msixOf (splice (tgetD d.host.msix (r / 16) {}).bytes (r % 16) data)
    sendUnmasked { d with host.msix := tputD d.host.msix (r / 16) e {} }
  | _ => d

/-- The start of the register or place that a write at an offset reaches: a 64-bit register by its upper half too. -/
def regStart (d : Dev) (off : Nat) : Nat :=
  if off % 8 = 4 && (regAt d off).isNone && ((regAt d (off - 4)).any fun r => r.wide) then off - 4 else off

/-- A write of BAR0 (R8, R9, R20). -/
def registerWrite (off width : Nat) (value : W64) (d : Dev) : Dev :=
  if !(barOpen d) then d
  else if !(accessAllowed d off width) then badAccess d
  else match bufferAt off with
    | some b => bufferWrite d b (leBytes width value.toNat)
    | none =>
      let base := regStart d off
      let v := value.toNat % 256 ^ width
      writeReg d base (if base = off then { mask := 256 ^ width - 1, value := v }
        else { mask := (2 ^ 32 - 1) * 2 ^ 32, value := v * 2 ^ 32 })

/-- LL_BAR2_SLIDE_WRITE (R427). -/
def slideWrite (value : W64) (d : Dev) : Dev := if barOpen d then writeSlide d value.toNat else d

/-- CNT_WINDOW_RESTART (R439): a write of CNT_START or CNT_PERIOD. -/
def windowWrite (period : Bool) (value : W64) (d : Dev) : Dev := if barOpen d then restartWindows period value d else d

/-! ## BAR2 (R427, R428) -/

/-- The device address of a range in BAR2 space (R427). -/
def bar2Address (d : Dev) (off len : Nat) : Option Nat :=
  let a := off + d.host.slide * 2 ^ 30
  if 2 ^ (30 + d.host.bar2) < off + len then none
  else if a + len ≤ 84 * 2 ^ 30 then some a
  else if 96 * 2 ^ 30 ≤ a && a + len ≤ 104 * 2 ^ 30 then some (0x100000000000 + (a - 96 * 2 ^ 30))
  else none

/-- BAR2_READ (R427, R428). -/
def bar2Read (off len : Nat) (d : Dev) : Dev :=
  if !(linkUp d) then d
  else if d.host.d3hot then answerRead d .unsupported
  else match bar2Address d off len with
    | none => answerRead (badAccess d) (.data (List.replicate len 0xFF))
    | some a => match readMem d none a len with
      | (d1, .ok b) => answerRead d1 (.data b)
      | (d1, .error st) =>
        if st = stUncorrectable then answerRead (reportAer d1 aerAbort true) .completerAbort
        else answerRead (badAccess d1) (.data (List.replicate len 0xFF))

/-- A write cut at 16-byte words: the words that take it are written, one that is uncorrectable is left (R343, R428). -/
def writeWords : Nat → Nat → Bytes → Dev → Dev
  | 0, _, _, d => d
  | fuel + 1, a, data, d =>
    if data.isEmpty then d
    else
      let n := 16 - a % 16
      writeWords fuel (a + n) (data.drop n) (writeMem d none a (data.take n)).1

/-- BAR2_WRITE (R427, R428). -/
def bar2Write (off : Nat) (data : Bytes) (d : Dev) : Dev :=
  if !(barOpen d) then d
  else match bar2Address d off data.length with
    | none => badAccess d
    | some a => match accessFault d a data.length true with
      | some f => if f.1 = stUncorrectable then noteFault d f none else badAccess d
      | none => match writeMem d none a data with
        | (d1, none) => d1
        | (_, some _) => writeWords (data.length / 16 + 2) a data d

/-! ## Configuration space (R421, R423, R426, R429) -/

/-- The byte that a configuration write brings to an offset. -/
def cfgByte (off width : Nat) (value : W32) (k : Nat) : Option Nat :=
  if off ≤ k && k < off + width then some (value.toNat / 256 ^ (k - off) % 256) else none

/-- The bits of a 32-bit register that a configuration write sets to one. -/
def cfgOnes (off width : Nat) (value : W32) (base : Nat) : W32 :=
  BitVec.ofNat 32 ((List.range 4).foldl (fun n k => n + ((cfgByte off width value (base + k)).getD 0) * 256 ^ k) 0)

/-- D0 and D3hot (R423). -/
def cfgPower (d : Dev) (b : Option Nat) : Dev := match b with
  | none => d
  | some v => if v % 4 = 0 then { d with host.d3hot := false } else if v % 4 = 3 then { d with host.d3hot := true } else d

/-- MSI-X Enable and Function Mask (R429). -/
def cfgMsix (d : Dev) (b : Option Nat) : Dev := match b with
  | none => d
  | some v => sendUnmasked { d with host.msixEnable := bit v 7, host.msixMask := bit v 6 }

/-- The size of BAR2: 1 GiB to 128 GiB, coded as log2 of MiB; SLIDE rounds down to a multiple of it (R426, Table 17.11). -/
def cfgBar2 (d : Dev) (b : Option Nat) : Dev := match b with
  | none => d
  | some v =>
    let n := v % 64 - 10
    if v % 64 < 10 || 17 < v % 64 then d
    else { d with host.bar2 := n, host.slide := d.host.slide / 2 ^ n * 2 ^ n }

/-- CONFIG_SPACE_WRITE (R423; the places of the capabilities are PRESUMED, log 45). -/
def configWrite (off width : Nat) (value : W32) (d : Dev) : Dev :=
  if !(configOpen d) then d
  else
    let at_ := cfgByte off width value
    let d1 := cfgBar2 (cfgMsix (cfgPower d (at_ 0x44)) (at_ 0xB3)) (at_ 0x209)
    let d2 := { d1 with
      host.aerUnc := d1.host.aerUnc &&& ~~~(cfgOnes off width value 0x104)
      host.aerCor := d1.host.aerCor &&& ~~~(cfgOnes off width value 0x110) }
    if (at_ 0x59).any fun v => bit v 7 then functionReset d2 else d2

/-! ## The rows -/

/-- BAR0_READ. -/
def execBar0Read (off width : Nat) (s : State) : Out := act s (live (bar0Read off width))
/-- REGISTER_WRITE. -/
def execRegisterWrite (off width : Nat) (value : W64) (s : State) : Out := act s (live (registerWrite off width value))
/-- LL_BAR2_SLIDE_WRITE. -/
def execLlBar2SlideWrite (value : W64) (s : State) : Out := act s (live (slideWrite value))
/-- CNT_WINDOW_RESTART. -/
def execCntWindowRestart (period : Bool) (value : W64) (s : State) : Out := act s (live (windowWrite period value))
/-- BAR2_READ. -/
def execBar2Read (off len : Nat) (s : State) : Out := act s (live (bar2Read off len))
/-- BAR2_WRITE. -/
def execBar2Write (off : Nat) (data : Bytes) (s : State) : Out := act s (live (bar2Write off data))
/-- CONFIG_SPACE_WRITE. -/
def execConfigSpaceWrite (off width : Nat) (value : W32) (s : State) : Out := act s (live (configWrite off width value))

end Sys2Proof.Machine
end

