-- ==== Sys2Proof/Machine/Dispatch.lean ====
section
/-! DEFINITION. Which meaning each command has: one arm for each constructor of `Instr`, in the order of the table. -/

namespace Sys2Proof.Machine

/-- The effect of one command on everything but the queue. -/
def exec (i : Instr) (s : State) : Host.Outcome State Fault Refusal :=
  match i with
  | .powerOn => Sys2Proof.Machine.execPowerOn s
  | .powerLoss => Sys2Proof.Machine.execPowerLoss s
  | .bringupPhaseDone found => Sys2Proof.Machine.execBringupPhaseDone found s
  | .trainingRecordWrite => Sys2Proof.Machine.execTrainingRecordWrite s
  | .thermalTrip temp => Sys2Proof.Machine.execThermalTrip temp s
  | .tripRelease => Sys2Proof.Machine.execTripRelease s
  | .fastLimitEngage => Sys2Proof.Machine.execFastLimitEngage s
  | .fastLimitRelease => Sys2Proof.Machine.execFastLimitRelease s
  | .reevePowerMeasure mv ma => Sys2Proof.Machine.execReevePowerMeasure mv ma s
  | .tempSample tiles gddr => Sys2Proof.Machine.execTempSample tiles gddr s
  | .perstNAssert => Sys2Proof.Machine.execPerstNAssert s
  | .perstNDeassert => Sys2Proof.Machine.execPerstNDeassert s
  | .functionLevelReset => Sys2Proof.Machine.execFunctionLevelReset s
  | .pcieLinkChange speed width => Sys2Proof.Machine.execPcieLinkChange speed width s
  | .pcieError aer unc ended => Sys2Proof.Machine.execPcieError aer unc ended s
  | .hostReadTimeout ring seq => Sys2Proof.Machine.execHostReadTimeout ring seq s
  | .registerWrite off width value => Sys2Proof.Machine.execRegisterWrite off width value s
  | .llBar2SlideWrite value => Sys2Proof.Machine.execLlBar2SlideWrite value s
  | .bar2Read off len => Sys2Proof.Machine.execBar2Read off len s
  | .bar2Write off data => Sys2Proof.Machine.execBar2Write off data s
  | .llHardHaltWrite value => Sys2Proof.Machine.execLlHardHaltWrite value s
  | .dbTailWrite ring value => Sys2Proof.Machine.execDbTailWrite ring value s
  | .dbResumeWrite ring value => Sys2Proof.Machine.execDbResumeWrite ring value s
  | .bellValueWrite bell value => Sys2Proof.Machine.execBellValueWrite bell value s
  | .bellAddWrite bell value => Sys2Proof.Machine.execBellAddWrite bell value s
  | .cntWindowRestart period value => Sys2Proof.Machine.execCntWindowRestart period value s
  | .descriptorFetch ring hostErr => Sys2Proof.Machine.execDescriptorFetch ring hostErr s
  | .opIssue ring => Sys2Proof.Machine.execOpIssue ring s
  | .bellWaitStall ring => Sys2Proof.Machine.execBellWaitStall ring s
  | .opRetire ring hostErr => Sys2Proof.Machine.execOpRetire ring hostErr s
  | .hubNop ring seq => Sys2Proof.Machine.execHubNop ring seq s
  | .bellSet ring seq => Sys2Proof.Machine.execBellSet ring seq s
  | .bellAdd ring seq => Sys2Proof.Machine.execBellAdd ring seq s
  | .millMatmul ring seq => Sys2Proof.Machine.execMillMatmul ring seq s
  | .millDrain ring seq => Sys2Proof.Machine.execMillDrain ring seq s
  | .millRelease ring seq => Sys2Proof.Machine.execMillRelease ring seq s
  | .millWatchdogExpiry ring seq => Sys2Proof.Machine.execMillWatchdogExpiry ring seq s
  | .chuteSend ring seq transit => Sys2Proof.Machine.execChuteSend ring seq transit s
  | .chuteStall ring seq => Sys2Proof.Machine.execChuteStall ring seq s
  | .loomRun ring seq n => Sys2Proof.Machine.execLoomRun ring seq n s
  | .loomWatchdogExpiry tile eng => Sys2Proof.Machine.execLoomWatchdogExpiry tile eng s
  | .loomTakeStall tile eng => Sys2Proof.Machine.execLoomTakeStall tile eng s
  | .loomNop tile eng f => Sys2Proof.Machine.execLoomNop tile eng f s
  | .loomEnd tile eng f => Sys2Proof.Machine.execLoomEnd tile eng f s
  | .loomFault tile eng f => Sys2Proof.Machine.execLoomFault tile eng f s
  | .j tile eng f => Sys2Proof.Machine.execJ tile eng f s
  | .beq tile eng f => Sys2Proof.Machine.execBeq tile eng f s
  | .bne tile eng f => Sys2Proof.Machine.execBne tile eng f s
  | .blt tile eng f => Sys2Proof.Machine.execBlt tile eng f s
  | .bge tile eng f => Sys2Proof.Machine.execBge tile eng f s
  | .bltu tile eng f => Sys2Proof.Machine.execBltu tile eng f s
  | .loop tile eng f => Sys2Proof.Machine.execLoop tile eng f s
  | .bmz tile eng f => Sys2Proof.Machine.execBmz tile eng f s
  | .bmnz tile eng f => Sys2Proof.Machine.execBmnz tile eng f s
  | .call tile eng f => Sys2Proof.Machine.execCall tile eng f s
  | .ret tile eng f => Sys2Proof.Machine.execRet tile eng f s
  | .sadd tile eng f => Sys2Proof.Machine.execSadd tile eng f s
  | .ssub tile eng f => Sys2Proof.Machine.execSsub tile eng f s
  | .smul tile eng f => Sys2Proof.Machine.execSmul tile eng f s
  | .sand tile eng f => Sys2Proof.Machine.execSand tile eng f s
  | .sor tile eng f => Sys2Proof.Machine.execSor tile eng f s
  | .sxor tile eng f => Sys2Proof.Machine.execSxor tile eng f s
  | .sshl tile eng f => Sys2Proof.Machine.execSshl tile eng f s
  | .sshr tile eng f => Sys2Proof.Machine.execSshr tile eng f s
  | .ssra tile eng f => Sys2Proof.Machine.execSsra tile eng f s
  | .smin tile eng f => Sys2Proof.Machine.execSmin tile eng f s
  | .smax tile eng f => Sys2Proof.Machine.execSmax tile eng f s
  | .saddi tile eng f => Sys2Proof.Machine.execSaddi tile eng f s
  | .sshli tile eng f => Sys2Proof.Machine.execSshli tile eng f s
  | .sshri tile eng f => Sys2Proof.Machine.execSshri tile eng f s
  | .sli tile eng f => Sys2Proof.Machine.execSli tile eng f s
  | .slui tile eng f => Sys2Proof.Machine.execSlui tile eng f s
  | .sfadd tile eng f => Sys2Proof.Machine.execSfadd tile eng f s
  | .sfmul tile eng f => Sys2Proof.Machine.execSfmul tile eng f s
  | .sffma tile eng f => Sys2Proof.Machine.execSffma tile eng f s
  | .sctx tile eng f => Sys2Proof.Machine.execSctx tile eng f s
  | .vadd tile eng f => Sys2Proof.Machine.execVadd tile eng f s
  | .vsub tile eng f => Sys2Proof.Machine.execVsub tile eng f s
  | .vmul tile eng f => Sys2Proof.Machine.execVmul tile eng f s
  | .vfma tile eng f => Sys2Proof.Machine.execVfma tile eng f s
  | .vfms tile eng f => Sys2Proof.Machine.execVfms tile eng f s
  | .vfnma tile eng f => Sys2Proof.Machine.execVfnma tile eng f s
  | .vmin tile eng f => Sys2Proof.Machine.execVmin tile eng f s
  | .vmax tile eng f => Sys2Proof.Machine.execVmax tile eng f s
  | .vabs tile eng f => Sys2Proof.Machine.execVabs tile eng f s
  | .vneg tile eng f => Sys2Proof.Machine.execVneg tile eng f s
  | .vrcp tile eng f => Sys2Proof.Machine.execVrcp tile eng f s
  | .vrsqrt tile eng f => Sys2Proof.Machine.execVrsqrt tile eng f s
  | .vsqrt tile eng f => Sys2Proof.Machine.execVsqrt tile eng f s
  | .vdiv tile eng f => Sys2Proof.Machine.execVdiv tile eng f s
  | .vexp2 tile eng f => Sys2Proof.Machine.execVexp2 tile eng f s
  | .vlog2 tile eng f => Sys2Proof.Machine.execVlog2 tile eng f s
  | .vexp tile eng f => Sys2Proof.Machine.execVexp tile eng f s
  | .vtanh tile eng f => Sys2Proof.Machine.execVtanh tile eng f s
  | .vrint tile eng f => Sys2Proof.Machine.execVrint tile eng f s
  | .vldexp tile eng f => Sys2Proof.Machine.execVldexp tile eng f s
  | .viadd tile eng f => Sys2Proof.Machine.execViadd tile eng f s
  | .visub tile eng f => Sys2Proof.Machine.execVisub tile eng f s
  | .vimul tile eng f => Sys2Proof.Machine.execVimul tile eng f s
  | .vimin tile eng f => Sys2Proof.Machine.execVimin tile eng f s
  | .vimax tile eng f => Sys2Proof.Machine.execVimax tile eng f s
  | .vand tile eng f => Sys2Proof.Machine.execVand tile eng f s
  | .vor tile eng f => Sys2Proof.Machine.execVor tile eng f s
  | .vxor tile eng f => Sys2Proof.Machine.execVxor tile eng f s
  | .vshl tile eng f => Sys2Proof.Machine.execVshl tile eng f s
  | .vshr tile eng f => Sys2Proof.Machine.execVshr tile eng f s
  | .vmov tile eng f => Sys2Proof.Machine.execVmov tile eng f s
  | .vsel tile eng f => Sys2Proof.Machine.execVsel tile eng f s
  | .viota tile eng f => Sys2Proof.Machine.execViota tile eng f s
  | .vli tile eng f => Sys2Proof.Machine.execVli tile eng f s
  | .vcmpeq tile eng f => Sys2Proof.Machine.execVcmpeq tile eng f s
  | .vcmpne tile eng f => Sys2Proof.Machine.execVcmpne tile eng f s
  | .vcmplt tile eng f => Sys2Proof.Machine.execVcmplt tile eng f s
  | .vcmple tile eng f => Sys2Proof.Machine.execVcmple tile eng f s
  | .vcmpun tile eng f => Sys2Proof.Machine.execVcmpun tile eng f s
  | .visfin tile eng f => Sys2Proof.Machine.execVisfin tile eng f s
  | .mand tile eng f => Sys2Proof.Machine.execMand tile eng f s
  | .mor tile eng f => Sys2Proof.Machine.execMor tile eng f s
  | .mxor tile eng f => Sys2Proof.Machine.execMxor tile eng f s
  | .mnot tile eng f => Sys2Proof.Machine.execMnot tile eng f s
  | .mprefix tile eng f => Sys2Proof.Machine.execMprefix tile eng f s
  | .mpopc tile eng f => Sys2Proof.Machine.execMpopc tile eng f s
  | .mfirst tile eng f => Sys2Proof.Machine.execMfirst tile eng f s
  | .vcompress tile eng f => Sys2Proof.Machine.execVcompress tile eng f s
  | .vexpand tile eng f => Sys2Proof.Machine.execVexpand tile eng f s
  | .vperm tile eng f => Sys2Proof.Machine.execVperm tile eng f s
  | .vrot tile eng f => Sys2Proof.Machine.execVrot tile eng f s
  | .vbcast tile eng f => Sys2Proof.Machine.execVbcast tile eng f s
  | .vext tile eng f => Sys2Proof.Machine.execVext tile eng f s
  | .vins tile eng f => Sys2Proof.Machine.execVins tile eng f s
  | .rsumO tile eng f => Sys2Proof.Machine.execRsumO tile eng f s
  | .rsumOa tile eng f => Sys2Proof.Machine.execRsumOa tile eng f s
  | .rmax tile eng f => Sys2Proof.Machine.execRmax tile eng f s
  | .rmin tile eng f => Sys2Proof.Machine.execRmin tile eng f s
  | .risum tile eng f => Sys2Proof.Machine.execRisum tile eng f s
  | .viscan tile eng f => Sys2Proof.Machine.execViscan tile eng f s
  | .vcvtF2i tile eng f => Sys2Proof.Machine.execVcvtF2i tile eng f s
  | .vcvtI2f tile eng f => Sys2Proof.Machine.execVcvtI2f tile eng f s
  | .vpack tile eng f => Sys2Proof.Machine.execVpack tile eng f s
  | .vunpl tile eng f => Sys2Proof.Machine.execVunpl tile eng f s
  | .vunph tile eng f => Sys2Proof.Machine.execVunph tile eng f s
  | .vcvtX tile eng f => Sys2Proof.Machine.execVcvtX tile eng f s
  | .vdcdX tile eng f => Sys2Proof.Machine.execVdcdX tile eng f s
  | .vld tile eng f => Sys2Proof.Machine.execVld tile eng f s
  | .vst tile eng f => Sys2Proof.Machine.execVst tile eng f s
  | .vldf tile eng f => Sys2Proof.Machine.execVldf tile eng f s
  | .vstf tile eng f => Sys2Proof.Machine.execVstf tile eng f s
  | .vldx tile eng f => Sys2Proof.Machine.execVldx tile eng f s
  | .vstx tile eng f => Sys2Proof.Machine.execVstx tile eng f s
  | .sld tile eng f => Sys2Proof.Machine.execSld tile eng f s
  | .sst tile eng f => Sys2Proof.Machine.execSst tile eng f s
  | .mld tile eng f => Sys2Proof.Machine.execMld tile eng f s
  | .mst tile eng f => Sys2Proof.Machine.execMst tile eng f s
  | .vldg tile eng f => Sys2Proof.Machine.execVldg tile eng f s
  | .vstg tile eng f => Sys2Proof.Machine.execVstg tile eng f s
  | .accrd tile eng f => Sys2Proof.Machine.execAccrd tile eng f s
  | .chtake tile eng f => Sys2Proof.Machine.execChtake tile eng f s
  | .chsend tile eng f => Sys2Proof.Machine.execChsend tile eng f s
  | .cnsVal tile eng f => Sys2Proof.Machine.execCnsVal tile eng f s
  | .cnsSat tile eng f => Sys2Proof.Machine.execCnsSat tile eng f s
  | .cnsNf tile eng f => Sys2Proof.Machine.execCnsNf tile eng f s
  | .ucvt tile eng f => Sys2Proof.Machine.execUcvt tile eng f s
  | .ustf tile eng f => Sys2Proof.Machine.execUstf tile eng f s
  | .convMill ring seq => Sys2Proof.Machine.execConvMill ring seq s
  | .quernConv ring seq => Sys2Proof.Machine.execQuernConv ring seq s
  | .quernPool ring seq => Sys2Proof.Machine.execQuernPool ring seq s
  | .quernWatchdogExpiry ring seq => Sys2Proof.Machine.execQuernWatchdogExpiry ring seq s
  | .badgerGather ring seq => Sys2Proof.Machine.execBadgerGather ring seq s
  | .badgerScatter ring seq => Sys2Proof.Machine.execBadgerScatter ring seq s
  | .ledgerRecordArrive tile table row step failed => Sys2Proof.Machine.execLedgerRecordArrive tile table row step failed s
  | .ledgerFull ring seq => Sys2Proof.Machine.execLedgerFull ring seq s
  | .badgerUpdate ring seq => Sys2Proof.Machine.execBadgerUpdate ring seq s
  | .badgerMigrate ring seq => Sys2Proof.Machine.execBadgerMigrate ring seq s
  | .badgerWatchdogExpiry ring seq => Sys2Proof.Machine.execBadgerWatchdogExpiry ring seq s
  | .xmulw tile imm => Sys2Proof.Machine.execXmulw tile imm s
  | .xmuli tile imm => Sys2Proof.Machine.execXmuli tile imm s
  | .xaddi tile imm => Sys2Proof.Machine.execXaddi tile imm s
  | .xmaxi tile imm => Sys2Proof.Machine.execXmaxi tile imm s
  | .xmini tile imm => Sys2Proof.Machine.execXmini tile imm s
  | .xabs tile imm => Sys2Proof.Machine.execXabs tile imm s
  | .accsum tile imm => Sys2Proof.Machine.execAccsum tile imm s
  | .accmax tile imm => Sys2Proof.Machine.execAccmax tile imm s
  | .amuli tile imm => Sys2Proof.Machine.execAmuli tile imm s
  | .aaddi tile imm => Sys2Proof.Machine.execAaddi tile imm s
  | .adivn tile imm => Sys2Proof.Machine.execAdivn tile imm s
  | .arsqn tile imm => Sys2Proof.Machine.execArsqn tile imm s
  | .stepDecide ring seq => Sys2Proof.Machine.execStepDecide ring seq s
  | .stepCommit ring seq => Sys2Proof.Machine.execStepCommit ring seq s
  | .stepDecisionStall ring seq => Sys2Proof.Machine.execStepDecisionStall ring seq s
  | .ledgerBusyAtCommit ring seq => Sys2Proof.Machine.execLedgerBusyAtCommit ring seq s
  | .shardFetch ring seq => Sys2Proof.Machine.execShardFetch ring seq s
  | .shardFetchRetry ring seq => Sys2Proof.Machine.execShardFetchRetry ring seq s
  | .shardFetchStall ring seq => Sys2Proof.Machine.execShardFetchStall ring seq s
  | .unitRelease => Sys2Proof.Machine.execUnitRelease s
  | .seqReleaseStall ring => Sys2Proof.Machine.execSeqReleaseStall ring s
  | .offloadDone ring j prefetch bad => Sys2Proof.Machine.execOffloadDone ring j prefetch bad s
  | .stepAbandonRestart step => Sys2Proof.Machine.execStepAbandonRestart step s
  | .migrateDrainDone => Sys2Proof.Machine.execMigrateDrainDone s
  | .migrateCopyDone => Sys2Proof.Machine.execMigrateCopyDone s
  | .stageMigrateTimeout => Sys2Proof.Machine.execStageMigrateTimeout s
  | .streamBlockReceived die blk => Sys2Proof.Machine.execStreamBlockReceived die blk s
  | .decodeStart die => Sys2Proof.Machine.execDecodeStart die s
  | .sampleDecodeDone die stream out => Sys2Proof.Machine.execSampleDecodeDone die stream out s
  | .augSelect die a b imm => Sys2Proof.Machine.execAugSelect die a b imm s
  | .augCrop die a b imm => Sys2Proof.Machine.execAugCrop die a b imm s
  | .augFliph die a b imm => Sys2Proof.Machine.execAugFliph die a b imm s
  | .augResize die a b imm => Sys2Proof.Machine.execAugResize die a b imm s
  | .augColour die a b imm => Sys2Proof.Machine.execAugColour die a b imm s
  | .augAffine die a b imm => Sys2Proof.Machine.execAugAffine die a b imm s
  | .augTrim die a b imm => Sys2Proof.Machine.execAugTrim die a b imm s
  | .augGain die a b imm => Sys2Proof.Machine.execAugGain die a b imm s
  | .thBatchTimeout die cls => Sys2Proof.Machine.execThBatchTimeout die cls s
  | .batchEmit die cls => Sys2Proof.Machine.execBatchEmit die cls s
  | .batchCommit die cls transit => Sys2Proof.Machine.execBatchCommit die cls transit s
  | .creditBlockSend die => Sys2Proof.Machine.execCreditBlockSend die s
  | .timeBlockSend die => Sys2Proof.Machine.execTimeBlockSend die s
  | .thInject ring seq => Sys2Proof.Machine.execThInject ring seq s
  | .thFlush ring seq => Sys2Proof.Machine.execThFlush ring seq s
  | .flitReceived port flits cwOk => Sys2Proof.Machine.execFlitReceived port flits cwOk s
  | .nakReceived port lseq => Sys2Proof.Machine.execNakReceived port lseq s
  | .nakResend port => Sys2Proof.Machine.execNakResend port s
  | .linkInitReceived port init => Sys2Proof.Machine.execLinkInitReceived port init s
  | .retrainReqReceived port => Sys2Proof.Machine.execRetrainReqReceived port s
  | .portRetrainDone port trained => Sys2Proof.Machine.execPortRetrainDone port trained s
  | .fabMessageReceived port msg => Sys2Proof.Machine.execFabMessageReceived port msg s
  | .fabricRequestTimeout tag => Sys2Proof.Machine.execFabricRequestTimeout tag s
  | .lendRequestReceived port req => Sys2Proof.Machine.execLendRequestReceived port req s
  | .timeSyncExchange t1 t4 parent unsynced => Sys2Proof.Machine.execTimeSyncExchange t1 t4 parent unsynced s
  | .timeParentLoss => Sys2Proof.Machine.execTimeParentLoss s
  | .snapReqReceived step => Sys2Proof.Machine.execSnapReqReceived step s
  | .coll ring seq => Sys2Proof.Machine.execColl ring seq s
  | .segmentReceived seg => Sys2Proof.Machine.execSegmentReceived seg s
  | .segmentAckReceived ring seq count => Sys2Proof.Machine.execSegmentAckReceived ring seq count s
  | .presentReceived p => Sys2Proof.Machine.execPresentReceived p s
  | .collDeadline inst => Sys2Proof.Machine.execCollDeadline inst s
  | .maskReceived mask => Sys2Proof.Machine.execMaskReceived mask s
  | .resultReceived res => Sys2Proof.Machine.execResultReceived res s
  | .collFailTimeout ring seq => Sys2Proof.Machine.execCollFailTimeout ring seq s
  | .dmCopy ring seq transit word => Sys2Proof.Machine.execDmCopy ring seq transit word s
  | .dmFill ring seq => Sys2Proof.Machine.execDmFill ring seq s
  | .gddrRecal die mc ch ok => Sys2Proof.Machine.execGddrRecal die mc ch ok s
  | .scrubPatrol word flips last => Sys2Proof.Machine.execScrubPatrol word flips last s
  | .gddrEcsRead counts => Sys2Proof.Machine.execGddrEcsRead counts s
  | .grSnapshot ring seq => Sys2Proof.Machine.execGrSnapshot ring seq s
  | .pageTaken die => Sys2Proof.Machine.execPageTaken die s
  | .pageAck die page => Sys2Proof.Machine.execPageAck die page s
  | .snapshotAckTimeout die page => Sys2Proof.Machine.execSnapshotAckTimeout die page s
  | .seal => Sys2Proof.Machine.execSeal s
  | .grRestore ring seq => Sys2Proof.Machine.execGrRestore ring seq s
  | .grVerify ring seq => Sys2Proof.Machine.execGrVerify ring seq s
  | .grWcensus ring seq => Sys2Proof.Machine.execGrWcensus ring seq s
  | .wcensusRetry ring seq => Sys2Proof.Machine.execWcensusRetry ring seq s
  | .wcensusStall ring seq => Sys2Proof.Machine.execWcensusStall ring seq s
  | .grExport ring seq => Sys2Proof.Machine.execGrExport ring seq s
  | .owlEvaluate => Sys2Proof.Machine.execOwlEvaluate s
  | .heartbeat die => Sys2Proof.Machine.execHeartbeat die s
  | .iaborWatchdogExpiry die => Sys2Proof.Machine.execIaborWatchdogExpiry die s
  | .tallySpill die => Sys2Proof.Machine.execTallySpill die s
  | .counterWindowClose => Sys2Proof.Machine.execCounterWindowClose s
  | .mbxDoorbellRing m value => Sys2Proof.Machine.execMbxDoorbellRing m value s
  | .mbxComplete m => Sys2Proof.Machine.execMbxComplete m s
  | .mbNop m => Sys2Proof.Machine.execMbNop m s
  | .mbDeviceInfo m => Sys2Proof.Machine.execMbDeviceInfo m s
  | .mbFwStage m flashOk => Sys2Proof.Machine.execMbFwStage m flashOk s
  | .mbFwActivate m => Sys2Proof.Machine.execMbFwActivate m s
  | .fwReady => Sys2Proof.Machine.execFwReady s
  | .fwActivateTimeout refused => Sys2Proof.Machine.execFwActivateTimeout refused s
  | .mbFwCommit m blown => Sys2Proof.Machine.execMbFwCommit m blown s
  | .mbFwStatus m => Sys2Proof.Machine.execMbFwStatus m s
  | .mbIdentCert m => Sys2Proof.Machine.execMbIdentCert m s
  | .mbAttest m => Sys2Proof.Machine.execMbAttest m s
  | .mbSanitise m => Sys2Proof.Machine.execMbSanitise m s
  | .mbRingCreate m => Sys2Proof.Machine.execMbRingCreate m s
  | .mbRingDestroy m => Sys2Proof.Machine.execMbRingDestroy m s
  | .mbChuteBind m => Sys2Proof.Machine.execMbChuteBind m s
  | .mbChuteUnbind m => Sys2Proof.Machine.execMbChuteUnbind m s
  | .mbLoomLoad m => Sys2Proof.Machine.execMbLoomLoad m s
  | .mbLoomUnload m => Sys2Proof.Machine.execMbLoomUnload m s
  | .mbBadgerLoad m => Sys2Proof.Machine.execMbBadgerLoad m s
  | .mbBadgerTable m => Sys2Proof.Machine.execMbBadgerTable m s
  | .mbNumConfig m => Sys2Proof.Machine.execMbNumConfig m s
  | .mbStepClear m => Sys2Proof.Machine.execMbStepClear m s
  | .mbStageBind m => Sys2Proof.Machine.execMbStageBind m s
  | .mbStageUnbind m => Sys2Proof.Machine.execMbStageUnbind m s
  | .mbSeqLoad m => Sys2Proof.Machine.execMbSeqLoad m s
  | .mbSeqConfig m => Sys2Proof.Machine.execMbSeqConfig m s
  | .mbStageMigrate m => Sys2Proof.Machine.execMbStageMigrate m s
  | .mbThPort m lanes => Sys2Proof.Machine.execMbThPort m lanes s
  | .mbThStream m => Sys2Proof.Machine.execMbThStream m s
  | .mbThClass m => Sys2Proof.Machine.execMbThClass m s
  | .mbThAugLoad m => Sys2Proof.Machine.execMbThAugLoad m s
  | .mbThVocab m => Sys2Proof.Machine.execMbThVocab m s
  | .mbFabConfig m trained => Sys2Proof.Machine.execMbFabConfig m trained s
  | .mbFabPort m trained => Sys2Proof.Machine.execMbFabPort m trained s
  | .mbFabStatus m => Sys2Proof.Machine.execMbFabStatus m s
  | .mbFabRoute m => Sys2Proof.Machine.execMbFabRoute m s
  | .mbGroupSet m => Sys2Proof.Machine.execMbGroupSet m s
  | .mbGroupClear m => Sys2Proof.Machine.execMbGroupClear m s
  | .mbMemRecal m => Sys2Proof.Machine.execMbMemRecal m s
  | .mbMemScrub m => Sys2Proof.Machine.execMbMemScrub m s
  | .mbMemHostmap m => Sys2Proof.Machine.execMbMemHostmap m s
  | .mbMemLend m => Sys2Proof.Machine.execMbMemLend m s
  | .mbMemBorrow m => Sys2Proof.Machine.execMbMemBorrow m s
  | .mbGranaryConfig m => Sys2Proof.Machine.execMbGranaryConfig m s
  | .mbOwlConfig m => Sys2Proof.Machine.execMbOwlConfig m s
  | .mbOwlStatus m => Sys2Proof.Machine.execMbOwlStatus m s
  | .mbTelemetry m => Sys2Proof.Machine.execMbTelemetry m s
  | .mbPowerDomain m => Sys2Proof.Machine.execMbPowerDomain m s
  | .mbPowerLimit m => Sys2Proof.Machine.execMbPowerLimit m s
  | .mbTrainSave m flashOk => Sys2Proof.Machine.execMbTrainSave m flashOk s
  | .mbTallyRead m => Sys2Proof.Machine.execMbTallyRead m s
  | .mbCounterSelect m => Sys2Proof.Machine.execMbCounterSelect m s
  | .bar0Read off width => Sys2Proof.Machine.execBar0Read off width s
  | .configSpaceWrite off width value => Sys2Proof.Machine.execConfigSpaceWrite off width value s

end Sys2Proof.Machine
end

