-- ==== Sys2Proof/Machine/Step.lean ====
section
/-! DEFINITION. One step of the block: the command at the front of the queue, or one control cycle when none waits. -/

namespace Sys2Proof.Machine

/-- One step: the front command takes effect on the device with the queue's rest; on an empty queue one control cycle
passes (DESIGN CHOICE, log 2). -/
def step (s : State) : Host.Outcome State Fault Refusal :=
  match s.pending with
  | [] => .next (tickState s)
  | c :: rest => exec c { s with pending := rest }

/-- `s` with the command that the word `w` spells put at the front of its queue; `s` itself where it spells none. -/
def State.withFetchWord (s : State) (nbits w : Nat) : State :=
  match decodeTableWord nbits w with
  | none => s
  | some c => { s with pending := c :: s.pending }

end Sys2Proof.Machine
end

