-- ==== Sys2Proof/Safety.lean ====
section
/-! DEFINITION. What counts as a safe step of the block, and the terms the statements use: how a command acts on the device,
which part of it may have changed, and how an operation has ended. -/

namespace Sys2Proof.Safety

open Sys2Proof.Machine

/-! ## Steps -/

/-- A step that goes on: neither a fault nor a refusal. -/
def goesOn (s : State) : Prop := ∃ t, step s = .next t

/-- The device of the next state, where the command has the queue left as it is. -/
abbrev acts (c : Instr) (s : State) (p : Dev → Prop) : Prop := ∃ d, exec c s = .next { s with dev := d } ∧ p d

/-- The package is powered, no hard halt is in force, and no write waits for a page of a snapshot. -/
abbrev atWork (s : State) : Prop :=
  s.dev.power.on = true ∧ s.dev.hub.hardHalted = false ∧ s.dev.granary.stalls = []

/-- The package is powered, and no write waits for a page of a snapshot: what commands need that a hard halt does not stop. -/
abbrev powered (s : State) : Prop := s.dev.power.on = true ∧ s.dev.granary.stalls = []

/-- Commands that a hard halt leaves their effect: those of power, the host, the mailboxes, the links and memory upkeep
(R420). -/
def outsideEngines : Instr → Bool
  | .powerOn | .powerLoss | .bringupPhaseDone .. | .trainingRecordWrite | .thermalTrip .. | .tripRelease
  | .fastLimitEngage | .fastLimitRelease | .reevePowerMeasure .. | .tempSample .. | .perstNAssert | .perstNDeassert
  | .functionLevelReset | .pcieLinkChange .. | .pcieError .. | .registerWrite .. | .llBar2SlideWrite ..
  | .bar2Read .. | .bar2Write .. | .llHardHaltWrite .. | .dbTailWrite .. | .dbResumeWrite .. | .bellValueWrite ..
  | .bellAddWrite .. | .cntWindowRestart .. | .flitReceived .. | .nakReceived .. | .nakResend ..
  | .linkInitReceived .. | .retrainReqReceived .. | .portRetrainDone .. | .fabMessageReceived ..
  | .lendRequestReceived .. | .timeSyncExchange .. | .timeParentLoss | .gddrRecal .. | .scrubPatrol ..
  | .gddrEcsRead .. | .heartbeat .. | .iaborWatchdogExpiry .. | .tallySpill .. | .counterWindowClose
  | .mbxDoorbellRing .. | .mbxComplete .. | .mbNop .. | .mbDeviceInfo .. | .mbFwStage .. | .mbFwActivate ..
  | .fwReady | .fwActivateTimeout .. | .mbFwCommit .. | .mbFwStatus .. | .mbIdentCert .. | .mbAttest ..
  | .mbSanitise .. | .mbRingCreate .. | .mbRingDestroy .. | .mbChuteBind .. | .mbChuteUnbind .. | .mbLoomLoad ..
  | .mbLoomUnload .. | .mbBadgerLoad .. | .mbBadgerTable .. | .mbNumConfig .. | .mbStepClear .. | .mbStageBind ..
  | .mbStageUnbind .. | .mbSeqLoad .. | .mbSeqConfig .. | .mbStageMigrate .. | .mbThPort .. | .mbThStream ..
  | .mbThClass .. | .mbThAugLoad .. | .mbThVocab .. | .mbFabConfig .. | .mbFabPort .. | .mbFabStatus ..
  | .mbFabRoute .. | .mbGroupSet .. | .mbGroupClear .. | .mbMemRecal .. | .mbMemScrub .. | .mbMemHostmap ..
  | .mbMemLend .. | .mbMemBorrow .. | .mbGranaryConfig .. | .mbOwlConfig .. | .mbOwlStatus .. | .mbTelemetry ..
  | .mbPowerDomain .. | .mbPowerLimit .. | .mbTrainSave .. | .mbTallyRead .. | .mbCounterSelect .. | .bar0Read ..
  | .configSpaceWrite .. => true
  | _ => false

/-! ## Operations -/

/-- An operation with this opcode is issued to a unit, has nothing to send, and is the oldest that the unit has yet to carry
out. -/
abbrev atEngine (d : Dev) (code : Nat) (n : OpName) (t : Target) (o : Op) : Prop :=
  issuedOp d n = some o ∧ ringTarget d n.ring = some t ∧ o.opcode = code ∧ o.sends = [] ∧
  ((issuedTo d t).find? fun e => e.2.sends.isEmpty).map (fun e => (e.1, e.2.seq)) = some (n.ring, n.seq)

/-- An operation with this opcode is issued to a data mover, which has started it (R345). -/
abbrev moverAt (d : Dev) (code : Nat) (n : OpName) (die : Nat) (o : Op) : Prop :=
  issuedOp d n = some o ∧ ringTarget d n.ring = some (.mover die) ∧ o.opcode = code ∧ moverStarted d die n o = true

/-- How an operation stands: its phase, status and DETAIL. -/
abbrev standing (d : Dev) (n : OpName) : Option (OpPhase × Byte × W64) :=
  (getOp d n).map fun o => (o.phase, o.status, o.detail)

/-- The operation has ended at its engine with a status and DETAIL. -/
abbrev ended (d : Dev) (n : OpName) (st : Byte) (detail : Nat) : Prop :=
  standing d n = some (.complete, st, BitVec.ofNat 64 detail)

/-- Operation `o` of ring `r`, number `ring`, is the oldest not yet retired and has ended in time to retire in the control
cycle in progress, with no census to merge. -/
abbrev retires (d : Dev) (ring : Nat) (r : Ring) (t : Target) (o : Op) (rest : List Op) : Prop :=
  getRing d ring = some r ∧ targetOf r.target = some t ∧ r.st = .running ∧ r.haltAt = none ∧ r.ops = o :: rest ∧
  (∀ p ∈ rest, p.seq ≠ o.seq) ∧ o.phase = .complete ∧ o.aborted = false ∧ o.census = [] ∧ o.completeAt < cycle d ∧
  tget d.hub.lastRetire ring ≠ some (cycle d)

/-- What changed the bell last did so in an earlier control cycle. -/
abbrev bellQuiet (d : Dev) (b : Nat) : Prop := ((tget d.hub.bellNow b).all fun c => decide (c.cycle < cycle d)) = true

/-- No chute is bound and the Sequencer holds no script and no unit. -/
abbrev unstaged (d : Dev) : Prop := d.chutes = [] ∧ d.seq.scripts = [] ∧ d.seq.units = []

/-! ## Events -/

/-- One occurrence of a recorded event has been reported: the Owl has seen it, and the Tally of its source's die has taken it
(R432, R433). -/
def recorded (d d' : Dev) (ev : Nat) (src : Source) (detail : Nat) : Prop :=
  let die := sourceDie d src
  d'.tally = d.tally.set die ((d.tally.getD die {}).report (deviceTime d) (BitVec.ofNat 16 (ev + 4096 * die))
    (BitVec.ofNat 16 src.code) (BitVec.ofNat 64 detail)).tally ∧
  tgetD d'.owl.events ev 0 = tgetD d.owl.events ev 0 + 1

/-! ## The Loom -/

/-- The register files have their full size (Table 6.1). -/
abbrev filesWhole (l : Loom) : Prop :=
  l.s.length = 32 ∧ l.m.length = 16 ∧ l.v.length = 64 ∧ ∀ x ∈ l.v, x.length = 256

/-- The instruction stands at the PC of the operation's program, in a word of instruction memory without error (R185, R186). -/
abbrev atPc (d : Dev) (tile eng : Nat) (o : Op) (op : LoomOp) (f : LoomFields) : Prop :=
  let l := getLoom d tile eng
  ((l.images.find? fun i => i.id == o.image).any fun g =>
    decodeLoom (g.instrs.getD l.pc 0) == some { op := op, f := f } && (tget d.mem.flips (imemWord tile eng g.slot l.pc)).isNone) = true

/-- A Loom runs an operation, at whose PC an instruction stands that a load accepts; it may be waiting in CHTAKE or CHSEND. -/
abbrev loomRuns (s : State) (tile eng : Nat) (n : OpName) (o : Op) (op : LoomOp) (f : LoomFields) : Prop :=
  atWork s ∧ loomExists tile eng = true ∧ loomRunning s.dev tile eng = some (n, o) ∧ atPc s.dev tile eng o op f ∧
  filesWhole (getLoom s.dev tile eng) ∧ acceptLoom (getLoom s.dev tile eng).length { op := op, f := f } = true

/-- A Loom runs an operation that may issue the instruction: it stands at the PC, a load accepts it, and no wait holds the
program. -/
abbrev loomReady (s : State) (tile eng : Nat) (n : OpName) (o : Op) (op : LoomOp) (f : LoomFields) : Prop :=
  atWork s ∧ loomExists tile eng = true ∧ loomRunning s.dev tile eng = some (n, o) ∧ atPc s.dev tile eng o op f ∧
  filesWhole (getLoom s.dev tile eng) ∧ (getLoom s.dev tile eng).waitFrom = none ∧
  acceptLoom (getLoom s.dev tile eng).length { op := op, f := f } = true

/-- The command that issues an instruction by itself. -/
def loomCmd (tile eng : Nat) (f : LoomFields) : LoomOp → Instr
  | .loomNop => .loomNop tile eng f
  | .loomEnd => .loomEnd tile eng f
  | .loomFault => .loomFault tile eng f
  | .j => .j tile eng f
  | .beq => .beq tile eng f
  | .bne => .bne tile eng f
  | .blt => .blt tile eng f
  | .bge => .bge tile eng f
  | .bltu => .bltu tile eng f
  | .loop => .loop tile eng f
  | .bmz => .bmz tile eng f
  | .bmnz => .bmnz tile eng f
  | .call => .call tile eng f
  | .ret => .ret tile eng f
  | .sadd => .sadd tile eng f
  | .ssub => .ssub tile eng f
  | .smul => .smul tile eng f
  | .sand => .sand tile eng f
  | .sor => .sor tile eng f
  | .sxor => .sxor tile eng f
  | .sshl => .sshl tile eng f
  | .sshr => .sshr tile eng f
  | .ssra => .ssra tile eng f
  | .smin => .smin tile eng f
  | .smax => .smax tile eng f
  | .saddi => .saddi tile eng f
  | .sshli => .sshli tile eng f
  | .sshri => .sshri tile eng f
  | .sli => .sli tile eng f
  | .slui => .slui tile eng f
  | .sfadd => .sfadd tile eng f
  | .sfmul => .sfmul tile eng f
  | .sffma => .sffma tile eng f
  | .sctx => .sctx tile eng f
  | .vadd => .vadd tile eng f
  | .vsub => .vsub tile eng f
  | .vmul => .vmul tile eng f
  | .vfma => .vfma tile eng f
  | .vfms => .vfms tile eng f
  | .vfnma => .vfnma tile eng f
  | .vmin => .vmin tile eng f
  | .vmax => .vmax tile eng f
  | .vabs => .vabs tile eng f
  | .vneg => .vneg tile eng f
  | .vrcp => .vrcp tile eng f
  | .vrsqrt => .vrsqrt tile eng f
  | .vsqrt => .vsqrt tile eng f
  | .vdiv => .vdiv tile eng f
  | .vexp2 => .vexp2 tile eng f
  | .vlog2 => .vlog2 tile eng f
  | .vexp => .vexp tile eng f
  | .vtanh => .vtanh tile eng f
  | .vrint => .vrint tile eng f
  | .vldexp => .vldexp tile eng f
  | .viadd => .viadd tile eng f
  | .visub => .visub tile eng f
  | .vimul => .vimul tile eng f
  | .vimin => .vimin tile eng f
  | .vimax => .vimax tile eng f
  | .vand => .vand tile eng f
  | .vor => .vor tile eng f
  | .vxor => .vxor tile eng f
  | .vshl => .vshl tile eng f
  | .vshr => .vshr tile eng f
  | .vmov => .vmov tile eng f
  | .vsel => .vsel tile eng f
  | .viota => .viota tile eng f
  | .vli => .vli tile eng f
  | .vcmpeq => .vcmpeq tile eng f
  | .vcmpne => .vcmpne tile eng f
  | .vcmplt => .vcmplt tile eng f
  | .vcmple => .vcmple tile eng f
  | .vcmpun => .vcmpun tile eng f
  | .visfin => .visfin tile eng f
  | .mand => .mand tile eng f
  | .mor => .mor tile eng f
  | .mxor => .mxor tile eng f
  | .mnot => .mnot tile eng f
  | .mprefix => .mprefix tile eng f
  | .mpopc => .mpopc tile eng f
  | .mfirst => .mfirst tile eng f
  | .vcompress => .vcompress tile eng f
  | .vexpand => .vexpand tile eng f
  | .vperm => .vperm tile eng f
  | .vrot => .vrot tile eng f
  | .vbcast => .vbcast tile eng f
  | .vext => .vext tile eng f
  | .vins => .vins tile eng f
  | .rsumO => .rsumO tile eng f
  | .rsumOa => .rsumOa tile eng f
  | .rmax => .rmax tile eng f
  | .rmin => .rmin tile eng f
  | .risum => .risum tile eng f
  | .viscan => .viscan tile eng f
  | .vcvtF2i => .vcvtF2i tile eng f
  | .vcvtI2f => .vcvtI2f tile eng f
  | .vpack => .vpack tile eng f
  | .vunpl => .vunpl tile eng f
  | .vunph => .vunph tile eng f
  | .vcvtX => .vcvtX tile eng f
  | .vdcdX => .vdcdX tile eng f
  | .vld => .vld tile eng f
  | .vst => .vst tile eng f
  | .vldf => .vldf tile eng f
  | .vstf => .vstf tile eng f
  | .vldx => .vldx tile eng f
  | .vstx => .vstx tile eng f
  | .sld => .sld tile eng f
  | .sst => .sst tile eng f
  | .mld => .mld tile eng f
  | .mst => .mst tile eng f
  | .vldg => .vldg tile eng f
  | .vstg => .vstg tile eng f
  | .accrd => .accrd tile eng f
  | .chtake => .chtake tile eng f
  | .chsend => .chsend tile eng f
  | .cnsVal => .cnsVal tile eng f
  | .cnsSat => .cnsSat tile eng f
  | .cnsNf => .cnsNf tile eng f
  | .ucvt => .ucvt tile eng f
  | .ustf => .ustf tile eng f

/-- No Loom but this one has changed. -/
abbrev otherLooms (d d' : Dev) (tile eng : Nat) : Prop :=
  ∀ k, k ≠ loomIndex tile eng → tget d'.looms k = tget d.looms k

/-- Nothing has changed but the Looms and the event counters. -/
abbrev onlyLooms (d d' : Dev) : Prop := { d' with looms := d.looms, counters := d.counters } = d

/-- Only the register files may differ. -/
abbrev onlyFiles (l l' : Loom) : Prop := { l' with s := l.s, m := l.m, v := l.v } = l

/-- Nothing has changed but the Looms, the event counters and the rings' operations. -/
abbrev onlyOps (d d' : Dev) : Prop := { d' with looms := d.looms, counters := d.counters, hub.rings := d.hub.rings } = d

/-- Nothing has changed but the Looms, the counters, the operations and the bytes of SRAM and GDDR7. -/
abbrev onlyStores (d d' : Dev) : Prop :=
  { d' with
    looms := d.looms, counters := d.counters, hub.rings := d.hub.rings, mem.cells := d.mem.cells, mem.flips := d.mem.flips } = d

/-- What follows an instruction that leaves the Loom as `l`, where `frame` tells what else may have changed: the next
instruction; or, past the last one, the end of the operation with fault code 0x0C (R178). -/
def loomGoesOnIn (frame : Dev → Dev → Prop) (d d' : Dev) (tile eng : Nat) (n : OpName) (l : Loom) : Prop :=
  otherLooms d d' tile eng ∧
  if l.pc + 1 < l.length then getLoom d' tile eng = { l with pc := l.pc + 1 } ∧ frame d d'
  else
    getLoom d' tile eng = { l with run := none, waitFrom := none, waitOut := none, waitIn := none } ∧
    ended d' n 0x2A ((l.length - 1) % 65536 + 0x0C * 65536)

/-- The same for an instruction that changes nothing but its Loom. -/
abbrev loomGoesOn (d d' : Dev) (tile eng : Nat) (n : OpName) (l : Loom) : Prop := loomGoesOnIn onlyLooms d d' tile eng n l

/-- Lane `k` of a vector register. -/
abbrev lane (l : Loom) (i : BitVec 6) (k : Nat) : W32 := (l.vreg i).getD k 0

/-- Lane `k` of operand A: of a vector register, or a broadcast scalar (Table 6.3). -/
abbrev laneOfA (l : Loom) (f : LoomFields) (k : Nat) : W32 := if f.as then (l.sreg f.a).setWidth 32 else lane l f.a k

/-- Lane `k` of operand B. -/
abbrev laneOfB (l : Loom) (f : LoomFields) (k : Nat) : W32 := if f.bs then (l.sreg f.b).setWidth 32 else lane l f.b k

/-- Lane `k` is active (R156). -/
abbrev isActive (l : Loom) (f : LoomFields) (k : Nat) : Bool := (l.active f).getLsbD k

/-- The Loom `l'` differs from `l` in scalar register `i` alone, which holds `x`. -/
abbrev scalarSet (l l' : Loom) (i : BitVec 6) (x : W64) : Prop := l' = { l with s := l.s.set i.toNat x }

/-- An instruction that writes scalar D with `val`. -/
def scalarResult (mk : Nat → Nat → LoomFields → Instr) (op : LoomOp) (val : LoomFields → Loom → W64) : Prop :=
  ∀ s tile eng n o f, loomReady s tile eng n o op f →
    acts (mk tile eng f) s fun d => ∃ l, scalarSet (getLoom s.dev tile eng) l f.d (val f (getLoom s.dev tile eng)) ∧
      loomGoesOn s.dev d tile eng n l

/-- Vector register `i` of `l'` holds `val k` in lane `k`, for each lane, and nothing else differs from `l`. -/
def vectorSet (l l' : Loom) (i : BitVec 6) (val : Nat → W32) : Prop :=
  { l' with v := l.v } = l ∧ (∀ j, j ≠ i → l'.vreg j = l.vreg j) ∧ ∀ k, k < 256 → lane l' i k = val k

/-- An instruction that writes the active lanes of D with `val`; the others keep what they held (Table 6.6). -/
def vectorResult (mk : Nat → Nat → LoomFields → Instr) (op : LoomOp) (val : LoomFields → Loom → Nat → W32) : Prop :=
  ∀ s tile eng n o f, loomReady s tile eng n o op f →
    acts (mk tile eng f) s fun d => ∃ l,
      (let l0 := getLoom s.dev tile eng
       vectorSet l0 l f.d fun k => if isActive l0 f k then val f l0 k else lane l0 f.d k) ∧
      loomGoesOn s.dev d tile eng n l

/-- Mask register `i` of `l'` holds `val k` in lane `k`, and nothing else differs from `l`. -/
def maskSet (l l' : Loom) (i : Nat) (val : Nat → Bool) : Prop :=
  { l' with m := l.m } = l ∧ (∀ j, j ≠ i → l'.mreg j = l.mreg j) ∧ ∀ k, k < 256 → (l'.mreg i).getLsbD k = val k

/-- An instruction that writes mask D with `val`; `masked` tells that inactive lanes become 0 (Table 6.6). -/
def maskResult (mk : Nat → Nat → LoomFields → Instr) (op : LoomOp) (masked : Bool) (val : LoomFields → Loom → Nat → Bool) :
    Prop :=
  ∀ s tile eng n o f, loomReady s tile eng n o op f →
    acts (mk tile eng f) s fun d => ∃ l,
      (let l0 := getLoom s.dev tile eng
       maskSet l0 l f.d.toNat fun k => val f l0 k && (!masked || isActive l0 f k)) ∧
      loomGoesOn s.dev d tile eng n l

/-- A branch goes to TARGET where `taken` holds, and on to the next instruction elsewhere; `l` is the Loom after it but for
the PC. -/
def branchResult (mk : Nat → Nat → LoomFields → Instr) (op : LoomOp) (taken : LoomFields → Loom → Bool)
    (regs : LoomFields → Loom → Loom) : Prop :=
  ∀ s tile eng n o f, loomReady s tile eng n o op f →
    acts (mk tile eng f) s fun d =>
      let l := getLoom s.dev tile eng
      if taken f l then
        otherLooms s.dev d tile eng ∧ onlyLooms s.dev d ∧ getLoom d tile eng = { regs f l with pc := f.target.toNat }
      else loomGoesOn s.dev d tile eng n (regs f l)

/-- No accumulator set but the one at this handle has changed, and nothing else but operations and counters. -/
abbrev onlySet (d d' : Dev) (tile h : Nat) : Prop :=
  (∀ g, g ≠ h → setAt d' tile g = setAt d tile g) ∧ (∀ u, u ≠ tile → tget d'.mills u = tget d.mills u) ∧
  { d' with mills := d.mills, hub.rings := d.hub.rings, counters := d.counters } = d

/-! ### Memory -/

/-- Bytes of a tile's SRAM that can be read and written as they are stored: inside the tile's capacity, powered, not retired,
with no stored error. -/
abbrev sramClear (d : Dev) (tile off n : Nat) : Prop :=
  off + n ≤ tileCapacity tile ∧ tileRetired d tile = false ∧ domainOn d tile = true ∧ domainOn d (64 + tile) = true ∧
  flipsIn d (sramBase tile + off) n = []

/-- Bytes of a die's GDDR7 that can be read and written as they are stored. -/
abbrev gddrClear (d : Dev) (die a n : Nat) : Prop :=
  rangeRegion d a n = .gddr die ∧ accessFault d a n true = none ∧ flipsIn d a n = []

/-- A range lies in one die's GDDR7 or one tile's SRAM. -/
def inOwnMemory (d : Dev) (a n : Nat) : Bool := match rangeRegion d a n with
  | .gddr _ => true
  | .sram _ => true
  | _ => false

/-- Bytes of GDDR7 or SRAM that can be read and written as they are stored. -/
abbrev memClear (d : Dev) (a n : Nat) : Prop := inOwnMemory d a n = true ∧ accessFault d a n true = none ∧ flipsIn d a n = []

/-- The bytes of memory are in canonical form, and the Granary watches no write. -/
abbrev plainMemory (d : Dev) : Prop := memoryWf d.mem = true ∧ d.granary.cfg = none

/-- The byte of SRAM or GDDR7 at a device address. -/
abbrev byteAt (d : Dev) (a : Nat) : Byte := cellGet d.mem.cells a

/-- Four bytes at an address, as a lane. -/
abbrev wordAt (d : Dev) (a : Nat) : W32 := BitVec.ofNat 32 (leNat (cellsRead d.mem.cells a 4))

/-- After a store of `size` bytes for each lane `k` of `on`, at `addr k`: each byte reads as `val k` spells it, and every byte
outside those reads as before. Where lanes overlap, the highest remains (R165). -/
def lanesStored (d d' : Dev) (on : Nat → Bool) (size : Nat) (addr : Nat → Nat) (val : Nat → Nat) : Prop :=
  ∀ x, byteAt d' x =
    match (List.range 256).reverse.find? (fun k => on k && decide (addr k ≤ x) && decide (x < addr k + size)) with
    | some k => (leBytes size (val k)).getD (x - addr k) 0
    | none => byteAt d x

/-- After a store of bytes at an address: they read back, and every byte outside them reads as before. -/
def bytesStored (d d' : Dev) (a : Nat) (b : Bytes) : Prop :=
  ∀ x, byteAt d' x = if a ≤ x ∧ x < a + b.length then b.getD (x - a) 0 else byteAt d x

/-! ### Reductions -/

/-- The operands of chunk `c` of one side of a product, as memory holds them. -/
def sideRows (d : Dev) (x : Side) (k c : Nat) : ChunkRows :=
  chunkOperands x.fmt x.kout x.n k c
    ((chunkRuns x.base x.stride x.fmt.code x.kout x.n k c).map fun r => cellsRead d.mem.cells r.1 r.2)
    ((scaleRuns x.scaleBase x.scaleStride x.fmt.mx x.kout x.n c).map fun r => cellsRead d.mem.cells r.1 r.2)

/-- All that a product of `k` positions reads of one side is stored without error. -/
abbrev sideClear (d : Dev) (x : Side) (k : Nat) : Prop :=
  ∀ c, c < (k + 31) / 32 → ∀ r ∈ scaleRuns x.scaleBase x.scaleStride x.fmt.mx x.kout x.n c ++
    chunkRuns x.base x.stride x.fmt.code x.kout x.n k c, memClear d r.1 r.2

/-- Chunks 0 to `n` − 1 added to `start` in ascending order (R111). -/
def reduced (p : MillPath) (acc : Nat) (fa fb : Fmt) (n : Nat) (a b : Nat → List (Option Operand)) (start : Option Nat) : Option Nat :=
  (List.range n).foldl (fun x c => some (addChunk p acc fa fb x (a c) (b c))) start

/-- Accumulator set `y` is `x` after a product of M × N elements whose element (i, j) is `e i j`: elsewhere +0, or under ADD what
was there (R112, R129). -/
def setTakes (x y : AccSet) (add : Bool) (m n : Nat) (e : Nat → Nat → Option Nat) : Prop :=
  { y with elems := x.elems, stale := x.stale } = x ∧ y.stale = false ∧
  ∀ i j, i < (shapeDims x.shape.toNat).1 → j < (shapeDims x.shape.toNat).2 →
    let old := if add then x.elem i j else 0
    y.elem i j = (BitVec.ofNat 32 (if i < m ∧ j < n then (e i j).getD old else old)).toNat

/-- One floating-point element: the exact result `g` of the operands' values, converted under RC without tensor scale, the
first NaN operand taken first (R157). -/
abbrev fpElem (ty rc : Nat) (g : List Val → Val) (xs : List Val) : Nat := roundElem ty rc ((firstNan xs).getD (g xs))

/-- One FP32 result of FP32 patterns. -/
abbrev fp32 (rc : Nat) (g : List Val → Val) (xs : List W32) : W32 := BitVec.ofNat 32 (fpElem 0 rc g (xs.map f32))

/-! ### Convolution and pooling -/

/-- Every place of a list that is read is stored without error. -/
abbrev readsClear (d : Dev) (l : List (Option (Nat × Nat))) : Prop := ∀ a k, some (a, k) ∈ l → memClear d a k

/-- What memory holds at the places of a list that are read. -/
def placesRead (d : Dev) (l : List (Option (Nat × Nat))) : List (Option Bytes) := l.map fun r => r.map fun r => cellsRead d.mem.cells r.1 r.2

/-- What chunk `c` of a CONV_MILL reads: of a weight gradient with ROLE set, else of a forward convolution (R192, R197). -/
def convMillReads (tile : Nat) (o : Op) (c : Nat) : List (Option (Nat × Nat)) :=
  if o.role then gradReads (convMillPlan tile o) (o.f 112 4) c else convReads (convMillPlan tile o) c

/-- Rows and columns of chunk `c` of a CONV_MILL, as memory holds them. -/
def convMillRows (d : Dev) (tile : Nat) (o : Op) (c : Nat) : ChunkRows × ChunkRows :=
  let got := placesRead d (convMillReads tile o c)
  if o.role then gradOperands (convMillPlan tile o) got else convOperands (convMillPlan tile o) c got

/-- Chunks of an element of a QUERN_CONV: every tap's channels in chunks of 32 (R192, R201). -/
abbrev quernChunks (o : Op) : Nat := o.geom.taps * o.geom.cp / 32

/-- All that output row `oh` of a Quern operation reads. -/
def quernReads (tile : Nat) (o : Op) (oh : Nat) : List (Option (Nat × Nat)) :=
  if o.opcode = 0x0302 then
    (if o.bias then [some (sramBase tile + o.f 112 4, 4 * o.quernN)] else []) ++
      (List.range (quernChunks o)).flatMap (convReads (quernConvPlan tile o oh))
  else (List.range o.geom.ow.toNat).flatMap fun x => (List.range o.geom.taps).map (poolRun tile o oh x)

/-- Channel `j` of pixel `x` of output row `oh`, before its conversion: the ordered sum of its products, with its bias (R201), or
what its window pools to (R204). -/
def quernValue (d : Dev) (tile : Nat) (o : Op) (oh x j : Nat) : Val :=
  let q := quernConvPlan tile o oh
  if o.opcode = 0x0302 then
    let rows (c : Nat) : ChunkRows × ChunkRows := convOperands q c (placesRead d (convReads q c))
    let sum := elemVal 0 false ((reduced .float 0 q.g.fmt q.fFmt (quernChunks o) (fun c => (rows c).1.getD x [])
      (fun c => (rows c).2.getD j []) none).getD 0)
    if o.bias then
      f32 (BitVec.ofNat 32 (addFmt 0 sum (elemVal 0 false (leNat (cellsRead d.mem.cells (sramBase tile + o.f 112 4 + 4 * j) 4)))))
    else sum
  else poolValue o.poolMode o.geom.taps ((List.range o.geom.taps).map fun t => (poolRun tile o oh x t).map fun r =>
    readVal o.geom.fmt (unpackElem o.geom.fmt.code (cellsRead d.mem.cells r.1 r.2) j) 127)

/-- That channel converted once under RC (R202). -/
def quernConverted (d : Dev) (tile : Nat) (o : Op) (oh x j : Nat) : Conv :=
  convert (fmtOf (o.f 108 2)) (o.f 95 1 % 16) 0 (quernValue d tile o oh x j)

/-- The channels of a pixel, packed. -/
def quernPixel (d : Dev) (tile : Nat) (o : Op) (oh x : Nat) : Bytes :=
  packElems (fmtOf (o.f 108 2)).code ((List.range o.quernN).map fun j => (quernConverted d tile o oh x j).pat)

/-- DETAIL of a Quern operation: the saturations and the non-finite inputs of its conversions (R205). -/
def quernDetail (d : Dev) (tile : Nat) (o : Op) : Nat :=
  let all := (List.range (o.f 90 2)).flatMap fun r => (List.range o.geom.ow.toNat).flatMap fun x =>
    (List.range o.quernN).map (quernConverted d tile o (o.f 88 2 + r) x)
  min (all.filter (·.sat)).length 0xFFFFFFFF + 2 ^ 32 * min (all.filter (·.nonfinite)).length 0xFFFFFFFF

/-- The chute entry of row `r` of a Quern operation: its pixels, packed together, under the header of R202. -/
def quernEntry (d : Dev) (tile : Nat) (n : OpName) (o : Op) (r : Nat) : Send :=
  let oh := o.f 88 2 + r
  let payload := packElems (fmtOf (o.f 108 2)).code ((List.range o.geom.ow.toNat).flatMap fun x =>
    (List.range o.quernN).map fun j => (quernConverted d tile o oh x j).pat)
  let stamp := entryStamp n o
  { consumer := o.f 96 1 % 64, queue := bits (o.f 96 2) 11 8, payload := payload
    header := chuteHeader n.ring n.seq.toNat stamp.1 (stamp.2 % 2 ^ 32) (o.f 116 2 % 4096) oh (o.f 92 2) (o.f 108 2 % 256)
      (oh + 1 == o.f 88 2 + o.f 90 2) payload.length }

/-- A Quern operation completes by its command: it is the one that its Quern runs, and all that it reads is stored without error.
To a chute it has one entry for each of its rows to send; to memory it writes each pixel at its place, and every byte outside
reads as before (R199, R201, R202, R204). -/
def quernResult (c : OpName → Instr) (code : Nat) : Prop :=
  ∀ (s : State) (n : OpName) (o : Op) (tile : Nat), atWork s → atEngine s.dev code n (.quern tile) o → quernRuns s.dev tile n = true →
    (∀ r, r < o.f 90 2 → readsClear s.dev (quernReads tile o (o.f 88 2 + r))) →
    let frame (d : Dev) : Prop := (∀ u, u ≠ tile → tget d.querns u = tget s.dev.querns u) ∧
      { d with querns := s.dev.querns, hub.rings := s.dev.hub.rings, counters := s.dev.counters, mem.cells := s.dev.mem.cells } = s.dev
    (o.quernChute = true → 1 ≤ o.f 90 2 → acts (c n) s fun d => frame d ∧ d.mem = s.dev.mem ∧
      (issuedOp d n).map (fun p => (p.sends, p.detail)) =
        some ((List.range (o.f 90 2)).map (quernEntry s.dev tile n o), BitVec.ofNat 64 (quernDetail s.dev tile o))) ∧
    (o.quernChute = false → plainMemory s.dev →
      let at_ (r x : Nat) : Nat := o.f 96 8 + (r * o.geom.ow.toNat + x) * o.f 104 4
      let size (r x : Nat) : Nat := (quernPixel s.dev tile o (o.f 88 2 + r) x).length
      (∀ r x, r < o.f 90 2 → x < o.geom.ow.toNat → size r x ≤ o.f 104 4 ∧ memClear s.dev (at_ r x) (size r x)) →
      (∀ r x r' a k, r < r' → r' < o.f 90 2 → x < o.geom.ow.toNat → some (a, k) ∈ quernReads tile o (o.f 88 2 + r') →
        a + k ≤ at_ r x ∨ at_ r x + size r x ≤ a) →
      acts (c n) s fun d => frame d ∧ ended d n 0x00 (quernDetail s.dev tile o) ∧
        (∀ r x, r < o.f 90 2 → x < o.geom.ow.toNat → cellsRead d.mem.cells (at_ r x) (size r x) = quernPixel s.dev tile o (o.f 88 2 + r) x) ∧
        ∀ z, (∀ r x, r < o.f 90 2 → x < o.geom.ow.toNat → ¬(at_ r x ≤ z ∧ z < at_ r x + size r x)) → byteAt d z = byteAt s.dev z)

/-! ### Tables -/

/-- An operation of a Badger on an installed table, that no older one of the Badger holds back. -/
abbrev badgerAt (d : Dev) (code : Nat) (n : OpName) (tile : Nat) (o : Op) (t : TableRec) : Prop :=
  issuedOp d n = some o ∧ ringTarget d n.ring = some (.badger tile) ∧ o.opcode = code ∧ o.sends = [] ∧
  badgerBefore d tile n o = [] ∧ getTable d tile (o.f 32 1 % 64) = some t

/-- Tier and slot that the map gives a local index (Table 8.3). -/
def mapOf (d : Dev) (t : TableRec) (index : Nat) : Nat × Nat :=
  let e := leNat (cellsRead d.mem.cells (t.map + 4 * index) 4)
  (bits e 31 30, bits e 29 0)

/-- Where the record of a local index lies. -/
abbrev recordAt (d : Dev) (t : TableRec) (index : Nat) : Nat := t.slotAddr (mapOf d t index).1 (mapOf d t index).2

/-- The row of an identifier as FP32 lanes, where this Badger holds it (R212, R216). -/
def tableRow (d : Dev) (t : TableRec) (g : Nat) : Option Lanes := match t.kind g with
  | .mine i => some (decodeRow t.fmt t.dim (cellsRead d.mem.cells (recordAt d t i) t.wb))
  | _ => none

/-- The row of an identifier is in range, placed, and stored without error; or this Badger does not hold it. -/
def rowPlaced (d : Dev) (t : TableRec) (g : Nat) : Prop := match t.kind g with
  | .outOfRange => False
  | .mine i => memClear d (t.map + 4 * i) 4 ∧ (mapOf d t i).1 ≠ 3 ∧ memClear d (recordAt d t i) t.wb
  | _ => True

/-- The Badgers hold what they held, but for the counts of row requests. -/
abbrev badgersKept (d d' : Dev) : Prop := ∀ u, { getBadger d' u with tierReq := (getBadger d u).tierReq } = getBadger d u

/-- Nothing has changed but the Badgers, the operations, the counters and the bytes of SRAM and GDDR7. -/
abbrev onlyTables (d d' : Dev) : Prop :=
  { d' with badgers := d.badgers, hub.rings := d.hub.rings, counters := d.counters, mem.cells := d.mem.cells } = d

/-- A pooling instruction gives every B-tile's working registers the value `f` and leaves all else. -/
def poolResult (c : Nat → W32 → Instr) (f : W32 → PoolRegs → PoolRegs) : Prop :=
  ∀ (s : State) (tile : Nat) (i : W32), atWork s → tile < 64 → tileType tile = .bTile →
    acts (c tile i) s fun d => getBadger d tile = { getBadger s.dev tile with pool := f i (getBadger s.dev tile).pool } ∧
      (∀ u, u ≠ tile → getBadger d u = getBadger s.dev u) ∧ { d with badgers := s.dev.badgers } = s.dev

/-! ### The ring hub and the Sequencer -/

/-- An operation that the ring hub carries out has been issued. -/
abbrev hubAt (d : Dev) (code : Nat) (n : OpName) (o : Op) : Prop :=
  issuedOp d n = some o ∧ ringTarget d n.ring = some .hub ∧ o.opcode = code

/-- Nothing is watched, staged or remote: memory is in canonical form without stored errors, no Granary watches writes, and no
window is borrowed. -/
abbrev quietMemory (d : Dev) : Prop := plainMemory d ∧ d.mem.flips = [] ∧ d.fabric.borrows = []

/-- A wait of an operation that has lasted longer than its ring's limit is recorded once; else nothing changes. -/
abbrev stallLogs (c : OpName → Instr) (ev : Nat) (s : State) (n : OpName) (o : Op) (since : Nat) : Prop :=
  (o.stallLogged = false → since + ringLimit s.dev n.ring * 1000000 < deviceTime s.dev →
    acts (c n) s fun d => recorded s.dev d ev (.ring n.ring) 0 ∧ getOp d n = some { o with stallLogged := true } ∧
      d.mem = s.dev.mem ∧ d.steps = s.dev.steps) ∧
  (o.stallLogged = true ∨ deviceTime s.dev ≤ since + ringLimit s.dev n.ring * 1000000 → exec (c n) s = .next s)

/-! ### The Thresher -/

/-- A Thresher at work: the die exists, and no sample waits to be swept. -/
abbrev threshes (d : Dev) (die : Nat) : Prop :=
  die < 2 ∧ d.threshers.length = 2 ∧ ∀ x ∈ (getTh d die).samples, x.dropped = false ∨ x.ended = false

/-- Thresher `die` of `d'` is `t`; the other one, and all of memory, is as in `d`. -/
abbrev threshSet (d d' : Dev) (die : Nat) (t : Thresher) : Prop :=
  getTh d' die = t ∧ (∀ k, k ≠ die → getTh d' k = getTh d k) ∧ d'.mem = d.mem

/-- What a slot of a batch holds, once it is resolved. -/
abbrev slotOf (d : Dev) (die cls n k : Nat) : Option SlotStatus := (getBatch d die cls n).bind fun b => tget b.slots k

/-- An augmentation instruction gives the working sample of every die the value `f` and leaves all else. -/
def augResult (c : Nat → Byte → Byte → W32 → Instr) (f : Thresher → Nat → Nat → W32 → AugWork → AugWork) : Prop :=
  ∀ (s : State) (die : Nat) (a b : Byte) (i : W32), atWork s → die < 2 → s.dev.threshers.length = 2 →
    acts (c die a b i) s fun d =>
      (let t := getTh s.dev die
       threshSet s.dev d die { t with aug := f t a.toNat b.toNat i t.aug }) ∧
      { d with threshers := s.dev.threshers } = s.dev

/-- The oldest operation of a Thresher that has not begun. -/
abbrev threshAt (d : Dev) (code : Nat) (n : OpName) (die : Nat) (o : Op) : Prop :=
  issuedOp d n = some o ∧ ringTarget d n.ring = some (.thresher die) ∧ o.opcode = code ∧ o.done = 0 ∧
  ((issuedTo d (.thresher die)).find? fun e => e.2.done == 0).map (fun e => (e.1, e.2.seq)) = some (n.ring, n.seq)

/-! ### The fabric -/

/-- A port of a device with six whose link carries flits, with nothing waiting for its output and no retrain begun. -/
abbrev linkUp (d : Dev) (q : Nat) : Prop :=
  q < 6 ∧ d.fabric.ports.length = 6 ∧ ((getPort d q).st = 1 ∨ (getPort d q).st = 2 ∨ (getPort d q).st = 6) ∧
  (getPort d q).waiting = [] ∧ (getPort d q).sending = [] ∧ (getPort d q).retraining = false

/-- Port `q` of `d'` is `p`, and the other ports and all of memory are as in `d`. -/
abbrev portSet (d d' : Dev) (q : Nat) (p : Port) : Prop :=
  getPort d' q = p ∧ (∀ k, k ≠ q → getPort d' k = getPort d k) ∧ d'.mem = d.mem

/-- Port `q` can send message `m` at once: it carries flits, nothing waits for it, and it holds the credit. -/
abbrev canLeave (d : Dev) (q : Nat) (m : FabMsg) : Prop := linkUp d q ∧ (getPort d q).canSend m = true ∧ m.cls < 4

/-- A message left by port `q`. -/
abbrev hasLeft (d d' : Dev) (q : Nat) (m : FabMsg) : Prop := d'.out.fabric = d.out.fabric ++ [(q, m)]

/-- The oldest operation of a collective engine that has not begun. -/
abbrev collAt (d : Dev) (n : OpName) (port : Nat) (o : Op) : Prop :=
  issuedOp d n = some o ∧ ringTarget d n.ring = some (.collective port) ∧ o.opcode = 0x0601 ∧ o.done = 0 ∧
  ((issuedTo d (.collective port)).find? fun e => e.2.done == 0).map (fun e => (e.1, e.2.seq)) = some (n.ring, n.seq)

/-- A COLL in progress: issued, begun, with this device's part of its instance, the only one on this device, and its group. -/
abbrev collRuns (d : Dev) (n : OpName) (o : Op) (p : MemberPart) (g : Group) : Prop :=
  issuedOp d n = some o ∧ d.fabric.parts = [p] ∧ p.op = n ∧ getGroup d p.inst.group = some g

/-! ### The Granary -/

/-- The oldest operation of a Granary engine that has not begun. -/
abbrev granaryAt (d : Dev) (code : Nat) (n : OpName) (o : Op) : Prop :=
  issuedOp d n = some o ∧ o.opcode = code ∧ o.done = 0 ∧ ∃ die, ringTarget d n.ring = some (.granary die) ∧
  ((issuedTo d (.granary die)).find? fun e => e.2.done == 0).map (fun e => (e.1, e.2.seq)) = some (n.ring, n.seq)

/-- The partner lends the whole of the store's window, and can be reached; what is stored remotely is in canonical form. -/
abbrev storeOpen (d : Dev) : Prop :=
  memoryWf d.mem = true ∧ ∃ b, tget d.fabric.borrows d.granary.win = some b ∧ b.size = 2 ^ 36 ∧ routable d b.lender = true

/-- Bytes of the store. -/
abbrev storeRead (d : Dev) (off n : Nat) : Bytes := cellsRead d.mem.remote (peerKey d (storeAddr d off)) n

/-- The generation record of a slot of the store. -/
abbrev storedGen (d : Dev) (slot : Nat) : GenRecord := genRecord (storeRead d (256 * slot) 256)

/-- All that a restore or a verification of generation `g` reads and writes of this device's memory is stored without error. -/
abbrev regionsClear (d : Dev) (g : Generation) : Prop := ∀ i, i < g.regions.length → memClear d (g.dest i) (g.length i)

/-! ### The mailboxes -/

/-- The mailbox and the command of Table 15.7 that a row carries out. -/
def mbxRow : Instr → Option (Nat × MbCmd)
  | .mbNop m => some (m, mbNop)
  | .mbDeviceInfo m => some (m, mbDeviceInfo)
  | .mbFwStage m ok => some (m, mbFwStage ok)
  | .mbFwActivate m => some (m, mbFwActivate)
  | .mbFwCommit m n => some (m, mbFwCommit n)
  | .mbFwStatus m => some (m, mbFwStatus)
  | .mbIdentCert m => some (m, mbIdentCert)
  | .mbAttest m => some (m, mbAttest)
  | .mbSanitise m => some (m, mbSanitise)
  | .mbRingCreate m => some (m, mbRingCreate)
  | .mbRingDestroy m => some (m, mbRingDestroy)
  | .mbChuteBind m => some (m, mbChuteBind)
  | .mbChuteUnbind m => some (m, mbChuteUnbind)
  | .mbLoomLoad m => some (m, mbLoomLoad)
  | .mbLoomUnload m => some (m, mbLoomUnload)
  | .mbBadgerLoad m => some (m, mbBadgerLoad)
  | .mbBadgerTable m => some (m, mbBadgerTable)
  | .mbNumConfig m => some (m, mbNumConfig)
  | .mbStepClear m => some (m, mbStepClear)
  | .mbStageBind m => some (m, mbStageBind)
  | .mbStageUnbind m => some (m, mbStageUnbind)
  | .mbSeqLoad m => some (m, mbSeqLoad)
  | .mbSeqConfig m => some (m, mbSeqConfig)
  | .mbStageMigrate m => some (m, mbStageMigrate)
  | .mbThPort m n => some (m, mbThPort n)
  | .mbThStream m => some (m, mbThStream)
  | .mbThClass m => some (m, mbThClass)
  | .mbThAugLoad m => some (m, mbThAugLoad)
  | .mbThVocab m => some (m, mbThVocab)
  | .mbFabConfig m t => some (m, mbFabConfig t)
  | .mbFabPort m t => some (m, mbFabPort t)
  | .mbFabStatus m => some (m, mbFabStatus)
  | .mbFabRoute m => some (m, mbFabRoute)
  | .mbGroupSet m => some (m, mbGroupSet)
  | .mbGroupClear m => some (m, mbGroupClear)
  | .mbMemRecal m => some (m, mbMemRecal)
  | .mbMemScrub m => some (m, mbMemScrub)
  | .mbMemHostmap m => some (m, mbMemHostmap)
  | .mbMemLend m => some (m, mbMemLend)
  | .mbMemBorrow m => some (m, mbMemBorrow)
  | .mbGranaryConfig m => some (m, mbGranaryConfig)
  | .mbOwlConfig m => some (m, mbOwlConfig)
  | .mbOwlStatus m => some (m, mbOwlStatus)
  | .mbTelemetry m => some (m, mbTelemetry)
  | .mbPowerDomain m => some (m, mbPowerDomain)
  | .mbPowerLimit m => some (m, mbPowerLimit)
  | .mbTrainSave m ok => some (m, mbTrainSave ok)
  | .mbTallyRead m => some (m, mbTallyRead)
  | .mbCounterSelect m => some (m, mbCounterSelect)
  | _ => none

/-- Mailbox `m` holds `b`, whose request is accepted next, is command `c`, and passes its checks with this body (R383). -/
abbrev mbxAsks (d : Dev) (c : MbCmd) (m : Nat) (b : Mailbox) (body : Bytes) : Prop :=
  accepting d m = some b ∧ b.code = c.code ∧ checkRequest c { d with iabor.pointer := (m + 1) % 8 } b = .ok body

/-- Device `d` with the response of mailbox `m` made up and the arbiter past it. -/
abbrev answered (d : Dev) (m : Nat) (b : Mailbox) (r : MbxResponse) : Dev :=
  { d with iabor.pointer := (m + 1) % 8, iabor.mbx := d.iabor.mbx.set m { b with answer := some r } }

/-- A mailbox command that passes its checks has effect `eff` and response `resp`, and changes nothing else. -/
def mbxResult (mk : Nat → Instr) (c : MbCmd) (eff : Bytes → Dev → Dev) (resp : Bytes → Dev → MbxResponse) : Prop :=
  ∀ (s : State) (m : Nat) (b : Mailbox) (body : Bytes), powered s → mbxAsks s.dev c m b body →
    exec (mk m) s = .next { s with dev := answered (eff body s.dev) m b (resp body s.dev) }

/-- The response of mailbox `m` is `r`. -/
abbrev responds (d : Dev) (m : Nat) (r : MbxResponse) : Prop := (d.iabor.mbx[m]?).map (·.answer) = some (some r)

/-- Nothing has changed but the counters of accesses. -/
abbrev uncounted (d d' : Dev) : Prop := { d' with counters := d.counters } = d

/-- Only the answer of the mailbox, the arbiter, the Tally, the causes and the counts of events may differ from `d`. -/
abbrev onlyReports (d d' : Dev) : Prop :=
  { d' with
    iabor.pointer := d.iabor.pointer, iabor.mbx := d.iabor.mbx, tally := d.tally, owl.events := d.owl.events, counters := d.counters,
    host := d.host, out := d.out } = d

end Sys2Proof.Safety
end

