-- ==== Sys2Proof/Certificates/Slice0/Obligations.lean ====
section
/-! DEFINITION. The statements for the provers. -/

open Sys2Proof Sys2Proof.Machine Sys2Proof.Safety

/-- A step runs the command at the front of the queue with the rest of the queue. For every command c, device and queue,
step at the state whose queue begins with c is exec of c at the state with the rest of the queue. (The queue is the
model's form of a block.) (00 "Terms and conventions") -/
def Obligations.StepRunsFrontCommand : Prop :=
  ∀ (c : Instr) (s : State) (rest : List Instr), step { s with pending := c :: rest } = exec c { s with pending := rest }

/-- Every command takes a next state and leaves the queue as it is. No command ends in a fault or a refusal: each answers
a next state with the queue that it was given, and so every step goes on; R10 gives every misuse an outcome of the
machine. (R10) -/
def Obligations.EveryCommandGoesOn : Prop :=
  (∀ (c : Instr) (s : State), ∃ d, exec c s = .next { s with dev := d }) ∧
  (∀ s : State, goesOn s ∧ ∀ t, step s = .next t → t.pending = s.pending.tail)

/-- With no command waiting, a powered device passes one control-clock pulse. On an empty queue a step adds one pulse of
0.8 ns to the clock of a powered device, delivers or swallows it, and changes nothing but the clock and the event
counters; of an offset that is being slewed in, one tick at most in every 1,000 is doubled or swallowed (R323). An unpowered
device stays as it is. (DESIGN CHOICE, log 2: the table has no row for a tick.) (R323, R409, R410) -/
def Obligations.EmptyQueuePassesAPulse : Prop :=
  ∀ s : State, s.pending = [] → ∃ d, step s = .next { s with dev := d } ∧
    if s.dev.power.on then
      d.clock.pulse = s.dev.clock.pulse + 1 ∧
      d.clock.cyc = s.dev.clock.cyc + (if swallowed s.dev.clock.control (s.dev.clock.pulse % 64) then 0 else 1) ∧
      (let t := (s.dev.clock.pulse + 1) * 4 / 5
       if s.dev.fabric.slew ≠ 0 ∧ t ≠ s.dev.clock.pulse * 4 / 5 ∧ s.dev.fabric.slewAt + 1000 ≤ t then
         d.fabric.slewAt = t ∧ (d.clock.offset - s.dev.clock.offset).natAbs = 1 ∧ d.fabric.slew.natAbs + 1 = s.dev.fabric.slew.natAbs ∧
           d.clock.offset + d.fabric.slew = s.dev.clock.offset + s.dev.fabric.slew
       else d.fabric = s.dev.fabric ∧ d.clock.offset = s.dev.clock.offset) ∧
      { d with clock := s.dev.clock, counters := s.dev.counters, fabric.slew := s.dev.fabric.slew, fabric.slewAt := s.dev.fabric.slewAt } = s.dev
    else d = s.dev

/-- An unpowered package answers to nothing but its pins and its power. While the package is unpowered, every command but
POWER_ON, TRIP_RELEASE, PERST_N_ASSERT and PERST_N_DEASSERT leaves the whole state unchanged, and so does a step on an
empty queue. (R418, R441, 16 "Power-on and power loss") -/
def Obligations.UnpoweredDeviceIsInert : Prop :=
  (∀ (c : Instr) (s : State), s.dev.power.on = false →
    c ≠ .powerOn → c ≠ .tripRelease → c ≠ .perstNAssert → c ≠ .perstNDeassert → exec c s = .next s) ∧
  ∀ s : State, s.dev.power.on = false → s.pending = [] → step s = .next s

/-- The hard halt: its key, and the engines it stops. LL_HARD_HALT_WRITE of 0x4841_4C54 by a host whose writes reach BAR0
sets HALTED and cause 6, abandons the snapshot and changes no ring, bell or memory; any other value, and a second key,
changes nothing. While halted, every command of an engine, of the ring hub, of the Sequencer, the Thresher, the
Granary or a collective leaves the whole state unchanged. (R72, R420) -/
def Obligations.HardHaltStopsEngines : Prop :=
  (∀ (s : State) (v : W32), powered s → s.dev.granary.stalls = [] → barOpen s.dev = true →
    if v = 0x48414C54#32 ∧ s.dev.hub.hardHalted = false then
      acts (.llHardHaltWrite v) s fun d => d.hub = { s.dev.hub with hardHalted := true } ∧ d.granary.st = .idle ∧
        d.host.irqCause = s.dev.host.irqCause ||| 0x40#7 ∧ d.mem = s.dev.mem ∧ d.fabric = s.dev.fabric ∧ d.tally = s.dev.tally
    else exec (.llHardHaltWrite v) s = .next s) ∧
  ∀ (c : Instr) (s : State), outsideEngines c = false → s.dev.hub.hardHalted = true → exec c s = .next s

/-- After power-on no write waits at an untaken page. In the state after reset no command waits and no write waits at an
untaken page of a snapshot. (R359) -/
def Obligations.NoStallAtReset : Prop :=
  State.reset.dev.granary.stalls = [] ∧ State.reset.pending = []

/-- No step leaves a write waiting at an untaken page half done. For every state in which no write waits at an untaken
page, no step leaves one: a command that meets an untaken page has either all of its effect or, R359, none of it but
the page's mark as wanted, and a pulse leaves the Granary alone. This holds of all commands and of the empty queue, in
every state with the invariant, reachable or not. (R358, R359) -/
def Obligations.NoStallSurvives : Prop :=
  ∀ s t : State, s.dev.granary.stalls = [] → Sys2Proof.Machine.step s = .next t → t.dev.granary.stalls = []

/-- Decoding and encoding of Loom instructions are inverse on all of Tables 6.2 to 6.16. For every instruction of the
Loom's opcode tables whose fields lie in its format, with every operand at every value, decoding its word gives it
back; and every word that decodes is the word of what it decodes to, so no bit of a word is dropped and reserved
encodings decode to nothing. (R155, R160, 06 Tables 6.2, 6.3 and 6.8 to 6.16) -/
def Obligations.LoomCodeRoundTrip : Prop :=
  (∀ i : LoomInstr, fieldsOf i.op.info.format i.f = true → decodeLoom (encodeLoom i) = some i) ∧
  ∀ (w : W64) (i : LoomInstr), decodeLoom w = some i → encodeLoom i = w ∧ fieldsOf i.op.info.format i.f = true

/-- What power-on leaves, as the register tables say. After reset the package is powered in phase A (LL_BOOT reads 1), no
ring exists and every bell reads zero, LL_HALT reads 0, LL_IRQ_CAUSE enables causes 0x7B with none set, the watchdog
limits, the power limit, the numerical settings, the Owl's settings and rules, SCRUB_HOURS, the Tally, the counters
and the chutes have the reset values of their tables, and every byte of SRAM and GDDR7 is zero. (02 Table 2.4, 05
Table 5.9, 06 Tables 6.23 and 6.24, 08 Table 8.13, 09 Table 9.1, 14 Tables 14.8 and 14.9, 16 Tables 16.2, 16.8 and
16.12, 17 Tables 17.8 and 17.10, R401, R434, R438) -/
def Obligations.ResetValues : Prop :=
  let d := State.reset.dev
  d.power.on = true ∧ llBoot d = 1 ∧ d.hub.rings = [] ∧ (∀ b, bellValue d b = 0) ∧
  regAt d 0x48 = some { wide := false, value := 0 } ∧ regAt d 0x50 = some { wide := false, value := 0x7B00 } ∧
  d.power.limitW = 1800 ∧ d.power.tauMs = 100 ∧ d.power.tThrottle = 95 ∧
  (∀ t, (getMill d t).limit = 0x40 ∧ (getMill d t).sets = []) ∧
  (∀ t e, (getLoom d t e).limit = 0x400 ∧ (getLoom d t e).images = []) ∧
  (∀ t, (getBadger d t).limit = 0x400 ∧ (getBadger d t).ledger = []) ∧ (∀ t, (tgetD d.querns t {}).limit = 0x100) ∧
  (∀ t q, getChute d t q = none) ∧
  d.steps.num = { seed := 0, censusAddr := 0, censusLog2 := 4, policyAddr := 0, scaleAddr := 0, shardAddr := 0, shardCount := 0, silentRun := 256 } ∧
  d.owl.snapAt = 512 ∧ d.owl.rearm = 384 ∧ d.owl.minGapMs = 60000 ∧ d.owl.rules.length = 64 ∧ d.mem.scrubHours = 12 ∧
  (∀ die, (d.tally.getD die {}).written = 0 ∧ (d.tally.getD die {}).recs = []) ∧
  (∀ scope unit i, getCounter d scope unit i = {}) ∧ (∀ a, byteAt d a = 0)

/-- Results of the scalar instructions of the Loom. For every Loom that may issue it, SADD to SLUI complete: scalar D
takes the value of Table 6.9 (sums, products and shifts modulo 2^64, shift counts modulo 64), every other register is
kept, the program goes on to the next instruction or, past the last one, ends with fault code 0x0C; nothing else of
the device but the event counters changes. Each completes on every Loom that may issue it: SFADD, SFMUL and SFFMA
write the FP32 result of the low halves of their sources, rounded once under RC, the first NaN operand first, with the
upper half cleared; SCTX writes the context value that IMM names. Nothing else but the flow of the program and the
counters changes. (06 Table 6.9, R159, R178, R157) -/
def Obligations.LoomScalarResults : Prop :=
  (
  scalarResult .sadd .sadd (fun f l => l.sreg f.a + l.sreg f.b) ∧
  scalarResult .ssub .ssub (fun f l => l.sreg f.a - l.sreg f.b) ∧
  scalarResult .smul .smul (fun f l => l.sreg f.a * l.sreg f.b) ∧
  scalarResult .sand .sand (fun f l => l.sreg f.a &&& l.sreg f.b) ∧
  scalarResult .sor .sor (fun f l => l.sreg f.a ||| l.sreg f.b) ∧
  scalarResult .sxor .sxor (fun f l => l.sreg f.a ^^^ l.sreg f.b) ∧
  scalarResult .sshl .sshl (fun f l => l.sreg f.a <<< ((l.sreg f.b).toNat % 64)) ∧
  scalarResult .sshr .sshr (fun f l => l.sreg f.a >>> ((l.sreg f.b).toNat % 64)) ∧
  scalarResult .ssra .ssra (fun f l => (l.sreg f.a).sshiftRight ((l.sreg f.b).toNat % 64)) ∧
  scalarResult .smin .smin (fun f l => if (l.sreg f.a).toInt ≤ (l.sreg f.b).toInt then l.sreg f.a else l.sreg f.b) ∧
  scalarResult .smax .smax (fun f l => if (l.sreg f.a).toInt ≤ (l.sreg f.b).toInt then l.sreg f.b else l.sreg f.a) ∧
  scalarResult .saddi .saddi (fun f l => l.sreg f.a + f.imm.signExtend 64) ∧
  scalarResult .sshli .sshli (fun f l => l.sreg f.a <<< (f.imm.toNat % 64)) ∧
  scalarResult .sshri .sshri (fun f l => l.sreg f.a >>> (f.imm.toNat % 64)) ∧
  scalarResult .sli .sli (fun f _ => f.imm.signExtend 64) ∧
  scalarResult .slui .slui (fun f l => f.imm ++ (l.sreg f.d).setWidth 32)) ∧
  (
  (let x (l : Loom) (i : BitVec 6) : W32 := (l.sreg i).setWidth 32
   scalarResult .sfadd .sfadd (fun f l =>
     (fp32 f.rc.toNat (fun v => addVal (v.getD 0 (.zero false)) (v.getD 1 (.zero false))) [x l f.a, x l f.b]).setWidth 64) ∧
   scalarResult .sfmul .sfmul (fun f l =>
     (fp32 f.rc.toNat (fun v => mulVal (v.getD 0 (.zero false)) (v.getD 1 (.zero false))) [x l f.a, x l f.b]).setWidth 64) ∧
   scalarResult .sffma .sffma (fun f l =>
     (fp32 f.rc.toNat (fun v => addVal (mulVal (v.getD 0 (.zero false)) (v.getD 1 (.zero false))) (v.getD 2 (.zero false)))
       [x l f.a, x l f.b, x l f.c]).setWidth 64)) ∧
  ∀ s tile eng n o f, loomReady s tile eng n o .sctx f →
    acts (.sctx tile eng f) s fun d => ∃ l, scalarSet (getLoom s.dev tile eng) l f.d
      (match f.imm.toNat with
      | 0 => o.step
      | 1 => o.micro.setWidth 64
      | 2 => BitVec.ofNat 64 n.ring
      | 3 => n.seq.setWidth 64
      | 4 => BitVec.ofNat 64 (deviceTime s.dev)
      | _ => BitVec.ofNat 64 (tile + 256 * eng)) ∧ loomGoesOn s.dev d tile eng n l)

/-- Branches, calls and NOP of the Loom, and how a program ends. On every Loom that may issue it, NOP goes on; J, BEQ,
BNE, BLT, BGE, BLTU, LOOP, BMZ and BMNZ go to TARGET where their condition of Table 6.8 holds and on elsewhere, LOOP
with sA decremented; CALL goes to TARGET with the index of the next instruction in s31; RET goes to instruction s31
below the program length. Nothing else changes but the counters. END completes the running operation as ST_OK with s1
in DETAIL; FAULT ends it as ST_PROGRAM_FAULT with the instruction index, fault code 0x08 and IMM[15:0]; RET to an
index at or beyond the length ends it with fault code 0x0B. The Loom then runs nothing. (06 Table 6.8, R180, R178) -/
def Obligations.LoomFlowAndEnds : Prop :=
  (
  branchResult .loomNop .loomNop (fun _ _ => false) (fun _ l => l) ∧
  branchResult .j .j (fun _ _ => true) (fun _ l => l) ∧
  branchResult .beq .beq (fun f l => l.sreg f.a == l.sreg f.b) (fun _ l => l) ∧
  branchResult .bne .bne (fun f l => l.sreg f.a != l.sreg f.b) (fun _ l => l) ∧
  branchResult .blt .blt (fun f l => decide ((l.sreg f.a).toInt < (l.sreg f.b).toInt)) (fun _ l => l) ∧
  branchResult .bge .bge (fun f l => decide ((l.sreg f.b).toInt ≤ (l.sreg f.a).toInt)) (fun _ l => l) ∧
  branchResult .bltu .bltu (fun f l => decide ((l.sreg f.a).toNat < (l.sreg f.b).toNat)) (fun _ l => l) ∧
  branchResult .bmz .bmz (fun f l => (List.range 256).all fun k => !(l.mreg f.a.toNat).getLsbD k) (fun _ l => l) ∧
  branchResult .bmnz .bmnz (fun f l => (List.range 256).any fun k => (l.mreg f.a.toNat).getLsbD k) (fun _ l => l) ∧
  branchResult .loop .loop (fun f l => l.sreg f.a != 1)
    (fun f l => if f.a = 0 then l else { l with s := l.s.set f.a.toNat (l.sreg f.a - 1) }) ∧
  branchResult .call .call (fun _ _ => true) (fun _ l => { l with s := l.s.set 31 (BitVec.ofNat 64 (l.pc + 1)) }) ∧
  ∀ s tile eng n o f, loomReady s tile eng n o .ret f → ((getLoom s.dev tile eng).sreg 31).toNat < (getLoom s.dev tile eng).length →
    acts (.ret tile eng f) s fun d => otherLooms s.dev d tile eng ∧ onlyLooms s.dev d ∧
      getLoom d tile eng = { getLoom s.dev tile eng with pc := ((getLoom s.dev tile eng).sreg 31).toNat }) ∧
  (
  ∀ s tile eng n o f,
    (loomReady s tile eng n o .loomEnd f → acts (.loomEnd tile eng f) s fun d =>
      ended d n 0x00 ((getLoom s.dev tile eng).sreg 1).toNat ∧ (getLoom d tile eng).run = none) ∧
    (loomReady s tile eng n o .loomFault f → acts (.loomFault tile eng f) s fun d =>
      ended d n 0x2A ((getLoom s.dev tile eng).pc % 65536 + 0x08 * 65536 + f.imm.toNat % 65536 * 2 ^ 32) ∧
      (getLoom d tile eng).run = none) ∧
    (loomReady s tile eng n o .ret f → (getLoom s.dev tile eng).length ≤ ((getLoom s.dev tile eng).sreg 31).toNat →
      acts (.ret tile eng f) s fun d =>
        ended d n 0x2A ((getLoom s.dev tile eng).pc % 65536 + 0x0B * 65536) ∧ (getLoom d tile eng).run = none))

/-- Results of the vector floating-point, integer and logic instructions, lane by lane. VADD to VLDEXP complete on every
Loom that may issue them: each active lane of D takes the exact result of the lanes of A, B and C (each element of a
packed lane by itself) converted once under RC without tensor scale, the first NaN operand first; VABS and VNEG only
change the sign; inactive lanes and every other register are kept. VIADD to VLI complete on every Loom that may issue
them: each active lane of D takes the value of Table 6.11 modulo 2^32, signed or unsigned by TY, with shift counts
modulo 32; inactive lanes and every other register are kept. VSEL writes every lane: A where the mask bit is 1, B
where it is 0. (06 Table 6.10, R156, R157, R158, R159, 06 Table 6.11) -/
def Obligations.LoomVectorArithmeticResults : Prop :=
  (
  vectorResult .vadd .vadd (fun f l k => laneFp f.ty.toNat f.rc.toNat true
    (fun v => addVal (v.getD 0 (.zero false)) (v.getD 1 (.zero false))) [laneOfA l f k, laneOfB l f k]) ∧
  vectorResult .vsub .vsub (fun f l k => laneFp f.ty.toNat f.rc.toNat true
    (fun v => addVal (v.getD 0 (.zero false)) (negVal (v.getD 1 (.zero false)))) [laneOfA l f k, laneOfB l f k]) ∧
  vectorResult .vmul .vmul (fun f l k => laneFp f.ty.toNat f.rc.toNat true
    (fun v => mulVal (v.getD 0 (.zero false)) (v.getD 1 (.zero false))) [laneOfA l f k, laneOfB l f k]) ∧
  vectorResult .vfma .vfma (fun f l k => laneFp f.ty.toNat f.rc.toNat true
    (fun v => addVal (mulVal (v.getD 0 (.zero false)) (v.getD 1 (.zero false))) (v.getD 2 (.zero false))) [laneOfA l f k, laneOfB l f k, lane l f.c k]) ∧
  vectorResult .vfms .vfms (fun f l k => laneFp f.ty.toNat f.rc.toNat true
    (fun v => addVal (mulVal (v.getD 0 (.zero false)) (v.getD 1 (.zero false))) (negVal (v.getD 2 (.zero false)))) [laneOfA l f k, laneOfB l f k, lane l f.c k]) ∧
  vectorResult .vfnma .vfnma (fun f l k => laneFp f.ty.toNat f.rc.toNat true
    (fun v => addVal (mulVal (negVal (v.getD 0 (.zero false))) (v.getD 1 (.zero false))) (v.getD 2 (.zero false))) [laneOfA l f k, laneOfB l f k, lane l f.c k]) ∧
  vectorResult .vmin .vmin (fun f l k => laneFp f.ty.toNat f.rc.toNat true
    (fun v => if numLe (v.getD 0 (.zero false)) (v.getD 1 (.zero false)) then (v.getD 0 (.zero false)) else (v.getD 1 (.zero false))) [laneOfA l f k, laneOfB l f k]) ∧
  vectorResult .vmax .vmax (fun f l k => laneFp f.ty.toNat f.rc.toNat true
    (fun v => if numLe (v.getD 1 (.zero false)) (v.getD 0 (.zero false)) then (v.getD 0 (.zero false)) else (v.getD 1 (.zero false))) [laneOfA l f k, laneOfB l f k]) ∧
  vectorResult .vabs .vabs (fun f l k => laneFp f.ty.toNat f.rc.toNat false
    (fun v => (v.getD 0 (.zero false)).withSign false) [laneOfA l f k]) ∧
  vectorResult .vneg .vneg (fun f l k => laneFp f.ty.toNat f.rc.toNat false
    (fun v => (v.getD 0 (.zero false)).withSign (!(v.getD 0 (.zero false)).neg)) [laneOfA l f k]) ∧
  vectorResult .vrcp .vrcp (fun f l k => laneFp f.ty.toNat f.rc.toNat true
    (fun v => quotVal (.fin false 1 0) (v.getD 0 (.zero false))) [laneOfA l f k]) ∧
  vectorResult .vrsqrt .vrsqrt (fun f l k => laneFp f.ty.toNat f.rc.toNat true
    (fun v => rsqrtVal (v.getD 0 (.zero false))) [laneOfA l f k]) ∧
  vectorResult .vsqrt .vsqrt (fun f l k => laneFp f.ty.toNat f.rc.toNat true
    (fun v => rootVal (v.getD 0 (.zero false))) [laneOfA l f k]) ∧
  vectorResult .vdiv .vdiv (fun f l k => laneFp f.ty.toNat f.rc.toNat true
    (fun v => quotVal (v.getD 0 (.zero false)) (v.getD 1 (.zero false))) [laneOfA l f k, laneOfB l f k]) ∧
  vectorResult .vexp2 .vexp2 (fun f l k => laneFp f.ty.toNat f.rc.toNat true
    (fun v => exp2Val (v.getD 0 (.zero false))) [laneOfA l f k]) ∧
  vectorResult .vlog2 .vlog2 (fun f l k => laneFp f.ty.toNat f.rc.toNat true
    (fun v => log2Val (v.getD 0 (.zero false))) [laneOfA l f k]) ∧
  vectorResult .vexp .vexp (fun f l k => laneFp f.ty.toNat f.rc.toNat true
    (fun v => expVal (v.getD 0 (.zero false))) [laneOfA l f k]) ∧
  vectorResult .vtanh .vtanh (fun f l k => laneFp f.ty.toNat f.rc.toNat true
    (fun v => tanhVal (v.getD 0 (.zero false))) [laneOfA l f k]) ∧
  vectorResult .vrint .vrint (fun f l k => laneFp f.ty.toNat f.rc.toNat true
    (fun v => rintVal (v.getD 0 (.zero false)) (f.rc.toNat % 4)) [laneOfA l f k]) ∧
  vectorResult .vldexp .vldexp (fun f l k => laneFp f.ty.toNat f.rc.toNat true
    (fun v => ldexpVal (v.getD 0 (.zero false)) (laneOfB l f k).toInt) [laneOfA l f k])) ∧
  (
  vectorResult .viadd .viadd (fun f l k =>
    let a := laneOfA l f k
    let b := laneOfB l f k
    a + b) ∧
  vectorResult .visub .visub (fun f l k =>
    let a := laneOfA l f k
    let b := laneOfB l f k
    a - b) ∧
  vectorResult .vimul .vimul (fun f l k =>
    let a := laneOfA l f k
    let b := laneOfB l f k
    a * b) ∧
  vectorResult .vimin .vimin (fun f l k =>
    let a := laneOfA l f k
    let b := laneOfB l f k
    if f.ty = 3 then (if a.toInt ≤ b.toInt then a else b) else (if a.toNat ≤ b.toNat then a else b)) ∧
  vectorResult .vimax .vimax (fun f l k =>
    let a := laneOfA l f k
    let b := laneOfB l f k
    if f.ty = 3 then (if a.toInt ≤ b.toInt then b else a) else (if a.toNat ≤ b.toNat then b else a)) ∧
  vectorResult .vand .vand (fun f l k =>
    let a := laneOfA l f k
    let b := laneOfB l f k
    a &&& b) ∧
  vectorResult .vor .vor (fun f l k =>
    let a := laneOfA l f k
    let b := laneOfB l f k
    a ||| b) ∧
  vectorResult .vxor .vxor (fun f l k =>
    let a := laneOfA l f k
    let b := laneOfB l f k
    a ^^^ b) ∧
  vectorResult .vshl .vshl (fun f l k =>
    let a := laneOfA l f k
    let b := laneOfB l f k
    a <<< (b.toNat % 32)) ∧
  vectorResult .vshr .vshr (fun f l k =>
    let a := laneOfA l f k
    let b := laneOfB l f k
    if f.ty = 3 then a.sshiftRight (b.toNat % 32) else a >>> (b.toNat % 32)) ∧
  vectorResult .vmov .vmov (fun f l k => laneOfA l f k) ∧
  vectorResult .viota .viota (fun f l k => BitVec.ofNat 32 k + (l.sreg f.a).setWidth 32) ∧
  vectorResult .vli .vli (fun f _ _ => f.imm) ∧
  ∀ s tile eng n o f, loomReady s tile eng n o .vsel f →
    acts (.vsel tile eng f) s fun d => ∃ l,
      (let l0 := getLoom s.dev tile eng
       vectorSet l0 l f.d fun k => if isActive l0 f k then laneOfA l0 f k else laneOfB l0 f k) ∧
      loomGoesOn s.dev d tile eng n l)

/-- Results of the compare and mask instructions. VCMPEQ to VISFIN write mask D: in an active lane whether the relation of
Table 6.12 holds (a NaN compares unequal and unordered), 0 in an inactive one. MAND, MOR, MXOR, MNOT and MPREFIX write
every bit of mask D whatever the mask; MPOPC and MFIRST write the number of lanes, and the lowest lane (256 if none),
of mA and the governing mask to scalar D. (06 Table 6.12, R156) -/
def Obligations.LoomCompareAndMaskResults : Prop :=
  maskResult .vcmpeq .vcmpeq true (fun f l k =>
    let a := laneOfA l f k
    let b := laneOfB l f k
    if f.ty = 0 then (f32 a).le (f32 b) && (f32 b).le (f32 a) else decide (a = b)) ∧
  maskResult .vcmpne .vcmpne true (fun f l k =>
    let a := laneOfA l f k
    let b := laneOfB l f k
    if f.ty = 0 then !((f32 a).le (f32 b) && (f32 b).le (f32 a)) else !(decide (a = b))) ∧
  maskResult .vcmplt .vcmplt true (fun f l k =>
    let a := laneOfA l f k
    let b := laneOfB l f k
    if f.ty = 0 then (f32 a).lt (f32 b) else if f.ty = 3 then decide (a.toInt < b.toInt) else decide (a.toNat < b.toNat)) ∧
  maskResult .vcmple .vcmple true (fun f l k =>
    let a := laneOfA l f k
    let b := laneOfB l f k
    if f.ty = 0 then (f32 a).le (f32 b) else if f.ty = 3 then decide (a.toInt ≤ b.toInt) else decide (a.toNat ≤ b.toNat)) ∧
  maskResult .vcmpun .vcmpun true (fun f l k =>
    let a := laneOfA l f k
    let b := laneOfB l f k
    (firstNan [f32 a, f32 b]).isSome) ∧
  maskResult .visfin .visfin true (fun f l k => !(f32 (laneOfA l f k)).special) ∧
  maskResult .mand .mand false (fun f l k => (l.mreg f.a.toNat).getLsbD k && (l.mreg f.b.toNat).getLsbD k) ∧
  maskResult .mor .mor false (fun f l k => (l.mreg f.a.toNat).getLsbD k || (l.mreg f.b.toNat).getLsbD k) ∧
  maskResult .mxor .mxor false (fun f l k => (l.mreg f.a.toNat).getLsbD k != (l.mreg f.b.toNat).getLsbD k) ∧
  maskResult .mnot .mnot false (fun f l k => !(l.mreg f.a.toNat).getLsbD k) ∧
  maskResult .mprefix .mprefix false (fun f l k => decide (k < (l.sreg f.a).toNat)) ∧
  scalarResult .mpopc .mpopc (fun f l => BitVec.ofNat 64 (((List.range 256).filter fun k => (l.mreg f.a.toNat).getLsbD k && isActive l f k).length)) ∧
  scalarResult .mfirst .mfirst (fun f l => BitVec.ofNat 64 (((List.range 256).find? fun k => (l.mreg f.a.toNat).getLsbD k && isActive l f k).getD 256))

/-- Results of the cross-lane and reduction instructions. VPERM, VROT, VBCAST, VINS and VISCAN write the active lanes of
D, VEXPAND gives active lane i the lane of A numbered by the active lanes below i, VCOMPRESS packs the active lanes of
A below zero lanes and writes their number to sC; VEXT, RISUM, RMAX, RMIN, RSUM.O and RSUM.OA write a 32-bit result to
scalar D with the upper half cleared, over the active lanes, with the empty results of R161 and the ordered sums of
R163. (06 Table 6.13, R161, R162, R163) -/
def Obligations.LoomCrossLaneResults : Prop :=
  vectorResult .vperm .vperm (fun f l k => laneOfA l f ((laneOfB l f k).toNat % 256)) ∧
  vectorResult .vrot .vrot (fun f l k => laneOfA l f ((k + (l.sreg f.b).toNat) % 256)) ∧
  vectorResult .vbcast .vbcast (fun f l _ => laneOfA l f ((l.sreg f.b).toNat % 256)) ∧
  vectorResult .vins .vins (fun f l k => if k = (l.sreg f.b).toNat % 256 then (l.sreg f.a).setWidth 32 else lane l f.d k) ∧
  vectorResult .viscan .viscan (fun f l k =>
    ((((List.range (k + 1)).filter (isActive l f)).map (laneOfA l f)).foldl (· + ·) 0)) ∧
  vectorResult .vexpand .vexpand (fun f l k => laneOfA l f ((List.range k).filter (isActive l f)).length) ∧
  scalarResult .vext .vext (fun f l => (laneOfA l f ((l.sreg f.b).toNat % 256)).setWidth 64) ∧
  scalarResult .risum .risum (fun f l => ((((List.range 256).filter (isActive l f)).map (laneOfA l f)).foldl (· + ·) 0).setWidth 64) ∧
  scalarResult .rsumO .rsumO (fun f l => (BitVec.ofNat 32 (reduceFloat 0 none 256 fun k =>
    [if isActive l f k then f32 (laneOfA l f k) else .zero false])).setWidth 64) ∧
  scalarResult .rsumOa .rsumOa (fun f l => (BitVec.ofNat 32 (reduceFloat 0 (some ((l.sreg f.d).toNat % 2 ^ 32)) 256 fun k =>
    [if isActive l f k then f32 (laneOfA l f k) else .zero false])).setWidth 64) ∧
  scalarResult .rmax .rmax (fun f l =>
    let xs := ((List.range 256).filter (isActive l f)).map (laneOfA l f)
    let r : W32 := if f.ty = 0 then fpExtreme true xs else intExtreme true (f.ty == 3) xs
    r.setWidth 64) ∧
  scalarResult .rmin .rmin (fun f l =>
    let xs := ((List.range 256).filter (isActive l f)).map (laneOfA l f)
    let r : W32 := if f.ty = 0 then fpExtreme false xs else intExtreme false (f.ty == 3) xs
    r.setWidth 64) ∧
  ∀ s tile eng n o f, loomReady s tile eng n o .vcompress f →
    acts (.vcompress tile eng f) s fun d => ∃ l1 l2,
      (let l := getLoom s.dev tile eng
       let kept := ((List.range 256).filter (isActive l f))
       vectorSet l l1 f.d (fun k => (kept[k]?.map (laneOfA l f)).getD 0) ∧
       scalarSet l1 l2 f.c (BitVec.ofNat 64 kept.length)) ∧
      loomGoesOn s.dev d tile eng n l2

/-- Results of the conversion instructions, lane by lane. VCVT.F2I, VCVT.I2F, VPACK, VUNPL and VUNPH write each active
lane of D with the conversion of Table 6.14; VCVT.X and VDCD.X, given a format word they accept, write the encoding of
the lane under RC, with the saturated lanes in mask SM, and the value of the element in the low bits. A format word
that is not accepted ends the operation with fault code 0x09. (06 Table 6.14, R168, R169) -/
def Obligations.LoomConversionResults : Prop :=
  vectorResult .vcvtF2i .vcvtF2i (fun f l k =>
    BitVec.ofNat 32 (convInt 32 (if f.ty = 3 then (-2 ^ 31, 2 ^ 31 - 1) else (0, 2 ^ 32 - 1)) (f.rc.toNat % 4) 0
      (f32 (laneOfA l f k))).pat) ∧
  vectorResult .vcvtI2f .vcvtI2f (fun f l k =>
    BitVec.ofNat 32 (roundElem 0 f.rc.toNat (intVal (if f.ty = 3 then (laneOfA l f k).toInt else (laneOfA l f k).toNat) 0))) ∧
  vectorResult .vpack .vpack (fun f l k =>
    BitVec.ofNat 32 (roundElem f.ty.toNat f.rc.toNat (f32 (laneOfA l f k)) +
      65536 * roundElem f.ty.toNat f.rc.toNat (f32 (laneOfB l f k)))) ∧
  vectorResult .vunpl .vunpl (fun f l k => toF32 (elemVal f.ty.toNat false ((laneOfA l f k).toNat % 65536))) ∧
  vectorResult .vunph .vunph (fun f l k => toF32 (elemVal f.ty.toNat false ((laneOfA l f k).toNat / 65536))) ∧
  (∀ s tile eng n o f, loomReady s tile eng n o .vcvtX f →
    let l0 := getLoom s.dev tile eng
    let w := (l0.sreg f.b).toNat % 65536
    let out (k : Nat) : Conv :=
      convert (fmtOf w) f.rc.toNat 0 (if f.ty = 3 then intVal (laneOfA l0 f k).toInt 0 else f32 (laneOfA l0 f k))
    if laneWordBad f.ty w then
      acts (.vcvtX tile eng f) s fun d => ended d n 0x2A (l0.pc % 65536 + 0x09 * 65536)
    else acts (.vcvtX tile eng f) s fun d => ∃ l1 l2,
      vectorSet l0 l1 f.d (fun k => if isActive l0 f k then BitVec.ofNat 32 (out k).pat else lane l0 f.d k) ∧
      (if f.sm = 0 then l2 = l1 else maskSet l1 l2 f.sm.toNat fun k => (out k).sat && isActive l0 f k) ∧
      loomGoesOn s.dev d tile eng n l2) ∧
  ∀ s tile eng n o f, loomReady s tile eng n o .vdcdX f →
    let l0 := getLoom s.dev tile eng
    let w := (l0.sreg f.b).toNat % 65536
    let v (k : Nat) : Val := readVal (fmtOf w) ((laneOfA l0 f k).toNat % 2 ^ fmtBits (fmtOf w).code) 127
    if laneWordBad f.ty w then
      acts (.vdcdX tile eng f) s fun d => ended d n 0x2A (l0.pc % 65536 + 0x09 * 65536)
    else acts (.vdcdX tile eng f) s fun d => ∃ l,
      vectorSet l0 l f.d (fun k =>
        if !(isActive l0 f k) then lane l0 f.d k
        else if f.ty = 3 then BitVec.ofNat 32 (convert { code := 11, mx := false, scale := 0 } 0 0 (v k)).pat
        else toF32 (v k)) ∧ loomGoesOn s.dev d tile eng n l

/-- Results of the loads and stores of the Loom, and their frame in memory. VLD and VLDG load each active lane with its
four bytes, VLDX from its own address, SLD loads eight bytes and MLD the active bits of a mask; addresses that hold no
stored error and lie in the region. Inactive lanes are neither read nor written. Nothing else changes but the
counters. VST and VSTG store the active lanes, VSTX each at its own address with the highest lane remaining where two
name one address, SST eight bytes, MST 32 bytes with inactive lanes as 0. Every byte outside those reads as before,
the registers are kept, and nothing else changes but the counters and the operation that stores. (06 Table 6.15, R156,
R164, R165) -/
def Obligations.LoomLoadAndStoreResults : Prop :=
  (
  (∀ s tile eng n o f, loomReady s tile eng n o .vld f →
    let l0 := getLoom s.dev tile eng
    let a := l0.address f
    a % 16 = 0 → (∀ k, k < 256 → isActive l0 f k → sramClear s.dev tile (a + 4 * k) 4) →
    acts (.vld tile eng f) s fun d => ∃ l,
      vectorSet l0 l f.d (fun k => if isActive l0 f k then wordAt s.dev (sramBase tile + a + 4 * k) else lane l0 f.d k) ∧
      loomGoesOn s.dev d tile eng n l) ∧
  (∀ s tile eng n o f die, loomReady s tile eng n o .vldg f →
    let l0 := getLoom s.dev tile eng
    let a := l0.address f
    a % 16 = 0 → (∀ k, k < 256 → isActive l0 f k → gddrClear s.dev die (a + 4 * k) 4) →
    acts (.vldg tile eng f) s fun d => ∃ l,
      vectorSet l0 l f.d (fun k => if isActive l0 f k then wordAt s.dev (a + 4 * k) else lane l0 f.d k) ∧
      loomGoesOn s.dev d tile eng n l) ∧
  (∀ s tile eng n o f, loomReady s tile eng n o .vldx f →
    let l0 := getLoom s.dev tile eng
    let a (k : Nat) : Nat := (l0.address f + (lane l0 f.x k).toNat) % 2 ^ 64
    (∀ k, k < 256 → isActive l0 f k → a k % 4 = 0 ∧ sramClear s.dev tile (a k) 4) →
    acts (.vldx tile eng f) s fun d => ∃ l,
      vectorSet l0 l f.d (fun k => if isActive l0 f k then wordAt s.dev (sramBase tile + a k) else lane l0 f.d k) ∧
      loomGoesOn s.dev d tile eng n l) ∧
  (∀ s tile eng n o f, loomReady s tile eng n o .sld f →
    let l0 := getLoom s.dev tile eng
    l0.address f % 8 = 0 → sramClear s.dev tile (l0.address f) 8 →
    acts (.sld tile eng f) s fun d => ∃ l,
      scalarSet l0 l f.d (BitVec.ofNat 64 (leNat (cellsRead s.dev.mem.cells (sramBase tile + l0.address f) 8))) ∧
      loomGoesOn s.dev d tile eng n l) ∧
  (∀ s tile eng n o f, loomReady s tile eng n o .mld f →
    let l0 := getLoom s.dev tile eng
    l0.address f % 8 = 0 → sramClear s.dev tile (l0.address f) 32 →
    acts (.mld tile eng f) s fun d => ∃ l,
      maskSet l0 l f.d.toNat (fun k =>
        if isActive l0 f k then (byteAt s.dev (sramBase tile + l0.address f + k / 8)).getLsbD (k % 8)
        else (l0.mreg f.d.toNat).getLsbD k) ∧ loomGoesOn s.dev d tile eng n l)) ∧
  (
  (∀ s tile eng n o f, loomReady s tile eng n o .vst f → plainMemory s.dev →
    let l0 := getLoom s.dev tile eng
    let a := l0.address f
    a % 16 = 0 → (∀ k, k < 256 → isActive l0 f k → sramClear s.dev tile (a + 4 * k) 4) →
    acts (.vst tile eng f) s fun d =>
      lanesStored s.dev d (isActive l0 f) 4 (fun k => sramBase tile + a + 4 * k) (fun k => (lane l0 f.d k).toNat) ∧
      loomGoesOnIn onlyStores s.dev d tile eng n l0) ∧
  (∀ s tile eng n o f die, loomReady s tile eng n o .vstg f → plainMemory s.dev →
    let l0 := getLoom s.dev tile eng
    let a := l0.address f
    a % 16 = 0 → (∀ k, k < 256 → isActive l0 f k → gddrClear s.dev die (a + 4 * k) 4) →
    acts (.vstg tile eng f) s fun d =>
      lanesStored s.dev d (isActive l0 f) 4 (fun k => a + 4 * k) (fun k => (lane l0 f.d k).toNat) ∧
      loomGoesOnIn onlyStores s.dev d tile eng n l0) ∧
  (∀ s tile eng n o f, loomReady s tile eng n o .vstx f → plainMemory s.dev →
    let l0 := getLoom s.dev tile eng
    let a (k : Nat) : Nat := (l0.address f + (lane l0 f.x k).toNat) % 2 ^ 64
    (∀ k, k < 256 → isActive l0 f k → a k % 4 = 0 ∧ sramClear s.dev tile (a k) 4) →
    acts (.vstx tile eng f) s fun d =>
      lanesStored s.dev d (isActive l0 f) 4 (fun k => sramBase tile + a k) (fun k => (lane l0 f.d k).toNat) ∧
      loomGoesOnIn onlyStores s.dev d tile eng n l0) ∧
  (∀ s tile eng n o f, loomReady s tile eng n o .sst f → plainMemory s.dev →
    let l0 := getLoom s.dev tile eng
    l0.address f % 8 = 0 → sramClear s.dev tile (l0.address f) 8 →
    acts (.sst tile eng f) s fun d =>
      bytesStored s.dev d (sramBase tile + l0.address f) (leBytes 8 (l0.sreg f.d).toNat) ∧
      loomGoesOnIn onlyStores s.dev d tile eng n l0) ∧
  (∀ s tile eng n o f, loomReady s tile eng n o .mst f → plainMemory s.dev →
    let l0 := getLoom s.dev tile eng
    l0.address f % 8 = 0 → sramClear s.dev tile (l0.address f) 32 →
    acts (.mst tile eng f) s fun d =>
      bytesStored s.dev d (sramBase tile + l0.address f) (leBytes 32 (l0.mreg f.d.toNat &&& l0.active f).toNat) ∧
      loomGoesOnIn onlyStores s.dev d tile eng n l0))

/-- Results of VLDF, VSTF, UCVT and USTF. VLDF gives each active lane the value of its packed element, under the block
scale where MX is set. VSTF and USTF store the elements of the active lanes of a format of at least 8 bits without MX,
and UCVT the encoding to each active lane, under RC and, where it rounds stochastically, the draws of R244 for element
sC + lane; the saturated lanes go to mask SM. Every byte outside the stored elements reads as before. (R168, R171,
R244, 06 Table 6.15) -/
def Obligations.LoomTypedAccessResults : Prop :=
  (∀ s tile eng n o f, loomReady s tile eng n o .vldf f →
    let l0 := getLoom s.dev tile eng
    let w := (l0.sreg f.f).toNat % 65536
    let size := 32 * fmtBits (fmtOf w).code
    let off := l0.address f
    typedWordBad w = false → off % 16 = 0 → sramClear s.dev tile off size →
    ((fmtOf w).mx = true → sramClear s.dev tile (l0.sreg f.x).toNat 8) →
    let data := cellsRead s.dev.mem.cells (sramBase tile + off) size
    let v (k : Nat) : Val := readVal (fmtOf w) (unpackElem (fmtOf w).code data k)
      (if (fmtOf w).mx then (byteAt s.dev (sramBase tile + (l0.sreg f.x).toNat + k / 32)).toNat else 127)
    acts (.vldf tile eng f) s fun d => ∃ l,
      vectorSet l0 l f.d (fun k =>
        if !(isActive l0 f k) then lane l0 f.d k
        else if intLane w then BitVec.ofNat 32 (convert { code := 11, mx := false, scale := 0 } 0 0 (v k)).pat
        else toF32 (v k)) ∧ loomGoesOn s.dev d tile eng n l) ∧
  (∀ s tile eng n o f, loomReady s tile eng n o .vstf f → plainMemory s.dev →
    let l0 := getLoom s.dev tile eng
    let w := (l0.sreg f.f).toNat % 65536
    let off := l0.address f
    let size := fmtBits (fmtOf w).code / 8
    typedWordBad w = false → (fmtOf w).mx = false → 1 ≤ size → off % 16 = 0 → sramClear s.dev tile off (256 * size) →
    let out (k : Nat) : Conv :=
      convert (fmtOf w) f.rc.toNat 0 (if intLane w then intVal (lane l0 f.d k).toInt 0 else f32 (lane l0 f.d k))
    acts (.vstf tile eng f) s fun d => ∃ l,
      (if f.sm = 0 then l = l0 else maskSet l0 l f.sm.toNat fun k => isActive l0 f k && (out k).sat) ∧
      lanesStored s.dev d (isActive l0 f) size (fun k => sramBase tile + off + size * k) (fun k => (out k).pat) ∧
      loomGoesOnIn onlyStores s.dev d tile eng n l) ∧
  (∀ s tile eng n o f t, loomReady s tile eng n o .ucvt f →
    let l0 := getLoom s.dev tile eng
    let w := (l0.sreg f.b).toNat % 65536
    tensorOf (l0.sreg f.b) = some t → updateWordBad w = false →
    let draw (k : Nat) : Nat :=
      if f.rc.toNat % 4 = 2 then r16 s.dev.steps.num.seed o.step t (l0.sreg f.c + BitVec.ofNat 64 k) else 0
    let out (k : Nat) : Conv := convert (fmtOf w) f.rc.toNat (draw k) (f32 (laneOfA l0 f k))
    acts (.ucvt tile eng f) s fun d => ∃ l1 l2,
      vectorSet l0 l1 f.d (fun k => if isActive l0 f k then BitVec.ofNat 32 (out k).pat else lane l0 f.d k) ∧
      (if f.sm = 0 then l2 = l1 else maskSet l1 l2 f.sm.toNat fun k => (out k).sat && isActive l0 f k) ∧
      loomGoesOn s.dev d tile eng n l2) ∧
  ∀ s tile eng n o f t, loomReady s tile eng n o .ustf f → plainMemory s.dev →
    let l0 := getLoom s.dev tile eng
    let w := (l0.sreg f.b).toNat % 65536
    let off := (l0.sreg f.a).toNat
    let size := fmtBits (fmtOf w).code / 8
    tensorOf (l0.sreg f.b) = some t → updateWordBad w = false → 1 ≤ size → off % 16 = 0 → sramClear s.dev tile off (256 * size) →
    let draw (k : Nat) : Nat :=
      if f.rc.toNat % 4 = 2 then r16 s.dev.steps.num.seed o.step t (l0.sreg f.c + BitVec.ofNat 64 k) else 0
    let out (k : Nat) : Conv := convert (fmtOf w) f.rc.toNat (draw k) (f32 (lane l0 f.d k))
    acts (.ustf tile eng f) s fun d => ∃ l,
      (if f.sm = 0 then l = l0 else maskSet l0 l f.sm.toNat fun k => isActive l0 f k && (out k).sat) ∧
      lanesStored s.dev d (isActive l0 f) size (fun k => sramBase tile + off + size * k) (fun k => (out k).pat) ∧
      loomGoesOnIn onlyStores s.dev d tile eng n l

/-- CNS.VAL, CNS.SAT and CNS.NF add a contribution to the running operation. On a Loom that may issue it, each instruction
with a tensor word whose bits [63:28] are zero adds one contribution for tensor sB[27:16] to those the running
operation holds until it retires: CNS.VAL counts the elements of the active lanes, their zeros and non-finite values
and their largest magnitude; CNS.SAT and CNS.NF the bits of mA and the governing mask. Otherwise the operation ends
with fault code 0x0A. (R172, 06 Table 6.16) -/
def Obligations.LoomCensusResults : Prop :=
  ∀ s tile eng n o f,
    let l0 := getLoom s.dev tile eng
    let lanes : List W32 := ((List.range 256).filter (isActive l0 f)).map (laneOfA l0 f)
    let masked : Nat := ((List.range 256).filter fun k => (l0.mreg f.a.toNat).getLsbD k && isActive l0 f k).length
    let adds (c : Instr) (x : CensusAdd) : Prop :=
      if (l0.sreg f.b).toNat < 2 ^ 28 then
        acts c s fun d => (getOp d n).map (·.census) = some (o.census ++ [x]) ∧ loomGoesOnIn onlyOps s.dev d tile eng n l0
      else acts c s fun d => ended d n 0x2A (l0.pc % 65536 + 0x0A * 65536)
    let tensor := (l0.sreg f.b).toNat / 65536 % 4096
    (loomReady s tile eng n o .cnsVal f → adds (.cnsVal tile eng f) (censusOf f.ty.toNat tensor lanes)) ∧
    (loomReady s tile eng n o .cnsSat f → adds (.cnsSat tile eng f) { tensor := tensor, saturated := masked }) ∧
    (loomReady s tile eng n o .cnsNf f → adds (.cnsNf tile eng f) { tensor := tensor, nonfinite := masked })

/-- ACCRD, CHTAKE and CHSEND. ACCRD writes lane k of the active lanes with element (sA, 256 sB + k) of a declared set,
FP32 for a floating-point accumulator. CHTAKE, granted the oldest entry its ring may take, writes the payload and
header offsets to sD and holds the entry. CHSEND with a credit appends one entry with the header of R175 and copies
the payload into the lowest free slot of the consumer, every other byte of SRAM and GDDR7 reading as before. (R142,
R173, R174, R175, R32) -/
def Obligations.LoomAccumulatorAndChuteResults : Prop :=
  (∀ s tile eng n o f x, loomReady s tile eng n o .accrd f →
    let l0 := getLoom s.dev tile eng
    let e := o.f (36 + f.c.toNat) 1
    let i := (l0.sreg f.a).toNat
    let c := (l0.sreg f.b).toNat
    bit e 7 = true → setAt s.dev tile (e % 8) = some x → i < (shapeDims x.shape.toNat).1 →
    256 * c + 256 ≤ (shapeDims x.shape.toNat).2 →
    acts (.accrd tile eng f) s fun d => ∃ l,
      vectorSet l0 l f.d (fun k =>
        if !(isActive l0 f k) then lane l0 f.d k
        else if x.fmt = 1 ∨ x.fmt = 2 then toF32 (elemVal x.fmt.toNat false (x.elem i (256 * c + k)))
        else BitVec.ofNat 32 (x.elem i (256 * c + k))) ∧ loomGoesOn s.dev d tile eng n l) ∧
  (∀ s tile eng n o f c x, loomRuns s tile eng n o .chtake f →
    let l0 := getLoom s.dev tile eng
    let e := o.f (40 + f.imm.toNat % 4) 1
    let q := 16 * tile + e % 16
    bit e 7 = true → getChute s.dev tile (e % 16) = some c → l0.taken.getD (f.imm.toNat % 4) 0 < c.depth →
    c.takeable n.ring = some x → x.transit = false → takeGranted s.dev { tile := tile, eng := eng, op := n } q c = true →
    acts (.chtake tile eng f) s fun d =>
      (getLoom d tile eng).sreg f.d = BitVec.ofNat 64 (c.slotOffset x.slot + 2 ^ 32 * c.headerOffset x.slot) ∧
      (getLoom d tile eng).waitFrom = none ∧
      getChute d tile (e % 16) = some { c with
        entries := c.entries.map fun y => if y.slot = x.slot then { y with st := .taken n } else y } ∧
      ∀ r, r ≠ f.d → (getLoom d tile eng).sreg r = l0.sreg r) ∧
  ∀ s tile eng n o f c, loomRuns s tile eng n o .chsend f → plainMemory s.dev →
    let l0 := getLoom s.dev tile eng
    let e := o.f (48 + 4 * f.d.toNat) 4
    let word := (l0.sreg f.c).toNat
    let len := (l0.sreg f.b).toNat
    let src := sramBase tile + (l0.sreg f.a).toNat
    let slot := sramBase (e % 64) + c.slotOffset c.freeSlot
    let at_ := sramBase (e % 64) + c.headerOffset c.freeSlot
    let stamp := entryStamp n o
    let header := chuteHeader n.ring n.seq.toNat stamp.1 (stamp.2 % 2 ^ 32) (word % 4096) (word / 2 ^ 16 % 2 ^ 16)
      (word / 2 ^ 32 % 2 ^ 16) (word / 2 ^ 48 % 2 ^ 8) false len
    bit e 15 = true → getChute s.dev (e % 64) (bits e 11 8) = some c → bits word 15 12 = 0 → word < 2 ^ 56 →
    l0.sent.getD f.d.toNat 0 < bits e 22 16 → len ≤ c.slotBytes → c.credits ≠ 0 → queueHeld s.dev (e % 64) = false →
    c.offset + c.storage ≤ tileCapacity (e % 64) → sramClear s.dev tile (l0.sreg f.a).toNat len →
    acts (.chsend tile eng f) s fun d =>
      getChute d (e % 64) (bits e 11 8) = some { c with
        entries := c.entries ++ [{ slot := c.freeSlot, header := header, bytes := len, st := .sent n }] } ∧
      (getLoom d tile eng).waitFrom = none ∧
      ∀ x, byteAt d x =
        if slot ≤ x ∧ x < slot + len then byteAt s.dev (src + (x - slot))
        else if at_ ≤ x ∧ x < at_ + 64 then header.getD (x - at_) 0
        else byteAt s.dev x

/-- LOOM_RUN: the start of an operation with the registers of R153, and the run of its program. Where the operation is the oldest
issued to a Loom that runs none, LOOM_RUN starts it: v0 to v63 and m1 to m15 zero, s1 to s8 the arguments of the
descriptor, s9 to s31 zero, the PC at the entry point, and no other device state changes; then its instructions issue. For a running
operation each of them has the effect of that instruction's own command, in program order, until the program ends or waits or the
number of instructions that LOOM_RUN names have issued. (R153) -/
def Obligations.LoomRunStarts : Prop :=
  (∀ s tile eng (n : OpName) o img, atWork s → issuedOp s.dev n = some o → o.opcode = 0x0201 →
    ringTarget s.dev n.ring = some (.loom tile eng) → loomRunning s.dev tile eng = none →
    (issuedTo s.dev (.loom tile eng)).head?.map (fun e => (e.1, e.2.seq)) = some (n.ring, n.seq) →
    (getLoom s.dev tile eng).images.find? (fun i => i.id == o.image) = some img →
    ∃ d, exec (.loomRun n.ring n.seq 0) s = .next { s with dev := d } ∧
      (let l := getLoom d tile eng
       filesWhole l ∧ (∀ i k, (l.vreg i).getD k 0 = 0) ∧ (∀ i, i ≠ 0 → l.mreg i = 0) ∧
       (∀ i : BitVec 6, l.sreg i = if 1 ≤ i.toNat ∧ i.toNat ≤ 8 then BitVec.ofNat 64 (o.f (64 + 8 * (i.toNat - 1)) 8) else 0) ∧
       l.pc = (img.entries.getD (o.f 33 1 % 8) 0).toNat ∧ l.run = some n ∧ l.length = img.instrs.length ∧ l.waitFrom = none ∧
       otherLooms s.dev d tile eng ∧ { d with looms := s.dev.looms } = s.dev) ∧
      ∀ k, s.dev.granary.st ≠ .copying → exec (.loomRun n.ring n.seq k) s = exec (.loomRun n.ring n.seq k) { s with dev := d }) ∧
  ∀ s tile eng n o op f (k : Nat), loomRuns s tile eng n o op f → ringTarget s.dev n.ring = some (.loom tile eng) → o.opcode = 0x0201 →
    s.dev.granary.st ≠ .copying →
    ∃ d, exec (loomCmd tile eng f op) s = .next { s with dev := d } ∧
      exec (.loomRun n.ring n.seq (k + 1)) s =
        if (loomRunning d tile eng).isNone ∨ (getLoom d tile eng).waitFrom ≠ none then .next { s with dev := d }
        else exec (.loomRun n.ring n.seq k) { s with dev := d }

/-- The watchdog of a Loom, the stalls of chute takes and sends, and CHUTE_SEND. LOOM_WATCHDOG_EXPIRY, once the core
cycles outside waits reach the limit, ends the running operation as ST_ENGINE_TIMEOUT with the instruction index.
LOOM_TAKE_STALL and CHUTE_STALL, once the wait has lasted beyond its limit and is not logged yet, report
EV_LOOM_TAKE_STALL or EV_CHUTE_STALL with the ring as source and mark the wait as logged; before that they change
nothing. Where an operation has an entry to send and its producer holds a credit, CHUTE_SEND appends the entry to the
queue of its consumer in the lowest free slot, one credit less; the operation goes on to its next entry, or completes
ST_OK after its last one. Without a credit nothing changes. (R37, R174, R178, R179, R32) -/
def Obligations.LoomWaitsAndSends : Prop :=
  (
  (∀ s tile eng n o, atWork s → loomExists tile eng = true → loomRunning s.dev tile eng = some (n, o) →
    let l := getLoom s.dev tile eng
    l.waitFrom = none → l.startAt + l.waited + l.limit.toNat * 65536 ≤ engineCycles s.dev (.loom tile eng) →
    acts (.loomWatchdogExpiry tile eng) s fun d =>
      ended d n 0x58 (l.pc % 65536) ∧ (getLoom d tile eng).run = none ∧ otherLooms s.dev d tile eng) ∧
  (∀ s tile eng n o r t, atWork s → loomExists tile eng = true → loomRunning s.dev tile eng = some (n, o) →
    getRing s.dev n.ring = some r →
    let l := getLoom s.dev tile eng
    l.waitFrom = some t → l.waitOut = none → l.waitLogged = false →
    if t + r.waitLimit * 1000000 < deviceTime s.dev then
      acts (.loomTakeStall tile eng) s fun d => recorded s.dev d 0x811 (.ring n.ring) 0 ∧
        getLoom d tile eng = { l with waitLogged := true } ∧ otherLooms s.dev d tile eng
    else exec (.loomTakeStall tile eng) s = .next s) ∧
  ∀ s (n : OpName) o u c e es t, atWork s → issuedOp s.dev n = some o → ringTarget s.dev n.ring = some u → o.sends = e :: es →
    getChute s.dev e.consumer e.queue = some c → c.credits = 0 → o.sendFrom = some t → o.sendLogged = false →
    if t + c.stallMs * 1000000 < deviceTime s.dev then
      acts (.chuteStall n.ring n.seq) s fun d => recorded s.dev d 0x810 (.ring n.ring) 0 ∧
        getOp d n = some { o with sendLogged := true } ∧ d.chutes = s.dev.chutes
    else exec (.chuteStall n.ring n.seq) s = .next s) ∧
  (
  ∀ s (n : OpName) o u c e es transit, atWork s → issuedOp s.dev n = some o → ringTarget s.dev n.ring = some u →
    o.sends = e :: es → getChute s.dev e.consumer e.queue = some c → queueHeld s.dev e.consumer = false → s.dev.granary.st ≠ .copying →
    if c.credits = 0 then exec (.chuteSend n.ring n.seq transit) s = .next s
    else acts (.chuteSend n.ring n.seq transit) s fun d =>
      (∃ c', getChute d e.consumer e.queue = some c' ∧ c'.credits + 1 = c.credits ∧
        c'.entries = c.entries ++ [Entry.mk c.freeSlot (if transit = .uncorrectable then withTransit e.header else e.header)
          e.payload.length (.sent n)]) ∧
      if es = [] then (getOp d n).map (fun x => (x.phase, x.status, x.sends)) = some (.complete, 0x00, [])
      else (getOp d n).map (fun x => (x.phase, x.sends)) = some (.issued, es))

/-- Power-on, power loss and the thermal trip. POWER_ON of an unpowered package with no latched trip starts phase A with
no ring, zeroed memory and the fuses and firmware slots it had. POWER_LOSS leaves a powered package unpowered, all
domains OFF. THERMAL_TRIP at 115 °C or above unpowers it and latches, and POWER_ON then changes nothing until
TRIP_RELEASE. Fuses and firmware slots are kept throughout. (R401, R416, R418, R441, R377) -/
def Obligations.PowerOnAndOff : Prop :=
  (∀ s : State, s.dev.power.on = false → s.dev.power.tripLatched = false →
    acts .powerOn s fun d => d.power = { perst := s.dev.power.perst, reference := s.dev.power.reference } ∧ d.hub = {} ∧ d.looms = [] ∧ d.mem.cells = [] ∧
      d.flash.slots = s.dev.flash.slots ∧ d.flash.fuses = s.dev.flash.fuses ∧ d.mem.host = s.dev.mem.host) ∧
  (∀ s : State, s.dev.power.on = true →
    acts .powerLoss s fun d => d.power.on = false ∧ d.power.tripLatched = s.dev.power.tripLatched ∧
      d.power.domains = List.replicate 157 .off ∧ d.hub = {} ∧ d.mem.cells = [] ∧ d.flash.slots = s.dev.flash.slots ∧
      d.flash.fuses = s.dev.flash.fuses) ∧
  (∀ (s : State) (t : Int), s.dev.power.on = true → 115 ≤ t →
    acts (.thermalTrip t) s fun d => d.power.on = false ∧ d.power.tripLatched = true ∧ d.flash.slots = s.dev.flash.slots ∧
      d.flash.fuses = s.dev.flash.fuses ∧ exec .powerOn { s with dev := d } = .next { s with dev := d }) ∧
  ∀ s : State, s.dev.power.on = false → acts .tripRelease s fun d => d = { s.dev with power.tripLatched := false }

/-- The phases of bring-up, one after the other. BRINGUP_PHASE_DONE ends the phase that runs. A: LL_BOOT.PHASE 2,
the link as it trained. B without a startable image: the boot ROM serves mailbox 0 alone. C with the 100 MHz reference: each domain
ON but those of retired units; without it C does not end and configuration space no longer answers. D with no finding: every SRAM
byte zero, GDDR7 kept. E and F without a saved record or a finding: the next phase. H,
beside F or G, has ended once. G after H with no finding: PHASE 0xF, READY, cause 0 set, GDDR7 zero and SRAM kept.
(R391, R401, R402, R407, R422, R442, 16 Table 16.1) -/
def Obligations.BringupPhases : Prop :=
  ∀ (s : State) (found : Findings), powered s →
    let c := Instr.bringupPhaseDone found
    (s.dev.power.phase = 1 → linkRuns found.link.1 found.link.2 = true →
      acts c s fun d => d = { s.dev with
        power.phase := 2, power.bootFrom := deviceTime s.dev, power.reference := found.reference
        host.speed := found.link.1, host.width := found.link.2 }) ∧
    (s.dev.power.phase = 2 → s.dev.power.noFw = false → found.iabor = [] → found.imageOk = false → found.otherOk = false →
      (∀ k, k < 2 → (fwSlot s.dev k).st ≠ 2) →
      acts c s fun d => d.power = { s.dev.power with noFw := true, phase := 2, reference := found.reference } ∧ d.iabor.up = false ∧
        ∀ (m : Nat) (b : Mailbox), s.dev.iabor.mbx[m]? = some b → d.iabor.mbx[m]? = some (if m = 0 then b else { b with st := .noFirmware })) ∧
    (firmwareRuns s.dev 0 = true →
      (s.dev.power.phase = 3 → found.reference = true → acts c s fun d => d.power.phase = 4 ∧
        ∀ n, n < 157 → domainState d n = if domainRetired s.dev n then .off else .on) ∧
      (s.dev.power.phase = 3 → found.reference = false → acts c s fun d => d = { s.dev with power.reference := false } ∧
        configOpen d = false) ∧
      (s.dev.power.phase = 4 → found.hamlets = [] → found.tiles = [] → found.decoders = [] → found.iabor = [] →
        s.dev.units.decoders = List.replicate 8 8 → s.dev.units.iabor = [4, 4] → dieRetired s.dev 1 = false →
        acts c s fun d => d.power.phase = 5 ∧
          ∀ a, byteAt d a = if 0x100000000000 ≤ a then 0 else byteAt s.dev a) ∧
      (s.dev.power.phase = 5 → found.gateways = [] → s.dev.flash.trained = false →
        acts c s fun d => d.power.phase = 6 ∧ d.power.warm = false ∧ d.units = s.dev.units) ∧
      (s.dev.power.phase = 6 → found.ports.length ≠ 6 → found.gddr = [] → s.dev.flash.trained = false →
        acts c s fun d => d.power.phase = 7 ∧ d.units = s.dev.units) ∧
      (s.dev.power.phase = 6 ∨ s.dev.power.phase = 7 → found.ports.length = 6 → s.dev.power.phaseH = false →
        acts c s fun d => d.power.phaseH = true) ∧
      (s.dev.power.phase = 7 → found.ports.length ≠ 6 → s.dev.power.phaseH = true → found.gddrBad = [] →
        acts c s fun d => d.power.phase = 0xF ∧ d.power.ready = true ∧ d.host.irqCause.getLsbD 0 = true ∧
          d.power.recordDue = !s.dev.power.warm ∧
          ∀ a, byteAt d a = if 0x100000000000 ≤ a then byteAt s.dev a else 0))

/-- The fast limiter, the power level and the thermal levels. FAST_LIMIT_ENGAGE and FAST_LIMIT_RELEASE set and clear the
limit of level 32. A power sample raises the power level by 1, to at most 56, where the mean of the window is above
LIMIT_W, and lowers it by 1 at the tenth sample in a row below 95 % of it. A sample of the sensors raises the thermal
level of a branch by 4 at or above T_THROTTLE and lowers it by 1 at the tenth sample at 3 °C below or less, and enters
SHED at 105 °C on a die or 100 °C on a GDDR7 device. (R415, R416, R417) -/
def Obligations.PowerAndHeatLevels : Prop :=
  (∀ s : State, powered s → s.dev.power.fastLimit = false →
    acts .fastLimitEngage s fun d => d.power = { s.dev.power with fastLimit := true } ∧ ∀ b, 32 ≤ branchLevel d b) ∧
  (∀ s : State, powered s → acts .fastLimitRelease s fun d => d = { s.dev with power.fastLimit := false }) ∧
  (∀ (s : State) (mv ma : Nat), powered s → firmwareRuns s.dev 0 = true →
    let p := s.dev.power
    let w := (mv * ma / 1000 :: p.window).take (10 * p.tauMs)
    let total := w.foldl (· + ·) 0
    let limit := p.limitW * 1000 * w.length
    acts (.reevePowerMeasure mv ma) s fun d =>
      d.power.window = w ∧ d.power.inputMv = mv ∧ d.power.inputMa = ma ∧
      d.power.level = (if limit < total then min 56 (p.level + 1)
        else if 100 * total < 95 * limit ∧ 10 ≤ p.lowerTick + 1 then p.level - 1 else p.level) ∧
      { d with power := p, iabor := s.dev.iabor } = s.dev) ∧
  ∀ (s : State) (tiles gddr : List Int), powered s → firmwareRuns s.dev 0 = true → tiles.length = 64 → gddr.length = 24 →
    acts (.tempSample tiles gddr) s fun d =>
      d.power.tileTemp = tileSensors tiles ∧ d.power.gddrTemp = gddr ∧
      (∀ b, b < 20 →
        let t := branchTemp d b
        let l := s.dev.power.thermal.getD b 0
        d.power.thermal.getD b 0 =
          if (s.dev.power.tThrottle : Int) ≤ t then min 56 (l + 4)
          else if t ≤ (s.dev.power.tThrottle : Int) - 3 ∧ 10 ≤ s.dev.power.coolTick.getD b 0 + 1 then l - 1 else l) ∧
      d.power.shed = (if s.dev.power.shed then !(decide (hottest (tileSensors tiles) ≤ 100) && decide (hottest gddr ≤ 95))
        else decide (105 ≤ hottest (tileSensors tiles)) || decide (100 ≤ hottest gddr))

/-- Heartbeats, the Iabor watchdog and the training record. A HEARTBEAT 1 ms after the last adds 1 to its cluster's count
and takes the time. IABOR_WATCHDOG_EXPIRY of a cluster that was silent for 250 ms notes the reset, records
EV_IABOR_RESTART and sets cause 4. At the third reset in 10 s the cluster stays halted and every mailbox reads NO_FIRMWARE;
else every BUSY mailbox is answered INTERRUPTED, for the east cluster those whose accepted command names a unit of its die
(log 94), and every other mailbox is kept. TRAINING_RECORD_WRITE writes the record that a cold start owes. (R379, R404,
17 Table 17.6) -/
def Obligations.HeartbeatsAndTrainingRecord : Prop :=
  (∀ (s : State) (die : Nat) (c : Cluster), powered s → firmwareRuns s.dev die = true → s.dev.iabor.clusters[die]? = some c →
    (∀ t, c.lastBeat = some t → t + 1000000 ≤ deviceTime s.dev) →
    acts (.heartbeat die) s fun d =>
      d.iabor.clusters[die]? = some { c with beats := c.beats + 1, lastBeat := some (deviceTime s.dev) } ∧
      { d with iabor.clusters := s.dev.iabor.clusters } = s.dev) ∧
  (∀ (s : State) (die : Nat) (c : Cluster), powered s → s.dev.hub.hardHalted = false → die < 2 → firmwareRuns s.dev die = true →
    s.dev.iabor.clusters[die]? = some c → silentSince s.dev die + 250000000 ≤ deviceTime s.dev →
    let third := decide (2 ≤ (c.resets.filter fun t => decide (deviceTime s.dev < t + 10000000000)).length)
    acts (.iaborWatchdogExpiry die) s fun d =>
      recorded s.dev d 0x884 (.core die 0) 0 ∧ d.host.irqCause.getLsbD 4 = true ∧
      (∃ c', d.iabor.clusters[die]? = some c' ∧ c'.halted = third ∧ c'.resets.head? = some (deviceTime s.dev)) ∧
      ∀ (m : Nat) (b : Mailbox), s.dev.iabor.mbx[m]? = some b → d.iabor.mbx[m]? = some (
        if third then { b with st := .noFirmware, answer := none }
        else if b.st = .busy ∧ (die = 0 ∨ (b.answer.isSome = true ∧ namesEast s.dev b = true)) then
          { b with answer := some (mbEnd rsInterrupted) }
        else b)) ∧
  ∀ s : State, powered s → firmwareRuns s.dev 0 = true → s.dev.power.recordDue = true →
    acts .trainingRecordWrite s fun d =>
      d = { s.dev with power.recordDue := false, flash.trained := true, flash.trainedAt := deviceTime s.dev }

/-- What function-level reset and PERST_N clear and keep. FUNCTION_LEVEL_RESET, where configuration space answers, leaves
no ring, every bell zero, no chute, stage, script or group operation, LL_HALT.HALTED clear with DROPPED kept, each
mailbox IDLE and the registers of the host side at their reset values; memory, power, clocks, the effective map, the
flash, the Tally and the counts stay. PERST_N asserted after ready acts alike and holds the pin; before ready, and on
its deassertion, only the pin changes. (R8, R72, R381, R420, R421, R444) -/
def Obligations.FunctionLevelReset : Prop :=
  let clears (d d' : Dev) : Prop :=
    d'.hub = { dropped := d.hub.dropped } ∧ (∀ b, bellValue d' b = 0) ∧ d'.chutes = [] ∧ d'.mills = [] ∧ d'.looms = [] ∧ d'.seq = {} ∧
    d'.steps = { oldest := stepCounter d } ∧ d'.granary = {} ∧ d'.fabric.requests = [] ∧ d'.fabric.parts = [] ∧
    d'.host.irqCause = 0 ∧ d'.host.irqEnable = 0x7B ∧ d'.host.slide = 0 ∧ d'.host.msix = [] ∧
    d'.counters = { d.counters with start := 0, period := 0, base := 0, next := 0 } ∧
    d'.mem.cells = d.mem.cells ∧ d'.clock = d.clock ∧ d'.units = d.units ∧ d'.flash = d.flash ∧ d'.tally = d.tally ∧
    d'.fabric.groups = d.fabric.groups ∧ d'.fabric.exceptions = d.fabric.exceptions
  (∀ s : State, configOpen s.dev = true →
    acts .functionLevelReset s fun d => clears s.dev d ∧ d.power = s.dev.power ∧
      (romServes s.dev = false → ∀ b ∈ d.iabor.mbx, b.st = .idle ∧ b.req = [] ∧ b.answer = none)) ∧
  (∀ s : State, configOpen s.dev = false → exec .functionLevelReset s = .next s) ∧
  (∀ s : State, s.dev.power.on = true → s.dev.power.ready = true → s.dev.power.perst = false →
    acts .perstNAssert s fun d => clears s.dev d ∧ d.power = { s.dev.power with perst := true }) ∧
  (∀ s : State, s.dev.power.ready = false → s.dev.power.perst = false →
    acts .perstNAssert s fun d => d = { s.dev with power.perst := true }) ∧
  ∀ s : State, acts .perstNDeassert s fun d => d = { s.dev with power.perst := false }

/-- PCI Express errors, timeouts and changes of the link. PCIE_ERROR sets the AER status bit of its error and records
EV_PCIE_ERROR with the bit, and bit 5 where uncorrectable. HOST_READ_TIMEOUT of an issued operation ends it as
ST_HOST_ABORT, and so it does one that has ended well but wrote to host memory and still reads there before it retires. PCIE_LINK_CHANGE to another speed or width takes them and records EV_PCIE_LINK_CHANGE with both. (R347,
R422, R425) -/
def Obligations.PcieErrorsAndLinkChanges : Prop :=
  (∀ (s : State) (aer : BitVec 5) (unc : Bool), powered s → s.dev.hub.hardHalted = false → configOpen s.dev = true →
    acts (.pcieError aer unc []) s fun d =>
      recorded s.dev d 0xC02 .hostLink (aer.toNat + if unc then 32 else 0) ∧
      d.host.aerUnc = (if unc then s.dev.host.aerUnc ||| BitVec.twoPow 32 aer.toNat else s.dev.host.aerUnc) ∧
      d.host.aerCor = (if unc then s.dev.host.aerCor else s.dev.host.aerCor ||| BitVec.twoPow 32 aer.toNat) ∧
      d.hub = s.dev.hub ∧ d.mem = s.dev.mem) ∧
  (∀ (s : State) (n : OpName) (o : Op), atWork s → configOpen s.dev = true → issuedOp s.dev n = some o →
    acts (.hostReadTimeout n.ring n.seq) s fun d => ended d n 0x39 0 ∧ d.host.aerUnc.getLsbD 14 = true ∧ d.mem = s.dev.mem) ∧
  (∀ (s : State) (n : OpName) (o : Op), atWork s → configOpen s.dev = true → getOp s.dev n = some o → o.phase = .complete →
    o.status = 0 → o.aborted = false →
    if (o.outs.any fun r => regionOf s.dev r.1 == .host) = true then
      acts (.hostReadTimeout n.ring n.seq) s fun d => ended d n 0x39 0 ∧ d.host.aerUnc.getLsbD 14 = true ∧ d.mem = s.dev.mem
    else exec (.hostReadTimeout n.ring n.seq) s = .next s) ∧
  ∀ (s : State) (speed width : Nat), powered s → s.dev.hub.hardHalted = false → configOpen s.dev = true →
    [64, 32, 16, 8, 5, 2].contains speed = true → [8, 4, 2, 1].contains width = true →
    (speed ≠ s.dev.host.speed ∨ width ≠ s.dev.host.width) →
    acts (.pcieLinkChange speed width) s fun d =>
      recorded s.dev d 0x400 .hostLink (speed + 256 * width) ∧ d.host.speed = speed ∧ d.host.width = width ∧
      d.hub = s.dev.hub ∧ d.mem = s.dev.mem

/-- Reads and writes of BAR0 and configuration space. BAR0_READ in D0 completes with the little-endian value at an allowed
offset and changes nothing else; where R9 allows no access a read returns all ones and a write is discarded, each with
EV_HOST_BAD_ACCESS. A write of LL_IRQ_CAUSE clears the causes written as ones and sets ENABLE; the watchdog LIMIT of a Mill, a
Loom, a Quern and a Badger takes any value but 0; LL_BAR2_SLIDE takes a multiple of the BAR2 size, and discards and records another. CONFIG_SPACE_WRITE of the power state enters D3hot,
and requests then complete as unsupported. (R8, R9, R423, R427, 17 Tables 17.10 and 17.11, 05 Table 5.9) -/
def Obligations.Bar0Accesses : Prop :=
  (∀ (s : State) (off width : Nat), powered s → configOpen s.dev = true → s.dev.host.d3hot = false →
    (accessAllowed s.dev off width = true → exec (.bar0Read off width) s = .next { s with dev := { s.dev with
      out.reads := s.dev.out.reads ++ [.data (leBytes width (bar0Value s.dev off width))] } }) ∧
    (accessAllowed s.dev off width = false → s.dev.hub.hardHalted = false →
      (acts (.bar0Read off width) s fun d => recorded s.dev d 0x800 .hostLink 0 ∧
        d.out.reads = s.dev.out.reads ++ [.data (List.replicate width 0xFF)]) ∧
      ∀ v : W64, acts (.registerWrite off width v) s fun d => recorded s.dev d 0x800 .hostLink 0 ∧
        d.hub = s.dev.hub ∧ d.mem = s.dev.mem ∧ d.iabor = s.dev.iabor)) ∧
  (∀ (s : State) (v : W64), powered s → barOpen s.dev = true →
    acts (.registerWrite 0x50 4 v) s fun d =>
      d.host = { s.dev.host with
        irqCause := s.dev.host.irqCause &&& ~~~(v.extractLsb' 0 7), irqEnable := v.extractLsb' 8 7 }) ∧
  (∀ (s : State) (t : Nat) (v : W64), powered s → barOpen s.dev = true → t < 64 →
    let window := 0x1000000 + 0x80000 * t
    let taken (old : W16) : W16 := if v.extractLsb' 0 16 = 0 then old else v.extractLsb' 0 16
    (windowShut s.dev (window + 0x2008) = false → tileType t = .mTile → acts (.registerWrite (window + 0x2008) 4 v) s fun d =>
      getMill d t = { getMill s.dev t with limit := taken (getMill s.dev t).limit } ∧ { d with mills := s.dev.mills } = s.dev) ∧
    (∀ e, e < 2 → windowShut s.dev (window + 0x3008 + 0x100 * e) = false → loomExists t e = true →
      acts (.registerWrite (window + 0x3008 + 0x100 * e) 4 v) s fun d =>
        getLoom d t e = { getLoom s.dev t e with limit := taken (getLoom s.dev t e).limit } ∧ { d with looms := s.dev.looms } = s.dev) ∧
    (windowShut s.dev (window + 0x4008) = false → tileType t = .qTile → acts (.registerWrite (window + 0x4008) 4 v) s fun d =>
      tgetD d.querns t {} = { tgetD s.dev.querns t {} with limit := taken (tgetD s.dev.querns t {}).limit } ∧
      { d with querns := s.dev.querns } = s.dev) ∧
    (windowShut s.dev (window + 0x5008) = false → tileType t = .bTile → acts (.registerWrite (window + 0x5008) 4 v) s fun d =>
      getBadger d t = { getBadger s.dev t with limit := taken (getBadger s.dev t).limit } ∧ { d with badgers := s.dev.badgers } = s.dev)) ∧
  (∀ (s : State) (v : W64), powered s → barOpen s.dev = true →
    (v.extractLsb' 30 7).toNat % 2 ^ s.dev.host.bar2 = 0 →
    exec (.llBar2SlideWrite v) s = .next { s with dev := { s.dev with host.slide := (v.extractLsb' 30 7).toNat } }) ∧
  (∀ (s : State) (v : W64), powered s → barOpen s.dev = true → s.dev.hub.hardHalted = false →
    (v.extractLsb' 30 7).toNat % 2 ^ s.dev.host.bar2 ≠ 0 →
    acts (.llBar2SlideWrite v) s fun d => recorded s.dev d 0x800 .hostLink 0 ∧ d.host.slide = s.dev.host.slide ∧ d.mem = s.dev.mem) ∧
  ∀ (s : State) (v : W32), powered s → configOpen s.dev = true → v.toNat % 4 = 3 →
    let d3 := { s.dev with host.d3hot := true }
    exec (.configSpaceWrite 0x44 1 v) s = .next { s with dev := d3 } ∧
    ∀ off width, exec (.bar0Read off width) { s with dev := d3 } =
      .next { s with dev := { d3 with out.reads := s.dev.out.reads ++ [.unsupported] } }

/-- BAR2 reads and writes memory through the slide. A BAR2_READ of bytes that are stored without error completes with
them; a BAR2_WRITE of such bytes stores them, and every other byte of SRAM and GDDR7 reads as before. An access
outside BAR2 or the address map returns all ones, or is discarded, with EV_HOST_BAD_ACCESS. (R427, R428, R343, R9) -/
def Obligations.Bar2Accesses : Prop :=
  (∀ (s : State) (off len a : Nat), powered s → configOpen s.dev = true → s.dev.host.d3hot = false →
    bar2Address s.dev off len = some a → memClear s.dev a len →
    acts (.bar2Read off len) s fun d =>
      d.out.reads = s.dev.out.reads ++ [.data (cellsRead s.dev.mem.cells a len)] ∧
      { d with out := s.dev.out, counters := s.dev.counters } = s.dev) ∧
  (∀ (s : State) (off a : Nat) (data : Bytes), powered s → barOpen s.dev = true → plainMemory s.dev →
    bar2Address s.dev off data.length = some a → memClear s.dev a data.length →
    acts (.bar2Write off data) s fun d =>
      bytesStored s.dev d a data ∧ { d with mem.cells := s.dev.mem.cells, mem.flips := s.dev.mem.flips, counters := s.dev.counters } = s.dev) ∧
  ∀ (s : State) (off : Nat) (data : Bytes), powered s → barOpen s.dev = true → s.dev.hub.hardHalted = false →
    bar2Address s.dev off data.length = none →
    (acts (.bar2Read off data.length) s fun d => recorded s.dev d 0x800 .hostLink 0 ∧
      d.out.reads = s.dev.out.reads ++ [.data (List.replicate data.length 0xFF)]) ∧
    acts (.bar2Write off data) s fun d => recorded s.dev d 0x800 .hostLink 0 ∧ d.mem = s.dev.mem

/-- Sampling windows, counters and the spilling of Tally records. CNT_WINDOW_RESTART stores CNT_START or the clamped
CNT_PERIOD and begins the windows anew. COUNTER_WINDOW_CLOSE at the end of window k gives each counter's VALUE,
PARTIAL and VALID = 1, and CNT_WINDOW takes k; before that it changes nothing. TALLY_SPILL adds one spilled record
where one is unspilled and a spill slot is free. (R434, R439, 17 Tables 17.8 and 17.12) -/
def Obligations.CountersAndTally : Prop :=
  (∀ (s : State) (period : Bool) (v : W64), powered s → barOpen s.dev = true →
    acts (.cntWindowRestart period v) s fun d =>
      d.counters.start = (if period then s.dev.counters.start else v) ∧
      d.counters.period = (if period then
          (let p := (v.extractLsb' 0 41).toNat
           if p = 0 then 0 else if p < 1000 then 1000 else min p (2 ^ 40))
        else s.dev.counters.period) ∧
      d.counters.next = 0 ∧ (∀ scope unit i, (getCounter d scope unit i).count = (getCounter s.dev scope unit i).count) ∧
      { d with counters := s.dev.counters } = s.dev) ∧
  (∀ s : State, powered s →
    let c := s.dev.counters
    if c.period = 0 ∨ deviceTime s.dev < c.base + (c.next + 1) * c.period then exec .counterWindowClose s = .next s
    else acts .counterWindowClose s fun d =>
      d.counters.window = BitVec.ofNat 64 c.next ∧ d.counters.next = c.next + 1 ∧
      (∀ k x, tget c.tile k = some x →
        tget d.counters.tile k = some { x with
          value := BitVec.ofNat 48 x.inWindow, partSel := x.changed, valid := x.valid || decide (x.since ≤ c.next)
          inWindow := tgetD x.ahead (c.next + 1) 0, changed := x.changedAhead.contains (c.next + 1)
          ahead := tdel x.ahead (c.next + 1), changedAhead := x.changedAhead.filter (· != c.next + 1) }) ∧
      (∀ k x, tget c.die k = some x →
        tget d.counters.die k = some { x with
          value := BitVec.ofNat 48 x.inWindow, partSel := x.changed, valid := x.valid || decide (x.since ≤ c.next)
          inWindow := tgetD x.ahead (c.next + 1) 0, changed := x.changedAhead.contains (c.next + 1)
          ahead := tdel x.ahead (c.next + 1), changedAhead := x.changedAhead.filter (· != c.next + 1) }) ∧
      { d with counters := c } = s.dev) ∧
  ∀ (s : State) (die : Nat) (t : Tally), powered s → firmwareRuns s.dev die = true → s.dev.tally[die]? = some t →
    t.spilled < t.written → t.spilled < t.consumed + 524288 →
    acts (.tallySpill die) s fun d => d.tally[die]? = some { t with spilled := t.spilled + 1 } ∧
      { d with tally := s.dev.tally } = s.dev

/-- A write of DB_TAIL: when it is accepted, ignored, or logged as EV_RING_OVERRUN. For every ring that exists and is no
member of a script: a write of the current value changes nothing; a write with (new − SUBMITTED) below 2^31 and (new −
RETIRED) at most LEN, modulo 2^32, sets SUBMITTED and nothing else, in every ring state but hard-halted; any other
write leaves the ring as it is and is reported as EV_RING_OVERRUN. Under a hard halt no write is accepted, and a ring
that does not exist takes none. (R47) -/
def Obligations.TailDoorbell : Prop :=
  ∀ (s : State) (n : Nat) (v : W32), powered s → barOpen s.dev = true →
    (∀ r, getRing s.dev n = some r → isMember s.dev n = false →
      if v = r.submitted then exec (.dbTailWrite n v) s = .next s
      else if s.dev.hub.hardHalted = false ∧ (v - r.submitted).toNat < 2 ^ 31 ∧ (v - r.retired).toNat ≤ 2 ^ r.log2len then
        acts (.dbTailWrite n v) s fun d => getRing d n = some { r with submitted := v } ∧
          (∀ m, m ≠ n → getRing d m = getRing s.dev m) ∧ { d with hub.rings := s.dev.hub.rings } = s.dev
      else acts (.dbTailWrite n v) s fun d => d.hub.rings = s.dev.hub.rings ∧ d.mem = s.dev.mem ∧
        (s.dev.hub.hardHalted = false → recorded s.dev d 0x802 (.ring n) 0)) ∧
    (getRing s.dev n = none → acts (.dbTailWrite n v) s fun d => d.hub.rings = s.dev.hub.rings ∧
      (s.dev.hub.hardHalted = false → recorded s.dev d 0x801 (.ring n) 0))

/-- The bells as the host reaches them: their number, their reset, BELL_VALUE and BELL_ADD. After power-on and after
function-level reset every bell reads zero. A host write to BELL_VALUE of a bell below 65,536 sets it, and one to
BELL_ADD adds to it modulo 2^32, while no hard halt is in force and nothing else changes it in the control cycle; every
other bell keeps its value, and no memory changes. A ring's addition and a host's setting of one bell in one control
cycle are applied in the order that the bell's pointer gives, whichever command comes first, and the pointer is then one
past the last granted. BAR0 offset 0x0030_0000 + 4b reads bell b, and the BELL_ADD window reads zero. (R59) -/
def Obligations.HostBells : Prop :=
  (∀ b, bellValue State.reset.dev b = 0) ∧
  (∀ s : State, configOpen s.dev = true → acts .functionLevelReset s fun d => ∀ b, bellValue d b = 0) ∧
  (∀ (d : Dev) (b ring : Nat) (v x : W32), bellQuiet d b → ring < 16384 → tgetD d.hub.bellPtr b 0 ≤ 16384 →
    let first := decide (tgetD d.hub.bellPtr b 0 ≤ ring)
    ∀ d', (d' = changeBell (changeBell d b ring (.add x)) b 16384 (.set v) ∨
        d' = changeBell (changeBell d b 16384 (.set v)) b ring (.add x)) →
      bellValue d' b = (if first then v else v + x) ∧ tgetD d'.hub.bellPtr b 0 = (if first then 0 else ring + 1) ∧
      ∀ c, c ≠ b → bellValue d' c = bellValue d c ∧ tgetD d'.hub.bellPtr c 0 = tgetD d.hub.bellPtr c 0) ∧
  (∀ (s : State) (b : Nat) (v : W32), atWork s → barOpen s.dev = true → b < 65536 → bellQuiet s.dev b →
    (acts (.bellValueWrite b v) s fun d => bellValue d b = v ∧ (∀ c, c ≠ b → bellValue d c = bellValue s.dev c) ∧ d.mem = s.dev.mem) ∧
    (acts (.bellAddWrite b v) s fun d => bellValue d b = bellValue s.dev b + v ∧ (∀ c, c ≠ b → bellValue d c = bellValue s.dev c) ∧
      d.mem = s.dev.mem) ∧
    (acts (.registerWrite (0x300000 + 4 * b) 4 (v.setWidth 64)) s fun d => bellValue d b = v)) ∧
  ∀ (d : Dev) (b : Nat), b < 65536 →
    regAt d (0x300000 + 4 * b) = some { wide := false, value := (bellValue d b).toNat } ∧
    regAt d (0x340000 + 4 * b) = some { wide := false, value := 0 }

/-- DESCRIPTOR_FETCH and OP_ISSUE. Where a ring may fetch, the 128 bytes at BASE + 128 × (s mod LEN) read clean and every
check of Table 2.5 passes, DESCRIPTOR_FETCH appends one operation with them and the next sequence number; where a
check fails and a place is free, it appends the ended operation with the check's status. OP_ISSUE of a ring whose next
operation is ready and granted issues it: a ring-hub operation and one of a unit without a claim become issued with
the next rank; a forward operation of an empty output, a move of no rows and a census of another step end ST_OK there, complete in
the next control cycle, and a snapshot of a closed step and a restore of a busy device ST_BAD_DESCRIPTOR, with code 1 for the latter; an operation
whose target refuses it ends with that status. (R45, R52, R53, R55, R61, R62, R191, R261, R413) -/
def Obligations.FetchAndIssue : Prop :=
  (∀ (s : State) (ring : Nat) (r : Ring) (t : Target), atWork s → getRing s.dev ring = some r → targetOf r.target = some t →
    mayFetch r = true →
    let a := r.base + 128 * (r.fetch.toNat % 2 ^ r.log2len)
    let d1 := countAccess s.dev false a 128 (some { ring := ring, seq := r.fetch })
    let o := fetchedOp s.dev r (cellsRead s.dev.mem.cells a 128)
    memClear s.dev a 128 →
    acts (.descriptorFetch ring false) s fun d =>
      match headerCheck d1 ring t o with
      | none => ∃ r', getRing d ring = some r' ∧ r'.fetch = r.fetch + 1 ∧
          r'.ops.map (fun p => (p.seq, p.desc, p.phase)) = r.ops.map (fun p => (p.seq, p.desc, p.phase)) ++ [(r.fetch, o.desc, .fetched)]
      | some c => r.hasPlace = true → inFlightTotal s.dev + s.dev.hub.rings.length ≤ 4096 → ∃ r', getRing d ring = some r' ∧ r'.fetch = r.fetch + 1 ∧
          ∃ p, r'.ops.getLast? = some p ∧ p.seq = r.fetch ∧ p.phase = .complete ∧ p.failedFetch = true ∧ p.status = c.1) ∧
  ∀ (s : State) (ring : Nat) (r : Ring) (t : Target) (o : Op), atWork s → getRing s.dev ring = some r → targetOf r.target = some t →
    (r.ops.map (·.seq)).Nodup → issuable s.dev r = some o → issueGranted s.dev ring r o = true → o.failedFetch = false →
    (targetRefuses s.dev ring t o = none → (o.opcode < 3 ∨
      (match t with
      | .mill _ => False
      | .loom _ _ => False
      | .hub => False
      | .quern _ => convEmpty o = false ∧ sendsTooMany s.dev o = false
      | .mover _ => moverCount o ≠ 0
      | .granary _ => granaryAtIssue s.dev ring o = none
      | _ => True)) →
      acts (.opIssue ring) s fun d => ∃ p, getOp d (o.name ring) = some p ∧ p.phase = .issued ∧ p.desc = o.desc ∧
        p.step = BitVec.ofNat 64 (opStep s.dev o) ∧ p.stamp = s.dev.hub.nextStamp + 1 ∧ p.issuedAt = cycle s.dev ∧ d.mem = s.dev.mem) ∧
    (targetRefuses s.dev ring t o = none → 3 ≤ o.opcode → convEmpty o = true → (∃ tile, t = .quern tile ∨
        (t = .mill tile ∧ o.opcode = 0x0301)) →
      acts (.opIssue ring) s fun d => ended d (o.name ring) 0x00 0 ∧
        (getOp d (o.name ring)).map (·.completeAt) = some (cycle s.dev + 1) ∧ d.mills = s.dev.mills ∧ d.mem = s.dev.mem) ∧
    (∀ die st low, targetRefuses s.dev ring t o = none → 3 ≤ o.opcode →
      (t = .mover die ∧ (o.f 48 4 = 0 ∨ o.f 52 4 = 0) ∧ st = 0x00 ∧ low = 0) ∨
      (t = .granary die ∧ o.opcode = 0x0701 ∧ o.f 32 8 < s.dev.steps.oldest ∧ st = 0x20 ∧ low = 0) ∨
      (t = .granary die ∧ o.opcode = 0x0702 ∧ restoreBusy s.dev (o.name ring) = true ∧ st = 0x20 ∧ low = 1) ∨
      (t = .granary die ∧ o.opcode = 0x0704 ∧ censusStep s.dev (o.f 32 8) = false ∧ st = 0x00 ∧ low = 0) →
      acts (.opIssue ring) s fun d => ended d (o.name ring) st low ∧
        (getOp d (o.name ring)).map (·.completeAt) = some (cycle s.dev + 1) ∧ d.granary = s.dev.granary ∧ d.mem = s.dev.mem) ∧
    (∀ st, targetRefuses s.dev ring t o = some st →
      acts (.opIssue ring) s fun d => ended d (o.name ring) st 0 ∧ d.mem = s.dev.mem)

/-- BELL_WAIT_STALL logs a wait for bells beyond the limit once, and the operation goes on waiting. For an operation at
the head of its ring, not ready, whose bell waits are not met: once the wait has lasted longer than the ring's stall limit,
EV_BELL_WAIT_STALL is recorded with the ring as source, and the operation stays fetched with only the wait marked as
logged. A wait that is marked already, or within the limit, changes nothing. (R54) -/
def Obligations.BellWaitStalls : Prop :=
  ∀ (s : State) (ring : Nat) (r : Ring) (o : Op) (t : Nat), atWork s → getRing s.dev ring = some r → r.ops = [o] →
    o.phase = .fetched → waitsMet s.dev o = false → o.waitFrom = some t →
    if o.readyAt = none ∧ o.waitLogged = false ∧ t + r.waitLimit * 1000000 < deviceTime s.dev then
      acts (.bellWaitStall ring) s fun d => recorded s.dev d 0x804 (.ring ring) 0 ∧
        getRing d ring = some { r with ops := [{ o with waitLogged := true }] } ∧ d.mem = s.dev.mem
    else exec (.bellWaitStall ring) s = .next s

/-- OP_RETIRE in the success class and as a halt point, and DB_RESUME. The oldest operation of a data mover's ring, ended
well and with nothing unanswered, retires: its status word stands at STATUS_ADDR where STATUS_EN is set and no other
byte changes, SIG_BELL is one higher where SIG_EN is set, RETIRED is one higher and the operation is gone. One that
failed, alone on its ring, halts it: HALTED with HALT_SEQ and HALT_STATUS, RETIRED kept, no bell changed. DB_RESUME
with HALT_SEQ makes a HALTED ring run from there; any other value is EV_RING_BAD_RESUME. (R51, R56, R66, R67, R68,
R69) -/
def Obligations.Retirement : Prop :=
  (∀ (s : State) (ring k : Nat) (r : Ring) (o : Op) (rest : List Op), atWork s → unstaged s.dev → plainMemory s.dev →
    retires s.dev ring r (.mover k) o rest → o.status.toNat < 0x20 → o.failedFetch = false → o.wordAllowed = true →
    o.census = [] → o.opcode ≠ 0x0981 → 3 ≤ o.opcode → awaits s.dev (o.name ring) = false → (o.statusEn = true → memClear s.dev o.statusAddr 32) →
    (o.sigEn = true → bellQuiet s.dev o.sigBell) →
    acts (.opRetire ring false) s fun d =>
      (∃ r', getRing d ring = some r' ∧ r'.st = .running ∧ r'.retired = r.retired + 1 ∧ r'.ops.map (·.seq) = rest.map (·.seq)) ∧
      (∀ b, bellValue d b = bellValue s.dev b + if o.sigEn = true ∧ b = o.sigBell then 1 else 0) ∧
      bytesStored s.dev d o.statusAddr (if o.statusEn then statusWord s.dev (o.name ring) o.status o.detail else [])) ∧
  (∀ (s : State) (ring k : Nat) (r : Ring) (o : Op), atWork s → unstaged s.dev → retires s.dev ring r (.mover k) o [] →
    0x20 ≤ o.status.toNat → o.status.toNat < 0xF0 → o.statusEn = false → o.outs = [] →
    acts (.opRetire ring false) s fun d =>
      (∃ r', getRing d ring = some r' ∧ r'.st = .halted ∧ r'.haltSeq = o.seq ∧ r'.haltStatus = o.status ∧
        r'.retired = r.retired ∧ r'.ops = []) ∧
      (∀ b, bellValue d b = bellValue s.dev b) ∧ d.mem = s.dev.mem) ∧
  ∀ (s : State) (ring : Nat) (r : Ring) (v : W32), atWork s → barOpen s.dev = true → getRing s.dev ring = some r →
    if r.st = .halted ∧ v = r.haltSeq then
      acts (.dbResumeWrite ring v) s fun d => getRing d ring = some { r with st := .running, fetch := r.haltSeq, haltAt := none } ∧
        { d with hub.rings := s.dev.hub.rings, seq := s.dev.seq } = s.dev
    else acts (.dbResumeWrite ring v) s fun d => recorded s.dev d 0x803 (.ring ring) 0 ∧ d.hub.rings = s.dev.hub.rings

/-- NOP, BELL_SET and BELL_ADD. An issued ring-hub operation that is not the oldest of its ring completes ST_OK
and changes nothing else. The oldest one, without a signal, a status word or an interrupt,
completes and retires: NOP leaves every bell, BELL_SET sets its bell to VALUE, BELL_ADD adds ADDEND modulo 2^32, every
other bell and all of memory are kept, and RETIRED is one higher. (R56, R60, R61, 02 Table 2.6a) -/
def Obligations.RingHubOperations : Prop :=
  let effect (c : Instr) (code : Nat) (f : Op → W32 → W32) : Prop :=
    ∀ (s : State) (n : OpName) (o : Op) (r : Ring) (t : Target), c = (match code with
        | 0 => .hubNop n.ring n.seq
        | 1 => .bellSet n.ring n.seq
        | _ => .bellAdd n.ring n.seq) →
      atWork s → getRing s.dev n.ring = some r → targetOf r.target = some t → issuedOp s.dev n = some o → o.opcode = code →
      (∀ p rest, r.ops = p :: rest → p.seq ≠ n.seq → acts c s fun d => ended d n 0x00 0 ∧ { d with hub.rings := s.dev.hub.rings } = s.dev) ∧
      (∀ k rest, t = .mover k → unstaged s.dev → r.ops = o :: rest → (∀ p ∈ rest, p.seq ≠ o.seq) → r.st = .running → r.haltAt = none →
        o.failedFetch = false → o.census = [] → o.statusEn = false → o.sigEn = false → o.irq = false → awaits s.dev n = false →
        bellQuiet s.dev (o.f 32 2) →
        acts c s fun d =>
          (∀ b, bellValue d b = if b = o.f 32 2 then f o (bellValue s.dev b) else bellValue s.dev b) ∧
          (∃ r', getRing d n.ring = some r' ∧ r'.retired = r.retired + 1 ∧ r'.ops.map (·.seq) = rest.map (·.seq)) ∧ d.mem = s.dev.mem)
  (∀ c, effect c 0 fun _ x => x) ∧ (∀ c, effect c 1 fun o _ => BitVec.ofNat 32 (o.f 36 4)) ∧
  ∀ c, effect c 2 fun o x => x + BitVec.ofNat 32 (o.f 36 4)

/-- MILL_MATMUL: every element of the set, from the operands in the tile's SRAM. For the oldest operation of a Mill, whose
set is claimed, whose operand and scale bytes are stored without error and which does not drain: it completes ST_OK,
and element (i, j) of the set, for i < M and j < N, is the chunks of 32 positions of row i of A and row j of B added
in ascending order, from the old element under ADD and afresh under SET; the other elements are +0 under SET and kept
under ADD, so a K of 0 writes +0 or nothing. Every other set, all memory and all else but counters is kept. An ADD on
a stale set ends as ST_ACC_STALE. (R111, R112, R126, R129, R130, R131) -/
def Obligations.MillMatmul : Prop :=
  ∀ (s : State) (n : OpName) (o : Op) (tile : Nat) (x : AccSet), atWork s → atEngine s.dev 0x0101 n (.mill tile) o →
    setAt s.dev tile o.handle = some x →
    let add := bit (o.f 74 1) 0
    let k := o.f 68 4
    let a := (millSides tile o).1
    let b := (millSides tile o).2
    let path := (millPath a.fmt b.fmt).getD .float
    (add = true → x.stale = true → acts (.millMatmul n.ring n.seq) s fun d => ended d n 0x31 0 ∧ setAt d tile o.handle = some x) ∧
    ((add = true → x.stale = false) → sideClear s.dev a k → sideClear s.dev b k → o.drains = false →
      acts (.millMatmul n.ring n.seq) s fun d => ended d n 0x00 0 ∧
        (∃ y, setAt d tile o.handle = some y ∧ setTakes x y add (o.f 64 2) (o.f 66 2) fun i j =>
          reduced path o.accFmt a.fmt b.fmt ((k + 31) / 32) (fun c => (sideRows s.dev a k c).getD i [])
            (fun c => (sideRows s.dev b k c).getD j []) (if add then some (x.elem i j) else none)) ∧
        onlySet s.dev d tile o.handle)

/-- MILL_DRAIN to memory, MILL_RELEASE and the Mill's watchdog. A MILL_DRAIN without fused operand, to memory and without
MX, of a set that is not stale writes row i of M at OUT_ADDR + i × OUT_STRIDE, each element converted once from the
accumulator under RC, and every other byte reads as before; it completes ST_OK with the saturations and the non-finite
inputs in DETAIL, and the set is kept. MILL_RELEASE completes and changes nothing else. A watchdog whose limit has
passed without progress ends the operation as ST_ENGINE_TIMEOUT, and its set is stale where the operation has written it (log
107). (R127, R132, R137, R140, R146) -/
def Obligations.MillDrainReleaseAndWatchdog : Prop :=
  (∀ (s : State) (n : OpName) (o : Op) (tile : Nat) (x : AccSet), atWork s → plainMemory s.dev → atEngine s.dev 0x0102 n (.mill tile) o →
    setAt s.dev tile o.handle = some x → x.stale = false → o.fuse = 0 → o.toChute = false → (fmtOf (o.f 112 2)).mx = false →
    let row (i : Nat) : OutRow := convertRow (fmtOf (o.f 112 2)) (o.f 75 1 % 16)
      ((List.range (o.f 66 2)).map fun j => elemVal x.fmt.toNat false (x.elem i j))
    let at_ (i : Nat) : Nat := o.f 80 8 + i * o.f 104 4
    (∀ i, i < o.f 64 2 → (row i).data.length ≤ o.f 104 4 ∧ memClear s.dev (at_ i) (row i).data.length) →
    acts (.millDrain n.ring n.seq) s fun d =>
      ended d n 0x00 (min ((List.range (o.f 64 2)).foldl (fun t i => t + (row i).sat) 0) 0xFFFFFFFF +
        2 ^ 32 * min ((List.range (o.f 64 2)).foldl (fun t i => t + (row i).nonfinite) 0) 0xFFFFFFFF) ∧
      (∀ i, i < o.f 64 2 → cellsRead d.mem.cells (at_ i) (row i).data.length = (row i).data) ∧
      (∀ z, (∀ i, i < o.f 64 2 → ¬(at_ i ≤ z ∧ z < at_ i + (row i).data.length)) → byteAt d z = byteAt s.dev z) ∧
      d.mills = s.dev.mills) ∧
  (∀ (s : State) (n : OpName) (o : Op) (tile : Nat), atWork s → atEngine s.dev 0x0103 n (.mill tile) o →
    acts (.millRelease n.ring n.seq) s fun d => ended d n 0x00 0 ∧ { d with hub.rings := s.dev.hub.rings } = s.dev) ∧
  ∀ (s : State) (n : OpName) (o : Op) (tile : Nat), atWork s → issuedOp s.dev n = some o → ringTarget s.dev n.ring = some (.mill tile) →
    o.sends = [] →
    let expires := o.progressAt + (getMill s.dev tile).limit.toNat * 65536
    (expires ≤ engineCycles s.dev (.mill tile) →
      acts (.millWatchdogExpiry n.ring n.seq) s fun d => ended d n 0x58 0 ∧ d.mem = s.dev.mem ∧
        ∀ x, setAt s.dev tile o.handle = some x →
          setAt d tile o.handle = some { x with stale := x.stale || o.wroteSet }) ∧
    (engineCycles s.dev (.mill tile) < expires → exec (.millWatchdogExpiry n.ring n.seq) s = .next s)

/-- CONV_MILL, QUERN_CONV, QUERN_POOL and the Quern's watchdog. For the oldest operation of a Mill, whose set is claimed and all of
whose input, filter and scale bytes are stored without error, CONV_MILL completes ST_OK and gives element (i, j) of its set the
chunks of its geometry, forward or of a weight gradient, added in ascending order as MILL_MATMUL adds them; an ADD on a stale set
ends as ST_ACC_STALE. QUERN_CONV and QUERN_POOL, of the operation that their Quern runs, queue one chute entry for each row, or
write each pixel at its place, each channel summed or pooled and converted once under RC, and complete ST_OK with saturations and
non-finite inputs in DETAIL; every other byte is kept. The Quern's watchdog ends the running operation as ST_ENGINE_TIMEOUT once
LIMIT × 65,536 core cycles have passed without a block. (R190, R192, R197, R199, R201, R202, R204, R205, R206) -/
def Obligations.ConvolutionAndPooling : Prop :=
  (∀ (s : State) (n : OpName) (o : Op) (tile : Nat) (x : AccSet), atWork s → atEngine s.dev 0x0301 n (.mill tile) o →
    setAt s.dev tile o.handle = some x →
    let q := convMillPlan tile o
    let add := bit (o.f 108 1) 0
    let chunks := ((if o.role then o.f 112 4 else o.f 98 2 * q.g.cp) + 31) / 32
    (add = true → x.stale = true → acts (.convMill n.ring n.seq) s fun d => ended d n 0x31 0 ∧ setAt d tile o.handle = some x) ∧
    ((add = true → x.stale = false) → (∀ c, c < chunks → readsClear s.dev (convMillReads tile o c)) →
      acts (.convMill n.ring n.seq) s fun d => ended d n 0x00 0 ∧
        (∃ y, setAt d tile o.handle = some y ∧ setTakes x y add q.m q.n fun i j =>
          reduced ((millPath q.g.fmt q.fFmt).getD .float) o.accFmt q.g.fmt q.fFmt chunks
            (fun c => (convMillRows s.dev tile o c).1.getD i []) (fun c => (convMillRows s.dev tile o c).2.getD j [])
            (if add then some (x.elem i j) else none)) ∧
        onlySet s.dev d tile o.handle)) ∧
  quernResult (fun n => .quernConv n.ring n.seq) 0x0302 ∧
  quernResult (fun n => .quernPool n.ring n.seq) 0x0303 ∧
  ∀ (s : State) (n : OpName) (o : Op) (tile : Nat), atWork s → issuedOp s.dev n = some o → ringTarget s.dev n.ring = some (.quern tile) →
    o.sends = [] → quernRuns s.dev tile n = true →
    let q := tgetD s.dev.querns tile {}
    let expires := max o.progressAt q.since + q.limit.toNat * 65536
    (expires ≤ engineCycles s.dev (.quern tile) → acts (.quernWatchdogExpiry n.ring n.seq) s fun d => ended d n 0x58 0 ∧ d.mem = s.dev.mem ∧
      d.chutes = s.dev.chutes ∧ ∀ u, u ≠ tile → tget d.querns u = tget s.dev.querns u) ∧
    (engineCycles s.dev (.quern tile) < expires → exec (.quernWatchdogExpiry n.ring n.seq) s = .next s)

/-- BADGER_GATHER: every output row, from the list, the map and the records. For a gather with its list in the Sett and
its output in memory, whose list passes the checks, whose rows are in range, placed and stored without error, and
which no ledger entry holds back: it ends ST_OK. Under POOL = NONE output row i is the decoded row of entry i, +0 for
a null entry and unwritten for a foreign one; under any other POOL output row b is bag b pooled by the program. Each
row is converted once under RC, and DETAIL counts saturations and non-finite inputs. Every other byte, every ledger
and table and all else but counters and TIER_REQ is kept. (R212, R214, R216, R217, R219) -/
def Obligations.BadgerGather : Prop :=
  ∀ (s : State) (n : OpName) (o : Op) (tile : Nat) (t : TableRec) (l : RowList), atWork s → plainMemory s.dev → s.dev.mem.flips = [] →
    s.dev.fabric.borrows = [] → badgerAt s.dev 0x0401 n tile o t → o.f 35 1 = 0 → o.zero 56 8 = true →
    (readList s.dev n (sramBase tile + o.f 40 4) (tileCapacity tile - o.f 40 4)).2 = .ok l →
    (∀ g ∈ l.ids, rowPlaced s.dev t g) → gatherHeld s.dev tile n o t l = false →
    let rows : List (Option Lanes) :=
      if o.f 33 1 = 0 then l.ids.map fun g => if t.kind g = .null then some (List.replicate t.dim 0) else tableRow s.dev t g
      else l.bags.map fun bag =>
        some (poolBag (poolProgram s.dev tile o) t.dim (bag.map fun i => (i, l.weight i, (l.ids[i]?).bind (tableRow s.dev t)))).a
    let out (i : Nat) : Option OutRow := (rows.getD i none).map fun x => convertRow (fmtOf (o.f 38 2)) (o.f 37 1 % 16) (x.map f32)
    let at_ (i : Nat) : Nat := o.f 48 8 + i * o.f 44 4
    settOrGddr s.dev tile (o.f 48 8) (extent rows.length (o.f 44 4) (packedBytes (fmtOf (o.f 38 2)).code t.dim)) = true →
    (∀ i y, out i = some y → y.data.length ≤ o.f 44 4 ∧ memClear s.dev (at_ i) y.data.length) →
    acts (.badgerGather n.ring n.seq) s fun d =>
      ended d n 0x00 (min ((List.range rows.length).foldl (fun c i => c + ((out i).map (·.sat)).getD 0) 0) 0xFFFFFFFF +
        2 ^ 32 * min ((List.range rows.length).foldl (fun c i => c + ((out i).map (·.nonfinite)).getD 0) 0) 0xFFFFFFFF) ∧
      (∀ i y, out i = some y → cellsRead d.mem.cells (at_ i) y.data.length = y.data) ∧
      (∀ z, (∀ i y, out i = some y → ¬(at_ i ≤ z ∧ z < at_ i + y.data.length)) → byteAt d z = byteAt s.dev z) ∧
      badgersKept s.dev d ∧ onlyTables s.dev d

/-- BADGER_SCATTER into the ledger, the arrival of a record, and EV_LEDGER_FULL. For the last entry a scatter has left: a
null or foreign row changes nothing; the first gradient of a row takes a free ledger entry unchanged, a later one is
added in FP32; each ends ST_OK, writes that entry's bytes and no other, and keeps every other entry. With all entries
taken, some by another step, it waits. A scatter of a skipped step ends ST_STEP_SKIPPED and leaves the ledger. A
Cellar record arrives as the entry's staging copy, or as its failure; the acknowledgement of a write-back frees the entry,
its failure leaves it failed (the row LEDGER_RECORD_ARRIVE brings both: the model's choice, log 109). A wait for ledger space
past WAIT_LIMIT is logged once as EV_LEDGER_FULL. (R212, R221, R222, R223, R224, R225) -/
def Obligations.BadgerScatterAndLedger : Prop :=
  (∀ (s : State) (n : OpName) (o : Op) (tile : Nat) (t : TableRec), atWork s → badgerAt s.dev 0x0402 n tile o t →
    stepSkipped s.dev o.step.toNat = true →
    acts (.badgerScatter n.ring n.seq) s fun d => ended d n 0x02 0 ∧ { d with hub.rings := s.dev.hub.rings } = s.dev) ∧
  (∀ (s : State) (n : OpName) (o : Op) (tile : Nat) (t : TableRec) (l : RowList) (i b : Nat) (bag : List Nat), atWork s →
    plainMemory s.dev → s.dev.mem.flips = [] → s.dev.fabric.borrows = [] → badgerAt s.dev 0x0402 n tile o t →
    stepSkipped s.dev o.step.toNat = false → o.f 35 1 = 0 →
    (readList s.dev n (sramBase tile + o.f 40 4) (tileCapacity tile - o.f 40 4)).2 = .ok l →
    (scatterEntries l).drop o.done = [(i, b, bag)] →
    let table := o.f 32 1 % 64
    let g := l.ids.getD i 0
    let grad := o.f 48 8 + (if o.f 33 1 = 3 then i else b) * o.f 44 4
    let bytes := packedBytes (fmtOf (o.f 38 2)).code t.dim
    (t.kind g = .null ∨ t.kind g = .foreign →
      acts (.badgerScatter n.ring n.seq) s fun d => ended d n 0x00 0 ∧ d.badgers = s.dev.badgers ∧ d.mem = s.dev.mem ∧
        onlyTables s.dev d) ∧
    ∀ index, t.kind g = .mine index → memClear s.dev (t.map + 4 * index) 4 → (mapOf s.dev t index).1 ≠ 3 →
      memClear s.dev grad bytes →
      let x := gradientOf o t l i bag (decodeRow (fmtOf (o.f 38 2)) t.dim (cellsRead s.dev.mem.cells grad bytes))
      let taken (e : LedgerEntry) : Prop := memClear s.dev (ledgerAddr t e) (ledgerBytes t e).length →
        acts (.badgerScatter n.ring n.seq) s fun d => ended d n 0x00 0 ∧
          findEntry d tile table (BitVec.ofNat 64 g) o.step = some e ∧
          (∀ k r p, (k, r, p) ≠ (table, BitVec.ofNat 64 g, o.step) → findEntry d tile k r p = findEntry s.dev tile k r p) ∧
          (∀ u, u ≠ tile → getBadger d u = getBadger s.dev u) ∧
          bytesStored s.dev d (ledgerAddr t e) (ledgerBytes t e) ∧ onlyTables s.dev d
      let mine := (getBadger s.dev tile).ledger.filter fun e => e.table == table
      match findEntry s.dev tile table (BitVec.ofNat 64 g) o.step with
      | some e => memClear s.dev (ledgerAddr t e) t.entryBytes →
          taken { e with acc := (e.acc.zip x).map fun y => f32Add y.1 y.2 }
      | none =>
        (∀ slot, slot < t.entries → (∀ k, k < slot → ∃ e ∈ mine, e.slot = k) → (∀ e ∈ mine, e.slot ≠ slot) → mine.length < t.entries →
          let cellar := (mapOf s.dev t index).1 == 2
          (cellar = true → accessFault s.dev (recordAt s.dev t index) t.layout false = none) →
          taken { table := table, slot := slot, row := BitVec.ofNat 64 g, step := o.step, acc := x, cellar := cellar,
                  pending := cellar }) ∧
        (t.entries ≤ mine.length → (∃ e ∈ mine, e.step ≠ o.step) →
          acts (.badgerScatter n.ring n.seq) s fun d =>
            (∃ p, issuedOp d n = some p ∧ p.waitsLedger = true ∧ p.done = o.done ∧
              p.stallFrom = some (if o.starting then deviceTime s.dev else o.stallFrom.getD (deviceTime s.dev))) ∧
            d.badgers = s.dev.badgers ∧ d.mem = s.dev.mem)) ∧
  (∀ (s : State) (tile table : Nat) (row step : W64) (failed : Option Byte) (e : LedgerEntry) (t : TableRec) (index : Nat), atWork s →
    plainMemory s.dev → s.dev.mem.flips = [] → s.dev.fabric.borrows = [] → findEntry s.dev tile table row step = some e →
    getTable s.dev tile table = some t → t.kind row.toNat = .mine index → e.pending = true →
    e.writing = false → rowBusy s.dev tile table row step = false → waitingUpdate s.dev tile table step = none →
    (failed = none → awaits s.dev (ledgerAgent tile table e.slot) = false) →
    rangeMapped s.dev (t.map + 4 * index) 4 false = true → memClear s.dev (t.map + 4 * index) 4 →
    accessFault s.dev (recordAt s.dev t index) t.layout false = none →
    let e1 : LedgerEntry := match failed with
      | some st => { e with pending := false, failed := some st }
      | none => { e with pending := false, staging := rawRead s.dev (recordAt s.dev t index) t.layout }
    memClear s.dev (ledgerAddr t e1) (ledgerBytes t e1).length →
    acts (.ledgerRecordArrive tile table row step failed) s fun d => findEntry d tile table row step = some e1 ∧
      (∀ k r p, (k, r, p) ≠ (table, row, step) → findEntry d tile k r p = findEntry s.dev tile k r p) ∧
      (∀ u, u ≠ tile → getBadger d u = getBadger s.dev u) ∧
      bytesStored s.dev d (ledgerAddr t e1) (ledgerBytes t e1) ∧ onlyTables s.dev d) ∧
  (∀ (s : State) (tile table : Nat) (row step : W64) (failed : Option Byte) (e : LedgerEntry) (t : TableRec), atWork s →
    findEntry s.dev tile table row step = some e → getTable s.dev tile table = some t → e.writing = true →
    waitingUpdate s.dev tile table step = none → (failed = none → awaits s.dev { ring := t.updRing, seq := 0 } = false) →
    (∀ x ∈ (getBadger s.dev tile).ledger, x.table = table → x.row = row → x.step ≠ step → x.pending = false) →
    acts (.ledgerRecordArrive tile table row step failed) s fun d =>
      findEntry d tile table row step = failed.map (fun st => { e with writing := false, failed := some st }) ∧
      (∀ k r p, (k, r, p) ≠ (table, row, step) → findEntry d tile k r p = findEntry s.dev tile k r p) ∧
      (∀ u, u ≠ tile → getBadger d u = getBadger s.dev u) ∧ { d with badgers := s.dev.badgers } = s.dev) ∧
  ∀ (s : State) (n : OpName) (o : Op) (since : Nat), atWork s → issuedOp s.dev n = some o → o.opcode = 0x0402 →
    o.stallFrom = some since → o.starting = false →
    if o.stallLogged = false ∧ since + ringLimit s.dev n.ring * 1000000 < deviceTime s.dev then
      acts (.ledgerFull n.ring n.seq) s fun d => recorded s.dev d 0x814 (.ring n.ring) 0 ∧
        issuedOp d n = some { o with stallLogged := true } ∧ d.mem = s.dev.mem ∧ d.badgers = s.dev.badgers
    else exec (.ledgerFull n.ring n.seq) s = .next s

/-- BADGER_UPDATE, BADGER_MIGRATE and the Badger's watchdog. An update of a skipped step discards the step's entries of
its table and ends ST_STEP_SKIPPED. Under APPLY, with no entry it ends ST_OK; the one entry of its table and step,
whose record has not failed, has the record of its row (or its staging copy) updated from the accumulator and the
parameters and written back, and is freed; for a row of the Cellar the update waits for the write's acknowledgement. A
migration of one row to a free slot copies its record there, points the
map to it, sets its occupancy bit and clears the old one. A watchdog past its limit ends an operation as
ST_ENGINE_TIMEOUT. (R220, R225, R226, R228, R229, R231) -/
def Obligations.BadgerUpdateAndMigrate : Prop :=
  (∀ (s : State) (n : OpName) (o : Op) (tile : Nat) (t : TableRec), atWork s → plainMemory s.dev → s.dev.mem.flips = [] →
    s.dev.fabric.borrows = [] → badgerAt s.dev 0x0403 n tile o t →
    let table := o.f 32 1 % 64
    (stepSkipped s.dev o.step.toNat = true → acts (.badgerUpdate n.ring n.seq) s fun d => ended d n 0x02 0 ∧
      (∀ r, findEntry d tile table r o.step = none) ∧ d.mem = s.dev.mem ∧
      ∀ k r p, k ≠ table ∨ p ≠ o.step → findEntry d tile k r p = findEntry s.dev tile k r p) ∧
    (stepSkipped s.dev o.step.toNat = false → memClear s.dev (o.f 40 8) 64 → stepEntries s.dev tile table o.step = [] →
      acts (.badgerUpdate n.ring n.seq) s fun d => ended d n 0x00 0 ∧ d.mem = s.dev.mem ∧ badgersKept s.dev d) ∧
    ∀ (e : LedgerEntry) (index : Nat), stepSkipped s.dev o.step.toNat = false → memClear s.dev (o.f 40 8) 64 →
      stepEntries s.dev tile table o.step = [e] → e.pending = false → e.failed = none → e.writing = false → t.kind e.row.toNat = .mine index →
      memClear s.dev (ledgerAddr t e) t.entryBytes → memClear s.dev (t.map + 4 * index) 4 →
      let rec0 := if e.cellar then e.staging else cellsRead s.dev.mem.cells (recordAt s.dev t index) t.layout
      let rec1 := updateRecord t (updParams (cellsRead s.dev.mem.cells (o.f 40 8) 64)) (o.f 34 1 % 16) s.dev.steps.num.seed o.step
        e.row.toNat e.acc (slice rec0 0 t.layout)
      ((mapOf s.dev t index).1 = 2 → e.cellar = true → accessFault s.dev (recordAt s.dev t index) rec1.1.length true = none →
        acts (.badgerUpdate n.ring n.seq) s fun d => (∃ p, issuedOp d n = some p ∧ p.stallFrom.isSome = true) ∧
          (findEntry d tile table e.row o.step).map (·.writing) = some true ∧
          ∀ k r p, (k, r, p) ≠ (table, e.row, o.step) → findEntry d tile k r p = findEntry s.dev tile k r p) ∧
      ((mapOf s.dev t index).1 ≠ 2 → memClear s.dev (recordAt s.dev t index) t.layout →
        memClear s.dev (recordAt s.dev t index) rec1.1.length →
        (∀ x ∈ (getBadger s.dev tile).ledger, x.table = table → x.row = e.row → x.step ≠ o.step → x.pending = false) →
        acts (.badgerUpdate n.ring n.seq) s fun d => ended d n 0x00 0 ∧ bytesStored s.dev d (recordAt s.dev t index) rec1.1 ∧
          findEntry d tile table e.row o.step = none ∧
          (∀ k r p, (k, r, p) ≠ (table, e.row, o.step) → findEntry d tile k r p = findEntry s.dev tile k r p) ∧
          (∀ u, u ≠ tile → getBadger d u = getBadger s.dev u) ∧ onlyTables s.dev d)) ∧
  (∀ (s : State) (n : OpName) (o : Op) (tile : Nat) (t : TableRec) (index : Nat), atWork s → plainMemory s.dev →
    s.dev.mem.flips = [] → s.dev.fabric.borrows = [] → badgerAt s.dev 0x0404 n tile o t → o.f 36 4 = 1 →
    memClear s.dev (o.f 40 8) 16 →
    let list := cellsRead s.dev.mem.cells (o.f 40 8) 16
    let dest := fld list 8 4
    let src := mapOf s.dev t index
    let old := t.slotAddr src.1 src.2
    let new := t.slotAddr (bits dest 31 30) (bits dest 29 0)
    let occ0 := t.occBit src.1 src.2
    let occ1 := t.occBit (bits dest 31 30) (bits dest 29 0)
    let map_ := t.map + 4 * index
    t.kind (fld list 0 8) = .mine index → memClear s.dev map_ 4 → src.1 ≠ 3 → bits dest 31 30 ≠ 3 →
    bits dest 29 0 < t.slots.getD (bits dest 31 30) 0 → memClear s.dev occ0.1 1 → memClear s.dev occ1.1 1 → occ0 ≠ occ1 →
    (byteAt s.dev occ1.1).getLsbD occ1.2 = false → memClear s.dev old t.layout → memClear s.dev new t.layout →
    ((bits dest 31 30, bits dest 29 0) ≠ src) →
    (∀ z, new ≤ z → z < new + t.layout → z ≠ occ0.1 ∧ z ≠ occ1.1 ∧ ¬(map_ ≤ z ∧ z < map_ + 4)) →
    (∀ z, map_ ≤ z → z < map_ + 4 → z ≠ occ0.1 ∧ z ≠ occ1.1) →
    acts (.badgerMigrate n.ring n.seq) s fun d => ended d n 0x00 0 ∧
      cellsRead d.mem.cells new t.layout = cellsRead s.dev.mem.cells old t.layout ∧
      leNat (cellsRead d.mem.cells map_ 4) = dest ∧
      (byteAt d occ1.1).getLsbD occ1.2 = true ∧ (byteAt d occ0.1).getLsbD occ0.2 = false ∧
      (∀ z, z ≠ occ0.1 → z ≠ occ1.1 → ¬(map_ ≤ z ∧ z < map_ + 4) → ¬(new ≤ z ∧ z < new + t.layout) → byteAt d z = byteAt s.dev z) ∧
      badgersKept s.dev d ∧ onlyTables s.dev d) ∧
  ∀ (s : State) (n : OpName) (o : Op) (tile : Nat), atWork s → issuedOp s.dev n = some o → ringTarget s.dev n.ring = some (.badger tile) →
    o.sends = [] → o.waitsLedger = false →
    if o.progressAt + (getBadger s.dev tile).limit.toNat * 65536 ≤ cycle s.dev then
      acts (.badgerWatchdogExpiry n.ring n.seq) s fun d => ended d n 0x58 0 ∧ d.mem = s.dev.mem
    else exec (.badgerWatchdogExpiry n.ring n.seq) s = .next s

/-- The twelve instructions of a pooling program, on the working registers of a Badger. On every B-tile, element by
element and rounded once to nearest even, the first NaN first: XMULW is X × w, XMULI, XADDI, XMAXI and XMINI take X
with IMM, XABS is |X|; ACCSUM puts X at the next position of the bag's ordered sum; ACCMAX is max(A, X), the first row
taken as it is; AMULI and AADDI take A with IMM; ADIVN and ARSQN are A / n and A / √n, and +0 for n = 0. Nothing else
changes, and a tile without a Badger has no such registers. (R103, R157, R159, R217, 08 Table 8.7) -/
def Obligations.PoolingInstructions : Prop :=
  poolResult .xmulw (fun _ r => { r with x := r.x.map fun x => fp32 0 (fun v => mulVal (v.getD 0 (.zero false)) (v.getD 1 (.zero false))) [x, r.w] }) ∧
  poolResult .xmuli (fun i r => { r with x := r.x.map fun x => fp32 0 (fun v => mulVal (v.getD 0 (.zero false)) (v.getD 1 (.zero false))) [x, i] }) ∧
  poolResult .xaddi (fun i r => { r with x := r.x.map fun x => fp32 0 (fun v => addVal (v.getD 0 (.zero false)) (v.getD 1 (.zero false))) [x, i] }) ∧
  poolResult .xmaxi (fun i r => { r with x := r.x.map fun x => fpExtreme true [x, i] }) ∧
  poolResult .xmini (fun i r => { r with x := r.x.map fun x => fpExtreme false [x, i] }) ∧
  poolResult .xabs (fun _ r => { r with x := r.x.map fun x => match f32 x with
    | .nan _ => 0x7FC00000
    | _ => x &&& 0x7FFFFFFF }) ∧
  poolResult .accsum (fun _ r =>
    let terms := r.terms ++ [some r.x]
    { r with
      terms := terms
      a := (List.range r.x.length).map fun j => BitVec.ofNat 32 (reduceFloat 0 none terms.length fun k =>
        match terms.getD k none with
        | none => [padded]
        | some y => [f32 (y.getD j 0)]) }) ∧
  poolResult .accmax (fun _ r =>
    let won : List Bool := (r.a.zip r.x).map fun e => maxWins e.1 e.2
    if r.seen then
      { r with a := (r.a.zip r.x).map fun e => fpExtreme true [e.1, e.2]
               winner := (r.winner.zip won).map fun e => if e.2 then r.entry else e.1 }
    else { r with seen := true, a := r.x.map fun x => fpExtreme true [x], winner := r.x.map fun _ => r.entry }) ∧
  poolResult .amuli (fun i r => { r with a := r.a.map fun x => fp32 0 (fun v => mulVal (v.getD 0 (.zero false)) (v.getD 1 (.zero false))) [x, i] }) ∧
  poolResult .aaddi (fun i r => { r with a := r.a.map fun x => fp32 0 (fun v => addVal (v.getD 0 (.zero false)) (v.getD 1 (.zero false))) [x, i] }) ∧
  poolResult .adivn (fun _ r => { r with
    a := r.a.map fun x => if r.n = 0 then 0 else fp32 0 (fun v => quotVal (v.getD 0 (.zero false)) (.fin false r.n 0)) [x] }) ∧
  poolResult .arsqn (fun _ r => { r with a := r.a.map fun x => if r.n = 0 then 0 else divRootCount x r.n }) ∧
  ∀ (s : State) (tile : Nat) (i : W32), atWork s → ¬(tile < 64 ∧ tileType tile = .bTile) →
    ∀ c ∈ [Instr.xmulw tile i, .xmuli tile i, .xaddi tile i, .xmaxi tile i, .xmini tile i, .xabs tile i, .accsum tile i,
      .accmax tile i, .amuli tile i, .aaddi tile i, .adivn tile i, .arsqn tile i], exec c s = .next s

/-- STEP_DECIDE, STEP_COMMIT, and the stalls of both waits. STEP_DECIDE of an open undecided step makes its local flag, as it
stood at the issue, the decision, taken alone, and ends ST_OK; of a decided one it changes nothing and records EV_STEP_DECIDE_TWICE.
STEP_COMMIT of the decided oldest step, the oldest of its ring, closes it: the next step is the oldest, a new one
opens with its flag set, RETIRED is one higher, and under APPLY every valid shard entry has LIVE_SEL inverted and
LIVE_STEP = STEP, no other byte changed; under APPLY it waits while a ledger holds an entry of the step. A wait beyond
WAIT_LIMIT is recorded once. (R234, R237, R238, R240, R242) -/
def Obligations.StepDecisionAndCommit : Prop :=
  (∀ (s : State) (n : OpName) (o : Op) (st : StepState), atWork s → hubAt s.dev 0x0980 n o → stepState s.dev (o.f 32 8) = some st →
    let stood := st.deciding.getD st.flag
    (st.decision = none → acts (.stepDecide n.ring n.seq) s fun d => ended d n 0x00 0 ∧
      (∃ t, stepState d (o.f 32 8) = some t ∧ t.decision = some stood ∧ t.localAt = stood ∧ t.alone = true ∧
        t.flag = st.flag ∧ t.census = st.census) ∧
      (∀ k, k ≠ o.f 32 8 → stepState d k = stepState s.dev k) ∧
      (∀ u, (getBadger d u).ledger = if stood then (getBadger s.dev u).ledger
        else (getBadger s.dev u).ledger.filter fun e => e.step.toNat != o.f 32 8) ∧
      d.mem = s.dev.mem ∧ { d with hub.rings := s.dev.hub.rings, steps := s.dev.steps, badgers := s.dev.badgers } = s.dev) ∧
    (st.decision ≠ none → acts (.stepDecide n.ring n.seq) s fun d => ended d n 0x00 0 ∧
      recorded s.dev d 0x821 (.ring n.ring) 0 ∧ d.steps = s.dev.steps ∧ d.mem = s.dev.mem)) ∧
  (∀ (s : State) (n : OpName) (o : Op) (r : Ring) (rest : List Op) (st : StepState) (apply : Bool), atWork s → quietMemory s.dev →
    unstaged s.dev → hubAt s.dev 0x0981 n o → getRing s.dev n.ring = some r → o.f 32 8 = s.dev.steps.oldest →
    stepState s.dev (o.f 32 8) = some st → st.decision = some apply →
    (apply = true → ledgerBusy s.dev (o.f 32 8) = true → acts (.stepCommit n.ring n.seq) s fun d =>
      (∃ p, issuedOp d n = some p ∧ p.stallFrom.isSome = true) ∧ { d with hub.rings := s.dev.hub.rings } = s.dev) ∧
    let table := s.dev.steps.num.shardAddr
    let old (i : Nat) : Bytes := cellsRead s.dev.mem.cells (table + 64 * i) 64
    let flips (i : Nat) : Bool := apply && table != 0 && bit (fld (old i) 26 1) 0
    (r.ops = o :: rest → (∀ p ∈ rest, p.seq ≠ o.seq) → r.st = .running → r.haltAt = none → o.failedFetch = false → o.aborted = false →
      o.census = [] → o.statusEn = false → o.sigEn = false → o.irq = false → awaits s.dev n = false →
      st.census = [] → s.dev.steps.num.censusAddr = 0 → s.dev.granary.st ≠ .armed →
      (apply = true → ledgerBusy s.dev (o.f 32 8) = false) →
      (apply = true → table ≠ 0 → memClear s.dev table (64 * s.dev.steps.num.shardCount)) →
      acts (.stepCommit n.ring n.seq) s fun d => d.steps.oldest = s.dev.steps.oldest + 1 ∧
        d.steps.opened = s.dev.steps.opened.tail ++ [{ flag := true }] ∧
        (∃ r', getRing d n.ring = some r' ∧ r'.retired = r.retired + 1 ∧ r'.ops.map (·.seq) = rest.map (·.seq)) ∧
        (∀ b, bellValue d b = bellValue s.dev b) ∧
        (∀ i, i < s.dev.steps.num.shardCount → cellsRead d.mem.cells (table + 64 * i) 64 =
          if flips i then (old i).take 26 ++ [BitVec.ofNat 8 (fld (old i) 26 1 ^^^ 4)] ++ ((old i).take 32).drop 27 ++
            leBytes 8 (o.f 32 8) ++ (old i).drop 40 else old i) ∧
        ∀ z, ¬(table ≤ z ∧ z < table + 64 * s.dev.steps.num.shardCount) → byteAt d z = byteAt s.dev z)) ∧
  (∀ (s : State) (n : OpName) (o : Op) (r : Ring) (since : Nat), atWork s → getOp s.dev n = some o → getRing s.dev n.ring = some r →
    waitsOver s.dev r o = true → decisionMet s.dev o = false → o.stallFrom = some since →
    stallLogs (fun n => .stepDecisionStall n.ring n.seq) 0x822 s n o since) ∧
  ∀ (s : State) (n : OpName) (o : Op) (since : Nat), atWork s → hubAt s.dev 0x0981 n o → o.stallFrom = some since →
    (ledgerBusy s.dev (o.f 32 8) = true → stallLogs (fun n => .ledgerBusyAtCommit n.ring n.seq) 0x823 s n o since) ∧
    (ledgerBusy s.dev (o.f 32 8) = false → exec (.ledgerBusyAtCommit n.ring n.seq) s = .next s)

/-- SHARD_FETCH, its retries and its stall. A fetch of a valid entry not owned here, of an open step: under SKIP it ends
ST_STEP_SKIPPED. Otherwise, with the owner routable, it keeps the entry and sends a read request of 64 bytes for the owner's
entry. With that entry fetched, LIVE_STEP below STEP makes it wait, above STEP it ends ST_REMOTE_ERROR with LIVE_STEP in
DETAIL, and at STEP, once the owner's live buffer and the entry again are fetched, the BYTES of that buffer stand in this
device's next buffer, it ends ST_OK, and every other byte reads as before. SHARD_FETCH_RETRY sends the request again for a
waiting fetch 1 µs after its last read. EV_SHARD_FETCH_STALL is recorded once. (R240, R241, R256) -/
def Obligations.ShardFetch : Prop :=
  let asks (s : State) (n : OpName) (owner : W16) (addr : Nat) (d : Dev) : Prop :=
    (∃ q ∈ d.fabric.requests, q.op = n ∧ q.dest = owner ∧ q.read = true ∧ q.key = remoteKey owner addr ∧ q.len = 64 ∧ q.pass = 0) ∧
      d.mem = s.dev.mem ∧ d.steps = s.dev.steps
  let ownerOf (entry : Bytes) : W16 := BitVec.ofNat 16 (fld entry 28 2 % 2 ^ 15)
  (∀ (s : State) (n : OpName) (o : Op) (st : StepState), atWork s → quietMemory s.dev → hubAt s.dev 0x0982 n o →
    stepState s.dev (o.f 32 8) = some st → o.sendFrom = none → o.entry = [] → o.fetched = [] → awaits s.dev n = false →
    s.dev.steps.num.shardAddr ≠ 0 → o.f 40 2 % 4096 < s.dev.steps.num.shardCount →
    let a := s.dev.steps.num.shardAddr + 64 * (o.f 40 2 % 4096)
    let entry := cellsRead s.dev.mem.cells a 64
    memClear s.dev a 64 → bit (fld entry 26 1) 0 = true → bit (fld entry 26 1) 1 = false →
    (st.decision = some false → acts (.shardFetch n.ring n.seq) s fun d => ended d n 0x02 0 ∧ d.mem = s.dev.mem) ∧
    (st.decision ≠ some false → routable s.dev (ownerOf entry) = true → acts (.shardFetch n.ring n.seq) s fun d =>
      (issuedOp d n).map (·.entry) = some entry ∧ asks s n (ownerOf entry) (fld entry 40 8) d)) ∧
  (∀ (s : State) (n : OpName) (o : Op), atWork s → quietMemory s.dev → hubAt s.dev 0x0982 n o → o.sendFrom = none → o.entry ≠ [] →
    let owner := ownerOf o.entry
    let theirs := cellsRead s.dev.mem.remote (remoteKey owner (fld o.entry 40 8)) 64
    let next := fld o.entry (if bit (fld o.entry 26 1) 2 then 0 else 8) 8
    let len := fld o.entry 16 8
    let live := fld theirs (if bit (fld theirs 26 1) 2 then 8 else 0) 8
    let entryFetched (pass : Nat) : Prop := (remoteKey owner (fld o.entry 40 8), 64, pass) ∈ o.fetched
    routable s.dev owner = true → entryFetched 0 →
    (fld theirs 32 8 < o.f 32 8 → acts (.shardFetch n.ring n.seq) s fun d => (∃ p, issuedOp d n = some p ∧ p.stallFrom.isSome = true ∧
      p.sendFrom = some (deviceTime s.dev) ∧ p.fetched = []) ∧ d.mem = s.dev.mem) ∧
    (o.f 32 8 < fld theirs 32 8 → acts (.shardFetch n.ring n.seq) s fun d => ended d n 0x3B (fld theirs 32 8) ∧ d.mem = s.dev.mem) ∧
    (fld theirs 32 8 = o.f 32 8 → entryFetched 2 →
      (∀ p ∈ messagePieces len, (remoteKey owner (live + p.1), p.2, 1) ∈ o.fetched) → memClear s.dev next len →
      acts (.shardFetch n.ring n.seq) s fun d => ended d n 0x00 0 ∧
        bytesStored s.dev d next (cellsRead s.dev.mem.remote (remoteKey owner live) len) ∧ d.steps = s.dev.steps ∧
        { d with hub.rings := s.dev.hub.rings, counters := s.dev.counters, mem.cells := s.dev.mem.cells } = s.dev)) ∧
  (∀ (s : State) (n : OpName) (o : Op) (t : Nat), atWork s → hubAt s.dev 0x0982 n o → o.sendFrom = some t → o.fetched = [] →
    awaits s.dev n = false → t + 1000 ≤ deviceTime s.dev → routable s.dev (ownerOf o.entry) = true →
    acts (.shardFetchRetry n.ring n.seq) s fun d => (issuedOp d n).map (·.sendFrom) = some none ∧
      asks s n (ownerOf o.entry) (fld o.entry 40 8) d) ∧
  ∀ (s : State) (n : OpName) (o : Op) (since : Nat), atWork s → hubAt s.dev 0x0982 n o → o.stallFrom = some since →
    stallLogs (fun n => .shardFetchStall n.ring n.seq) 0x827 s n o since

/-- UNIT_RELEASE, SEQ_RELEASE_STALL, OFFLOAD_DONE and STEP_ABANDON_RESTART. With one member, whose forward or backward
unit is releasable and fits, UNIT_RELEASE writes the unit's descriptors into ring memory, each with RING, SEQ and its
patches, moves SUBMITTED past them, records the unit, and changes no other byte. A wait for ring space beyond
WAIT_LIMIT is recorded once. OFFLOAD_DONE copies the saves of a micro-batch to the pool or back and no other byte, or,
failed, clears the step's flag and abandons it. STEP_ABANDON_RESTART makes a halted member ring that held only the
abandoned step run from HALT_SEQ with nothing submitted, and drops the step's entries. (R263, R264, R265, R270, R272,
R273, R274, 10 Table 10.4) -/
def Obligations.SequencerUnits : Prop :=
  (∀ (s : State) (x : Script) (m : Member) (r : Ring), atWork s → quietMemory s.dev → s.dev.seq.scripts = [x] → x.members = [m] →
    getRing s.dev m.ring = some r → r.log2len ≤ 31 → unitRipe s.dev x m = true → unitFits s.dev m = true →
    (∀ t, m.ripeAt = some t → t ≤ cycle s.dev) → m.phase < 2 → x.banked.contains m.step = true →
    (∀ p ∈ x.patches, bits p.toNat 23 21 ≠ 3) →
    let cnt := phaseTemplates m m.phase
    let j := cursorJ x.micro m
    let micro := m.mbRem + j * m.mbMod
    let seq (k : Nat) : W32 := r.submitted + BitVec.ofNat 32 k
    let whole (k : Nat) : Bytes := (applyPatches x m m.step micro j (cnt.1 + k)
      (s.dev, splice (splice (x.templates.getD (cnt.1 + k) []) 4 (leBytes 2 m.ring)) 8 (leBytes 4 (seq k).toNat))).2
    let desc (k : Nat) : Bytes := if isAbandoned s.dev m.step then withoutWaits (whole k) else whole k
    let slot (k : Nat) : Nat := r.base + 128 * ((seq k).toNat % 2 ^ r.log2len)
    (∀ k, k < cnt.2 → (desc k).length = 128 ∧ memClear s.dev (slot k) 128) →
    acts .unitRelease s fun d =>
      (∀ k, k < cnt.2 → cellsRead d.mem.cells (slot k) 128 = desc k) ∧
      (∀ z, (∀ k, k < cnt.2 → ¬(slot k ≤ z ∧ z < slot k + 128)) → byteAt d z = byteAt s.dev z) ∧
      getRing d m.ring = some { r with
        submitted := r.submitted + BitVec.ofNat 32 cnt.2,
        released := r.released ++ (List.range cnt.2).map fun k => (seq k, (BitVec.ofNat 64 m.step, BitVec.ofNat 32 micro)) } ∧
      (∀ n, n ≠ m.ring → getRing d n = getRing s.dev n) ∧
      d.seq.units = s.dev.seq.units ++
        [{ ring := m.ring, step := m.step, phase := m.phase, j := j, first := r.submitted, count := cnt.2 }] ∧
      { d with hub.rings := s.dev.hub.rings, seq := s.dev.seq, counters := s.dev.counters, mem.cells := s.dev.mem.cells } = s.dev) ∧
  (∀ (s : State) (x : Script) (m : Member) (since : Nat), atWork s → s.dev.seq.scripts = [x] → x.members = [m] →
    unitRipe s.dev x m = true → unitFits s.dev m = false → m.spaceFrom = some since →
    acts (.seqReleaseStall m.ring) s fun d => d.mem = s.dev.mem ∧ d.hub = s.dev.hub ∧ d.steps = s.dev.steps ∧ d.chutes = s.dev.chutes ∧
      if m.spaceLogged = false ∧ since + ringLimit s.dev m.ring * 1000000 < deviceTime s.dev then recorded s.dev d 0x832 (.ring m.ring) 0
      else d.tally = s.dev.tally) ∧
  (∀ (s : State) (x : Script) (m : Member) (step j pool slot : Nat) (prefetch bad : Bool), atWork s → quietMemory s.dev →
    s.dev.seq.scripts = [x] → x.members = [m] → (m.copies.find? fun c => c.2.1 == j && c.2.2 == if prefetch then 3 else 1) =
      some (step, j, if prefetch then 3 else 1) →
    copyPlaces s.dev x m step j = some (pool, slot) → copyRuns s.dev x m step j = true →
    memClear s.dev pool (saveBytes m) → memClear s.dev slot (saveBytes m) →
    (bad = false → acts (.offloadDone m.ring j prefetch bad) s fun d =>
      bytesStored s.dev d (if prefetch then slot else pool) (cellsRead s.dev.mem.cells (if prefetch then pool else slot) (saveBytes m)) ∧
      (∃ y k, d.seq.scripts = [y] ∧ y.members = [k] ∧ (step, j, if prefetch then 4 else 2) ∈ k.copies) ∧
      { d with seq := s.dev.seq, counters := s.dev.counters, mem.cells := s.dev.mem.cells } = s.dev) ∧
    ∀ st, bad = true → stepState s.dev step = some st → st.flag = true → st.decision = none → st.healthSent = false →
      isAbandoned s.dev step = false → acts (.offloadDone m.ring j prefetch bad) s fun d =>
        (stepState d step).map (·.flag) = some false ∧ isAbandoned d step = true ∧ d.mem = s.dev.mem) ∧
  ∀ (s : State) (x : Script) (m : Member) (r : Ring) (a : Abandoned) (step : W64), atWork s → s.dev.seq.scripts = [x] → x.members = [m] →
    m.removed = false → getRing s.dev m.ring = some r → s.dev.seq.abandoned = [a] → a.step = step.toNat → a.restarted = false →
    r.st = .halted → r.released ≠ [] → (∀ e ∈ r.released, e.2.1 = step) →
    if (stepState s.dev step.toNat).all (fun st => st.decision.isSome) = true then
      acts (.stepAbandonRestart step) s fun d => d.seq.abandoned = [{ a with restarted := true }] ∧
        getRing d m.ring =
          some { r with st := .running, fetch := r.haltSeq, haltAt := none, submitted := r.haltSeq, released := [] } ∧
        (∀ tile q c, (∃ e ∈ s.dev.seq.stages, e.2.tile = tile) → q < 16 → getChute s.dev tile q = some c →
          getChute d tile q =
            some { c with entries := c.entries.filter fun e =>
              e.st.isSent || e.st.isTaken || fld e.header 12 4 != step.toNat % 2 ^ 32 }) ∧
        d.mem = s.dev.mem
    else exec (.stepAbandonRestart step) s = .next s

/-- A stage's migration: the drain ends, the copy ends, or the drain times out. MIGRATE_DRAIN_DONE, with no sender and no
operation left, begins the copy and changes nothing else. MIGRATE_COPY_DONE gives the destination the SRAM of the
stage's tile byte for byte, the stage and its rings the new tile, and sends held for its queues go there (log 110); its Mill
holds no claim, EV_STAGE_MIGRATED is recorded, and no byte outside the destination's SRAM changes. STAGE_MIGRATE_TIMEOUT after 1 s of drain ends the migration and records
EV_STAGE_MIGRATE_TIMEOUT; earlier it changes nothing. A request for a snapshot that waited is armed then. (R277, R278, R279, R356) -/
def Obligations.StageMigration : Prop :=
  ∀ (s : State) (g : Migration) (st : Stage), atWork s → s.dev.seq.migration = some g → tget s.dev.seq.stages g.stage = some st →
    let held (k : Nat) : Prop := s.dev.granary.cfg ≠ none ∧ s.dev.granary.st = .idle ∧ s.dev.granary.heldStep = some k
    let nothingHeld : Prop := s.dev.granary.heldStep = none ∧ s.dev.granary.heldTrigger = false
    (g.phase = .drain →
      (if (s.dev.chutes.all fun q => q.1 / 16 != st.tile || q.2.entries.all fun e => !e.st.isSent) = true ∧
          (st.rings.all fun n => (getRing s.dev n).all fun r => r.ops.isEmpty && r.submitted == r.retired) = true then
        exec .migrateDrainDone s = .next { s with dev := { s.dev with seq.migration := some { g with phase := .copy } } }
      else exec .migrateDrainDone s = .next s) ∧
      if g.since + 1000000000 ≤ deviceTime s.dev then
        (∀ k, held k → acts .stageMigrateTimeout s fun d => d.granary.st = .armed ∧ d.granary.step = max k s.dev.steps.oldest) ∧
        (nothingHeld → acts .stageMigrateTimeout s fun d => d.seq.migration = none ∧ recorded s.dev d 0x833 .hub 0 ∧ d.seq.stages = s.dev.seq.stages ∧
          d.hub = s.dev.hub ∧ d.mem = s.dev.mem)
      else exec .stageMigrateTimeout s = .next s) ∧
    (g.phase = .copy → memoryWf s.dev.mem = true → st.tile < 64 → g.dest < 64 → st.tile ≠ g.dest → tileType st.tile = tileType g.dest →
      st.rings.Nodup → s.dev.granary.st ≠ .copying →
      (∀ k, held k → acts .migrateCopyDone s fun d => d.granary.st = .armed ∧ d.granary.step = max k s.dev.steps.oldest) ∧
      (nothingHeld → acts .migrateCopyDone s fun d =>
        (∀ i, i < tileCapacity st.tile → byteAt d (sramBase g.dest + i) = byteAt s.dev (sramBase st.tile + i)) ∧
        (∀ z, ¬(sramBase g.dest ≤ z ∧ z < sramBase g.dest + tileCapacity st.tile) → byteAt d z = byteAt s.dev z) ∧
        tget d.seq.stages g.stage = some { st with tile := g.dest } ∧ d.seq.migration = none ∧
        (∀ n r, getRing s.dev n = some r → getRing d n = some { r with
          ops := r.ops.map (Op.retile st.tile g.dest), target := if n ∈ st.rings then r.target - st.tile + g.dest else r.target }) ∧
        (∀ n, getRing s.dev n = none → getRing d n = none) ∧ (getMill d g.dest).sets = [] ∧ recorded s.dev d 0x430 .hub 0))

/-- Stream blocks in and out, the grant of a decoder core, and the end of decoding. A port that is up frees and counts a
block of wrong CRC (EV_STREAM_CRC) or one that breaks Table 11.1 (EV_STREAM_BAD_BLOCK), drops IDLE, begins a sample at
SOS, adds a DATA payload to the sample in progress, and frees a block of none. CREDIT carries FREED, TIME the device
time, under a CRC. DECODE_START gives a waiting sample a free core and frees its blocks. SAMPLE_DECODE_DONE resolves
the slot: REFUSED, FAULT, DAMAGED above DAMAGE_MAX, else OK or CONCEALED with the augmented elements; an undamaged raw
sample gives its bytes. (R284, R285,
R286, R287, R289, R292, R294, R295, R296, R301) -/
def Obligations.StreamBlocksAndDecoding : Prop :=
  (∀ (s : State) (die : Nat) (blk : Bytes), atWork s → threshes s.dev die → (getTh s.dev die).port = 1 ∨ (getTh s.dev die).port = 2 →
    blk.length = 256 →
    let t := getTh s.dev die
    let h := fld blk 0 8
    let stream := bits h 19 8
    let bseq : W16 := BitVec.ofNat 16 (bits h 47 32)
    let data := slice blk 8 (bits h 27 20)
    let whole : Prop := (crc32c (blk.take 252)).toNat = fld blk 252 4
    (¬whole → acts (.streamBlockReceived die blk) s fun d => threshSet s.dev d die { t with freed := t.freed + 1 } ∧
      recorded s.dev d 0x841 (.streamPort die) 0) ∧
    (whole → blockBad t blk = true → acts (.streamBlockReceived die blk) s fun d =>
      threshSet s.dev d die { t with freed := t.freed + 1 } ∧ recorded s.dev d 0x842 (.streamPort die) 0) ∧
    (whole → blockBad t blk = false → bits h 3 0 = 2 → exec (.streamBlockReceived die blk) s = .next s) ∧
    (whole → blockBad t blk = false → bits h 3 0 = 1 →
      (bit h 4 = true → bit h 5 = false → receiving t stream = none → data.length < 64 →
        acts (.streamBlockReceived die blk) s fun d => threshSet s.dev d die { t with
          skipping := t.skipping.erase stream
          samples := t.samples ++ [{ stream := stream, sos := bseq, bseq := bseq + 1, bytes := data, blocks := 1 }] }) ∧
      (bit h 4 = false → receiving t stream = none → acts (.streamBlockReceived die blk) s fun d => threshSet s.dev d die { t with
        freed := t.freed + 1
        skipping := if bit h 5 then t.skipping.erase stream else t.skipping }) ∧
      ∀ (k : Nat) (x : Sample), bit h 4 = false → bit h 5 = false → receiving t stream = some k → t.samples[k]? = some x →
        x.bseq = bseq → 64 ≤ x.bytes.length → x.bytes.length ≤ 64 + fld x.bytes 32 4 → x.decoding = false → x.dropped = false →
        acts (.streamBlockReceived die blk) s fun d => threshSet s.dev d die { t with
          samples := t.samples.set k { x with
            bytes := x.bytes ++ data.take (64 + fld x.bytes 32 4 - x.bytes.length), bseq := bseq + 1, blocks := x.blocks + 1 } })) ∧
  (∀ (c : Nat → Instr) (ty size : Nat) (v : State → Nat → Nat), (c, ty, size, v) ∈
      [((fun die => .creditBlockSend die), 3, 4, fun s die => (getTh s.dev die).freed.toNat),
       ((fun die => .timeBlockSend die), 4, 8, fun s _ => deviceTime s.dev)] →
    ∀ (s : State) (die : Nat), atWork s → threshes s.dev die →
      if (getTh s.dev die).port = 1 ∨ (getTh s.dev die).port = 2 then
        acts (c die) s fun d => (∃ blk : Bytes, blk.length = 256 ∧ fld blk 0 8 = ty ∧ fld blk 8 size = v s die ∧
            (crc32c (blk.take 252)).toNat = fld blk 252 4 ∧ d.out.stream = s.dev.out.stream ++ [(die, blk)]) ∧
          { d with out.stream := s.dev.out.stream, threshers := s.dev.threshers } = s.dev ∧
          (getTh d die).freed = (getTh s.dev die).freed ∧ (getTh d die).samples = (getTh s.dev die).samples
      else exec (c die) s = .next s) ∧
  (∀ (s : State) (die k : Nat) (x : Sample), atWork s → threshes s.dev die → (getTh s.dev die).samples[k]? = some x →
    x.waits = true → x.stream < 4096 → x.headerTick ≤ cycle s.dev →
    (∀ j y, j ≠ k → (getTh s.dev die).samples[j]? = some y → y.waits = false) →
    let t := getTh s.dev die
    if (t.samples.filter (·.decoding)).length < dieCores s.dev die then
      acts (.decodeStart die) s fun d => threshSet s.dev d die { t with
        samples := t.samples.set k { x with decoding := true, blocks := 0 }
        freed := t.freed + BitVec.ofNat 32 x.blocks
        pointer := (x.stream + 1) % 4096 }
    else exec (.decodeStart die) s = .next s) ∧
  ∀ (s : State) (die k : Nat) (x : Sample) (cfg : StreamCfg) (c : BatchClass) (b : Batch) (out : Decoded), atWork s →
    threshes s.dev die → (getTh s.dev die).samples.findIdx? (fun y => y.stream == x.stream && y.decoding && y.ended && !y.dropped) = some k →
    (getTh s.dev die).samples[k]? = some x → tget (getTh s.dev die).streams x.stream = some cfg →
    tget (getTh s.dev die).classes cfg.cls = some c → getBatch s.dev die cfg.cls x.batch = some b → x.injector = none →
    let t := getTh s.dev die
    let found := decodedOf t cfg x out
    let w1 := decodedWork x found
    let w2 := match x.prog.orElse fun _ => tget t.programs cfg.augSlot with
      | none => w1
      | some p => runAug t p w1
    let damage := BitVec.ofNat 16 (min (65536 * found.concealed / max 1 found.declared) 65535)
    let state : Byte :=
      if decodeRefused cfg x found then 3
      else if found.memFault then 7
      else if cfg.damageMax < damage.toNat then 2
      else if damage = 0 then 0
      else 1
    acts (.sampleDecodeDone die x.stream out) s fun d =>
      (∃ st, slotOf d die cfg.cls x.batch x.slot = some st ∧ st.sampleId = x.id ∧ st.state = state ∧
        st.damage = (if state = 3 then 0 else if state = 7 then 65535 else damage) ∧
        st.content = (if state = 0 ∨ state = 1 then (fillSlot c w2).content else padSlot c) ∧
        st.length = (if state = 0 ∨ state = 1 then BitVec.ofNat 32 (fillSlot c w2).length else 0)) ∧
      (x.damaged = false → cfg.kind = 0x20 → found.concealed = 0 ∧ found.units = (x.bytes.drop 64).map fun v => [v.setWidth 32]) ∧
      (∀ i, i ≠ x.slot → slotOf d die cfg.cls x.batch i = slotOf s.dev die cfg.cls x.batch i) ∧
      (getTh d die).samples = t.samples.eraseIdx k ∧ (state = 3 → recorded s.dev d 0x844 (.decoder die 2) 0) ∧ d.mem = s.dev.mem

/-- TH_INJECT, TH_FLUSH, and the deadline, emission and commit of batches. TH_INJECT takes LENGTH bytes as one ended
sample that arrived at the issue, which claims its slot in an open batch of the window. TH_FLUSH ends with the number of
batches open at its issue where all have committed; else every slot of them without an arrived sample becomes EMPTY. At the deadline such slots become MISSING and
EV_TH_BATCH_TIMEOUT is recorded. BATCH_EMIT of the next batch, all slots resolved and a credit held, sends one entry
with header, mask, status and, in CHUTE mode, slots as payload, else the slots in buffer i; the next batch is next.
BATCH_COMMIT commits the entry of the oldest emitted batch, which is then gone. (R297, R298, R299, R300, R304) -/
def Obligations.InjectionAndBatches : Prop :=
  (∀ (s : State) (n : OpName) (o : Op) (die : Nat) (cfg : StreamCfg) (c : BatchClass) (b : Batch), atWork s → threshes s.dev die →
    s.dev.mem.flips = [] → threshAt s.dev 0x0501 n die o → 64 ≤ o.f 36 4 → memClear s.dev (o.f 40 8) 64 →
    memClear s.dev (o.f 40 8 + 64) (o.f 36 4 - 64) →
    tget (getTh s.dev die).streams (o.f 32 2 % 4096) = some cfg → cfg.augSlot = 0xFF → cfg.staleNs = 0 →
    tget (getTh s.dev die).classes cfg.cls = some c →
    let head := cellsRead s.dev.mem.cells (o.f 40 8) 64
    let all := cellsRead s.dev.mem.cells (o.f 40 8) (o.f 36 4)
    let bytes := all.take (64 + fld head 32 4)
    let now := o.issuedNs
    let x : Sample :=
      { stream := o.f 32 2 % 4096, bytes := bytes, ended := true, arrival := BitVec.ofNat 64 now, headerTick := o.issuedAt,
        damaged := decide (bytes.length < 64 + fld head 32 4), placed := true, injector := some n,
        flags := if now % 2 ^ 64 < fld head 8 8 then 4 else 0 }
    getBatch s.dev die cfg.cls x.batch = some b → c.next ≤ x.batch → x.batch < c.next + 8 → x.slot < c.samples →
    thas b.slots x.slot = false → b.claimed.contains x.slot = false → now % 2 ^ 64 < b.timerStart.toNat + c.timeoutNs →
    x.headerWrong cfg = false →
    acts (.thInject n.ring n.seq) s fun d => (getTh d die).samples = (getTh s.dev die).samples ++ [x] ∧
      (getBatch d die cfg.cls x.batch).map (fun y => (y.claimed, y.slots)) = some (b.claimed ++ [x.slot], b.slots) ∧
      issuedOp d n = some { o with done := 1 } ∧ d.mem = s.dev.mem) ∧
  (∀ (s : State) (n : OpName) (o : Op) (die : Nat) (c : BatchClass), atWork s → threshes s.dev die → threshAt s.dev 0x0502 n die o →
    tget (getTh s.dev die).classes (o.f 32 1 % 16) = some c → (c.batches.map (·.number)).Nodup →
    (∀ x ∈ (getTh s.dev die).classes, ∀ b ∈ x.2.batches, n ∉ b.flushers) →
    let cls := o.f 32 1 % 16
    ((∀ b ∈ c.batches, b.number ∉ o.batches) → acts (.thFlush n.ring n.seq) s fun d =>
      ended d n 0x00 o.batches.length ∧ d.threshers = s.dev.threshers) ∧
    (∀ b ∈ c.batches, b.isOpen = true → b.number ∈ o.batches → acts (.thFlush n.ring n.seq) s fun d =>
      (∃ y, getBatch d die cls b.number = some y ∧ y.flushed = true ∧ y.flushers = b.flushers ++ [n]) ∧
      (∀ i, slotOf d die cls b.number i = if i ∈ unarrived (getTh s.dev die) cls c b then
        some { state := 6, content := padSlot c } else tget b.slots i) ∧
      issuedOp d n = some { o with done := 1, tallyCount := o.batches.length } ∧ d.mem = s.dev.mem)) ∧
  (∀ (s : State) (die cls : Nat) (c : BatchClass), atWork s → threshes s.dev die → tget (getTh s.dev die).classes cls = some c →
    (c.batches.map (·.number)).Nodup →
    match c.batches.find? fun b => b.isOpen && !b.timedOut && decide (b.timerStart.toNat + c.timeoutNs ≤ deviceTime s.dev) &&
        (List.range c.samples).any fun i => !(thas b.slots i) with
    | none => exec (.thBatchTimeout die cls) s = .next s
    | some b => acts (.thBatchTimeout die cls) s fun d => recorded s.dev d 0x847 (.decoder die 2) 0 ∧
        (getBatch d die cls b.number).map (·.timedOut) = some true ∧
        (∀ i, slotOf d die cls b.number i = if i ∈ unarrived (getTh s.dev die) cls c b then
          some { state := 5, content := padSlot c } else tget b.slots i) ∧ d.mem = s.dev.mem) ∧
  (∀ (s : State) (die cls : Nat) (c : BatchClass) (b : Batch) (q : Chute), atWork s → plainMemory s.dev → threshes s.dev die →
    tget (getTh s.dev die).classes cls = some c → c.batches.find? (fun b => b.number == c.next && b.isOpen) = some b →
    getChute s.dev c.destTile c.destQueue = some q → c.destTile < 64 → c.destQueue < 16 → q.entries.length < q.depth →
    (∀ e ∈ q.entries, e.slot < q.depth) →
    queueHeld s.dev c.destTile = false → (∀ i, i < c.samples → thas b.slots i = true) →
    let slots := (List.range c.samples).map fun i => tgetD b.slots i {}
    let i := q.freeSlot
    let buf := if c.mode = 0 then 0 else c.bufBase + i * c.bufStride
    let front := batchHeader die cls c b slots buf (deviceTime s.dev) ++ maskBytes slots ++ slots.flatMap SlotStatus.bytes
    let contents := slots.flatMap (·.content)
    let payload := if c.mode = 0 then slice front 0 (slotsOff c.samples) ++ contents else front
    let at_ := sramBase c.destTile + q.slotOffset i
    let header := chuteHeader 0xFFFF (b.number % 2 ^ 32) (b.number % c.bps) ((c.stepBase.toNat + b.number / c.bps) % 2 ^ 64 % 2 ^ 32)
      c.tensor cls 0 (bits c.format.toNat 7 0) true payload.length
    payload.length ≤ q.slotBytes → (c.mode ≠ 0 → s.dev.mem.flips = [] ∧ memClear s.dev buf contents.length ∧
      (buf + contents.length ≤ sramBase c.destTile + q.offset ∨ sramBase c.destTile + q.offset + q.storage ≤ buf)) →
    acts (.batchEmit die cls) s fun d =>
      getChute d c.destTile c.destQueue = some { q with
        entries := q.entries ++ [{ slot := i, header := header, bytes := payload.length, st := .sent (batchName die cls b.number) }] } ∧
      cellsRead d.mem.cells at_ payload.length = payload ∧
      cellsRead d.mem.cells (sramBase c.destTile + q.headerOffset i) 64 = header ∧
      (c.mode ≠ 0 → cellsRead d.mem.cells buf contents.length = contents) ∧
      (∀ z, ¬(at_ ≤ z ∧ z < at_ + payload.length) → ¬(sramBase c.destTile + q.headerOffset i ≤ z ∧
        z < sramBase c.destTile + q.headerOffset i + 64) → (c.mode ≠ 0 → ¬(buf ≤ z ∧ z < buf + contents.length)) →
        byteAt d z = byteAt s.dev z) ∧
      (tget (getTh d die).classes cls).map (·.next) = some (c.next + 1) ∧
      (∃ y, tget (getTh d die).classes cls = some y ∧ { b with
        emitted := some (BitVec.ofNat 64 (deviceTime s.dev)), chuteSlot := i, dest := (c.destTile, c.destQueue)
        step := (c.stepBase.toNat + b.number / c.bps) % 2 ^ 64 } ∈ y.batches)) ∧
  ∀ (s : State) (die cls : Nat) (c : BatchClass) (b : Batch) (q : Chute), atWork s → threshes s.dev die →
    tget (getTh s.dev die).classes cls = some c → c.batches.find? (fun b => b.emitted.isSome) = some b →
    getChute s.dev b.dest.1 b.dest.2 = some q → b.census = [] → b.flushers = [] → (∀ a ∈ s.dev.seq.abandoned, a.restarted = false) →
    acts (.batchCommit die cls .clean) s fun d =>
      tget (getTh d die).classes cls = some { c with batches := c.batches.erase b } ∧
      getChute d b.dest.1 b.dest.2 = some { q with entries := commitIn (batchName die cls b.number) q.entries } ∧ d.mem = s.dev.mem

/-- The eight instructions of an augmentation program, on the working sample of a die. On both dies and whatever the
operands: SELECT keeps pictures P[A], P[A] + P[B], and so on, up to FRAMES; CROP cuts the rectangle of P[A] to P[A+3]
clipped to the picture, and a size of 0 or less leaves it; FLIPH mirrors where P[A] is not zero; RESIZE forms the
class's H × W from weighted means of four; COLOUR 0 keeps channel 0; AFFINE is fma(x, P[A+c], P[B+c]) on channel c;
TRIM drops the first P[A] frames; GAIN is x × P[A], each rounded once. Nothing else changes. (R302, R303, 11 Table
11.8) -/
def Obligations.AugmentationInstructions : Prop :=
  augResult .augSelect (fun t a b _ w =>
    { w with units := ((w.units.zipIdx.filter fun e => decide (w.pInt a ≤ (e.2 : Int)) &&
                decide (((e.2 : Int) - w.pInt a) % max 1 (w.pInt b) = 0)).map (·.1)).take
                (((t.classOf w.stream).map fun c => c.shape.getD 0 0).getD 0) }) ∧
  augResult .augCrop (fun _ a _ _ w =>
    if w.pInt (a + 2) ≤ 0 ∨ w.pInt (a + 3) ≤ 0 then w
    else
      let cut (v : Int) (n : Nat) : Nat := (max 0 (min v n)).toNat
      let x0 := cut (w.pInt a) w.width
      let y0 := cut (w.pInt (a + 1)) w.height
      w.remap (cut (w.pInt a + w.pInt (a + 2)) w.width - x0) (cut (w.pInt (a + 1) + w.pInt (a + 3)) w.height - y0) w.channels
        fun pic x y c => w.at_ pic (x + x0) (y + y0) c) ∧
  augResult .augFliph (fun _ a _ _ w =>
    if w.p a &&& 0x7FFFFFFF = 0 then w
    else w.remap w.width w.height w.channels fun pic x y c => w.at_ pic (w.width - 1 - x) y c) ∧
  augResult .augResize (fun t _ _ _ w => match t.classOf w.stream with
    | none => w
    | some c =>
      if w.width = 0 ∨ w.height = 0 then w
      else w.remap (c.shape.getD 2 0) (c.shape.getD 1 0) w.channels fun pic u v ch =>
        resizeElem w pic (resizePos u w.width (c.shape.getD 2 0)) (resizePos v w.height (c.shape.getD 1 0)) ch) ∧
  augResult .augColour (fun _ _ _ i w =>
    if 3 < i.toNat then w
    else if i = 0 then w.remap w.width w.height 1 fun pic x y _ => w.at_ pic x y 0
    else w.remap w.width w.height 3 fun pic x y c =>
      orderedSum ((List.range 3).map fun k =>
        (fun xs : List W32 => fp32 0 (fun v => mulVal (v.getD 0 (.zero false)) (v.getD 1 (.zero false))) xs) [w.at_ pic x y k, ((colourRows i.toNat).getD c []).getD k 0])) ∧
  augResult .augAffine (fun _ a b _ w =>
    { w with units := w.units.map fun u => u.zipIdx.map fun e =>
                fp32 0 (fun v => addVal (mulVal (v.getD 0 (.zero false)) (v.getD 1 (.zero false))) (v.getD 2 (.zero false)))
                  [e.1, w.p (a + e.2 % max 1 w.channels), w.p (b + e.2 % max 1 w.channels)] }) ∧
  augResult .augTrim (fun _ a _ _ w => { w with units := w.units.drop (w.pInt a).toNat }) ∧
  augResult .augGain (fun _ a _ _ w =>
    { w with units := w.units.map fun u => u.map fun x => fp32 0 (fun v => mulVal (v.getD 0 (.zero false)) (v.getD 1 (.zero false))) [x, w.p a] })

/-- Flits, replays, LINK_INIT and retrains of a fabric port. A codeword that does not decode is discarded whole, and a flit
that fails its check or is out of order alone: a NAK for the next LSEQ goes out unless one stands (log 115). One in order
is accepted and acknowledged by an IDLE flit; ACK and credit totals take effect. A NAK sends the flits from its LSEQ again
and counts them, records EV_FAB_REPLAY, and at the eighth in a row forces a retrain. A NAK goes out again after 200 ns.
LINK_INIT fills the port record and finds MISCABLED or Nolar. A retrain request begins a retrain where none is in progress,
and its end leaves the trained state with RETRAINS one higher. A port takes the largest width of which each direction has at
most one failed lane, and no logical lane lies on a failed one. No other port and no memory changes. (R306, R307, R310, R311,
R312, R315, R316, R317, R318) -/
def Obligations.FabricLinks : Prop :=
  (∀ (s : State) (q : Nat) (flits : List Bytes), powered s → linkUp s.dev q →
    let p := getPort s.dev q
    if p.nakFrom = none then
      acts (.flitReceived q flits false) s fun d => portSet s.dev d q { p with nakFrom := some (deviceTime s.dev) } ∧
        d.out.ctrl = s.dev.out.ctrl ++ [(q, 2, (p.rxLast + 1).toNat)]
    else exec (.flitReceived q flits false) s = .next s) ∧
  (∀ (s t : State) (q : Nat) (flit : Bytes) (rest : List Bytes), powered s → q < 6 → s.dev.granary.stalls = [] →
    exec (.flitReceived q [flit] true) s = .next t → exec (.flitReceived q (flit :: rest) true) s = exec (.flitReceived q rest true) t) ∧
  (∀ (s : State) (q : Nat) (flit : Bytes), powered s → linkUp s.dev q → flit.length = 64 →
    let p := getPort s.dev q
    let h := fld flit 0 6
    let seq : BitVec 12 := BitVec.ofNat 12 (bits h 19 8)
    let whole : Prop := (crc32c (flit.take 60)).toNat = fld flit 60 4
    let linked : Port := { p with
      replay := ackReplay (BitVec.ofNat 12 (bits h 31 20)) p.replay
      nakRun := if (ackReplay (BitVec.ofNat 12 (bits h 31 20)) p.replay).any (fun f => f.lseq == p.nakSeq) then p.nakRun else 0
      crTotal := modAt p.crTotal (bits h 35 32) fun _ => BitVec.ofNat 12 (bits h 47 36) }
    (¬whole → p.nakFrom = none → acts (.flitReceived q [flit] true) s fun d =>
      portSet s.dev d q { p with nakFrom := some (deviceTime s.dev) } ∧ d.out.ctrl = s.dev.out.ctrl ++ [(q, 2, (p.rxLast + 1).toNat)]) ∧
    (¬whole → p.nakFrom ≠ none → exec (.flitReceived q [flit] true) s = .next s) ∧
    (whole → bits h 3 0 < 2 → acts (.flitReceived q [flit] true) s fun d => portSet s.dev d q linked ∧ d.out = s.dev.out) ∧
    (whole → bits h 3 0 = 2 ∨ bits h 3 0 = 3 →
      if seq = p.rxLast + 1 then
        acts (.flitReceived q [flit] true) s fun d => portSet s.dev d q { linked with
            rxLast := p.rxLast + 1, nakFrom := none, rx := p.rx ++ [(bits h 7 4, slice flit 6 54)], crTurn := (p.crTurn + 1) % 8 } ∧
          (p.crTurn < 8 → ∃ b : Bytes, d.out.flits = s.dev.out.flits ++ [(q, b)] ∧ b.length = 64 ∧ bits (fld b 0 6) 3 0 = 0 ∧
            bits (fld b 0 6) 31 20 = seq.toNat ∧ bits (fld b 0 6) 35 32 = p.crTurn ∧
            bits (fld b 0 6) 47 36 = (p.vcFreed.getD p.crTurn 0).toNat ∧ (crc32c (b.take 60)).toNat = fld b 60 4)
      else p.nakFrom = none → acts (.flitReceived q [flit] true) s fun d =>
        portSet s.dev d q { linked with nakFrom := some (deviceTime s.dev) } ∧
        d.out.ctrl = s.dev.out.ctrl ++ [(q, 2, (p.rxLast + 1).toNat)])) ∧
  (∀ (s : State) (q : Nat) (seq : BitVec 12), powered s → linkUp s.dev q →
    let p := getPort s.dev q
    match p.replay.findIdx? fun f => f.lseq == seq with
    | none => exec (.nakReceived q seq) s = .next s
    | some i =>
      let run := if p.nakSeq = seq ∧ p.nakRun ≠ 0 then p.nakRun + 1 else 1
      let again := p.replay.drop i
      let p1 : Port := { p with
        replays := p.replays + BitVec.ofNat 64 again.length, nakSeq := seq, nakRun := run, crTurn := (p.crTurn + again.length) % 8 }
      p.crTurn < 8 → acts (.nakReceived q seq) s fun d =>
        portSet s.dev d q (if 8 ≤ run then { p1 with retraining := true, forced := true, st := 5 } else p1) ∧
        (∃ bs : List Bytes, d.out.flits = s.dev.out.flits ++ bs.map (fun b => (q, b)) ∧ bs.length = again.length ∧
          ∀ (k : Nat) (f : Flit) (b : Bytes), again[k]? = some f → bs[k]? = some b → f.vc < 16 → bits (fld b 0 6) 19 8 = f.lseq.toNat ∧
            bits (fld b 0 6) 3 0 = (if f.head then 2 else 3) ∧ bits (fld b 0 6) 7 4 = f.vc) ∧
        d.fabric.exceptions = s.dev.fabric.exceptions ∧
        (s.dev.hub.hardHalted = false → recorded s.dev d 0x450 (.port q) 0)) ∧
  (∀ (s : State) (q t : Nat), powered s → q < 6 → s.dev.fabric.ports.length = 6 → (getPort s.dev q).nakFrom = some t →
    let p := getPort s.dev q
    if t + 200 ≤ deviceTime s.dev then acts (.nakResend q) s fun d => portSet s.dev d q { p with nakFrom := some (deviceTime s.dev) } ∧
      d.out.ctrl = s.dev.out.ctrl ++ [(q, 2, (p.rxLast + 1).toNat)]
    else exec (.nakResend q) s = .next s) ∧
  (∀ (s : State) (q : Nat) (x : LinkInit), powered s → linkUp s.dev q →
    let p := getPort s.dev q
    let st := if x.version = 1 then 6 else if miscabled s.dev q x.coord x.dir then 3 else if p.width = 16 then 1 else 2
    if x.version = 1 ∨ x.version = 2 then
      acts (.linkInitReceived q x) s fun d => portSet s.dev d q { p with
        st := st, peerVersion := x.version, peerIdent := x.ident, peerCoord := x.coord, peerPort := x.port
        rate := if st = 6 then 1 else 2 } ∧
        (st = 3 → fld (portRecord d q) 0 1 = 3 ∧ fld (portRecord d q) 1 1 = 0)
    else exec (.linkInitReceived q x) s = .next s) ∧
  (∀ (s : State) (q : Nat), powered s → linkUp s.dev q →
    let p := getPort s.dev q
    if retrainBusy s.dev = true then exec (.retrainReqReceived q) s = .next s
    else acts (.retrainReqReceived q) s fun d =>
      portSet s.dev d q { p with retraining := true, forced := false, mbx := none, st := if p.replay = [] then 5 else p.st }) ∧
  (∀ (s : State) (q : Nat) (t : PortTrain), powered s → q < 6 → s.dev.fabric.ports.length = 6 →
    let p := getPort s.dev q
    if p.retraining = true ∧ p.st = 5 ∧ firmwareRuns s.dev (q / 3) = true then p.waiting = [] → p.sending = [] →
      acts (.portRetrainDone q t) s fun d => (getPort d q).st = trainedState s.dev q t ∧ (getPort d q).retraining = false ∧
        (getPort d q).forced = false ∧
        (getPort d q).retrains = satInc p.retrains ∧ (getPort d q).mbx = none ∧ (∀ k, k ≠ q → getPort d k = getPort s.dev k) ∧
        (trainedState s.dev q t = 1 → (s.dev.fabric.exceptions.filter fun e => e.1 == 192 + q).length ≤ 1 →
          tget d.fabric.exceptions (192 + q) = none) ∧ d.mem = s.dev.mem
    else exec (.portRetrainDone q t) s = .next s) ∧
  ∀ (d : Dev) (q : Nat) (t : PortTrain), t.peerVersion = 2 → d.units.fuseLanes.getD q none = none →
    let good (w : Nat) : Prop := ∀ bad, bad = t.rxBad ∨ bad = t.txBad → ((List.range (w + 1)).filter bad.testBit).length ≤ 1
    (trainedWidth d q t = 16 ↔ good 16) ∧ (trainedWidth d q t = 8 ↔ ¬good 16 ∧ good 8) ∧
    (trainedWidth d q t = 4 ↔ ¬good 16 ∧ ¬good 8 ∧ good 4) ∧
    ∀ bad l, bad = t.rxBad ∨ bad = t.txBad → l < trainedWidth d q t →
      bad.testBit (physicalLane (spareFor bad (trainedWidth d q t)) l) = false

/-- Messages, requests, lends and the time base. A message that arrives is sent on by the routed port with one more hop,
or discarded and recorded as EV_FAB_UNROUTABLE; its flits are freed. A response for a request of this device brings
what was read and ends the wait; an UNREACHABLE or an error one ends the operation. A request without response for 1 ms
ends it ST_FABRIC_UNREACHABLE. A lend is served to its borrower within its size, and answered. The first lock before
ready steps the clock by the offset, later ones are slewed in by the clock's pulses. A lost parent is replaced, or holdover
begins. (R309, R312, R319, R321, R322, R323, R324, R349) -/
def Obligations.FabricMessagesAndTime : Prop :=
  (∀ (s : State) (q : Nat) (m : FabMsg), powered s → linkUp s.dev q → m.headerFlips = [] →
    let vc := 2 * m.cls + ofBool m.dl
    let n := 1 + (m.body.length + 47) / 48
    let freed : Port := { getPort s.dev q with
      vcFreed := modAt (getPort s.dev q).vcFreed vc (· + BitVec.ofNat 12 n), rx := freeRx vc n (getPort s.dev q).rx, crTurn := (vc + 1) % 8 }
    (∀ out dl, routeOf s.dev q m.dest m.cls m.hops m.dl = .out out dl → out ≠ q →
      canLeave s.dev out { m with hops := m.hops + 1, dl := dl } →
      acts (.fabMessageReceived q m) s fun d => hasLeft s.dev d out { m with hops := m.hops + 1, dl := dl } ∧ getPort d q = freed ∧
        d.mem = s.dev.mem) ∧
    (routeOf s.dev q m.dest m.cls m.hops m.dl = .discard → m.cls = 1 ∨ m.cls = 3 → s.dev.hub.hardHalted = false →
      acts (.fabMessageReceived q m) s fun d => recorded s.dev d 0x851 (.port q) 0 ∧ getPort d q = freed ∧ d.mem = s.dev.mem) ∧
    ∀ r, routeOf s.dev q m.dest m.cls m.hops m.dl = .here → m.cls = 1 → s.dev.hub.hardHalted = false → s.dev.granary.st = .idle →
      s.dev.fabric.requests.find? (fun r => r.tag == m.tag) = some r →
      (m.unreachable = false → m.error = false → m.bodyCheck = .clean → acts (.fabMessageReceived q m) s fun d =>
        d.fabric.requests = s.dev.fabric.requests.filter (fun r => r.tag != m.tag) ∧
        if r.read then { d.mem with remote := s.dev.mem.remote } = s.dev.mem ∧
          (memoryWf s.dev.mem = true → cellsRead d.mem.remote r.key (m.body.take r.len).length = m.body.take r.len) ∧
          ∀ o, getOp s.dev r.op = some o → (getOp d r.op).map (·.fetched) = some (o.fetched ++ [(r.key, r.len, r.pass)])
        else d.mem = s.dev.mem ∧ d.hub = s.dev.hub) ∧
      ∀ o, issuedOp s.dev r.op = some o → m.unreachable = true ∨ m.error = true → m.bodyCheck = .clean → acts (.fabMessageReceived q m) s fun d =>
        ended d r.op (if m.unreachable then 0x3A else 0x3B) 0 ∧
        d.fabric.requests = s.dev.fabric.requests.filter (fun r => r.tag != m.tag) ∧ d.mem = s.dev.mem) ∧
  (∀ (s : State) (tag : W32) (r : Request) (o : Op), atWork s → s.dev.fabric.requests.find? (fun r => r.tag == tag) = some r →
    issuedOp s.dev r.op = some o →
    if r.sentAt + 1000000 ≤ deviceTime s.dev then
      acts (.fabricRequestTimeout tag) s fun d => ended d r.op 0x3A 0 ∧
        d.fabric = { s.dev.fabric with requests := s.dev.fabric.requests.filter fun x => x.tag != tag } ∧ d.mem = s.dev.mem
    else exec (.fabricRequestTimeout tag) s = .next s) ∧
  (∀ (s : State) (q out : Nat) (dl : Bool) (r : LendReq) (l : Lend), powered s → quietMemory s.dev → linkUp s.dev q →
    s.dev.hub.hardHalted = false → tget s.dev.fabric.lends r.lend = some l → routeOf s.dev 6 r.src 1 0 false = .out out dl →
    let len := match r.write with
      | some b => b.length
      | none => r.len
    let a := l.base + r.offset
    let allowed := l.borrower == r.src && decide (r.offset + len ≤ l.size)
    r.check = .clean →
    let answer : FabMsg :=
      { dest := r.src, src := s.dev.fabric.coord, cls := 1, op := ofBool r.write.isSome, hops := 1, dl := dl, tag := r.tag,
        inject := BitVec.ofNat 32 (deviceTime s.dev), error := !allowed, info := lendInfo r.lend r.offset r.len,
        body := if allowed && r.write.isNone then cellsRead s.dev.mem.cells a r.len else [] }
    canLeave s.dev out answer → (allowed = true → memClear s.dev a len) →
    acts (.lendRequestReceived q r) s fun d => hasLeft s.dev d out answer ∧
      ∀ z, byteAt d z = match r.write with
        | some b => if allowed = true ∧ a ≤ z ∧ z < a + b.length then b.getD (z - a) 0 else byteAt s.dev z
        | none => byteAt s.dev z) ∧
  (∀ (s : State) (t1 t2 t3 t4 : Nat) (unsynced : List Nat), powered s →
    let s1 := noteUnsynced unsynced s.dev
    let at_ (d : Dev) : Dev := match pickParent s1 none with
      | some q => { d with fabric.parent := some q, fabric.holdover := false }
      | none => d
    let off : Int := (((t2 : Int) - t1) - ((t4 : Int) - t3)) / 2
    exec (.timeSyncExchange t1 t4 (t2, t3) unsynced) s = .next { s with dev := at_ (
      if s.dev.fabric.coord = s.dev.fabric.root ∨ s.dev.fabric.parent = none then s1
      else if s.dev.fabric.locked = false ∧ s.dev.power.ready = false then
        { s1 with fabric.locked := true, clock.offset := s.dev.clock.offset + off }
      else { s1 with fabric.locked := true, fabric.slew := off }) }) ∧
  ∀ (s : State) (q : Nat), powered s → s.dev.granary.stalls = [] → s.dev.fabric.parent = some q →
    match pickParent s.dev (some q) with
    | some p => exec .timeParentLoss s = .next { s with dev := { s.dev with fabric.parent := some p } }
    | none => acts .timeParentLoss s fun d => d.fabric = { s.dev.fabric with parent := none, holdover := true } ∧
        (s.dev.hub.hardHalted = false → recorded s.dev d 0x852 (.port q) 0) ∧ d.mem = s.dev.mem

/-- COLL and the messages, deadlines and failures of its instance. COLL of a member that roots none of its segments reads
its places and makes its part, PRESENT at once where it has no segment; acknowledgements of all segments make it
PRESENT. A root keeps a place's segment, in its staging area while an earlier place is missing. The coordinator counts a first PRESENT and at the deadline closes the mask
over the members present, with the AND of flags and OR of CARRIED. A BARRIER's mask ends it ST_OK, ST_PARTIAL or
ST_NO_CONTRIBUTORS. A result is written at its segment's offset, and no other byte. FAIL_NS without mask or result
ends it ST_FABRIC_UNREACHABLE. (R325, R327, R328, R330) -/
def Obligations.Collectives : Prop :=
  (∀ (s : State) (n : OpName) (o : Op) (port : Nat) (g : Group), atWork s → quietMemory s.dev → collAt s.dev n port o →
    getGroup s.dev (collName s.dev o).group = some g → g.late = false → s.dev.fabric.parts = [] → g.coord ≠ g.me s.dev →
    (∀ k, k < o.collSegs → k % g.members.length ≠ g.me s.dev) →
    (∀ k, k < g.members.length → k ≠ g.me s.dev → routable s.dev (g.coordOf k) 2 = true) → g.coord < g.members.length →
    let inF := o.f 60 2
    let own := (g.placesOf (g.me s.dev)).length
    let place (k : Nat) : Nat := o.f 48 8 + k * o.f 56 4
    let len := packedBytes (fmtOf inF).code o.collCount
    (∀ k, k < own → memClear s.dev (place k) len) →
    acts (.coll n.ring n.seq) s fun d => issuedOp d n = some { o with done := 1 } ∧ d.mem = s.dev.mem ∧
      let idle := o.collSegs * own == 0
      d.fabric.parts = [{ op := n, inst := collName s.dev o, segments := o.collSegs * own, present := idle,
                          presentAt := if idle then deviceTime s.dev else 0,
                          values := (List.range own).map fun k => (List.range o.collCount).map fun i =>
                            collElem inF (o.f 62 2) (cellsRead s.dev.mem.cells (place k) len) i }]) ∧
  (∀ (s : State) (n : OpName) (o : Op) (p : MemberPart) (g : Group) (count : Nat), atWork s → collRuns s.dev n o p g →
    g.coord ≠ g.me s.dev → p.present = false →
    let acked := min p.segments (p.acked + count)
    acts (.segmentAckReceived n.ring n.seq count) s fun d => d.mem = s.dev.mem ∧
      d.fabric.parts = [if acked < p.segments then { p with acked := acked }
        else { p with acked := acked, present := true, presentAt := deviceTime s.dev }] ∧
      (acked < p.segments → { d with fabric.parts := s.dev.fabric.parts } = s.dev)) ∧
  (∀ (s : State) (x : SegMsg) (g : Group), atWork s → getGroup s.dev x.inst.group = some g → s.dev.steps.oldest ≤ x.inst.step.toNat →
    x.segment % max 1 g.members.length = g.me s.dev → x.place < g.places → s.dev.fabric.parts = [] → s.dev.fabric.coordinators = [] →
    (∀ r ∈ s.dev.fabric.roots, r.inst ≠ x.inst ∧ s.dev.steps.oldest ≤ r.inst.step.toNat) → plainMemory s.dev →
    s.dev.granary.stalls = [] →
    acts (.segmentReceived x) s fun d => (x.place = 0 → d.mem = s.dev.mem) ∧
      (∀ z, ¬(g.stageAddr ≤ z ∧ z < g.stageAddr + g.stageBytes) → byteAt d z = byteAt s.dev z) ∧ d.steps = s.dev.steps ∧
      d.fabric.roots = s.dev.fabric.roots ++ [{ inst := x.inst, segment := x.segment, count := x.count, seg := x.seg, kind := x.kind,
                                                inFmt := x.inFmt, outFmt := x.outFmt, got := [(x.place, x.elems)] }]) ∧
  (∀ (s : State) (x : PresentMsg) (g : Group), atWork s → getGroup s.dev x.inst.group = some g → g.coord = g.me s.dev →
    x.member < g.members.length → 2 ≤ g.members.length → 0 < g.windowNs → x.mismatch = none →
    (∀ c ∈ s.dev.fabric.coordinators, c.inst ≠ x.inst) →
    exec (.presentReceived x) s = .next { s with dev := { s.dev with fabric.coordinators := s.dev.fabric.coordinators ++
      [{ inst := x.inst, t0 := deviceTime s.dev, present := [(x.member, x.flag, x.carried)] }] } }) ∧
  (∀ (s : State) (inst : CollName) (c : Coordinator) (g : Group), atWork s → plainMemory s.dev → getGroup s.dev inst.group = some g →
    s.dev.fabric.coordinators = [c] → c.inst = inst → c.closed = none →
    if c.t0 + g.windowNs ≤ deviceTime s.dev then
      acts (.collDeadline inst) s fun d => (d.fabric.coordinators.map (·.closed)) = [some
        { inst := inst, flags := c.present.all fun x => x.2.1, carryIn := c.present.any fun x => x.2.2, atDeadline := true,
          mismatch := c.mismatch,
          places := ((List.range g.members.length).filter fun k => c.present.any fun x => x.1 == k).flatMap g.placesOf }]
    else exec (.collDeadline inst) s = .next s) ∧
  (∀ (s : State) (n : OpName) (o : Op) (p : MemberPart) (g : Group) (m : MaskMsg), atWork s → collRuns s.dev n o p g → p.mask = none →
    m.inst = p.inst → s.dev.fabric.roots = [] → o.f 80 8 = 0 → o.f 88 8 = 0 → m.mismatch = none → m.carryIn = false →
    let low := leNat ((placeMask g.places m.places).take 8)
    (o.collKind = 3 → acts (.maskReceived m) s fun d => d.mem = s.dev.mem ∧
      (if g.places ≤ m.places.length then ended d n 0x00 0
       else if m.atDeadline = true ∧ m.places = g.placesOf (g.me s.dev) then ended d n 0x41 low
       else ended d n 0x01 low)) ∧
    (neededResults s.dev o g m ≠ [] → p.results = [] → acts (.maskReceived m) s fun d => issuedOp d n = some o ∧
      d.fabric.parts = [{ p with mask := some m, maskAt := deviceTime s.dev }] ∧ d.mem = s.dev.mem)) ∧
  (∀ (s : State) (n : OpName) (o : Op) (p : MemberPart) (g : Group) (x : ResultMsg), atWork s → quietMemory s.dev →
    collRuns s.dev n o p g → x.inst = p.inst → p.mask = none →
    let a := (if o.collKind = 2 then o.f 64 8 + x.place * o.f 72 4 else o.f 64 8) + elemOffset (o.f 62 2) (x.segment * o.collSeg)
    memClear s.dev a x.data.length →
    acts (.resultReceived x) s fun d => bytesStored s.dev d a x.data ∧
      d.fabric.parts = [{ p with results := p.results ++ [(x.segment, if o.collKind = 2 then x.place else 0)] }] ∧
      { d with fabric.parts := s.dev.fabric.parts, hub.rings := s.dev.hub.rings, counters := s.dev.counters,
               mem.cells := s.dev.mem.cells } = s.dev) ∧
  ∀ (s : State) (n : OpName) (o : Op) (p : MemberPart) (g : Group), atWork s → collRuns s.dev n o p g → p.present = true ∨ p.mask ≠ none →
    if (if p.mask.isSome then p.maskAt else p.presentAt) + g.failNs ≤ deviceTime s.dev then
      acts (.collFailTimeout n.ring n.seq) s fun d => ended d n 0x3A 0 ∧ d.mem = s.dev.mem
    else exec (.collFailTimeout n.ring n.seq) s = .next s

/-- DM_COPY, DM_FILL, recalibration, patrol scrubbing and ECS counts. A DM_COPY whose rows lie in memory without error and
do not overlap writes each source row at its destination row, DM_FILL the pattern from each row's first byte; every
other byte is kept, and the operation ends ST_OK. Eight older operations hold one up. A recalibration of a due channel is recorded and stamps it with time
and temperature; a second failure in a row fails the channel. A scrub writes back a corrected word and leaves an
uncorrectable one, recording each; a clean word changes nothing, and a pass that ends is recorded; the same in a firmware
area, but for what is not guarded there. ECS counts are kept, each change reported with the count. (R341, R342, R343, R345) -/
def Obligations.DataMoverAndMemory : Prop :=
  (∀ (s : State) (n : OpName) (o : Op) (die : Nat) (word : Nat), atWork s → quietMemory s.dev →
    let len := o.f 48 4
    let rows := if len = 0 then 0 else o.f 52 4
    let src (i : Nat) : Nat := o.f 32 8 + i * o.f 56 4
    let dst (i : Nat) : Nat := o.f 40 8 + i * o.f 60 4
    let rowOf (x : Nat) : Option Nat := (List.range rows).find? fun i => decide (dst i ≤ x) && decide (x < dst i + len)
    let moved (d : Dev) : Prop := ended d n 0x00 0 ∧
      { d with hub.rings := s.dev.hub.rings, counters := s.dev.counters, mem.cells := s.dev.mem.cells } = s.dev
    (rows ≤ 1 ∨ len ≤ o.f 60 4) → (∀ i, i < rows → memClear s.dev (dst i) len) →
    (moverAt s.dev 0x0801 n die o → (∀ i, i < rows → memClear s.dev (src i) len) →
      (∀ i j, i < rows → j < rows → src i + len ≤ dst j ∨ dst j + len ≤ src i) →
      acts (.dmCopy n.ring n.seq .clean word) s fun d => moved d ∧ ∀ x, byteAt d x = match rowOf x with
        | some i => byteAt s.dev (src i + (x - dst i))
        | none => byteAt s.dev x) ∧
    (moverAt s.dev 0x0802 n die o →
      acts (.dmFill n.ring n.seq) s fun d => moved d ∧ ∀ x, byteAt d x = match rowOf x with
        | some i => BitVec.ofNat 8 (o.f (64 + (x - dst i) % 8) 1)
        | none => byteAt s.dev x)) ∧
  (∀ (s : State) (n : OpName) (o : Op) (die : Nat) (transit : Transit) (word : Nat), atWork s → issuedOp s.dev n = some o →
    ringTarget s.dev n.ring = some (.mover die) → 8 ≤ ((issuedTo s.dev (.mover die)).takeWhile fun e => !(e.1 == n.ring && e.2.seq == n.seq)).length →
    exec (.dmCopy n.ring n.seq transit word) s = .next s ∧ exec (.dmFill n.ring n.seq) s = .next s) ∧
  (∀ (s : State) (die mc ch : Nat) (ok : Bool), powered s → s.dev.hub.hardHalted = false → die < 2 → mc < 12 → ch < 4 →
    firmwareRuns s.dev die = true → mc ∈ goodControllers s.dev die →
    let key := 48 * die + 4 * mc + ch
    let c := tgetD s.dev.mem.channels key {}
    let temp := s.dev.power.gddrTemp.getD (12 * die + mc) 0
    if c.failed = false ∧ recalDue s.dev key temp = true then
      acts (.gddrRecal die mc ch ok) s fun d =>
        d.mem = { s.dev.mem with
          forced := s.dev.mem.forced.erase key
          channels := tput s.dev.mem.channels key (if ok then { at_ := deviceTime s.dev, temp := temp }
            else { c with fails := c.fails + 1, failed := decide (1 ≤ c.fails) }) } ∧
        (ok = true ∨ c.fails = 0 → recorded s.dev d 0x462 (.mc die mc) 0) ∧
        (ok = false → 1 ≤ c.fails → tgetD d.owl.events 0xC61 0 = tgetD s.dev.owl.events 0xC61 0 + 1)
    else exec (.gddrRecal die mc ch ok) s = .next s) ∧
  (∀ (s : State) (w : Nat) (fl : BitVec 144), powered s → s.dev.hub.hardHalted = false → w < 2 ^ 44 →
    inOwnMemory s.dev (16 * w) 16 = true → accessFault s.dev (16 * w) 16 false = none →
    (s.dev.mem.flips = [] ∨ ∃ y, s.dev.mem.flips = [(w, y)]) →
    let x := tgetD s.dev.mem.flips w 0 ^^^ fl
    let src := wordSource s.dev (16 * w)
    (x = 0 → acts (.scrubPatrol w fl false) s fun d => d = { s.dev with mem.flips := [] }) ∧
    (x = 0 → acts (.scrubPatrol w fl true) s fun d => recorded s.dev d 0x463 src 0 ∧ d.mem = { s.dev.mem with flips := [] }) ∧
    (0 < weight x → weight x ≤ 2 → acts (.scrubPatrol w fl false) s fun d => recorded s.dev d 0x460 src (16 * w) ∧
      d.mem.cells = s.dev.mem.cells ∧ d.mem.flips = []) ∧
    (checkWord (wordData s.dev w) x = .uncorrectable → acts (.scrubPatrol w fl false) s fun d => recorded s.dev d 0xC60 src (16 * w) ∧
      d.mem.cells = s.dev.mem.cells ∧ d.mem.flips = [(w, x)])) ∧
  (∀ (s : State) (line : Nat) (fl : BitVec 144), powered s → s.dev.hub.hardHalted = false → line < 2 ^ 40 →
    accessFault s.dev (512 * line) 512 false = none → 0 < weight fl →
    (weight fl ≤ 2 → acts (.scrubPatrol (2 ^ 49 + line) fl false) s fun d =>
      recorded s.dev d 0x460 (wordSource s.dev (512 * line)) (2 ^ 60 + 512 * line) ∧ d.mem = s.dev.mem) ∧
    (checkWord 0 fl = .uncorrectable → acts (.scrubPatrol (2 ^ 49 + line) fl false) s fun d =>
      recorded s.dev d 0xC60 (wordSource s.dev (512 * line)) (2 ^ 60 + 512 * line) ∧ d.mem.cells = s.dev.mem.cells ∧
      ∀ w, 32 * line ≤ w → w < 32 * line + 32 → wordCheck d w = .uncorrectable)) ∧
  (∀ (s : State) (place : Nat) (fl : BitVec 144), powered s → s.dev.hub.hardHalted = false → place < 2 ^ 32 →
    (s.dev.mem.flips = [] ∨ ∃ y, s.dev.mem.flips = [(2 ^ 50 + place, y)]) →
    let x := tgetD s.dev.mem.flips (2 ^ 50 + place) 0 ^^^ fl
    let src : Source := .mc (place / 2 ^ 26 / 12) (place / 2 ^ 26 % 12)
    if areaGuarded s.dev place then
      (0 < weight x → weight x ≤ 2 → acts (.scrubPatrol (2 ^ 50 + place) fl false) s fun d =>
        recorded s.dev d 0x460 src (3 * 2 ^ 60 + place % 2 ^ 26) ∧ d.mem = { s.dev.mem with flips := [] }) ∧
      (checkWord 0 x = .uncorrectable → acts (.scrubPatrol (2 ^ 50 + place) fl false) s fun d =>
        recorded s.dev d 0xC60 src (3 * 2 ^ 60 + place % 2 ^ 26) ∧ d.mem = { s.dev.mem with flips := [(2 ^ 50 + place, x)] })
    else exec (.scrubPatrol (2 ^ 50 + place) fl false) s = .next s) ∧
  ∀ (s : State) (counts : List Nat), powered s →
    let now := (List.range 24).map fun i => counts.getD i (s.dev.mem.ecs.getD i 0)
    (∀ i, i < 24 → now = s.dev.mem.ecs.set i (now.getD i 0) → now ≠ s.dev.mem.ecs → s.dev.mem.ecs.length = 24 →
      acts (.gddrEcsRead counts) s fun d => recorded s.dev d 0x464 (.mc (i / 12) (i % 12)) (now.getD i 0)) ∧
    acts (.gddrEcsRead counts) s fun d => d.mem = { s.dev.mem with ecs := now } ∧
      tgetD d.owl.events 0x464 0 = tgetD s.dev.owl.events 0x464 0 +
        ((List.range 24).filter fun i => now.getD i 0 != s.dev.mem.ecs.getD i 0).length

/-- Snapshots: arming, pages taken and acknowledged, failure and the seal. A GR_SNAPSHOT of an idle Granary arms its step,
joins the armed snapshot of the same step, ends ST_BAD_DESCRIPTOR below the oldest open step, and else waits. A
SNAP_REQ arms, re-arms at the lower step, or is held. A page taken is digested and lies in the store, and the engine's
pointer moves past one that a stalled write waited for; memory is kept.
An acknowledged page is marked, and the last one begins the seal. A page without acknowledgement for 1 ms fails the
snapshot. The seal commits the slot under the next GEN, keeps the other slot's record and the device's memory, and
ends the waiting operation ST_OK with the pages copied and GEN. (R355, R356, R357, R358, R360, R361, R365) -/
def Obligations.Snapshots : Prop :=
  (∀ (s : State) (n : OpName) (o : Op), atWork s → granaryAt s.dev 0x0701 n o →
    let g := s.dev.granary
    let step := if o.f 32 8 = 2 ^ 64 - 1 then s.dev.steps.oldest else o.f 32 8
    acts (.grSnapshot n.ring n.seq) s fun d => d.mem = s.dev.mem ∧
      if step < s.dev.steps.oldest then ended d n 0x20 0 ∧ d.granary = g
      else if g.st = .idle ∧ s.dev.seq.migration = none then
        issuedOp d n = some { o with done := 1 } ∧ d.granary = { g with st := .armed, step := step, byOwl := false, waiters := [n] }
      else if g.st = .armed ∧ g.step = step then
        issuedOp d n = some { o with done := 1 } ∧ d.granary = { g with waiters := g.waiters ++ [n] }
      else issuedOp d n = some { o with starting := false, stallFrom := some (o.stallFrom.getD (deviceTime s.dev)) } ∧ d.granary = g) ∧
  (∀ (s : State) (t : W64), atWork s →
    let g := s.dev.granary
    let late := t.toNat < s.dev.steps.oldest
    let step := max t.toNat s.dev.steps.oldest
    if g.cfg = none then exec (.snapReqReceived t) s = .next s
    else acts (.snapReqReceived t) s fun d => d.mem = s.dev.mem ∧ (late → recorded s.dev d 0x870 (.ctl 0) 0) ∧
      d.granary = match g.st with
        | .idle => if s.dev.seq.migration.isSome then { g with heldStep := some (min (g.heldStep.getD step) step) }
            else { g with st := .armed, step := step, byOwl := false, waiters := [] }
        | .armed => { g with step := min g.step step }
        | _ => { g with heldStep := some (min (g.heldStep.getD step) step) }) ∧
  (∀ (s : State) (die k : Nat) (p : Page), atWork s → s.dev.granary.st = .copying → storeOpen s.dev → nextPage s.dev die = some k →
    s.dev.granary.pages[k]? = some p → (s.dev.granary.pages.filter fun x => x.die == die && x.sentAt.isSome && !x.acked).length < 32 →
    memClear s.dev p.addr p.bytes → (∀ x ∈ s.dev.granary.pages, x.addr + x.bytes ≤ 0x300000000000) →
    let b := cellsRead s.dev.mem.cells p.addr p.bytes
    let at_ := slotOff s.dev s.dev.granary.slot + s.dev.granary.slotSize - 65536 * s.dev.granary.nPages + 65536 * p.index
    at_ + 65536 ≤ 2 ^ 36 →
    acts (.pageTaken die) s fun d => d.mem.cells = s.dev.mem.cells ∧ d.mem.host = s.dev.mem.host ∧
      cellsRead d.mem.remote (peerKey s.dev (storeAddr s.dev at_)) 65536 = slice b 0 65536 ∧
      d.granary.st = .copying ∧ d.granary.pagePtr = (match stalledPage s.dev die with
        | none => s.dev.granary.pagePtr
        | some i => modAt s.dev.granary.pagePtr die fun _ => (i + 1) % (engineList s.dev die).length) ∧
      d.granary.pages = s.dev.granary.pages.set k
        { p with taken := true, sentAt := some (deviceTime s.dev), digest := shake256 b }) ∧
  (∀ (s : State) (die k : Nat) (p : Page), atWork s → s.dev.granary.st = .copying → s.dev.granary.pages[k]? = some p →
    p.die = die → p.sentAt.isSome = true →
    let pages := s.dev.granary.pages.set k { p with acked := true }
    acts (.pageAck die k) s fun d => d.granary = { s.dev.granary with
      pages := pages, st := if pages.all (fun x => x.taken && x.acked) then .sealing else .copying } ∧
      { d with granary := s.dev.granary, fabric.requests := s.dev.fabric.requests } = s.dev) ∧
  (∀ (s : State) (die k t : Nat) (p : Page), atWork s → s.dev.granary.pages[k]? = some p → p.sentAt = some t →
    s.dev.granary.heldTrigger = false → s.dev.granary.heldStep = none →
    if s.dev.granary.st = .copying ∧ p.die = die ∧ p.acked = false ∧ t + 1000000 ≤ deviceTime s.dev then
      acts (.snapshotAckTimeout die k) s fun d => d.mem = s.dev.mem ∧ d.granary.st = .idle ∧ d.granary.pages = [] ∧
        (s.dev.granary.slot < s.dev.granary.written.length → d.granary.written[s.dev.granary.slot]? = some none) ∧
        (s.dev.granary.waiters = [] → recorded s.dev d 0xC70 (.ctl 0) 0) ∧
        ∀ n o, s.dev.granary.waiters = [n] → issuedOp s.dev n = some o → ended d n 0x3A 0
    else exec (.snapshotAckTimeout die k) s = .next s) ∧
  ∀ (s : State), atWork s →
    let g := s.dev.granary
    (g.st ≠ .sealing → exec .seal s = .next s) ∧
    (g.st = .sealing → storeOpen s.dev → g.heldTrigger = false → g.heldStep = none → g.slot < 2 → g.pages.length = g.nPages → g.wcAddr = 0 →
      0x10000 + 2 * g.slotSize ≤ 2 ^ 36 →
      let gen := max (storedGen s.dev 0).gen (storedGen s.dev 1).gen + 1
      acts .seal s fun d => d.mem.cells = s.dev.mem.cells ∧ d.mem.host = s.dev.mem.host ∧ d.granary.st = .idle ∧
        d.granary.lastCut = some g.step ∧
        (let r := genRecord (cellsRead d.mem.remote (peerKey s.dev (storeAddr s.dev (256 * g.slot))) 256)
         r.committed = true ∧ r.gen = gen % 2 ^ 64 ∧ r.step = g.step % 2 ^ 64 ∧
         r.root = generationRoot (regionRoots g.regions.length g.pages) r.stateDigest) ∧
        cellsRead d.mem.remote (peerKey s.dev (storeAddr s.dev (256 * (1 - g.slot)))) 256 = storeRead s.dev (256 * (1 - g.slot)) 256 ∧
        (g.byOwl = true → g.waiters = [] → recorded s.dev d 0x470 (.ctl 0) (gen + 2 ^ 64 * g.step)) ∧
        ∀ n o, g.waiters = [n] → issuedOp s.dev n = some o →
          ended d n 0x00 ((g.pages.filter fun x => x.sentAt.isSome).length % 2 ^ 32 + 2 ^ 32 * (gen % 2 ^ 32)))

/-- Restore, verification, export, the weight census and the Owl. GR_RESTORE ends ST_BAD_DESCRIPTOR with code 2
without a committed slot, or the refusal's code (1, of a busy device, comes at issue); a generation whose digests fit is written into
place, and its STEP + 1 is the oldest open step. GR_VERIFY writes nothing and ends with the sections that differ, and
the first bad region. GR_EXPORT writes 128 bytes a region. GR_WCENSUS does nothing on other steps; an owner records
its next version's digest under APPLY. A replica whose digest fits the owner's entry, once fetched, is recorded, or waits while
that is behind; a retry asks for the entry again. The Owl updates
counters and estimate each millisecond, and triggers, holds or rearms. (R363, R364, R366, R367, R368, R371, R372,
R373, R376) -/
def Obligations.RestoreVerifyExportAndOwl : Prop :=
  (∀ (s : State) (n : OpName) (o : Op), atWork s → granaryAt s.dev 0x0702 n o → privileged n.ring = true →
    (storeOpen s.dev → namedSlot o (storedGen s.dev 0, storedGen s.dev 1) = none →
      acts (.grRestore n.ring n.seq) s fun d => ended d n 0x20 2 ∧ d.mem = s.dev.mem ∧ d.steps = s.dev.steps) ∧
    ∀ g, (namedGeneration s.dev n o).2 = .ok g →
      (∀ c, restoreRefusal s.dev (o.f 32 1 % 4) g = some c → acts (.grRestore n.ring n.seq) s fun d =>
        ended d n 0x20 c ∧ d.mem = s.dev.mem ∧ d.steps = s.dev.steps) ∧
      (let data (i : Nat) : Nat := dataOff s.dev g + 65536 * g.firstPage i
       let num := numOf (g.sections.getD 0 [])
       restoreRefusal s.dev (o.f 32 1 % 4) g = none → storeOpen s.dev → regionsClear s.dev g → shake256 g.area = g.record.stateDigest →
       scriptsOk g = true → g.rootsOk = true → num.shardAddr = 0 → s.dev.granary.wcAddr = 0 →
       (∀ i, i < g.regions.length → data i + g.length i ≤ 2 ^ 36 ∧ badPage g i (storeRead s.dev (data i) (g.length i)) = none) →
       (∀ i j, i < j → j < g.regions.length → g.dest i + g.length i ≤ g.dest j ∨ g.dest j + g.length j ≤ g.dest i) →
       acts (.grRestore n.ring n.seq) s fun d => ended d n 0x00 g.record.gen ∧ d.steps.oldest = g.record.step + 1 ∧
         d.steps.opened = List.replicate 4 {} ∧ d.steps.silent = [] ∧ d.steps.num = num ∧ d.granary.written = [none, none] ∧
         d.hub.bells = s.dev.hub.bells ∧ d.threshers = s.dev.threshers ∧
         (∀ i, i < g.regions.length → cellsRead d.mem.cells (g.dest i) (g.length i) = storeRead s.dev (data i) (g.length i)) ∧
         ∀ x, (∀ i, i < g.regions.length → ¬(g.dest i ≤ x ∧ x < g.dest i + g.length i)) → byteAt d x = byteAt s.dev x)) ∧
  (∀ (s : State) (n : OpName) (o : Op), atWork s → granaryAt s.dev 0x0703 n o → storeOpen s.dev →
    (namedSlot o (storedGen s.dev 0, storedGen s.dev 1) = none → acts (.grVerify n.ring n.seq) s fun d =>
      ended d n 0x20 0 ∧ d.mem = s.dev.mem) ∧
    ∀ g, (namedGeneration s.dev n o).2 = .ok g →
      let data (i : Nat) : Nat := dataOff s.dev g + 65536 * g.firstPage i
      (∀ i, i < g.regions.length → data i + g.length i ≤ 2 ^ 36) →
      acts (.grVerify n.ring n.seq) s fun d => d.mem = s.dev.mem ∧
        if slotBusy s.dev g.slot = true then ended d n 0x20 0
        else match (List.range g.regions.length).find? fun i => (badPage g i (storeRead s.dev (data i) (g.length i))).isSome with
          | some i => ended d n 0x50 (sectionBits s.dev g + 2 ^ 32 * i)
          | none => if g.rootsOk = true ∧ shake256 g.area = g.record.stateDigest then ended d n 0x00 (sectionBits s.dev g)
              else ended d n 0x50 (sectionBits s.dev g + 2 ^ 32 * 0xFFFFFFFF)) ∧
  (∀ (s : State) (n : OpName) (o : Op) (g : Generation), atWork s → granaryAt s.dev 0x0705 n o → storeOpen s.dev →
    s.dev.granary.st = .idle → (namedGeneration s.dev n o).2 = .ok g → memClear s.dev (o.f 40 8) (128 * g.regions.length) →
    acts (.grExport n.ring n.seq) s fun d => ended d n 0x00 g.regions.length ∧
      bytesStored s.dev d (o.f 40 8) ((List.range g.regions.length).flatMap (exportRecord s.dev g))) ∧
  (∀ (s : State) (n : OpName) (o : Op), atWork s → granaryAt s.dev 0x0704 n o →
    (censusStep s.dev (o.f 32 8) = false → acts (.grWcensus n.ring n.seq) s fun d => ended d n 0x00 0 ∧
      { d with hub.rings := s.dev.hub.rings } = s.dev) ∧
    ∀ (i : Nat) (e : Bytes) (st : StepState) (apply : Bool), censusStep s.dev (o.f 32 8) = true → memoryWf s.dev.mem = true →
      s.dev.granary.st = .idle → (validShards s.dev).2 = .ok [(i, e)] → bit (fld e 26 1) 1 = true →
      stepState s.dev (o.f 32 8) = some st → st.decision = some apply →
      let w := wcEntry s.dev i
      s.dev.granary.wcAddr ≠ 0 → memClear s.dev w 64 → memClear s.dev (nextBuf e) (fld e 16 8) →
      leNat (cellsRead s.dev.mem.cells w 8) ≠ fld e 32 8 →
      acts (.grWcensus n.ring n.seq) s fun d => ended d n 0x00 o.tallyCount ∧ cellsRead d.mem.cells w 8 = leBytes 8 (o.f 32 8) ∧
        bit (byteAt d (w + 52)).toNat 2 = !apply ∧
        cellsRead d.mem.cells (w + 8) 32 =
          (if apply then (bufferDigest s.dev n (nextBuf e) (fld e 16 8)).2.toOption.getD [] else cellsRead s.dev.mem.cells (w + 8) 32) ∧
        ∀ x, x < w ∨ w + 64 ≤ x → byteAt d x = byteAt s.dev x) ∧
  (∀ (s : State) (n : OpName) (o : Op) (t : Nat), atWork s → issuedOp s.dev n = some o → o.opcode = 0x0704 → o.sendFrom = some t →
    (deviceTime s.dev < t + 1000 → exec (.wcensusRetry n.ring n.seq) s = .next s) ∧
    (∀ since, o.stallFrom = some since → stallLogs (fun n => .wcensusStall n.ring n.seq) 0x871 s n o since) ∧
    ∀ (i : Nat) (e : Bytes) (st : StepState), t + 1000 ≤ deviceTime s.dev → o.fetched = [] → awaits s.dev n = false →
      (validShards s.dev).2 = .ok [(i, e)] → o.done = 1 → bit (fld e 26 1) 1 = false →
      stepState s.dev (o.f 32 8) = some st → st.decision = some true →
      let w := wcEntry s.dev i
      let owner : W16 := BitVec.ofNat 16 (fld e 28 2 % 2 ^ 15)
      memClear s.dev w 64 → routable s.dev owner = true →
      acts (.wcensusRetry n.ring n.seq) s fun d => (issuedOp d n).map (·.sendFrom) = some none ∧ d.mem = s.dev.mem ∧
        ∃ q ∈ d.fabric.requests, q.op = n ∧ q.dest = owner ∧ q.read = true ∧ q.len = 64 ∧
          q.key = remoteKey owner (leNat (cellsRead s.dev.mem.cells (w + 40) 8))) ∧
  (∀ (s : State) (n : OpName) (o : Op) (die i : Nat) (e : Bytes) (st : StepState), atWork s → issuedOp s.dev n = some o →
    o.opcode = 0x0704 → ringTarget s.dev n.ring = some (.granary die) → o.sendFrom = none → memoryWf s.dev.mem = true → s.dev.granary.st = .idle → (validShards s.dev).2 = .ok [(i, e)] → o.done = 1 →
    bit (fld e 26 1) 1 = false → stepState s.dev (o.f 32 8) = some st → st.decision = some true →
    let w := wcEntry s.dev i
    let owner : W16 := BitVec.ofNat 16 (fld e 28 2 % 2 ^ 15)
    let key := remoteKey owner (leNat (cellsRead s.dev.mem.cells (w + 40) 8))
    let theirs := cellsRead s.dev.mem.remote key 64
    memClear s.dev w 64 → memClear s.dev (nextBuf e) (fld e 16 8) → routable s.dev owner = true → o.fetched = [(key, 64, 9)] →
    (fld theirs 0 8 < o.f 32 8 → acts (.grWcensus n.ring n.seq) s fun d =>
      (issuedOp d n).map (·.sendFrom) = some (some (deviceTime s.dev)) ∧ d.mem = s.dev.mem) ∧
    (fld theirs 0 8 = o.f 32 8 → o.f 32 8 < 2 ^ 64 - 1 → bit (fld theirs 52 1) 2 = false →
      (bufferDigest s.dev n (nextBuf e) (fld e 16 8)).2 = .ok (slice theirs 8 32) →
      acts (.grWcensus n.ring n.seq) s fun d => ended d n 0x00 o.tallyCount ∧
        bytesStored s.dev d w (leBytes 8 (o.f 32 8) ++ slice theirs 8 32))) ∧
  ∀ (s : State), atWork s →
    let a := s.dev.owl
    let ms := deviceTime s.dev / 1000000
    if ms ≤ a.lastEval then exec .owlEvaluate s = .next s
    else acts .owlEvaluate s fun d => d.mem = s.dev.mem ∧ d.owl.lastEval = ms ∧ d.owl.rules = a.rules ∧
      d.owl.estimate = min 1023 (d.owl.counters.foldl (· + ·) 0 / 256) ∧
      (∀ (i : Nat) (r : W64) (c : Nat), a.rules[i]? = some r → a.counters[i]? = some c →
        let weight := bits r.toNat 31 14
        let decay := bits r.toNat 36 32
        let halved (x : Nat) : Nat := if decay ≠ 31 ∧ ms % 2 ^ decay = 0 then x / 2 else x
        (bits r.toNat 13 12 = 1 → d.owl.counters[i]? = some (halved (min 261888 (c + weight * tgetD a.events (bits r.toNat 11 0) 0)))) ∧
        (bits r.toNat 13 12 = 2 → d.owl.counters[i]? = some
          (if (bits r.toNat 47 40 : Int) ≤ s.dev.power.tileTemp.foldl max (s.dev.power.tileTemp.headD 0) then weight else 0))) ∧
      let due := a.held || (decide (a.snapAt ≤ d.owl.estimate) && a.armed)
      let inGap := match a.lastCut with
        | none => false
        | some t => decide (deviceTime s.dev < t + a.minGapMs * 1000000)
      if due = false then d.granary = s.dev.granary ∧ d.owl.held = a.held ∧ d.owl.armed = (a.armed || decide (d.owl.estimate < a.rearm)) ∧
        d.tally = s.dev.tally
      else if inGap = true then d.granary = s.dev.granary ∧ d.owl.held = true ∧ d.owl.armed = a.armed ∧ d.tally = s.dev.tally
      else d.owl.held = false ∧ d.owl.armed = decide (d.owl.estimate < a.rearm) ∧ tgetD d.owl.events 0x473 0 = 1 ∧
        d.granary =
          (let g := s.dev.granary
           if g.cfg = none then g
           else if g.st ≠ .idle ∨ s.dev.seq.migration.isSome then { g with heldTrigger := true }
           else { g with heldTrigger := false, st := .armed, step := s.dev.steps.oldest + 2, byOwl := true, waiters := [] })

/-- Mailboxes: the doorbell, acceptance, refusals, completion and the reports. A RING write with bit 0 makes a mailbox
BUSY and its response buffer unspecified; one to a BUSY mailbox is recorded and one without bit 0 or without firmware
does nothing. A command whose request is not accepted next changes nothing; one that fails a check of R383 is answered
with that refusal and changes nothing else. MBX_COMPLETE writes header and body, makes STATE DONE, counts it and
raises vector 1 + m; an unknown code is answered so. NOP and each report answer OK with what the tables say and change
nothing else, but that page 0 of MB_TELEMETRY starts the peak anew. (R381, R382, R383, R390, R391, R396, R399, R318,
R363, 15 Table 15.7, 16 Table 16.9) -/
def Obligations.MailboxProtocol : Prop :=
  (∀ (s : State) (m : Nat) (v : W32) (b : Mailbox), powered s → s.dev.iabor.mbx[m]? = some b →
    if v.getLsbD 0 = false ∨ b.st = .noFirmware then exec (.mbxDoorbellRing m v) s = .next s
    else if b.st = .busy then acts (.mbxDoorbellRing m v) s fun d => onlyReports s.dev { d with hub.dropped := s.dev.hub.dropped } ∧
      (s.dev.hub.hardHalted = false → recorded s.dev d 0x805 .hostLink 0) ∧ d.iabor = s.dev.iabor
    else acts (.mbxDoorbellRing m v) s fun d => ∃ r : Bytes, r.length = 4096 ∧
      d = { s.dev with draws := s.dev.draws + 4096
                       iabor.mbx := s.dev.iabor.mbx.set m
                         { b with st := .busy, ringTick := cycle s.dev, answer := none, resp := r } }) ∧
  (∀ (s : State) (i : Instr) (m : Nat) (c : MbCmd), powered s → mbxRow i = some (m, c) →
    ((∀ b, accepting s.dev m = some b → b.code ≠ c.code) → exec i s = .next s) ∧
    ∀ b r, accepting s.dev m = some b → b.code = c.code →
      checkRequest c { s.dev with iabor.pointer := (m + 1) % 8 } b = .error r →
      exec i s = .next { s with dev := answered s.dev m b r }) ∧
  (∀ (c : MbCmd) (d : Dev) (b : Mailbox),
    (romServes d = true → c.code ∉ [0x0001, 0x0002, 0x0010, 0x0011] → checkRequest c d b = .error (mbEnd 0xC)) ∧
    (romServes d = false → d.power.ready = false → c.code ∉ [0x0001, 0x0002, 0x0013, 0x0901] →
      checkRequest c d b = .error (mbEnd 5 0xFE)) ∧
    (earlyRefusal d c.code = none → b.length ≠ bodyLength (c.fields (slice b.req 16 4080)) →
      checkRequest c d b = .error (mbEnd 2 (bodyLength (c.fields (slice b.req 16 4080))))) ∧
    (earlyRefusal d c.code = none → b.length = bodyLength (c.fields (slice b.req 16 4080)) → zeroAt b.req 8 8 = false →
      checkRequest c d b = .error (mbEnd 3 0xFFFF))) ∧
  (∀ (s : State) (m : Nat) (b : Mailbox), powered s → s.dev.iabor.mbx[m]? = some b →
    let done (d : Dev) (r : MbxResponse) : Prop :=
      d.iabor.mbx = s.dev.iabor.mbx.set m { b with
        st := .done, doneCount := b.doneCount + 1, answer := none
        resp := splice b.resp 0 (leBytes 2 b.code ++ leBytes 2 r.body.length ++ leBytes 4 b.tag ++ leBytes 2 r.result.toNat ++
          leBytes 2 0 ++ leBytes 4 r.detail.toNat ++ r.body) } ∧
      (if s.dev.host.msixEnable = true ∧ s.dev.host.msixMask = false ∧ (tgetD s.dev.host.msix (1 + m) {}).masked = false then
        d.out.msix = s.dev.out.msix ++ [1 + m] ∧ d.host = s.dev.host
       else 1 + m < 2048 → (1 + m) ∈ d.host.pending ∧ d.out = s.dev.out) ∧ d.mem = s.dev.mem ∧ d.hub = s.dev.hub
    (∀ r, b.answer = some r → b.st = .busy → r.held = false → (s.dev.looms.find? fun e => e.2.loading.any fun x => x.mbx == m) = none →
      acts (.mbxComplete m) s fun d => done d r) ∧
    (∀ r, b.answer = some r → b.st ≠ .busy ∨ r.held = true → exec (.mbxComplete m) s = .next s) ∧
    (accepting s.dev m = some b → b.code ∉ mbCodes →
      acts (.mbxComplete m) s fun d => done d (mbEnd (if romServes s.dev then 0xC else 1)) ∧ d.iabor.pointer = (m + 1) % 8)) ∧
  (mbxResult (fun m => .mbNop m) mbNop (fun _ d => d) fun _ _ => mbOk) ∧
  (∀ (s : State) (m : Nat) (b : Mailbox) (body : Bytes), powered s → mbxAsks s.dev mbDeviceInfo m b body →
    acts (.mbDeviceInfo m) s fun d => ∃ slot svn version : Nat,
      responds d m (mbOk (leBytes 4 llIdent ++ leBytes 4 0 ++ leBytes 8 Config.ident.toNat ++ leBytes 1 slot ++ leBytes 1 (fwFloor s.dev) ++
        leBytes 2 0 ++ leBytes 4 version ++ leBytes 1 svn)) ∧
      (romServes s.dev = false → slot = s.dev.iabor.running ∧ svn = (fwSlot s.dev slot).svn ∧ version = (fwSlot s.dev slot).version.toNat) ∧
      onlyReports s.dev { d with draws := s.dev.draws }) ∧
  (mbxResult (fun m => .mbFwStatus m) mbFwStatus (fun _ d => d) fun _ d => mbOk ((List.range 2).flatMap fun k =>
    let x := fwSlot d k
    leBytes 1 x.st ++ leBytes 1 x.svn ++ leBytes 1 (ofBool x.preferred) ++ leBytes 1 0 ++ leBytes 4 x.version.toNat ++ leBytes 8 0)) ∧
  (mbxResult (fun m => .mbIdentCert m) mbIdentCert (fun _ d => d) fun b _ =>
    let part := (Config.certChain.drop (fld b 0 4)).take 4064
    mbOk (leBytes 4 Config.certChain.length ++ leBytes 4 part.length ++ part)) ∧
  (mbxResult (fun m => .mbAttest m) mbAttest (fun _ d => d) fun b d =>
    let r := attestReport d (slice b 0 32) (slice b 32 32)
    mbOk (r ++ slice (Config.attestSignature r) 0 114)) ∧
  (mbxResult (fun m => .mbFabStatus m) mbFabStatus (fun _ d => d) fun _ d => mbOk ((List.range 6).flatMap (portRecord d))) ∧
  (mbxResult (fun m => .mbOwlStatus m) mbOwlStatus (fun _ d => d) fun _ d =>
    mbOk (leBytes 2 d.owl.estimate ++ leBytes 6 0 ++ d.owl.counters.flatMap (leBytes 4))) ∧
  mbxResult (fun m => .mbTelemetry m) mbTelemetry (fun b d => if fld b 0 1 = 0 then { d with power.peakMw := 0 } else d) fun b d =>
    mbOk (if fld b 0 1 = 0 then powerPage d else mapPage d)

/-- Firmware: staging, activation and its end, commit, and sanitising. MB_FW_STAGE of an image that passes the checks
writes the other slot STAGED, or empties it where the flash fails, and of another answers its refusal and changes
nothing. MB_FW_ACTIVATE of a sound slot begins a switch and holds its mailbox. FW_READY within 2 s runs the new image
on TRIAL and answers the time, FW_ACTIVATE_TIMEOUT after them, or on refusal, keeps the old one and answers FAILED.
MB_FW_COMMIT commits the image, prefers it, and blows fuses up to its SVN. MB_SANITISE clears memory, images, tables,
programs and the program log. (R389, R390, R392, R393, R394, R400) -/
def Obligations.MailboxFirmware : Prop :=
  (∀ (s : State) (m : Nat) (ok : Bool) (b : Mailbox) (body img : Bytes), powered s → s.dev.mem.flips = [] →
    mbxAsks s.dev (mbFwStage ok) m b body → (readImage s.dev 0 (fld body 0 8) 1280 fun _ => fld body 8 4).2 = .ok img →
    let k := 1 - s.dev.iabor.running
    let x := img.take (fld body 8 4)
    let staged (o : FwSlot) : FwSlot :=
      { st := 1, preferred := o.preferred && o.st == 3, svn := fld x 12 1, version := BitVec.ofNat 32 (fld x 8 4), manifest := slice x 0 1280 }
    acts (.mbFwStage m ok) s fun d => match imageRefused s.dev x with
      | some r => uncounted (answered s.dev m b r) d
      | none =>
        if ok = false then uncounted (answered { s.dev with flash.slots := modAt s.dev.flash.slots k fun _ => {} } m b (mbEnd 9)) d
        else uncounted (answered { s.dev with flash.slots := modAt s.dev.flash.slots k staged }
          m b (mbOk (leBytes 1 k ++ leBytes 1 (fld x 12 1) ++ leBytes 2 0 ++ leBytes 4 (fld x 8 4)))) d) ∧
  (∀ (s : State) (m : Nat) (b : Mailbox) (body : Bytes), powered s → mbxAsks s.dev mbFwActivate m b body →
    exec (.mbFwActivate m) s = .next { s with dev := match slotFault s.dev (fld body 0 1) with
      | some r => answered s.dev m b r
      | none => answered { s.dev with iabor.activation := some { mbx := m, slot := fld body 0 1, since := deviceTime s.dev } } m b mbHeld }) ∧
  (∀ (s : State) (a : Activation) (b : Mailbox), powered s → s.dev.iabor.activation = some a → s.dev.iabor.mbx[a.mbx]? = some b →
    b.answer = some mbHeld → b.st = .busy → a.slot < s.dev.flash.slots.length →
    (if deviceTime s.dev ≤ a.since + 2000000000 then acts .fwReady s fun d =>
        d.iabor.activation = none ∧ d.iabor.running = a.slot ∧ d.iabor.up = true ∧ (fwSlot d a.slot).st = 2 ∧
        (∀ k, k ≠ a.slot → fwSlot d k = fwSlot s.dev k) ∧ responds d a.mbx (mbOk (leBytes 8 (deviceTime s.dev))) ∧
        d.power.noFw = (s.dev.power.noFw && !(romServes s.dev)) ∧
        { d with iabor := s.dev.iabor, flash := s.dev.flash, power.noFw := s.dev.power.noFw, power.phase := s.dev.power.phase } = s.dev
      else exec .fwReady s = .next s) ∧
    ∀ refused, if refused = true ∨ a.since + 2000000000 ≤ deviceTime s.dev then acts (.fwActivateTimeout refused) s fun d =>
        d.iabor.activation = none ∧ d.iabor.running = s.dev.iabor.running ∧ d.flash = s.dev.flash ∧
        responds d a.mbx (mbEnd 9 (if refused then 2 else 1)) ∧ (s.dev.hub.hardHalted = false → recorded s.dev d 0xC80 (.core 0 1) 0)
      else exec (.fwActivateTimeout refused) s = .next s) ∧
  (∀ (s : State) (m blown : Nat) (b : Mailbox) (body : Bytes), powered s → mbxAsks s.dev (mbFwCommit blown) m b body →
    s.dev.flash.slots.length = 2 → s.dev.iabor.running < 2 →
    let k := s.dev.iabor.running
    let x := fwSlot s.dev k
    let old := fwFloor s.dev
    let need := if bit (fld body 0 1) 0 then x.svn - old else 0
    old + need ≤ 64 →
    acts (.mbFwCommit m blown) s fun d => fwFloor d = old + min need blown ∧
      (fwSlot d k) = (if x.st = 2 then { x with st := 3, preferred := true } else x) ∧
      (let o := fwSlot s.dev (1 - k)
       let drop := o.st != 0 && o.st != 4 && decide (o.svn < fwFloor d)
       fwSlot d (1 - k) = { o with preferred := o.preferred && x.st != 2, st := if drop then 4 else o.st } ∧
       responds d m (if min need blown < need then mbEnd 9 else mbOk (leBytes 1 (fwFloor d) ++ leBytes 1 (ofBool drop)))) ∧
      { d with iabor := s.dev.iabor, flash := s.dev.flash } = s.dev) ∧
  ∀ (s : State) (m : Nat) (b : Mailbox) (body : Bytes), powered s → s.dev.granary.st ≠ .copying → mbxAsks s.dev mbSanitise m b body →
    acts (.mbSanitise m) s fun d => (∀ a, byteAt d a = 0) ∧ (∀ e ∈ d.mem.flips, 2 ^ 50 ≤ e.1) ∧
      (∀ t e, (getLoom d t e).images = []) ∧ (∀ t, (getBadger d t).programs = [] ∧ (getBadger d t).tables = []) ∧
      (∀ t ∈ d.threshers, t.programs = [] ∧ t.vocabs = []) ∧ d.iabor.programLog = List.replicate 32 0 ∧
      responds d m (mbOk (leBytes 8 (sanitisedBytes s.dev))) ∧ d.hub = s.dev.hub ∧ d.mem.host = s.dev.mem.host ∧ d.fabric = s.dev.fabric

/-- Mailbox commands that set: rings, chutes, tables, numerics, stages, streams, routes, memory, Owl, power. Each command,
once its request passes the checks, changes exactly the setting that Table 15.7 gives it to what the fields of its
body say, answers OK with the response that the table gives, and changes nothing else: a ring, a chute, a table, the
numerical settings, a stage, the offload pools, a migration, a stream, a batch class, exception entries, a group
cleared, a channel forced, SCRUB_HOURS, the host map, a lend, a borrow, the Owl, the power limit, the training record,
the Tally's freed records, a counter. MB_STEP_CLEAR clears the flag of an undecided step with cause 4, and is late
elsewhere. (R43, R30, R210, R235, R237, R259, R270, R320, R346, R348, R362, R438) -/
def Obligations.MailboxSettings : Prop :=
  (mbxResult (fun m => .mbRingCreate m) mbRingCreate 
    (fun b d =>
      let r : Ring := { base := fld b 8 8, log2len := fld b 4 1, target := fld b 2 2 % 4096, vector := fld b 6 2
                        waitLimit := if fld b 16 2 = 0 then 100 else fld b 16 2 }
      { d with hub.rings := tput d.hub.rings (fld b 0 2) r }) fun _ _ => mbOk) ∧
  (mbxResult (fun m => .mbChuteBind m) mbChuteBind 
    (fun b d =>
      let q : Chute := { producer := fld b 2 1, depth := fld b 3 1, slotKib := fld b 4 2, offset := fld b 8 4
                         stallMs := if fld b 12 4 = 0 then 100 else fld b 12 4 }
      { d with chutes := tput d.chutes (16 * fld b 0 1 + fld b 1 1) q }) fun _ _ => mbOk) ∧
  (mbxResult (fun m => .mbChuteUnbind m) mbChuteUnbind
    (fun b d => { d with chutes := tdel d.chutes (16 * fld b 0 1 + fld b 1 1) }) fun _ _ => mbOk) ∧
  (mbxResult (fun m => .mbBadgerTable m) mbBadgerTable
    (fun b d =>
      let x := getBadger d (fld b 0 1)
      let y := { x with tables := if fld b 8 4 = 0 then tdel x.tables (fld b 1 1) else tput x.tables (fld b 1 1) (slice b 8 128) }
      { d with badgers := tput d.badgers (fld b 0 1) y }) fun _ _ => mbOk) ∧
  (mbxResult (fun m => .mbNumConfig m) mbNumConfig
    (fun b d => { d with
      steps.num := numOfRequest b d.steps.num
      steps.policyLogged := []
      steps.closed := if (numOfRequest b d.steps.num).censusAddr = d.steps.num.censusAddr then d.steps.closed else [] }) fun _ _ => mbOk) ∧
  (∀ (s : State) (m : Nat) (b : Mailbox) (body : Bytes), powered s → mbxAsks s.dev mbStepClear m b body →
    let step := fld body 0 8
    acts (.mbStepClear m) s fun d => d.mem = s.dev.mem ∧ d.hub.rings = s.dev.hub.rings ∧
      match stepState s.dev step with
      | none => responds d m (mbOk [0]) ∧ recorded s.dev d 0x820 .hub 0 ∧ d.steps = s.dev.steps
      | some st =>
        if st.decision.isSome = true ∨ st.deciding.isSome = true ∨ st.healthSent = true then
          responds d m (mbOk [0]) ∧ recorded s.dev d 0x820 .hub 0 ∧ stepState d step = some { st with lateClear := true }
        else responds d m (mbOk [1]) ∧
          if st.flag = true then recorded s.dev d 0x420 .hub 0 ∧ stepState d step = some { st with
            flag := false, cause := 4, clearRing := 0xFFFFFFFF, clearSeq := 0xFFFFFFFF, clearAt := some (cycle s.dev) }
          else stepState d step = some { st with clearAt := some (cycle s.dev) }) ∧
  (mbxResult (fun m => .mbStageBind m) mbStageBind
    (fun b d =>
      let x : Stage := { tile := fld b 1 1, rings := (List.range (min 8 (fld b 2 1))).map fun k => fld b (4 + 2 * k) 2 }
      { d with seq.stages := tput d.seq.stages (fld b 0 1) x }) fun _ _ => mbOk) ∧
  (mbxResult (fun m => .mbStageUnbind m) mbStageUnbind
    (fun b d =>
      let d1 := match d.seq.migration with
        | some g => if g.stage = fld b 0 1 then answerMbx { d with seq.migration := none } g.mbx (mbEnd 9) else d
        | none => d
      { d1 with seq.stages := tdel d.seq.stages (fld b 0 1) }) fun _ _ => mbOk) ∧
  (mbxResult (fun m => .mbSeqConfig m) mbSeqConfig
    (fun b d => { d with seq.pools := [(fld b 0 8, fld b 8 8), (fld b 16 8, fld b 24 8)] }) fun _ _ => mbOk) ∧
  (∀ (s : State) (m : Nat) (b : Mailbox) (body : Bytes), powered s → mbxAsks s.dev mbStageMigrate m b body →
    let g : Migration :=
      { stage := fld body 0 1, dest := fld body 1 1, retire := bit (fld body 2 1) 0, phase := .drain, since := deviceTime s.dev, mbx := m }
    exec (.mbStageMigrate m) s = .next { s with dev := answered { s.dev with seq.migration := some g } m b mbHeld }) ∧
  (mbxResult (fun m => .mbThStream m) mbThStream
    (fun b d =>
      let f (t : Thresher) : Thresher :=
        { t with streams := tput t.streams (fld b 2 2) (streamOf b), skipping := t.skipping.erase (fld b 2 2) }
      if bit (fld b 1 1) 0 then d else { d with threshers := modAt d.threshers (fld b 0 1) f })
    fun b _ => mbOk (leBytes 8 (Config.workBytes (fld b 4 1) (fld b 32 2) (fld b 34 2)).toNat)) ∧
  (mbxResult (fun m => .mbThClass m) mbThClass
    (fun b d =>
      let left := ((tget (getTh d (fld b 0 1)).classes (fld b 1 1)).map (·.batches)).getD []
      let f (t : Thresher) : Thresher := { t with classes := tput t.classes (fld b 1 1) { classOfRequest b with batches := left } }
      { d with threshers := modAt d.threshers (fld b 0 1) f })
    fun b _ => mbOk (leBytes 4 (classOfRequest b).slotBytes)) ∧
  (mbxResult (fun m => .mbFabRoute m) mbFabRoute
    (fun b d =>
      let put (t : Table W64) (k : Nat) : Table W64 := tputD t (fld b 0 1 + k) (BitVec.ofNat 64 (fld b (8 + 8 * k) 8)) 0
      { d with fabric.exceptions := (List.range (fld b 1 1)).foldl put d.fabric.exceptions }) fun _ _ => mbOk) ∧
  (mbxResult (fun m => .mbGroupClear m) mbGroupClear
    (fun b d => { d with fabric.groups := tdel d.fabric.groups (fld b 0 2) }) fun _ _ => mbOk) ∧
  (mbxResult (fun m => .mbMemRecal m) mbMemRecal
    (fun b d =>
      let k := 48 * fld b 0 1 + 4 * fld b 1 1 + fld b 2 1
      if (tgetD d.mem.channels k {}).failed then d else { d with mem.forced := k :: d.mem.forced.filter (· != k) }) fun _ _ => mbOk) ∧
  (mbxResult (fun m => .mbMemScrub m) mbMemScrub (fun b d => { d with mem.scrubHours := fld b 0 1 }) fun _ _ => mbOk) ∧
  (mbxResult (fun m => .mbMemHostmap m) mbMemHostmap
    (fun b d => { d with
      mem.hostTable := fld b 0 8
      mem.hostEntries := fld b 8 4
      mem.hostCells := d.mem.cells.filter fun c => decide (fld b 0 8 ≤ c.1 ∧ c.1 < fld b 0 8 + 8 * fld b 8 4) }) fun _ _ => mbOk) ∧
  (mbxResult (fun m => .mbMemLend m) mbMemLend
    (fun b d =>
      let x : Lend := { base := fld b 8 8, size := fld b 16 8, borrower := BitVec.ofNat 16 (fld b 2 2) }
      { d with fabric.lends := if fld b 16 8 = 0 then tdel d.fabric.lends (fld b 0 1) else tput d.fabric.lends (fld b 0 1) x }) fun _ _ => mbOk) ∧
  (mbxResult (fun m => .mbMemBorrow m) mbMemBorrow
    (fun b d =>
      let x : Borrow := { lender := BitVec.ofNat 16 (fld b 2 2), lend := fld b 4 1, size := fld b 8 8 }
      { d with fabric.borrows := if fld b 8 8 = 0 then tdel d.fabric.borrows (fld b 0 1) else tput d.fabric.borrows (fld b 0 1) x }) fun _ _ => mbOk) ∧
  (mbxResult (fun m => .mbOwlConfig m) mbOwlConfig
    (fun b d => { d with
      owl.snapAt := fld b 0 2
      owl.rearm := fld b 2 2
      owl.minGapMs := fld b 4 4
      owl.rules := (List.range 64).map fun k => BitVec.ofNat 64 (fld b (8 + 8 * k) 8)
      owl.counters := List.replicate 64 0 }) fun _ _ => mbOk) ∧
  (mbxResult (fun m => .mbPowerLimit m) mbPowerLimit
    (fun b d => { d with power.limitW := fld b 0 4, power.tauMs := fld b 4 4, power.tThrottle := fld b 8 1 })
    fun _ d => mbOk (leBytes 4 d.power.limitW ++ leBytes 4 d.power.tauMs)) ∧
  (∀ flashOk : Bool,
    let eff (b : Bytes) (d : Dev) : Dev :=
      if fld b 0 1 = 2 then d
      else if flashOk = false ∨ fld b 0 1 = 1 then { d with flash.trained := false }
      else { d with flash.trained := true, flash.trainedAt := deviceTime d }
    mbxResult (fun m => .mbTrainSave m flashOk) (mbTrainSave flashOk) eff fun b d =>
      if fld b 0 1 ≠ 2 ∧ flashOk = false then mbEnd 9
      else mbOk (leBytes 1 (ofBool (eff b d).flash.trained) ++ leBytes 7 0 ++ leBytes 8 (eff b d).flash.trainedAt ++
        leBytes 4 Config.trainRecordBytes.toNat)) ∧
  (mbxResult (fun m => .mbTallyRead m) mbTallyRead
    (fun b d => { d with tally := d.tally.set (fld b 0 1) ((d.tally.getD (fld b 0 1) {}).consume (fld b 16 8)) })
    fun b d =>
      let t := (d.tally.getD (fld b 0 1) {}).consume (fld b 16 8)
      let recs := ((t.recs.reverse.filter fun e => decide (max (fld b 8 8) t.oldest ≤ e.1)).take 126).map (·.2)
      mbOk (leBytes 8 t.oldest ++ leBytes 8 t.written ++ leBytes 8 recs.length ++ leBytes 8 0 ++ recs.flatMap TallyRec.bytes)) ∧
  mbxResult (fun m => .mbCounterSelect m) mbCounterSelect
    (fun b d =>
      let old := getCounter d (fld b 0 1) (fld b 1 1) (fld b 2 1)
      let sel := BitVec.ofNat 32 (fld b 4 4)
      let n := d.counters.next
      let ended := (windowNow d).any fun k => decide (n < k)
      let c : Counter :=
        if ended then { old with
          sel := sel, count := 0, valid := false, since := (windowNow d).getD 0, ahead := tdel old.ahead ((windowNow d).getD 0)
          changedAhead := (windowNow d).getD 0 :: old.changedAhead }
        else { value := old.value, partSel := old.partSel, sel := sel, changed := (windowNow d).isSome, since := n }
      if fld b 0 1 = 0 then { d with counters.tile := tput d.counters.tile (8 * fld b 1 1 + fld b 2 1) c }
      else { d with counters.die := tput d.counters.die (32 * fld b 1 1 + fld b 2 1) c })
    fun b d => mbOk (leBytes 8 (getCounter d (fld b 0 1) (fld b 1 1) (fld b 2 1)).count.toNat)

/-- Mailbox commands that load, destroy, train and switch. MB_RING_DESTROY answers the count of aborted operations at once
where none is in flight, else when the last has gone. A Loom slot is loading until its command completes. A Loom, pooling,
Sequencer, augmentation or vocabulary image without fault takes its slot and extends the program log; one with a fault is refused with its place and recorded. A
sound group record takes effect, one with a fault is refused with its number; so for the Granary. MB_TH_PORT trains a
stream port or switches it off, MB_FAB_CONFIG takes coordinates and retrains every port, MB_FAB_PORT trains, retrains
or disables one. MB_POWER_DOMAIN switches a domain, zeroing SRAM that was OFF. (R71, R183, R184, R217, R262, R283,
R302, R303, R315, R317, R325, R350) -/
def Obligations.MailboxLoads : Prop :=
  (∀ (s : State) (m : Nat) (b : Mailbox) (body : Bytes), powered s → mbxAsks s.dev mbRingDestroy m b body →
    let n := fld body 0 2
    (getRing s.dev n = none → exec (.mbRingDestroy m) s = .next { s with dev := answered s.dev m b (mbOk [0, 0, 0, 0]) }) ∧
    ∀ r, getRing s.dev n = some r → r.st ≠ .destroying → r.destroyers = [] → isMember s.dev n = false →
      s.dev.hub.rings.Pairwise (fun x y => x.1 < y.1) →
      let left := r.ops.filter Op.inFlight
      acts (.mbRingDestroy m) s fun d => d.mem = s.dev.mem ∧ (∀ k, k ≠ n → getRing d k = getRing s.dev k) ∧
        if left = [] then getRing d n = none ∧ responds d m (mbOk [0, 0, 0, 0])
        else responds d m mbHeld ∧ getRing d n = some { r with
          st := .destroying, destroyers := [m], abortedOps := left.length, ops := left.map (Op.abort (cycle s.dev) 0xF1) }) ∧
  (∀ (s : State) (m : Nat) (b : Mailbox) (body img : Bytes), powered s → s.dev.mem.flips = [] → mbxAsks s.dev mbLoomLoad m b body →
    (readImage s.dev 8 (fld body 8 8) 64 loomImageBytes).2 = .ok img →
    let t := fld body 0 1
    let e := fld body 1 1
    let slot := fld body 2 1
    let l := getLoom s.dev t e
    let load (image : Option (List W64 × List W16)) (fault : Nat) : Option LoomLoad := some {
      mbx := m, slot := slot, image := image, digest := slice img 32 32, fault := fault
      pages := if imageLength img ≤ 8192 then loomPages (imageLength img) else 0 }
    acts (.mbLoomLoad m) s fun d => d.mem = s.dev.mem ∧ otherLooms s.dev d t e ∧ match imageFault img with
      | some i => responds d m (mbEnd 6 i) ∧ getLoom d t e = { l with loading := load none i }
      | none => responds d m (mbOk (leBytes 1 (loomPages (imageLength img)))) ∧
        getLoom d t e = { l with loading := load (some (imageWords img, imageEntries img)) 0 }) ∧
  (∀ (s : State) (m : Nat) (b : Mailbox) (r : MbxResponse) (t e : Nat) (x : LoomLoad), powered s → s.dev.iabor.mbx[m]? = some b →
    b.st = .busy → b.answer = some r → r.held = false → loomExists t e = true → (getLoom s.dev t e).loading = some x → x.mbx = m →
    (∀ y ∈ s.dev.looms, y.1 ≠ loomIndex t e → ∀ z, y.2.loading = some z → z.mbx ≠ m) →
    let done (d : Dev) : Prop := (∃ y, d.iabor.mbx[m]? = some y ∧ y.st = .done) ∧ otherLooms s.dev d t e ∧ (getLoom d t e).loading = none
    (r.result = 6 → acts (.mbxComplete m) s fun d => done d ∧ recorded s.dev d 0x812 (.engine t e) x.fault ∧
      ∀ k, slotImage d t e k = slotImage s.dev t e k) ∧
    ∀ img, r.result = 0 → x.image = some img → acts (.mbxComplete m) s fun d => done d ∧
      slotImage d t e x.slot = some { id := (getLoom s.dev t e).nextImage + 1, slot := x.slot, instrs := img.1, entries := img.2 } ∧
      (∀ k, k ≠ x.slot → slotImage d t e k = slotImage s.dev t e k) ∧
      d.iabor.programLog = shake256 (s.dev.iabor.programLog ++ [1] ++ leBytes 2 t ++ leBytes 1 x.slot ++ x.digest) ∧
      (slotImage s.dev t e x.slot ≠ none → recorded s.dev d 0x410 (.engine t e) 0)) ∧
  (∀ (s : State) (m : Nat) (b : Mailbox) (body : Bytes), powered s → mbxAsks s.dev mbLoomUnload m b body →
    acts (.mbLoomUnload m) s fun d => responds d m mbOk ∧ slotImage d (fld body 0 1) (fld body 1 1) (fld body 2 1) = none ∧
      (∀ k, k ≠ fld body 2 1 → slotImage d (fld body 0 1) (fld body 1 1) k = slotImage s.dev (fld body 0 1) (fld body 1 1) k) ∧
      otherLooms s.dev d (fld body 0 1) (fld body 1 1) ∧
      { d with looms := s.dev.looms, iabor.mbx := s.dev.iabor.mbx, iabor.pointer := s.dev.iabor.pointer } = s.dev) ∧
  (∀ (s : State) (m : Nat) (b : Mailbox) (body img : Bytes), powered s → s.dev.mem.flips = [] → mbxAsks s.dev mbBadgerLoad m b body →
    (readImage s.dev 8 (fld body 8 8) 64 poolImageBytes).2 = .ok img →
    let t := fld body 0 1
    acts (.mbBadgerLoad m) s fun d => d.mem = s.dev.mem ∧ (∀ u, u ≠ t → getBadger d u = getBadger s.dev u) ∧ match poolFault img with
      | some i => responds d m (mbEnd 6 i) ∧ recorded s.dev d 0x813 (.engine t 0) 0 ∧ d.badgers = s.dev.badgers
      | none => responds d m mbOk ∧
        tget (getBadger d t).programs (fld body 2 1) =
          some { rows := poolWords img 0 (poolRowsOf img), bags := poolWords img (poolRowsOf img) (poolBagsOf img) } ∧
        { getBadger d t with programs := (getBadger s.dev t).programs } = getBadger s.dev t ∧
        d.iabor.programLog = shake256 (s.dev.iabor.programLog ++ [2] ++ leBytes 2 t ++ leBytes 1 (fld body 2 1) ++ slice img 32 32)) ∧
  (∀ (s : State) (m : Nat) (b : Mailbox) (body img : Bytes), powered s → s.dev.mem.flips = [] → mbxAsks s.dev mbSeqLoad m b body →
    (readImage s.dev 0 (fld body 0 8) 64 fun h => if seqHeaderOk h then seqBytes h else 64).2 = .ok img →
    let number := if s.dev.seq.scripts.any fun x => x.number == 0 then 1 else 0
    acts (.mbSeqLoad m) s fun d => d.mem = s.dev.mem ∧ match seqFault s.dev (bit (fld body 16 1) 0) img with
      | some i => responds d m (mbEnd 6 i) ∧ recorded s.dev d 0x830 .hub 0 ∧ d.seq = s.dev.seq
      | none => match scriptOf s.dev img (fld body 8 8) number with
        | .error i => responds d m (mbEnd 6 i) ∧ recorded s.dev d 0x830 .hub 0 ∧ d.seq = s.dev.seq
        | .ok _ => responds d m (mbOk (leBytes 1 number)) ∧
          (∃ y ∈ d.seq.scripts, y.number = number ∧ y.start = fld body 8 8 ∧ y.image = img ∧ y.digest = slice img 32 32) ∧
          d.iabor.programLog = shake256 (s.dev.iabor.programLog ++ [4] ++ [0, 0] ++ leBytes 1 number ++ slice img 32 32)) ∧
  (∀ (s : State) (m : Nat) (b : Mailbox) (body img : Bytes), powered s → s.dev.mem.flips = [] → mbxAsks s.dev mbThAugLoad m b body →
    s.dev.threshers.length = 2 → (readImage s.dev 8 (fld body 8 8) 64 fun h => 64 + 8 * fld h 4 1).2 = .ok img →
    let die := fld body 0 1
    acts (.mbThAugLoad m) s fun d => d.mem = s.dev.mem ∧ (∀ k, k ≠ die → getTh d k = getTh s.dev k) ∧ match augFault img with
      | some i => responds d m (mbEnd 6 i) ∧ recorded s.dev d 0x849 (.streamPort die) 0 ∧ d.threshers = s.dev.threshers
      | none => responds d m mbOk ∧ tget (getTh d die).programs (fld body 2 1) = some (augWords img) ∧
        d.iabor.programLog = shake256 (s.dev.iabor.programLog ++ [3] ++ leBytes 2 die ++ leBytes 1 (fld body 2 1) ++ slice img 32 32)) ∧
  (∀ (s : State) (m : Nat) (b : Mailbox) (body tbl : Bytes), powered s → s.dev.mem.flips = [] → mbxAsks s.dev mbThVocab m b body →
    s.dev.threshers.length = 2 → (readImage s.dev 8 (fld body 8 8) 1 fun _ => vocabBytes (fld body 16 4)).2 = .ok tbl →
    let die := fld body 0 1
    acts (.mbThVocab m) s fun d => d.mem = s.dev.mem ∧ (∀ k, k ≠ die → getTh d k = getTh s.dev k) ∧ match vocabFault tbl (fld body 16 4) with
      | some i => responds d m (mbEnd 6 i) ∧ recorded s.dev d 0x849 (.streamPort die) 0 ∧ d.threshers = s.dev.threshers
      | none => responds d m mbOk ∧ tget (getTh d die).vocabs (fld body 1 1) = some (vocabOf tbl (fld body 16 4)) ∧
        d.iabor.programLog = shake256 (s.dev.iabor.programLog ++ [5] ++ leBytes 2 die ++ leBytes 1 (fld body 1 1) ++ shake256 tbl)) ∧
  (∀ (s : State) (m : Nat) (b : Mailbox) (body : Bytes), powered s → mbxAsks s.dev mbGroupSet m b body →
    let a := fld body 0 8
    let h := cellsRead s.dev.mem.cells a 64
    let members := cellsRead s.dev.mem.cells (a + 64) (4 * fld h 2 2)
    inGddr s.dev a (64 + 4 * fld h 2 2) = true → memClear s.dev a (64 + 4 * fld h 2 2) →
    acts (.mbGroupSet m) s fun d => match groupFault s.dev h members with
      | some i => uncounted (answered s.dev m b (mbEnd 5 i)) d
      | none => uncounted (answered { s.dev with fabric.groups := tput s.dev.fabric.groups (fld h 0 2) (groupOf h members) } m b mbOk) d) ∧
  (∀ (s : State) (m : Nat) (b : Mailbox) (body : Bytes), powered s → mbxAsks s.dev mbGranaryConfig m b body →
    let n := fld body 4 4
    let tbl := cellsRead s.dev.mem.cells (fld body 8 8) (128 * n)
    let regions := (List.range n).map fun i => slice tbl (128 * i) 128
    let g := granaryConfigured s.dev (slice body 0 64) [] regions
    memClear s.dev (fld body 8 8) (128 * n) → s.dev.steps.num.shardAddr = 0 →
    acts (.mbGranaryConfig m) s fun d => match granaryFault s.dev (slice body 0 64) [] regions with
      | some i => uncounted (answered s.dev m b (mbEnd 5 i)) d
      | none => uncounted (answered { s.dev with granary := g } m b (mbOk (leBytes 8 g.slotSize))) d) ∧
  (∀ (s : State) (m trained : Nat) (b : Mailbox) (body : Bytes), powered s → mbxAsks s.dev (mbThPort trained) m b body →
    s.dev.threshers.length = 2 →
    let die := fld body 0 1
    let t := getTh s.dev die
    let n := if (List.range 8).all trained.testBit then 8 else if (List.range 4).all trained.testBit then 4 else 0
    let st := if n = 8 then 1 else if n = 4 then 2 else 0
    acts (.mbThPort m trained) s fun d =>
      if fld body 1 1 = 0 then
        threshSet s.dev d die { t with
          port := st, lanes := n, freed := 0, freedSent := 0, creditAt := deviceTime s.dev, timeAt := deviceTime s.dev
          samples := t.samples.map fun x => { x with blocks := 0 } } ∧
        responds d m (mbOk (leBytes 1 st ++ leBytes 1 n)) ∧ (n = 4 → recorded s.dev d 0x840 (.streamPort die) 0)
      else threshSet s.dev d die { t with port := 3, lanes := 0 } ∧ responds d m (mbOk [3, 0])) ∧
  (∀ (s : State) (m : Nat) (trained : List PortTrain) (b : Mailbox) (body : Bytes), powered s → mbxAsks s.dev (mbFabConfig trained) m b body →
    s.dev.fabric.ports.length = 6 → acts (.mbFabConfig m trained) s fun d => responds d m mbOk ∧ d.mem = s.dev.mem ∧
      d.fabric.coord = BitVec.ofNat 16 (fld body 0 2) ∧ d.fabric.root = BitVec.ofNat 16 (fld body 12 2) ∧
      d.fabric.dims = (List.range 3).map (fun k => fld body (2 + k) 1) ∧ d.fabric.dirs = (List.range 6).map (fun q => fld body (6 + q) 1) ∧
      ∀ q, q < 6 → (getPort d q).st = trainedState d q (trained.getD q noLanes) ∧ (getPort d q).retraining = false ∧
        (getPort d q).retrains = satInc (getPort s.dev q).retrains) ∧
  (∀ (s : State) (m : Nat) (t : PortTrain) (b : Mailbox) (body : Bytes), powered s → mbxAsks s.dev (mbFabPort t) m b body →
    s.dev.fabric.ports.length = 6 →
    let q := fld body 0 1
    let p := getPort s.dev q
    p.waiting = [] → acts (.mbFabPort m t) s fun d => d.mem = s.dev.mem ∧ (∀ k, k ≠ q → getPort d k = getPort s.dev k) ∧
      (getPort d q).retrains = p.retrains ∧ (getPort d q).replays = p.replays ∧
      if fld body 1 1 = 0 then responds d m (mbOk (portRecord d q)) ∧ (getPort d q).st = trainedState s.dev q t ∧
        (getPort d q).replay = [] ∧ (getPort d q).retraining = false
      else if fld body 1 1 = 1 then responds d m mbHeld ∧
        getPort d q = { p with retraining := true, mbx := some m, st := if p.replay = [] then 5 else p.st }
      else responds d m (mbOk (portRecord d q)) ∧ (getPort d q).st = 4 ∧ (getPort d q).replay = [] ∧ (getPort d q).retraining = false) ∧
  ∀ (s : State) (m : Nat) (b : Mailbox) (body : Bytes), powered s → s.dev.granary.st ≠ .copying → mbxAsks s.dev mbPowerDomain m b body →
    let n := fld body 0 2
    let st := fld body 2 1
    let old := (domainState s.dev n).code
    let answer := mbOk (leBytes 1 old ++ leBytes 3 0 ++ leBytes 4 (Config.transitionMicros n old st).toNat)
    let d0 := if domainState s.dev (64 + n) = .off ∧ st ≠ 0 then zeroTile s.dev n else s.dev
    let set2 := (s.dev.power.domains.set n (if st = 0 then .off else if st = 1 then .on else .retain)).set (64 + n) (if st = 0 then .off else .on)
    (n < 64 → exec (.mbPowerDomain m) s = .next { s with dev := answered { d0 with power.domains := set2 } m b answer }) ∧
    (64 ≤ n → n < 128 → acts (.mbPowerDomain m) s fun d => responds d m answer ∧
      (st = 0 → d.power.domains = (s.dev.power.domains.set (n - 64) .off).set n .off ∧ d.mem = s.dev.mem) ∧
      (st = 1 → domainState s.dev n = .off → d.power.domains = (s.dev.power.domains.set (n - 64) .retain).set n .on ∧
        ∀ a, sramBase (n - 64) ≤ a → a < sramBase (n - 64) + tileCapacity (n - 64) → byteAt d a = 0) ∧
      (st = 1 → domainState s.dev n ≠ .off → d.power = s.dev.power ∧ d.mem = s.dev.mem)) ∧
    (128 ≤ n → acts (.mbPowerDomain m) s fun d => responds d m answer ∧ d.mem = s.dev.mem ∧
      d.power.domains = s.dev.power.domains.set n (if st = 0 then .off else .on) ∧
      (st = 0 → 142 ≤ n → n < 144 → s.dev.threshers.length = 2 → (getTh d (n - 142)).port = 0))
end

