-- ==== Sys2Proof/Laws/Bytes.lean ====
section
/-! SUPPORT. Byte order: what writing and reading a little-endian field gives back. -/

namespace Sys2Proof.Machine

/-- An integer written as `n` bytes has `n` bytes. -/
@[simp] theorem leBytes_length (n v : Nat) : (leBytes n v).length = n := by
  induction n generalizing v with
  | zero => rfl
  | succ n ih => simp [leBytes, ih]

/-- The bytes of an integer read as the integer modulo 256^n (R6). -/
@[simp] theorem leNat_leBytes (n v : Nat) : leNat (leBytes n v) = v % 256 ^ n := by
  induction n generalizing v with
  | zero => simp [leBytes, leNat, Nat.mod_one]
  | succ n ih =>
    rw [leBytes, leNat, ih, BitVec.toNat_ofNat, show (256 : Nat) ^ (n + 1) = 256 * 256 ^ n by rw [Nat.pow_succ, Nat.mul_comm], Nat.mod_mul]

/-- The field that ends a list of bytes is the integer that was written there. -/
theorem fld_append (b : Bytes) (off n v : Nat) (h : b.length = off) : fld (b ++ leBytes n v) off n = v % 256 ^ n := by
  have e : List.take n (leBytes n v) = leBytes n v := List.take_of_length_le (by simp)
  simp [fld, slice, ← h, e]

/-- A slice has the length that was asked for. -/
@[simp] theorem slice_length (b : Bytes) (off n : Nat) : (slice b off n).length = n := by
  simp [slice]

end Sys2Proof.Machine
end

