-- ==== Sys2Proof/Laws/State.lean ====
section
/-! SUPPORT. What each update of the device leaves as it was: one lemma for each field and update. -/

namespace Sys2Proof.Machine

/-! ## modLoom -/

@[simp] theorem modLoom_clock (d : Dev) (tile eng : Nat) (f : Loom → Loom) : (modLoom d tile eng f).clock = d.clock := rfl
@[simp] theorem modLoom_power (d : Dev) (tile eng : Nat) (f : Loom → Loom) : (modLoom d tile eng f).power = d.power := rfl
@[simp] theorem modLoom_units (d : Dev) (tile eng : Nat) (f : Loom → Loom) : (modLoom d tile eng f).units = d.units := rfl
@[simp] theorem modLoom_flash (d : Dev) (tile eng : Nat) (f : Loom → Loom) : (modLoom d tile eng f).flash = d.flash := rfl
@[simp] theorem modLoom_host (d : Dev) (tile eng : Nat) (f : Loom → Loom) : (modLoom d tile eng f).host = d.host := rfl
@[simp] theorem modLoom_out (d : Dev) (tile eng : Nat) (f : Loom → Loom) : (modLoom d tile eng f).out = d.out := rfl
@[simp] theorem modLoom_tally (d : Dev) (tile eng : Nat) (f : Loom → Loom) : (modLoom d tile eng f).tally = d.tally := rfl
@[simp] theorem modLoom_counters (d : Dev) (tile eng : Nat) (f : Loom → Loom) : (modLoom d tile eng f).counters = d.counters := rfl
@[simp] theorem modLoom_iabor (d : Dev) (tile eng : Nat) (f : Loom → Loom) : (modLoom d tile eng f).iabor = d.iabor := rfl
@[simp] theorem modLoom_hub (d : Dev) (tile eng : Nat) (f : Loom → Loom) : (modLoom d tile eng f).hub = d.hub := rfl
@[simp] theorem modLoom_mills (d : Dev) (tile eng : Nat) (f : Loom → Loom) : (modLoom d tile eng f).mills = d.mills := rfl
@[simp] theorem modLoom_querns (d : Dev) (tile eng : Nat) (f : Loom → Loom) : (modLoom d tile eng f).querns = d.querns := rfl
@[simp] theorem modLoom_badgers (d : Dev) (tile eng : Nat) (f : Loom → Loom) : (modLoom d tile eng f).badgers = d.badgers := rfl
@[simp] theorem modLoom_chutes (d : Dev) (tile eng : Nat) (f : Loom → Loom) : (modLoom d tile eng f).chutes = d.chutes := rfl
@[simp] theorem modLoom_steps (d : Dev) (tile eng : Nat) (f : Loom → Loom) : (modLoom d tile eng f).steps = d.steps := rfl
@[simp] theorem modLoom_seq (d : Dev) (tile eng : Nat) (f : Loom → Loom) : (modLoom d tile eng f).seq = d.seq := rfl
@[simp] theorem modLoom_threshers (d : Dev) (tile eng : Nat) (f : Loom → Loom) : (modLoom d tile eng f).threshers = d.threshers := rfl
@[simp] theorem modLoom_fabric (d : Dev) (tile eng : Nat) (f : Loom → Loom) : (modLoom d tile eng f).fabric = d.fabric := rfl
@[simp] theorem modLoom_mem (d : Dev) (tile eng : Nat) (f : Loom → Loom) : (modLoom d tile eng f).mem = d.mem := rfl
@[simp] theorem modLoom_granary (d : Dev) (tile eng : Nat) (f : Loom → Loom) : (modLoom d tile eng f).granary = d.granary := rfl
@[simp] theorem modLoom_owl (d : Dev) (tile eng : Nat) (f : Loom → Loom) : (modLoom d tile eng f).owl = d.owl := rfl
@[simp] theorem modLoom_draws (d : Dev) (tile eng : Nat) (f : Loom → Loom) : (modLoom d tile eng f).draws = d.draws := rfl

/-! ## modRing -/

@[simp] theorem modRing_clock (d : Dev) (n : Nat) (f : Ring → Ring) : (modRing d n f).clock = d.clock := rfl
@[simp] theorem modRing_power (d : Dev) (n : Nat) (f : Ring → Ring) : (modRing d n f).power = d.power := rfl
@[simp] theorem modRing_units (d : Dev) (n : Nat) (f : Ring → Ring) : (modRing d n f).units = d.units := rfl
@[simp] theorem modRing_flash (d : Dev) (n : Nat) (f : Ring → Ring) : (modRing d n f).flash = d.flash := rfl
@[simp] theorem modRing_host (d : Dev) (n : Nat) (f : Ring → Ring) : (modRing d n f).host = d.host := rfl
@[simp] theorem modRing_out (d : Dev) (n : Nat) (f : Ring → Ring) : (modRing d n f).out = d.out := rfl
@[simp] theorem modRing_tally (d : Dev) (n : Nat) (f : Ring → Ring) : (modRing d n f).tally = d.tally := rfl
@[simp] theorem modRing_counters (d : Dev) (n : Nat) (f : Ring → Ring) : (modRing d n f).counters = d.counters := rfl
@[simp] theorem modRing_iabor (d : Dev) (n : Nat) (f : Ring → Ring) : (modRing d n f).iabor = d.iabor := rfl
@[simp] theorem modRing_mills (d : Dev) (n : Nat) (f : Ring → Ring) : (modRing d n f).mills = d.mills := rfl
@[simp] theorem modRing_looms (d : Dev) (n : Nat) (f : Ring → Ring) : (modRing d n f).looms = d.looms := rfl
@[simp] theorem modRing_querns (d : Dev) (n : Nat) (f : Ring → Ring) : (modRing d n f).querns = d.querns := rfl
@[simp] theorem modRing_badgers (d : Dev) (n : Nat) (f : Ring → Ring) : (modRing d n f).badgers = d.badgers := rfl
@[simp] theorem modRing_chutes (d : Dev) (n : Nat) (f : Ring → Ring) : (modRing d n f).chutes = d.chutes := rfl
@[simp] theorem modRing_steps (d : Dev) (n : Nat) (f : Ring → Ring) : (modRing d n f).steps = d.steps := rfl
@[simp] theorem modRing_seq (d : Dev) (n : Nat) (f : Ring → Ring) : (modRing d n f).seq = d.seq := rfl
@[simp] theorem modRing_threshers (d : Dev) (n : Nat) (f : Ring → Ring) : (modRing d n f).threshers = d.threshers := rfl
@[simp] theorem modRing_fabric (d : Dev) (n : Nat) (f : Ring → Ring) : (modRing d n f).fabric = d.fabric := rfl
@[simp] theorem modRing_mem (d : Dev) (n : Nat) (f : Ring → Ring) : (modRing d n f).mem = d.mem := rfl
@[simp] theorem modRing_granary (d : Dev) (n : Nat) (f : Ring → Ring) : (modRing d n f).granary = d.granary := rfl
@[simp] theorem modRing_owl (d : Dev) (n : Nat) (f : Ring → Ring) : (modRing d n f).owl = d.owl := rfl
@[simp] theorem modRing_draws (d : Dev) (n : Nat) (f : Ring → Ring) : (modRing d n f).draws = d.draws := rfl

/-! ## modOp -/

@[simp] theorem modOp_clock (d : Dev) (n : OpName) (f : Op → Op) : (modOp d n f).clock = d.clock := rfl
@[simp] theorem modOp_power (d : Dev) (n : OpName) (f : Op → Op) : (modOp d n f).power = d.power := rfl
@[simp] theorem modOp_units (d : Dev) (n : OpName) (f : Op → Op) : (modOp d n f).units = d.units := rfl
@[simp] theorem modOp_flash (d : Dev) (n : OpName) (f : Op → Op) : (modOp d n f).flash = d.flash := rfl
@[simp] theorem modOp_host (d : Dev) (n : OpName) (f : Op → Op) : (modOp d n f).host = d.host := rfl
@[simp] theorem modOp_out (d : Dev) (n : OpName) (f : Op → Op) : (modOp d n f).out = d.out := rfl
@[simp] theorem modOp_tally (d : Dev) (n : OpName) (f : Op → Op) : (modOp d n f).tally = d.tally := rfl
@[simp] theorem modOp_counters (d : Dev) (n : OpName) (f : Op → Op) : (modOp d n f).counters = d.counters := rfl
@[simp] theorem modOp_iabor (d : Dev) (n : OpName) (f : Op → Op) : (modOp d n f).iabor = d.iabor := rfl
@[simp] theorem modOp_mills (d : Dev) (n : OpName) (f : Op → Op) : (modOp d n f).mills = d.mills := rfl
@[simp] theorem modOp_looms (d : Dev) (n : OpName) (f : Op → Op) : (modOp d n f).looms = d.looms := rfl
@[simp] theorem modOp_querns (d : Dev) (n : OpName) (f : Op → Op) : (modOp d n f).querns = d.querns := rfl
@[simp] theorem modOp_badgers (d : Dev) (n : OpName) (f : Op → Op) : (modOp d n f).badgers = d.badgers := rfl
@[simp] theorem modOp_chutes (d : Dev) (n : OpName) (f : Op → Op) : (modOp d n f).chutes = d.chutes := rfl
@[simp] theorem modOp_steps (d : Dev) (n : OpName) (f : Op → Op) : (modOp d n f).steps = d.steps := rfl
@[simp] theorem modOp_seq (d : Dev) (n : OpName) (f : Op → Op) : (modOp d n f).seq = d.seq := rfl
@[simp] theorem modOp_threshers (d : Dev) (n : OpName) (f : Op → Op) : (modOp d n f).threshers = d.threshers := rfl
@[simp] theorem modOp_fabric (d : Dev) (n : OpName) (f : Op → Op) : (modOp d n f).fabric = d.fabric := rfl
@[simp] theorem modOp_mem (d : Dev) (n : OpName) (f : Op → Op) : (modOp d n f).mem = d.mem := rfl
@[simp] theorem modOp_granary (d : Dev) (n : OpName) (f : Op → Op) : (modOp d n f).granary = d.granary := rfl
@[simp] theorem modOp_owl (d : Dev) (n : OpName) (f : Op → Op) : (modOp d n f).owl = d.owl := rfl
@[simp] theorem modOp_draws (d : Dev) (n : OpName) (f : Op → Op) : (modOp d n f).draws = d.draws := rfl

/-! ## modTh -/

@[simp] theorem modTh_clock (d : Dev) (die : Nat) (f : Thresher → Thresher) : (modTh d die f).clock = d.clock := rfl
@[simp] theorem modTh_power (d : Dev) (die : Nat) (f : Thresher → Thresher) : (modTh d die f).power = d.power := rfl
@[simp] theorem modTh_units (d : Dev) (die : Nat) (f : Thresher → Thresher) : (modTh d die f).units = d.units := rfl
@[simp] theorem modTh_flash (d : Dev) (die : Nat) (f : Thresher → Thresher) : (modTh d die f).flash = d.flash := rfl
@[simp] theorem modTh_host (d : Dev) (die : Nat) (f : Thresher → Thresher) : (modTh d die f).host = d.host := rfl
@[simp] theorem modTh_out (d : Dev) (die : Nat) (f : Thresher → Thresher) : (modTh d die f).out = d.out := rfl
@[simp] theorem modTh_tally (d : Dev) (die : Nat) (f : Thresher → Thresher) : (modTh d die f).tally = d.tally := rfl
@[simp] theorem modTh_counters (d : Dev) (die : Nat) (f : Thresher → Thresher) : (modTh d die f).counters = d.counters := rfl
@[simp] theorem modTh_iabor (d : Dev) (die : Nat) (f : Thresher → Thresher) : (modTh d die f).iabor = d.iabor := rfl
@[simp] theorem modTh_hub (d : Dev) (die : Nat) (f : Thresher → Thresher) : (modTh d die f).hub = d.hub := rfl
@[simp] theorem modTh_mills (d : Dev) (die : Nat) (f : Thresher → Thresher) : (modTh d die f).mills = d.mills := rfl
@[simp] theorem modTh_looms (d : Dev) (die : Nat) (f : Thresher → Thresher) : (modTh d die f).looms = d.looms := rfl
@[simp] theorem modTh_querns (d : Dev) (die : Nat) (f : Thresher → Thresher) : (modTh d die f).querns = d.querns := rfl
@[simp] theorem modTh_badgers (d : Dev) (die : Nat) (f : Thresher → Thresher) : (modTh d die f).badgers = d.badgers := rfl
@[simp] theorem modTh_chutes (d : Dev) (die : Nat) (f : Thresher → Thresher) : (modTh d die f).chutes = d.chutes := rfl
@[simp] theorem modTh_steps (d : Dev) (die : Nat) (f : Thresher → Thresher) : (modTh d die f).steps = d.steps := rfl
@[simp] theorem modTh_seq (d : Dev) (die : Nat) (f : Thresher → Thresher) : (modTh d die f).seq = d.seq := rfl
@[simp] theorem modTh_fabric (d : Dev) (die : Nat) (f : Thresher → Thresher) : (modTh d die f).fabric = d.fabric := rfl
@[simp] theorem modTh_mem (d : Dev) (die : Nat) (f : Thresher → Thresher) : (modTh d die f).mem = d.mem := rfl
@[simp] theorem modTh_granary (d : Dev) (die : Nat) (f : Thresher → Thresher) : (modTh d die f).granary = d.granary := rfl
@[simp] theorem modTh_owl (d : Dev) (die : Nat) (f : Thresher → Thresher) : (modTh d die f).owl = d.owl := rfl
@[simp] theorem modTh_draws (d : Dev) (die : Nat) (f : Thresher → Thresher) : (modTh d die f).draws = d.draws := rfl

/-! ## modBadger -/

@[simp] theorem modBadger_clock (d : Dev) (tile : Nat) (f : Badger → Badger) : (modBadger d tile f).clock = d.clock := rfl
@[simp] theorem modBadger_power (d : Dev) (tile : Nat) (f : Badger → Badger) : (modBadger d tile f).power = d.power := rfl
@[simp] theorem modBadger_units (d : Dev) (tile : Nat) (f : Badger → Badger) : (modBadger d tile f).units = d.units := rfl
@[simp] theorem modBadger_flash (d : Dev) (tile : Nat) (f : Badger → Badger) : (modBadger d tile f).flash = d.flash := rfl
@[simp] theorem modBadger_host (d : Dev) (tile : Nat) (f : Badger → Badger) : (modBadger d tile f).host = d.host := rfl
@[simp] theorem modBadger_out (d : Dev) (tile : Nat) (f : Badger → Badger) : (modBadger d tile f).out = d.out := rfl
@[simp] theorem modBadger_tally (d : Dev) (tile : Nat) (f : Badger → Badger) : (modBadger d tile f).tally = d.tally := rfl
@[simp] theorem modBadger_counters (d : Dev) (tile : Nat) (f : Badger → Badger) : (modBadger d tile f).counters = d.counters := rfl
@[simp] theorem modBadger_iabor (d : Dev) (tile : Nat) (f : Badger → Badger) : (modBadger d tile f).iabor = d.iabor := rfl
@[simp] theorem modBadger_hub (d : Dev) (tile : Nat) (f : Badger → Badger) : (modBadger d tile f).hub = d.hub := rfl
@[simp] theorem modBadger_mills (d : Dev) (tile : Nat) (f : Badger → Badger) : (modBadger d tile f).mills = d.mills := rfl
@[simp] theorem modBadger_looms (d : Dev) (tile : Nat) (f : Badger → Badger) : (modBadger d tile f).looms = d.looms := rfl
@[simp] theorem modBadger_querns (d : Dev) (tile : Nat) (f : Badger → Badger) : (modBadger d tile f).querns = d.querns := rfl
@[simp] theorem modBadger_chutes (d : Dev) (tile : Nat) (f : Badger → Badger) : (modBadger d tile f).chutes = d.chutes := rfl
@[simp] theorem modBadger_steps (d : Dev) (tile : Nat) (f : Badger → Badger) : (modBadger d tile f).steps = d.steps := rfl
@[simp] theorem modBadger_seq (d : Dev) (tile : Nat) (f : Badger → Badger) : (modBadger d tile f).seq = d.seq := rfl
@[simp] theorem modBadger_threshers (d : Dev) (tile : Nat) (f : Badger → Badger) : (modBadger d tile f).threshers = d.threshers := rfl
@[simp] theorem modBadger_fabric (d : Dev) (tile : Nat) (f : Badger → Badger) : (modBadger d tile f).fabric = d.fabric := rfl
@[simp] theorem modBadger_mem (d : Dev) (tile : Nat) (f : Badger → Badger) : (modBadger d tile f).mem = d.mem := rfl
@[simp] theorem modBadger_granary (d : Dev) (tile : Nat) (f : Badger → Badger) : (modBadger d tile f).granary = d.granary := rfl
@[simp] theorem modBadger_owl (d : Dev) (tile : Nat) (f : Badger → Badger) : (modBadger d tile f).owl = d.owl := rfl
@[simp] theorem modBadger_draws (d : Dev) (tile : Nat) (f : Badger → Badger) : (modBadger d tile f).draws = d.draws := rfl

/-! ## modQuern -/

@[simp] theorem modQuern_clock (d : Dev) (tile : Nat) (f : Quern → Quern) : (modQuern d tile f).clock = d.clock := rfl
@[simp] theorem modQuern_power (d : Dev) (tile : Nat) (f : Quern → Quern) : (modQuern d tile f).power = d.power := rfl
@[simp] theorem modQuern_units (d : Dev) (tile : Nat) (f : Quern → Quern) : (modQuern d tile f).units = d.units := rfl
@[simp] theorem modQuern_flash (d : Dev) (tile : Nat) (f : Quern → Quern) : (modQuern d tile f).flash = d.flash := rfl
@[simp] theorem modQuern_host (d : Dev) (tile : Nat) (f : Quern → Quern) : (modQuern d tile f).host = d.host := rfl
@[simp] theorem modQuern_out (d : Dev) (tile : Nat) (f : Quern → Quern) : (modQuern d tile f).out = d.out := rfl
@[simp] theorem modQuern_tally (d : Dev) (tile : Nat) (f : Quern → Quern) : (modQuern d tile f).tally = d.tally := rfl
@[simp] theorem modQuern_counters (d : Dev) (tile : Nat) (f : Quern → Quern) : (modQuern d tile f).counters = d.counters := rfl
@[simp] theorem modQuern_iabor (d : Dev) (tile : Nat) (f : Quern → Quern) : (modQuern d tile f).iabor = d.iabor := rfl
@[simp] theorem modQuern_hub (d : Dev) (tile : Nat) (f : Quern → Quern) : (modQuern d tile f).hub = d.hub := rfl
@[simp] theorem modQuern_mills (d : Dev) (tile : Nat) (f : Quern → Quern) : (modQuern d tile f).mills = d.mills := rfl
@[simp] theorem modQuern_looms (d : Dev) (tile : Nat) (f : Quern → Quern) : (modQuern d tile f).looms = d.looms := rfl
@[simp] theorem modQuern_badgers (d : Dev) (tile : Nat) (f : Quern → Quern) : (modQuern d tile f).badgers = d.badgers := rfl
@[simp] theorem modQuern_chutes (d : Dev) (tile : Nat) (f : Quern → Quern) : (modQuern d tile f).chutes = d.chutes := rfl
@[simp] theorem modQuern_steps (d : Dev) (tile : Nat) (f : Quern → Quern) : (modQuern d tile f).steps = d.steps := rfl
@[simp] theorem modQuern_seq (d : Dev) (tile : Nat) (f : Quern → Quern) : (modQuern d tile f).seq = d.seq := rfl
@[simp] theorem modQuern_threshers (d : Dev) (tile : Nat) (f : Quern → Quern) : (modQuern d tile f).threshers = d.threshers := rfl
@[simp] theorem modQuern_fabric (d : Dev) (tile : Nat) (f : Quern → Quern) : (modQuern d tile f).fabric = d.fabric := rfl
@[simp] theorem modQuern_mem (d : Dev) (tile : Nat) (f : Quern → Quern) : (modQuern d tile f).mem = d.mem := rfl
@[simp] theorem modQuern_granary (d : Dev) (tile : Nat) (f : Quern → Quern) : (modQuern d tile f).granary = d.granary := rfl
@[simp] theorem modQuern_owl (d : Dev) (tile : Nat) (f : Quern → Quern) : (modQuern d tile f).owl = d.owl := rfl
@[simp] theorem modQuern_draws (d : Dev) (tile : Nat) (f : Quern → Quern) : (modQuern d tile f).draws = d.draws := rfl

/-! ## modPort -/

@[simp] theorem modPort_clock (d : Dev) (q : Nat) (f : Port → Port) : (modPort d q f).clock = d.clock := rfl
@[simp] theorem modPort_power (d : Dev) (q : Nat) (f : Port → Port) : (modPort d q f).power = d.power := rfl
@[simp] theorem modPort_units (d : Dev) (q : Nat) (f : Port → Port) : (modPort d q f).units = d.units := rfl
@[simp] theorem modPort_flash (d : Dev) (q : Nat) (f : Port → Port) : (modPort d q f).flash = d.flash := rfl
@[simp] theorem modPort_host (d : Dev) (q : Nat) (f : Port → Port) : (modPort d q f).host = d.host := rfl
@[simp] theorem modPort_out (d : Dev) (q : Nat) (f : Port → Port) : (modPort d q f).out = d.out := rfl
@[simp] theorem modPort_tally (d : Dev) (q : Nat) (f : Port → Port) : (modPort d q f).tally = d.tally := rfl
@[simp] theorem modPort_counters (d : Dev) (q : Nat) (f : Port → Port) : (modPort d q f).counters = d.counters := rfl
@[simp] theorem modPort_iabor (d : Dev) (q : Nat) (f : Port → Port) : (modPort d q f).iabor = d.iabor := rfl
@[simp] theorem modPort_hub (d : Dev) (q : Nat) (f : Port → Port) : (modPort d q f).hub = d.hub := rfl
@[simp] theorem modPort_mills (d : Dev) (q : Nat) (f : Port → Port) : (modPort d q f).mills = d.mills := rfl
@[simp] theorem modPort_looms (d : Dev) (q : Nat) (f : Port → Port) : (modPort d q f).looms = d.looms := rfl
@[simp] theorem modPort_querns (d : Dev) (q : Nat) (f : Port → Port) : (modPort d q f).querns = d.querns := rfl
@[simp] theorem modPort_badgers (d : Dev) (q : Nat) (f : Port → Port) : (modPort d q f).badgers = d.badgers := rfl
@[simp] theorem modPort_chutes (d : Dev) (q : Nat) (f : Port → Port) : (modPort d q f).chutes = d.chutes := rfl
@[simp] theorem modPort_steps (d : Dev) (q : Nat) (f : Port → Port) : (modPort d q f).steps = d.steps := rfl
@[simp] theorem modPort_seq (d : Dev) (q : Nat) (f : Port → Port) : (modPort d q f).seq = d.seq := rfl
@[simp] theorem modPort_threshers (d : Dev) (q : Nat) (f : Port → Port) : (modPort d q f).threshers = d.threshers := rfl
@[simp] theorem modPort_mem (d : Dev) (q : Nat) (f : Port → Port) : (modPort d q f).mem = d.mem := rfl
@[simp] theorem modPort_granary (d : Dev) (q : Nat) (f : Port → Port) : (modPort d q f).granary = d.granary := rfl
@[simp] theorem modPort_owl (d : Dev) (q : Nat) (f : Port → Port) : (modPort d q f).owl = d.owl := rfl
@[simp] theorem modPort_draws (d : Dev) (q : Nat) (f : Port → Port) : (modPort d q f).draws = d.draws := rfl

/-! ## modSlot -/

@[simp] theorem modSlot_clock (d : Dev) (k : Nat) (f : FwSlot → FwSlot) : (modSlot d k f).clock = d.clock := rfl
@[simp] theorem modSlot_power (d : Dev) (k : Nat) (f : FwSlot → FwSlot) : (modSlot d k f).power = d.power := rfl
@[simp] theorem modSlot_units (d : Dev) (k : Nat) (f : FwSlot → FwSlot) : (modSlot d k f).units = d.units := rfl
@[simp] theorem modSlot_host (d : Dev) (k : Nat) (f : FwSlot → FwSlot) : (modSlot d k f).host = d.host := rfl
@[simp] theorem modSlot_out (d : Dev) (k : Nat) (f : FwSlot → FwSlot) : (modSlot d k f).out = d.out := rfl
@[simp] theorem modSlot_tally (d : Dev) (k : Nat) (f : FwSlot → FwSlot) : (modSlot d k f).tally = d.tally := rfl
@[simp] theorem modSlot_counters (d : Dev) (k : Nat) (f : FwSlot → FwSlot) : (modSlot d k f).counters = d.counters := rfl
@[simp] theorem modSlot_iabor (d : Dev) (k : Nat) (f : FwSlot → FwSlot) : (modSlot d k f).iabor = d.iabor := rfl
@[simp] theorem modSlot_hub (d : Dev) (k : Nat) (f : FwSlot → FwSlot) : (modSlot d k f).hub = d.hub := rfl
@[simp] theorem modSlot_mills (d : Dev) (k : Nat) (f : FwSlot → FwSlot) : (modSlot d k f).mills = d.mills := rfl
@[simp] theorem modSlot_looms (d : Dev) (k : Nat) (f : FwSlot → FwSlot) : (modSlot d k f).looms = d.looms := rfl
@[simp] theorem modSlot_querns (d : Dev) (k : Nat) (f : FwSlot → FwSlot) : (modSlot d k f).querns = d.querns := rfl
@[simp] theorem modSlot_badgers (d : Dev) (k : Nat) (f : FwSlot → FwSlot) : (modSlot d k f).badgers = d.badgers := rfl
@[simp] theorem modSlot_chutes (d : Dev) (k : Nat) (f : FwSlot → FwSlot) : (modSlot d k f).chutes = d.chutes := rfl
@[simp] theorem modSlot_steps (d : Dev) (k : Nat) (f : FwSlot → FwSlot) : (modSlot d k f).steps = d.steps := rfl
@[simp] theorem modSlot_seq (d : Dev) (k : Nat) (f : FwSlot → FwSlot) : (modSlot d k f).seq = d.seq := rfl
@[simp] theorem modSlot_threshers (d : Dev) (k : Nat) (f : FwSlot → FwSlot) : (modSlot d k f).threshers = d.threshers := rfl
@[simp] theorem modSlot_fabric (d : Dev) (k : Nat) (f : FwSlot → FwSlot) : (modSlot d k f).fabric = d.fabric := rfl
@[simp] theorem modSlot_mem (d : Dev) (k : Nat) (f : FwSlot → FwSlot) : (modSlot d k f).mem = d.mem := rfl
@[simp] theorem modSlot_granary (d : Dev) (k : Nat) (f : FwSlot → FwSlot) : (modSlot d k f).granary = d.granary := rfl
@[simp] theorem modSlot_owl (d : Dev) (k : Nat) (f : FwSlot → FwSlot) : (modSlot d k f).owl = d.owl := rfl
@[simp] theorem modSlot_draws (d : Dev) (k : Nat) (f : FwSlot → FwSlot) : (modSlot d k f).draws = d.draws := rfl

/-! ## modMill -/

@[simp] theorem modMill_clock (d : Dev) (tile : Nat) (f : Mill → Mill) : (modMill d tile f).clock = d.clock := rfl
@[simp] theorem modMill_power (d : Dev) (tile : Nat) (f : Mill → Mill) : (modMill d tile f).power = d.power := rfl
@[simp] theorem modMill_units (d : Dev) (tile : Nat) (f : Mill → Mill) : (modMill d tile f).units = d.units := rfl
@[simp] theorem modMill_flash (d : Dev) (tile : Nat) (f : Mill → Mill) : (modMill d tile f).flash = d.flash := rfl
@[simp] theorem modMill_host (d : Dev) (tile : Nat) (f : Mill → Mill) : (modMill d tile f).host = d.host := rfl
@[simp] theorem modMill_out (d : Dev) (tile : Nat) (f : Mill → Mill) : (modMill d tile f).out = d.out := rfl
@[simp] theorem modMill_tally (d : Dev) (tile : Nat) (f : Mill → Mill) : (modMill d tile f).tally = d.tally := rfl
@[simp] theorem modMill_counters (d : Dev) (tile : Nat) (f : Mill → Mill) : (modMill d tile f).counters = d.counters := rfl
@[simp] theorem modMill_iabor (d : Dev) (tile : Nat) (f : Mill → Mill) : (modMill d tile f).iabor = d.iabor := rfl
@[simp] theorem modMill_hub (d : Dev) (tile : Nat) (f : Mill → Mill) : (modMill d tile f).hub = d.hub := rfl
@[simp] theorem modMill_looms (d : Dev) (tile : Nat) (f : Mill → Mill) : (modMill d tile f).looms = d.looms := rfl
@[simp] theorem modMill_querns (d : Dev) (tile : Nat) (f : Mill → Mill) : (modMill d tile f).querns = d.querns := rfl
@[simp] theorem modMill_badgers (d : Dev) (tile : Nat) (f : Mill → Mill) : (modMill d tile f).badgers = d.badgers := rfl
@[simp] theorem modMill_chutes (d : Dev) (tile : Nat) (f : Mill → Mill) : (modMill d tile f).chutes = d.chutes := rfl
@[simp] theorem modMill_steps (d : Dev) (tile : Nat) (f : Mill → Mill) : (modMill d tile f).steps = d.steps := rfl
@[simp] theorem modMill_seq (d : Dev) (tile : Nat) (f : Mill → Mill) : (modMill d tile f).seq = d.seq := rfl
@[simp] theorem modMill_threshers (d : Dev) (tile : Nat) (f : Mill → Mill) : (modMill d tile f).threshers = d.threshers := rfl
@[simp] theorem modMill_fabric (d : Dev) (tile : Nat) (f : Mill → Mill) : (modMill d tile f).fabric = d.fabric := rfl
@[simp] theorem modMill_mem (d : Dev) (tile : Nat) (f : Mill → Mill) : (modMill d tile f).mem = d.mem := rfl
@[simp] theorem modMill_granary (d : Dev) (tile : Nat) (f : Mill → Mill) : (modMill d tile f).granary = d.granary := rfl
@[simp] theorem modMill_owl (d : Dev) (tile : Nat) (f : Mill → Mill) : (modMill d tile f).owl = d.owl := rfl
@[simp] theorem modMill_draws (d : Dev) (tile : Nat) (f : Mill → Mill) : (modMill d tile f).draws = d.draws := rfl

/-! ## modChute -/

@[simp] theorem modChute_clock (d : Dev) (tile queue : Nat) (f : Chute → Chute) : (modChute d tile queue f).clock = d.clock := rfl
@[simp] theorem modChute_power (d : Dev) (tile queue : Nat) (f : Chute → Chute) : (modChute d tile queue f).power = d.power := rfl
@[simp] theorem modChute_units (d : Dev) (tile queue : Nat) (f : Chute → Chute) : (modChute d tile queue f).units = d.units := rfl
@[simp] theorem modChute_flash (d : Dev) (tile queue : Nat) (f : Chute → Chute) : (modChute d tile queue f).flash = d.flash := rfl
@[simp] theorem modChute_host (d : Dev) (tile queue : Nat) (f : Chute → Chute) : (modChute d tile queue f).host = d.host := rfl
@[simp] theorem modChute_out (d : Dev) (tile queue : Nat) (f : Chute → Chute) : (modChute d tile queue f).out = d.out := rfl
@[simp] theorem modChute_tally (d : Dev) (tile queue : Nat) (f : Chute → Chute) : (modChute d tile queue f).tally = d.tally := rfl
@[simp] theorem modChute_counters (d : Dev) (tile queue : Nat) (f : Chute → Chute) : (modChute d tile queue f).counters = d.counters := rfl
@[simp] theorem modChute_iabor (d : Dev) (tile queue : Nat) (f : Chute → Chute) : (modChute d tile queue f).iabor = d.iabor := rfl
@[simp] theorem modChute_hub (d : Dev) (tile queue : Nat) (f : Chute → Chute) : (modChute d tile queue f).hub = d.hub := rfl
@[simp] theorem modChute_mills (d : Dev) (tile queue : Nat) (f : Chute → Chute) : (modChute d tile queue f).mills = d.mills := rfl
@[simp] theorem modChute_looms (d : Dev) (tile queue : Nat) (f : Chute → Chute) : (modChute d tile queue f).looms = d.looms := rfl
@[simp] theorem modChute_querns (d : Dev) (tile queue : Nat) (f : Chute → Chute) : (modChute d tile queue f).querns = d.querns := rfl
@[simp] theorem modChute_badgers (d : Dev) (tile queue : Nat) (f : Chute → Chute) : (modChute d tile queue f).badgers = d.badgers := rfl
@[simp] theorem modChute_steps (d : Dev) (tile queue : Nat) (f : Chute → Chute) : (modChute d tile queue f).steps = d.steps := rfl
@[simp] theorem modChute_seq (d : Dev) (tile queue : Nat) (f : Chute → Chute) : (modChute d tile queue f).seq = d.seq := rfl
@[simp] theorem modChute_threshers (d : Dev) (tile queue : Nat) (f : Chute → Chute) : (modChute d tile queue f).threshers = d.threshers := rfl
@[simp] theorem modChute_fabric (d : Dev) (tile queue : Nat) (f : Chute → Chute) : (modChute d tile queue f).fabric = d.fabric := rfl
@[simp] theorem modChute_mem (d : Dev) (tile queue : Nat) (f : Chute → Chute) : (modChute d tile queue f).mem = d.mem := rfl
@[simp] theorem modChute_granary (d : Dev) (tile queue : Nat) (f : Chute → Chute) : (modChute d tile queue f).granary = d.granary := rfl
@[simp] theorem modChute_owl (d : Dev) (tile queue : Nat) (f : Chute → Chute) : (modChute d tile queue f).owl = d.owl := rfl
@[simp] theorem modChute_draws (d : Dev) (tile queue : Nat) (f : Chute → Chute) : (modChute d tile queue f).draws = d.draws := rfl

/-! ## modCluster -/

@[simp] theorem modCluster_clock (d : Dev) (die : Nat) (f : Cluster → Cluster) : (modCluster d die f).clock = d.clock := rfl
@[simp] theorem modCluster_power (d : Dev) (die : Nat) (f : Cluster → Cluster) : (modCluster d die f).power = d.power := rfl
@[simp] theorem modCluster_units (d : Dev) (die : Nat) (f : Cluster → Cluster) : (modCluster d die f).units = d.units := rfl
@[simp] theorem modCluster_flash (d : Dev) (die : Nat) (f : Cluster → Cluster) : (modCluster d die f).flash = d.flash := rfl
@[simp] theorem modCluster_host (d : Dev) (die : Nat) (f : Cluster → Cluster) : (modCluster d die f).host = d.host := rfl
@[simp] theorem modCluster_out (d : Dev) (die : Nat) (f : Cluster → Cluster) : (modCluster d die f).out = d.out := rfl
@[simp] theorem modCluster_tally (d : Dev) (die : Nat) (f : Cluster → Cluster) : (modCluster d die f).tally = d.tally := rfl
@[simp] theorem modCluster_counters (d : Dev) (die : Nat) (f : Cluster → Cluster) : (modCluster d die f).counters = d.counters := rfl
@[simp] theorem modCluster_hub (d : Dev) (die : Nat) (f : Cluster → Cluster) : (modCluster d die f).hub = d.hub := rfl
@[simp] theorem modCluster_mills (d : Dev) (die : Nat) (f : Cluster → Cluster) : (modCluster d die f).mills = d.mills := rfl
@[simp] theorem modCluster_looms (d : Dev) (die : Nat) (f : Cluster → Cluster) : (modCluster d die f).looms = d.looms := rfl
@[simp] theorem modCluster_querns (d : Dev) (die : Nat) (f : Cluster → Cluster) : (modCluster d die f).querns = d.querns := rfl
@[simp] theorem modCluster_badgers (d : Dev) (die : Nat) (f : Cluster → Cluster) : (modCluster d die f).badgers = d.badgers := rfl
@[simp] theorem modCluster_chutes (d : Dev) (die : Nat) (f : Cluster → Cluster) : (modCluster d die f).chutes = d.chutes := rfl
@[simp] theorem modCluster_steps (d : Dev) (die : Nat) (f : Cluster → Cluster) : (modCluster d die f).steps = d.steps := rfl
@[simp] theorem modCluster_seq (d : Dev) (die : Nat) (f : Cluster → Cluster) : (modCluster d die f).seq = d.seq := rfl
@[simp] theorem modCluster_threshers (d : Dev) (die : Nat) (f : Cluster → Cluster) : (modCluster d die f).threshers = d.threshers := rfl
@[simp] theorem modCluster_fabric (d : Dev) (die : Nat) (f : Cluster → Cluster) : (modCluster d die f).fabric = d.fabric := rfl
@[simp] theorem modCluster_mem (d : Dev) (die : Nat) (f : Cluster → Cluster) : (modCluster d die f).mem = d.mem := rfl
@[simp] theorem modCluster_granary (d : Dev) (die : Nat) (f : Cluster → Cluster) : (modCluster d die f).granary = d.granary := rfl
@[simp] theorem modCluster_owl (d : Dev) (die : Nat) (f : Cluster → Cluster) : (modCluster d die f).owl = d.owl := rfl
@[simp] theorem modCluster_draws (d : Dev) (die : Nat) (f : Cluster → Cluster) : (modCluster d die f).draws = d.draws := rfl

/-! ## modPart -/

@[simp] theorem modPart_clock (d : Dev) (n : OpName) (f : MemberPart → MemberPart) : (modPart d n f).clock = d.clock := rfl
@[simp] theorem modPart_power (d : Dev) (n : OpName) (f : MemberPart → MemberPart) : (modPart d n f).power = d.power := rfl
@[simp] theorem modPart_units (d : Dev) (n : OpName) (f : MemberPart → MemberPart) : (modPart d n f).units = d.units := rfl
@[simp] theorem modPart_flash (d : Dev) (n : OpName) (f : MemberPart → MemberPart) : (modPart d n f).flash = d.flash := rfl
@[simp] theorem modPart_host (d : Dev) (n : OpName) (f : MemberPart → MemberPart) : (modPart d n f).host = d.host := rfl
@[simp] theorem modPart_out (d : Dev) (n : OpName) (f : MemberPart → MemberPart) : (modPart d n f).out = d.out := rfl
@[simp] theorem modPart_tally (d : Dev) (n : OpName) (f : MemberPart → MemberPart) : (modPart d n f).tally = d.tally := rfl
@[simp] theorem modPart_counters (d : Dev) (n : OpName) (f : MemberPart → MemberPart) : (modPart d n f).counters = d.counters := rfl
@[simp] theorem modPart_iabor (d : Dev) (n : OpName) (f : MemberPart → MemberPart) : (modPart d n f).iabor = d.iabor := rfl
@[simp] theorem modPart_hub (d : Dev) (n : OpName) (f : MemberPart → MemberPart) : (modPart d n f).hub = d.hub := rfl
@[simp] theorem modPart_mills (d : Dev) (n : OpName) (f : MemberPart → MemberPart) : (modPart d n f).mills = d.mills := rfl
@[simp] theorem modPart_looms (d : Dev) (n : OpName) (f : MemberPart → MemberPart) : (modPart d n f).looms = d.looms := rfl
@[simp] theorem modPart_querns (d : Dev) (n : OpName) (f : MemberPart → MemberPart) : (modPart d n f).querns = d.querns := rfl
@[simp] theorem modPart_badgers (d : Dev) (n : OpName) (f : MemberPart → MemberPart) : (modPart d n f).badgers = d.badgers := rfl
@[simp] theorem modPart_chutes (d : Dev) (n : OpName) (f : MemberPart → MemberPart) : (modPart d n f).chutes = d.chutes := rfl
@[simp] theorem modPart_steps (d : Dev) (n : OpName) (f : MemberPart → MemberPart) : (modPart d n f).steps = d.steps := rfl
@[simp] theorem modPart_seq (d : Dev) (n : OpName) (f : MemberPart → MemberPart) : (modPart d n f).seq = d.seq := rfl
@[simp] theorem modPart_threshers (d : Dev) (n : OpName) (f : MemberPart → MemberPart) : (modPart d n f).threshers = d.threshers := rfl
@[simp] theorem modPart_mem (d : Dev) (n : OpName) (f : MemberPart → MemberPart) : (modPart d n f).mem = d.mem := rfl
@[simp] theorem modPart_granary (d : Dev) (n : OpName) (f : MemberPart → MemberPart) : (modPart d n f).granary = d.granary := rfl
@[simp] theorem modPart_owl (d : Dev) (n : OpName) (f : MemberPart → MemberPart) : (modPart d n f).owl = d.owl := rfl
@[simp] theorem modPart_draws (d : Dev) (n : OpName) (f : MemberPart → MemberPart) : (modPart d n f).draws = d.draws := rfl

/-! ## countEvent -/

@[simp] theorem countEvent_clock (d : Dev) (code amount die : Nat) (tile byRing : Option Nat) : (countEvent d code amount die tile byRing).clock = d.clock := rfl
@[simp] theorem countEvent_power (d : Dev) (code amount die : Nat) (tile byRing : Option Nat) : (countEvent d code amount die tile byRing).power = d.power := rfl
@[simp] theorem countEvent_units (d : Dev) (code amount die : Nat) (tile byRing : Option Nat) : (countEvent d code amount die tile byRing).units = d.units := rfl
@[simp] theorem countEvent_flash (d : Dev) (code amount die : Nat) (tile byRing : Option Nat) : (countEvent d code amount die tile byRing).flash = d.flash := rfl
@[simp] theorem countEvent_host (d : Dev) (code amount die : Nat) (tile byRing : Option Nat) : (countEvent d code amount die tile byRing).host = d.host := rfl
@[simp] theorem countEvent_out (d : Dev) (code amount die : Nat) (tile byRing : Option Nat) : (countEvent d code amount die tile byRing).out = d.out := rfl
@[simp] theorem countEvent_tally (d : Dev) (code amount die : Nat) (tile byRing : Option Nat) : (countEvent d code amount die tile byRing).tally = d.tally := rfl
@[simp] theorem countEvent_iabor (d : Dev) (code amount die : Nat) (tile byRing : Option Nat) : (countEvent d code amount die tile byRing).iabor = d.iabor := rfl
@[simp] theorem countEvent_hub (d : Dev) (code amount die : Nat) (tile byRing : Option Nat) : (countEvent d code amount die tile byRing).hub = d.hub := rfl
@[simp] theorem countEvent_mills (d : Dev) (code amount die : Nat) (tile byRing : Option Nat) : (countEvent d code amount die tile byRing).mills = d.mills := rfl
@[simp] theorem countEvent_looms (d : Dev) (code amount die : Nat) (tile byRing : Option Nat) : (countEvent d code amount die tile byRing).looms = d.looms := rfl
@[simp] theorem countEvent_querns (d : Dev) (code amount die : Nat) (tile byRing : Option Nat) : (countEvent d code amount die tile byRing).querns = d.querns := rfl
@[simp] theorem countEvent_badgers (d : Dev) (code amount die : Nat) (tile byRing : Option Nat) : (countEvent d code amount die tile byRing).badgers = d.badgers := rfl
@[simp] theorem countEvent_chutes (d : Dev) (code amount die : Nat) (tile byRing : Option Nat) : (countEvent d code amount die tile byRing).chutes = d.chutes := rfl
@[simp] theorem countEvent_steps (d : Dev) (code amount die : Nat) (tile byRing : Option Nat) : (countEvent d code amount die tile byRing).steps = d.steps := rfl
@[simp] theorem countEvent_seq (d : Dev) (code amount die : Nat) (tile byRing : Option Nat) : (countEvent d code amount die tile byRing).seq = d.seq := rfl
@[simp] theorem countEvent_threshers (d : Dev) (code amount die : Nat) (tile byRing : Option Nat) : (countEvent d code amount die tile byRing).threshers = d.threshers := rfl
@[simp] theorem countEvent_fabric (d : Dev) (code amount die : Nat) (tile byRing : Option Nat) : (countEvent d code amount die tile byRing).fabric = d.fabric := rfl
@[simp] theorem countEvent_mem (d : Dev) (code amount die : Nat) (tile byRing : Option Nat) : (countEvent d code amount die tile byRing).mem = d.mem := rfl
@[simp] theorem countEvent_granary (d : Dev) (code amount die : Nat) (tile byRing : Option Nat) : (countEvent d code amount die tile byRing).granary = d.granary := rfl
@[simp] theorem countEvent_owl (d : Dev) (code amount die : Nat) (tile byRing : Option Nat) : (countEvent d code amount die tile byRing).owl = d.owl := rfl
@[simp] theorem countEvent_draws (d : Dev) (code amount die : Nat) (tile byRing : Option Nat) : (countEvent d code amount die tile byRing).draws = d.draws := rfl

/-! ## wantPages -/

@[simp] theorem wantPages_clock (d : Dev) (pages : List Nat) : (wantPages d pages).clock = d.clock := rfl
@[simp] theorem wantPages_power (d : Dev) (pages : List Nat) : (wantPages d pages).power = d.power := rfl
@[simp] theorem wantPages_units (d : Dev) (pages : List Nat) : (wantPages d pages).units = d.units := rfl
@[simp] theorem wantPages_flash (d : Dev) (pages : List Nat) : (wantPages d pages).flash = d.flash := rfl
@[simp] theorem wantPages_host (d : Dev) (pages : List Nat) : (wantPages d pages).host = d.host := rfl
@[simp] theorem wantPages_out (d : Dev) (pages : List Nat) : (wantPages d pages).out = d.out := rfl
@[simp] theorem wantPages_tally (d : Dev) (pages : List Nat) : (wantPages d pages).tally = d.tally := rfl
@[simp] theorem wantPages_counters (d : Dev) (pages : List Nat) : (wantPages d pages).counters = d.counters := rfl
@[simp] theorem wantPages_iabor (d : Dev) (pages : List Nat) : (wantPages d pages).iabor = d.iabor := rfl
@[simp] theorem wantPages_hub (d : Dev) (pages : List Nat) : (wantPages d pages).hub = d.hub := rfl
@[simp] theorem wantPages_mills (d : Dev) (pages : List Nat) : (wantPages d pages).mills = d.mills := rfl
@[simp] theorem wantPages_looms (d : Dev) (pages : List Nat) : (wantPages d pages).looms = d.looms := rfl
@[simp] theorem wantPages_querns (d : Dev) (pages : List Nat) : (wantPages d pages).querns = d.querns := rfl
@[simp] theorem wantPages_badgers (d : Dev) (pages : List Nat) : (wantPages d pages).badgers = d.badgers := rfl
@[simp] theorem wantPages_chutes (d : Dev) (pages : List Nat) : (wantPages d pages).chutes = d.chutes := rfl
@[simp] theorem wantPages_steps (d : Dev) (pages : List Nat) : (wantPages d pages).steps = d.steps := rfl
@[simp] theorem wantPages_seq (d : Dev) (pages : List Nat) : (wantPages d pages).seq = d.seq := rfl
@[simp] theorem wantPages_threshers (d : Dev) (pages : List Nat) : (wantPages d pages).threshers = d.threshers := rfl
@[simp] theorem wantPages_fabric (d : Dev) (pages : List Nat) : (wantPages d pages).fabric = d.fabric := rfl
@[simp] theorem wantPages_mem (d : Dev) (pages : List Nat) : (wantPages d pages).mem = d.mem := rfl
@[simp] theorem wantPages_owl (d : Dev) (pages : List Nat) : (wantPages d pages).owl = d.owl := rfl
@[simp] theorem wantPages_draws (d : Dev) (pages : List Nat) : (wantPages d pages).draws = d.draws := rfl

/-! ## putBell -/

@[simp] theorem putBell_clock (d : Dev) (b : Nat) (c : BellCycle) : (putBell d b c).clock = d.clock := rfl
@[simp] theorem putBell_power (d : Dev) (b : Nat) (c : BellCycle) : (putBell d b c).power = d.power := rfl
@[simp] theorem putBell_units (d : Dev) (b : Nat) (c : BellCycle) : (putBell d b c).units = d.units := rfl
@[simp] theorem putBell_flash (d : Dev) (b : Nat) (c : BellCycle) : (putBell d b c).flash = d.flash := rfl
@[simp] theorem putBell_host (d : Dev) (b : Nat) (c : BellCycle) : (putBell d b c).host = d.host := rfl
@[simp] theorem putBell_out (d : Dev) (b : Nat) (c : BellCycle) : (putBell d b c).out = d.out := rfl
@[simp] theorem putBell_tally (d : Dev) (b : Nat) (c : BellCycle) : (putBell d b c).tally = d.tally := rfl
@[simp] theorem putBell_counters (d : Dev) (b : Nat) (c : BellCycle) : (putBell d b c).counters = d.counters := rfl
@[simp] theorem putBell_iabor (d : Dev) (b : Nat) (c : BellCycle) : (putBell d b c).iabor = d.iabor := rfl
@[simp] theorem putBell_mills (d : Dev) (b : Nat) (c : BellCycle) : (putBell d b c).mills = d.mills := rfl
@[simp] theorem putBell_looms (d : Dev) (b : Nat) (c : BellCycle) : (putBell d b c).looms = d.looms := rfl
@[simp] theorem putBell_querns (d : Dev) (b : Nat) (c : BellCycle) : (putBell d b c).querns = d.querns := rfl
@[simp] theorem putBell_badgers (d : Dev) (b : Nat) (c : BellCycle) : (putBell d b c).badgers = d.badgers := rfl
@[simp] theorem putBell_chutes (d : Dev) (b : Nat) (c : BellCycle) : (putBell d b c).chutes = d.chutes := rfl
@[simp] theorem putBell_steps (d : Dev) (b : Nat) (c : BellCycle) : (putBell d b c).steps = d.steps := rfl
@[simp] theorem putBell_seq (d : Dev) (b : Nat) (c : BellCycle) : (putBell d b c).seq = d.seq := rfl
@[simp] theorem putBell_threshers (d : Dev) (b : Nat) (c : BellCycle) : (putBell d b c).threshers = d.threshers := rfl
@[simp] theorem putBell_fabric (d : Dev) (b : Nat) (c : BellCycle) : (putBell d b c).fabric = d.fabric := rfl
@[simp] theorem putBell_mem (d : Dev) (b : Nat) (c : BellCycle) : (putBell d b c).mem = d.mem := rfl
@[simp] theorem putBell_granary (d : Dev) (b : Nat) (c : BellCycle) : (putBell d b c).granary = d.granary := rfl
@[simp] theorem putBell_owl (d : Dev) (b : Nat) (c : BellCycle) : (putBell d b c).owl = d.owl := rfl
@[simp] theorem putBell_draws (d : Dev) (b : Nat) (c : BellCycle) : (putBell d b c).draws = d.draws := rfl

/-! ## markReady -/

@[simp] theorem markReady_clock (t : Nat) (d : Dev) : (markReady t d).clock = d.clock := rfl
@[simp] theorem markReady_power (t : Nat) (d : Dev) : (markReady t d).power = d.power := rfl
@[simp] theorem markReady_units (t : Nat) (d : Dev) : (markReady t d).units = d.units := rfl
@[simp] theorem markReady_flash (t : Nat) (d : Dev) : (markReady t d).flash = d.flash := rfl
@[simp] theorem markReady_host (t : Nat) (d : Dev) : (markReady t d).host = d.host := rfl
@[simp] theorem markReady_out (t : Nat) (d : Dev) : (markReady t d).out = d.out := rfl
@[simp] theorem markReady_tally (t : Nat) (d : Dev) : (markReady t d).tally = d.tally := rfl
@[simp] theorem markReady_counters (t : Nat) (d : Dev) : (markReady t d).counters = d.counters := rfl
@[simp] theorem markReady_iabor (t : Nat) (d : Dev) : (markReady t d).iabor = d.iabor := rfl
@[simp] theorem markReady_mills (t : Nat) (d : Dev) : (markReady t d).mills = d.mills := rfl
@[simp] theorem markReady_looms (t : Nat) (d : Dev) : (markReady t d).looms = d.looms := rfl
@[simp] theorem markReady_querns (t : Nat) (d : Dev) : (markReady t d).querns = d.querns := rfl
@[simp] theorem markReady_badgers (t : Nat) (d : Dev) : (markReady t d).badgers = d.badgers := rfl
@[simp] theorem markReady_chutes (t : Nat) (d : Dev) : (markReady t d).chutes = d.chutes := rfl
@[simp] theorem markReady_steps (t : Nat) (d : Dev) : (markReady t d).steps = d.steps := rfl
@[simp] theorem markReady_seq (t : Nat) (d : Dev) : (markReady t d).seq = d.seq := rfl
@[simp] theorem markReady_threshers (t : Nat) (d : Dev) : (markReady t d).threshers = d.threshers := rfl
@[simp] theorem markReady_fabric (t : Nat) (d : Dev) : (markReady t d).fabric = d.fabric := rfl
@[simp] theorem markReady_mem (t : Nat) (d : Dev) : (markReady t d).mem = d.mem := rfl
@[simp] theorem markReady_granary (t : Nat) (d : Dev) : (markReady t d).granary = d.granary := rfl
@[simp] theorem markReady_owl (t : Nat) (d : Dev) : (markReady t d).owl = d.owl := rfl
@[simp] theorem markReady_draws (t : Nat) (d : Dev) : (markReady t d).draws = d.draws := rfl

/-! ## mapEntries -/

@[simp] theorem mapEntries_clock (d : Dev) (f : List Entry → List Entry) : (mapEntries d f).clock = d.clock := rfl
@[simp] theorem mapEntries_power (d : Dev) (f : List Entry → List Entry) : (mapEntries d f).power = d.power := rfl
@[simp] theorem mapEntries_units (d : Dev) (f : List Entry → List Entry) : (mapEntries d f).units = d.units := rfl
@[simp] theorem mapEntries_flash (d : Dev) (f : List Entry → List Entry) : (mapEntries d f).flash = d.flash := rfl
@[simp] theorem mapEntries_host (d : Dev) (f : List Entry → List Entry) : (mapEntries d f).host = d.host := rfl
@[simp] theorem mapEntries_out (d : Dev) (f : List Entry → List Entry) : (mapEntries d f).out = d.out := rfl
@[simp] theorem mapEntries_tally (d : Dev) (f : List Entry → List Entry) : (mapEntries d f).tally = d.tally := rfl
@[simp] theorem mapEntries_counters (d : Dev) (f : List Entry → List Entry) : (mapEntries d f).counters = d.counters := rfl
@[simp] theorem mapEntries_iabor (d : Dev) (f : List Entry → List Entry) : (mapEntries d f).iabor = d.iabor := rfl
@[simp] theorem mapEntries_hub (d : Dev) (f : List Entry → List Entry) : (mapEntries d f).hub = d.hub := rfl
@[simp] theorem mapEntries_mills (d : Dev) (f : List Entry → List Entry) : (mapEntries d f).mills = d.mills := rfl
@[simp] theorem mapEntries_looms (d : Dev) (f : List Entry → List Entry) : (mapEntries d f).looms = d.looms := rfl
@[simp] theorem mapEntries_querns (d : Dev) (f : List Entry → List Entry) : (mapEntries d f).querns = d.querns := rfl
@[simp] theorem mapEntries_badgers (d : Dev) (f : List Entry → List Entry) : (mapEntries d f).badgers = d.badgers := rfl
@[simp] theorem mapEntries_steps (d : Dev) (f : List Entry → List Entry) : (mapEntries d f).steps = d.steps := rfl
@[simp] theorem mapEntries_seq (d : Dev) (f : List Entry → List Entry) : (mapEntries d f).seq = d.seq := rfl
@[simp] theorem mapEntries_threshers (d : Dev) (f : List Entry → List Entry) : (mapEntries d f).threshers = d.threshers := rfl
@[simp] theorem mapEntries_fabric (d : Dev) (f : List Entry → List Entry) : (mapEntries d f).fabric = d.fabric := rfl
@[simp] theorem mapEntries_mem (d : Dev) (f : List Entry → List Entry) : (mapEntries d f).mem = d.mem := rfl
@[simp] theorem mapEntries_granary (d : Dev) (f : List Entry → List Entry) : (mapEntries d f).granary = d.granary := rfl
@[simp] theorem mapEntries_owl (d : Dev) (f : List Entry → List Entry) : (mapEntries d f).owl = d.owl := rfl
@[simp] theorem mapEntries_draws (d : Dev) (f : List Entry → List Entry) : (mapEntries d f).draws = d.draws := rfl

/-! ## discardLedger -/

@[simp] theorem discardLedger_clock (d : Dev) (s : Nat) : (discardLedger d s).clock = d.clock := rfl
@[simp] theorem discardLedger_power (d : Dev) (s : Nat) : (discardLedger d s).power = d.power := rfl
@[simp] theorem discardLedger_units (d : Dev) (s : Nat) : (discardLedger d s).units = d.units := rfl
@[simp] theorem discardLedger_flash (d : Dev) (s : Nat) : (discardLedger d s).flash = d.flash := rfl
@[simp] theorem discardLedger_host (d : Dev) (s : Nat) : (discardLedger d s).host = d.host := rfl
@[simp] theorem discardLedger_out (d : Dev) (s : Nat) : (discardLedger d s).out = d.out := rfl
@[simp] theorem discardLedger_tally (d : Dev) (s : Nat) : (discardLedger d s).tally = d.tally := rfl
@[simp] theorem discardLedger_counters (d : Dev) (s : Nat) : (discardLedger d s).counters = d.counters := rfl
@[simp] theorem discardLedger_iabor (d : Dev) (s : Nat) : (discardLedger d s).iabor = d.iabor := rfl
@[simp] theorem discardLedger_hub (d : Dev) (s : Nat) : (discardLedger d s).hub = d.hub := rfl
@[simp] theorem discardLedger_mills (d : Dev) (s : Nat) : (discardLedger d s).mills = d.mills := rfl
@[simp] theorem discardLedger_looms (d : Dev) (s : Nat) : (discardLedger d s).looms = d.looms := rfl
@[simp] theorem discardLedger_querns (d : Dev) (s : Nat) : (discardLedger d s).querns = d.querns := rfl
@[simp] theorem discardLedger_chutes (d : Dev) (s : Nat) : (discardLedger d s).chutes = d.chutes := rfl
@[simp] theorem discardLedger_steps (d : Dev) (s : Nat) : (discardLedger d s).steps = d.steps := rfl
@[simp] theorem discardLedger_seq (d : Dev) (s : Nat) : (discardLedger d s).seq = d.seq := rfl
@[simp] theorem discardLedger_threshers (d : Dev) (s : Nat) : (discardLedger d s).threshers = d.threshers := rfl
@[simp] theorem discardLedger_fabric (d : Dev) (s : Nat) : (discardLedger d s).fabric = d.fabric := rfl
@[simp] theorem discardLedger_mem (d : Dev) (s : Nat) : (discardLedger d s).mem = d.mem := rfl
@[simp] theorem discardLedger_granary (d : Dev) (s : Nat) : (discardLedger d s).granary = d.granary := rfl
@[simp] theorem discardLedger_owl (d : Dev) (s : Nat) : (discardLedger d s).owl = d.owl := rfl
@[simp] theorem discardLedger_draws (d : Dev) (s : Nat) : (discardLedger d s).draws = d.draws := rfl

/-! ## answerMbx -/

@[simp] theorem answerMbx_clock (d : Dev) (m : Nat) (r : MbxResponse) : (answerMbx d m r).clock = d.clock := rfl
@[simp] theorem answerMbx_power (d : Dev) (m : Nat) (r : MbxResponse) : (answerMbx d m r).power = d.power := rfl
@[simp] theorem answerMbx_units (d : Dev) (m : Nat) (r : MbxResponse) : (answerMbx d m r).units = d.units := rfl
@[simp] theorem answerMbx_flash (d : Dev) (m : Nat) (r : MbxResponse) : (answerMbx d m r).flash = d.flash := rfl
@[simp] theorem answerMbx_host (d : Dev) (m : Nat) (r : MbxResponse) : (answerMbx d m r).host = d.host := rfl
@[simp] theorem answerMbx_out (d : Dev) (m : Nat) (r : MbxResponse) : (answerMbx d m r).out = d.out := rfl
@[simp] theorem answerMbx_tally (d : Dev) (m : Nat) (r : MbxResponse) : (answerMbx d m r).tally = d.tally := rfl
@[simp] theorem answerMbx_counters (d : Dev) (m : Nat) (r : MbxResponse) : (answerMbx d m r).counters = d.counters := rfl
@[simp] theorem answerMbx_hub (d : Dev) (m : Nat) (r : MbxResponse) : (answerMbx d m r).hub = d.hub := rfl
@[simp] theorem answerMbx_mills (d : Dev) (m : Nat) (r : MbxResponse) : (answerMbx d m r).mills = d.mills := rfl
@[simp] theorem answerMbx_looms (d : Dev) (m : Nat) (r : MbxResponse) : (answerMbx d m r).looms = d.looms := rfl
@[simp] theorem answerMbx_querns (d : Dev) (m : Nat) (r : MbxResponse) : (answerMbx d m r).querns = d.querns := rfl
@[simp] theorem answerMbx_badgers (d : Dev) (m : Nat) (r : MbxResponse) : (answerMbx d m r).badgers = d.badgers := rfl
@[simp] theorem answerMbx_chutes (d : Dev) (m : Nat) (r : MbxResponse) : (answerMbx d m r).chutes = d.chutes := rfl
@[simp] theorem answerMbx_steps (d : Dev) (m : Nat) (r : MbxResponse) : (answerMbx d m r).steps = d.steps := rfl
@[simp] theorem answerMbx_seq (d : Dev) (m : Nat) (r : MbxResponse) : (answerMbx d m r).seq = d.seq := rfl
@[simp] theorem answerMbx_threshers (d : Dev) (m : Nat) (r : MbxResponse) : (answerMbx d m r).threshers = d.threshers := rfl
@[simp] theorem answerMbx_fabric (d : Dev) (m : Nat) (r : MbxResponse) : (answerMbx d m r).fabric = d.fabric := rfl
@[simp] theorem answerMbx_mem (d : Dev) (m : Nat) (r : MbxResponse) : (answerMbx d m r).mem = d.mem := rfl
@[simp] theorem answerMbx_granary (d : Dev) (m : Nat) (r : MbxResponse) : (answerMbx d m r).granary = d.granary := rfl
@[simp] theorem answerMbx_owl (d : Dev) (m : Nat) (r : MbxResponse) : (answerMbx d m r).owl = d.owl := rfl
@[simp] theorem answerMbx_draws (d : Dev) (m : Nat) (r : MbxResponse) : (answerMbx d m r).draws = d.draws := rfl

end Sys2Proof.Machine
end

