-- ==== Sys2Proof/Laws/Events.lean ====
section
/-! SUPPORT. All that a report, a raised vector or a set cause can do: the parts of the device they may change, once for each. -/

namespace Sys2Proof.Machine

/-- A raised vector changes the pending bits and the messages sent. -/
theorem raiseVector_frame (d : Dev) (v : Nat) : ∃ h o, raiseVector d v = { d with host := h, out := o } := by
  unfold raiseVector
  split
  · exact ⟨_, _, rfl⟩
  · split
    · exact ⟨_, _, rfl⟩
    · exact ⟨_, _, rfl⟩

/-- A cause that is set changes the cause register, the pending bits and the messages sent. -/
theorem setCause_frame (d : Dev) (k : Nat) : ∃ h o, setCause d k = { d with host := h, out := o } := by
  unfold setCause
  split
  · exact ⟨_, _, rfl⟩
  · simp only
    split
    · obtain ⟨h, o, e⟩ := raiseVector_frame { d with host.irqCause := d.host.irqCause ||| BitVec.twoPow 7 k } 0
      exact ⟨h, o, e⟩
    · exact ⟨_, _, rfl⟩

/-- A cause that may be set. -/
theorem setCause_if_frame (c : Prop) [Decidable c] (d : Dev) (k : Nat) :
    ∃ h o, (if c then setCause d k else d) = { d with host := h, out := o } := by
  split
  · exact setCause_frame d k
  · exact ⟨_, _, rfl⟩

/-- What a Tally made of a report changes the Tally, the cause register and the messages sent. -/
theorem takeReport_frame (d : Dev) (die ev : Nat) (o : TallyOutcome) :
    ∃ h m, takeReport d die ev o = { d with tally := d.tally.set die o.tally, host := h, out := m } := by
  unfold takeReport
  simp only
  generalize hd : ({ d with tally := d.tally.set die o.tally } : Dev) = d3
  obtain ⟨h1, m1, e1⟩ := setCause_if_frame ((o.created && decide (severity ev = 3)) = true) d3 1
  rw [e1]
  obtain ⟨h2, m2, e2⟩ := setCause_if_frame ((o.created && decide (severity ev = 2)) = true) { d3 with host := h1, out := m1 } 2
  rw [e2]
  obtain ⟨h3, m3, e3⟩ := setCause_if_frame (o.overflow = true) { d3 with host := h2, out := m2 } 3
  rw [e3]
  subst hd
  exact ⟨_, _, rfl⟩

/-- A report changes the counters, what the Owl has seen, DROPPED, the Tally, the cause register and the messages sent. -/
theorem logEvent_frame (d : Dev) (ev : Nat) (src : Source) (detail : Nat) (r : Option Nat) :
    ∃ c o x t h m, logEvent d ev src detail r =
      { d with counters := c, owl := o, hub.dropped := x, tally := t, host := h, out := m } := by
  unfold logEvent
  simp only
  split
  · exact ⟨_, _, _, _, _, _, rfl⟩
  · generalize Tally.report _ _ _ _ _ = o
    obtain ⟨h, m, e⟩ := takeReport_frame (seeEvent d ev (sourceDie d src) src.tile (src.ringOr r)) (sourceDie d src) ev o
    rw [e]
    exact ⟨_, _, _, _, _, _, rfl⟩

/-- A report leaves this part alone. -/
@[simp] theorem logEvent_clock (d : Dev) (ev : Nat) (src : Source) (detail : Nat) (r : Option Nat) :
    (logEvent d ev src detail r).clock = d.clock := by
  obtain ⟨_, _, _, _, _, _, e⟩ := logEvent_frame d ev src detail r
  rw [e]

/-- A report leaves this part alone. -/
@[simp] theorem logEvent_power (d : Dev) (ev : Nat) (src : Source) (detail : Nat) (r : Option Nat) :
    (logEvent d ev src detail r).power = d.power := by
  obtain ⟨_, _, _, _, _, _, e⟩ := logEvent_frame d ev src detail r
  rw [e]

/-- A report leaves this part alone. -/
@[simp] theorem logEvent_units (d : Dev) (ev : Nat) (src : Source) (detail : Nat) (r : Option Nat) :
    (logEvent d ev src detail r).units = d.units := by
  obtain ⟨_, _, _, _, _, _, e⟩ := logEvent_frame d ev src detail r
  rw [e]

/-- A report leaves this part alone. -/
@[simp] theorem logEvent_flash (d : Dev) (ev : Nat) (src : Source) (detail : Nat) (r : Option Nat) :
    (logEvent d ev src detail r).flash = d.flash := by
  obtain ⟨_, _, _, _, _, _, e⟩ := logEvent_frame d ev src detail r
  rw [e]

/-- A report leaves this part alone. -/
@[simp] theorem logEvent_iabor (d : Dev) (ev : Nat) (src : Source) (detail : Nat) (r : Option Nat) :
    (logEvent d ev src detail r).iabor = d.iabor := by
  obtain ⟨_, _, _, _, _, _, e⟩ := logEvent_frame d ev src detail r
  rw [e]

/-- A report leaves this part alone. -/
@[simp] theorem logEvent_mills (d : Dev) (ev : Nat) (src : Source) (detail : Nat) (r : Option Nat) :
    (logEvent d ev src detail r).mills = d.mills := by
  obtain ⟨_, _, _, _, _, _, e⟩ := logEvent_frame d ev src detail r
  rw [e]

/-- A report leaves this part alone. -/
@[simp] theorem logEvent_looms (d : Dev) (ev : Nat) (src : Source) (detail : Nat) (r : Option Nat) :
    (logEvent d ev src detail r).looms = d.looms := by
  obtain ⟨_, _, _, _, _, _, e⟩ := logEvent_frame d ev src detail r
  rw [e]

/-- A report leaves this part alone. -/
@[simp] theorem logEvent_querns (d : Dev) (ev : Nat) (src : Source) (detail : Nat) (r : Option Nat) :
    (logEvent d ev src detail r).querns = d.querns := by
  obtain ⟨_, _, _, _, _, _, e⟩ := logEvent_frame d ev src detail r
  rw [e]

/-- A report leaves this part alone. -/
@[simp] theorem logEvent_badgers (d : Dev) (ev : Nat) (src : Source) (detail : Nat) (r : Option Nat) :
    (logEvent d ev src detail r).badgers = d.badgers := by
  obtain ⟨_, _, _, _, _, _, e⟩ := logEvent_frame d ev src detail r
  rw [e]

/-- A report leaves this part alone. -/
@[simp] theorem logEvent_chutes (d : Dev) (ev : Nat) (src : Source) (detail : Nat) (r : Option Nat) :
    (logEvent d ev src detail r).chutes = d.chutes := by
  obtain ⟨_, _, _, _, _, _, e⟩ := logEvent_frame d ev src detail r
  rw [e]

/-- A report leaves this part alone. -/
@[simp] theorem logEvent_steps (d : Dev) (ev : Nat) (src : Source) (detail : Nat) (r : Option Nat) :
    (logEvent d ev src detail r).steps = d.steps := by
  obtain ⟨_, _, _, _, _, _, e⟩ := logEvent_frame d ev src detail r
  rw [e]

/-- A report leaves this part alone. -/
@[simp] theorem logEvent_seq (d : Dev) (ev : Nat) (src : Source) (detail : Nat) (r : Option Nat) :
    (logEvent d ev src detail r).seq = d.seq := by
  obtain ⟨_, _, _, _, _, _, e⟩ := logEvent_frame d ev src detail r
  rw [e]

/-- A report leaves this part alone. -/
@[simp] theorem logEvent_threshers (d : Dev) (ev : Nat) (src : Source) (detail : Nat) (r : Option Nat) :
    (logEvent d ev src detail r).threshers = d.threshers := by
  obtain ⟨_, _, _, _, _, _, e⟩ := logEvent_frame d ev src detail r
  rw [e]

/-- A report leaves this part alone. -/
@[simp] theorem logEvent_fabric (d : Dev) (ev : Nat) (src : Source) (detail : Nat) (r : Option Nat) :
    (logEvent d ev src detail r).fabric = d.fabric := by
  obtain ⟨_, _, _, _, _, _, e⟩ := logEvent_frame d ev src detail r
  rw [e]

/-- A report leaves this part alone. -/
@[simp] theorem logEvent_mem (d : Dev) (ev : Nat) (src : Source) (detail : Nat) (r : Option Nat) :
    (logEvent d ev src detail r).mem = d.mem := by
  obtain ⟨_, _, _, _, _, _, e⟩ := logEvent_frame d ev src detail r
  rw [e]

/-- A report leaves this part alone. -/
@[simp] theorem logEvent_granary (d : Dev) (ev : Nat) (src : Source) (detail : Nat) (r : Option Nat) :
    (logEvent d ev src detail r).granary = d.granary := by
  obtain ⟨_, _, _, _, _, _, e⟩ := logEvent_frame d ev src detail r
  rw [e]

/-- A report leaves this part alone. -/
@[simp] theorem logEvent_draws (d : Dev) (ev : Nat) (src : Source) (detail : Nat) (r : Option Nat) :
    (logEvent d ev src detail r).draws = d.draws := by
  obtain ⟨_, _, _, _, _, _, e⟩ := logEvent_frame d ev src detail r
  rw [e]

/-- A report leaves the rings and their operations alone. -/
@[simp] theorem logEvent_rings (d : Dev) (ev : Nat) (src : Source) (detail : Nat) (r : Option Nat) :
    (logEvent d ev src detail r).hub.rings = d.hub.rings := by
  obtain ⟨_, _, _, _, _, _, e⟩ := logEvent_frame d ev src detail r
  rw [e]

/-- A report leaves the bells alone. -/
@[simp] theorem logEvent_bells (d : Dev) (ev : Nat) (src : Source) (detail : Nat) (r : Option Nat) :
    (logEvent d ev src detail r).hub.bells = d.hub.bells := by
  obtain ⟨_, _, _, _, _, _, e⟩ := logEvent_frame d ev src detail r
  rw [e]

end Sys2Proof.Machine
end

