-- ==== Sys2Proof/Laws/Memory.lean ====
section
/-! SUPPORT. Sparse tables and the bytes of memory: reads after writes, and the canonical form that every memory operation
keeps. -/

namespace Sys2Proof.Machine

/-! ## Sparse tables -/

/-- What is put under a key is what is found there. -/
@[simp] theorem tget_tput_same {α : Type} (t : Table α) (k : Nat) (v : α) : tget (tput t k v) k = some v := by
  induction t with
  | nil => simp [tput, tget]
  | cons e r ih =>
    obtain ⟨k', v'⟩ := e
    simp only [tput]
    split
    · simp [tget]
    · split
      · simp [tget]
      · rename_i h; simp [tget, h, ih]

/-- Every other key finds what it found before. -/
theorem tget_tput_other {α : Type} (t : Table α) (k j : Nat) (v : α) (h : j ≠ k) : tget (tput t k v) j = tget t j := by
  induction t with
  | nil => simp [tput, tget, h]
  | cons e r ih =>
    obtain ⟨k', v'⟩ := e
    simp only [tput]
    split
    · simp [tget, h]
    · split
      · rename_i hk; subst hk; simp [tget, h]
      · simp only [tget, ih]

/-! ## The canonical form -/

/-- The keys of a table of bytes all lie above a bound. -/
abbrev cellsAbove (a : Nat) (m : List Host.Cell) : Prop := ∀ c ∈ m, a < c.1

/-- The canonical form, cell by cell. -/
theorem cellsWf_cons (c : Host.Cell) (m : List Host.Cell) :
    cellsWf (c :: m) = true ↔ c.2 ≠ 0 ∧ cellsAbove c.1 m ∧ cellsWf m = true := by
  induction m generalizing c with
  | nil => simp [cellsWf, cellsAbove]
  | cons e r ih =>
    simp only [cellsWf, Bool.and_eq_true, bne_iff_ne, ne_eq, decide_eq_true_eq]
    constructor
    · rintro ⟨⟨h1, h2⟩, h3⟩
      refine ⟨h1, ?_, h3⟩
      intro x hx
      rcases List.mem_cons.mp hx with rfl | hx
      · exact h2
      · exact Nat.lt_trans h2 (((ih e).mp h3).2.1 x hx)
    · rintro ⟨h1, h2, h3⟩
      exact ⟨⟨h1, h2 e (List.mem_cons_self ..)⟩, h3⟩

/-- A put keeps a bound below all keys. -/
theorem cellsAbove_tput (a k : Nat) (v : Byte) (m : List Host.Cell) (hk : a < k) (h : cellsAbove a m) :
    cellsAbove a (tput m k v) := by
  induction m with
  | nil => intro c hc; simp [tput] at hc; subst hc; exact hk
  | cons e r ih =>
    obtain ⟨k', v'⟩ := e
    have hr : cellsAbove a r := fun c hc => h c (List.mem_cons_of_mem _ hc)
    simp only [tput]
    split
    · intro c hc
      rcases List.mem_cons.mp hc with rfl | hc
      · exact hk
      · exact h c hc
    · split
      · intro c hc
        rcases List.mem_cons.mp hc with rfl | hc
        · exact hk
        · exact hr c hc
      · intro c hc
        rcases List.mem_cons.mp hc with rfl | hc
        · exact h _ (List.mem_cons_self ..)
        · exact ih hr c hc

/-- Storing a byte that is not zero keeps the canonical form. -/
theorem cellsWf_tput (k : Nat) (v : Byte) (m : List Host.Cell) (hv : v ≠ 0) (h : cellsWf m = true) :
    cellsWf (tput m k v) = true := by
  induction m with
  | nil => simpa [tput, cellsWf] using hv
  | cons e r ih =>
    obtain ⟨k', v'⟩ := e
    have he := (cellsWf_cons _ _).mp h
    simp only [tput]
    split
    · rename_i hlt
      refine (cellsWf_cons _ _).mpr ⟨hv, ?_, h⟩
      intro c hc
      rcases List.mem_cons.mp hc with rfl | hc
      · exact hlt
      · exact Nat.lt_trans hlt (he.2.1 c hc)
    · split
      · rename_i heq
        exact (cellsWf_cons _ _).mpr ⟨hv, by subst heq; exact he.2.1, he.2.2⟩
      · rename_i h1 h2
        refine (cellsWf_cons _ _).mpr ⟨he.1, cellsAbove_tput _ _ _ _ ?_ he.2.1, ih he.2.2⟩
        show k' < k
        omega

/-- Deleting keeps a bound below all keys. -/
theorem cellsAbove_tdel (a k : Nat) (m : List Host.Cell) (h : cellsAbove a m) : cellsAbove a (tdel m k) := by
  induction m with
  | nil => exact h
  | cons e r ih =>
    obtain ⟨k', v'⟩ := e
    have hr : cellsAbove a r := fun c hc => h c (List.mem_cons_of_mem _ hc)
    simp only [tdel]
    split
    · exact hr
    · intro c hc
      rcases List.mem_cons.mp hc with rfl | hc
      · exact h _ (List.mem_cons_self ..)
      · exact ih hr c hc

/-- Deleting a byte keeps the canonical form. -/
theorem cellsWf_tdel (k : Nat) (m : List Host.Cell) (h : cellsWf m = true) : cellsWf (tdel m k) = true := by
  induction m with
  | nil => exact h
  | cons e r ih =>
    obtain ⟨k', v'⟩ := e
    have he := (cellsWf_cons _ _).mp h
    simp only [tdel]
    split
    · exact he.2.2
    · exact (cellsWf_cons _ _).mpr ⟨he.1, cellsAbove_tdel _ _ _ he.2.1, ih he.2.2⟩

/-- Storing a byte keeps the canonical form. -/
theorem cellsWf_cellPut (m : List Host.Cell) (a : Nat) (b : Byte) (h : cellsWf m = true) :
    cellsWf (cellPut m a b) = true := by
  unfold cellPut tputD
  split
  · exact cellsWf_tdel _ _ h
  · rename_i hb; exact cellsWf_tput _ _ _ hb h

/-- Storing bytes keeps the canonical form. -/
theorem cellsWf_cellsWrite (m : List Host.Cell) (a : Nat) (b : Bytes) (h : cellsWf m = true) :
    cellsWf (cellsWrite m a b) = true := by
  induction b generalizing m a with
  | nil => exact h
  | cons x r ih => exact ih _ _ (cellsWf_cellPut _ _ _ h)

/-- The memories right after reset are in canonical form. -/
theorem memoryWf_reset : memoryWf State.reset.dev.mem = true := by decide

/-- Storing bytes at a device address keeps the memories in canonical form. -/
theorem memoryWf_rawWrite (d : Dev) (a : Nat) (b : Bytes) (h : memoryWf d.mem = true) :
    memoryWf (rawWrite d a b).mem = true := by
  simp only [memoryWf, Bool.and_eq_true] at h ⊢
  have fold : ∀ (l : List (Byte × Nat)) (m : List Host.Cell), cellsWf m = true →
      cellsWf (l.foldl (fun m e => cellPut m (hostBus d (a + e.2)) e.1) m) = true := by
    intro l
    induction l with
    | nil => exact fun _ hm => hm
    | cons e r ih => exact fun m hm => ih _ (cellsWf_cellPut _ _ _ hm)
  unfold rawWrite
  split
  · exact ⟨⟨h.1.1, fold _ _ h.1.2⟩, h.2⟩
  · exact ⟨⟨h.1.1, h.1.2⟩, cellsWf_cellsWrite _ _ _ h.2⟩
  · exact ⟨⟨cellsWf_cellsWrite _ _ _ h.1.1, h.1.2⟩, h.2⟩

/-! ## What a report leaves alone -/

/-- A report of a word leaves the bytes as they are stored. -/
theorem memoryWf_noteWord (d : Dev) (bad : Bool) (a : Nat) (r : Option Nat) :
    memoryWf (noteWord d bad a r).mem = memoryWf d.mem := by
  unfold noteWord; simp only [logEvent_mem]; split <;> rfl

/-- So does the report of a fault. -/
theorem memoryWf_noteFault (d : Dev) (f : Byte × Option Nat) (who : Option OpName) :
    memoryWf (noteFault d f who).mem = memoryWf d.mem := by
  unfold noteFault; split
  · split <;> simp
  · exact memoryWf_noteWord ..

/-- Counting an access leaves the memories alone. -/
@[simp] theorem countAccess_mem (d : Dev) (w : Bool) (a n : Nat) (who : Option OpName) :
    (countAccess d w a n who).mem = d.mem := by
  unfold countAccess; split <;> simp

/-- The Granary's note of a write leaves the memories alone. -/
@[simp] theorem noteWrite_mem (d : Dev) (a n : Nat) : (noteWrite d a n).mem = d.mem := by
  unfold noteWrite; split <;> rfl

/-- Putting back the words that stay as they are stored keeps the memories in canonical form. -/
theorem memoryWf_keepWord (d e : Dev) (w : Nat) (h : memoryWf d.mem = true) : memoryWf (keepWord e d w).mem = true := by
  simp only [memoryWf, keepWord, Bool.and_eq_true] at h ⊢
  exact ⟨⟨cellsWf_cellsWrite _ _ _ h.1.1, h.1.2⟩, h.2⟩

/-- So does putting back several. -/
theorem memoryWf_keepWords (e : Dev) (ws : List Nat) (d : Dev) (h : memoryWf d.mem = true) :
    memoryWf (ws.foldl (keepWord e) d).mem = true := by
  induction ws generalizing d with
  | nil => exact h
  | cons w r ih => exact ih _ (memoryWf_keepWord _ _ _ h)

/-- Unspecified contents keep the memories in canonical form. -/
theorem memoryWf_scramble (d : Dev) (a n : Nat) (h : memoryWf d.mem = true) : memoryWf (scramble d a n).mem = true := by
  unfold scramble; split
  · refine memoryWf_keepWords _ _ _ (memoryWf_rawWrite _ _ _ ?_)
    simpa [freeBytes] using h
  · exact h

end Sys2Proof.Machine
end

