-- ==== Sys2Proof/Laws/Shared.lean ====
section
/-! SUPPORT. All that the shared operations on bells, counts and fabric ports can do: the parts of the device they may change,
once for each. -/

namespace Sys2Proof.Machine

/-- A count changes the event counters. -/
theorem countEvent_frame (d : Dev) (code amount die : Nat) (tile byRing : Option Nat) :
    ∃ c, countEvent d code amount die tile byRing = { d with counters := c } := ⟨_, rfl⟩

/-- The counts of an access change the event counters. -/
theorem countAccess_frame (d : Dev) (write : Bool) (a len : Nat) (who : Option OpName) :
    ∃ c, countAccess d write a len who = { d with counters := c } := by
  unfold countAccess
  split
  · exact ⟨_, rfl⟩
  · exact ⟨_, rfl⟩
  · exact ⟨_, rfl⟩

/-- A change of a bell changes what the hub holds of its bells, and which operations of its rings are ready. -/
theorem changeBell_frame (d : Dev) (b requester : Nat) (change : BellChange) :
    ∃ r x y z, changeBell d b requester change =
      { d with hub.rings := r, hub.bells := x, hub.bellPtr := y, hub.bellNow := z } := ⟨_, _, _, _, rfl⟩

/-- Flits that leave a port change its record, the outbox and the event counters. -/
theorem emitFlits_frame (d : Dev) (q : Nat) (p : Port) (sent : List Bytes) :
    ∃ c, emitFlits d q p sent = { d with
      fabric.ports := d.fabric.ports.set q p
      out.flits := d.out.flits ++ sent.map fun b => (q, b)
      counters := c } := by
  unfold emitFlits
  simp only
  split
  · exact ⟨_, rfl⟩
  · exact ⟨_, rfl⟩

/-- A port that drains changes the ports, what was sent, and the event counters. -/
theorem drainPort_frame (q fuel : Nat) (d : Dev) :
    ∃ p m b c, drainPort q fuel d = { d with fabric.ports := p, out.fabric := m, out.flits := b, counters := c } := by
  induction fuel generalizing d with
  | zero => exact ⟨_, _, _, _, rfl⟩
  | succ n ih =>
    unfold drainPort
    simp only
    split
    · exact ⟨_, _, _, _, rfl⟩
    · split
      · exact ⟨_, _, _, _, rfl⟩
      · generalize Port.sendFlits _ _ _ = r
        rename_i w _
        obtain ⟨c, e⟩ := emitFlits_frame { d with out.fabric := d.out.fabric ++ [(q, w.2)] } q r.1 r.2
        obtain ⟨_, _, _, _, h⟩ := ih (emitFlits { d with out.fabric := d.out.fabric ++ [(q, w.2)] } q r.1 r.2)
        rw [h, e]
        exact ⟨_, _, _, _, rfl⟩

/-- What a port sends when a message is handed to it changes the ports, what was sent, and the event counters. -/
theorem portSend_frame (d : Dev) (q inPort : Nat) (m : FabMsg) :
    ∃ p x b c, portSend d q inPort m = { d with fabric.ports := p, out.fabric := x, out.flits := b, counters := c } := by
  unfold portSend pumpPort
  generalize hd : ({ d with
    fabric.ports := modAt d.fabric.ports q fun p => { p with waiting := p.waiting ++ [(inPort, m)] } } : Dev) = d1
  simp only
  split
  · subst hd; exact ⟨_, _, _, _, rfl⟩
  · split
    · obtain ⟨_, _, _, _, h⟩ := drainPort_frame q (d1.fabric.ports.getD q {}).waiting.length d1
      rw [h]; subst hd
      exact ⟨_, _, _, _, rfl⟩
    · generalize (d1.fabric.ports.getD q {}).resume = r
      obtain ⟨c, e⟩ := emitFlits_frame d1 q r.1 r.2
      obtain ⟨_, _, _, _, h⟩ := drainPort_frame q (d1.fabric.ports.getD q {}).waiting.length (emitFlits d1 q r.1 r.2)
      rw [h, e]; subst hd
      exact ⟨_, _, _, _, rfl⟩

end Sys2Proof.Machine
end

