-- ==== Sys2Proof/WellFormed.lean ====
section
/-! DEFINITION. Which commands are well formed: every operand lies in the range the manual gives what it names. -/

namespace Sys2Proof

/-- A ring number (R42: 16,384 rings). -/
def ringOk (r : Nat) : Bool := r < 16384
/-- A bell number (R59: 65,536 bells). -/
def bellOk (b : Nat) : Bool := b < 65536
/-- A tile number (R18). -/
def tileOk (t : Nat) : Bool := t < 64
/-- An engine of a tile: 0, or 1 for the second Loom of a V-tile (R150). -/
def engOk (e : Nat) : Bool := e < 2
/-- A die: 0 west, 1 east (R18). -/
def dieOk (d : Nat) : Bool := d < 2
/-- A mailbox (R380). -/
def mbxOk (m : Nat) : Bool := m < 8
/-- A fabric port (R305). -/
def portOk (p : Nat) : Bool := p < 6
/-- A batch class (R298). -/
def classOk (c : Nat) : Bool := c < 16
/-- A stream (R288). -/
def streamOk (n : Nat) : Bool := n < 4096
/-- A table number (R210). -/
def tableOk (n : Nat) : Bool := n < 64
/-- An access of BAR0: 1, 2, 4 or 8 bytes inside the 64 MiB region (R426). Those that R9 does not allow are commands too:
R9 says what becomes of them. -/
def bar0Ok (off width : Nat) : Bool :=
  (width == 1 || width == 2 || width == 4 || width == 8) && decide (off + width <= 0x4000000)
/-- An access of configuration space: 1, 2 or 4 bytes, naturally aligned, in its 4 KiB (R423). -/
def cfgOk (off width : Nat) : Bool :=
  (width == 1 || width == 2 || width == 4) && off % width == 0 && decide (off + width <= 4096)
/-- A stream block is 256 bytes (R284). -/
def blockOk (b : Bytes) : Bool := b.length == 256
/-- A fabric flit is 64 bytes (R308). -/
def flitOk (b : Bytes) : Bool := b.length == 64
/-- A GDDR7 channel of a controller of a die (R334). -/
def channelOk (die mc ch : Nat) : Bool := dieOk die && decide (mc < 12) && decide (ch < 4)

/-- A command is well formed: each operand in range. -/
def Instr.wellFormed : Instr → Bool
  | .powerOn => true
  | .powerLoss => true
  | .bringupPhaseDone found =>
    (found.streams.all fun t => decide (t < 256)) && [64, 32, 16, 8, 5, 2].contains found.link.1 && [8, 4, 2, 1].contains found.link.2 &&
    found.macros.all fun m => decide (m.tile < 64)
  | .trainingRecordWrite => true
  | .thermalTrip _ => true
  | .tripRelease => true
  | .fastLimitEngage => true
  | .fastLimitRelease => true
  | .reevePowerMeasure _ _ => true
  | .tempSample tiles gddr => tiles.length == 64 && gddr.length == 24
  | .perstNAssert => true
  | .perstNDeassert => true
  | .functionLevelReset => true
  | .pcieLinkChange _ _ => true
  | .pcieError _ _ _ => true
  | .hostReadTimeout ring _ => ringOk ring
  | .registerWrite off width _ => bar0Ok off width
  | .llBar2SlideWrite _ => true
  | .bar2Read _ _ => true
  | .bar2Write _ _ => true
  | .llHardHaltWrite _ => true
  | .dbTailWrite ring _ => ringOk ring
  | .dbResumeWrite ring _ => ringOk ring
  | .bellValueWrite bell _ => bellOk bell
  | .bellAddWrite bell _ => bellOk bell
  | .cntWindowRestart _ _ => true
  | .descriptorFetch ring _ => ringOk ring
  | .opIssue ring => ringOk ring
  | .bellWaitStall ring => ringOk ring
  | .opRetire ring _ => ringOk ring
  | .hubNop ring _ => ringOk ring
  | .bellSet ring _ => ringOk ring
  | .bellAdd ring _ => ringOk ring
  | .millMatmul ring _ => ringOk ring
  | .millDrain ring _ => ringOk ring
  | .millRelease ring _ => ringOk ring
  | .millWatchdogExpiry ring _ => ringOk ring
  | .chuteSend ring _ _ => ringOk ring
  | .chuteStall ring _ => ringOk ring
  | .loomRun ring _ _ => ringOk ring
  | .loomWatchdogExpiry tile eng => tileOk tile && engOk eng
  | .loomTakeStall tile eng => tileOk tile && engOk eng
  | .loomNop tile eng _ => tileOk tile && engOk eng
  | .loomEnd tile eng _ => tileOk tile && engOk eng
  | .loomFault tile eng _ => tileOk tile && engOk eng
  | .j tile eng _ => tileOk tile && engOk eng
  | .beq tile eng _ => tileOk tile && engOk eng
  | .bne tile eng _ => tileOk tile && engOk eng
  | .blt tile eng _ => tileOk tile && engOk eng
  | .bge tile eng _ => tileOk tile && engOk eng
  | .bltu tile eng _ => tileOk tile && engOk eng
  | .loop tile eng _ => tileOk tile && engOk eng
  | .bmz tile eng _ => tileOk tile && engOk eng
  | .bmnz tile eng _ => tileOk tile && engOk eng
  | .call tile eng _ => tileOk tile && engOk eng
  | .ret tile eng _ => tileOk tile && engOk eng
  | .sadd tile eng _ => tileOk tile && engOk eng
  | .ssub tile eng _ => tileOk tile && engOk eng
  | .smul tile eng _ => tileOk tile && engOk eng
  | .sand tile eng _ => tileOk tile && engOk eng
  | .sor tile eng _ => tileOk tile && engOk eng
  | .sxor tile eng _ => tileOk tile && engOk eng
  | .sshl tile eng _ => tileOk tile && engOk eng
  | .sshr tile eng _ => tileOk tile && engOk eng
  | .ssra tile eng _ => tileOk tile && engOk eng
  | .smin tile eng _ => tileOk tile && engOk eng
  | .smax tile eng _ => tileOk tile && engOk eng
  | .saddi tile eng _ => tileOk tile && engOk eng
  | .sshli tile eng _ => tileOk tile && engOk eng
  | .sshri tile eng _ => tileOk tile && engOk eng
  | .sli tile eng _ => tileOk tile && engOk eng
  | .slui tile eng _ => tileOk tile && engOk eng
  | .sfadd tile eng _ => tileOk tile && engOk eng
  | .sfmul tile eng _ => tileOk tile && engOk eng
  | .sffma tile eng _ => tileOk tile && engOk eng
  | .sctx tile eng _ => tileOk tile && engOk eng
  | .vadd tile eng _ => tileOk tile && engOk eng
  | .vsub tile eng _ => tileOk tile && engOk eng
  | .vmul tile eng _ => tileOk tile && engOk eng
  | .vfma tile eng _ => tileOk tile && engOk eng
  | .vfms tile eng _ => tileOk tile && engOk eng
  | .vfnma tile eng _ => tileOk tile && engOk eng
  | .vmin tile eng _ => tileOk tile && engOk eng
  | .vmax tile eng _ => tileOk tile && engOk eng
  | .vabs tile eng _ => tileOk tile && engOk eng
  | .vneg tile eng _ => tileOk tile && engOk eng
  | .vrcp tile eng _ => tileOk tile && engOk eng
  | .vrsqrt tile eng _ => tileOk tile && engOk eng
  | .vsqrt tile eng _ => tileOk tile && engOk eng
  | .vdiv tile eng _ => tileOk tile && engOk eng
  | .vexp2 tile eng _ => tileOk tile && engOk eng
  | .vlog2 tile eng _ => tileOk tile && engOk eng
  | .vexp tile eng _ => tileOk tile && engOk eng
  | .vtanh tile eng _ => tileOk tile && engOk eng
  | .vrint tile eng _ => tileOk tile && engOk eng
  | .vldexp tile eng _ => tileOk tile && engOk eng
  | .viadd tile eng _ => tileOk tile && engOk eng
  | .visub tile eng _ => tileOk tile && engOk eng
  | .vimul tile eng _ => tileOk tile && engOk eng
  | .vimin tile eng _ => tileOk tile && engOk eng
  | .vimax tile eng _ => tileOk tile && engOk eng
  | .vand tile eng _ => tileOk tile && engOk eng
  | .vor tile eng _ => tileOk tile && engOk eng
  | .vxor tile eng _ => tileOk tile && engOk eng
  | .vshl tile eng _ => tileOk tile && engOk eng
  | .vshr tile eng _ => tileOk tile && engOk eng
  | .vmov tile eng _ => tileOk tile && engOk eng
  | .vsel tile eng _ => tileOk tile && engOk eng
  | .viota tile eng _ => tileOk tile && engOk eng
  | .vli tile eng _ => tileOk tile && engOk eng
  | .vcmpeq tile eng _ => tileOk tile && engOk eng
  | .vcmpne tile eng _ => tileOk tile && engOk eng
  | .vcmplt tile eng _ => tileOk tile && engOk eng
  | .vcmple tile eng _ => tileOk tile && engOk eng
  | .vcmpun tile eng _ => tileOk tile && engOk eng
  | .visfin tile eng _ => tileOk tile && engOk eng
  | .mand tile eng _ => tileOk tile && engOk eng
  | .mor tile eng _ => tileOk tile && engOk eng
  | .mxor tile eng _ => tileOk tile && engOk eng
  | .mnot tile eng _ => tileOk tile && engOk eng
  | .mprefix tile eng _ => tileOk tile && engOk eng
  | .mpopc tile eng _ => tileOk tile && engOk eng
  | .mfirst tile eng _ => tileOk tile && engOk eng
  | .vcompress tile eng _ => tileOk tile && engOk eng
  | .vexpand tile eng _ => tileOk tile && engOk eng
  | .vperm tile eng _ => tileOk tile && engOk eng
  | .vrot tile eng _ => tileOk tile && engOk eng
  | .vbcast tile eng _ => tileOk tile && engOk eng
  | .vext tile eng _ => tileOk tile && engOk eng
  | .vins tile eng _ => tileOk tile && engOk eng
  | .rsumO tile eng _ => tileOk tile && engOk eng
  | .rsumOa tile eng _ => tileOk tile && engOk eng
  | .rmax tile eng _ => tileOk tile && engOk eng
  | .rmin tile eng _ => tileOk tile && engOk eng
  | .risum tile eng _ => tileOk tile && engOk eng
  | .viscan tile eng _ => tileOk tile && engOk eng
  | .vcvtF2i tile eng _ => tileOk tile && engOk eng
  | .vcvtI2f tile eng _ => tileOk tile && engOk eng
  | .vpack tile eng _ => tileOk tile && engOk eng
  | .vunpl tile eng _ => tileOk tile && engOk eng
  | .vunph tile eng _ => tileOk tile && engOk eng
  | .vcvtX tile eng _ => tileOk tile && engOk eng
  | .vdcdX tile eng _ => tileOk tile && engOk eng
  | .vld tile eng _ => tileOk tile && engOk eng
  | .vst tile eng _ => tileOk tile && engOk eng
  | .vldf tile eng _ => tileOk tile && engOk eng
  | .vstf tile eng _ => tileOk tile && engOk eng
  | .vldx tile eng _ => tileOk tile && engOk eng
  | .vstx tile eng _ => tileOk tile && engOk eng
  | .sld tile eng _ => tileOk tile && engOk eng
  | .sst tile eng _ => tileOk tile && engOk eng
  | .mld tile eng _ => tileOk tile && engOk eng
  | .mst tile eng _ => tileOk tile && engOk eng
  | .vldg tile eng _ => tileOk tile && engOk eng
  | .vstg tile eng _ => tileOk tile && engOk eng
  | .accrd tile eng _ => tileOk tile && engOk eng
  | .chtake tile eng _ => tileOk tile && engOk eng
  | .chsend tile eng _ => tileOk tile && engOk eng
  | .cnsVal tile eng _ => tileOk tile && engOk eng
  | .cnsSat tile eng _ => tileOk tile && engOk eng
  | .cnsNf tile eng _ => tileOk tile && engOk eng
  | .ucvt tile eng _ => tileOk tile && engOk eng
  | .ustf tile eng _ => tileOk tile && engOk eng
  | .convMill ring _ => ringOk ring
  | .quernConv ring _ => ringOk ring
  | .quernPool ring _ => ringOk ring
  | .quernWatchdogExpiry ring _ => ringOk ring
  | .badgerGather ring _ => ringOk ring
  | .badgerScatter ring _ => ringOk ring
  | .ledgerRecordArrive tile table _ _ _ => tileOk tile && tableOk table
  | .ledgerFull ring _ => ringOk ring
  | .badgerUpdate ring _ => ringOk ring
  | .badgerMigrate ring _ => ringOk ring
  | .badgerWatchdogExpiry ring _ => ringOk ring
  | .xmulw tile _ => tileOk tile
  | .xmuli tile _ => tileOk tile
  | .xaddi tile _ => tileOk tile
  | .xmaxi tile _ => tileOk tile
  | .xmini tile _ => tileOk tile
  | .xabs tile _ => tileOk tile
  | .accsum tile _ => tileOk tile
  | .accmax tile _ => tileOk tile
  | .amuli tile _ => tileOk tile
  | .aaddi tile _ => tileOk tile
  | .adivn tile _ => tileOk tile
  | .arsqn tile _ => tileOk tile
  | .stepDecide ring _ => ringOk ring
  | .stepCommit ring _ => ringOk ring
  | .stepDecisionStall ring _ => ringOk ring
  | .ledgerBusyAtCommit ring _ => ringOk ring
  | .shardFetch ring _ => ringOk ring
  | .shardFetchRetry ring _ => ringOk ring
  | .shardFetchStall ring _ => ringOk ring
  | .unitRelease => true
  | .seqReleaseStall ring => ringOk ring
  | .offloadDone ring _ _ _ => ringOk ring
  | .stepAbandonRestart _ => true
  | .migrateDrainDone => true
  | .migrateCopyDone => true
  | .stageMigrateTimeout => true
  | .streamBlockReceived die blk => dieOk die && blockOk blk
  | .decodeStart die => dieOk die
  | .sampleDecodeDone die stream _ => dieOk die && streamOk stream
  | .augSelect die _ _ _ => dieOk die
  | .augCrop die _ _ _ => dieOk die
  | .augFliph die _ _ _ => dieOk die
  | .augResize die _ _ _ => dieOk die
  | .augColour die _ _ _ => dieOk die
  | .augAffine die _ _ _ => dieOk die
  | .augTrim die _ _ _ => dieOk die
  | .augGain die _ _ _ => dieOk die
  | .thBatchTimeout die cls => dieOk die && classOk cls
  | .batchEmit die cls => dieOk die && classOk cls
  | .batchCommit die cls _ => dieOk die && classOk cls
  | .creditBlockSend die => dieOk die
  | .timeBlockSend die => dieOk die
  | .thInject ring _ => ringOk ring
  | .thFlush ring _ => ringOk ring
  | .flitReceived port flits _ => portOk port && flits.length == 10 && flits.all flitOk
  | .nakReceived port _ => portOk port
  | .nakResend port => portOk port
  | .linkInitReceived port _ => portOk port
  | .retrainReqReceived port => portOk port
  | .portRetrainDone port _ => portOk port
  | .fabMessageReceived port _ => decide (port ≤ 6)
  | .fabricRequestTimeout _ => true
  | .lendRequestReceived port _ => decide (port ≤ 6)
  | .timeSyncExchange _ _ _ unsynced => unsynced.all portOk
  | .timeParentLoss => true
  | .snapReqReceived _ => true
  | .coll ring _ => ringOk ring
  | .segmentReceived _ => true
  | .segmentAckReceived ring _ _ => ringOk ring
  | .presentReceived _ => true
  | .collDeadline _ => true
  | .maskReceived _ => true
  | .resultReceived _ => true
  | .collFailTimeout ring _ => ringOk ring
  | .dmCopy ring _ _ _ => ringOk ring
  | .dmFill ring _ => ringOk ring
  | .gddrRecal die mc ch _ => channelOk die mc ch
  | .scrubPatrol _ _ _ => true
  | .gddrEcsRead counts => counts.length == 24
  | .grSnapshot ring _ => ringOk ring
  | .pageTaken die => dieOk die
  | .pageAck die _ => dieOk die
  | .snapshotAckTimeout die _ => dieOk die
  | .seal => true
  | .grRestore ring _ => ringOk ring
  | .grVerify ring _ => ringOk ring
  | .grWcensus ring _ => ringOk ring
  | .wcensusRetry ring _ => ringOk ring
  | .wcensusStall ring _ => ringOk ring
  | .grExport ring _ => ringOk ring
  | .owlEvaluate => true
  | .heartbeat die => dieOk die
  | .iaborWatchdogExpiry die => dieOk die
  | .tallySpill die => dieOk die
  | .counterWindowClose => true
  | .mbxDoorbellRing m _ => mbxOk m
  | .mbxComplete m => mbxOk m
  | .mbNop m => mbxOk m
  | .mbDeviceInfo m => mbxOk m
  | .mbFwStage m _ => mbxOk m
  | .mbFwActivate m => mbxOk m
  | .fwReady => true
  | .fwActivateTimeout _ => true
  | .mbFwCommit m _ => mbxOk m
  | .mbFwStatus m => mbxOk m
  | .mbIdentCert m => mbxOk m
  | .mbAttest m => mbxOk m
  | .mbSanitise m => mbxOk m
  | .mbRingCreate m => mbxOk m
  | .mbRingDestroy m => mbxOk m
  | .mbChuteBind m => mbxOk m
  | .mbChuteUnbind m => mbxOk m
  | .mbLoomLoad m => mbxOk m
  | .mbLoomUnload m => mbxOk m
  | .mbBadgerLoad m => mbxOk m
  | .mbBadgerTable m => mbxOk m
  | .mbNumConfig m => mbxOk m
  | .mbStepClear m => mbxOk m
  | .mbStageBind m => mbxOk m
  | .mbStageUnbind m => mbxOk m
  | .mbSeqLoad m => mbxOk m
  | .mbSeqConfig m => mbxOk m
  | .mbStageMigrate m => mbxOk m
  | .mbThPort m trained => mbxOk m && decide (trained < 256)
  | .mbThStream m => mbxOk m
  | .mbThClass m => mbxOk m
  | .mbThAugLoad m => mbxOk m
  | .mbThVocab m => mbxOk m
  | .mbFabConfig m _ => mbxOk m
  | .mbFabPort m _ => mbxOk m
  | .mbFabStatus m => mbxOk m
  | .mbFabRoute m => mbxOk m
  | .mbGroupSet m => mbxOk m
  | .mbGroupClear m => mbxOk m
  | .mbMemRecal m => mbxOk m
  | .mbMemScrub m => mbxOk m
  | .mbMemHostmap m => mbxOk m
  | .mbMemLend m => mbxOk m
  | .mbMemBorrow m => mbxOk m
  | .mbGranaryConfig m => mbxOk m
  | .mbOwlConfig m => mbxOk m
  | .mbOwlStatus m => mbxOk m
  | .mbTelemetry m => mbxOk m
  | .mbPowerDomain m => mbxOk m
  | .mbPowerLimit m => mbxOk m
  | .mbTrainSave m _ => mbxOk m
  | .mbTallyRead m => mbxOk m
  | .mbCounterSelect m => mbxOk m
  | .bar0Read off width => bar0Ok off width
  | .configSpaceWrite off width _ => cfgOk off width

end Sys2Proof
end

