-- ==== Sys2Proof/Tests/Slice0.lean ====
section
/-! SUPPORT. Tests of single commands on small states, and for each statement a state and operands that meet its hypotheses. -/

open Sys2Proof Sys2Proof.Machine Sys2Proof.Safety

namespace Sys2Proof.Tests

-- One test after another: many at once take more memory than there is.
set_option Elab.async false

/-! ## Small states -/

/-- A device after bring-up: ready, every domain ON, firmware running. -/
def readyDev : Dev :=
  let d := State.reset.dev
  { d with
    power.phase := 0xF, power.phaseH := true, power.ready := true, power.domains := List.replicate 157 .on, iabor.up := true
    flash.slots := [{ st := 3, preferred := true }, {}] }

/-- A state with no command waiting. -/
def stateOf (d : Dev) : State := { dev := d, pending := [] }

/-- A descriptor of 128 bytes with an opcode and fields. -/
def descOf (code : Nat) (fields : List (Nat × Bytes)) : Bytes :=
  fields.foldl (fun b f => splice b f.1 f.2) (splice (List.replicate 128 0) 0 (leBytes 2 code))

/-- An issued operation, sequence number 0. -/
def opOf (code : Nat) (fields : List (Nat × Bytes)) : Op := { seq := 0, desc := descOf code fields, phase := .issued }

/-- The name of sequence number 0 of ring 0. -/
def name0 : OpName := { ring := 0, seq := 0 }

/-- A ring that holds operations. -/
def ringOf (target : Nat) (ops : List Op) : Ring :=
  { base := 0x10000, log2len := 6, target := target, vector := 0, waitLimit := 100, submitted := 8,
    fetch := BitVec.ofNat 32 ops.length, ops := ops }

/-- The ready device with ring 0 for a target and one operation on it. -/
def devOf (target : Nat) (o : Op) : Dev := { readyDev with hub.rings := [(0, ringOf target [o])] }

/-! ## Hypotheses that can be met -/

/-! ### Steps, power and the host -/

theorem witness_UnpoweredDeviceIsInert :
    (stateOf { readyDev with power.on := false }).dev.power.on = false ∧
    Instr.heartbeat 0 ∉ [.powerOn, .tripRelease, .perstNAssert, .perstNDeassert] ∧
    (stateOf { readyDev with power.on := false }).pending = [] := by decide +kernel

theorem witness_HardHaltStopsEngines :
    powered (stateOf readyDev) ∧ barOpen readyDev = true ∧ readyDev.hub.hardHalted = false ∧
    outsideEngines (.opIssue 0) = false ∧ { readyDev with hub.hardHalted := true }.hub.hardHalted = true := by decide +kernel

theorem witness_EmptyQueuePassesAPulse :
    (stateOf readyDev).pending = [] ∧ readyDev.power.on = true ∧ { readyDev with power.on := false }.power.on = false := by decide +kernel

/-- An empty queue: the step that follows. -/
theorem witness_NoStallSurvives :
    (stateOf readyDev).dev.granary.stalls = [] ∧ ∃ t, Sys2Proof.Machine.step (stateOf readyDev) = .next t :=
  ⟨by decide +kernel, _, rfl⟩

theorem witness_LoomCodeRoundTrip :
    fieldsOf LoomOp.vsub.info.format { mask := 1, d := 1, a := 0, b := 7, bs := true } = true ∧
    decodeLoom 0x3110040 = none ∧
    decodeLoom 0x31100401C0080000 = some { op := .vsub, f := { mask := 1, d := 1, a := 0, b := 7, bs := true } } := by
  decide +kernel

/-! ### The Loom -/

/-- An instruction of each opcode that a load accepts. -/
def formOf (op : LoomOp) : LoomFields :=
  let n := op.info
  let pick (r : LoomRole) (i : BitVec 6) : BitVec 6 := if r = .unused ∨ r = .index then 0 else i
  { d := pick n.d 5, a := pick n.a 1, b := pick n.b 2, c := pick n.c 3, x := pick n.x 4, f := pick n.f 2
    ty := match n.types with
      | none => 0
      | some l => BitVec.ofNat 3 (l.headD 0) }

/-- Loom 0 of tile 1 before the first instruction, `i`, of a program of ten, where s1 holds an address and s2 a tensor word. -/
def loomDev (o : Op) (i : LoomInstr := { op := .loomNop, f := {} }) : Dev :=
  let l : Loom := {
    run := some name0, length := 10, s := [0, 64, 0x30003] ++ List.replicate 29 0
    images := [{ id := 0, slot := 0, instrs := encodeLoom i :: List.replicate 9 0, entries := [0] }] }
  { devOf 1 o with looms := [(loomIndex 1 0, l)] }

/-- The running operation, with accumulator set 0, queue 2 to take from and queue 3 of tile 2 to send to. -/
def loomOp : Op := opOf 0x0201 [(36, [0x80]), (40, [0x82]), (48, [0x02, 0x83, 1])]

/-- The device with a set, an entry to take and a queue to send to. -/
def loomFull (i : LoomInstr := { op := .loomNop, f := {} }) : Dev :=
  let e : Entry := { slot := 0, header := List.replicate 64 0, bytes := 16, st := .committed }
  { loomDev loomOp i with
    mills := [(1, { sets := [{ handle := 0, owner := 0, fmt := 0, shape := 0, stale := false }] })]
    chutes := [(18, { producer := 5, depth := 2, slotKib := 1, offset := 0x1000, stallMs := 100, entries := [e] }),
      (35, { producer := 1, depth := 2, slotKib := 1, offset := 0x1000, stallMs := 100 })] }

/-- Every instruction of a Loom may issue on some state: the hypotheses of each result of the Loom. -/
theorem witness_LoomResults :
    ∀ op ∈ loomOps, loomReady (stateOf (loomDev loomOp { op := op, f := formOf op })) 1 0 name0 loomOp op (formOf op) := by decide +kernel

/-- RET within the program, and beyond its end. -/
theorem witness_LoomFlowAndEnds :
    let l := getLoom (loomDev loomOp) 1 0
    (l.sreg 31).toNat < l.length ∧
    (let d : Dev := { loomDev loomOp { op := .ret, f := formOf .ret } with looms := [(loomIndex 1 0, { getLoom (loomDev loomOp { op := .ret, f := formOf .ret }) 1 0 with length := 0 })] }
     loomReady (stateOf d) 1 0 name0 loomOp .ret (formOf .ret) ∧
     (getLoom d 1 0).length ≤ ((getLoom d 1 0).sreg 31).toNat) := by decide +kernel

theorem witness_LoomConversionResults :
    laneWordBad 0 3 = false ∧ laneWordBad 0 0x0D = true := by decide +kernel

theorem witness_LoomLoadAndStoreResults :
    plainMemory (loomDev loomOp) ∧
    (∀ op ∈ [LoomOp.vld, .vst, .sld, .sst, .mld, .mst, .vldx, .vstx],
      let l := getLoom (loomDev loomOp) 1 0
      l.address (formOf op) % 16 = 0 ∧ sramClear (loomDev loomOp) 1 (l.address (formOf op)) 1024 ∧
      ∀ k ∈ List.range 256, isActive l (formOf op) k ∧ (l.address (formOf op) + (lane l (formOf op).x k).toNat) % 2 ^ 64 % 4 = 0) ∧
    (∀ op ∈ [LoomOp.vldg, .vstg], gddrClear (loomDev loomOp) 0 ((getLoom (loomDev loomOp) 1 0).address (formOf op)) 1024) := by
  decide +kernel

theorem witness_LoomTypedAccessResults :
    plainMemory (loomDev loomOp) ∧ (0x30003 : W64).toNat % 65536 = 3 ∧ tensorOf 0x30003 = some 3 ∧ typedWordBad 3 = false ∧ wordRefused 3 = false ∧
    (fmtOf 3).mx = false ∧ 1 ≤ fmtBits (fmtOf 3).code / 8 ∧ sramClear (loomDev loomOp) 1 64 256 ∧
    (getLoom (loomDev loomOp) 1 0).sreg (formOf .vldf).f = 0x30003 ∧ (getLoom (loomDev loomOp) 1 0).sreg (formOf .vstf).f = 0x30003 ∧
    (getLoom (loomDev loomOp) 1 0).sreg (formOf .ucvt).b = 0x30003 ∧ (getLoom (loomDev loomOp) 1 0).sreg (formOf .ustf).b = 0x30003 ∧
    (getLoom (loomDev loomOp) 1 0).sreg (formOf .ustf).a = 64 := by
  decide +kernel

theorem witness_LoomCensusResults :
    ∀ op ∈ [LoomOp.cnsVal, .cnsSat, .cnsNf], ((getLoom (loomDev loomOp) 1 0).sreg (formOf op).b).toNat < 2 ^ 28 := by decide +kernel

theorem witness_LoomAccumulatorAndChuteResults :
    let s (op : LoomOp) (f : LoomFields) := stateOf (loomFull { op := op, f := f })
    let l := getLoom loomFull 1 0
    (loomReady (s .accrd { d := 5 }) 1 0 name0 loomOp .accrd { d := 5 } ∧ bit (loomOp.f 36 1) 7 = true ∧
      (setAt loomFull 1 0).isSome = true ∧ (shapeDims 0).1 ≠ 0 ∧ 256 ≤ (shapeDims 0).2) ∧
    (loomRuns (s .chtake (formOf .chtake)) 1 0 name0 loomOp .chtake (formOf .chtake) ∧ bit (loomOp.f 40 1) 7 = true ∧
      ∃ c x, getChute loomFull 1 2 = some c ∧ l.taken.getD 0 0 < c.depth ∧ c.takeable 0 = some x ∧ x.transit = false ∧
        takeGranted loomFull { tile := 1, eng := 0, op := name0 } 18 c = true) ∧
    (loomRuns (s .chsend { a := 1 }) 1 0 name0 loomOp .chsend { a := 1 } ∧ plainMemory loomFull ∧ bit (loomOp.f 48 4) 15 = true ∧
      ∃ c, getChute loomFull 2 3 = some c ∧ l.sent.getD 0 0 < bits (loomOp.f 48 4) 22 16 ∧ c.credits ≠ 0 ∧
        queueHeld loomFull 2 = false ∧ c.offset + c.storage ≤ tileCapacity 2 ∧ sramClear loomFull 1 64 0) := by
  refine ⟨by decide +kernel, ⟨by decide +kernel, by decide +kernel, _, _, rfl, by decide +kernel, rfl, by decide +kernel, by decide +kernel⟩,
    ⟨by decide +kernel, by decide +kernel, by decide +kernel, _, rfl, by decide +kernel, by decide +kernel, by decide +kernel, by decide +kernel, by decide +kernel⟩⟩

/-- LOOM_RUN of the oldest operation of a Loom that runs none. -/
theorem witness_LoomRunStarts :
    let img : LoomImage := { id := 7, slot := 0, instrs := [0], entries := [0] }
    let o := { loomOp with image := 7 }
    let d : Dev := { devOf 1 o with looms := [(loomIndex 1 0, { images := [img] })] }
    atWork (stateOf d) ∧ issuedOp d name0 = some o ∧ o.opcode = 0x0201 ∧ ringTarget d 0 = some (.loom 1 0) ∧ loomRunning d 1 0 = none ∧
    (issuedTo d (.loom 1 0)).head?.map (fun e => (e.1, e.2.seq)) = some (0, 0) ∧
    (getLoom d 1 0).images.find? (fun i => i.id == o.image) = some img := by decide +kernel

/-- LOOM_RUN of a running operation, at any instruction. -/
theorem witness_LoomRunStarts_runs :
    ∀ op ∈ loomOps,
      let d := loomDev loomOp { op := op, f := formOf op }
      loomRuns (stateOf d) 1 0 name0 loomOp op (formOf op) ∧ ringTarget d 0 = some (.loom 1 0) ∧ loomOp.opcode = 0x0201 ∧
      d.granary.st ≠ .copying := by decide +kernel

/-- A Loom past its watchdog's limit; one that has waited longer than its ring's limit, and one at the limit; an operation with an
entry to send and a queue without and with a credit. -/
theorem witness_LoomWaitsAndSends :
    (let l : Loom := { run := some name0, length := 10, limit := 1 }
     let d : Dev := { devOf 1 loomOp with looms := [(loomIndex 1 0, l)], clock.core := List.replicate 20 65536, clock.cyc := 65536 }
     loomRunning d 1 0 = some (name0, loomOp) ∧ l.startAt + l.waited + l.limit.toNat * 65536 ≤ engineCycles d (.loom 1 0)) ∧
    (∀ p ∈ [125000000, 125000002],
      let l : Loom := { run := some name0, length := 10, waitFrom := some 0 }
      let d : Dev := { devOf 1 loomOp with looms := [(loomIndex 1 0, l)], clock.pulse := p }
      loomRunning d 1 0 = some (name0, loomOp) ∧ getRing d 0 = some (ringOf 1 [loomOp]) ∧ l.waitOut = none ∧ l.waitLogged = false ∧
      (0 + (ringOf 1 [loomOp]).waitLimit * 1000000 < deviceTime d ↔ p = 125000002)) ∧
    (let e : Send := { consumer := 2, queue := 3, header := List.replicate 64 0, payload := [1, 2] }
     let o := { loomOp with sends := [e], sendFrom := some 0 }
     let q : Chute := { producer := 1, depth := 0, slotKib := 1, offset := 0x1000, stallMs := 100 }
     ∀ depth ∈ [0, 2], ∀ p ∈ [125000000, 125000002],
       let d : Dev := { devOf 1 o with chutes := [(35, { q with depth := depth })], clock.pulse := p }
       issuedOp d name0 = some o ∧ getChute d 2 3 = some { q with depth := depth } ∧ queueHeld d 2 = false ∧
       ({ q with depth := depth }.credits = depth) ∧ (0 + q.stallMs * 1000000 < deviceTime d ↔ p = 125000002)) := by
  decide +kernel

/-! ### Power and the host -/

/-- A device in a phase of bring-up, with a byte of SRAM and one of GDDR7. -/
def phaseDev (phase : BitVec 4) : Dev :=
  { readyDev with
    power.phase := phase, power.phaseH := false, power.ready := false, power.domains := State.reset.dev.power.domains
    mem.cells := [(0x1000, 5), (sramBase 1, 7)] }

theorem witness_PowerOnAndOff :
    (let d := { readyDev with power.on := false }
     d.power.on = false ∧ d.power.tripLatched = false) ∧ readyDev.power.on = true ∧ (115 : Int) ≤ 115 := by decide +kernel

/-- Six ports that trained. -/
def sixPorts : List PortTrain := List.replicate 6 {}

theorem witness_BringupPhases :
    powered (stateOf (phaseDev 1)) ∧ (phaseDev 1).power.phase = 1 ∧ linkRuns 64 8 = true ∧
    (let d := phaseDev 2
     let e : Dev := { d with flash.slots := [{}, {}] }
     d.power.phase = 2 ∧ d.power.noFw = false ∧ ∀ k, k < 2 → (fwSlot e k).st ≠ 2) ∧
    (∀ p ∈ [3, 4, 5, 6, 7], firmwareRuns (phaseDev (BitVec.ofNat 4 p)) 0 = true ∧ (phaseDev (BitVec.ofNat 4 p)).power.phaseH = false) ∧
    (let d := phaseDev 4
     d.units.decoders = List.replicate 8 8 ∧ d.units.iabor = [4, 4] ∧ dieRetired d 1 = false ∧ d.flash.trained = false) ∧
    sixPorts.length = 6 ∧ ([] : List PortTrain).length ≠ 6 ∧
    ({ phaseDev 7 with power.phaseH := true }.power.phaseH = true ∧
      firmwareRuns { phaseDev 7 with power.phaseH := true } 0 = true) := by decide +kernel

theorem witness_PowerAndHeatLevels :
    powered (stateOf readyDev) ∧ readyDev.power.fastLimit = false ∧ firmwareRuns readyDev 0 = true ∧
    (List.replicate 64 (95 : Int)).length = 64 ∧ (List.replicate 24 (100 : Int)).length = 24 := by decide +kernel

/-- A device 250 ms after its clusters began. -/
def silentDev : Dev :=
  { readyDev with clock.pulse := 312500000, iabor.mbx := [{ st := .busy }] ++ List.replicate 7 {}, power.recordDue := true }

/-- Each cluster silent, and reset twice before; mailboxes idle, BUSY with an east unit's command, and BUSY with a west one's. -/
theorem witness_HeartbeatsAndTrainingRecord_clusters :
    ∀ die ∈ [0, 1], ∀ resets ∈ [[], [0, 1]],
      let c : Cluster := { resets := resets }
      let ask (t : Byte) : Mailbox := { st := .busy, req := leBytes 2 0x0201 ++ List.replicate 14 0 ++ [t], answer := some mbHeld }
      let d := { silentDev with iabor.clusters := [c, c], iabor.mbx := [{}, ask 33, ask 3] }
      powered (stateOf d) ∧ d.hub.hardHalted = false ∧ firmwareRuns d die = true ∧ d.iabor.clusters[die]? = some c ∧
      silentSince d die + 250000000 ≤ deviceTime d ∧ d.iabor.mbx.map (namesEast d) = [false, true, false] := by decide +kernel

theorem witness_HeartbeatsAndTrainingRecord :
    let c : Cluster := { beats := 0 }
    powered (stateOf silentDev) ∧ silentDev.hub.hardHalted = false ∧ firmwareRuns silentDev 0 = true ∧
    silentDev.iabor.clusters[0]? = some c ∧ (∀ t, c.lastBeat = some t → t + 1000000 ≤ deviceTime silentDev) ∧
    silentSince silentDev 0 + 250000000 ≤ deviceTime silentDev ∧
    (c.resets.filter fun t => decide (deviceTime silentDev < t + 10000000000)).length < 2 ∧
    silentDev.power.recordDue = true := by
  refine ⟨by decide +kernel, by decide +kernel, by decide +kernel, by decide +kernel, ?_, by decide +kernel, by decide +kernel,
    by decide +kernel⟩
  intro t h
  cases h

/-- The ready device with a ring, a bell, a bound queue and an event enabled for interrupts. -/
def busyDev : Dev :=
  { devOf 1 (opOf 0x0201 []) with
    hub.bells := [(3, 9)], hub.dropped := 5, chutes := [(18, { producer := 5, depth := 2, slotKib := 1, offset := 0x1000, stallMs := 100 })]
    host.irqCause := 3, mem.cells := [(0x1000, 5)] }

theorem witness_FunctionLevelReset :
    configOpen busyDev = true ∧ romServes busyDev = false ∧ configOpen { busyDev with power.perst := true } = false ∧
    busyDev.power.on = true ∧ busyDev.power.ready = true ∧ busyDev.power.perst = false ∧
    (phaseDev 4).power.ready = false ∧ (phaseDev 4).power.perst = false := by decide +kernel

theorem witness_PcieErrorsAndLinkChanges :
    atWork (stateOf busyDev) ∧ configOpen busyDev = true ∧ issuedOp busyDev name0 = some (opOf 0x0201 []) ∧
    [64, 32, 16, 8, 5, 2].contains 32 = true ∧ [8, 4, 2, 1].contains 4 = true ∧ (32 ≠ busyDev.host.speed ∨ 4 ≠ busyDev.host.width) := by
  decide +kernel

theorem witness_Bar0Accesses :
    powered (stateOf busyDev) ∧ configOpen busyDev = true ∧ barOpen busyDev = true ∧ busyDev.host.d3hot = false ∧ busyDev.hub.hardHalted = false ∧
    accessAllowed busyDev 0x50 4 = true ∧ accessAllowed busyDev 0x50 8 = false ∧
    (windowShut busyDev 0x1002008 = false ∧ tileType 0 = .mTile) ∧ (∀ e, e < 2 → windowShut busyDev (0x1083008 + 0x100 * e) = false ∧ loomExists 1 e = true) ∧
    (∃ t, t < 64 ∧ windowShut busyDev (0x1000000 + 0x80000 * t + 0x4008) = false ∧ tileType t = .qTile) ∧
    (∃ t, t < 64 ∧ windowShut busyDev (0x1000000 + 0x80000 * t + 0x5008) = false ∧ tileType t = .bTile) ∧
    (((0x40000000#64).extractLsb' 30 7).toNat % 2 ^ 0 = 0 ∧ ((0x40000000#64).extractLsb' 30 7).toNat % 2 ^ busyDev.host.bar2 ≠ 0 ∧
      ((0#64).extractLsb' 30 7).toNat % 2 ^ busyDev.host.bar2 = 0) ∧
    ((3 : W32).toNat % 4 = 3) := by decide +kernel

theorem witness_Bar2Accesses :
    powered (stateOf busyDev) ∧ configOpen busyDev = true ∧ barOpen busyDev = true ∧ plainMemory busyDev ∧
    bar2Address busyDev 0x1000 8 = some 0x1000 ∧ memClear busyDev 0x1000 8 ∧
    bar2Address busyDev (2 ^ 34 - 4) 8 = none ∧ busyDev.host.d3hot = false ∧ busyDev.hub.hardHalted = false := by decide +kernel

/-- A window of 1000 ns that has ended, with a counter that counted, and a Tally record to spill. -/
def countingDev : Dev :=
  { readyDev with
    clock.pulse := 1250, counters.period := 1000, counters.tile := [(0, { count := 9, sel := 1, inWindow := 4 })]
    tally := [{ written := 1, recs := [(0, { first := 0, last := 0, detail := 0, count := 1, event := 0, source := 0 })] }, {}] }

theorem witness_CountersAndTally :
    powered (stateOf countingDev) ∧ barOpen countingDev = true ∧ firmwareRuns countingDev 0 = true ∧
    countingDev.counters.period ≠ 0 ∧ countingDev.counters.base + (countingDev.counters.next + 1) * countingDev.counters.period = deviceTime countingDev ∧
    ({ countingDev with clock.pulse := 1249 }.counters.base + 1000 > deviceTime { countingDev with clock.pulse := 1249 }) ∧
    ∃ t, countingDev.tally[0]? = some t ∧ t.spilled < t.written ∧ t.spilled < t.consumed + 524288 := by
  refine ⟨by decide +kernel, by decide +kernel, by decide +kernel, by decide +kernel, by decide +kernel, by decide +kernel, _, rfl, by decide +kernel, by decide +kernel⟩

/-! ### The ring hub -/

/-- Ring 0 of a data mover with four operations to fetch, in memory at its base: NOP as sequence number 0. -/
def fetchDev : Dev :=
  { readyDev with
    hub.rings := [(0, { base := 0x10000, log2len := 2, target := 0x130, vector := 0, waitLimit := 100, submitted := 4 })] }

/-- The same after the descriptor was fetched. -/
def fetchedDev (o : Op) : Dev := { readyDev with hub.rings := [(0, ringOf 0x130 [o])] }

/-- The current value, a value in range at LEN beyond RETIRED, one beyond it, a ring that does not exist. -/
theorem witness_TailDoorbell :
    powered (stateOf fetchDev) ∧ barOpen fetchDev = true ∧ isMember fetchDev 0 = false ∧ getRing fetchDev 1 = none ∧
    ∃ r, getRing fetchDev 0 = some r ∧ (4 : W32) = r.submitted ∧
      (((7 : W32) - r.submitted).toNat < 2 ^ 31 ∧ ((4 : W32) - r.retired).toNat ≤ 2 ^ r.log2len) ∧
      ¬((5 : W32) - r.retired).toNat ≤ 2 ^ r.log2len := by
  refine ⟨by decide +kernel, by decide +kernel, by decide +kernel, by decide +kernel, _, rfl, rfl, by decide +kernel, by decide +kernel⟩

theorem witness_HostBells : configOpen readyDev = true ∧ atWork (stateOf readyDev) ∧ barOpen readyDev = true ∧ 65535 < 65536 ∧
    bellQuiet readyDev 65535 ∧
    (∀ p ∈ [0, 13], let d : Dev := { readyDev with hub.bellPtr := tputD [] 300 p 0 }
      bellQuiet d 300 ∧ 12 < 16384 ∧ tgetD d.hub.bellPtr 300 0 ≤ 16384) := by
  decide +kernel

/-- The manual's example of R60: ring 12 adds 5 to bell 300 and the host sets it to 0 in one control cycle. -/
theorem test_bell_order : ∀ p ∈ [(0, 0), (13, 5)],
    bellValue (changeBell (changeBell { readyDev with hub.bellPtr := tputD [] 300 p.1 0 } 300 12 (.add 5)) 300 16384 (.set 0)) 300 =
      BitVec.ofNat 32 p.2 := by decide +kernel

/-- A fetch that passes the checks and one that fails them (NOP with a reserved bit); an issue on the data mover, and one that the
domain's state refuses. -/
theorem witness_FetchAndIssue :
    (let r : Ring := { base := 0x10000, log2len := 2, target := 0x130, vector := 0, waitLimit := 100, submitted := 4 }
     atWork (stateOf fetchDev) ∧ getRing fetchDev 0 = some r ∧ (targetOf r.target).isSome = true ∧ mayFetch r = true ∧
     memClear fetchDev 0x10000 128 ∧ r.hasPlace = true ∧ inFlightTotal fetchDev + fetchDev.hub.rings.length ≤ 4096 ∧
     headerCheck fetchDev 0 (.mover 0) (fetchedOp fetchDev r (cellsRead fetchDev.mem.cells 0x10000 128)) = none ∧
     (let d : Dev := { fetchDev with mem.cells := [(0x10003, 0x80)] }
      headerCheck d 0 (.mover 0) (fetchedOp d r (cellsRead d.mem.cells 0x10000 128)) ≠ none)) ∧
    (let o : Op := { opOf 0x0801 [(48, [8]), (52, [1])] with phase := .fetched, readyAt := some 0 }
     let d : Dev := fetchedDev o
     ((ringOf 0x130 [o]).ops.map (·.seq)).Nodup ∧ getRing d 0 = some (ringOf 0x130 [o]) ∧ issuable d (ringOf 0x130 [o]) = some o ∧
     issueGranted d 0 (ringOf 0x130 [o]) o = true ∧ o.failedFetch = false ∧ targetRefuses d 0 (.mover 0) o = none ∧
     moverCount o ≠ 0) ∧
    (∀ x ∈ [((0x130 : Nat), (0x0801 : Nat)), (0x120, 0x0701), (0x120, 0x0702), (0x120, 0x0704)],
      let o : Op := { opOf x.2 [] with phase := .fetched, readyAt := some 0 }
      let d : Dev := { readyDev with hub.rings := [(0, ringOf x.1 [o])], steps.oldest := 1, granary.st := .armed }
      issuable d (ringOf x.1 [o]) = some o ∧ issueGranted d 0 (ringOf x.1 [o]) o = true ∧ o.f 32 8 < d.steps.oldest ∧
      ((targetOf x.1).map fun t => targetRefuses d 0 t o) = some none ∧ restoreBusy d (o.name 0) = true ∧ censusStep d (o.f 32 8) = false) ∧
    (let o : Op := { opOf 0x0303 [(32, [1, 0, 1, 0, 3, 3, 1, 1, 1, 0, 1, 0]), (52, [1, 0, 1]), (60, [1, 1])] with
        phase := .fetched, readyAt := some 0 }
     let d : Dev := { readyDev with hub.rings := [(0, ringOf 31 [o])] }
     issuable d (ringOf 31 [o]) = some o ∧ issueGranted d 0 (ringOf 31 [o]) o = true ∧ targetRefuses d 0 (.quern 31) o = none ∧
     targetOf 31 = some (.quern 31) ∧ convEmpty o = true) ∧
    (let o : Op := { opOf 0x0201 [] with phase := .fetched, readyAt := some 0 }
     let d : Dev := { readyDev with hub.rings := [(0, ringOf 1 [o])], power.domains := List.replicate 157 .off }
     issuable d (ringOf 1 [o]) = some o ∧ issueGranted d 0 (ringOf 1 [o]) o = true ∧ targetRefuses d 0 (.loom 1 0) o ≠ none) := by
  decide +kernel

/-- A wait at its limit, and beyond it. -/
theorem witness_BellWaitStalls :
    ∀ p ∈ [125000000, 125000002],
      let o : Op := { opOf 0 [(2, [1]), (12, [5])] with phase := .fetched, waitFrom := some 0 }
      let d : Dev := { fetchedDev o with clock.pulse := p }
      atWork (stateOf d) ∧ getRing d 0 = some (ringOf 0x130 [o]) ∧ (ringOf 0x130 [o]).ops = [o] ∧ o.phase = .fetched ∧
      waitsMet d o = false ∧ o.readyAt = none ∧ o.waitLogged = false ∧ (0 + (ringOf 0x130 [o]).waitLimit * 1000000 < deviceTime d ↔ p = 125000002) := by
  decide +kernel

/-- An ended operation of a data mover, with a status word and a signal; in the success class, and failed. -/
def endedOp (st : Byte) (flags : Byte) : Op :=
  { opOf 0x0801 [(2, [flags]), (6, [7]), (24, leBytes 8 0x2000)] with phase := .complete, status := st, issuedAt := 1, completeAt := 2 }

/-- The device a few cycles later. -/
def retireDev (o : Op) : Dev := { fetchedDev o with clock.cyc := 9, clock.pulse := 9 }

theorem witness_Retirement :
    (let o := endedOp 0 0x14
     atWork (stateOf (retireDev o)) ∧ unstaged (retireDev o) ∧ plainMemory (retireDev o) ∧
     retires (retireDev o) 0 (ringOf 0x130 [o]) (.mover 0) o [] ∧ o.status.toNat < 0x20 ∧ o.failedFetch = false ∧
     o.wordAllowed = true ∧ o.opcode ≠ 0x0981 ∧ 3 ≤ o.opcode ∧ awaits (retireDev o) (o.name 0) = false ∧ o.statusEn = true ∧
     o.sigEn = true ∧ memClear (retireDev o) o.statusAddr 32 ∧ bellQuiet (retireDev o) o.sigBell) ∧
    (let o := endedOp 0x20 0
     retires (retireDev o) 0 (ringOf 0x130 [o]) (.mover 0) o [] ∧ 0x20 ≤ o.status.toNat ∧ o.status.toNat < 0xF0 ∧
     o.statusEn = false ∧ o.outs = []) ∧
    (let r := { ringOf 0x130 [] with st := .halted, haltSeq := 5 }
     let d : Dev := { readyDev with hub.rings := [(0, r)] }
     barOpen d = true ∧ getRing d 0 = some r ∧ r.st = .halted ∧ (5 : W32) = r.haltSeq ∧ (6 : W32) ≠ r.haltSeq) := by
  decide +kernel

/-- The oldest operation of its ring, and one behind another. -/
theorem witness_RingHubOperations :
    ∀ code ∈ [0, 1, 2],
      let o := opOf code [(32, [3]), (36, [9, 1])]
      (let d := fetchedDev o
       atWork (stateOf d) ∧ getRing d 0 = some (ringOf 0x130 [o]) ∧ targetOf 0x130 = some (.mover 0) ∧ issuedOp d name0 = some o ∧
       o.opcode = code ∧ unstaged d ∧ (ringOf 0x130 [o]).st = .running ∧ (ringOf 0x130 [o]).haltAt = none ∧ o.failedFetch = false ∧
       o.census = [] ∧ o.statusEn = false ∧ o.sigEn = false ∧ o.irq = false ∧ awaits d name0 = false ∧ bellQuiet d (o.f 32 2)) ∧
      (let p : Op := { o with seq := 1 }
       let d : Dev := { readyDev with hub.rings := [(0, ringOf 0x130 [o, p])] }
       issuedOp d { ring := 0, seq := 1 } = some p ∧ o.seq ≠ p.seq) := by decide +kernel

/-! ### Mills and Querns -/

/-- A device with bytes stored. -/
def withBytes (d : Dev) (l : List (Nat × Bytes)) : Dev :=
  { d with mem.cells := l.foldl (fun m e => cellsWrite m e.1 e.2) d.mem.cells }

/-- A product of 2 rows by 2 over 40 positions of format 3 into set 0, under SET or ADD. -/
def matmulOp (mode : Byte) : Op :=
  opOf 0x0101 [(36, leBytes 4 0x100), (48, [64]), (52, [64]), (60, [3]), (62, [3]), (64, [2]), (66, [2]), (68, [40]), (74, [mode])]

/-- Set 0 of a Mill, FP32 of shape 0, with four elements. -/
def set0 (stale : Bool) : AccSet := { handle := 0, owner := 0, fmt := 0, shape := 0, stale := stale, elems := [0x3F800000, 0x40000000, 0xC0400000, 0x7F800000] }

/-- Tile 0 with set 0 and operands in its SRAM. -/
def millDev (o : Op) (stale : Bool) : Dev :=
  withBytes { devOf 0 o with mills := [(0, { sets := [set0 stale] })] }
    [(sramBase 0, [0x38, 0x40, 0x12, 0xA5]), (sramBase 0 + 64, [0x7F, 0x33]), (sramBase 0 + 0x100, [0x38, 0x41]), (sramBase 0 + 0x100 + 64, [0xB3, 0x20])]

/-- SET, ADD on a set that is not stale, ADD on a stale one. -/
theorem witness_MillMatmul :
    ∀ x ∈ [((0 : Byte), true), (1, false), (1, true)],
      let o := matmulOp x.1
      let d := millDev o x.2
      atWork (stateOf d) ∧ atEngine d 0x0101 name0 (.mill 0) o ∧ setAt d 0 o.handle = some (set0 x.2) ∧
      sideClear d (millSides 0 o).1 (o.f 68 4) ∧ sideClear d (millSides 0 o).2 (o.f 68 4) ∧ o.drains = false := by decide +kernel

/-- A drain of 2 rows of 2 to GDDR7 as FP32. -/
def drainOp : Op := opOf 0x0102 [(64, [2]), (66, [2]), (80, leBytes 8 0x1000), (104, [16])]

theorem witness_MillDrainReleaseAndWatchdog :
    (let d := millDev drainOp false
     let row (i : Nat) : OutRow := convertRow (fmtOf (drainOp.f 112 2)) (drainOp.f 75 1 % 16)
       ((List.range (drainOp.f 66 2)).map fun j => elemVal 0 false ((set0 false).elem i j))
     plainMemory d ∧ atEngine d 0x0102 name0 (.mill 0) drainOp ∧ setAt d 0 drainOp.handle = some (set0 false) ∧
     drainOp.fuse = 0 ∧ drainOp.toChute = false ∧ (fmtOf (drainOp.f 112 2)).mx = false ∧
     ∀ i, i < drainOp.f 64 2 → (row i).data.length ≤ drainOp.f 104 4 ∧
       memClear d (drainOp.f 80 8 + i * drainOp.f 104 4) (row i).data.length) ∧
    (let o := opOf 0x0103 []
     atEngine (millDev o false) 0x0103 name0 (.mill 0) o) ∧
    (∀ cycles ∈ [64 * 65536 - 1, 64 * 65536],
      let d := { millDev (matmulOp 0) false with clock.core := List.replicate 20 cycles, clock.cyc := cycles }
      issuedOp d name0 = some (matmulOp 0) ∧ ringTarget d 0 = some (.mill 0) ∧ (matmulOp 0).sends = [] ∧
      ((matmulOp 0).progressAt + (getMill d 0).limit.toNat * 65536 ≤ engineCycles d (.mill 0) ↔ cycles = 64 * 65536)) := by
  decide +kernel

/-- The fields of an image of 2 × 2 pixels of 4 channels of format 3, and windows of 1 × 1. -/
def geomFields : List (Nat × Bytes) :=
  [(32, [2]), (34, [2]), (36, [1, 1, 1, 1]), (40, [1]), (42, [1]), (52, [4]), (54, [1]), (56, [32]), (60, [1, 1]), (62, [3])]

/-- CONV_MILL of 2 outputs by 2 kernels, one tap; with FLAGS 4 a weight gradient of 4 channels by 2 over 2 positions. -/
def convOp (flags : Byte) : Op :=
  let grad := bit flags.toNat 2
  opOf 0x0301 (geomFields ++ [(68, leBytes 4 0x100), (80, [4]), (84, if grad then [0] else [8]), (92, if grad then [4] else [2]), (94, [2]),
    (98, [1]), (100, [3]), (108, [flags]), (112, if grad then [2] else [0])])

/-- A Quern operation of two rows, to memory or to queue 2 of tile 2. -/
def quernOpOf (code : Nat) (chute : Bool) : Op :=
  opOf code (geomFields ++ (if code = 0x0302 then [(68, leBytes 4 0x100), (80, [4]), (84, [8]), (94, [2]), (110, [3])] else []) ++
    [(90, [2]), (95, [if chute then 0x20 else 0]), (96, if chute then [2, 2] else leBytes 8 0x1000), (104, [if chute then 0 else 16])])

/-- A Quern with its image in SRAM, and the queue that it may send to. -/
def quernDev (o : Op) : Dev :=
  withBytes { devOf 31 o with chutes := [(34, { producer := 31, depth := 2, slotKib := 1, offset := 0x1000, stallMs := 100 })] }
    [(sramBase 31, [0x38, 0x40, 0x12, 0xA5]), (sramBase 31 + 32, [0x38, 0x33]), (sramBase 31 + 0x100, [0x38, 0x41, 0x38, 0x41])]

/-- Every place of a list that is read is stored without error, as a check. -/
def readsOk (d : Dev) (l : List (Option (Nat × Nat))) : Bool := l.all fun r => r.all fun r => decide (memClear d r.1 r.2)

theorem readsOk_clear (d : Dev) (l : List (Option (Nat × Nat))) (h : readsOk d l = true) : readsClear d l := by
  intro a k hm
  simpa using List.all_eq_true.mp h _ hm

/-- Forward, and a weight gradient; on a set that is not stale, and an ADD on one that is. -/
theorem witness_ConvolutionAndPooling_mill :
    (∀ flags ∈ [(0 : Byte), 1, 4, 5],
      let o := convOp flags
      let d := millDev o false
      atWork (stateOf d) ∧ atEngine d 0x0301 name0 (.mill 0) o ∧ setAt d 0 o.handle = some (set0 false) ∧ o.role = bit flags.toNat 2 ∧
      convFetchCheck d 0 o = none ∧ ∀ c, c < 1 → readsOk d (convMillReads 0 o c) = true) ∧
    (let o := convOp 1
     atEngine (millDev o true) 0x0301 name0 (.mill 0) o ∧ bit (o.f 108 1) 0 = true ∧ (set0 true).stale = true) := by decide +kernel

theorem witness_ConvolutionAndPooling_quern :
    ∀ code ∈ [0x0302, 0x0303], ∀ chute ∈ [true, false],
      let o := quernOpOf code chute
      let d := quernDev o
      let size (r x : Nat) : Nat := (quernPixel d 31 o r x).length
      atWork (stateOf d) ∧ atEngine d code name0 (.quern 31) o ∧ quernRuns d 31 name0 = true ∧ convFetchCheck d 31 o = none ∧
      o.f 90 2 = 2 ∧ o.geom.ow.toNat = 2 ∧ o.quernChute = chute ∧ plainMemory d ∧
      ((List.range 2).all fun r => readsOk d (quernReads 31 o r)) = true ∧
      ((List.range 2).all fun r => (List.range 2).all fun x => chute || (decide (size r x ≤ 16) && readsOk d [some (0x1000 + (r * 2 + x) * 16, size r x)] &&
        (quernReads 31 o 1).all fun p => p.all fun p => decide (0x1000 + (r * 2 + x) * 16 + size r x ≤ p.1))) = true := by decide +kernel

theorem witness_ConvolutionAndPooling_watchdog :
    ∀ cycles ∈ [256 * 65536 - 1, 256 * 65536],
      let o := quernOpOf 0x0303 false
      let d := { quernDev o with clock.core := List.replicate 20 cycles, clock.cyc := cycles }
      issuedOp d name0 = some o ∧ ringTarget d 0 = some (.quern 31) ∧ o.sends = [] ∧ quernRuns d 31 name0 = true ∧
      (max o.progressAt (tgetD d.querns 31 {}).since + (tgetD d.querns 31 {}).limit.toNat * 65536 ≤ engineCycles d (.quern 31) ↔
        cycles = 256 * 65536) := by
  decide +kernel

/-! ### Badgers -/

/-- A table of 16 rows of 2 FP32, every second identifier, SGD: four slots in the Sett and four in GDDR7, two ledger entries. -/
def tableBytes : Bytes :=
  descOf 16 [(4, [2]), (6, [2]), (10, [32]), (12, [1]), (28, [4]), (32, [0, 0x20]), (36, [4]), (40, [0, 0x20]), (60, [2]), (64, leBytes 8 0x20000),
    (72, leBytes 8 0x30000), (80, leBytes 8 0x1000)]

/-- The table as tile 27 holds it. -/
def table0 : TableRec := tableRec 27 tableBytes

/-- A Badger with table 0, and an operation: row 0 in slot 1 of the Sett, row 1 in slot 2 of GDDR7, the list of rows 0, 2, null and
foreign 1 at 0x100 of the Sett, a list of row 2 alone at 0x200, gradients at 0x1800, parameters at 0x1900, a migration of row 0 to slot 3
of GDDR7 at 0x1A00. -/
def badgerDev (o : Op) : Dev :=
  withBytes { devOf 27 o with badgers := [(27, { tables := [(0, tableBytes)] })] }
    [(0x20000, [1, 0, 0, 0, 2, 0, 0, 0x40]), (sramBase 27 + 0x2000 + 32, [0, 0, 0x80, 0x3F, 0, 0, 0, 0x40]), (0x2040, [0, 0, 0x40, 0x40, 0, 0, 0x80, 0xBF]),
     (sramBase 27 + 0x100, [4] ++ List.replicate 15 0 ++ leBytes 8 0 ++ leBytes 8 2 ++ leBytes 8 (2 ^ 64 - 1) ++ leBytes 8 1),
     (sramBase 27 + 0x200, [1] ++ List.replicate 15 0 ++ leBytes 8 2),
     (0x1000, [2]), (0x1040, [4]), (0x1800, [0, 0, 0x80, 0x3F, 0, 0, 0x80, 0x40]), (0x1900, [0, 0, 0x80, 0xBF]), (0x1A00, leBytes 8 0 ++ [3, 0, 0, 0x40])]

/-- A gather of the list to GDDR7, without pooling or with. -/
def gatherOp (pool : Byte) : Op := opOf 0x0401 [(33, [pool]), (40, [0, 1]), (44, [16]), (48, leBytes 8 0x1100)]

theorem witness_BadgerGather :
    ∀ pool ∈ [0, 1],
      let o := gatherOp pool
      let d := badgerDev o
      let l : RowList := { ids := [0, 2, 2 ^ 64 - 1, 1], bags := [[0], [1], [2], [3]], weights := none }
      atWork (stateOf d) ∧ plainMemory d ∧ d.mem.flips = [] ∧ badgerAt d 0x0401 name0 27 o table0 ∧ o.f 35 1 = 0 ∧ o.zero 56 8 = true ∧
      (readList d name0 (sramBase 27 + o.f 40 4) (tileCapacity 27 - o.f 40 4)).2.toOption = some l ∧
      table0.kind 0 = .mine 0 ∧ table0.kind 2 = .mine 1 ∧ table0.kind (2 ^ 64 - 1) = .null ∧ table0.kind 1 = .foreign ∧ table0.kind 32 = .outOfRange ∧
      (∀ i ∈ [0, 1], memClear d (table0.map + 4 * i) 4 ∧ (mapOf d table0 i).1 ≠ 3 ∧ memClear d (recordAt d table0 i) table0.wb) ∧
      gatherHeld d 27 name0 o table0 l = false ∧ settOrGddr d 27 (o.f 48 8) (extent 4 16 8) = true ∧ memClear d 0x1100 64 := by decide +kernel

/-- A scatter of the one row. -/
def scatterOp : Op := opOf 0x0402 [(40, [0, 2]), (44, [8]), (48, leBytes 8 0x1800)]

/-- A ledger entry of the row of the one-row list. -/
def entry0 : LedgerEntry := { table := 0, slot := 0, row := 2, step := 0, acc := [0x3F800000, 0x40000000] }

/-- A scatter into an empty ledger, onto an entry, and with both entries taken by step 1; one of a skipped step. -/
theorem witness_BadgerScatterAndLedger :
    (∀ ledger ∈ [[], [entry0], [{ entry0 with step := 1 }, { entry0 with step := 1, row := 4, slot := 1 }]],
      let d := { badgerDev scatterOp with badgers := [(27, { tables := [(0, tableBytes)], ledger := ledger })] }
      atWork (stateOf d) ∧ plainMemory d ∧ badgerAt d 0x0402 name0 27 scatterOp table0 ∧ stepSkipped d 0 = false ∧ scatterOp.f 35 1 = 0 ∧
      (readList d name0 (sramBase 27 + scatterOp.f 40 4) (tileCapacity 27 - scatterOp.f 40 4)).2.toOption =
        some { ids := [2], bags := [[0]], weights := none } ∧
      table0.kind 2 = .mine 1 ∧ memClear d (table0.map + 4) 4 ∧ (mapOf d table0 1).1 ≠ 3 ∧ memClear d 0x1800 8 ∧
      memClear d table0.ledger (2 * table0.entryBytes)) ∧
    (let d := { badgerDev scatterOp with steps.opened := [{ decision := some false }] }
     stepSkipped d 0 = true ∧ badgerAt d 0x0402 name0 27 scatterOp table0) := by decide +kernel

/-- The record of a pending entry arrives, and the acknowledgement of a write-back; a scatter has waited at its limit, and beyond
it. -/
theorem witness_BadgerScatterAndLedger_waits :
    (let d := { badgerDev scatterOp with badgers := [(27, { tables := [(0, tableBytes)], ledger := [{ entry0 with pending := true }] })] }
     findEntry d 27 0 2 0 = some { entry0 with pending := true } ∧ getTable d 27 0 = some table0 ∧ waitingUpdate d 27 0 0 = none ∧
     rowBusy d 27 0 2 0 = false ∧ awaits d (ledgerAgent 27 0 0) = false ∧
     rangeMapped d (table0.map + 4) 4 false = true ∧ accessFault d (recordAt d table0 1) table0.layout false = none) ∧
    (let e := { entry0 with cellar := true, writing := true }
     let d := { badgerDev scatterOp with badgers := [(27, { tables := [(0, tableBytes)], ledger := [e] })] }
     findEntry d 27 0 2 0 = some e ∧ waitingUpdate d 27 0 0 = none ∧ awaits d { ring := table0.updRing, seq := 0 } = false) ∧
    (∀ p ∈ [125000000, 125000002],
      let o := { scatterOp with stallFrom := some 0 }
      let d := { badgerDev o with clock.pulse := p }
      issuedOp d name0 = some o ∧ o.waitsLedger = true ∧ o.stallLogged = false ∧ (0 + ringLimit d 0 * 1000000 < deviceTime d ↔ p = 125000002)) := by
  decide +kernel

/-- An update of table 0. -/
def updateOp : Op := opOf 0x0403 [(40, leBytes 8 0x1900)]

/-- A migration of one row. -/
def moveRowOp : Op := opOf 0x0404 [(36, [1]), (40, leBytes 8 0x1A00)]

/-- Updates of a skipped step, of a step without entries and with one; a migration; the watchdog at its limit and before. -/
theorem witness_BadgerUpdateAndMigrate_update :
    ∀ ledger ∈ [[], [entry0]],
      let d := { badgerDev updateOp with badgers := [(27, { tables := [(0, tableBytes)], ledger := ledger })] }
      atWork (stateOf d) ∧ plainMemory d ∧ badgerAt d 0x0403 name0 27 updateOp table0 ∧ stepSkipped d 0 = false ∧
      memClear d (updateOp.f 40 8) 64 ∧ stepEntries d 27 0 0 = ledger ∧ memClear d (ledgerAddr table0 entry0) table0.entryBytes ∧
      memClear d (table0.map + 4) 4 ∧ memClear d (recordAt d table0 1) table0.layout ∧
      (mapOf d table0 1).1 ≠ 2 ∧
      (updateRecord table0 (updParams (cellsRead d.mem.cells 0x1900 64)) 0 0 0 2 entry0.acc
        (cellsRead d.mem.cells (recordAt d table0 1) table0.layout)).1.length = 8 := by decide +kernel

/-- An update of a row that its map entry places in the Cellar, whose record has come. -/
theorem witness_BadgerUpdateAndMigrate_cellar :
    let e := { entry0 with cellar := true, staging := List.replicate 8 0 }
    let d0 := { badgerDev updateOp with badgers := [(27, { tables := [(0, tableBytes)], ledger := [e] })] }
    let d := { d0 with mem.cells := cellsWrite d0.mem.cells (table0.map + 4) (leBytes 4 (2 ^ 31)) }
    badgerAt d 0x0403 name0 27 updateOp table0 ∧ stepEntries d 27 0 0 = [e] ∧ (mapOf d table0 1).1 = 2 ∧
    accessFault d (recordAt d table0 1) 8 true = none ∧ memClear d (ledgerAddr table0 e) table0.entryBytes := by decide +kernel

theorem witness_BadgerUpdateAndMigrate_migrate :
    let d := badgerDev moveRowOp
     let old := table0.slotAddr 0 1
     let new := table0.slotAddr 1 3
     badgerAt d 0x0404 name0 27 moveRowOp table0 ∧ moveRowOp.f 36 4 = 1 ∧ memClear d (moveRowOp.f 40 8) 16 ∧
     fld (cellsRead d.mem.cells 0x1A00 16) 8 4 = 2 ^ 30 + 3 ∧ mapOf d table0 0 = (0, 1) ∧ 3 < table0.slots.getD 1 0 ∧
     memClear d (table0.occBit 0 1).1 1 ∧ memClear d (table0.occBit 1 3).1 1 ∧ table0.occBit 0 1 ≠ table0.occBit 1 3 ∧
     (byteAt d (table0.occBit 1 3).1).getLsbD (table0.occBit 1 3).2 = false ∧ memClear d old table0.layout ∧ memClear d new table0.layout ∧
     (table0.occBit 0 1).1 < new ∧ (table0.occBit 1 3).1 < new ∧ new + table0.layout ≤ table0.map := by decide +kernel

theorem witness_BadgerUpdateAndMigrate_watchdog :
    ∀ cycles ∈ [1024 * 65536 - 1, 1024 * 65536],
      let d := { badgerDev moveRowOp with clock.cyc := cycles }
      issuedOp d name0 = some moveRowOp ∧ ((getBadger d 27).limit.toNat * 65536 ≤ cycle d ↔ cycles = 1024 * 65536) := by decide +kernel

theorem witness_PoolingInstructions : atWork (stateOf readyDev) ∧ tileType 27 = .bTile ∧ ¬(tileType 26 = .bTile) := by decide +kernel

/-! ### Steps, shards and the Sequencer -/

/-- An operation of the ring hub on step 0. -/
def hubOpOf (code : Nat) (more : List (Nat × Bytes)) : Op := opOf code more

/-- A ring of the ring hub with one operation, and step 0 as given. -/
def stepDev (o : Op) (st : StepState) : Dev := { devOf 0x140 o with steps.opened := [st, {}, {}, {}] }

theorem witness_StepDecisionAndCommit_decide :
    ∀ st ∈ [({} : StepState), { flag := false }, { decision := some true }],
      let o := hubOpOf 0x0980 []
      let d := stepDev o st
      atWork (stateOf d) ∧ hubAt d 0x0980 name0 o ∧ stepState d (o.f 32 8) = some st := by decide +kernel

/-- An entry of the shard table: buffers at 0x1100 and 0x1200, 16 bytes, owned by device `owner`, whose entry lies at 0x3000. -/
def shardEntry (flags : Byte) (owner : Byte) : Bytes :=
  slice (descOf 0x1100 [(8, leBytes 8 0x1200), (16, [16]), (26, [flags]), (28, [owner]), (40, leBytes 8 0x3000)]) 0 64

/-- The table at 0x1000 with one valid entry of this device. -/
def shardDev (o : Op) (st : StepState) (e : Bytes) : Dev :=
  let d := withBytes (stepDev o st) [(0x1000, e), (0x1100, [1, 2, 3])]
  { d with steps.num := { d.steps.num with shardAddr := 0x1000, shardCount := 1 } }

theorem witness_StepDecisionAndCommit_commit :
    ∀ apply ∈ [true, false],
      let o := hubOpOf 0x0981 []
      let d := shardDev o { decision := some apply } (shardEntry 3 0)
      let r := ringOf 0x140 [o]
      atWork (stateOf d) ∧ quietMemory d ∧ unstaged d ∧ hubAt d 0x0981 name0 o ∧ getRing d 0 = some r ∧ o.f 32 8 = d.steps.oldest ∧
      stepState d 0 = some { decision := some apply } ∧ r.ops = [o] ∧ r.st = .running ∧ r.haltAt = none ∧ o.failedFetch = false ∧
      o.aborted = false ∧ o.census = [] ∧ o.statusEn = false ∧ o.sigEn = false ∧ o.irq = false ∧ awaits d name0 = false ∧
      d.steps.num.censusAddr = 0 ∧ d.granary.st ≠ .armed ∧ ledgerBusy d 0 = false ∧
      memClear d d.steps.num.shardAddr (64 * d.steps.num.shardCount) ∧
      ledgerBusy { d with badgers := [(27, { ledger := [entry0] })] } 0 = true := by decide +kernel

/-- Waits for a decision, for the ledgers and for an owner, at their limits and beyond them. -/
theorem witness_StepDecisionAndCommit_stalls :
    ∀ p ∈ [125000000, 125000002],
      (let o := { hubOpOf 0x0981 [] with stallFrom := some 0 }
       let d := { stepDev o {} with clock.pulse := p, badgers := [(27, { ledger := [entry0] })] }
       hubAt d 0x0981 name0 o ∧ ledgerBusy d 0 = true ∧ o.stallLogged = false ∧ (0 + ringLimit d 0 * 1000000 < deviceTime d ↔ p = 125000002)) ∧
      (let o := { hubOpOf 0x0981 [] with phase := .fetched, stallFrom := some 0 }
       let d := { stepDev o {} with clock.pulse := p }
       getOp d name0 = some o ∧ getRing d 0 = some (ringOf 0x140 [o]) ∧ waitsOver d (ringOf 0x140 [o]) o = true ∧ decisionMet d o = false) := by
  decide +kernel

/-- The fabric with a port to the east, and the owner's entry as its memory holds it. -/
def ownerDev (o : Op) (st : StepState) (live : Nat) : Dev :=
  let d := shardDev o st (shardEntry 1 1)
  { d with
    fabric.coord := 0, fabric.dims := [2, 1, 1], fabric.ports := List.replicate 6 { st := 1, width := 16, crTotal := List.replicate 8 100 }
    mem.remote := cellsWrite [] (remoteKey 1 0x3000) (slice (descOf 0x1500 [(8, leBytes 8 0x1600), (26, [1]), (32, leBytes 8 live)]) 0 64) }

/-- SHARD_FETCH of step 1 at its start; with the owner's entry fetched, of an older, the same and a newer version; one skipped;
one that waits to read again. -/
theorem witness_ShardFetch :
    (let o := hubOpOf 0x0982 [(32, [1])]
     let d := ownerDev o {} 0
     atWork (stateOf d) ∧ quietMemory d ∧ hubAt d 0x0982 name0 o ∧ stepState d 1 = some {} ∧ o.sendFrom = none ∧ o.entry = [] ∧
     o.fetched = [] ∧ awaits d name0 = false ∧ d.steps.num.shardAddr ≠ 0 ∧ o.f 40 2 % 4096 < d.steps.num.shardCount ∧ memClear d 0x1000 64 ∧
     bit (fld (cellsRead d.mem.cells 0x1000 64) 26 1) 0 = true ∧ bit (fld (cellsRead d.mem.cells 0x1000 64) 26 1) 1 = false ∧
     routable d 1 = true) ∧
    (∀ live ∈ [0, 1, 2],
      let o := { hubOpOf 0x0982 [(32, [1])] with
        entry := shardEntry 1 1, fetched := [(remoteKey 1 0x3000, 64, 0), (remoteKey 1 0x1500, 16, 1), (remoteKey 1 0x3000, 64, 2)] }
      let d := ownerDev o {} live
      atWork (stateOf d) ∧ quietMemory d ∧ hubAt d 0x0982 name0 o ∧ routable d 1 = true ∧ memClear d 0x1200 16 ∧
      messagePieces (fld o.entry 16 8) = [(0, 16)] ∧ fld (cellsRead d.mem.remote (remoteKey 1 0x3000) 64) 32 8 = live) ∧
    (let o := { hubOpOf 0x0982 [(32, [1])] with entry := shardEntry 1 1, stallFrom := some 0, sendFrom := some 0 }
     let d := { ownerDev o {} 0 with clock.pulse := 1250 }
     hubAt d 0x0982 name0 o ∧ deviceTime d = 1000 ∧ routable d 1 = true ∧ awaits d name0 = false) ∧
    (let o := hubOpOf 0x0982 []
     let d := ownerDev o { decision := some false } 0
     hubAt d 0x0982 name0 o ∧ stepState d 0 = some { decision := some false } ∧ o.sendFrom = none) := by decide +kernel

/-- A script of one member on ring 0 of tile 1: one forward template and one backward one. -/
def member0 : Member :=
  { ring := 0, gateOpen := false, health := false, offload := true, mbMod := 1, mbRem := 0, slots := 1, fwd := (0, 1), bwd := (1, 1), fin := (0, 0),
    tokens := 1, saveOff := 0x1000, saveBpt := 16, step := 0 }

/-- The script, its member as given. -/
def script0 (m : Member) : Script :=
  { number := 0, micro := 2, bellBase := 0, bellCount := 0, start := 0, digest := [], members := [m],
    templates := [descOf 0x0201 [], descOf 0x0201 []], patches := [], banked := [0] }

/-- Ring 0 with the script loaded. -/
def scriptDev (m : Member) : Dev :=
  { readyDev with hub.rings := [(0, { ringOf 1 [] with submitted := 0 })], seq.scripts := [script0 m], seq.pools := [(0x100000, 0x10000), (0, 0)] }

theorem witness_SequencerUnits_release :
    let d := scriptDev member0
    let r := { ringOf 1 [] with submitted := 0 }
    atWork (stateOf d) ∧ quietMemory d ∧ d.seq.scripts = [script0 member0] ∧ (script0 member0).members = [member0] ∧ getRing d 0 = some r ∧
    r.log2len ≤ 31 ∧ unitRipe d (script0 member0) member0 = true ∧ unitFits d member0 = true ∧ member0.ripeAt = none ∧ member0.phase < 2 ∧
    (script0 member0).banked.contains member0.step = true ∧ (script0 member0).patches = [] ∧ phaseTemplates member0 0 = (0, 1) ∧
    memClear d r.base 128 ∧ (descOf 0x0201 []).length = 128 := by decide +kernel

/-- A ring without room, waiting at the limit and beyond it. -/
theorem witness_SequencerUnits_stall :
    ∀ p ∈ [125000000, 125000002],
      let m := { member0 with spaceFrom := some 0 }
      let d := { scriptDev m with hub.rings := [(0, { ringOf 1 [] with log2len := 0, submitted := 1 })], clock.pulse := p }
      unitRipe d (script0 m) m = true ∧ unitFits d m = false ∧ m.spaceLogged = false ∧
      (0 + ringLimit d 0 * 1000000 < deviceTime d ↔ p = 125000002) := by decide +kernel

theorem witness_SequencerUnits_copies :
    ∀ prefetch ∈ [true, false],
      let m := { member0 with pool := 0x100000, copies := [(0, 1, if prefetch then 3 else 1)] }
      let d := scriptDev m
      (m.copies.find? fun c => c.2.1 == 1 && c.2.2 == if prefetch then 3 else 1) = some (0, 1, if prefetch then 3 else 1) ∧
      copyPlaces d (script0 m) m 0 1 = some (0x101000, sramBase 1 + 0x1000) ∧ copyRuns d (script0 m) m 0 1 = true ∧ saveBytes m = 4096 ∧ memClear d 0x101000 4096 ∧
      memClear d (sramBase 1 + 0x1000) 4096 ∧ stepState d 0 = some {} ∧ isAbandoned d 0 = false := by decide +kernel

theorem witness_SequencerUnits_restart :
    ∀ decision ∈ [none, some false],
      let r := { ringOf 1 [] with st := .halted, released := [(0, (0, 0))] }
      let d := { scriptDev member0 with
        hub.rings := [(0, r)], seq.abandoned := [{ step := 0 }]
        steps.opened := [{ decision := decision }, {}, {}, {}], seq.stages := [(0, { tile := 1, rings := [0] })] }
      member0.removed = false ∧ getRing d 0 = some r ∧ r.st = .halted ∧ r.released = [(0, (0, 0))] ∧
      (stepState d 0).all (fun st => st.decision.isSome) = decision.isSome := by decide +kernel

/-- A stage on tile 1 with ring 0, moving to tile 2. -/
def moveDev (phase : MigratePhase) (pulse : Nat) : Dev :=
  { readyDev with
    hub.rings := [(0, { ringOf 1 [] with submitted := 0 })], seq.stages := [(5, { tile := 1, rings := [0] })], clock.pulse := pulse
    seq.migration := some { stage := 5, dest := 2, retire := false, phase := phase, since := 0, mbx := 0 }
    mem.cells := [(sramBase 1 + 7, 9), (sramBase 2 + 3, 4), (sramBase 3, 1)] }

theorem witness_StageMigration :
    (∀ p ∈ [1249999999, 1250000000],
      let d := moveDev .drain p
      atWork (stateOf d) ∧ d.seq.migration.isSome = true ∧ tget d.seq.stages 5 = some { tile := 1, rings := [0] } ∧
      (d.chutes.all fun q => q.1 / 16 != 1 || q.2.entries.all fun e => !e.st.isSent) = true ∧
      (([0] : List Nat).all fun n => (getRing d n).all fun r => r.ops.isEmpty && r.submitted == r.retired) = true ∧
      (0 + 1000000000 ≤ deviceTime d ↔ p = 1250000000)) ∧
    (let d := moveDev .copy 0
     memoryWf d.mem = true ∧ tileType 1 = tileType 2 ∧ ([0] : List Nat).Nodup) := by decide +kernel

/-! ### The Thresher -/

/-- Stream 3, images of kind 0 into class 0. -/
def stream0 : StreamCfg :=
  { kind := 0, cls := 0, augSlot := 0xFF, vocab := 0xFF, augTable := 0, augCount := 0, augDefault := 0, maxW := 8, maxH := 8, maxUnits := 1,
    maxBytes := 4096, rate := 0, channels := 0, damageMax := 100, staleNs := 0, workAddr := 0 }

/-- Class 0: batches of two samples of 1 × 1 × 1 × 2 FP32 to queue 2 of tile 1. -/
def class0 (batches : List Batch) : BatchClass :=
  { samples := 2, mode := 0, destTile := 1, destQueue := 2, kind := 0, shape := [1, 1, 1, 2], format := 0, tensor := 7, pad := 0, bufBase := 0x1000,
    bufStride := 0x1000, stageAddr := 0, timeoutNs := 1000, stepBase := 0, bps := 1, slotBytes := 8, batches := batches }

/-- A sample of stream 3 for slot 1 of batch 0, its header and 16 bytes. -/
def sampleBytes : Bytes := slice (descOf 0x55 [(24, [1]), (32, [16]), (64, [9])]) 0 80

/-- Both Threshers, the port of die 0 up. -/
def thDev (o : Op) (samples : List Sample) (batches : List Batch) : Dev :=
  let t : Thresher := { port := 1, lanes := 8, streams := [(3, stream0)], classes := [(0, class0 batches)], samples := samples }
  { devOf 0x110 o with
    threshers := [t, {}], clock.pulse := 1000, clock.cyc := 1000
    chutes := [(18, { producer := 0x40, depth := 2, slotKib := 1, offset := 0x1000, stallMs := 100 })] }

/-- Bytes with their CRC behind them, with bits of it flipped. -/
def withCrc (b : Bytes) (flip : W32) : Bytes := b ++ leBytes 4 (crc32c b ^^^ flip).toNat

/-- The CRC is right where no bit of it is flipped, and wrong elsewhere. -/
theorem withCrc_right (b : Bytes) (n : Nat) (flip : W32) (h : b.length = n) :
    (withCrc b flip).length = n + 4 ∧ ((crc32c ((withCrc b flip).take n)).toNat = fld (withCrc b flip) n 4 ↔ flip = 0) := by
  have ht : (withCrc b flip).take n = b := by simp [withCrc, ← h]
  refine ⟨by simp [withCrc, h], ?_⟩
  rw [ht, withCrc, fld_append _ _ _ _ h, show (256 : Nat) ^ 4 = 2 ^ 32 by norm_num, Nat.mod_eq_of_lt (BitVec.isLt _), BitVec.toNat_inj]
  constructor
  · intro e
    have := congrArg (crc32c b ^^^ ·) e
    simpa [← BitVec.xor_assoc] using this.symm
  · rintro rfl
    simp

/-- A block of 256 bytes: a header word, a payload and the CRC. -/
def blockOf (h : Nat) (payload : Bytes) (flip : W32) : Bytes := withCrc (slice (leBytes 8 h ++ payload) 0 252) flip

/-- A block's length, and when its CRC is right. -/
theorem blockOf_crc (h : Nat) (payload : Bytes) (flip : W32) :
    (blockOf h payload flip).length = 256 ∧
    ((crc32c ((blockOf h payload flip).take 252)).toNat = fld (blockOf h payload flip) 252 4 ↔ flip = 0) :=
  withCrc_right _ _ _ (slice_length _ _ _)

/-- A sample that is arriving: its header is here, and no more. -/
def arriving : Sample := { stream := 3, bytes := sampleBytes.take 64, bseq := 1, blocks := 1, placed := true }

/-- Blocks of a type that is none, IDLE, SOS, DATA; their CRC is right or wrong by `blockOf_crc`. -/
theorem witness_StreamBlocksAndDecoding_blocks :
    let d := thDev (opOf 0 []) [arriving] []
    atWork (stateOf d) ∧ threshes d 0 ∧ (getTh d 0).port = 1 ∧
    (∀ x ∈ [(5, true), (2, false), (1 + 16 + 256 * 3 + 2 ^ 20 * 9, false), (1 + 256 * 3 + 2 ^ 20 * 9 + 2 ^ 32, false)],
      blockBad (getTh d 0) (blockOf x.1 [1, 2, 3] 0) = x.2) ∧
    receiving (getTh d 0) 3 = some 0 ∧ receiving (getTh (thDev (opOf 0 []) [] []) 0) 3 = none ∧ arriving.bseq = 1 ∧
    64 ≤ arriving.bytes.length ∧ arriving.bytes.length ≤ 64 + fld arriving.bytes 32 4 := by decide +kernel

/-- A sample that waits for a core, with one free and with none. -/
theorem witness_StreamBlocksAndDecoding_start :
    ∀ cores ∈ [8, 0],
      let x : Sample := { arriving with ended := true }
      let d := thDev (opOf 0 []) [x] []
      let e : Dev := { d with units.decoders := List.replicate 8 cores }
      threshes e 0 ∧ (getTh e 0).samples[0]? = some x ∧ x.waits = true ∧ x.stream < 4096 ∧ x.headerTick ≤ cycle e ∧
      (0 < dieCores e 0 ↔ cores = 8) := by decide +kernel

/-- The same while it decodes, batch 0 open. -/
def decodingDev : Dev :=
  thDev (opOf 0 []) [{ stream := 3, bytes := sampleBytes, ended := true, decoding := true, placed := true }] [{ number := 0, timerStart := 0, claimed := [1] }]

theorem witness_StreamBlocksAndDecoding_done :
    let x : Sample := { stream := 3, bytes := sampleBytes, ended := true, decoding := true, placed := true }
    threshes decodingDev 0 ∧
    ((getTh decodingDev 0).samples.findIdx? fun y => y.stream == x.stream && y.decoding && y.ended && !y.dropped) = some 0 ∧
    (getTh decodingDev 0).samples[0]? = some x ∧ tget (getTh decodingDev 0).streams 3 = some stream0 ∧
    tget (getTh decodingDev 0).classes 0 = some (class0 [{ number := 0, timerStart := 0, claimed := [1] }]) ∧
    getBatch decodingDev 0 0 x.batch = some { number := 0, timerStart := 0, claimed := [1] } ∧ x.injector = none := by decide +kernel

/-- TH_INJECT of the sample, in memory at 0x1800. -/
def injectOp : Op := { opOf 0x0501 [(32, [3]), (36, [80]), (40, leBytes 8 0x1800)] with issuedNs := 900 }

theorem witness_InjectionAndBatches_inject :
    let b : Batch := { number := 0, timerStart := 800 }
    let d := withBytes (thDev injectOp [] [b]) [(0x1800, sampleBytes)]
    let x : Sample := { stream := 3, bytes := sampleBytes }
    atWork (stateOf d) ∧ threshes d 0 ∧ d.mem.flips = [] ∧ threshAt d 0x0501 name0 0 injectOp ∧ 64 ≤ injectOp.f 36 4 ∧
    memClear d (injectOp.f 40 8) 64 ∧ memClear d (injectOp.f 40 8 + 64) (injectOp.f 36 4 - 64) ∧
    tget (getTh d 0).streams (injectOp.f 32 2 % 4096) = some stream0 ∧ stream0.augSlot = 0xFF ∧ stream0.staleNs = 0 ∧
    cellsRead d.mem.cells (injectOp.f 40 8) (injectOp.f 36 4) = sampleBytes ∧
    tget (getTh d 0).classes 0 = some (class0 [b]) ∧ getBatch d 0 0 x.batch = some b ∧ x.slot < 2 ∧ injectOp.issuedNs < b.timerStart.toNat + 1000 ∧
    x.headerWrong stream0 = false := by decide +kernel

/-- TH_FLUSH of batch 0 once it is gone and while it is open; a deadline reached and not. -/
theorem witness_InjectionAndBatches_flush :
    (∀ batches ∈ [[], [({ number := 0, timerStart := 0 } : Batch)]],
      let o : Op := { opOf 0x0502 [] with batches := [0] }
      let d := thDev o [] batches
      (∀ x ∈ (getTh d 0).classes, ∀ b ∈ x.2.batches, name0 ∉ b.flushers) ∧ ((∀ b ∈ batches, b.number ∉ o.batches) ↔ batches = []) ∧
      threshes d 0 ∧ threshAt d 0x0502 name0 0 o ∧ tget (getTh d 0).classes (o.f 32 1 % 16) = some (class0 batches) ∧
      (batches.map (·.number)).Nodup ∧ batches.filter Batch.isOpen = batches) ∧
    (∀ start ∈ [0, 1],
      let b : Batch := { number := 0, timerStart := BitVec.ofNat 64 start }
      let d := { thDev (opOf 0 []) [] [b] with clock.pulse := 1250 }
      tget (getTh d 0).classes 0 = some (class0 [b]) ∧ deviceTime d = 1000) := by decide +kernel

/-- A batch with both slots resolved, to a chute; and one that was emitted. -/
theorem witness_InjectionAndBatches_emit :
    let b : Batch := { number := 0, timerStart := 0, slots := [(0, { state := 0, content := List.replicate 8 1 }), (1, { state := 5, content := List.replicate 8 0 })] }
    let d := thDev (opOf 0 []) [] [b]
    let q : Chute := { producer := 0x40, depth := 2, slotKib := 1, offset := 0x1000, stallMs := 100 }
    plainMemory d ∧ threshes d 0 ∧ (class0 [b]).batches.find? (fun b => b.number == (class0 [b]).next && b.isOpen) = some b ∧
    getChute d 1 2 = some q ∧ q.entries.length < q.depth ∧ queueHeld d 1 = false ∧ (∀ i, i < 2 → thas b.slots i = true) ∧
    slotsOff 2 + 16 ≤ q.slotBytes ∧ memClear d 0x1000 16 ∧
    (let e : Batch := { number := 0, timerStart := 0, emitted := some 5, dest := (1, 2) }
     (class0 [e]).batches.find? (fun b => b.emitted.isSome) = some e ∧ getChute d e.dest.1 e.dest.2 = some q ∧
     (∀ a ∈ d.seq.abandoned, a.restarted = false) ∧ e.census = [] ∧ e.flushers = []) := by decide +kernel

theorem witness_AugmentationInstructions : atWork (stateOf readyDev) ∧ readyDev.threshers.length = 2 ∧ 1 < 2 := by decide +kernel

/-! ### The fabric -/

/-- Device (1, 0, 0) of a ring of four, every port up, with two flits in each replay buffer. -/
def fabDev (o : Op) : Dev :=
  let f (k : Nat) : Flit := { lseq := BitVec.ofNat 12 k, vc := 0, bytes := [] }
  { devOf 0x130 o with
    fabric.coord := 1, fabric.dims := [4, 1, 1], fabric.ports := List.replicate 6 { st := 1, width := 16, replay := [f 5, f 6] }
    clock.pulse := 2000000 }

/-- A flit of 64 bytes: a header word and the CRC. -/
def flitOf (h : Nat) (flip : W32) : Bytes := withCrc (slice (leBytes 6 h) 0 60) flip

/-- A flit's length, and when its CRC is right. -/
theorem flitOf_crc (h : Nat) (flip : W32) :
    (flitOf h flip).length = 64 ∧ ((crc32c ((flitOf h flip).take 60)).toNat = fld (flitOf h flip) 60 4 ↔ flip = 0) :=
  withCrc_right _ _ _ (slice_length _ _ _)

/-- A flit in order, one out of order and IDLE; their CRC is right or wrong by `flitOf_crc`. A NAK of a flit that is held and of one
that is not. -/
theorem witness_FabricLinks :
    let d := fabDev (opOf 0 [])
    powered (stateOf d) ∧ linkUp d 2 ∧ (getPort d 2).rxLast + 1 = 0 ∧
    (∀ x ∈ [(2, 2, 0), (2 + 2 ^ 8 * 7, 2, 7), (0, 0, 0)], bits (fld (flitOf x.1 0) 0 6) 3 0 = x.2.1 ∧ bits (fld (flitOf x.1 0) 0 6) 19 8 = x.2.2) ∧
    ((getPort d 2).replay.findIdx? fun f => f.lseq == 5) = some 0 ∧ ((getPort d 2).replay.findIdx? fun f => f.lseq == 9) = none ∧
    retrainBusy d = false ∧ retrainBusy { d with fabric.ports := List.replicate 6 { st := 5, retraining := true } } = true ∧
    firmwareRuns d 0 = true ∧ (getPort d 2).nakFrom = none ∧ (getPort d 2).crTurn < 8 := by decide +kernel

/-- Widths: all lanes good, lane 3 failed in one direction, two lanes of 0 to 16 failed, two of 0 to 8. -/
theorem witness_FabricLinks_width :
    let d := fabDev (opOf 0 [])
    d.units.fuseLanes.getD 2 none = none ∧
    ∀ x ∈ [(0, 16), (2 ^ 3, 16), (2 ^ 3 + 2 ^ 12, 8), (2 ^ 3 + 2 ^ 6, 4), (3, 0)], trainedWidth d 2 { rxBad := x.1, peerVersion := 2 } = x.2 := by
  decide +kernel

/-- A NAK that is due again, and one that is not yet. -/
theorem witness_FabricLinks_resend :
    ∀ t ∈ [1599800, 1599801],
      let d := { fabDev (opOf 0 []) with fabric.ports := List.replicate 6 { st := 1, width := 16, nakFrom := some t } }
      (getPort d 2).nakFrom = some t ∧ (t + 200 ≤ deviceTime d ↔ t = 1599800) := by decide +kernel

/-- A message to (2, 0, 0) that arrives at port 0 and can leave; one past 96 hops; one for this device. -/
theorem witness_FabricMessagesAndTime_route :
    let d := { fabDev (opOf 0 []) with fabric.requests := [{ tag := 9, sentAt := 0, op := name0 }] }
    let m : FabMsg := { dest := 2, src := 0, cls := 1, op := 0, hops := 3, inject := 0, tag := 9 }
    powered (stateOf d) ∧ linkUp d 0 ∧ m.headerFlips = [] ∧ d.hub.hardHalted = false ∧ d.granary.st = .idle ∧
    (∃ out dl, routeOf d 0 m.dest m.cls m.hops m.dl = .out out dl ∧ out ≠ 0 ∧ canLeave d out { m with hops := m.hops + 1, dl := dl }) ∧
    routeOf d 0 m.dest m.cls 96 m.dl = .discard ∧ routeOf d 0 1 m.cls m.hops m.dl = .here ∧
    (d.fabric.requests.find? fun r => r.tag == m.tag) = some { tag := 9, sentAt := 0, op := name0 } ∧
    issuedOp d name0 = some (opOf 0 []) := by
  refine ⟨by decide +kernel, by decide +kernel, rfl, rfl, rfl, ⟨3, false, by decide +kernel, by decide +kernel, by decide +kernel⟩,
    by decide +kernel, by decide +kernel, rfl, by decide +kernel⟩

/-- A request that has timed out, and one that has not. -/
theorem witness_FabricMessagesAndTime_timeout :
    ∀ t ∈ [600000, 600001],
      let r : Request := { tag := 9, sentAt := t, op := name0 }
      let d := { fabDev (opOf 0x0982 []) with fabric.requests := [r] }
      atWork (stateOf d) ∧ (d.fabric.requests.find? fun r => r.tag == 9) = some r ∧ issuedOp d name0 = some (opOf 0x0982 []) ∧
      (t + 1000000 ≤ deviceTime d ↔ t = 600000) := by decide +kernel

/-- A lend of 64 bytes at 0x1800 to (2, 0, 0), a read and a write within it, and a read beyond it. -/
theorem witness_FabricMessagesAndTime_lend :
    ∀ x ∈ [((0 : Nat), (none : Option Bytes)), (0, some [1, 2, 3]), (60, none)],
      let r : LendReq := { src := 2, tag := 4, lend := 1, offset := x.1, write := x.2, len := 8 }
      let l : Lend := { base := 0x1800, size := 64, borrower := 2 }
      let d := { fabDev (opOf 0 []) with fabric.lends := [(1, l)] }
      quietMemory d ∧ tget d.fabric.lends r.lend = some l ∧ routeOf d 6 r.src 1 0 false = .out 3 false ∧ memClear d 0x1800 64 ∧
      canLeave d 3 { dest := 2, src := 1, cls := 1, op := ofBool x.2.isSome, hops := 1, inject := 0, tag := 4, body := List.replicate 8 0 } := by
  decide +kernel

/-- A device with a parent; the root's own; a parent that another port can replace, and one that none can. -/
theorem witness_FabricMessagesAndTime_time :
    let d := { fabDev (opOf 0 []) with fabric.parent := some 0, fabric.ports := List.replicate 6 { st := 1, width := 16, peerVersion := 2 } }
    ¬(d.fabric.coord = d.fabric.root ∨ d.fabric.parent = none) ∧
    (∃ p, pickParent d (some 0) = some p) ∧
    pickParent { d with fabric.ports := List.replicate 6 {} } (some 0) = none := by
  refine ⟨by decide +kernel, ⟨1, by decide +kernel⟩, by decide +kernel⟩

/-- A group of two members, this device the second, the first the coordinator. -/
def group0 (coord : Nat) : Group :=
  { members := [(0, 1), (1, 1)], coord := coord, late := false, rc := 0, windowNs := 1000, failNs := 1000000, stageAddr := 0, stageBytes := 0, header := [] }

/-- COLL of a kind, of one segment of four FP32 elements in GDDR7. -/
def collOp (kind : Byte) : Op :=
  opOf 0x0601 [(32, [7]), (34, [kind]), (40, [4]), (44, [4]), (48, leBytes 8 0x1000), (56, [16]), (64, leBytes 8 0x1100), (72, [16])]

/-- The device with the group and the operation. -/
def collDev (o : Op) (g : Group) (parts : List MemberPart) : Dev :=
  { devOf 0x100 o with
    fabric.coord := 1, fabric.dims := [4, 1, 1], fabric.ports := List.replicate 6 { st := 1, width := 16 }
    fabric.groups := [(7, g)], fabric.parts := parts, clock.pulse := 2000000 }

theorem witness_Collectives_start :
    let o := collOp 0
    let d := collDev o (group0 0) []
    atWork (stateOf d) ∧ quietMemory d ∧ collAt d name0 0 o ∧ getGroup d (collName d o).group = some (group0 0) ∧ (group0 0).late = false ∧
    (group0 0).coord ≠ (group0 0).me d ∧ o.collSegs = 1 ∧ 0 % (group0 0).members.length ≠ (group0 0).me d ∧
    ((group0 0).placesOf ((group0 0).me d)).length = 1 ∧ memClear d 0x1000 16 ∧ routable d ((group0 0).coordOf 0) 2 = true := by decide +kernel

/-- The part of an operation. -/
def part0 (present : Bool) : MemberPart := { op := name0, inst := { group := 7, step := 0, tag := 0 }, values := [[0, 0, 0, 0]], segments := 1, present := present }

/-- Acknowledgements, a mask, a result, and a failure timeout, for a part in progress. -/
theorem witness_Collectives_member :
    (∀ present ∈ [true, false],
      let o := { collOp 0 with done := 1 }
      let d := collDev o (group0 0) [part0 present]
      collRuns d name0 o (part0 present) (group0 0) ∧ plainMemory d ∧ d.fabric.roots = [] ∧ o.f 80 8 = 0 ∧ o.f 88 8 = 0 ∧
      neededResults d o (group0 0) { inst := (part0 present).inst, places := [0, 1], flags := true, carryIn := false, atDeadline := false } ≠ [] ∧
      memClear d 0x1100 16) ∧
    (let o := { collOp 3 with done := 1 }
     let d := collDev o (group0 0) [part0 true]
     collRuns d name0 o (part0 true) (group0 0) ∧ o.collKind = 3) := by decide +kernel

/-- A root of segment 1, and a coordinator whose window has ended or not. -/
theorem witness_Collectives_root :
    (let d := collDev (opOf 0 []) (group0 0) []
     d.steps.oldest = 0 ∧ 1 % max 1 (group0 0).members.length = (group0 0).me d ∧ 0 < (group0 0).places) ∧
    (let d := collDev (opOf 0 []) (group0 1) []
     getGroup d 7 = some (group0 1) ∧ (group0 1).coord = (group0 1).me d ∧ 0 < (group0 1).members.length ∧ 2 ≤ (group0 1).members.length ∧
     0 < (group0 1).windowNs) ∧
    (∀ t ∈ [1599000, 1599001],
      let c : Coordinator := { inst := { group := 7, step := 0, tag := 0 }, t0 := t, present := [(0, true, false)] }
      let d := { collDev (opOf 0 []) (group0 1) [] with fabric.coordinators := [c] }
      plainMemory d ∧ c.closed = none ∧ (c.t0 + (group0 1).windowNs ≤ deviceTime d ↔ t = 1599000)) := by decide +kernel

/-! ## Commands that are not well formed

One ill-formed command for each check, and the same commands with operands at the ends of their ranges. -/

theorem test_wellFormed_refuses :
    ([.hubNop 16384 0, .bellValueWrite 65536 0, .loomTakeStall 64 0, .loomTakeStall 0 2, .pageTaken 2, .mbNop 8, .nakResend 6, .thBatchTimeout 0 16,
      .sampleDecodeDone 0 4096 {}, .ledgerRecordArrive 27 64 0 0 none, .bar0Read 0 3, .bar0Read 0x4000000 1, .configSpaceWrite 2 4 0,
      .configSpaceWrite 4096 1 0, .streamBlockReceived 0 (List.replicate 255 0), .flitReceived 0 (List.replicate 10 (List.replicate 65 0)) true,
      .flitReceived 0 (List.replicate 9 (List.replicate 64 0)) true, .gddrRecal 0 12 0 true, .fabMessageReceived 7 { dest := 0, src := 0, cls := 0, op := 0, hops := 0, inject := 0, tag := 0 },
      .lendRequestReceived 7 { src := 0, tag := 0, lend := 0, offset := 0, write := none, len := 0 }, .timeSyncExchange 0 0 (0, 0) [6], .mbThPort 0 256, .bringupPhaseDone { streams := [256] },
      .bringupPhaseDone { link := (64, 3) }, .bringupPhaseDone { macros := [{ tile := 64, macroNo := 0, rows := 9, cols := 0 }] },
      .gddrRecal 0 0 4 true, .tempSample (List.replicate 63 0) (List.replicate 24 0)] : List Instr).map Instr.wellFormed = List.replicate 27 false := by
  decide +kernel

theorem test_wellFormed_accepts :
    ([.hubNop 16383 0, .bellValueWrite 65535 0, .loomTakeStall 63 1, .pageTaken 1, .mbNop 7, .nakResend 5, .thBatchTimeout 1 15,
      .sampleDecodeDone 1 4095 {}, .ledgerRecordArrive 27 63 0 0 none, .bar0Read 0x3FFFFF8 8, .configSpaceWrite 4092 4 0,
      .streamBlockReceived 1 (List.replicate 256 0), .flitReceived 5 (List.replicate 10 (List.replicate 64 0)) true, .gddrRecal 1 11 3 true,
      .timeSyncExchange 0 0 (0, 0) [5], .mbThPort 0 255, .bringupPhaseDone { streams := [255], link := (16, 2) },
      .tempSample (List.replicate 64 0) (List.replicate 24 0)] : List Instr).map Instr.wellFormed = List.replicate 18 true := by
  decide +kernel

/-! ## Single results, from the spec's own examples -/

/-- The table gives no row bits, so no word is a command. -/
theorem test_no_word_is_a_command (s : State) (nbits w : Nat) : decodeTableWord nbits w = none ∧ s.withFetchWord nbits w = s := ⟨rfl, rfl⟩

/-- The second encoding of Table 6.5: rsum.o s8, v1 ?m1. -/
theorem test_inflate_fixed : inflate [75, 76, 4, 130, 36, 0] = ([97, 97, 97, 97, 97, 98], true, 5) := by decide +kernel

/-- A stored block that lacks its last byte is a stream error after the bytes it has (R295). -/
theorem test_inflate_stored : inflate [1, 2, 0, 0xFD, 0xFF, 65] = ([65], false, 6) := by decide +kernel

/-- The middle PCM frame of three is lost in part: it is +0, and DAMAGE is a third (R295). -/
theorem test_pcm_lost_frame :
    let cfg : StreamCfg := { stream0 with kind := 0x0B, channels := 1 }
    let s : Sample := { stream := 3, bytes := slice (descOf 0 [(32, [6])]) 0 64 ++ [0, 0x40, 1, 0, 0x40], damaged := true, gapAt := some 67 }
    let r := decodedOf {} cfg s {}
    r.units = [[0x3F000000], [0], [0x3F000000]] ∧ damageOf r = 21845 ∧ r.regionMap = 2 ^ 10 ∧ r.firstDamage = 3 := by decide +kernel

/-- An ill-formed byte of a text is damage; a raw sample without damage gives its bytes (R295). -/
theorem test_text_and_raw :
    let s : Sample := { stream := 3, bytes := slice (descOf 0 [(32, [3])]) 0 64 ++ [65, 0xFF, 66] }
    (decodedOf {} { stream0 with kind := 0x10 } s {}).units = [[65], [0xEF], [0xBF], [0xBD], [66]] ∧
    (decodedOf {} { stream0 with kind := 0x10 } s {}).concealed = 1 ∧ (decodedOf {} { stream0 with kind := 0x10 } s {}).firstDamage = 1 ∧
    (decodedOf {} { stream0 with kind := 0x20 } s {}).units = [[65], [0xFF], [66]] := by decide +kernel

theorem test_decode_rsum : decodeLoom 0x9710201000000000 = some { op := .rsumO, f := { mask := 1, d := 8, a := 1 } } := by decide +kernel

/-- 490 to FP8 E4M3 toward zero is 448 with SAT_HIT, 5 × 10^9 to INT32 is 2^31 − 1 with SAT_HIT (R96). -/
theorem test_convert_toward_zero :
    convert { code := 3, mx := false, scale := 0 } 1 0 (.fin false 490 0) = { pat := 0x7E, sat := true } ∧
    elemVal 3 false 0x7E = .fin false 14 5 ∧
    convert { code := 11, mx := false, scale := 0 } 1 0 (.fin false 5000000000 0) = { pat := 2 ^ 31 - 1, sat := true } := by decide +kernel

/-- The body lengths that R383 gives as examples. -/
theorem test_body_lengths :
    [mbRingCreate, mbNumConfig, mbBadgerTable, mbOwlConfig].map (fun c => bodyLength (c.fields [])) = [18, 60, 136, 520] := by decide +kernel

/-- A filter larger than its image, a stride larger than its filter, and dilation that leaves the centre tap (Table 7.8). -/
theorem test_border_geometry :
    let g : Geom := (opOf 0x0102 []).geom
    { g with h := 5, w := 5, zh := 1, zw := 1, kh := 7, kw := 7, sh := 1, sw := 1, dh := 1, dw := 1 }.empty = true ∧
    { g with h := 1, w := 16000, zh := 1, zw := 1, kh := 1, kw := 3, sh := 1, sw := 5, dh := 1, dw := 1 }.ow = 3200 ∧
    { g with h := 32, w := 32, zh := 1, zw := 1, kh := 3, kw := 3, sh := 1, sw := 1, dh := 64, dw := 64, phLo := 64, phHi := 64 }.oh = 32 := by
  decide +kernel

/-- The reports of Table 17.18 at its first three times: one record, coalesced, and a second one. -/
theorem test_tally_window :
    let t1 := (({} : Tally).report 1000000 0x460 0x8005 0).tally
    let t2 := (t1.report 2048500 0x460 0x8005 0).tally
    let t3 := (t2.report 2048600 0x460 0x8005 0).tally
    t2.recs.map (fun e => (e.2.count.toNat, e.2.last.toNat)) = [(2, 2048500)] ∧ t3.recs.map (fun e => e.2.count.toNat) = [1, 2] := by decide +kernel

/-- Phase D retires east physical hamlet 2: tiles 56, 57 and 58 are retired, and no other (Table 16.13). -/
theorem test_hamlet_retired :
    (List.range 64).filter (tileRetired (bringupPhaseDone { hamlets := [(1, 2)] } (phaseDev 4))) = [56, 57, 58] := by decide +kernel

/-! ### Mailboxes -/

/-- The body of a request, as long as its command's, and the mailbox that it has been rung in. -/
def askBody (c : MbCmd) (raw : Bytes) : Bytes := slice raw 0 (bodyLength (c.fields raw))

def askBox (c : MbCmd) (raw : Bytes) : Mailbox :=
  { st := .busy, req := leBytes 2 c.code ++ leBytes 2 (askBody c raw).length ++ List.replicate 12 0 ++ askBody c raw }

/-- The device with that request waiting in mailbox 0. -/
def askDev (c : MbCmd) (d : Dev) (raw : Bytes) : Dev := { d with iabor.mbx := askBox c raw :: List.replicate 7 {} }

/-- The request is accepted next and passes its checks. -/
abbrev met (c : MbCmd) (d : Dev) (raw : Bytes) : Prop :=
  powered (stateOf (askDev c d raw)) ∧ mbxAsks (askDev c d raw) c 0 (askBox c raw) (askBody c raw)

theorem witness_MailboxProtocol_reports :
    met mbNop readyDev [] ∧ met mbDeviceInfo readyDev [] ∧ met mbFwStatus readyDev [] ∧ met mbAttest readyDev [9] ∧
    met mbFabStatus readyDev [] ∧ met mbOwlStatus readyDev [] ∧ (∀ p ∈ [0, 1], met mbTelemetry readyDev [p]) := by decide +kernel

theorem witness_MailboxProtocol_certificate : met mbIdentCert readyDev [] := by
  decide +kernel

/-- RING writes to an idle, a busy and a dead mailbox. -/
theorem witness_MailboxProtocol_ring :
    ∀ x ∈ [MbxState.idle, .busy, .noFirmware],
      let d := { readyDev with iabor.mbx := [{ st := x }] }
      powered (stateOf d) ∧ d.iabor.mbx[0]? = some { st := x } := by decide +kernel

/-- A request that its command refuses; it is not another's. -/
theorem witness_MailboxProtocol_refused :
    mbxRow (.mbMemScrub 0) = some (0, mbMemScrub) ∧
    (let d := askDev mbMemScrub readyDev [0]
     let b := askBox mbMemScrub [0]
     powered (stateOf d) ∧ accepting d 0 = some b ∧ b.code = mbMemScrub.code ∧ b.code ≠ mbNop.code ∧
     checkRequest mbMemScrub { d with iabor.pointer := 1 } b = .error (mbEnd 4 0)) := by
  refine ⟨rfl, ?_⟩
  decide +kernel

/-- The boot ROM, and firmware before ready; a request of the wrong length, and one with a reserved byte set. -/
theorem witness_MailboxProtocol_refusals :
    romServes { readyDev with power.noFw := true, iabor.up := false } = true ∧ mbMemScrub.code ∉ [0x0001, 0x0002, 0x0010, 0x0011] ∧
    romServes { readyDev with power.ready := false } = false ∧ mbMemScrub.code ∉ [0x0001, 0x0002, 0x0013, 0x0901] ∧
    earlyRefusal readyDev mbMemScrub.code = none ∧
    (let b : Mailbox := { req := leBytes 2 0x0702 ++ leBytes 2 7 }
     b.length ≠ bodyLength (mbMemScrub.fields (slice b.req 16 4080))) ∧
    (let b : Mailbox := { req := leBytes 2 0x0702 ++ leBytes 2 1 ++ List.replicate 4 0 ++ [1] }
     b.length = bodyLength (mbMemScrub.fields (slice b.req 16 4080)) ∧ zeroAt b.req 8 8 = false) := by decide +kernel

/-- An answer that is ready, one that is held, and a request with an unknown code. -/
theorem witness_MailboxProtocol_complete :
    (∀ r ∈ [mbOk [1, 2], mbHeld],
      let b : Mailbox := { st := .busy, answer := some r }
      let d := { readyDev with iabor.mbx := [b] }
      powered (stateOf d) ∧ d.iabor.mbx[0]? = some b ∧ b.st = .busy ∧ (r.held = false ∨ r = mbHeld)) ∧
    (let b : Mailbox := { st := .busy, req := leBytes 2 0x0777 }
     let d := { readyDev with iabor.mbx := [b] }
     accepting d 0 = some b ∧ b.code ∉ mbCodes) := by decide +kernel

/-- Ring 200, whose target is an M-tile; a chute; a table. -/
theorem witness_MailboxSettings_work :
    met mbRingCreate readyDev (leBytes 2 200 ++ leBytes 2 1 ++ [4, 0, 0, 0] ++ leBytes 8 0x1000) ∧
    met mbChuteBind readyDev [1, 2, 0x40, 2, 1, 0] ∧
    met mbChuteUnbind { readyDev with chutes := [(18, { producer := 0x40, depth := 2, slotKib := 1, offset := 0x1000, stallMs := 100 })] } [1, 2] ∧
    met mbBadgerTable readyDev [27, 0] ∧ met mbBadgerTable readyDev ([27, 0, 0, 0, 0, 0, 0, 0] ++ splice tableBytes 10 [64]) := by decide +kernel

theorem witness_MailboxSettings_steps :
    met mbNumConfig readyDev (leBytes 4 0x82 ++ leBytes 4 0 ++ leBytes 8 0 ++ leBytes 8 0x200000 ++ List.replicate 34 0 ++ leBytes 2 16) ∧
    met mbStepClear (stepDev (opOf 0 []) {}) (leBytes 8 0) ∧ met mbStepClear readyDev (leBytes 8 9) ∧
    stepState (stepDev (opOf 0 []) {}) 0 = some {} ∧ stepState readyDev 9 = none := by decide +kernel

/-- The state of a step whose flag is raised and not decided, and of one that is decided. -/
theorem witness_MailboxSettings_clear :
    ∀ st ∈ [({ flag := true } : StepState), { decision := some true }],
      met mbStepClear (stepDev (opOf 0 []) st) (leBytes 8 0) ∧ stepState (stepDev (opOf 0 []) st) 0 = some st := by decide +kernel

/-- Stage 3 on tile 1, whose ring 70 is its own. -/
def bindDev : Dev := { readyDev with hub.rings := [(70, ringOf 1 [])] }

theorem witness_MailboxSettings_stages :
    met mbStageBind bindDev [3, 1, 1, 0, 70, 0] ∧
    met mbStageUnbind { bindDev with seq.stages := [(3, { tile := 1, rings := [70] })] } [3] ∧
    met mbSeqConfig readyDev (leBytes 8 0x1000 ++ leBytes 8 0x2000) ∧
    met mbStageMigrate { bindDev with seq.stages := [(3, { tile := 1, rings := [70] })] } [3, 2, 1] := by decide +kernel

/-- The body of MB_TH_STREAM for a new stream of pictures of class 0. -/
def streamBody : Bytes :=
  (([] : Bytes) ++ [0, 0, 7, 0, 1, 0, 0xFF] ++ List.replicate 25 0 ++ [8, 0, 8, 0, 1, 0, 0, 0, 64, 0, 0, 0] ++ leBytes 4 8000 ++ [1])

/-- The body of MB_TH_CLASS for class 1, of two pictures of one FP32 element to queue 2 of tile 1. -/
def classBody : Bytes :=
  [0, 1, 2, 0, 0, 1, 2, 0] ++ (List.replicate 4 (leBytes 4 1)).flatten ++ List.replicate 32 0 ++ leBytes 8 1000 ++ leBytes 8 0 ++ [1]

theorem witness_MailboxSettings_thresher :
    met mbThStream (thDev (opOf 0 []) [] []) streamBody ∧ met mbThClass (thDev (opOf 0 []) [] []) classBody := by decide +kernel

theorem witness_MailboxSettings_fabric :
    met mbFabRoute readyDev ([0, 1] ++ leBytes 6 0 ++ leBytes 8 (1 + 2 ^ 8 * 2)) ∧ met mbGroupClear readyDev [7] ∧
    met mbMemRecal readyDev [0, 3, 1] ∧ met mbMemScrub readyDev [24] ∧
    met mbMemHostmap readyDev (leBytes 8 0x1000 ++ leBytes 4 2) ∧
    (∀ n ∈ [0, 0x200000], met mbMemLend readyDev ([1, 0, 2, 0] ++ leBytes 4 0 ++ leBytes 8 0x200000 ++ leBytes 8 n)) ∧
    (∀ n ∈ [0, 0x200000], met mbMemBorrow (fabDev (opOf 0 [])) ([1, 0, 2, 0, 1] ++ leBytes 3 0 ++ leBytes 8 n)) := by decide +kernel

theorem witness_MailboxSettings_device :
    met mbOwlConfig readyDev ([1, 0, 0, 0] ++ leBytes 4 5) ∧ met mbPowerLimit readyDev (leBytes 4 600 ++ leBytes 4 100 ++ [90]) ∧
    met mbTallyRead readyDev [1] ∧ met mbCounterSelect readyDev ([0, 27, 3, 0] ++ leBytes 4 0x1091) ∧
    met mbCounterSelect readyDev ([1, 1, 3, 0] ++ leBytes 4 0x3050) := by decide +kernel

theorem witness_MailboxSettings_record :
    ∀ ok ∈ [true, false], ∀ a ∈ ([0, 1, 2] : Bytes), met (mbTrainSave ok) readyDev [a] := by decide +kernel

/-- Two firmware slots: slot 0 runs on trial, slot 1 is staged. -/
def fwDev : Dev := { readyDev with flash.slots := [{ st := 2, svn := 3 }, { st := 1, preferred := false }] }

/-- The same with a switch to slot 1 in progress, begun `since`, by mailbox 0. -/
def switchDev (since : Nat) : Dev :=
  { fwDev with
    clock.pulse := 5000000000, iabor.activation := some { mbx := 0, slot := 1, since := since }
    iabor.mbx := [{ st := .busy, answer := some mbHeld }] }

/-- An image that is not a manifest, read from memory that nothing has written; a slot to activate; commits; nothing to keep. -/
theorem witness_MailboxFirmware_requests :
    met (mbFwStage true) fwDev (leBytes 8 0x1000 ++ leBytes 4 1280) ∧
    met mbFwActivate fwDev [1] ∧
    (∀ x ∈ ([0, 1] : Bytes), met (mbFwCommit 2) fwDev [x]) ∧ fwFloor fwDev + ((fwSlot fwDev 0).svn - fwFloor fwDev) ≤ 64 ∧
    met mbSanitise { readyDev with seq.stages := [], hub.rings := [] } [] := by decide +kernel

theorem witness_MailboxFirmware_image :
    let d := askDev (mbFwStage true) fwDev (leBytes 8 0x1000 ++ leBytes 4 1280)
    d.mem.flips = [] ∧ (readImage d 0 0x1000 1280 fun _ => 1280).2 = .ok (List.replicate 1280 0) := by decide +kernel

/-- A switch that FW_READY ends in time, and one that has lasted 2 s. -/
theorem witness_MailboxFirmware_switch :
    ∀ t ∈ [1999999999, 2000000000, 2000000001],
      let d := switchDev t
      powered (stateOf d) ∧ d.iabor.activation = some { mbx := 0, slot := 1, since := t } ∧
      d.iabor.mbx[0]? = some { st := .busy, answer := some mbHeld } ∧ 1 < d.flash.slots.length ∧
      (deviceTime d ≤ t + 2000000000 ↔ t ≠ 1999999999) ∧ (t + 2000000000 ≤ deviceTime d ↔ t ≠ 2000000001) := by decide +kernel

/-- A ring with an operation in flight, one without, and one that does not exist. -/
theorem witness_MailboxLoads_destroy :
    ∀ o ∈ [[opOf 0x0102 []], []],
      let d := askDev mbRingDestroy { readyDev with hub.rings := [(0, ringOf 1 o)] } [0, 0]
      met mbRingDestroy { readyDev with hub.rings := [(0, ringOf 1 o)] } [0, 0] ∧ met mbRingDestroy readyDev [0, 0] ∧
      getRing readyDev 0 = none ∧ getRing d 0 = some (ringOf 1 o) ∧ (ringOf 1 o).st ≠ .destroying ∧ (ringOf 1 o).destroyers = [] ∧
      isMember d 0 = false ∧ ((ringOf 1 o).ops.filter Op.inFlight).length = o.length := by decide +kernel

/-- Loads of images from memory that nothing has written, which their checks find at fault. -/
theorem witness_MailboxLoads_images :
    met mbLoomLoad readyDev ([1, 0, 5, 0] ++ leBytes 4 0 ++ leBytes 8 0x1000) ∧ met mbLoomUnload readyDev [1, 0, 5] ∧
    met mbBadgerLoad readyDev ([27, 0, 3, 0] ++ leBytes 4 0 ++ leBytes 8 0x1000) ∧ met mbSeqLoad readyDev (leBytes 8 0x1000 ++ leBytes 8 4) ∧
    met mbThAugLoad readyDev ([1, 0, 3, 0] ++ leBytes 4 0 ++ leBytes 8 0x1000) ∧
    met mbThVocab readyDev ([1, 2] ++ leBytes 6 0 ++ leBytes 8 0x1000 ++ leBytes 4 256) ∧ readyDev.threshers.length = 2 := by decide +kernel

theorem witness_MailboxLoads_images_read :
    let d := { readyDev with iabor.pointer := 1 }
    let z (n : Nat) : Except MbxResponse Bytes := .ok (List.replicate n 0)
    d.mem.flips = [] ∧ (readImage d 8 0x1000 64 loomImageBytes).2 = z 64 ∧ (readImage d 8 0x1000 64 poolImageBytes).2 = z 64 ∧
    (readImage d 0 0x1000 64 fun h => if seqHeaderOk h then seqBytes h else 64).2 = z 64 ∧
    (readImage d 8 0x1000 64 fun h => 64 + 8 * fld h 4 1).2 = z 64 ∧ (readImage d 8 0x1000 1 fun _ => vocabBytes 256).2 = z 2304 := by
  decide +kernel

/-- A Loom's load that ends as its command completes, of a sound image and of one with a fault. -/
theorem witness_MailboxLoads_loading :
    ∀ r ∈ [mbOk [1], mbEnd 6 0], ∀ image ∈ [some ([0], [0]), none],
      let x : LoomLoad := { mbx := 0, slot := 5, image := image, digest := [], fault := 0, pages := 1 }
      let b : Mailbox := { st := .busy, answer := some r }
      let d : Dev := { readyDev with
        looms := [(loomIndex 1 0, { loading := some x })], iabor.mbx := b :: List.replicate 7 {} }
      powered (stateOf d) ∧ d.iabor.mbx[0]? = some b ∧ r.held = false ∧ loomExists 1 0 = true ∧ (getLoom d 1 0).loading = some x ∧
      ∀ y ∈ d.looms, y.1 = loomIndex 1 0 := by decide +kernel

/-- A group's record at 0x1800, with a fault; the Granary switched off. -/
theorem witness_MailboxLoads_records :
    (let d := askDev mbGroupSet (fabDev (opOf 0 [])) (leBytes 8 0x1800)
     met mbGroupSet (fabDev (opOf 0 [])) (leBytes 8 0x1800) ∧ inGddr d 0x1800 64 = true ∧ memClear d 0x1800 64) ∧
    (let b := [0, 0] ++ leBytes 2 0xFFFF ++ leBytes 4 1 ++ leBytes 8 0x1800 ++ List.replicate 18 0 ++ leBytes 2 8
     let d := askDev mbGranaryConfig readyDev b
     met mbGranaryConfig readyDev b ∧ memClear d 0x1800 128 ∧ d.steps.num.shardAddr = 0) := by decide +kernel

/-- A stream port trained and switched off; the fabric of a ring of four given anew; a fabric port trained, retrained and disabled. -/
theorem witness_MailboxLoads_links :
    (∀ x ∈ ([0, 1] : Bytes), met (mbThPort 0xFF) readyDev [1, x]) ∧
    met (mbFabConfig sixPorts) (fabDev (opOf 0 [])) [1, 0, 4, 1, 1, 0, 0, 1, 7, 7, 7, 7, 0, 0] ∧ (fabDev (opOf 0 [])).fabric.ports.length = 6 ∧
    (∀ x ∈ ([0, 1, 2] : Bytes), met (mbFabPort {}) (fabDev (opOf 0 [])) [2, x]) ∧ (getPort (fabDev (opOf 0 [])) 2).waiting = [] := by
  decide +kernel

/-- Domains of SRAM, of a tile's engines and of a Thresher, switched; an OFF one switched on. -/
theorem witness_MailboxLoads_domains :
    met mbPowerDomain readyDev [1, 0, 2] ∧ met mbPowerDomain readyDev [65, 0, 0] ∧ met mbPowerDomain readyDev [65, 0, 1] ∧
    met mbPowerDomain readyDev [143, 0, 0] ∧ domainState readyDev 65 = .on := by decide +kernel

theorem witness_MailboxLoads_domains_off :
    let d := { readyDev with power.domains := (List.replicate 157 .on).set 65 .off }
    met mbPowerDomain d [65, 0, 1] ∧ domainState d 65 = .off := by decide +kernel

/-! ### Memory, snapshots and restores -/

/-- A copy or a fill of two rows of 8 bytes, 16 apart, from 0x1000 to 0x2000. -/
def moveOp (code : Nat) : Op :=
  opOf code [(32, leBytes 8 0x1000), (40, leBytes 8 0x2000), (48, [8]), (52, [2]), (56, [16]), (60, [16]), (64, [1, 2, 3, 4, 5, 6, 7, 8])]

theorem witness_DataMoverAndMemory_moves :
    ∀ c ∈ [0x0801, 0x0802],
      let o := moveOp c
      let d := withBytes (devOf 0x130 o) [(0x1000, [5, 6, 7]), (0x1010, [9])]
      atWork (stateOf d) ∧ quietMemory d ∧ moverAt d c name0 0 o ∧ o.f 48 4 ≤ o.f 60 4 ∧
      memClear d 0x2000 8 ∧ memClear d 0x2010 8 ∧ memClear d 0x1000 8 ∧ memClear d 0x1010 8 := by decide +kernel

/-- Nine operations of one ring: eight stand before the last. -/
theorem witness_DataMoverAndMemory_eight :
    let o (k : Nat) : Op := { moveOp 0x0801 with seq := BitVec.ofNat 32 k, stamp := k }
    let d := { readyDev with hub.rings := [(0, ringOf 0x130 ((List.range 9).map o))] }
    let n : OpName := { ring := 0, seq := 8 }
    atWork (stateOf d) ∧ issuedOp d n = some (o 8) ∧ ringTarget d 0 = some (.mover 0) ∧
    8 ≤ ((issuedTo d (.mover 0)).takeWhile fun e => !(e.1 == n.ring && e.2.seq == n.seq)).length := by decide +kernel

/-- A word of data in a firmware area, and one of the training patterns there. -/
theorem witness_DataMoverAndMemory_areas :
    areaGuarded readyDev (5 * 2 ^ 26 + 0x100) = true ∧ areaGuarded readyDev (5 * 2 ^ 26 + 0xFF0000) = false ∧
    5 * 2 ^ 26 + 0xFF0000 < 2 ^ 32 := by decide +kernel

/-- A channel that is due by its time, by its temperature, and not; one that has failed once. -/
theorem witness_DataMoverAndMemory_recalibration :
    ∀ x ∈ [((0 : Nat), (0 : Int), (0 : Nat)), (312500000, 0, 0), (0, 4, 1), (0, 3, 1)],
      let c : Channel := { fails := x.2.2 }
      let d := { readyDev with
        clock.pulse := x.1, power.gddrTemp := List.replicate 24 x.2.1, mem.channels := [(48 + 4 * 3 + 2, c)] }
      powered (stateOf d) ∧ firmwareRuns d 1 = true ∧ 3 ∈ goodControllers d 1 ∧ tgetD d.mem.channels (48 + 4 * 3 + 2) {} = c ∧
      (recalDue d (48 + 4 * 3 + 2) x.2.1 = true ↔ x = (312500000, 0, 0) ∨ x = (0, 4, 1)) := by decide +kernel

/-- A word without errors, with one, and with three; and the same of a check sector. -/
theorem witness_DataMoverAndMemory_scrub :
    powered (stateOf readyDev) ∧ (0x100 : Nat) < 2 ^ 44 ∧ inOwnMemory readyDev (16 * 0x100) 16 = true ∧
    accessFault readyDev (16 * 0x100) 16 false = none ∧ readyDev.mem.flips = [] ∧ accessFault readyDev (512 * 3) 512 false = none ∧
    weight (0 : BitVec 144) = 0 ∧ weight (5 : BitVec 144) = 2 ∧ wordData readyDev 0x100 = 0 ∧ checkWord 0 threeErrors = .uncorrectable := by
  decide +kernel

/-- The Granary configured on window 0, whose store device (2, 0, 0) lends: no regions and an empty state area. -/
def storeDev (o : Op) : Dev :=
  let d := fabDev o
  { d with
    hub.rings := [(0, ringOf 0x120 [o])], fabric.borrows := [(0, { lender := 2, lend := 1, size := 2 ^ 36 })]
    granary := { d.granary with cfg := some (List.replicate 64 0) } }

theorem witness_Snapshots_arm :
    ∀ g ∈ [({ cfg := some [] } : Granary), { st := .armed, step := 5 }, { st := .copying, step := 2 }],
      let o := opOf 0x0701 [(32, [5])]
      let d := { storeDev o with granary := g }
      atWork (stateOf d) ∧ granaryAt d 0x0701 name0 o := by
  intro g hg
  simp only [List.mem_cons, List.not_mem_nil, or_false] at hg
  rcases hg with rfl | rfl | rfl <;>
    exact ⟨by decide +kernel, by decide +kernel, by decide +kernel, by decide +kernel, 0, by decide +kernel, by decide +kernel⟩

/-- A snapshot of step 0 in slot 0 that copies one page of 16 bytes at 0x1000. -/
def page0 : Page := { region := 0, addr := 0x1000, bytes := 16, die := 0, index := 0 }

def copyingDev (p : Page) : Dev :=
  let d := withBytes (storeDev (opOf 0 [])) [(0x1000, [1, 2, 3])]
  { d with granary := { d.granary with st := .copying, pages := [p] } }

theorem witness_Snapshots_copy :
    (let d := copyingDev page0
     atWork (stateOf d) ∧ d.granary.st = .copying ∧ nextPage d 0 = some 0 ∧ d.granary.pages[0]? = some page0 ∧ memClear d 0x1000 16 ∧ (∀ x ∈ d.granary.pages, x.addr + x.bytes ≤ 0x300000000000) ∧
     slotOff d 0 + d.granary.slotSize - 65536 * d.granary.nPages + 65536 ≤ 2 ^ 36 ∧ memoryWf d.mem = true ∧
     tget d.fabric.borrows d.granary.win = some { lender := 2, lend := 1, size := 2 ^ 36 } ∧ routable d 2 = true) ∧
    (let p := { page0 with taken := true, sentAt := some 599999 }
     let d := copyingDev p
     atWork (stateOf d) ∧ d.granary.pages[0]? = some p ∧ p.sentAt.isSome = true ∧ d.granary.heldTrigger = false ∧ d.granary.heldStep = none ∧ 599999 + 1000000 ≤ deviceTime d) := by
  decide +kernel

theorem witness_Snapshots_seal :
    let d := { storeDev (opOf 0x0701 []) with granary := { (storeDev (opOf 0 [])).granary with st := .sealing, waiters := [name0] } }
    atWork (stateOf d) ∧ memoryWf d.mem = true ∧ (∃ b, tget d.fabric.borrows d.granary.win = some b ∧ b.size = 2 ^ 36 ∧ routable d b.lender = true) ∧
    d.granary.heldTrigger = false ∧ d.granary.heldStep = none ∧ d.granary.slot < 2 ∧ d.granary.pages.length = d.granary.nPages ∧ d.granary.wcAddr = 0 ∧
    0x10000 + 2 * d.granary.slotSize ≤ 2 ^ 36 ∧ issuedOp d name0 = some (opOf 0x0701 []) := by
  refine ⟨by decide +kernel, by decide +kernel, ⟨_, rfl, rfl, by decide +kernel⟩, ?_⟩
  decide +kernel

/-- Its store with a committed generation of step 4 in slot 0, GEN 7, without regions, whose state digest is that of no bytes. -/
def storedDev (o : Op) (digest root : Bytes) : Dev :=
  let d := storeDev o
  let r := leBytes 4 0x47524E59 ++ [0, 0xA5, 0, 0] ++ leBytes 8 7 ++ leBytes 8 4 ++ leBytes 32 0 ++ digest ++ root ++ leBytes 8 0
  { d with mem.remote := cellsWrite [] (peerKey d (storeAddr d 0)) r }

/-- SHAKE256 of no bytes, and of those 32 bytes. -/
def emptyDigest : Bytes := leBytes 32 21468664885170662639985957090336418708702569955620632736621138429888230701382
def emptyRoot : Bytes := leBytes 32 110075423237698802021750871509815351756582532582160305556407790236514014770599

/-- What is read of that slot. -/
def gen0 : Generation :=
  { slot := 0, area := [], sections := [], regions := [], places := [], digests := []
    record := { committed := true, gen := 7, step := 4, ident := 0, coord := 0, regions := 0, pages := 0, stateDigest := emptyDigest
                root := emptyRoot, rngStep := 0 } }

/-- GR_RESTORE on a busy Granary, without a generation, refused for the coordinates, and of a generation that fits. -/
theorem witness_RestoreVerifyExportAndOwl_restore :
    (let o := opOf 0x0702 []
     let d := storeDev o
     atWork (stateOf d) ∧ issuedOp d name0 = some o ∧ ringTarget d 0 = some (.granary 0) ∧ privileged 0 = true ∧
     namedSlot o (storedGen d 0, storedGen d 1) = none) := by
  decide +kernel

theorem witness_RestoreVerifyExportAndOwl_generation :
    ∀ mode ∈ ([0, 2] : Bytes),
      let o := opOf 0x0702 [(32, [mode])]
      let d := storedDev o emptyDigest emptyRoot
      (namedGeneration d name0 o).2 = .ok gen0 ∧
      restoreRefusal d (o.f 32 1 % 4) gen0 = (if mode = 0 then none else some 4) := by decide +kernel

theorem witness_RestoreVerifyExportAndOwl_digests :
    let o := opOf 0x0702 []
    let d := storedDev o emptyDigest emptyRoot
    memoryWf d.mem = true ∧ tget d.fabric.borrows d.granary.win = some { lender := 2, lend := 1, size := 2 ^ 36 } ∧ routable d 2 = true ∧
    shake256 gen0.area = gen0.record.stateDigest ∧ scriptsOk gen0 = true ∧ gen0.rootsOk = true ∧ (numOf (gen0.sections.getD 0 [])).shardAddr = 0 ∧
    d.granary.wcAddr = 0 := by decide +kernel

/-- GR_VERIFY and GR_EXPORT of that generation. -/
theorem witness_RestoreVerifyExportAndOwl_verify :
    ∀ c ∈ [0x0703, 0x0705],
      let o := opOf c [(40, leBytes 8 0x1800)]
      let d := storedDev o emptyDigest emptyRoot
      atWork (stateOf d) ∧ issuedOp d name0 = some o ∧ o.opcode = c ∧ o.done = 0 ∧ ringTarget d 0 = some (.granary 0) ∧
      ((issuedTo d (.granary 0)).find? fun e => e.2.done == 0).map (fun e => (e.1, e.2.seq)) = some (0, 0) ∧
      (namedGeneration d name0 o).2 = .ok gen0 ∧ d.granary.st = .idle ∧ memClear d 0x1800 0 := by decide +kernel

/-- A census step: the shard table's one entry at 0x1000, of this device or of device 1, with its census entry at 0x1800. -/
def censusDev (o : Op) (flags : Byte) (k : Nat) (mask : List Byte) (theirs : Bytes) : Dev :=
  let d := withBytes (storeDev o) [(0x1000, shardEntry flags 2), (0x1200, [1, 2, 3]), (0x1800, [9] ++ List.replicate 39 0 ++ leBytes 8 0x3000)]
  { d with
    steps.num := { d.steps.num with shardAddr := 0x1000, shardCount := 1 }
    steps.opened := [{ decision := some true }, {}, {}, {}]
    granary := { d.granary with cfg := some (splice (List.replicate 64 0) 24 (leBytes 8 0x1800 ++ leBytes 2 k)) }
    mem.remote := cellsWrite [] (remoteKey 2 0x3000) (theirs ++ mask) }

theorem witness_RestoreVerifyExportAndOwl_census :
    ∀ k ∈ [0, 1],
      let o := opOf 0x0704 []
      let d := censusDev o 3 k [] []
      atWork (stateOf d) ∧ issuedOp d name0 = some o ∧ censusStep d 0 = decide (k = 1) ∧ memoryWf d.mem = true ∧ d.granary.st = .idle ∧
      (validShards d).2 = .ok [(0, shardEntry 3 2)] ∧ bit (fld (shardEntry 3 2) 26 1) 1 = true ∧
      stepState d 0 = some { decision := some true } ∧ d.granary.wcAddr ≠ 0 ∧ memClear d (wcEntry d 0) 64 ∧
      memClear d (nextBuf (shardEntry 3 2)) 16 ∧ leNat (cellsRead d.mem.cells (wcEntry d 0) 8) ≠ fld (shardEntry 3 2) 32 8 := by decide +kernel

/-- A replica that waits for its owner's entry, of step 0; a retry before and after 1 µs; the entry behind, and of the same step. -/
def waitingOp (step : Byte) : Op := { opOf 0x0704 [(32, [step])] with done := 1, sendFrom := some 1598000, stallFrom := some 0 }

theorem witness_RestoreVerifyExportAndOwl_retry :
    ∀ x ∈ [((0 : Byte), ([0, 0] : Bytes)), (1, [1, 0])],
      let o := waitingOp 1
      let d0 := censusDev o 1 1 [] (leBytes 8 x.1.toNat ++ leBytes 32 39213154389310618447320819237640962901445068338325908560466775825481339562262)
      let d := { d0 with steps.opened := [{}, { decision := some true }, {}, {}] }
      atWork (stateOf d) ∧ issuedOp d name0 = some o ∧ o.opcode = 0x0704 ∧ o.sendFrom = some 1598000 ∧ o.stallFrom = some 0 ∧
      1598000 + 1000 ≤ deviceTime d ∧ deviceTime d < 1598000 + 3000 ∧ memoryWf d.mem = true ∧ d.granary.st = .idle ∧
      (validShards d).2 = .ok [(0, shardEntry 1 2)] ∧ o.done = 1 ∧ bit (fld (shardEntry 1 2) 26 1) 1 = false ∧
      stepState d 1 = some { decision := some true } ∧ memClear d (wcEntry d 0) 64 ∧ memClear d (nextBuf (shardEntry 1 2)) 16 ∧
      routable d 2 = true ∧ fld (cellsRead d.mem.remote (remoteKey 2 (leNat (cellsRead d.mem.cells (wcEntry d 0 + 40) 8))) 64) 0 8 = x.1.toNat := by
  decide +kernel

/-- The same replica with the owner's entry fetched. -/
theorem witness_RestoreVerifyExportAndOwl_fetched :
    let o := { waitingOp 1 with sendFrom := none, fetched := [(remoteKey 2 0x3000, 64, 9)] }
    let d := { censusDev o 1 1 [] [] with steps.opened := [{}, { decision := some true }, {}, {}] }
    issuedOp d name0 = some o ∧ o.opcode = 0x0704 ∧ ringTarget d 0 = some (.granary 0) ∧ (waitingOp 1).fetched = [] ∧ awaits d name0 = false ∧
    leNat (cellsRead d.mem.cells (wcEntry d 0 + 40) 8) = 0x3000 ∧ (validShards d).2 = .ok [(0, shardEntry 1 2)] ∧
    memClear d (wcEntry d 0) 64 ∧ memClear d (nextBuf (shardEntry 1 2)) 16 ∧ routable d 2 = true := by decide +kernel

theorem witness_RestoreVerifyExportAndOwl_replica :
    let o := waitingOp 1
    (bufferDigest (censusDev o 1 1 [] []) name0 (nextBuf (shardEntry 1 2)) (fld (shardEntry 1 2) 16 8)).2 =
      .ok (leBytes 32 39213154389310618447320819237640962901445068338325908560466775825481339562262) := by decide +kernel

/-- A retry before its time; and evaluations of the Owl whose time has come or not. -/
theorem witness_RestoreVerifyExportAndOwl_times :
    (let o := { waitingOp 1 with sendFrom := some 1599001 }
     issuedOp (storeDev o) name0 = some o ∧ deviceTime (storeDev o) < 1599001 + 1000) ∧
    (∀ last ∈ [0, 1],
      let d := { storeDev (opOf 0 []) with owl.lastEval := last }
      atWork (stateOf d) ∧ (deviceTime d / 1000000 ≤ d.owl.lastEval ↔ last = 1)) := by decide +kernel

end Sys2Proof.Tests
end

section
/-! SUPPORT. Function-level reset, PERST_N, and what the host reaches through BAR0 and configuration space: one rule for each
shared operation, and from them the statements on how commands act, on the resets (R421, R444) and on accesses (R8, R9, R423). -/

namespace Sys2Proof.HostProofs

open Sys2Proof Sys2Proof.Machine Sys2Proof.Safety

/-! ## How a command acts -/

/-- Every meaning is an effect on the device alone: it neither reads nor changes the queue. -/
theorem exec_eq_act (c : Instr) : ∃ f : Dev → Dev, ∀ s, exec c s = act s f := by
  cases c <;> exact ⟨_, fun _ => rfl⟩

/-- The queue after a step is the rest of the queue before it; a pulse finds it empty and leaves it so. -/
theorem step_eq_next (s : State) : ∃ d, step s = .next { dev := d, pending := s.pending.tail } := by
  obtain ⟨dev, pending⟩ := s
  cases pending with
  | nil => exact ⟨tickDev dev, rfl⟩
  | cons c rest =>
    obtain ⟨f, hf⟩ := exec_eq_act c
    exact ⟨f dev, hf _⟩

/-- An effect that leaves the Granary alone takes place at once on a powered package with no write waiting (R358, R359). -/
theorem act_live {f : Dev → Dev} {s : State} {d : Dev} (hp : powered s) (heq : f s.dev = d)
    (hg : d.granary = s.dev.granary) : act s (live f) = .next { s with dev := d } := by
  obtain ⟨hon, hstalls⟩ := hp
  simp [act, live, settle, hon, heq, hg, hstalls]

/-- Settles O2: every arm of `exec` is an effect on the device, so no arm can fault, refuse or touch the queue. -/
theorem everyCommandGoesOn : Obligations.EveryCommandGoesOn := by
  refine ⟨fun c s => ?_, fun s => ?_⟩
  · obtain ⟨f, hf⟩ := exec_eq_act c
    exact ⟨f s.dev, hf s⟩
  · obtain ⟨d, hd⟩ := step_eq_next s
    refine ⟨⟨_, hd⟩, fun t ht => ?_⟩
    rw [hd] at ht
    cases ht
    rfl

/-! ## Function-level reset and PERST_N -/

/-- With no boot ROM serving the mailboxes, a mailbox is reset to IDLE with an empty request and no answer (R381). -/
theorem mailboxReset_idle (b : Mailbox) :
    (b.reset false).st = .idle ∧ (b.reset false).req = [] ∧ (b.reset false).answer = none := ⟨rfl, rfl, rfl⟩

/-- Every mailbox after function-level reset is one before it, reset. -/
theorem functionReset_mbx (d : Dev) : (functionReset d).iabor.mbx = d.iabor.mbx.map (Mailbox.reset (romServes d)) := rfl

/-- R381, R421: where the boot ROM does not serve them, all mailboxes are IDLE after function-level reset. -/
theorem functionReset_mbx_idle {d : Dev} (h : romServes d = false) :
    ∀ b ∈ (functionReset d).iabor.mbx, b.st = .idle ∧ b.req = [] ∧ b.answer = none := by
  intro b hb
  rw [functionReset_mbx, h, List.mem_map] at hb
  obtain ⟨a, -, rfl⟩ := hb
  exact mailboxReset_idle a

/-- FUNCTION_LEVEL_RESET takes place where configuration space answers. -/
theorem functionLevelReset_of_open {d : Dev} (h : configOpen d = true) : functionLevelReset d = functionReset d := if_pos h

/-- And elsewhere it does nothing. -/
theorem functionLevelReset_of_shut {d : Dev} (h : configOpen d = false) : functionLevelReset d = d := by
  simp [functionLevelReset, h]

/-- R444: after ready, PERST_N acts as function-level reset does, holds the pin, and clears the link's own status. -/
theorem perstAssert_of_ready {d : Dev} (hon : d.power.on = true) (hready : d.power.ready = true) (hpin : d.power.perst = false) :
    perstAssert d = { functionReset d with power.perst := true, host.aerUnc := 0, host.aerCor := 0 } := by
  simp [perstAssert, hon, hready, hpin]

/-- R444: before ready, PERST_N only moves the pin. -/
theorem perstAssert_of_not_ready {d : Dev} (hready : d.power.ready = false) (hpin : d.power.perst = false) :
    perstAssert d = { d with power.perst := true } := by
  simp [perstAssert, hready, hpin]

/-- Settles O26: function-level reset and PERST_N after ready both leave `functionReset`, whose parts are read off (R421, R444). -/
theorem functionLevelReset : Obligations.FunctionLevelReset := by
  unfold Obligations.FunctionLevelReset
  intro clears
  have hclears (d : Dev) (p : Power) (unc cor : W32) :
      clears d { functionReset d with power := p, host := { resetHost d.host with aerUnc := unc, aerCor := cor } } :=
    ⟨rfl, fun _ => rfl, rfl, rfl, rfl, rfl, rfl, rfl, rfl, rfl, rfl, rfl, rfl, rfl, rfl, rfl, rfl, rfl, rfl, rfl, rfl, rfl⟩
  refine ⟨fun s hopen => ?reset, fun s hshut => ?shut, fun s hon hready hpin => ?ready, fun s hready hpin => ?notReady,
    fun s => ⟨_, rfl, rfl⟩⟩
  case reset =>
    refine ⟨_, rfl, ?_⟩
    rw [functionLevelReset_of_open hopen]
    exact ⟨hclears _ _ _ _, rfl, functionReset_mbx_idle⟩
  case shut =>
    exact congrArg (fun d => Host.Outcome.next { s with dev := d }) (functionLevelReset_of_shut hshut)
  case ready =>
    refine ⟨_, rfl, ?_⟩
    rw [perstAssert_of_ready hon hready hpin]
    exact ⟨hclears _ _ _ _, rfl⟩
  case notReady => exact ⟨_, rfl, perstAssert_of_not_ready hready hpin⟩

/-! ## What a report changes of the host side -/

/-- A raised vector changes nothing but its pending bit and the messages sent. -/
theorem raiseVector_host_frame (d : Dev) (v : Nat) :
    ∃ p m, raiseVector d v = { d with host.pending := p, out.msix := m } := by
  unfold raiseVector
  split
  · exact ⟨_, _, rfl⟩
  · split <;> exact ⟨_, _, rfl⟩

/-- A cause that may be set changes nothing but the cause register, the pending bits and the messages sent. -/
theorem setCause_if_host_frame (c : Prop) [Decidable c] (d : Dev) (k : Nat) :
    ∃ i p m, (if c then setCause d k else d) = { d with host.irqCause := i, host.pending := p, out.msix := m } := by
  unfold setCause
  split
  · split
    · exact ⟨_, _, _, rfl⟩
    · dsimp only
      split
      · obtain ⟨p, m, e⟩ := raiseVector_host_frame { d with host.irqCause := d.host.irqCause ||| BitVec.twoPow 7 k } 0
        exact ⟨_, p, m, e⟩
      · exact ⟨_, _, _, rfl⟩
  · exact ⟨_, _, _, rfl⟩

/-- What a Tally made of a report changes the Tally, the cause register, the pending bits and the messages sent. -/
theorem takeReport_host_frame (d : Dev) (die ev : Nat) (o : TallyOutcome) :
    ∃ i p m, takeReport d die ev o =
      { d with tally := d.tally.set die o.tally, host.irqCause := i, host.pending := p, out.msix := m } := by
  unfold takeReport
  dsimp only
  obtain ⟨i1, p1, m1, e1⟩ := setCause_if_host_frame ((o.created && decide (severity ev = 3)) = true)
    { d with tally := d.tally.set die o.tally } 1
  rw [e1]
  obtain ⟨i2, p2, m2, e2⟩ := setCause_if_host_frame ((o.created && decide (severity ev = 2)) = true)
    { d with tally := d.tally.set die o.tally, host.irqCause := i1, host.pending := p1, out.msix := m1 } 2
  rw [e2]
  obtain ⟨i3, p3, m3, e3⟩ := setCause_if_host_frame (o.overflow = true)
    { d with tally := d.tally.set die o.tally, host.irqCause := i2, host.pending := p2, out.msix := m2 } 3
  exact ⟨i3, p3, m3, e3⟩

/-- With no hard halt in force, a report is taken by the Tally of its die and seen by the Owl, and besides these it changes
only the counters, the cause register, the pending bits and the messages sent (R431 to R434). -/
theorem logEvent_host_frame {d : Dev} (h : d.hub.hardHalted = false) (ev : Nat) (src : Source) (detail : Nat) (r : Option Nat) :
    ∃ c i p m, logEvent d ev src detail r = { d with
      counters := c
      owl.events := tput d.owl.events ev (tgetD d.owl.events ev 0 + 1)
      tally := d.tally.set (sourceDie d src) ((d.tally.getD (sourceDie d src) {}).report (deviceTime d)
        (BitVec.ofNat 16 (ev + 4096 * sourceDie d src)) (BitVec.ofNat 16 src.code) (BitVec.ofNat 64 detail)).tally
      host.irqCause := i, host.pending := p, out.msix := m } := by
  unfold logEvent
  simp only [h, Bool.false_eq_true, if_false]
  obtain ⟨i, p, m, e⟩ := takeReport_host_frame (seeEvent d ev (sourceDie d src) src.tile (src.ringOr r)) (sourceDie d src) ev _
  exact ⟨_, i, p, m, e⟩

/-- An access that R9 does not allow is recorded as EV_HOST_BAD_ACCESS, and the rest of the device stays but for the cause
register, the pending bits, the messages sent and the counters. -/
theorem badAccess_frame {d : Dev} (h : d.hub.hardHalted = false) :
    recorded d (badAccess d) 0x800 .hostLink 0 ∧ ∃ c e t i p m, badAccess d = { d with
      counters := c, owl.events := e, tally := t, host.irqCause := i, host.pending := p, out.msix := m } := by
  obtain ⟨c, i, p, m, e⟩ := logEvent_host_frame h evHostBadAccess .hostLink 0 none
  rw [badAccess, e]
  exact ⟨⟨rfl, by simp [tgetD]⟩, c, _, _, i, p, m, rfl⟩

/-! ## Reads of BAR0 (R9, R423) -/

/-- A read that R9 allows completes with the bytes of its value. -/
theorem bar0Read_of_allowed {d : Dev} {off width : Nat} (hopen : configOpen d = true) (hd0 : d.host.d3hot = false)
    (hok : accessAllowed d off width = true) :
    bar0Read off width d = answerRead d (.data (leBytes width (bar0Value d off width))) := by
  simp [bar0Read, Machine.linkUp, hopen, hd0, hok]

/-- A read that R9 does not allow is recorded and returns all ones. -/
theorem bar0Read_of_refused {d : Dev} {off width : Nat} (hopen : configOpen d = true) (hd0 : d.host.d3hot = false)
    (hbad : accessAllowed d off width = false) :
    bar0Read off width d = answerRead (badAccess d) (.data (List.replicate width 0xFF)) := by
  simp [bar0Read, Machine.linkUp, hopen, hd0, hbad]

/-- In D3hot every read of BAR0 completes as an unsupported request (R423). -/
theorem bar0Read_of_d3hot {d : Dev} (off width : Nat) (hopen : configOpen d = true) (hd3 : d.host.d3hot = true) :
    bar0Read off width d = answerRead d .unsupported := by
  simp [bar0Read, Machine.linkUp, hopen, hd3]

/-- BAR0_READ of an access that R9 does not allow. -/
theorem exec_bar0Read_refused {s : State} {off width : Nat} (hp : powered s) (hopen : configOpen s.dev = true)
    (hd0 : s.dev.host.d3hot = false) (hbad : accessAllowed s.dev off width = false) (hrun : s.dev.hub.hardHalted = false) :
    acts (.bar0Read off width) s fun d => recorded s.dev d 0x800 .hostLink 0 ∧
      d.out.reads = s.dev.out.reads ++ [.data (List.replicate width 0xFF)] := by
  refine ⟨_, act_live hp (bar0Read_of_refused hopen hd0 hbad) (logEvent_granary ..), ?_⟩
  obtain ⟨hrec, c, e, t, i, p, m, heq⟩ := badAccess_frame hrun
  exact ⟨hrec, by rw [heq]; rfl⟩

/-! ## Register writes (R8, R9) -/

/-- R9: a write that is not allowed is recorded and discarded. -/
theorem exec_registerWrite_refused {s : State} {off width : Nat} (hp : powered s) (hopen : barOpen s.dev = true)
    (hbad : accessAllowed s.dev off width = false) (hrun : s.dev.hub.hardHalted = false) (v : W64) :
    acts (.registerWrite off width v) s fun d => recorded s.dev d 0x800 .hostLink 0 ∧
      d.hub = s.dev.hub ∧ d.mem = s.dev.mem ∧ d.iabor = s.dev.iabor := by
  have heq : registerWrite off width v s.dev = badAccess s.dev := by simp [registerWrite, hopen, hbad]
  refine ⟨_, act_live hp heq (logEvent_granary ..), ?_⟩
  obtain ⟨hrec, c, e, t, i, p, m, heq⟩ := badAccess_frame hrun
  exact ⟨hrec, by rw [heq], by rw [heq], by rw [heq]⟩

/-- A 32-bit write at the start of a register, outside the buffers and the shut tile windows, reaches that register. -/
theorem registerWrite_start {d : Dev} {off : Nat} (v : W64) (hopen : barOpen d = true) (hwin : windowShut d off = false)
    (hbuf : bufferAt off = none) (halign : off % 8 = 0) :
    registerWrite off 4 v d = writeReg d off { mask := 256 ^ 4 - 1, value := v.toNat % 256 ^ 4 } := by
  have hallowed : accessAllowed d off 4 = true := by
    simp only [accessAllowed, hwin, Bool.not_false, Bool.true_and, if_true, beq_iff_eq]
    omega
  have hstart : regStart d off = off := by simp [regStart, halign]
  simp [registerWrite, hopen, hallowed, hbuf, hstart]

/-- The low 7 bits that a 32-bit write brings to LL_IRQ_CAUSE, and its ENABLE, as fields of the value written (Table 17.10). -/
theorem writeIrq_low (d : Dev) (v : W64) :
    (writeIrq d (v.toNat % 256 ^ 4)).host = { d.host with
      irqCause := d.host.irqCause &&& ~~~(v.extractLsb' 0 7), irqEnable := v.extractLsb' 8 7 } := by
  have hcause : BitVec.ofNat 7 (v.toNat % 256 ^ 4) = v.extractLsb' 0 7 := by
    apply BitVec.eq_of_toNat_eq
    simp only [BitVec.toNat_ofNat, BitVec.extractLsb'_toNat, Nat.shiftRight_zero]
    omega
  have henable : BitVec.ofNat 7 (bits (v.toNat % 256 ^ 4) 14 8) = v.extractLsb' 8 7 := by
    apply BitVec.eq_of_toNat_eq
    simp only [bits, BitVec.toNat_ofNat, BitVec.extractLsb'_toNat, Nat.shiftRight_eq_div_pow]
    omega
  simp only [writeIrq, hcause, henable]

/-- A watchdog LIMIT takes the low 16 bits written, but not 0 (Table 5.9). -/
theorem newLimit_low (old : W16) (v : W64) :
    newLimit old (v.toNat % 256 ^ 4) = if v.extractLsb' 0 16 = 0 then old else v.extractLsb' 0 16 := by
  have hlow : v.toNat % 256 ^ 4 % 2 ^ 16 = (v.extractLsb' 0 16).toNat := by
    simp only [BitVec.extractLsb'_toNat, Nat.shiftRight_zero]
    omega
  have hval : BitVec.ofNat 16 (v.toNat % 256 ^ 4) = v.extractLsb' 0 16 := by
    apply BitVec.eq_of_toNat_eq
    rw [BitVec.toNat_ofNat, hlow]
  have hzero : v.toNat % 256 ^ 4 % 2 ^ 16 = 0 ↔ v.extractLsb' 0 16 = 0 := by
    rw [hlow, ← BitVec.toNat_inj]; rfl
  simp only [newLimit, hzero, hval]

/-! ## Tile windows (R19) -/

/-- What is put under a key is what a read with a default finds there. -/
theorem tgetD_tput_same {α : Type} (t : Table α) (k : Nat) (v dflt : α) : tgetD (tput t k v) k dflt = v := by
  rw [tgetD, tget_tput_same, Option.getD_some]

/-- A Mill's change is what is read of it. -/
theorem getMill_modMill (d : Dev) (t : Nat) (f : Mill → Mill) : getMill (modMill d t f) t = f (getMill d t) :=
  tgetD_tput_same ..

/-- A Loom's change is what is read of it. -/
theorem getLoom_modLoom (d : Dev) (t e : Nat) (f : Loom → Loom) : getLoom (modLoom d t e f) t e = f (getLoom d t e) :=
  tgetD_tput_same ..

/-- A Quern's change is what is read of it. -/
theorem quern_modQuern (d : Dev) (t : Nat) (f : Quern → Quern) :
    tgetD (modQuern d t f).querns t {} = f (tgetD d.querns t {}) :=
  tgetD_tput_same ..

/-- A Badger's change is what is read of it. -/
theorem getBadger_modBadger (d : Dev) (t : Nat) (f : Badger → Badger) : getBadger (modBadger d t f) t = f (getBadger d t) :=
  tgetD_tput_same ..

/-- A write at offset `r` of tile `t`'s window reaches that register of the tile. -/
theorem writeReg_tile (d : Dev) {off t r : Nat} (w : RegWrite) (ht : t < 64) (hr : r < 0x80000)
    (hoff : off = 0x1000000 + 0x80000 * t + r) : writeReg d off w = writeTileReg d t r w := by
  have htile : (off - 0x1000000) / 0x80000 = t := by omega
  have hreg : off % 0x80000 = r := by omega
  simp only [writeReg, Bool.and_eq_true, decide_eq_true_eq, beq_iff_eq, htile, hreg]
  rw [if_neg (by omega), if_neg (by omega), if_neg (by omega), if_neg (by omega), if_neg (by omega), if_neg (by omega),
    if_neg (by omega), if_pos (by omega)]

/-- No buffer of BAR0 lies among the tile windows. -/
theorem bufferAt_tile {off : Nat} (h : 0x1000000 ≤ off) : bufferAt off = none := by
  simp only [bufferAt, decide_eq_true_eq]
  rw [if_neg (by omega), if_neg (by omega), if_neg (by omega)]

/-- A 32-bit write to a register of an open tile window, whose effect leaves the Granary alone, takes place at once. -/
theorem exec_registerWrite_tile {s : State} {off t r : Nat} {v : W64} {d : Dev} (hp : powered s) (hopen : barOpen s.dev = true)
    (ht : t < 64) (hr : r < 0x80000) (halign : r % 8 = 0) (hoff : off = 0x1000000 + 0x80000 * t + r)
    (hwin : windowShut s.dev off = false)
    (heq : writeTileReg s.dev t r { mask := 256 ^ 4 - 1, value := v.toNat % 256 ^ 4 } = d) (hg : d.granary = s.dev.granary) :
    exec (.registerWrite off 4 v) s = .next { s with dev := d } := by
  refine act_live hp ?_ hg
  rw [registerWrite_start v hopen hwin (bufferAt_tile (by omega)) (by omega), writeReg_tile _ _ ht hr hoff, heq]

/-- MILL_WATCHDOG (Table 5.9). -/
theorem writeTileReg_millLimit {t : Nat} (d : Dev) (w : RegWrite) (ht : tileType t = .mTile) :
    writeTileReg d t 0x2008 w = modMill d t fun m => { m with limit := newLimit m.limit w.value } := by
  simp [writeTileReg, ht]

/-- LOOM_WATCHDOG of a Loom that the tile has (Table 6.23). -/
theorem writeTileReg_loomLimit {t e : Nat} (d : Dev) (w : RegWrite) (he : e < 2) (hex : loomExists t e = true) :
    writeTileReg d t (0x3008 + 0x100 * e) w = modLoom d t e fun l => { l with limit := newLimit l.limit w.value } := by
  obtain rfl | rfl : e = 0 ∨ e = 1 := by omega
  · simp [writeTileReg, hex]
  · simp [writeTileReg, hex]

/-- QUERN_WATCHDOG (Table 7.10). -/
theorem writeTileReg_quernLimit {t : Nat} (d : Dev) (w : RegWrite) (ht : tileType t = .qTile) :
    writeTileReg d t 0x4008 w = modQuern d t fun q => { q with limit := newLimit q.limit w.value } := by
  simp [writeTileReg, ht]

/-- BADGER_WATCHDOG (Table 8.13). -/
theorem writeTileReg_badgerLimit {t : Nat} (d : Dev) (w : RegWrite) (ht : tileType t = .bTile) :
    writeTileReg d t 0x5008 w = modBadger d t fun b => { b with limit := newLimit b.limit w.value } := by
  simp [writeTileReg, ht]

/-! ## LL_BAR2_SLIDE (R427) -/

/-- SLIDE as the write's number reads it is the field of the value written (Table 17.11). -/
theorem bits_slide (v : W64) : bits v.toNat 36 30 = (v.extractLsb' 30 7).toNat := by
  simp [bits, BitVec.extractLsb'_toNat, Nat.shiftRight_eq_div_pow]

/-- A multiple of the BAR2 size is taken. -/
theorem slideWrite_of_multiple {d : Dev} {v : W64} (hopen : barOpen d = true)
    (hmul : (v.extractLsb' 30 7).toNat % 2 ^ d.host.bar2 = 0) :
    slideWrite v d = { d with host.slide := (v.extractLsb' 30 7).toNat } := by
  simp only [slideWrite, hopen, if_true, writeSlide, bits_slide, hmul]

/-- Any other value is discarded and recorded. -/
theorem slideWrite_of_other {d : Dev} {v : W64} (hopen : barOpen d = true)
    (hother : (v.extractLsb' 30 7).toNat % 2 ^ d.host.bar2 ≠ 0) : slideWrite v d = badAccess d := by
  simp only [slideWrite, hopen, if_true, writeSlide, bits_slide, hother, if_false]

/-- LL_BAR2_SLIDE_WRITE of a value that is no multiple of the BAR2 size. -/
theorem exec_slideWrite_refused {s : State} {v : W64} (hp : powered s) (hopen : barOpen s.dev = true)
    (hrun : s.dev.hub.hardHalted = false) (hother : (v.extractLsb' 30 7).toNat % 2 ^ s.dev.host.bar2 ≠ 0) :
    acts (.llBar2SlideWrite v) s fun d =>
      recorded s.dev d 0x800 .hostLink 0 ∧ d.host.slide = s.dev.host.slide ∧ d.mem = s.dev.mem := by
  refine ⟨_, act_live hp (slideWrite_of_other hopen hother) (logEvent_granary ..), ?_⟩
  obtain ⟨hrec, c, e, t, i, p, m, heq⟩ := badAccess_frame hrun
  exact ⟨hrec, by rw [heq], by rw [heq]⟩

/-! ## The power state in configuration space (R423) -/

/-- A one-byte write at the power state brings no byte to another register. -/
theorem cfgByte_elsewhere {k : Nat} (v : W32) (h : k ≠ 0x44) : cfgByte 0x44 1 v k = none := by
  simp only [cfgByte, Bool.and_eq_true, decide_eq_true_eq]
  exact if_neg (by omega)

/-- And so it clears no bit of an AER register. -/
theorem and_not_cfgOnes_elsewhere {base : Nat} (x v : W32) (h : 0x44 < base) : x &&& ~~~(cfgOnes 0x44 1 v base) = x := by
  have hnone (k : Nat) : cfgByte 0x44 1 v (base + k) = none := cfgByte_elsewhere v (by omega)
  have hzero : cfgOnes 0x44 1 v base = 0#32 := by simp [cfgOnes, hnone]
  rw [hzero, BitVec.not_zero, BitVec.and_allOnes]

/-- The value 3 of the power state enters D3hot, and changes nothing else. -/
theorem configWrite_d3hot {d : Dev} {v : W32} (hopen : configOpen d = true) (hv : v.toNat % 4 = 3) :
    configWrite 0x44 1 v d = { d with host.d3hot := true } := by
  have hbyte : cfgByte 0x44 1 v 0x44 = some (v.toNat % 256) := by simp [cfgByte]
  have hpower : v.toNat % 256 % 4 = 3 := by omega
  simp [configWrite, hopen, hbyte, cfgByte_elsewhere, and_not_cfgOnes_elsewhere, cfgPower, cfgMsix, cfgBar2, hpower]

/-! ## The statement on accesses -/

/-- Settles O28: each access takes place at once, since none of them touches the Granary, and its effect is one equation of
`bar0Read`, `registerWrite`, `slideWrite` or `configWrite`. -/
theorem bar0Accesses : Obligations.Bar0Accesses := by
  unfold Obligations.Bar0Accesses
  refine ⟨fun s off width hp hopen hd0 => ⟨fun hok => ?read, fun hbad hrun => ⟨?badRead, fun v => ?badWrite⟩⟩,
    fun s v hp hbar => ?irq, fun s t v hp hbar ht => ?limits, fun s v hp hbar hmul => ?slide,
    fun s v hp hbar hrun hother => exec_slideWrite_refused hp hbar hrun hother, fun s v hp hopen hv => ?power⟩
  case read => exact act_live hp (bar0Read_of_allowed hopen hd0 hok) rfl
  case badRead => exact exec_bar0Read_refused hp hopen hd0 hbad hrun
  case badWrite => exact exec_registerWrite_refused hp (by simp [barOpen, hopen, hd0]) hbad hrun v
  case irq =>
    exact ⟨_, act_live hp (registerWrite_start v hbar rfl rfl rfl) rfl, writeIrq_low s.dev v⟩
  case limits =>
    refine ⟨fun hwin hm => ?mill, fun e he hwin hex => ?loom, fun hwin hq => ?quern, fun hwin hb => ?badger⟩
    case mill =>
      refine ⟨_, exec_registerWrite_tile hp hbar ht (by omega) (by omega) rfl hwin (writeTileReg_millLimit _ _ hm) rfl, ?_, rfl⟩
      rw [getMill_modMill, newLimit_low]
    case loom =>
      refine ⟨_, exec_registerWrite_tile hp hbar ht (by omega) (by omega) (Nat.add_assoc ..) hwin
        (writeTileReg_loomLimit _ _ he hex) rfl, ?_, rfl⟩
      rw [getLoom_modLoom, newLimit_low]
    case quern =>
      refine ⟨_, exec_registerWrite_tile hp hbar ht (by omega) (by omega) rfl hwin (writeTileReg_quernLimit _ _ hq) rfl, ?_, rfl⟩
      rw [quern_modQuern, newLimit_low]
    case badger =>
      refine ⟨_, exec_registerWrite_tile hp hbar ht (by omega) (by omega) rfl hwin (writeTileReg_badgerLimit _ _ hb) rfl, ?_, rfl⟩
      rw [getBadger_modBadger, newLimit_low]
  case slide => exact act_live hp (slideWrite_of_multiple hbar hmul) rfl
  case power =>
    have hd3 : configOpen { s.dev with host.d3hot := true } = true := hopen
    refine ⟨act_live hp (configWrite_d3hot hopen hv) rfl, fun off width => ?_⟩
    exact act_live (s := { s with dev := { s.dev with host.d3hot := true } }) hp (bar0Read_of_d3hot off width hd3 rfl) rfl

end Sys2Proof.HostProofs
end

section
/-! SUPPORT. Operations at the engines and what they wait for: reads of a ring's operations after a change, the parts of the
device that a failure's note, the end of an operation and the send of an entry may change, and from them the statement on the
Loom's watchdog and on the stalls and sends of chutes (R32, R37, R174, R178, R179). -/

namespace Sys2Proof.OrgProofs

open Sys2Proof Sys2Proof.Machine Sys2Proof.Safety Sys2Proof.HostProofs

/-! ## How a command of an engine acts -/

/-- An effect of the engines that meets no untaken page takes place at once on a device at work (R72, R358, R359). -/
theorem act_running {f : Dev → Dev} {s : State} {d : Dev} (hw : atWork s) (heq : f s.dev = d)
    (hstalls : d.granary.stalls = []) : act s (running f) = .next { s with dev := d } := by
  obtain ⟨hon, hhalt, -⟩ := hw
  simp [act, running, settle, hon, hhalt, heq, hstalls]

/-- An effect of the engines that does not come about leaves the state as it is. -/
theorem act_running_same {f : Dev → Dev} {s : State} (hw : atWork s) (heq : f s.dev = s.dev) : act s (running f) = .next s :=
  have ⟨_, _, hstalls⟩ := hw
  act_running hw heq hstalls

/-! ## Operations of a ring -/

/-- What `tmod` leaves under its key is the entry with the change, where there is one. -/
theorem tget_tmod_same {α : Type} (t : Table α) (k : Nat) (f : α → α) : tget (tmod t k f) k = (tget t k).map f := by
  unfold tmod
  split
  next h => rw [h]; rfl
  next v h => rw [tget_tput_same, h]; rfl

/-- Every other key finds what it found before. -/
theorem tget_tmod_other {α : Type} (t : Table α) {k j : Nat} (f : α → α) (h : j ≠ k) : tget (tmod t k f) j = tget t j := by
  unfold tmod
  split
  · rfl
  · exact tget_tput_other _ _ _ _ h

/-- The operation of a name, read from its ring. -/
theorem getOp_eq (d : Dev) (n : OpName) : getOp d n = (getRing d n.ring).bind fun r => r.ops.find? fun o => o.seq == n.seq := by
  unfold getOp getRing
  split <;> simp [*]

/-- Operations are read from the rings alone. -/
theorem getOp_congr {d d' : Dev} (h : d'.hub.rings = d.hub.rings) (n : OpName) : getOp d' n = getOp d n := by
  unfold getOp
  rw [h]

/-- What a change of an operation, which keeps the sequence number, leaves of it. -/
theorem getOp_modOp {d : Dev} {n : OpName} {o : Op} {f : Op → Op} (h : getOp d n = some o) (hseq : ∀ o, (f o).seq = o.seq) :
    getOp (modOp d n f) n = some (f o) := by
  have hkey : ((fun o : Op => o.seq == n.seq) ∘ fun o => if o.seq == n.seq then f o else o) = fun o => o.seq == n.seq := by
    funext o
    simp only [Function.comp_apply]
    split <;> simp [*]
  obtain ⟨r, hring, hfind⟩ := Option.bind_eq_some_iff.mp ((getOp_eq d n).symm.trans h)
  have hname : o.seq = n.seq := beq_iff_eq.mp (List.find?_some (p := fun o : Op => o.seq == n.seq) hfind)
  have hmod : getRing (modOp d n f) n.ring = some { r with ops := r.ops.map fun o => if o.seq == n.seq then f o else o } := by
    rw [getRing, modOp, modRing, tget_tmod_same, show tget d.hub.rings n.ring = some r from hring, Option.map_some]
  rw [getOp_eq, hmod, Option.bind_some, List.find?_map, hkey, hfind]
  simp [hname]

/-- An issued operation stands in its ring. -/
theorem issuedOp_eq_some {d : Dev} {n : OpName} {o : Op} (h : issuedOp d n = some o) :
    getOp d n = some o ∧ o.phase = .issued := by
  unfold issuedOp at h
  split at h
  next o' hget =>
    split at h
    next hissued =>
      cases h
      simp only [Bool.and_eq_true, beq_iff_eq] at hissued
      exact ⟨hget, hissued.1⟩
    next => cases h
  next => cases h

/-- The operation that a Loom runs is issued. -/
theorem issuedOp_of_loomRunning {d : Dev} {tile eng : Nat} {n : OpName} {o : Op} (h : loomRunning d tile eng = some (n, o)) :
    issuedOp d n = some o := by
  unfold loomRunning at h
  split at h
  next => cases h
  next m _ =>
    obtain ⟨o', hissued, hpair⟩ := Option.map_eq_some_iff.mp h
    cases hpair
    exact hissued

/-- A change of an operation leaves the die of every ring as it was. -/
theorem ringDie_modOp (d : Dev) (n : OpName) (f : Op → Op) (m : Nat) : ringDie (modOp d n f) m = ringDie d m := by
  unfold ringDie modOp modRing
  obtain rfl | hm := eq_or_ne m n.ring
  · simp only [tget_tmod_same]
    cases tget d.hub.rings n.ring <;> rfl
  · simp only [tget_tmod_other _ _ hm]

/-- And so the die that records an event. -/
theorem sourceDie_modOp (d : Dev) (n : OpName) (f : Op → Op) (src : Source) : sourceDie (modOp d n f) src = sourceDie d src := by
  cases src with
  | ring m => exact ringDie_modOp d n f m
  | engine => rfl
  | unit => rfl
  | core => rfl

/-! ## Reports -/

/-- With no hard halt in force, a report is recorded (R431 to R434). -/
theorem recorded_logEvent {d : Dev} (h : d.hub.hardHalted = false) (ev : Nat) (src : Source) (detail : Nat) :
    recorded d (logEvent d ev src detail) ev src detail := by
  obtain ⟨c, i, p, m, e⟩ := logEvent_host_frame h ev src detail none
  rw [e]
  exact ⟨rfl, by simp [tgetD]⟩

/-- A report that goes with a change of an operation is recorded as it would be without that change. -/
theorem recorded_logEvent_modOp {d : Dev} (h : d.hub.hardHalted = false) (n : OpName) (f : Op → Op) (ev : Nat) (src : Source)
    (detail : Nat) : recorded d (logEvent (modOp d n f) ev src detail) ev src detail := by
  have hrec := recorded_logEvent (d := modOp d n f) h ev src detail
  unfold recorded at hrec
  rw [sourceDie_modOp] at hrec
  exact hrec

/-- A wait since `t` is overdue once the device time is past its limit. -/
theorem overdue_some (d : Dev) (t ms : Nat) : overdue d (some t) ms = decide (t + ms * 1000000 < deviceTime d) := rfl

/-! ## The end of an operation -/

/-- A change of a step's numerical state changes the open steps. -/
theorem modStep_frame (d : Dev) (k : Nat) (f : StepState → StepState) : ∃ x, modStep d k f = { d with steps := x } := by
  unfold modStep
  split
  · exact ⟨_, rfl⟩
  · exact ⟨_, rfl⟩

/-- A clear of a step's flag changes the open steps and what a report changes. -/
theorem clearFlag_frame (d : Dev) (k : Nat) (cause : Byte) (op : Option OpName) :
    ∃ x c w y t h m, clearFlag d k cause op =
      { d with steps := x, counters := c, owl := w, hub.dropped := y, tally := t, host := h, out := m } := by
  have report (f : StepState → StepState) (ev : Nat) (src : Source) : ∃ x c w y t h m, logEvent (modStep d k f) ev src 0 =
      { d with steps := x, counters := c, owl := w, hub.dropped := y, tally := t, host := h, out := m } := by
    obtain ⟨x, hx⟩ := modStep_frame d k f
    obtain ⟨_, _, _, _, _, _, e⟩ := logEvent_frame (modStep d k f) ev src 0 none
    rw [e, hx]
    exact ⟨_, _, _, _, _, _, _, rfl⟩
  unfold clearFlag
  dsimp only
  split
  next =>
    obtain ⟨_, _, _, _, _, _, e⟩ := logEvent_frame d evStepClearLate (ringSource (op.map (·.ring))) 0 none
    rw [e]
    exact ⟨_, _, _, _, _, _, _, rfl⟩
  next =>
    split
    · exact report ..
    · split
      · obtain ⟨x, hx⟩ := modStep_frame d k fun st => { st with clearAt := some (cycle d) }
        rw [hx]
        exact ⟨_, _, _, _, _, _, _, rfl⟩
      · exact report ..

/-- So does what the end of an operation does to its step's flag. -/
theorem endClears_frame (d : Dev) (n : OpName) (o : Op) (st : Byte) :
    ∃ x c w y t h m, endClears d n o st =
      { d with steps := x, counters := c, owl := w, hub.dropped := y, tally := t, host := h, out := m } := by
  unfold endClears
  split
  · exact ⟨_, _, _, _, _, _, _, rfl⟩
  · split
    · exact clearFlag_frame ..
    · split
      · exact ⟨_, _, _, _, _, _, _, rfl⟩
      · exact clearFlag_frame ..

/-- The note of a failure changes the rings and what a clear of a step's flag changes. -/
theorem noteFailure_frame (d : Dev) (n : OpName) (st : Byte) :
    ∃ r x c w y t h m, noteFailure d n st =
      { d with hub.rings := r, steps := x, counters := c, owl := w, hub.dropped := y, tally := t, host := h, out := m } := by
  unfold noteFailure
  split
  next o r _ _ =>
    split
    · obtain ⟨_, _, _, _, _, _, _, e⟩ := endClears_frame (modOp d n fun o => { o with noted := true }) n o st
      rw [e]
      exact ⟨_, _, _, _, _, _, _, _, rfl⟩
    · exact ⟨_, _, _, _, _, _, _, _, rfl⟩
  next => exact ⟨_, _, _, _, _, _, _, _, rfl⟩

/-- How the operation stands is not changed by the note of its failure. -/
theorem standing_noteFailure (d : Dev) (n : OpName) (st : Byte) : standing (noteFailure d n st) n = standing d n := by
  unfold noteFailure
  split
  next o r hop _ =>
    split
    · have hrings : (endClears (modOp d n fun o => { o with noted := true }) n o st).hub.rings =
          (modOp d n fun o => { o with noted := true }).hub.rings := by
        obtain ⟨_, _, _, _, _, _, _, e⟩ := endClears_frame (modOp d n fun o => { o with noted := true }) n o st
        rw [e]
      rw [standing, standing, getOp_congr hrings, hop, getOp_modOp hop]
      · rfl
      · exact fun _ => rfl
    · rfl
  next => rfl

/-- The end of an operation changes the rings and, for a failure, what a clear of a step's flag changes. -/
theorem completeOp_frame (d : Dev) (n : OpName) (st : Byte) (detail : Nat) :
    ∃ r x c w y t h m, completeOp d n st detail =
      { d with hub.rings := r, steps := x, counters := c, owl := w, hub.dropped := y, tally := t, host := h, out := m } := by
  unfold completeOp
  dsimp only
  split
  · exact ⟨_, _, _, _, _, _, _, _, rfl⟩
  · generalize hd : modOp d n _ = d1
    obtain ⟨_, _, _, _, _, _, _, _, e⟩ := noteFailure_frame d1 n st
    rw [e]
    subst hd
    exact ⟨_, _, _, _, _, _, _, _, rfl⟩

/-- The end of an operation leaves the Granary alone. -/
@[simp] theorem completeOp_granary (d : Dev) (n : OpName) (st : Byte) (detail : Nat) :
    (completeOp d n st detail).granary = d.granary := by
  obtain ⟨_, _, _, _, _, _, _, _, e⟩ := completeOp_frame d n st detail
  rw [e]

/-- The end of an operation leaves the Looms alone. -/
@[simp] theorem completeOp_looms (d : Dev) (n : OpName) (st : Byte) (detail : Nat) :
    (completeOp d n st detail).looms = d.looms := by
  obtain ⟨_, _, _, _, _, _, _, _, e⟩ := completeOp_frame d n st detail
  rw [e]

/-- The end of an operation leaves the chutes alone. -/
@[simp] theorem completeOp_chutes (d : Dev) (n : OpName) (st : Byte) (detail : Nat) :
    (completeOp d n st detail).chutes = d.chutes := by
  obtain ⟨_, _, _, _, _, _, _, _, e⟩ := completeOp_frame d n st detail
  rw [e]

/-- An operation that completes stands as ended with the status and DETAIL given. -/
theorem ended_completeOp {d : Dev} {n : OpName} {o : Op} (h : getOp d n = some o) (st : Byte) (detail : Nat) :
    ended (completeOp d n st detail) n st detail := by
  unfold completeOp
  dsimp only
  split
  · rw [ended, standing, getOp_modOp h]
    · rfl
    · exact fun _ => rfl
  · rw [ended, standing_noteFailure, standing, getOp_modOp h]
    · rfl
    · exact fun _ => rfl

/-- An operation that completes in the success class has nothing left to send. -/
theorem getOp_completeOp_stOk {d : Dev} {n : OpName} {o : Op} (h : getOp d n = some o) (detail : Nat) :
    (getOp (completeOp d n stOk detail) n).map (fun x => (x.phase, x.status, x.sends)) = some (.complete, 0x00, []) := by
  have hok : completeOp d n stOk detail = modOp d n fun o => { o with
      phase := .complete, status := stOk, detail := BitVec.ofNat 64 detail, completeAt := cycle d, sends := []
      stallFrom := none } := rfl
  rw [hok, getOp_modOp h]
  · rfl
  · exact fun _ => rfl

/-! ## The Loom's watchdog and its waits for entries -/

/-- A change of one Loom leaves the others as they were. -/
theorem otherLooms_modLoom (d : Dev) (tile eng : Nat) (f : Loom → Loom) : otherLooms d (modLoom d tile eng f) tile eng :=
  fun _ hk => tget_tput_other _ _ _ _ hk

/-- A Loom is read from the table of Looms alone. -/
theorem getLoom_congr {d d' : Dev} (h : d'.looms = d.looms) (tile eng : Nat) : getLoom d' tile eng = getLoom d tile eng := by
  unfold getLoom
  rw [h]

/-- The end of a running operation: it has ended, its Loom runs nothing, and no other Loom has changed (R178). -/
theorem endLoom_ended {d : Dev} {n : OpName} {o : Op} (tile eng : Nat) (h : getOp d n = some o) (st : Byte) (detail : Nat) :
    ended (endLoom d { tile := tile, eng := eng, op := n } st detail) n st detail ∧
      (getLoom (endLoom d { tile := tile, eng := eng, op := n } st detail) tile eng).run = none ∧
      otherLooms d (endLoom d { tile := tile, eng := eng, op := n } st detail) tile eng := by
  refine ⟨ended_completeOp (d := modLoom d tile eng _) h st detail, ?_, ?_⟩
  · rw [endLoom, getLoom_congr (completeOp_looms ..), getLoom_modLoom]
  · rw [otherLooms, endLoom, completeOp_looms]
    exact otherLooms_modLoom d tile eng _

/-- Outside a wait, a Loom's watchdog whose limit is reached ends the running operation (R178, R179). -/
theorem loomWatchdogExpiry_of_reached {d : Dev} {tile eng : Nat} {n : OpName} {o : Op} (hex : loomExists tile eng = true)
    (hrun : loomRunning d tile eng = some (n, o)) (hwait : (getLoom d tile eng).waitFrom = none)
    (hlimit : (getLoom d tile eng).startAt + (getLoom d tile eng).waited + (getLoom d tile eng).limit.toNat * 65536 ≤
      engineCycles d (.loom tile eng)) :
    loomWatchdogExpiry tile eng d =
      endLoom d { tile := tile, eng := eng, op := n } stEngineTimeout ((getLoom d tile eng).pc % 65536) := by
  simp [loomWatchdogExpiry, hex, hrun, hwait, hlimit]

/-- A wait of CHTAKE is logged where it has passed the limit of its operation's ring (R174). -/
theorem loomTakeStall_of_waiting {d : Dev} {tile eng t : Nat} {n : OpName} {o : Op} {r : Ring} (hex : loomExists tile eng = true)
    (hrun : loomRunning d tile eng = some (n, o)) (hring : getRing d n.ring = some r)
    (hfrom : (getLoom d tile eng).waitFrom = some t) (hout : (getLoom d tile eng).waitOut = none)
    (hlogged : (getLoom d tile eng).waitLogged = false) :
    loomTakeStall tile eng d =
      if t + r.waitLimit * 1000000 < deviceTime d then
        logEvent (modLoom d tile eng fun l => { l with waitLogged := true }) evLoomTakeStall (.ring n.ring) 0
      else d := by
  simp [loomTakeStall, hex, hrun, hring, hfrom, hout, hlogged, overdue_some]

/-- LOOM_WATCHDOG_EXPIRY at the limit. -/
theorem exec_loomWatchdogExpiry_reached {s : State} {tile eng : Nat} {n : OpName} {o : Op} (hw : atWork s)
    (hex : loomExists tile eng = true) (hrun : loomRunning s.dev tile eng = some (n, o))
    (hwait : (getLoom s.dev tile eng).waitFrom = none)
    (hlimit : (getLoom s.dev tile eng).startAt + (getLoom s.dev tile eng).waited + (getLoom s.dev tile eng).limit.toNat * 65536 ≤
      engineCycles s.dev (.loom tile eng)) :
    acts (.loomWatchdogExpiry tile eng) s fun d =>
      ended d n 0x58 ((getLoom s.dev tile eng).pc % 65536) ∧ (getLoom d tile eng).run = none ∧ otherLooms s.dev d tile eng := by
  have ⟨_, _, hstalls⟩ := hw
  obtain ⟨hget, -⟩ := issuedOp_eq_some (issuedOp_of_loomRunning hrun)
  refine ⟨_, act_running hw (loomWatchdogExpiry_of_reached hex hrun hwait hlimit) ?_, endLoom_ended tile eng hget _ _⟩
  rw [endLoom, completeOp_granary]
  exact hstalls

/-- LOOM_TAKE_STALL of a wait that has passed the limit. -/
theorem exec_loomTakeStall_overdue {s : State} {tile eng : Nat} {n : OpName} (hw : atWork s)
    (heq : loomTakeStall tile eng s.dev =
      logEvent (modLoom s.dev tile eng fun l => { l with waitLogged := true }) evLoomTakeStall (.ring n.ring) 0) :
    acts (.loomTakeStall tile eng) s fun d => recorded s.dev d 0x811 (.ring n.ring) 0 ∧
      getLoom d tile eng = { getLoom s.dev tile eng with waitLogged := true } ∧ otherLooms s.dev d tile eng := by
  have ⟨_, hhalt, hstalls⟩ := hw
  refine ⟨_, act_running hw heq (by rw [logEvent_granary]; exact hstalls),
    recorded_logEvent (d := modLoom s.dev tile eng _) hhalt .., ?_, ?_⟩
  · rw [getLoom_congr (logEvent_looms ..), getLoom_modLoom]
  · rw [otherLooms, logEvent_looms]
    exact otherLooms_modLoom s.dev tile eng _

/-! ## Waits for credits -/

/-- A wait for a credit is logged where it has passed the limit of its chute (R37). -/
theorem chuteStallOp_of_waiting {d : Dev} {n : OpName} {o : Op} {u : Target} {c : Chute} {e : Send} {es : List Send} {t : Nat}
    (hop : issuedOp d n = some o) (hring : ringTarget d n.ring = some u) (hsends : o.sends = e :: es)
    (hchute : getChute d e.consumer e.queue = some c) (hcredit : c.credits = 0) (hfrom : o.sendFrom = some t)
    (hlogged : o.sendLogged = false) :
    chuteStallOp n d =
      if t + c.stallMs * 1000000 < deviceTime d then
        logEvent (modOp d n fun o => { o with sendLogged := true }) evChuteStall (.ring n.ring) 0
      else d := by
  simp [chuteStallOp, hop, hring, hsends, hchute, hcredit, hfrom, hlogged, overdue_some]

/-- CHUTE_STALL of a wait that has passed the limit. -/
theorem exec_chuteStall_overdue {s : State} {n : OpName} {o : Op} (hw : atWork s) (hop : issuedOp s.dev n = some o)
    (heq : chuteStallOp n s.dev = logEvent (modOp s.dev n fun o => { o with sendLogged := true }) evChuteStall (.ring n.ring) 0) :
    acts (.chuteStall n.ring n.seq) s fun d => recorded s.dev d 0x810 (.ring n.ring) 0 ∧
      getOp d n = some { o with sendLogged := true } ∧ d.chutes = s.dev.chutes := by
  have ⟨_, hhalt, hstalls⟩ := hw
  refine ⟨_, act_running hw heq (by rw [logEvent_granary]; exact hstalls), recorded_logEvent_modOp hhalt .., ?_, ?_⟩
  · rw [getOp_congr (logEvent_rings ..)]
    exact getOp_modOp (issuedOp_eq_some hop).1 fun _ => rfl
  · rw [logEvent_chutes]
    rfl

/-! ## Sends of entries -/

/-- With no snapshot being copied, the Granary's note of a write changes the pages it counts as written (R357). -/
theorem noteWrite_frame_of_idle {d : Dev} (h : d.granary.st ≠ .copying) (a n : Nat) :
    ∃ w, noteWrite d a n = { d with granary.written := w } := by
  have huntaken : untakenPages d a n = [] := by simp [untakenPages, h]
  unfold noteWrite
  split
  · exact ⟨_, rfl⟩
  · rw [huntaken, List.append_nil]
    exact ⟨_, rfl⟩

/-- Bytes that are stored change the memories. -/
theorem rawWrite_frame (d : Dev) (a : Nat) (data : Bytes) : ∃ m, rawWrite d a data = { d with mem := m } := by
  unfold rawWrite
  split
  · exact ⟨_, rfl⟩
  · exact ⟨_, rfl⟩
  · exact ⟨_, rfl⟩

/-- With no snapshot being copied, a unit's store changes the memories and the pages counted as written. -/
theorem storeBytes_frame_of_idle {d : Dev} (h : d.granary.st ≠ .copying) (a : Nat) (data : Bytes) :
    ∃ m w, storeBytes d a data = { d with mem := m, granary.written := w } := by
  obtain ⟨w, hw⟩ := noteWrite_frame_of_idle h a data.length
  obtain ⟨m, hm⟩ := rawWrite_frame (noteWrite d a data.length) a data
  refine ⟨m, w, ?_⟩
  rw [storeBytes, hm, hw]

/-- What a failed word leaves behind changes the memories. -/
theorem keepFailed_frame (transit : Transit) (a n : Nat) (d : Dev) : ∃ m, keepFailed transit a n d = { d with mem := m } := by
  unfold keepFailed
  split
  · exact ⟨_, rfl⟩
  · exact ⟨_, rfl⟩

/-- The entry that a send puts into its queue: in the lowest free slot, with what the consumer's check found (R31, R36). -/
def sentEntry (op : OpName) (s : Send) (transit : Transit) (c : Chute) : Entry :=
  { slot := c.freeSlot, header := if transit = .uncorrectable then withTransit s.header else s.header
    bytes := s.payload.length, st := .sent op }

/-- The device after a send, before the bytes are stored: the entry is in its queue, and its operation knows its place. -/
def queueEntry (d : Dev) (op : OpName) (s : Send) (transit : Transit) (c : Chute) : Dev :=
  modOp (modChute d s.consumer s.queue fun c' => { c' with entries := c'.entries ++ [sentEntry op s transit c] }) op fun o =>
    { o with lastSent := some (16 * s.consumer + s.queue, c.freeSlot) }

/-- And with the words that arrived corrected recorded (R28). -/
def checkEntry (d : Dev) (op : OpName) (s : Send) (transit : Transit) (c : Chute) : Dev :=
  if transit = .corrected then meshCorrected (queueEntry d op s transit c) (.engine s.consumer 0) 2 op.ring
  else queueEntry d op s transit c

/-- A send queues its entry, stores payload and header, and keeps what failed its check (R31, R36). -/
theorem sendEntry_eq {d : Dev} {s : Send} {c : Chute} (hchute : getChute d s.consumer s.queue = some c) (op : OpName)
    (transit : Transit) :
    sendEntry d op s transit = keepFailed transit (sramBase s.consumer + c.slotOffset c.freeSlot) s.payload.length
      (storeBytes (storeBytes (checkEntry d op s transit c) (sramBase s.consumer + c.slotOffset c.freeSlot) s.payload)
        (sramBase s.consumer + c.headerOffset c.freeSlot) (sentEntry op s transit c).header) := by
  unfold sendEntry
  rw [hchute]
  rfl

/-- The report of corrected words leaves the entry queued, and changes what a report changes. -/
theorem checkEntry_frame (d : Dev) (op : OpName) (s : Send) (transit : Transit) (c : Chute) :
    ∃ x y z t h p, checkEntry d op s transit c = { queueEntry d op s transit c with
      counters := x, owl := y, hub.dropped := z, tally := t, host := h, out := p } := by
  unfold checkEntry
  split
  · exact logEvent_frame ..
  · exact ⟨_, _, _, _, _, _, rfl⟩

/-- With no snapshot being copied, a send queues its entry and besides changes the memories, the pages counted as written and
what the report of corrected words changes (R28, R31). -/
theorem sendEntry_frame {d : Dev} {s : Send} {c : Chute} (hchute : getChute d s.consumer s.queue = some c)
    (hidle : d.granary.st ≠ .copying) (op : OpName) (transit : Transit) :
    ∃ m w x y z t h p, sendEntry d op s transit = { queueEntry d op s transit c with
      mem := m, granary.written := w, counters := x, owl := y, hub.dropped := z, tally := t, host := h, out := p } := by
  obtain ⟨x, y, z, t, h, p, hcheck⟩ := checkEntry_frame d op s transit c
  generalize hd : checkEntry d op s transit c = d1 at hcheck
  have hidle1 : d1.granary.st ≠ .copying := by rw [hcheck]; exact hidle
  obtain ⟨m, w, hpayload⟩ := storeBytes_frame_of_idle hidle1 (sramBase s.consumer + c.slotOffset c.freeSlot) s.payload
  obtain ⟨m', w', hheader⟩ := storeBytes_frame_of_idle (d := { d1 with mem := m, granary.written := w }) hidle1
    (sramBase s.consumer + c.headerOffset c.freeSlot) (sentEntry op s transit c).header
  obtain ⟨m'', hfailed⟩ := keepFailed_frame transit (sramBase s.consumer + c.slotOffset c.freeSlot) s.payload.length
    { d1 with mem := m', granary.written := w' }
  refine ⟨m'', w', x, y, z, t, h, p, ?_⟩
  rw [sendEntry_eq hchute, hd, hpayload, hheader, hfailed, hcheck]

/-- After a send the queue holds one entry more, behind those it held (R32, R33). -/
theorem getChute_sendEntry {d : Dev} {op : OpName} {s : Send} {c : Chute} (hchute : getChute d s.consumer s.queue = some c)
    (hidle : d.granary.st ≠ .copying) (transit : Transit) :
    getChute (sendEntry d op s transit) s.consumer s.queue =
      some { c with entries := c.entries ++ [sentEntry op s transit c] } := by
  obtain ⟨_, _, _, _, _, _, _, _, e⟩ := sendEntry_frame hchute hidle op transit
  rw [e]
  show tget (tmod d.chutes (16 * s.consumer + s.queue) _) _ = _
  rw [tget_tmod_same, show tget d.chutes (16 * s.consumer + s.queue) = some c from hchute]
  rfl

/-- The operation that sent an entry keeps its phase and what it has to send. -/
theorem getOp_sendEntry {d : Dev} {op : OpName} {s : Send} {c : Chute} {o : Op} (hop : getOp d op = some o)
    (hchute : getChute d s.consumer s.queue = some c) (hidle : d.granary.st ≠ .copying) (transit : Transit) :
    getOp (sendEntry d op s transit) op = some { o with lastSent := some (16 * s.consumer + s.queue, c.freeSlot) } := by
  obtain ⟨_, _, _, _, _, _, _, _, e⟩ := sendEntry_frame hchute hidle op transit
  rw [e]
  exact getOp_modOp (d := modChute d s.consumer s.queue _) hop fun _ => rfl

/-- No write of a send waits at an untaken page where no snapshot is being copied (R359). -/
theorem sendEntry_stalls {d : Dev} {op : OpName} {s : Send} {c : Chute} (hchute : getChute d s.consumer s.queue = some c)
    (hidle : d.granary.st ≠ .copying) (transit : Transit) :
    (sendEntry d op s transit).granary.stalls = d.granary.stalls := by
  obtain ⟨_, _, _, _, _, _, _, _, e⟩ := sendEntry_frame hchute hidle op transit
  rw [e]
  rfl

/-- Going on to the next entry leaves the chutes and the Granary alone. -/
theorem sentOne_frame (d : Dev) (n : OpName) : (sentOne d n).chutes = d.chutes ∧ (sentOne d n).granary = d.granary := by
  unfold sentOne
  split
  · exact ⟨rfl, rfl⟩
  · split
    · exact ⟨completeOp_chutes .., completeOp_granary ..⟩
    · exact ⟨rfl, rfl⟩

/-- After its last entry an operation is complete with ST_OK. -/
theorem getOp_sentOne_last {d : Dev} {n : OpName} {o : Op} {e : Send} (hop : getOp d n = some o) (hsends : o.sends = [e]) :
    (getOp (sentOne d n) n).map (fun x => (x.phase, x.status, x.sends)) = some (.complete, 0x00, []) := by
  have heq : sentOne d n = completeOp d n stOk o.detail.toNat := by simp [sentOne, hop, hsends]
  rw [heq, getOp_completeOp_stOk hop]

/-- After another it goes on to the next one. -/
theorem getOp_sentOne_more {d : Dev} {n : OpName} {o : Op} {e : Send} {es : List Send} (hop : getOp d n = some o)
    (hsends : o.sends = e :: es) (hmore : es ≠ []) :
    (getOp (sentOne d n) n).map (fun x => (x.phase, x.sends)) = some (o.phase, es) := by
  have hlen : ¬ o.sends.length ≤ 1 := by
    have := List.length_pos_of_ne_nil hmore
    simp only [hsends, List.length_cons]
    omega
  have heq : sentOne d n = modOp d n fun o =>
      { o with sends := o.sends.tail, sendFrom := some (deviceTime d), sendLogged := false } := by
    simp only [sentOne, hop, if_neg hlen]
  rw [heq, getOp_modOp hop]
  · simp [hsends]
  · exact fun _ => rfl

/-- An entry more in a queue is a credit less of its producer (R32). -/
theorem credits_append (c : Chute) (e : Entry) (h : c.credits ≠ 0) :
    Chute.credits { c with entries := c.entries ++ [e] } + 1 = c.credits := by
  simp only [Chute.credits, List.length_append, List.length_singleton] at h ⊢
  omega

/-- The next entry of an operation goes out where its producer holds a credit and the consumer takes entries (R32, R278). -/
theorem chuteSendOp_eq {d : Dev} {n : OpName} {o : Op} {u : Target} {c : Chute} {e : Send} {es : List Send} (transit : Transit)
    (hop : issuedOp d n = some o) (hring : ringTarget d n.ring = some u) (hsends : o.sends = e :: es)
    (hchute : getChute d e.consumer e.queue = some c) (hheld : queueHeld d e.consumer = false) :
    chuteSendOp n transit d = if c.credits = 0 then d else sentOne (sendEntry d n e transit) n := by
  simp [chuteSendOp, hop, hring, hsends, hchute, hheld]

/-- CHUTE_SEND on a credit. -/
theorem exec_chuteSend_credit {s : State} {n : OpName} {o : Op} {c : Chute} {e : Send} {es : List Send} {transit : Transit}
    (hw : atWork s) (hop : issuedOp s.dev n = some o) (hsends : o.sends = e :: es)
    (hchute : getChute s.dev e.consumer e.queue = some c) (hidle : s.dev.granary.st ≠ .copying) (hcredit : c.credits ≠ 0)
    (heq : chuteSendOp n transit s.dev = sentOne (sendEntry s.dev n e transit) n) :
    acts (.chuteSend n.ring n.seq transit) s fun d =>
      (∃ c', getChute d e.consumer e.queue = some c' ∧ c'.credits + 1 = c.credits ∧
        c'.entries = c.entries ++ [sentEntry n e transit c]) ∧
      if es = [] then (getOp d n).map (fun x => (x.phase, x.status, x.sends)) = some (.complete, 0x00, [])
      else (getOp d n).map (fun x => (x.phase, x.sends)) = some (.issued, es) := by
  have ⟨_, _, hstalls⟩ := hw
  obtain ⟨hget, hissued⟩ := issuedOp_eq_some hop
  have hsent := getOp_sendEntry hget hchute hidle transit
  obtain ⟨hchutes, hgranary⟩ := sentOne_frame (sendEntry s.dev n e transit) n
  refine ⟨_, act_running hw heq ?_, ⟨_, ?_, credits_append c _ hcredit, rfl⟩, ?_⟩
  · rw [hgranary, sendEntry_stalls hchute hidle]
    exact hstalls
  · rw [getChute, hchutes]
    exact getChute_sendEntry hchute hidle transit
  · split
    next hlast => exact getOp_sentOne_last hsent (by rw [← hlast]; exact hsends)
    next hmore => rw [getOp_sentOne_more hsent hsends hmore, ← hissued]

/-! ## The statement -/

/-- Settles O21: each command is one equation of `loomWatchdogExpiry`, `loomTakeStall`, `chuteStallOp` or `chuteSendOp`, whose
result is read with the rules of the end of an operation, of a report and of a send. -/
theorem loomWaitsAndSends : Obligations.LoomWaitsAndSends := by
  unfold Obligations.LoomWaitsAndSends
  refine ⟨⟨fun s tile eng n o hw hex hrun hwait hlimit => exec_loomWatchdogExpiry_reached hw hex hrun hwait hlimit,
    fun s tile eng n o r t hw hex hrun hring hfrom hout hlogged => ?take,
    fun s n o u c e es t hw hop hring hsends hchute hcredit hfrom hlogged => ?stall⟩,
    fun s n o u c e es transit hw hop hring hsends hchute hheld hidle => ?send⟩
  case take =>
    have heq := loomTakeStall_of_waiting hex hrun hring hfrom hout hlogged
    split
    next hover => exact exec_loomTakeStall_overdue hw (heq.trans (if_pos hover))
    next hin => exact act_running_same hw (heq.trans (if_neg hin))
  case stall =>
    have heq := chuteStallOp_of_waiting hop hring hsends hchute hcredit hfrom hlogged
    split
    next hover => exact exec_chuteStall_overdue hw hop (heq.trans (if_pos hover))
    next hin => exact act_running_same hw (heq.trans (if_neg hin))
  case send =>
    have heq := chuteSendOp_eq transit hop hring hsends hchute hheld
    split
    next hnone => exact act_running_same hw (heq.trans (if_pos hnone))
    next hcredit => exact exec_chuteSend_credit hw hop hsends hchute hidle hcredit (heq.trans (if_neg hcredit))

end Sys2Proof.OrgProofs
end

section
/-! SUPPORT. The hard halt, tail doorbells and waits for bells: one equation for each outcome, and from them the statements on them
(R46, R47, R54, R72, R420); and the devices at which the statements on bells, on issue, on retirement and on ring-hub operations
fail. -/

namespace Sys2Proof.RingProofs

open Sys2Proof Sys2Proof.Machine Sys2Proof.Safety Sys2Proof.HostProofs Sys2Proof.OrgProofs

/-! ## The hard halt (R72, R420) -/

/-- Under a hard halt an effect of the engines does not come about. -/
theorem act_halted {s : State} (f : Dev → Dev) (h : s.dev.hub.hardHalted = true) : act s (running f) = .next s := by
  simp [act, running, h]

/-- Every command that is not outside the engines acts as an effect of the engines. -/
theorem exec_eq_running {c : Instr} (h : outsideEngines c = false) : ∃ f, ∀ s, exec c s = act s (running f) := by
  cases c <;> cases h <;> exact ⟨_, fun _ => rfl⟩

/-- An effect that meets no untaken page takes place at once on a powered package (R358, R359). -/
theorem act_live_of_stalls {f : Dev → Dev} {s : State} {d : Dev} (hp : powered s) (heq : f s.dev = d)
    (hstalls : d.granary.stalls = []) : act s (live f) = .next { s with dev := d } := by
  obtain ⟨hon, -⟩ := hp
  simp [act, live, settle, hon, heq, hstalls]

/-- An effect that does not come about leaves the state as it is. -/
theorem act_live_same {f : Dev → Dev} {s : State} (hp : powered s) (heq : f s.dev = s.dev) : act s (live f) = .next s :=
  act_live hp heq rfl

/-- A cause that is set stands in the cause register, and the others stay (Table 17.10). -/
theorem setCause_irqCause (d : Dev) {k : Nat} (hk : k < 7) :
    (setCause d k).host.irqCause = d.host.irqCause ||| BitVec.twoPow 7 k := by
  unfold setCause
  split
  next hset =>
    refine BitVec.eq_of_getLsbD_eq fun i hi => ?_
    obtain rfl | hne := eq_or_ne i k
    · simp [hset]
    · simp [BitVec.getLsbD_twoPow, hne.symm]
  next =>
    dsimp only
    split
    · obtain ⟨p, m, e⟩ := raiseVector_host_frame { d with host.irqCause := d.host.irqCause ||| BitVec.twoPow 7 k } 0
      rw [e]
    · rfl

/-- The halt key stops the engines: the snapshot is abandoned, HALTED is set, and cause 6 (R420). -/
theorem hardHalt_of_key {d : Dev} (hopen : barOpen d = true) (hrun : d.hub.hardHalted = false) :
    hardHalt 0x48414C54#32 d = setCause { abandonSnapshot d with hub.hardHalted := true } 6 := by
  simp [hardHalt, hopen, hrun, abandonSnapshot]

/-- Any other value, and a second key, does nothing. -/
theorem hardHalt_of_other {d : Dev} {v : W32} (h : ¬(v = 0x48414C54#32 ∧ d.hub.hardHalted = false)) : hardHalt v d = d := by
  refine if_neg fun hc => h ?_
  simp only [Bool.and_eq_true, decide_eq_true_eq, Bool.not_eq_true'] at hc
  obtain ⟨⟨-, hkey⟩, hrun⟩ := hc
  exact ⟨hkey, hrun⟩

/-- Settles O5: the key is one equation of `hardHalt`, read with what `setCause` may change; the engines' commands are all
effects that `running` withholds. -/
theorem hardHaltStopsEngines : Obligations.HardHaltStopsEngines := by
  unfold Obligations.HardHaltStopsEngines
  refine ⟨fun s v hp hstalls hopen => ?key, fun c s hc hhalt => ?engines⟩
  case key =>
    split
    next h =>
      obtain ⟨rfl, hrun⟩ := h
      have hcause := setCause_irqCause { abandonSnapshot s.dev with hub.hardHalted := true } (k := 6) (by decide)
      obtain ⟨h, o, e⟩ := setCause_frame { abandonSnapshot s.dev with hub.hardHalted := true } 6
      refine ⟨_, act_live_of_stalls hp (hardHalt_of_key hopen hrun) ?_, ?_, ?_, hcause, ?_, ?_, ?_⟩
      all_goals rw [e]
      · exact hstalls
      all_goals rfl
    next h => exact act_live_same hp (hardHalt_of_other h)
  case engines =>
    obtain ⟨f, hf⟩ := exec_eq_running hc
    rw [hf, act_halted f hhalt]

/-! ## Tail doorbells (R46, R47) -/

section
variable {d : Dev} {n : Nat} {r : Ring} {v : W32}

/-- A write of the current tail changes nothing. -/
theorem dbTail_of_current (hring : getRing d n = some r) (hmember : isMember d n = false) (hv : v = r.submitted) :
    dbTail n v d = d := by
  simp [dbTail, hring, hmember, hv]

/-- Any other write is taken where R47 takes it, as the new tail; else it is logged as EV_RING_OVERRUN. -/
theorem dbTail_of_new (hopen : barOpen d = true) (hring : getRing d n = some r) (hmember : isMember d n = false)
    (hv : v ≠ r.submitted) :
    dbTail n v d =
      if d.hub.hardHalted = false ∧ (v - r.submitted).toNat < 2 ^ 31 ∧ (v - r.retired).toNat ≤ 2 ^ r.log2len then
        modRing d n fun r => { r with submitted := v }
      else logEvent d evRingOverrun (.ring n) 0 := by
  simp only [dbTail, hopen, hring, hmember, hv, Bool.not_true, Bool.false_eq_true, if_false]
  exact if_congr (by simp only [Bool.and_eq_true, Bool.not_eq_true', decide_eq_true_eq, and_assoc]; rfl) rfl rfl

/-- A write to a ring that does not exist is logged as EV_RING_NOT_CREATED. -/
theorem dbTail_of_absent (hopen : barOpen d = true) (hring : getRing d n = none) :
    dbTail n v d = logEvent d evRingNotCreated (.ring n) 0 := by
  simp [dbTail, hopen, hring]

end

/-- A change of a ring is what is read of it. -/
theorem getRing_modRing {d : Dev} {n : Nat} {r : Ring} (h : getRing d n = some r) (f : Ring → Ring) :
    getRing (modRing d n f) n = some (f r) := by
  rw [getRing, modRing, tget_tmod_same, show tget d.hub.rings n = some r from h, Option.map_some]

/-- Every other ring is read as before. -/
theorem getRing_modRing_other (d : Dev) {n m : Nat} (f : Ring → Ring) (h : m ≠ n) : getRing (modRing d n f) m = getRing d m :=
  tget_tmod_other _ _ h

/-- A doorbell whose effect is a report alone. -/
theorem acts_report {f : Dev → Dev} {s : State} {ev : Nat} {src : Source} (hp : powered s)
    (heq : f s.dev = logEvent s.dev ev src 0) :
    ∃ d, act s (live f) = .next { s with dev := d } ∧ d.hub.rings = s.dev.hub.rings ∧ d.mem = s.dev.mem ∧
      (s.dev.hub.hardHalted = false → recorded s.dev d ev src 0) :=
  ⟨_, act_live hp heq (logEvent_granary ..), logEvent_rings .., logEvent_mem .., fun h => recorded_logEvent h ev src 0⟩

/-- Settles O31: the four outcomes of R47 are the four equations of `dbTail`. -/
theorem tailDoorbell : Obligations.TailDoorbell := by
  unfold Obligations.TailDoorbell
  refine fun s n v hp hopen => ⟨fun r hring hmember => ?ring, fun hring => ?absent⟩
  case ring =>
    split
    next hv => exact act_live_same hp (dbTail_of_current hring hmember hv)
    next hv =>
      have heq := dbTail_of_new hopen hring hmember hv
      split
      next h =>
        exact ⟨_, act_live hp (heq.trans (if_pos h)) rfl, getRing_modRing hring _,
          fun m hm => getRing_modRing_other s.dev _ hm, rfl⟩
      next h => exact acts_report hp (heq.trans (if_neg h))
  case absent =>
    obtain ⟨d, hact, hrings, -, hrec⟩ := acts_report hp (dbTail_of_absent (v := v) hopen hring)
    exact ⟨d, hact, hrings, hrec⟩

/-! ## Waits for bells (R54) -/

/-- A ring's only operation, fetched and waiting for its bells, has its wait logged once it is past the limit. -/
theorem bellWaitStall_of_waiting {d : Dev} {ring t : Nat} {r : Ring} {o : Op} (hring : getRing d ring = some r)
    (hops : r.ops = [o]) (hphase : o.phase = .fetched) (hwaits : waitsMet d o = false) (hfrom : o.waitFrom = some t) :
    bellWaitStall ring d =
      if o.readyAt = none ∧ o.waitLogged = false ∧ t + r.waitLimit * 1000000 < deviceTime d then
        logEvent (modOp d (o.name ring) fun o => { o with waitLogged := true }) evBellWaitStall (.ring ring) 0
      else d := by
  have hcond : (o.phase == .fetched && o.readyAt.isNone && !(waitsMet d o) && !o.waitLogged && overdue d o.waitFrom r.waitLimit) = true ↔
      o.readyAt = none ∧ o.waitLogged = false ∧ t + r.waitLimit * 1000000 < deviceTime d := by
    simp [hphase, hwaits, hfrom, overdue_some, and_assoc]
  by_cases h : o.readyAt = none ∧ o.waitLogged = false ∧ t + r.waitLimit * 1000000 < deviceTime d
  · simp only [bellWaitStall, hring, hops, List.find?_singleton, if_pos (hcond.mpr h), if_pos h]
  · simp only [bellWaitStall, hring, hops, List.find?_singleton, if_neg (mt hcond.mp h), if_neg h]

/-- A ring whose only operation has changed holds that operation alone. -/
theorem getRing_modOp_single {d : Dev} {ring : Nat} {r : Ring} {o : Op} (hring : getRing d ring = some r) (hops : r.ops = [o])
    (f : Op → Op) : getRing (modOp d (o.name ring) f) ring = some { r with ops := [f o] } := by
  refine (getRing_modRing hring _).trans ?_
  simp [hops, Op.name]

/-- Settles O34: BELL_WAIT_STALL is one equation of `bellWaitStall`, a report beside the mark of the wait. -/
theorem bellWaitStalls : Obligations.BellWaitStalls := by
  unfold Obligations.BellWaitStalls
  intro s ring r o t hw hring hops hphase hwaits hfrom
  have heq := bellWaitStall_of_waiting hring hops hphase hwaits hfrom
  have ⟨_, hrun, hstalls⟩ := hw
  split
  next h =>
    refine ⟨_, act_running hw (heq.trans (if_pos h)) ?_, recorded_logEvent_modOp hrun .., ?_, logEvent_mem ..⟩
    · rw [logEvent_granary]
      exact hstalls
    · rw [getRing, logEvent_rings]
      exact getRing_modOp_single hring hops _
  next h => exact act_running_same hw (heq.trans (if_neg h))

/-! ## Devices at which statements fail -/

/-- What holds of the device after a command holds of the one that its meaning gives. -/
theorem of_acts {c : Instr} {s : State} {p : Dev → Prop} {d : Dev} (h : acts c s p) (hexec : exec c s = .next { s with dev := d }) :
    p d := by
  obtain ⟨d', hd', hp⟩ := h
  rw [hexec] at hd'
  cases hd'
  exact hp

/-- A descriptor of 128 bytes with an opcode and zeros. -/
def bareDesc (code : Nat) : Bytes := leBytes 2 code ++ List.replicate 126 0

/-- A ring of 64 entries with these operations fetched from it. -/
def ringWith (target : Nat) (ops : List Op) : Ring :=
  { base := 0x10000, log2len := 6, target := target, vector := 0, waitLimit := 100, ops := ops }

/-! ### A bell listed twice (R59, R61) -/

/-- An issued BELL_SET of bell 0 to 0. -/
def clearBellOp : Op := { seq := 0, desc := bareDesc 1, phase := .issued }

/-- A device past phase A whose table of bells lists bell 0 twice, and whose ring 0, of a data mover, has that BELL_SET issued. A state
may hold such a table; the model's own writes make none. -/
def twiceListedDev : Dev :=
  { State.reset.dev with
    power.phase := 0xF
    hub.bells := [(0, 1), (0, 1)]
    hub.rings := [(0, ringWith 0x130 [clearBellOp])] }

/-- A bell that is set to zero loses its first entry, and the second one is read: here of a host's write of zero. -/
theorem bellWrite_zero_twiceListed : bellValue (bellWrite 0 (.set 0) twiceListedDev) 0 = 1 := by decide +kernel

/-- The same of a BELL_SET to zero. -/
theorem bellSet_zero_twiceListed : bellValue (hubSimple 1 { ring := 0, seq := 0 } twiceListedDev) 0 = 1 := by decide +kernel

/-- Refutes O32, at its clause on BELL_VALUE: the statement is of every state, also of one whose table of bells lists bell 0 twice, and
a host's write of zero leaves that bell at 1. The premise that the table's keys rise is missing. -/
theorem not_hostBells : ¬ Obligations.HostBells := by
  unfold Obligations.HostBells
  rintro ⟨-, -, -, hwrite, -⟩
  obtain ⟨hset, -, -⟩ := hwrite { dev := twiceListedDev } 0 0 (by decide +kernel) (by decide +kernel) (by decide) (by decide +kernel)
  obtain ⟨hval, -, -⟩ := of_acts hset (act_live (d := bellWrite 0 (.set 0) twiceListedDev) (by decide +kernel) rfl rfl)
  rw [bellWrite_zero_twiceListed] at hval
  exact absurd hval (by decide)

/-- Refutes O36, at its clause on BELL_SET, in the same way: a BELL_SET to zero of a bell that the table lists twice leaves it at 1. -/
theorem not_ringHubOperations : ¬ Obligations.RingHubOperations := by
  unfold Obligations.RingHubOperations
  rintro ⟨-, hset, -⟩
  obtain ⟨-, hold⟩ := hset _ { dev := twiceListedDev } { ring := 0, seq := 0 } clearBellOp (ringWith 0x130 [clearBellOp]) (.mover 0) rfl
    (by decide +kernel) rfl rfl rfl rfl
  have hacts := hold 0 [] rfl (by decide) rfl (by simp) rfl rfl rfl rfl rfl rfl rfl rfl (by decide +kernel)
  obtain ⟨hbells, -, -⟩ := of_acts hacts (act_running (d := hubSimple 1 { ring := 0, seq := 0 } twiceListedDev) (by decide +kernel)
    rfl (by decide +kernel))
  have hval := hbells 0
  rw [bellSet_zero_twiceListed] at hval
  exact absurd hval (by decide)

/-! ### A copy that failed (R67, R345) -/

/-- A DM_COPY of one row of 8 bytes to 0x2000 that has ended with ST_UNCORRECTABLE, and has written nothing. -/
def failedCopyOp : Op :=
  { seq := 0, desc := splice (splice (splice (bareDesc 0x0801) 40 (leBytes 8 0x2000)) 48 (leBytes 4 8)) 52 (leBytes 4 1)
    phase := .complete, status := 0x38, issuedAt := 1, completeAt := 2 }

/-- A powered device whose ring 0 has that copy alone, and a word with one bit error at 0x2000. -/
def failedCopyDev : Dev :=
  { State.reset.dev with
    clock.pulse := 9, clock.cyc := 9
    power.domains := List.replicate 157 .on
    hub.rings := [(0, ringWith 0x130 [failedCopyOp])]
    mem.flips := [(0x200, 1)] }

/-- The halt of that ring leaves the copy's destination unspecified, so that the word there is written and its bit error goes. -/
theorem opRetire_failedCopy : (opRetire 0 false failedCopyDev).mem.flips = [] := by decide +kernel

/-- Refutes O35, at its clause on the halt point: memory need not be kept there, since the destination of a move that failed is
unspecified (R67, R345). -/
theorem not_retirement : ¬ Obligations.Retirement := by
  unfold Obligations.Retirement
  rintro ⟨-, hhalt, -⟩
  have hacts := hhalt { dev := failedCopyDev } 0 0 (ringWith 0x130 [failedCopyOp]) failedCopyOp (by decide +kernel)
    (by decide +kernel) (by decide +kernel) (by decide) (by decide) rfl rfl
  obtain ⟨-, -, hmem⟩ := of_acts hacts (act_running (d := opRetire 0 false failedCopyDev) (by decide +kernel) rfl (by decide +kernel))
  have hflips := congrArg Memory.flips hmem
  rw [opRetire_failedCopy] at hflips
  cases hflips

/-! ### A decision that meets a clear (R237, R413) -/

/-- An operation that is fetched, and ready from control cycle `t` on. -/
def readyOp (code t : Nat) : Op := { seq := 0, desc := bareDesc code, readyAt := some t }

/-- A ring of a data mover with `n` operations in flight. -/
def fullRing (n : Nat) : Ring :=
  ringWith 0x130 ((List.range n).map fun i => { seq := BitVec.ofNat 32 i, desc := [], phase := .issued })

/-- A powered device whose ring hub is OFF, in the control cycle in which the flag of step 0 was cleared. Two places of the package
are free; a STEP_DECIDE of step 0 and a NOP ask for them now, and another NOP from the next control cycle on. -/
def crowdedDev : Dev :=
  { State.reset.dev with
    hub.rings := [(0, ringWith 0x140 [readyOp 0x0980 0]), (1, ringWith 0x130 [readyOp 0 0]), (2, ringWith 0x130 [readyOp 0 1]),
      (3, fullRing 62)] ++ (List.range 63).map fun i => (4 + i, fullRing 64)
    hub.placePtr := 1
    steps.opened := [{ clearAt := some 0 }] }

/-- The STEP_DECIDE waits for the next control cycle, in which three requests meet the two places and the arbiter
grants ring 1. -/
theorem opIssue_crowded : standing (opIssue 0 crowdedDev) { ring := 0, seq := 0 } = some (.fetched, 0, 0) := by
  decide +kernel

/-- Refutes O33, at its clause on refusals: a STEP_DECIDE on a ring whose domain is OFF, ready and granted, does not end at once with
0x4A where its step's flag was cleared in this control cycle, since it waits for the next one (R237) and may lose its place there. -/
theorem not_fetchAndIssue : ¬ Obligations.FetchAndIssue := by
  unfold Obligations.FetchAndIssue
  rintro ⟨-, hissue⟩
  obtain ⟨-, -, -, hrefused⟩ := hissue { dev := crowdedDev } 0 (ringWith 0x140 [readyOp 0x0980 0]) .hub (readyOp 0x0980 0)
    (by decide +kernel) rfl rfl (by decide) (by decide +kernel) (by decide +kernel) rfl
  have hacts := hrefused 0x4A (by decide +kernel)
  obtain ⟨hended, -⟩ := of_acts hacts (act_running (d := opIssue 0 crowdedDev) (by decide +kernel) rfl (by decide +kernel))
  exact absurd (opIssue_crowded.symm.trans hended) (by decide)

end Sys2Proof.RingProofs
end

section
/-! SUPPORT. How a mailbox command that passes its checks acts: as its run, with the answer in its mailbox and the arbiter past it
(R383); what a clear of a step's flag does; from them the statement on the mailbox's settings, and the device at which the one on
loads fails. -/

namespace Sys2Proof.MailboxProofs

open Sys2Proof Sys2Proof.Machine Sys2Proof.Safety Sys2Proof.HostProofs Sys2Proof.OrgProofs Sys2Proof.RingProofs

/-! ## How a mailbox command acts (R383) -/

/-- The device with the arbiter of R383 past mailbox `m`. -/
abbrev pointed (d : Dev) (m : Nat) : Dev := { d with iabor.pointer := (m + 1) % 8 }

/-- The arbiter's pointer has no part in the device time. -/
theorem deviceTime_pointed (d : Dev) (m : Nat) : deviceTime (pointed d m) = deviceTime d := rfl

/-- A mailbox whose request is accepted next stands in its place. -/
theorem mbx_of_accepting {d : Dev} {m : Nat} {b : Mailbox} (h : accepting d m = some b) : d.iabor.mbx[m]? = some b := by
  unfold accepting at h
  split at h
  · exact h
  · cases h

/-- A request that passes its checks is carried out and answered. -/
theorem mbxCommand_of_asks {d : Dev} {c : MbCmd} {m : Nat} {b : Mailbox} {body : Bytes} (h : mbxAsks d c m b body) :
    mbxCommand c m d = putAnswer (c.run m body (pointed d m)).1 m (c.run m body (pointed d m)).2 := by
  obtain ⟨hacc, hcode, hcheck⟩ := h
  simp [mbxCommand, hacc, hcode, hcheck]

/-- A response that is made up stands in its mailbox. -/
theorem responds_putAnswer {d : Dev} {m : Nat} {b : Mailbox} (h : d.iabor.mbx[m]? = some b) (r : MbxResponse) :
    responds (putAnswer d m r) m r := by
  have hlt : m < d.iabor.mbx.length := (List.getElem?_eq_some_iff.mp h).1
  simp [responds, putAnswer, modAt, hlt]

/-- A request that passes its checks acts as its command's run, where that leaves the Granary alone. -/
theorem mbxAct_of_asks {s : State} {c : MbCmd} {m : Nat} {b : Mailbox} {body : Bytes} (hp : powered s) (h : mbxAsks s.dev c m b body)
    (hg : (c.run m body (pointed s.dev m)).1.granary = s.dev.granary) :
    mbxAct c m s = .next { s with dev := putAnswer (c.run m body (pointed s.dev m)).1 m (c.run m body (pointed s.dev m)).2 } :=
  act_live hp (mbxCommand_of_asks h) hg

/-- A command whose run on a device gives `d`, whatever the arbiter's pointer, leaves `d` with its answer. -/
theorem mbxAct_eq_answered {s : State} {c : MbCmd} {m : Nat} {b : Mailbox} {body : Bytes} {d : Dev} {r : MbxResponse} (hp : powered s)
    (h : mbxAsks s.dev c m b body) (hrun : c.run m body (pointed s.dev m) = (pointed d m, r))
    (hmbx : ∃ x, d.iabor.mbx[m]? = some { b with answer := x }) (hg : d.granary = s.dev.granary) :
    mbxAct c m s = .next { s with dev := answered d m b r } := by
  obtain ⟨x, hmbx⟩ := hmbx
  rw [mbxAct_of_asks hp h (by rw [hrun]; exact hg), hrun]
  simp only [putAnswer, modAt, hmbx]

/-- A command whose run is `eff` with response `resp`, and leaves the mailboxes and the Granary alone, has this result. -/
theorem mbxResult_of_run {mk : Nat → Instr} {c : MbCmd} {eff : Bytes → Dev → Dev} {resp : Bytes → Dev → MbxResponse}
    (hmk : ∀ m s, exec (mk m) s = mbxAct c m s) (hrun : ∀ m b d, c.run m b (pointed d m) = (pointed (eff b d) m, resp b d))
    (hmbx : ∀ b d, (eff b d).iabor = d.iabor) (hg : ∀ b d, (eff b d).granary = d.granary) : mbxResult mk c eff resp := by
  intro s m b body hp h
  have hb := mbx_of_accepting h.1
  rw [hmk, mbxAct_eq_answered hp h (hrun m body s.dev) ⟨b.answer, by rw [hmbx]; exact hb⟩ (hg body s.dev)]

/-! ## Effects of settings -/

/-- An answer made up later changes nothing of a mailbox but its answer. -/
theorem answerMbx_mailbox {d : Dev} {m : Nat} {b : Mailbox} (h : d.iabor.mbx[m]? = some b) (k : Nat) (r : MbxResponse) :
    ∃ x, (answerMbx d k r).iabor.mbx[m]? = some { b with answer := x } := by
  simp only [answerMbx, modAt]
  split
  next => exact ⟨b.answer, h⟩
  next y hy =>
    obtain rfl | hne := eq_or_ne k m
    · obtain rfl : b = y := Option.some.inj (h.symm.trans hy)
      rw [List.getElem?_set_self (List.getElem?_eq_some_iff.mp h).1]
      split
      · split
        · exact ⟨_, rfl⟩
        · exact ⟨_, rfl⟩
      · exact ⟨_, rfl⟩
    · exact ⟨b.answer, by rw [List.getElem?_set_ne hne, h]⟩

/-- A counter's new selection, as R438 and Table 17.12 tell apart a window that has ended and not closed. -/
theorem counterSelect_eq (c : Counter) (sel : W32) (n : Nat) (k : Option Nat) :
    c.select sel n k =
      if k.any fun k => decide (n < k) then { c with
        sel := sel, count := 0, valid := false, since := k.getD 0, ahead := tdel c.ahead (k.getD 0)
        changedAhead := k.getD 0 :: c.changedAhead }
      else { value := c.value, partSel := c.partSel, sel := sel, changed := k.isSome, since := n } := by
  cases k with
  | none => rfl
  | some k =>
    by_cases h : k ≤ n
    · simp [Counter.select, h]
    · simp [Counter.select, h, Nat.lt_of_not_le h]

/-! ## The clear of a step (R237, R238) -/

/-- No mailbox command outside the lists passes its checks under a hard halt. -/
theorem running_of_checkRequest {c : MbCmd} {d : Dev} {b : Mailbox} {body : Bytes} (h : checkRequest c d b = .ok body)
    (hrom : romCodes.contains c.code = false) (hhalt : haltCodes.contains c.code = false) : d.hub.hardHalted = false := by
  have hearly : earlyRefusal d c.code = none := by
    unfold checkRequest at h
    dsimp only at h
    split at h
    · cases h
    · assumption
  unfold earlyRefusal at hearly
  rw [hrom, hhalt] at hearly
  by_contra hhalted
  rw [Bool.not_eq_false] at hhalted
  rw [hhalted] at hearly
  split at hearly
  · cases hearly
  · split at hearly
    · cases hearly
    · cases hearly

/-- A change of an open step is what is read of it. -/
theorem stepState_modStep (d : Dev) (k : Nat) (f : StepState → StepState) : stepState (modStep d k f) k = (stepState d k).map f := by
  unfold modStep
  split
  next h =>
    simp only [stepState, modAt, h, if_true]
    split
    next hnone => rw [hnone]; rfl
    next x hx => rw [List.getElem?_set_self (List.getElem?_eq_some_iff.mp hx).1, hx, Option.map_some]
  next h => simp [stepState, h]

/-- A report that goes with a change of a step is recorded as it would be without that change. -/
theorem recorded_logEvent_modStep {d : Dev} (h : d.hub.hardHalted = false) (k : Nat) (f : StepState → StepState) (ev : Nat)
    (src : Source) (detail : Nat) : recorded d (logEvent (modStep d k f) ev src detail) ev src detail := by
  obtain ⟨x, e⟩ := modStep_frame d k f
  rw [e]
  exact recorded_logEvent (d := { d with steps := x }) h ev src detail

/-- A step's state is read after a report as before it. -/
theorem stepState_logEvent (d : Dev) (k ev : Nat) (src : Source) (detail : Nat) :
    stepState (logEvent d ev src detail) k = stepState d k := by
  simp [stepState]

section
variable {d : Dev} {k : Nat} {st : StepState} {cause : Byte}

/-- A clear of a step that is not open is late. -/
theorem clearFlag_of_closed (h : stepState d k = none) : clearFlag d k cause none = logEvent d evStepClearLate .hub 0 := by
  simp [clearFlag, h, ringSource]

/-- A clear of a step that is decided, or whose flag has been taken or sent, is late. -/
theorem clearFlag_of_late (h : stepState d k = some st) (hlate : clearsLate st = true) : clearFlag d k cause none =
    logEvent (modStep d k fun st => { st with lateClear := true }) evStepClearLate .hub 0 := by
  simp [clearFlag, h, hlate, ringSource]

/-- A clear of a flag that is clear counts for the beat of the decision alone. -/
theorem clearFlag_of_clear (h : stepState d k = some st) (hlate : clearsLate st = false) (hflag : st.flag = false) :
    clearFlag d k cause none = modStep d k fun st => { st with clearAt := some (cycle d) } := by
  simp [clearFlag, h, hlate, hflag]

/-- A clear of a flag that is set clears it with its cause, and is reported. -/
theorem clearFlag_of_set (h : stepState d k = some st) (hlate : clearsLate st = false) (hflag : st.flag = true) :
    clearFlag d k cause none = logEvent (modStep d k fun st => { st with
      flag := false, cause := cause, clearRing := 0xFFFFFFFF, clearSeq := 0xFFFFFFFF, clearAt := some (cycle d) })
      evStepCleared .hub 0 := by
  simp [clearFlag, h, hlate, hflag, ringSource]

/-- A decided step, one whose flag has been taken and one whose contribution has been sent are the late ones. -/
theorem clearsLate_iff : clearsLate st = true ↔ st.decision.isSome = true ∨ st.deciding.isSome = true ∨ st.healthSent = true := by
  simp [clearsLate, or_assoc]

end

/-- MB_STEP_CLEAR that passes its checks clears the flag with cause 4 (Table 9.2), answers whether the clear counts, and leaves memory
and the rings. -/
theorem acts_stepClear {s : State} {m : Nat} {b : Mailbox} {body : Bytes} {p : Dev → Prop} {d : Dev} {counts : Bool} (hp : powered s)
    (h : mbxAsks s.dev mbStepClear m b body) (hclear : clearFlag (pointed s.dev m) (fld body 0 8) 4 none = d)
    (hcounts : ((stepState s.dev (fld body 0 8)).any fun st => !clearsLate st) = counts)
    (heff : let r := mbOk (leBytes 1 (ofBool counts))
      responds (putAnswer d m r) m r → p (putAnswer d m r)) :
    acts (.mbStepClear m) s fun d => d.mem = s.dev.mem ∧ d.hub.rings = s.dev.hub.rings ∧ p d := by
  have hb := mbx_of_accepting h.1
  have hrun : mbStepClear.run m body (pointed s.dev m) = (d, mbOk (leBytes 1 (ofBool counts))) := by rw [← hclear, ← hcounts]; rfl
  obtain ⟨x, c, w, y, t, i, o, e⟩ := clearFlag_frame (pointed s.dev m) (fld body 0 8) 4 none
  obtain rfl := hclear.symm.trans e
  have hact := mbxAct_of_asks hp h (by rw [hrun])
  rw [hrun] at hact
  exact ⟨_, hact, rfl, rfl, heff (responds_putAnswer (b := b) hb _)⟩

/-! ## The settings -/

/-- Settles O59: each command's run is its setting, with the arbiter's pointer left aside; MB_STEP_CLEAR is the four equations of
`clearFlag`. -/
theorem mailboxSettings : Obligations.MailboxSettings := by
  unfold Obligations.MailboxSettings
  refine ⟨?ringCreate, ?chuteBind, ?chuteUnbind, ?badgerTable, ?numConfig, ?stepClear, ?stageBind, ?stageUnbind, ?seqConfig,
    ?stageMigrate, ?thStream, ?thClass, ?fabRoute, ?groupClear, ?memRecal, ?memScrub, ?memHostmap, ?memLend, ?memBorrow, ?owlConfig,
    ?powerLimit, ?trainSave, ?tallyRead, ?counterSelect⟩
  case ringCreate | chuteBind | chuteUnbind | badgerTable | numConfig | stageBind | seqConfig | thClass | fabRoute | groupClear |
      memScrub | memHostmap | memLend | memBorrow | owlConfig | powerLimit | tallyRead =>
    exact mbxResult_of_run (fun _ _ => rfl) (fun _ _ _ => rfl) (fun _ _ => rfl) fun _ _ => rfl
  case stepClear =>
    intro s m b body hp h step
    have hrun := running_of_checkRequest h.2.2 (by decide) (by decide)
    cases hstep : stepState s.dev step with
    | none =>
      refine acts_stepClear hp h (clearFlag_of_closed hstep) (counts := false) (by rw [hstep]; rfl) fun hr => ⟨hr, ?_, ?_⟩
      · exact recorded_logEvent (d := pointed s.dev m) hrun ..
      · exact logEvent_steps ..
    | some st =>
      have hread (f : StepState → StepState) : stepState (modStep (pointed s.dev m) step f) step = some (f st) := by
        rw [stepState_modStep, show stepState (pointed s.dev m) step = some st from hstep, Option.map_some]
      have hrec (f : StepState → StepState) (ev : Nat) :=
        recorded_logEvent_modStep (d := pointed s.dev m) hrun step f ev .hub 0
      have hcounts : ((stepState s.dev step).any fun st => !clearsLate st) = !clearsLate st := by rw [hstep, Option.any_some]
      by_cases hlate : clearsLate st = true
      · simp only [if_pos (clearsLate_iff.mp hlate)]
        rw [hlate] at hcounts
        exact acts_stepClear hp h (clearFlag_of_late hstep hlate) hcounts fun hr =>
          ⟨hr, hrec .., (stepState_logEvent ..).trans (hread _)⟩
      · simp only [if_neg (mt clearsLate_iff.mpr hlate)]
        rw [Bool.not_eq_true] at hlate
        rw [hlate] at hcounts
        by_cases hflag : st.flag = true
        · simp only [if_pos hflag]
          exact acts_stepClear hp h (clearFlag_of_set hstep hlate hflag) hcounts fun hr =>
            ⟨hr, hrec .., (stepState_logEvent ..).trans (hread _)⟩
        · simp only [if_neg hflag]
          rw [Bool.not_eq_true] at hflag
          exact acts_stepClear hp h (clearFlag_of_clear hstep hlate hflag) hcounts fun hr => ⟨hr, hread _⟩
  case stageUnbind =>
    intro s m b body hp h
    have hb := mbx_of_accepting h.1
    cases hmig : s.dev.seq.migration with
    | none =>
      simp only [hmig]
      exact mbxAct_eq_answered hp h (by simp only [mbStageUnbind, hmig]) ⟨_, hb⟩ rfl
    | some g =>
      simp only [hmig]
      by_cases hstage : g.stage = fld body 0 1
      · simp only [if_pos hstage]
        exact mbxAct_eq_answered hp h (by simp only [mbStageUnbind, hmig, if_pos hstage]; rfl)
          (answerMbx_mailbox (d := { s.dev with seq.migration := none }) hb ..) rfl
      · simp only [if_neg hstage]
        exact mbxAct_eq_answered hp h (by simp only [mbStageUnbind, hmig, if_neg hstage]) ⟨_, hb⟩ rfl
  case stageMigrate =>
    intro s m b body hp h
    exact mbxAct_eq_answered hp h rfl ⟨_, mbx_of_accepting h.1⟩ rfl
  case thStream =>
    refine mbxResult_of_run (fun _ _ => rfl) (fun m b d => ?run) (fun b d => ?mailboxes) fun b d => ?granary
    case run => dsimp only [mbThStream]; split <;> rfl
    case mailboxes => dsimp only; split <;> rfl
    case granary => dsimp only; split <;> rfl
  case memRecal =>
    refine mbxResult_of_run (fun _ _ => rfl) (fun m b d => ?run) (fun b d => ?mailboxes) fun b d => ?granary
    case run => dsimp only [mbMemRecal]; split <;> rfl
    case mailboxes => dsimp only; split <;> rfl
    case granary => dsimp only; split <;> rfl
  case trainSave =>
    intro flashOk
    refine mbxResult_of_run (fun _ _ => rfl) (fun m b d => ?run) (fun b d => ?mailboxes) fun b d => ?granary
    case run =>
      dsimp only [mbTrainSave]
      by_cases hread : fld b 0 1 = 2
      · simp [hread]
      · cases flashOk with
        | false => simp [hread]
        | true => by_cases hdrop : fld b 0 1 = 1 <;> simp [hread, hdrop, writeRecord, deviceTime_pointed]
    case mailboxes => dsimp only; split; rfl; split <;> rfl
    case granary => dsimp only; split; rfl; split <;> rfl
  case counterSelect =>
    refine mbxResult_of_run (fun _ _ => rfl) (fun m b d => ?run) (fun b d => ?mailboxes) fun b d => ?granary
    case run =>
      dsimp only [mbCounterSelect, selectCounter]
      rw [counterSelect_eq]
      split <;> rfl
    case mailboxes => dsimp only; split <;> rfl
    case granary => dsimp only; split <;> rfl

/-! ## A port with a message half sent (R315) -/

/-- MB_FAB_PORT, as it stands in its mailbox, asking port 0 to retrain: the code, the length, zeros up to the body, and its two bytes. -/
def retrainRequest : Mailbox := { st := .busy, req := leBytes 2 0x0602 ++ leBytes 2 2 ++ List.replicate 12 0 ++ [0, 1] }

/-- A device at work that has this request in mailbox 0, and whose port 0 is up, with nothing unacknowledged and nothing waiting there,
but a message half sent for want of credit. -/
def halfSentDev : Dev :=
  { State.reset.dev with
    power.phase := 0xF, power.ready := true
    power.domains := List.replicate 157 .on
    fabric.ports := { st := 1, sending := [(0, [(false, [])])] } :: List.replicate 5 {}
    iabor.up := true
    iabor.mbx := retrainRequest :: List.replicate 7 {} }

/-- The request passes its checks. -/
theorem mbxAsks_halfSent : mbxAsks halfSentDev (mbFabPort {}) 0 retrainRequest [0, 1] := by
  refine ⟨?_, ?_, ?_⟩
  all_goals decide +kernel

/-- The port does not begin to retrain, since its buffers are not empty. -/
theorem mbFabPort_halfSent : (getPort (mbxCommand (mbFabPort {}) 0 halfSentDev) 0).st = 1 := by decide +kernel

/-- Refutes O60, at its clause on MB_FAB_PORT with ACTION 1: a port that has nothing to acknowledge and nothing waiting, but a message
half sent, has buffers that are not empty, and stays up until they are (R315); the statement has it retraining at once. -/
theorem not_mailboxLoads : ¬ Obligations.MailboxLoads := by
  unfold Obligations.MailboxLoads
  rintro ⟨-, -, -, -, -, -, -, -, -, -, -, -, hport, -⟩
  have hacts := hport { dev := halfSentDev } 0 {} _ [0, 1] (by decide +kernel) mbxAsks_halfSent (by decide) rfl
  obtain ⟨-, -, -, -, -, hretrains⟩ := of_acts hacts
    (act_live (d := mbxCommand (mbFabPort {}) 0 halfSentDev) (by decide +kernel) rfl rfl)
  exact absurd (mbFabPort_halfSent.symm.trans (congrArg Port.st hretrains)) (by decide)

end Sys2Proof.MailboxProofs
end

section
/-! SUPPORT. The pooling instructions of a Badger (R217, Table 8.7): the FP32 patterns that decode and encode back, one equation for
each operation of the working registers, and from them the statement on the twelve instructions. -/

namespace Sys2Proof.PoolingProofs

open Sys2Proof Sys2Proof.Machine Sys2Proof.Safety Sys2Proof.HostProofs Sys2Proof.OrgProofs

/-! ## FP32 patterns, decoded and encoded again (R79, R80, R96) -/

/-- The parameters of FP32 (Table 3.3). -/
abbrev f32Params : FpParams := { we := 8, wm := 23, bias := 127, inf := true, maxPat := 0x7F7FFFFF }

/-- The exponent field of an FP32 pattern. -/
def expField (x : W32) : Nat := x.toNat / 2 ^ 23 % 2 ^ 8

/-- The fraction field of an FP32 pattern. -/
def fracField (x : W32) : Nat := x.toNat % 2 ^ 23

/-- The value of an FP32 pattern by its fields (Table 3.3). -/
theorem f32_eq (x : W32) : f32 x =
    if expField x = 255 then (if fracField x = 0 then .inf (bit x.toNat 31) else .nan (bit x.toNat 31))
    else if expField x = 0 then Val.mk (bit x.toNat 31) (fracField x) (-149)
    else .fin (bit x.toNat 31) (2 ^ 23 + fracField x) ((expField x : Int) - 150) := by
  have hexp : (expField x : Int) - 150 = expField x - 127 - (23 : Nat) := by omega
  rw [hexp]
  simp [f32, elemVal, fpParams, fpVal, bits, expField, fracField]
  rfl

/-- A pattern without its sign bit is its two fields. -/
theorem and_magnitude_eq (x : W32) : x &&& 0x7FFFFFFF = BitVec.ofNat 32 (expField x * 2 ^ 23 + fracField x) := by
  have hmask : (x &&& 0x7FFFFFFF).toNat = x.toNat % 2 ^ 31 := by
    rw [BitVec.toNat_and]
    exact Nat.and_two_pow_sub_one_eq_mod x.toNat 31
  apply BitVec.eq_of_toNat_eq
  rw [hmask, BitVec.toNat_ofNat, expField, fracField]
  omega

/-- A number below 2^n has at most n bits. -/
theorem bitLength_le {m n : Nat} (h : m < 2 ^ n) : bitLength m ≤ n := by
  unfold bitLength
  split
  · exact Nat.zero_le n
  next hm => exact (Nat.log2_lt hm).mpr h

/-- A significand whose leading bit stands at place 23 has 24 bits. -/
theorem bitLength_normal {g : Nat} (h : g < 2 ^ 23) : bitLength (2 ^ 23 + g) = 24 := by
  have hlog : Nat.log2 (2 ^ 23 + g) = 23 := (Nat.log2_eq_iff (by omega)).mpr ⟨by omega, by omega⟩
  rw [bitLength, if_neg (by omega), hlog]

/-- A positive finite value whose lowest place is the lowest one that FP32 keeps, and whose pattern is no larger than the largest
finite one, is encoded without rounding (R96). -/
theorem toF32_exact {m : Nat} {e : Int} (hlsb : lsbOf f32Params (e + bitLength m - 1) = e)
    (hmax : fpPattern f32Params m e ≤ f32Params.maxPat) : toF32 (.fin false m e) = BitVec.ofNat 32 (fpPattern f32Params m e) := by
  have hround : roundTo 0 0 m e e = m := by simp [roundTo, shiftTo]
  have hconv : toF32 (.fin false m e) = BitVec.ofNat 32 (convFp 0 f32Params 0 false 0 (.fin false m (e + -0))).pat := rfl
  simp [hconv, convFp, hlsb, hround, Nat.not_lt.mpr hmax, signBit]

/-- +0 or a positive subnormal value: its pattern is its fraction. -/
theorem toF32_subnormal {g : Nat} (h : g < 2 ^ 23) : toF32 (Val.mk false g (-149)) = BitVec.ofNat 32 g := by
  unfold Val.mk
  split
  next hzero => rw [hzero]; rfl
  next hpos =>
    have hlen := bitLength_le h
    have hpat : fpPattern f32Params g (-149) = g := by simp [fpPattern, hpos]
    rw [toF32_exact, hpat]
    · simp only [lsbOf]; omega
    · rw [hpat]; show g ≤ 0x7F7FFFFF; omega

/-- A positive normal value: its pattern is its fields. -/
theorem toF32_normal {f g : Nat} (h : g < 2 ^ 23) (hf : f ≠ 0) (hmax : f < 255) :
    toF32 (.fin false (2 ^ 23 + g) ((f : Int) - 150)) = BitVec.ofNat 32 (f * 2 ^ 23 + g) := by
  have hpat : fpPattern f32Params (2 ^ 23 + g) ((f : Int) - 150) = f * 2 ^ 23 + g := by
    rw [fpPattern, if_neg (by omega)]
    simp only
    omega
  rw [toF32_exact, hpat]
  · rw [bitLength_normal h, lsbOf]; simp only; omega
  · rw [hpat]; show _ ≤ 0x7F7FFFFF; omega

/-- |X| of an FP32 pattern clears its sign bit; a NaN gives the positive canonical one (R157). -/
theorem toF32_abs (x : W32) : toF32 ((f32 x).withSign false) = match f32 x with
    | .nan _ => 0x7FC00000
    | _ => x &&& 0x7FFFFFFF := by
  have hfrac : fracField x < 2 ^ 23 := Nat.mod_lt _ (by decide)
  have hexp : expField x < 256 := Nat.mod_lt _ (by decide)
  rw [and_magnitude_eq, f32_eq]
  split_ifs with hspecial hinf hsub
  · rw [hspecial, hinf]; rfl
  · rfl
  · have habs := toF32_subnormal hfrac
    rw [hsub, Nat.zero_mul, Nat.zero_add]
    unfold Val.mk at habs ⊢
    split_ifs at habs ⊢
    · exact habs
    · exact habs
  · exact toF32_normal hfrac hsub (by omega)

/-! ## One element of a pooling instruction (Table 8.7) -/

/-- An FP32 lane holds one element, so that a lane's operation is that element's (R157). -/
theorem laneFp_f32 (g : List Val → Val) (xs : List W32) : laneFp 0 0 true g xs = fp32 0 g xs := by
  have hvals : xs.map f32 = xs.map fun x => elemVal 0 false x.toNat := rfl
  simp [laneFp, laneElems, joinElems, fp32, fpElem, hvals]

/-- The product of two FP32 patterns, rounded once. -/
theorem fpMul_eq (a b : W32) :
    fpMul a b = fp32 0 (fun v => mulVal (v.getD 0 (.zero false)) (v.getD 1 (.zero false))) [a, b] := laneFp_f32 ..

/-- Their sum. -/
theorem fpAdd_eq (a b : W32) :
    fpAdd a b = fp32 0 (fun v => addVal (v.getD 0 (.zero false)) (v.getD 1 (.zero false))) [a, b] := laneFp_f32 ..

/-- An element divided by the bag's count of entries. -/
theorem divCount_eq (a : W32) (n : Nat) : divCount a n =
    if n = 0 then 0 else fp32 0 (fun v => quotVal (v.getD 0 (.zero false)) (.fin false n 0)) [a] := by
  rw [divCount, laneFp_f32]
  rfl

/-- A division by the root of a count of zero gives +0. -/
theorem divRootCount_of_count (a : W32) (n : Nat) : (if n = 0 then 0 else divRootCount a n) = divRootCount a n := by
  split
  next h => rw [h]; rfl
  next => rfl

/-! ## A pooling instruction on its Badger (R217) -/

/-- On a B-tile the working registers take the operation's value. -/
theorem poolStep_of_bTile {tile : Nat} (ht : tile < 64) (hb : tileType tile = .bTile) (f : PoolOp) (i : W32) (d : Dev) :
    poolStep tile f i d = modBadger d tile fun b => { b with pool := f i b.pool } := by
  simp [poolStep, ht, hb]

/-- A tile without a Badger has no working registers. -/
theorem poolStep_of_other {tile : Nat} (h : ¬(tile < 64 ∧ tileType tile = .bTile)) (f : PoolOp) (i : W32) (d : Dev) :
    poolStep tile f i d = d := by
  simp [poolStep, h]

/-- A Badger's change leaves the other Badgers as they were. -/
theorem getBadger_modBadger_other (d : Dev) {t u : Nat} (f : Badger → Badger) (h : u ≠ t) :
    getBadger (modBadger d t f) u = getBadger d u := by
  simp [getBadger, tgetD, modBadger, tget_tput_other _ _ _ _ h]

/-- An instruction whose command is `poolStep` of an operation that gives the registers the value `f` has the result `f`. -/
theorem poolResult_of_poolStep {c : Nat → W32 → Instr} {op f : W32 → PoolRegs → PoolRegs}
    (hexec : ∀ tile i s, exec (c tile i) s = act s (running (poolStep tile op i))) (hop : ∀ i r, op i r = f i r) : poolResult c f := by
  intro s tile i hw ht hb
  have ⟨_, _, hstalls⟩ := hw
  refine ⟨_, (hexec tile i s).trans (act_running hw (poolStep_of_bTile ht hb op i s.dev) hstalls), ?_, fun u hu => ?_, rfl⟩
  · rw [getBadger_modBadger, hop]
  · exact getBadger_modBadger_other s.dev _ hu

/-- Settles O43: each of the twelve commands is `poolStep` of its operation, whose elements are read off; |X| is the decoded value
encoded again. -/
theorem poolingInstructions : Obligations.PoolingInstructions := by
  unfold Obligations.PoolingInstructions
  refine ⟨?xmulw, ?xmuli, ?xaddi, ?xmaxi, ?xmini, ?xabs, ?accsum, ?accmax, ?amuli, ?aaddi, ?adivn, ?arsqn, ?other⟩
  case xmulw => exact poolResult_of_poolStep (fun _ _ _ => rfl) fun i r => by simp only [poolXmulw, fpMul_eq]
  case xmuli => exact poolResult_of_poolStep (fun _ _ _ => rfl) fun i r => by simp only [poolXmuli, fpMul_eq]
  case xaddi => exact poolResult_of_poolStep (fun _ _ _ => rfl) fun i r => by simp only [poolXaddi, fpAdd_eq]
  case xmaxi => exact poolResult_of_poolStep (op := poolXmaxi) (fun _ _ _ => rfl) fun _ _ => rfl
  case xmini => exact poolResult_of_poolStep (op := poolXmini) (fun _ _ _ => rfl) fun _ _ => rfl
  case xabs =>
    exact
      poolResult_of_poolStep (op := poolXabs) (fun _ _ _ => rfl) fun _ r => congrArg (fun g => { r with x := r.x.map g }) (funext toF32_abs)
  case accsum => exact poolResult_of_poolStep (op := poolAccsum) (fun _ _ _ => rfl) fun _ _ => rfl
  case accmax => exact poolResult_of_poolStep (op := poolAccmax) (fun _ _ _ => rfl) fun _ _ => rfl
  case amuli => exact poolResult_of_poolStep (fun _ _ _ => rfl) fun i r => by simp only [poolAmuli, fpMul_eq]
  case aaddi => exact poolResult_of_poolStep (fun _ _ _ => rfl) fun i r => by simp only [poolAaddi, fpAdd_eq]
  case adivn => exact poolResult_of_poolStep (fun _ _ _ => rfl) fun i r => by simp only [poolAdivn, divCount_eq]
  case arsqn => exact poolResult_of_poolStep (fun _ _ _ => rfl) fun i r => by simp only [poolArsqn, divRootCount_of_count]
  case other =>
    intro s tile i hw hnone c hc
    have hkept (op : PoolOp) : act s (running (poolStep tile op i)) = .next s :=
      act_running_same hw (poolStep_of_other hnone op i s.dev)
    simp only [List.mem_cons, List.not_mem_nil, or_false] at hc
    rcases hc with rfl | rfl | rfl | rfl | rfl | rfl | rfl | rfl | rfl | rfl | rfl | rfl
    all_goals exact hkept _

end Sys2Proof.PoolingProofs
end

section
/-! SUPPORT. MILL_MATMUL (R111, R112, R126 to R131): reads of memory without stored errors, the chunks of a product added in ascending
order, element by element, the accumulator set that takes them, and from them the statement. -/

namespace Sys2Proof.MillProofs

open Sys2Proof Sys2Proof.Machine Sys2Proof.Safety Sys2Proof.HostProofs Sys2Proof.OrgProofs

/-! ## Reads of memory without stored errors (R343) -/

/-- The fault of an access to a line does not depend on what has been counted. The place of the line stays opaque in this proof: its
definition multiplies by a literal that the kernel must not unfold. -/
theorem lineFault_counted (d : Dev) (c : Counters) : lineFault { d with counters := c } = lineFault d := by
  have hplace (line : Nat) : gddrLocate { d with counters := c } line = gddrLocate d line := rfl
  delta lineFault
  funext line
  rw [hplace]
  cases gddrLocate d line with
  | none => rfl
  | some p => rfl

section
variable {d : Dev} {a n : Nat}

/-- Nor does it whether bytes are stored without error. -/
theorem memClear_counted (h : memClear d a n) (c : Counters) : memClear { d with counters := c } a n := by
  obtain ⟨hown, hfault, hflips⟩ := h
  have hsame : accessFault { d with counters := c } a n true = accessFault d a n true := by
    simp only [accessFault, lineFault_counted]
    rfl
  exact ⟨hown, hsame.trans hfault, hflips⟩

/-- A range of a die's GDDR7 or a tile's SRAM begins in one. -/
theorem regionOf_of_inOwnMemory (h : inOwnMemory d a n = true) :
    (∃ die, regionOf d a = .gddr die) ∨ ∃ tile, regionOf d a = .sram tile := by
  cases hr : regionOf d a with
  | gddr die => exact .inl ⟨die, rfl⟩
  | sram tile => exact .inr ⟨tile, rfl⟩
  | host => simp only [inOwnMemory, rangeRegion, hr] at h; split_ifs at h
  | peer w => simp only [inOwnMemory, rangeRegion, hr] at h; split_ifs at h
  | unmapped => simp only [inOwnMemory, rangeRegion, hr] at h; split_ifs at h

/-- There a read meets no fault that a write does not meet. -/
theorem accessFault_read_eq_write (h : inOwnMemory d a n = true) : accessFault d a n false = accessFault d a n true := by
  unfold accessFault
  unfold inOwnMemory at h
  split at h
  next hr => simp only [hr]
  next hr => simp only [hr]
  next => cases h

/-- A read of bytes stored without error delivers them, and only counts (R337, R343). -/
theorem readMem_of_clear (h : memClear d a n) (who : Option OpName) :
    ∃ c, readMem d who a n = ({ d with counters := c }, .ok (cellsRead d.mem.cells a n)) := by
  obtain ⟨hown, hfault, hflips⟩ := h
  have hread := (accessFault_read_eq_write hown).trans hfault
  obtain ⟨c, hcount⟩ := countAccess_frame d false a n who
  have hcounted : regionOf { d with counters := c } a = regionOf d a := rfl
  refine ⟨c, ?_⟩
  obtain ⟨die, hr⟩ | ⟨tile, hr⟩ := regionOf_of_inOwnMemory hown
  all_goals
    rw [hr] at hcounted
    simp [readMem, hread, hcount, hflips, noteEntries, peerRequests, rawRead, hr, hcounted]

end

/-- And so a read of several ranges. -/
theorem readAll_of_clear {d : Dev} {l : List (Nat × Nat)} (h : ∀ r ∈ l, memClear d r.1 r.2) (who : Option OpName) :
    ∃ c, readAll d who l = ({ d with counters := c }, .ok (l.map fun r => cellsRead d.mem.cells r.1 r.2)) := by
  induction l generalizing d with
  | nil => exact ⟨d.counters, rfl⟩
  | cons r l ih =>
    obtain ⟨c, hfirst⟩ := readMem_of_clear (h r List.mem_cons_self) who
    obtain ⟨c', hrest⟩ := ih (d := { d with counters := c }) fun x hx => memClear_counted (h x (List.mem_cons_of_mem r hx)) c
    refine ⟨c', ?_⟩
    simp only [readAll, hfirst, hrest, List.map_cons]
    rfl

/-! ## The chunks of a side (R126) -/

/-- A chunk of a side that is stored without error is read as memory holds it. -/
theorem readSide_of_clear {d : Dev} {x : Side} {k c : Nat} (n : OpName) (h : sideClear d x k) (hc : c < (k + 31) / 32) :
    ∃ q, readSide d n x k c = ({ d with counters := q }, .ok (sideRows d x k c)) := by
  obtain ⟨q, hread⟩ := readAll_of_clear (h c hc) (some n)
  refine ⟨q, ?_⟩
  simp [readSide, hread, sideRows, Except.map]

/-- So are the chunks of both sides. -/
theorem readSides_of_clear {d : Dev} {a b : Side} {k c : Nat} (n : OpName) (ha : sideClear d a k) (hb : sideClear d b k)
    (hc : c < (k + 31) / 32) :
    ∃ q, readSides n a b k c d = ({ d with counters := q }, .ok (sideRows d a k c, sideRows d b k c)) := by
  obtain ⟨q, hfirst⟩ := readSide_of_clear n ha hc
  obtain ⟨q', hsecond⟩ := readSide_of_clear (d := { d with counters := q }) n (fun c hc r hr => memClear_counted (hb c hc r hr) q) hc
  refine ⟨q', ?_⟩
  simp only [readSides, hfirst, hsecond]
  rfl

/-- A chunk has a row of operands for each row of its side. -/
theorem sideRows_length (d : Dev) (x : Side) (k c : Nat) : (sideRows d x k c).length = x.n := by
  simp [sideRows, chunkOperands]

/-! ## Elements in rows (R111) -/

/-- M rows of N elements. -/
def grid {α : Type} (m n : Nat) (e : Nat → Nat → α) : List (List α) :=
  (List.range m).map fun i => (List.range n).map (e i)

/-- Element (i, j) of the rows. -/
theorem grid_getD {α : Type} {m n i j : Nat} (e : Nat → Nat → α) (dflt : α) (hi : i < m) (hj : j < n) :
    ((grid m n e).getD i []).getD j dflt = e i j := by
  simp [grid, hi, hj]

/-- Element (i, j) of the rows end to end. -/
theorem grid_flatten_getD {α : Type} {m n i j : Nat} (e : Nat → Nat → α) (dflt : α) (hi : i < m) (hj : j < n) :
    (grid m n e).flatten.getD (i * n + j) dflt = e i j := by
  induction m with
  | zero => omega
  | succ m ih =>
    have hlen : (grid m n e).flatten.length = m * n := by simp [grid, Function.comp_def]
    have hsucc : (grid (m + 1) n e).flatten = (grid m n e).flatten ++ (List.range n).map (e m) := by
      simp [grid, List.range_succ]
    rw [hsucc]
    obtain hlt | rfl : i < m ∨ i = m := by omega
    · have hin : i * n + j < m * n := calc
        i * n + j < i * n + n := by omega
        _ = (i + 1) * n := (Nat.succ_mul i n).symm
        _ ≤ m * n := Nat.mul_le_mul_right n hlt
      rw [List.getD_append _ _ _ _ (by omega), ih hlt]
    · rw [List.getD_append_right _ _ _ _ (by omega), hlen]
      simp [hj]

/-- A product's start is a set's own elements under ADD, and none under SET (R129). -/
theorem startElems_eq_grid (s : AccSet) (add : Bool) (m n : Nat) :
    startElems s add m n = grid m n fun i j => if add then some (s.elem i j) else none := rfl

/-- A list of a known length beside a list by place. -/
theorem zip_map_range {α β γ : Type} {l : List α} {m : Nat} (dflt : α) (hl : l.length = m) (g : Nat → β) (f : α × β → γ) :
    (l.zip ((List.range m).map g)).map f = (List.range m).map fun i => f (l.getD i dflt, g i) := by
  apply List.ext_getElem
  · simp [hl]
  · intro i h1 h2
    simp only [List.length_map, List.length_range] at h2
    simp [hl ▸ h2]

section
variable (p : MillPath) (acc : Nat) (fa fb : Fmt)

/-- Element (i, j) after a chunk, of rows `rows.1` and columns `rows.2`, is added to `e i j` (R111). -/
def chunkAdded (rows : ChunkRows × ChunkRows) (e : Nat → Nat → Option Nat) (i j : Nat) : Option Nat :=
  some (addChunk p acc fa fb (e i j) (rows.1.getD i []) (rows.2.getD j []))

/-- A chunk is added to each element of M rows of N. -/
theorem addChunk_grid {m n : Nat} {rows : ChunkRows × ChunkRows} (hm : rows.1.length = m) (hn : rows.2.length = n)
    (e : Nat → Nat → Option Nat) :
    ((rows.1.zip (grid m n e)).map fun row => (rows.2.zip row.2).map fun col => some (addChunk p acc fa fb col.2 row.1 col.1)) =
      grid m n (chunkAdded p acc fa fb rows e) := by
  simp only [grid, zip_map_range [] hm, zip_map_range [] hn]
  rfl

/-- Element (i, j) after chunks `c` to `c + k` − 1 are added, one after another, to `e i j`. -/
def chunksAdded (rows : Nat → ChunkRows × ChunkRows) (c k : Nat) (e : Nat → Nat → Option Nat) (i j : Nat) : Option Nat :=
  (List.range' c k).foldl (fun x c => some (addChunk p acc fa fb x ((rows c).1.getD i []) ((rows c).2.getD j []))) (e i j)

/-- With the first of the chunks added, the others follow. -/
theorem chunksAdded_succ (rows : Nat → ChunkRows × ChunkRows) (c k : Nat) (e : Nat → Nat → Option Nat) :
    chunksAdded p acc fa fb rows c (k + 1) e = chunksAdded p acc fa fb rows (c + 1) k (chunkAdded p acc fa fb (rows c) e) := rfl

/-- All the chunks of a product, from the first on, are its reduction. -/
theorem chunksAdded_zero (rows : Nat → ChunkRows × ChunkRows) (k : Nat) (e : Nat → Nat → Option Nat) :
    chunksAdded p acc fa fb rows 0 k e = fun i j =>
      reduced p acc fa fb k (fun c => (rows c).1.getD i []) (fun c => (rows c).2.getD j []) (e i j) := by
  funext i j
  rw [reduced, List.range_eq_range']
  rfl

/-- Each of chunks 0 to `k` − 1 of both sides is read as `rows` gives it, M rows and N columns, whatever has been counted. -/
def readsRows (rd : Nat → Dev → Dev × Except Byte (ChunkRows × ChunkRows)) (d : Dev) (m n k : Nat)
    (rows : Nat → ChunkRows × ChunkRows) : Prop :=
  ∀ c, c < k → (rows c).1.length = m ∧ (rows c).2.length = n ∧
    ∀ q, ∃ q', rd c { d with counters := q } = ({ d with counters := q' }, .ok (rows c))

/-- The chunks of a product that are read are added in ascending order to each of the M × N elements (R111). -/
theorem productChunks_grid {rd : Nat → Dev → Dev × Except Byte (ChunkRows × ChunkRows)} {d : Dev} {m n k : Nat}
    {rows : Nat → ChunkRows × ChunkRows} (hrd : readsRows rd d m n k rows) {fuel c : Nat} (hk : c + fuel = k) (q : Counters)
    (e : Nat → Nat → Option Nat) :
    ∃ q', productChunks p acc fa fb rd fuel c ({ d with counters := q }, grid m n e) =
      ({ d with counters := q' }, .ok (grid m n (chunksAdded p acc fa fb rows c fuel e))) := by
  induction fuel generalizing c q e with
  | zero => exact ⟨q, rfl⟩
  | succ fuel ih =>
    obtain ⟨hm, hn, hread⟩ := hrd c (by omega)
    obtain ⟨q1, hread⟩ := hread q
    obtain ⟨q', hrest⟩ := ih (c := c + 1) (by omega) q1 (chunkAdded p acc fa fb (rows c) e)
    refine ⟨q', ?_⟩
    simp only [productChunks, hread, addChunk_grid p acc fa fb hm hn, hrest, chunksAdded_succ]

end

/-- The chunks of a matrix product whose operands are stored without error are read as memory holds them. -/
theorem readsRows_of_clear {d : Dev} {a b : Side} {k : Nat} (n : OpName) (ha : sideClear d a k) (hb : sideClear d b k) :
    readsRows (readSides n a b k) d a.n b.n ((k + 31) / 32) fun c => (sideRows d a k c, sideRows d b k c) := by
  intro c hc
  refine ⟨sideRows_length .., sideRows_length .., fun q => ?_⟩
  exact readSides_of_clear (d := { d with counters := q }) n (fun c hc r hr => memClear_counted (ha c hc r hr) q)
    (fun c hc r hr => memClear_counted (hb c hc r hr) q) hc

/-! ## Accumulator sets (R112, R129) -/

/-- Set `x` after a product of M × N elements under SET or ADD, whose element (i, j) is `e i j` (R112, R129). -/
def setAfter (x : AccSet) (add : Bool) (m n : Nat) (e : Nat → Nat → Option Nat) : AccSet :=
  { x with elems := storeElems x add m n (grid m n e), stale := if add then x.stale else false }

/-- The elements that a product stores, row by row. -/
theorem storeElems_eq_grid (x : AccSet) (add : Bool) (m n : Nat) (res : List (List (Option Nat))) :
    storeElems x add m n res = (grid (shapeDims x.shape.toNat).1 (shapeDims x.shape.toNat).2 fun i j =>
      let old := if add then x.elem i j else 0
      BitVec.ofNat 32 (if i < m && j < n then ((res.getD i []).getD j none).getD old else old)).flatten := by
  rw [grid, ← List.flatMap_def]
  rfl

/-- The set takes the product's elements; under ADD it must not have been stale. -/
theorem setTakes_setAfter {x : AccSet} {add : Bool} {m n : Nat} (e : Nat → Nat → Option Nat) (hfresh : add = true → x.stale = false) :
    setTakes x (setAfter x add m n e) add m n e := by
  refine ⟨rfl, ?_, fun i j hi hj => ?_⟩
  · cases add with
    | false => rfl
    | true => exact hfresh rfl
  · have helem : (setAfter x add m n e).elem i j =
        ((storeElems x add m n (grid m n e)).getD (i * (shapeDims x.shape.toNat).2 + j) 0).toNat := rfl
    rw [helem, storeElems_eq_grid, grid_flatten_getD _ _ hi hj]
    by_cases hin : i < m ∧ j < n
    · simp only [hin, grid_getD e none hin.1 hin.2, and_self, decide_true, Bool.and_self, if_true]
    · simp [hin]

/-- The set at a handle is found there. -/
theorem handle_of_setAt {d : Dev} {tile h : Nat} {x : AccSet} (hx : setAt d tile h = some x) : x.handle = h :=
  beq_iff_eq.mp (List.find?_some (p := fun s : AccSet => s.handle == h) hx)

/-- Sets are read from the Mills alone. -/
theorem setAt_congr {d d' : Dev} (h : d'.mills = d.mills) (tile g : Nat) : setAt d' tile g = setAt d tile g := by
  unfold setAt getMill
  rw [h]

section
variable (d : Dev) (tile : Nat) {h : Nat} {y : AccSet} (hy : y.handle = h)
include hy

/-- A set that replaces those under its own handle is found where one of them was. -/
theorem setAt_modSet (g : Nat) :
    setAt (modSet d tile h fun _ => y) tile g = (setAt d tile g).map fun s => if s.handle == h then y else s := by
  have hkey : ((fun s : AccSet => s.handle == g) ∘ fun s => if s.handle == h then y else s) = fun s => s.handle == g := by
    funext s
    by_cases hs : s.handle = h
    · simp [hs, hy]
    · simp [hs]
  rw [setAt, modSet, getMill_modMill, List.find?_map, hkey]
  rfl

/-- At its own handle it is found. -/
theorem setAt_modSet_same {x : AccSet} (hx : setAt d tile h = some x) : setAt (modSet d tile h fun _ => y) tile h = some y := by
  simp [setAt_modSet d tile hy, hx, handle_of_setAt hx]

/-- The sets of the other handles are found as before. -/
theorem setAt_modSet_other {g : Nat} (hg : g ≠ h) : setAt (modSet d tile h fun _ => y) tile g = setAt d tile g := by
  rw [setAt_modSet d tile hy]
  cases hfind : setAt d tile g with
  | none => rfl
  | some x =>
    have hx : x.handle ≠ h := handle_of_setAt hfind ▸ hg
    simp [hx]

end

/-! ## MILL_MATMUL -/

/-- The oldest operation of a unit is carried out by its command. -/
theorem engineOp_of_atEngine {d : Dev} {code : Nat} {n : OpName} {t : Target} {o : Op} (h : atEngine d code n t o)
    (f : Target → Op → Dev → Dev) : engineOp code n f d = f t o d := by
  obtain ⟨hop, htarget, hcode, hsends, holdest⟩ := h
  simp [engineOp, hop, htarget, hcode, hsends, holdest]

/-- The end of an operation leaves the Mills alone. -/
theorem completeOp_mills (d : Dev) (n : OpName) (st : Byte) (detail : Nat) : (completeOp d n st detail).mills = d.mills := by
  obtain ⟨_, _, _, _, _, _, _, _, e⟩ := completeOp_frame d n st detail
  rw [e]

/-- A success-class end of an operation changes the rings. -/
theorem completeOp_stOk_frame (d : Dev) (n : OpName) (detail : Nat) :
    ∃ r, completeOp d n stOk detail = { d with hub.rings := r } := ⟨_, rfl⟩

section
variable {d : Dev} {n : OpName} {o : Op} {tile : Nat} {x : AccSet}

/-- A product that is read without error goes into its set, and the operation goes on from there (R129). -/
theorem productInto_eq {fa fb : Fmt} {add : Bool} {m cols k : Nat} {rd : Nat → Dev → Dev × Except Byte (ChunkRows × ChunkRows)}
    {rows : Nat → ChunkRows × ChunkRows} (hfresh : add = true → x.stale = false) (hrd : readsRows rd d m cols ((k + 31) / 32) rows)
    (after : AccSet → Dev → Dev) :
    ∃ y c, setTakes x y add m cols (fun i j => reduced ((millPath fa fb).getD .float) o.accFmt fa fb ((k + 31) / 32)
        (fun c => (rows c).1.getD i []) (fun c => (rows c).2.getD j []) (if add then some (x.elem i j) else none)) ∧
      productInto tile n o x add m cols k fa fb rd d after =
        after y (modOp (modSet { d with counters := c } tile o.handle fun _ => y) n fun o => { o with wroteSet := k != 0 || !add }) := by
  obtain ⟨q, hchunks⟩ := productChunks_grid ((millPath fa fb).getD .float) o.accFmt fa fb hrd (Nat.zero_add _) d.counters
    fun i j => if add then some (x.elem i j) else none
  obtain ⟨c, hcount⟩ := countEvent_frame { d with counters := q } evMillChunk ((k + 31) / 32) (tileDie tile) (some tile) (some n.ring)
  have hstale : (add && x.stale) = false := by
    cases add with
    | false => rfl
    | true => exact hfresh rfl
  rw [chunksAdded_zero] at hchunks
  refine ⟨_, c, setTakes_setAfter _ hfresh, ?_⟩
  simp only [productInto, hstale, startElems_eq_grid, hchunks, hcount, Bool.false_eq_true, if_false]
  rfl

/-- MILL_MATMUL of an operation that does not drain is its product, and then its end. -/
theorem millMatmul_of_atEngine (hat : atEngine d 0x0101 n (.mill tile) o) (hx : setAt d tile o.handle = some x) :
    millMatmul n d = productInto tile n o x (bit (o.f 74 1) 0) (o.f 64 2) (o.f 66 2) (o.f 68 4) (millSides tile o).1.fmt
      (millSides tile o).2.fmt (readSides n (millSides tile o).1 (millSides tile o).2 (o.f 68 4)) d
      fun s1 d => if o.drains then drainSet d tile n o s1 else completeOp d n stOk := by
  rw [millMatmul, engineOp_of_atEngine hat]
  simp only [Target.tile, Option.bind_some, hx]

/-- A product that is ADDed to a stale set ends its operation (R131). -/
theorem productInto_of_stale {add : Bool} (hadd : add = true) (hstale : x.stale = true) (m cols k : Nat) (fa fb : Fmt)
    (rd : Nat → Dev → Dev × Except Byte (ChunkRows × ChunkRows)) (after : AccSet → Dev → Dev) :
    productInto tile n o x add m cols k fa fb rd d after = completeOp d n stAccStale := by
  simp [productInto, hadd, hstale]

end

/-- What the set's replacement, the counts and the end of the operation leave alone. -/
theorem onlySet_of_modSet {d : Dev} {tile h : Nat} {y : AccSet} (hy : y.handle = h) (c : Counters) (n : OpName) (f : Op → Op) :
    onlySet d (completeOp (modOp (modSet { d with counters := c } tile h fun _ => y) n f) n stOk) tile h := by
  obtain ⟨r, hend⟩ := completeOp_stOk_frame (modOp (modSet { d with counters := c } tile h fun _ => y) n f) n 0
  refine ⟨fun g hg => ?_, fun u hu => ?_, ?_⟩
  · rw [setAt_congr (completeOp_mills ..), setAt_congr (modOp_mills ..), setAt_modSet_other _ _ hy hg]
    exact setAt_congr rfl tile g
  · rw [completeOp_mills, modOp_mills]
    exact tget_tput_other _ _ _ _ hu
  · rw [hend]
    rfl

/-- Settles O37: an ADD on a stale set ends at once; elsewhere each chunk is read as memory holds it and added to every element in
ascending order, and the set takes what results. -/
theorem millMatmul : Obligations.MillMatmul := by
  unfold Obligations.MillMatmul
  intro s n o tile x hw hat hx add k a b path
  have ⟨_, _, hstalls⟩ := hw
  obtain ⟨hget, -⟩ := issuedOp_eq_some hat.1
  have hmatmul := millMatmul_of_atEngine hat hx
  refine ⟨fun hadd hstale => ?stale, fun hfresh ha hb hdrains => ?fresh⟩
  case stale =>
    rw [productInto_of_stale hadd hstale] at hmatmul
    refine ⟨_, act_running hw hmatmul ?_, ended_completeOp hget _ _, ?_⟩
    · rw [completeOp_granary]
      exact hstalls
    · rw [setAt_congr (completeOp_mills ..), hx]
  case fresh =>
    have hrd : readsRows (readSides n a b k) s.dev (o.f 64 2) (o.f 66 2) ((k + 31) / 32) _ := readsRows_of_clear n ha hb
    obtain ⟨y, c, htakes, hproduct⟩ := productInto_eq hfresh hrd _
    rw [hproduct, hdrains, if_neg Bool.false_ne_true] at hmatmul
    have hy : y.handle = o.handle := (congrArg AccSet.handle htakes.1).trans (handle_of_setAt hx)
    have hgot := getOp_modOp (d := modSet { s.dev with counters := c } tile o.handle fun _ => y)
      (f := fun o => { o with wroteSet := k != 0 || !add }) hget fun _ => rfl
    refine ⟨_, act_running hw hmatmul hstalls, ended_completeOp hgot _ _, ⟨y, ?_, htakes⟩, onlySet_of_modSet hy c n _⟩
    rw [setAt_congr (completeOp_mills ..), setAt_congr (modOp_mills ..)]
    exact setAt_modSet_same _ tile hy hx

end Sys2Proof.MillProofs
end

section
/-! SUPPORT. Bytes stored in memory: what a read finds after a write, and the writes of an operation to bytes that are stored without
error (R339, R343, R357). -/

namespace Sys2Proof.StoreProofs

open Sys2Proof Sys2Proof.Machine Sys2Proof.Safety Sys2Proof.HostProofs Sys2Proof.OrgProofs Sys2Proof.MillProofs

/-! ## Tables of bytes -/

/-- After a key is deleted, every other key finds what it found before. -/
theorem tget_tdel_other {α : Type} (t : Table α) {k j : Nat} (h : j ≠ k) : tget (tdel t k) j = tget t j := by
  induction t with
  | nil => rfl
  | cons e r ih =>
    obtain ⟨k', v⟩ := e
    simp only [tdel]
    split
    next hk => simp [tget, ← hk, h]
    next => simp only [tget, ih]

/-- A key below all those of a table finds nothing there. -/
theorem tget_of_cellsAbove {a : Nat} {m : List Host.Cell} (h : cellsAbove a m) : tget m a = none := by
  induction m with
  | nil => rfl
  | cons c r ih =>
    have hlt : a < c.1 := h c List.mem_cons_self
    simp only [tget, if_neg hlt.ne]
    exact ih fun x hx => h x (List.mem_cons_of_mem c hx)

/-- In canonical form a key is listed once, so that it finds nothing after it is deleted. -/
theorem tget_tdel_same {m : List Host.Cell} (k : Nat) (h : cellsWf m = true) : tget (tdel m k) k = none := by
  induction m with
  | nil => rfl
  | cons c r ih =>
    obtain ⟨-, habove, hr⟩ := (cellsWf_cons c r).mp h
    obtain ⟨k', v⟩ := c
    simp only [tdel]
    split
    next hk => rw [hk]; exact tget_of_cellsAbove habove
    next hk => simp only [tget, if_neg hk, ih hr]

section
variable {m : List Host.Cell} (hwf : cellsWf m = true)
include hwf

/-- A byte that is stored is read back, and every other byte is read as before. -/
theorem cellGet_cellPut (a : Nat) (b : Byte) (x : Nat) : cellGet (cellPut m a b) x = if x = a then b else cellGet m x := by
  unfold cellGet cellPut tputD tgetD
  split_ifs with hb hx hx
  · rw [hx, tget_tdel_same a hwf, hb, Option.getD_none]
  · rw [tget_tdel_other m hx]
  · rw [hx, tget_tput_same, Option.getD_some]
  · rw [tget_tput_other m a x b hx]

/-- So are bytes that are stored from an address up. -/
theorem cellGet_cellsWrite (a : Nat) (b : Bytes) (x : Nat) :
    cellGet (cellsWrite m a b) x = if a ≤ x ∧ x < a + b.length then b.getD (x - a) 0 else cellGet m x := by
  induction b generalizing m a with
  | nil => simp [cellsWrite, show ¬(a ≤ x ∧ x < a) by omega]
  | cons y r ih =>
    rw [cellsWrite, ih (cellsWf_cellPut m a y hwf), cellGet_cellPut hwf, List.length_cons]
    obtain hlt | rfl | hgt := Nat.lt_trichotomy x a
    · simp [show ¬ a + 1 ≤ x by omega, show ¬ a ≤ x by omega, hlt.ne]
    · simp
    · have hsub : x - a = x - (a + 1) + 1 := by omega
      simp [hsub, hgt.ne', show a + 1 ≤ x by omega, show a ≤ x by omega, show a + (r.length + 1) = a + 1 + r.length by omega]

end

/-- Bytes are read as they are listed. -/
theorem cellsRead_eq {m : List Host.Cell} {a : Nat} {b : Bytes} (h : ∀ i, i < b.length → cellGet m (a + i) = b.getD i 0) :
    cellsRead m a b.length = b := by
  refine List.ext_getElem (by simp [cellsRead]) fun i _ hi => ?_
  simp [cellsRead, h i hi, hi]

/-- The memories of a plain memory list each byte of SRAM and GDDR7 once. -/
theorem cellsWf_of_plainMemory {d : Dev} (h : plainMemory d) : cellsWf d.mem.cells = true := by
  obtain ⟨hwf, -⟩ := h
  simp only [memoryWf, Bool.and_eq_true] at hwf
  exact hwf.1.1

/-! ## Several writes -/

/-- An address lies among the bytes of a write. -/
abbrev within (w : Nat × Bytes) (x : Nat) : Prop := w.1 ≤ x ∧ x < w.1 + w.2.length

/-- The bytes of memory after several writes, in order. -/
def writeCells (m : List Host.Cell) (l : List (Nat × Bytes)) : List Host.Cell := l.foldl (fun m w => cellsWrite m w.1 w.2) m

section
variable {m : List Host.Cell} {l : List (Nat × Bytes)} (hwf : cellsWf m = true)
include hwf

/-- A byte outside of all the writes is read as before. -/
theorem cellGet_writeCells_outside {x : Nat} (hout : ∀ w ∈ l, ¬ within w x) : cellGet (writeCells m l) x = cellGet m x := by
  induction l generalizing m with
  | nil => rfl
  | cons w l ih =>
    obtain ⟨hw, hl⟩ := List.forall_mem_cons.mp hout
    calc cellGet (writeCells (cellsWrite m w.1 w.2) l) x
      _ = cellGet (cellsWrite m w.1 w.2) x := ih (cellsWf_cellsWrite m w.1 w.2 hwf) hl
      _ = cellGet m x := by rw [cellGet_cellsWrite hwf, if_neg hw]

/-- Of writes that share no byte, each is read back. -/
theorem cellsRead_writeCells (hdisj : l.Pairwise fun w w' => ∀ x, within w x → ¬ within w' x) {w : Nat × Bytes} (hw : w ∈ l) :
    cellsRead (writeCells m l) w.1 w.2.length = w.2 := by
  induction l generalizing m with
  | nil => cases hw
  | cons v l ih =>
    obtain ⟨hv, hl⟩ := List.pairwise_cons.mp hdisj
    have hwf' := cellsWf_cellsWrite m v.1 v.2 hwf
    obtain rfl | hw := List.mem_cons.mp hw
    · refine cellsRead_eq fun i hi => ?_
      have hin : within w (w.1 + i) := ⟨by omega, by omega⟩
      calc cellGet (writeCells (cellsWrite m w.1 w.2) l) (w.1 + i)
        _ = cellGet (cellsWrite m w.1 w.2) (w.1 + i) := cellGet_writeCells_outside hwf' fun w' hw' => hv w' hw' _ hin
        _ = w.2.getD i 0 := by rw [cellGet_cellsWrite hwf, if_pos hin, Nat.add_sub_cancel_left]
    · exact ih hwf' hl hw

end

/-! ## Writes of an operation -/

/-- Nothing has changed but the counters, the operations and the bytes of SRAM and GDDR7, and no word has come to hold an error. -/
def onlyWritten (d d' : Dev) : Prop :=
  ∃ c r m f, d' = { d with counters := c, hub.rings := r, mem.cells := m, mem.flips := f } ∧ f ⊆ d.mem.flips

/-- Two such changes make one. -/
theorem onlyWritten.trans {d d' d'' : Dev} (h : onlyWritten d d') (h' : onlyWritten d' d'') : onlyWritten d d'' := by
  obtain ⟨_, _, _, _, rfl, hf⟩ := h
  obtain ⟨_, _, _, _, rfl, hf'⟩ := h'
  exact ⟨_, _, _, _, rfl, List.Subset.trans hf' hf⟩

/-- It leaves the Granary alone. -/
theorem onlyWritten.granary_eq {d d' : Dev} (h : onlyWritten d d') : d'.granary = d.granary := by
  obtain ⟨_, _, _, _, rfl, -⟩ := h
  rfl

/-- It leaves the Mills alone. -/
theorem onlyWritten.mills_eq {d d' : Dev} (h : onlyWritten d d') : d'.mills = d.mills := by
  obtain ⟨_, _, _, _, rfl, -⟩ := h
  rfl

/-- The fault of an access to a line does not depend on what has been written. The place of the line stays opaque in this proof, as in
`lineFault_counted`. -/
theorem lineFault_of_onlyWritten {d d' : Dev} (h : onlyWritten d d') : lineFault d' = lineFault d := by
  obtain ⟨c, r, m, f, rfl, -⟩ := h
  have hplace (line : Nat) : gddrLocate { d with counters := c, hub.rings := r, mem.cells := m, mem.flips := f } line = gddrLocate d line :=
    rfl
  delta lineFault
  funext line
  rw [hplace]
  cases gddrLocate d line with
  | none => rfl
  | some p => rfl

/-- No range holds an error where it held none. -/
theorem flipsIn_of_subset {d d' : Dev} {a n : Nat} (hf : d'.mem.flips ⊆ d.mem.flips) (h : flipsIn d a n = []) : flipsIn d' a n = [] := by
  unfold flipsIn at h ⊢
  split_ifs at h ⊢
  · rfl
  · simp only [List.map_eq_nil_iff, List.filter_eq_nil_iff] at h ⊢
    exact fun e he => h e (hf he)

/-- Bytes that are stored without error stay so. -/
theorem memClear_of_onlyWritten {d d' : Dev} {a n : Nat} (h : onlyWritten d d') (hclear : memClear d a n) : memClear d' a n := by
  have hline := lineFault_of_onlyWritten h
  obtain ⟨c, r, m, f, rfl, hf⟩ := h
  obtain ⟨hown, hfault, hflips⟩ := hclear
  have hregion : rangeRegion { d with counters := c, hub.rings := r, mem.cells := m, mem.flips := f } a n = rangeRegion d a n := rfl
  refine ⟨hown, ?_, flipsIn_of_subset hf hflips⟩
  unfold accessFault at hfault ⊢
  unfold inOwnMemory at hown
  rw [hregion, hline]
  split at hown
  next hr => rw [hr] at hfault ⊢; exact hfault
  next hr => rw [hr] at hfault ⊢; exact hfault
  next => cases hown

/-- With no Granary that watches writes, bytes that are stored in SRAM or GDDR7 change memory alone. -/
theorem storeBytes_of_own {d : Dev} {a : Nat} (b : Bytes) (hcfg : d.granary.cfg = none)
    (hown : (∃ die, regionOf d a = .gddr die) ∨ (∃ tile, regionOf d a = .sram tile) ∨ regionOf d a = .unmapped) :
    ∃ f, f ⊆ d.mem.flips ∧ storeBytes d a b = { d with mem.cells := cellsWrite d.mem.cells a b, mem.flips := f } := by
  have hnote : noteWrite d a b.length = d := by simp [noteWrite, hcfg]
  refine ⟨d.mem.flips.filter fun e => !(a / 16 ≤ e.1 && e.1 * 16 < a + b.length), List.filter_subset_self _, ?_⟩
  rw [storeBytes, hnote]
  obtain ⟨_, hr⟩ | ⟨_, hr⟩ | hr := hown
  all_goals rw [rawWrite, hr]

/-- A write to bytes stored without error stores them, counts, and notes the output in its operation (R343). -/
theorem writeMem_of_clear {d : Dev} {a : Nat} {b : Bytes} {n : OpName} {o : Op} (hcfg : d.granary.cfg = none)
    (hop : getOp d n = some o) (h : memClear d a b.length) :
    ∃ d' o', writeMem d (some n) a b = (d', none) ∧ onlyWritten d d' ∧ d'.mem.cells = cellsWrite d.mem.cells a b ∧
      getOp d' n = some o' := by
  obtain ⟨hown, hfault, hflips⟩ := h
  obtain ⟨c, hcount⟩ := countAccess_frame d true a b.length (some n)
  have hcounted : regionOf { d with counters := c } a = regionOf d a := rfl
  have hmerged : mergedFlips d a b.length = [] := by rw [mergedFlips, hflips, List.filter_nil]
  have hregion := regionOf_of_inOwnMemory hown
  obtain ⟨f, hf, hstore⟩ := storeBytes_of_own (d := { d with counters := c }) b hcfg (hregion.imp_right .inl)
  refine ⟨modOp (storeBytes { d with counters := c } a b) n fun o => { o with outs := o.outs ++ [(a, b.length)] },
    { o with outs := o.outs ++ [(a, b.length)] }, ?_, ?_, ?_, ?_⟩
  · obtain ⟨die, hr⟩ | ⟨tile, hr⟩ := hregion
    all_goals
      rw [hr] at hcounted
      simp [writeMem, hfault, hcount, noteEntries, peerRequests, hcounted, hr, hmerged]
  · rw [hstore]
    exact ⟨_, _, _, _, rfl, hf⟩
  · rw [modOp_mem, hstore]
  · rw [hstore]
    exact getOp_modOp (d := { d with counters := c, mem.cells := cellsWrite d.mem.cells a b, mem.flips := f }) hop fun _ => rfl

/-- Writes to bytes stored without error all take place, and the operation goes on. -/
theorem writeAll_of_clear {d : Dev} {n : OpName} {o : Op} {l : List (Nat × Bytes)} (hcfg : d.granary.cfg = none)
    (hop : getOp d n = some o) (h : ∀ w ∈ l, memClear d w.1 w.2.length) :
    ∃ d' o', writeAll d (some n) l = (d', none) ∧ onlyWritten d d' ∧ d'.mem.cells = writeCells d.mem.cells l ∧
      getOp d' n = some o' := by
  induction l generalizing d o with
  | nil => exact ⟨d, o, rfl, ⟨_, _, _, _, rfl, List.Subset.refl _⟩, rfl, hop⟩
  | cons w l ih =>
    obtain ⟨hw, hl⟩ := List.forall_mem_cons.mp h
    obtain ⟨d1, o1, hwrite, honly, hcells, hop1⟩ := writeMem_of_clear hcfg hop hw
    obtain ⟨d2, o2, hall, honly', hcells', hop2⟩ :=
      ih (by rw [honly.granary_eq, hcfg]) hop1 fun v hv => memClear_of_onlyWritten honly (hl v hv)
    refine ⟨d2, o2, ?_, honly.trans honly', ?_, hop2⟩
    · simp only [writeAll, hwrite, hall]
    · rw [hcells', hcells]
      rfl

/-- The end of an operation leaves the memories alone. -/
theorem completeOp_mem (d : Dev) (n : OpName) (st : Byte) (detail : Nat) : (completeOp d n st detail).mem = d.mem := by
  obtain ⟨_, _, _, _, _, _, _, _, e⟩ := completeOp_frame d n st detail
  rw [e]

end Sys2Proof.StoreProofs
end

section
/-! SUPPORT. MILL_DRAIN to memory, MILL_RELEASE and the Mill's watchdog (R127, R132, R137, R140, R146): the rows that a drain converts
and where it writes them, the mark of a stale set, and from them the statement. -/

namespace Sys2Proof.DrainProofs

open Sys2Proof Sys2Proof.Machine Sys2Proof.Safety Sys2Proof.HostProofs Sys2Proof.OrgProofs Sys2Proof.MillProofs Sys2Proof.StoreProofs

/-! ## MILL_DRAIN -/

/-- Row `i` of a set, each element converted once (R132). -/
def drainedRow (o : Op) (x : AccSet) (i : Nat) : OutRow :=
  convertRow (fmtOf (o.f 112 2)) (o.f 75 1 % 16) ((List.range (o.f 66 2)).map fun j => elemVal x.fmt.toNat false (x.elem i j))

/-- Where row `i` goes (R127). -/
def drainedAt (o : Op) (i : Nat) : Nat := o.f 80 8 + i * o.f 104 4

/-- The writes of a drain to memory, row by row. -/
def drainWrites (o : Op) (x : AccSet) : List (Nat × Bytes) :=
  (List.range (o.f 64 2)).map fun i => (drainedAt o i, (drainedRow o x i).data)

/-- The saturations of a drain. -/
def drainSat (o : Op) (x : AccSet) : Nat := (List.range (o.f 64 2)).foldl (fun t i => t + (drainedRow o x i).sat) 0

/-- The non-finite inputs of a drain. -/
def drainNonfinite (o : Op) (x : AccSet) : Nat := (List.range (o.f 64 2)).foldl (fun t i => t + (drainedRow o x i).nonfinite) 0

/-- DETAIL of a drain (R137). -/
def drainDetail (o : Op) (x : AccSet) : Nat := min (drainSat o x) 0xFFFFFFFF + 2 ^ 32 * min (drainNonfinite o x) 0xFFFFFFFF

/-- The device before a drain's writes: the drain is counted, and its operation holds its contribution to the census. -/
def drainCounted (d : Dev) (tile : Nat) (n : OpName) (o : Op) (x : AccSet) : Dev :=
  modOp (countEvent d evMillDrain (o.f 64 2 * o.f 66 2) (tileDie tile) (some tile) (some n.ring)) n fun p =>
    { p with census := p.census ++ [{ tensor := o.f 118 2 % 4096, saturated := drainSat o x, nonfinite := drainNonfinite o x }] }

/-- Rows with their numbers. -/
theorem zipIdx_map_range {α : Type} (m : Nat) (g : Nat → α) : ((List.range m).map g).zipIdx = (List.range m).map fun i => (g i, i) := by
  refine List.ext_getElem (by simp) fun i h1 h2 => ?_
  simp

section
variable {d : Dev} {n : OpName} {o : Op} {tile : Nat} {x : AccSet}

/-- A drain without fused operand, to memory and without MX, whose writes take place, completes with its counts in DETAIL. -/
theorem drainSet_of_writes {d' : Dev} (hfuse : o.fuse = 0) (hchute : o.toChute = false) (hmx : (fmtOf (o.f 112 2)).mx = false)
    (hw : writeAll (drainCounted d tile n o x) (some n) (drainWrites o x) = (d', none)) :
    drainSet d tile n o x = completeOp d' n stOk (drainDetail o x) := by
  have hwrites : (((List.range (o.f 64 2)).map (drainedRow o x)).zipIdx.map fun r => (o.f 80 8 + r.2 * o.f 104 4, r.1.data)) =
      drainWrites o x := by
    rw [zipIdx_map_range, List.map_map]
    rfl
  have helement (i j : Nat) (v : Val) : drainElement x.fmt.toNat 0 (x.elem i j) v = elemVal x.fmt.toNat false (x.elem i j) := rfl
  unfold drainCounted drainSat drainNonfinite at hw
  simp only [drainSet, hfuse, hchute, hmx, if_true, Bool.false_eq_true, if_false, helement,
    ← drainedRow.eq_def, hwrites, List.append_nil, List.foldl_map, hw]
  rfl

/-- Rows no longer than OUT_STRIDE share no byte (R127). -/
theorem drainWrites_disjoint (hlen : ∀ i, i < o.f 64 2 → (drainedRow o x i).data.length ≤ o.f 104 4) :
    (drainWrites o x).Pairwise fun w w' => ∀ z, within w z → ¬ within w' z := by
  refine List.pairwise_map.mpr (List.pairwise_lt_range.imp_of_mem fun {i j} hi _ hij z hz hz' => ?_)
  have hrow := hlen i (List.mem_range.mp hi)
  have hnext : (i + 1) * o.f 104 4 ≤ j * o.f 104 4 := Nat.mul_le_mul_right _ hij
  rw [Nat.succ_mul] at hnext
  obtain ⟨-, hend⟩ := hz
  obtain ⟨hstart, -⟩ := hz'
  simp only [drainedAt] at hend hstart
  omega

/-- Row `i` is among the writes. -/
theorem mem_drainWrites {i : Nat} (hi : i < o.f 64 2) : (drainedAt o i, (drainedRow o x i).data) ∈ drainWrites o x :=
  List.mem_map_of_mem (List.mem_range.mpr hi)

/-- What holds of every row holds of every write. -/
theorem forall_drainWrites {p : Nat × Bytes → Prop} (h : ∀ i, i < o.f 64 2 → p (drainedAt o i, (drainedRow o x i).data)) :
    ∀ w ∈ drainWrites o x, p w := by
  intro w hw
  obtain ⟨i, hi, rfl⟩ := List.mem_map.mp hw
  exact h i (List.mem_range.mp hi)

/-- A drain to bytes stored without error writes each row at its place, and changes besides the counters and the operations. -/
theorem drainSet_of_clear (hcfg : d.granary.cfg = none) (hop : getOp d n = some o) (hfuse : o.fuse = 0) (hchute : o.toChute = false)
    (hmx : (fmtOf (o.f 112 2)).mx = false) (hclear : ∀ i, i < o.f 64 2 → memClear d (drainedAt o i) (drainedRow o x i).data.length) :
    ∃ d' o', drainSet d tile n o x = completeOp d' n stOk (drainDetail o x) ∧ onlyWritten d d' ∧
      d'.mem.cells = writeCells d.mem.cells (drainWrites o x) ∧ getOp d' n = some o' := by
  have hcounted : onlyWritten d (drainCounted d tile n o x) := ⟨_, _, _, _, rfl, List.Subset.refl _⟩
  have hget : getOp (drainCounted d tile n o x) n = some _ :=
    getOp_modOp (d := countEvent d evMillDrain (o.f 64 2 * o.f 66 2) (tileDie tile) (some tile) (some n.ring)) hop fun _ => rfl
  obtain ⟨d', o', hall, honly, hcells, hop'⟩ := writeAll_of_clear (d := drainCounted d tile n o x) hcfg hget
    (forall_drainWrites fun i hi => memClear_of_onlyWritten hcounted (hclear i hi))
  exact ⟨d', o', drainSet_of_writes hfuse hchute hmx hall, hcounted.trans honly, hcells, hop'⟩

/-- MILL_DRAIN of a set that is not stale is its drain. -/
theorem millDrain_of_atEngine (hat : atEngine d 0x0102 n (.mill tile) o) (hx : setAt d tile o.handle = some x) (hfresh : x.stale = false) :
    millDrain n d = drainSet d tile n o x := by
  rw [millDrain, engineOp_of_atEngine hat]
  simp [Target.tile, hx, hfresh]

end

/-- MILL_DRAIN to bytes stored without error. -/
theorem exec_millDrain {s : State} {n : OpName} {o : Op} {tile : Nat} {x : AccSet} (hw : atWork s) (hplain : plainMemory s.dev)
    (hat : atEngine s.dev 0x0102 n (.mill tile) o) (hx : setAt s.dev tile o.handle = some x) (hfresh : x.stale = false)
    (hfuse : o.fuse = 0) (hchute : o.toChute = false) (hmx : (fmtOf (o.f 112 2)).mx = false)
    (hrows : ∀ i, i < o.f 64 2 → (drainedRow o x i).data.length ≤ o.f 104 4 ∧
      memClear s.dev (drainedAt o i) (drainedRow o x i).data.length) :
    acts (.millDrain n.ring n.seq) s fun d => ended d n 0x00 (drainDetail o x) ∧
      (∀ i, i < o.f 64 2 → cellsRead d.mem.cells (drainedAt o i) (drainedRow o x i).data.length = (drainedRow o x i).data) ∧
      (∀ z, (∀ i, i < o.f 64 2 → ¬(drainedAt o i ≤ z ∧ z < drainedAt o i + (drainedRow o x i).data.length)) →
        byteAt d z = byteAt s.dev z) ∧
      d.mills = s.dev.mills := by
  have ⟨_, _, hstalls⟩ := hw
  have hwf := cellsWf_of_plainMemory hplain
  obtain ⟨-, hcfg⟩ := hplain
  obtain ⟨hget, -⟩ := issuedOp_eq_some hat.1
  obtain ⟨d', o', hdrain, honly, hcells, hget'⟩ :=
    drainSet_of_clear (tile := tile) (x := x) hcfg hget hfuse hchute hmx fun i hi => (hrows i hi).2
  refine ⟨_, act_running hw ((millDrain_of_atEngine hat hx hfresh).trans hdrain) ?_, ended_completeOp hget' _ _,
    fun i hi => ?_, fun z hz => ?_, ?_⟩
  · rw [completeOp_granary, honly.granary_eq]
    exact hstalls
  · rw [completeOp_mem, hcells]
    exact cellsRead_writeCells hwf (drainWrites_disjoint fun i hi => (hrows i hi).1) (mem_drainWrites hi)
  · rw [byteAt, completeOp_mem, hcells]
    exact cellGet_writeCells_outside hwf (forall_drainWrites hz)
  · rw [completeOp_mills, honly.mills_eq]

/-! ## MILL_RELEASE -/

/-- MILL_RELEASE completes (R140). -/
theorem exec_millRelease {s : State} {n : OpName} {o : Op} {tile : Nat} (hw : atWork s) (hat : atEngine s.dev 0x0103 n (.mill tile) o) :
    acts (.millRelease n.ring n.seq) s fun d => ended d n 0x00 0 ∧ { d with hub.rings := s.dev.hub.rings } = s.dev := by
  have ⟨_, _, hstalls⟩ := hw
  obtain ⟨hget, -⟩ := issuedOp_eq_some hat.1
  exact ⟨_, act_running hw (engineOp_of_atEngine hat fun _ _ d => completeOp d n stOk) hstalls, ended_completeOp hget _ _, rfl⟩

/-! ## The watchdog -/

section
variable {d : Dev} {n : OpName} {o : Op} {tile : Nat}

/-- A set's mark is what is found at its handle. -/
theorem setAt_staleSet (h : Nat) : setAt (staleSet d tile h) tile h = (setAt d tile h).map fun x => { x with stale := true } := by
  have hkey : ((fun x : AccSet => x.handle == h) ∘ fun x => if x.handle == h then { x with stale := true } else x) =
      fun x => x.handle == h := by
    funext x
    simp only [Function.comp_apply]
    split <;> rfl
  have hfind : setAt (staleSet d tile h) tile h =
      (setAt d tile h).map fun x => if x.handle == h then { x with stale := true } else x := by
    rw [setAt, staleSet, modSet, getMill_modMill, List.find?_map, hkey]
    rfl
  rw [hfind]
  refine Option.map_congr fun x hx => ?_
  rw [handle_of_setAt hx, beq_self_eq_true, if_pos rfl]

/-- A failed operation's set is stale where the operation has written it (R131, R145). -/
theorem spoilSet_eq (hop : getOp d n = some o) : spoilSet d tile n = if o.wroteSet then staleSet d tile o.handle else d := by
  simp only [spoilSet, hop]

/-- So it is found. -/
theorem setAt_spoilSet {x : AccSet} (hop : getOp d n = some o) (hx : setAt d tile o.handle = some x) :
    setAt (spoilSet d tile n) tile o.handle = some { x with stale := x.stale || o.wroteSet } := by
  rw [spoilSet_eq hop]
  cases o.wroteSet with
  | true => rw [if_pos rfl, setAt_staleSet, hx, Option.map_some, Bool.or_true]
  | false => rw [if_neg Bool.false_ne_true, hx, Bool.or_false]

/-- The mark changes the Mills alone. -/
theorem spoilSet_frame (d : Dev) (tile : Nat) (n : OpName) : ∃ m, spoilSet d tile n = { d with mills := m } := by
  unfold spoilSet
  split
  · exact ⟨_, rfl⟩
  · split
    · exact ⟨_, rfl⟩
    · exact ⟨_, rfl⟩

/-- The watchdog ends an operation whose limit has passed without progress (R146). -/
theorem millWatchdogExpiry_of_issued (hop : issuedOp d n = some o) (hring : ringTarget d n.ring = some (.mill tile))
    (hsends : o.sends = []) :
    millWatchdogExpiry n d =
      if o.progressAt + (getMill d tile).limit.toNat * 65536 ≤ engineCycles d (.mill tile) then
        completeOp (spoilSet d tile n) n stEngineTimeout
      else d := by
  simp only [millWatchdogExpiry, millLimit, hop, hring, hsends, List.isEmpty_nil, Bool.true_and]
  exact if_congr decide_eq_true_iff rfl rfl

end

/-- MILL_WATCHDOG_EXPIRY once the limit has passed. -/
theorem exec_millWatchdogExpiry_reached {s : State} {n : OpName} {o : Op} {tile : Nat} (hw : atWork s) (hop : issuedOp s.dev n = some o)
    (heq : millWatchdogExpiry n s.dev = completeOp (spoilSet s.dev tile n) n stEngineTimeout) :
    acts (.millWatchdogExpiry n.ring n.seq) s fun d => ended d n 0x58 0 ∧ d.mem = s.dev.mem ∧
      ∀ x, setAt s.dev tile o.handle = some x → setAt d tile o.handle = some { x with stale := x.stale || o.wroteSet } := by
  have ⟨_, _, hstalls⟩ := hw
  obtain ⟨hget, -⟩ := issuedOp_eq_some hop
  obtain ⟨m, hspoil⟩ := spoilSet_frame s.dev tile n
  have hget' : getOp (spoilSet s.dev tile n) n = some o := by
    rw [hspoil]
    exact hget
  refine ⟨_, act_running hw heq ?_, ended_completeOp hget' _ _, ?_, fun x hx => ?_⟩
  · rw [completeOp_granary, hspoil]
    exact hstalls
  · rw [completeOp_mem, hspoil]
  · rw [setAt_congr (completeOp_mills ..)]
    exact setAt_spoilSet hget hx

/-! ## The statement -/

/-- Settles O38: a drain's rows are written to disjoint places in memory without stored errors; the release and the watchdog are one
equation each. -/
theorem millDrainReleaseAndWatchdog : Obligations.MillDrainReleaseAndWatchdog := by
  unfold Obligations.MillDrainReleaseAndWatchdog
  refine ⟨fun s n o tile x hw hplain hat hx hfresh hfuse hchute hmx hrows =>
      exec_millDrain hw hplain hat hx hfresh hfuse hchute hmx hrows,
    fun s n o tile hw hat => exec_millRelease hw hat,
    fun s n o tile hw hop hring hsends => ⟨fun hlimit => ?reached, fun hlimit => ?before⟩⟩
  case reached =>
    exact exec_millWatchdogExpiry_reached hw hop ((millWatchdogExpiry_of_issued hop hring hsends).trans (if_pos hlimit))
  case before =>
    exact act_running_same hw ((millWatchdogExpiry_of_issued hop hring hsends).trans (if_neg (Nat.not_le.mpr hlimit)))

end Sys2Proof.DrainProofs
end

section
/-! SUPPORT. ACCRD, CHTAKE and CHSEND (R142, R173 to R175): how a Loom issues the instruction at its PC and goes on (R178, R186), what
the register files hold after a write, the read and the sending of bytes in SRAM, and from them the statement. -/

namespace Sys2Proof.LoomProofs

open Sys2Proof Sys2Proof.Machine Sys2Proof.Safety Sys2Proof.HostProofs Sys2Proof.OrgProofs Sys2Proof.StoreProofs

/-! ## The issue of an instruction (R178, R185, R186) -/

section
variable {d : Dev} {tile eng : Nat} {n : OpName} {o : Op} {op : LoomOp} {f : LoomFields}

/-- An instruction that stands at the PC is fetched as it stands there, and issues. -/
theorem issueLoom_of_atPc (hex : loomExists tile eng = true) (hrun : loomRunning d tile eng = some (n, o)) (hpc : atPc d tile eng o op f)
    (haccept : acceptLoom (getLoom d tile eng).length { op := op, f := f } = true) (body : LoomBody) :
    issueLoom op body tile eng f d = issueAt { tile := tile, eng := eng, op := n } body f d := by
  obtain ⟨img, himg, hat⟩ := Option.any_eq_true _ _ |>.mp hpc
  simp only [Bool.and_eq_true, beq_iff_eq, Option.isNone_iff_eq_none] at hat
  obtain ⟨hdecode, hclean⟩ := hat
  have hfetched : fetched d { tile := tile, eng := eng, op := n } img = (d, some { op := op, f := f }) := by
    have hword : (if (getLoom d tile eng).waitFrom.isSome then (d, some (img.instrs.getD (getLoom d tile eng).pc 0))
        else fetchLoom d tile eng img (getLoom d tile eng).pc n.ring) = (d, some (img.instrs.getD (getLoom d tile eng).pc 0)) := by
      simp [fetchLoom, hclean]
    simp only [fetched, hword, Option.bind_some, hdecode, Option.filter_some, haccept, if_true]
  simp only [issueLoom, hex, standing?, hrun, himg, Option.map_some, hfetched, if_true]

/-- A count of an instruction that no wait came before changes the event counters. -/
theorem countIssue_of_no_wait {d : Dev} {a : LoomAt} (h : (getLoom d a.tile a.eng).waitFrom = none) :
    ∃ c, countIssue d a = { d with counters := c } := by
  obtain ⟨c, hc⟩ := countEvent_frame d evLoomIssue 1 (tileDie a.tile) (some a.tile) (some a.op.ring)
  have hwait : (getLoom { d with counters := c } a.tile a.eng).waitFrom = none := h
  refine ⟨c, ?_⟩
  simp only [countIssue, hc, endWait, hwait]

/-- The end of a wait changes the event counters and the Looms; its own Loom keeps its scalar registers and no longer waits. -/
theorem endWait_frame (d : Dev) (a : LoomAt) :
    ∃ c l, endWait d a = { d with counters := c, looms := l } ∧ (getLoom (endWait d a) a.tile a.eng).waitFrom = none ∧
      (getLoom (endWait d a) a.tile a.eng).s = (getLoom d a.tile a.eng).s := by
  unfold endWait
  dsimp only
  split
  next hwait => exact ⟨_, _, rfl, hwait, rfl⟩
  next =>
    refine ⟨_, _, rfl, ?_, ?_⟩
    · rw [getLoom_congr (countEvent_looms ..), getLoom_modLoom]
    · rw [getLoom_congr (countEvent_looms ..), getLoom_modLoom]

/-- So does the count of an instruction. -/
theorem countIssue_frame (d : Dev) (a : LoomAt) :
    ∃ c l, countIssue d a = { d with counters := c, looms := l } ∧ (getLoom (countIssue d a) a.tile a.eng).waitFrom = none ∧
      (getLoom (countIssue d a) a.tile a.eng).s = (getLoom d a.tile a.eng).s := by
  obtain ⟨c', hc⟩ := countEvent_frame d evLoomIssue 1 (tileDie a.tile) (some a.tile) (some a.op.ring)
  obtain ⟨c, l, hend, hwait, hs⟩ := endWait_frame { d with counters := c' } a
  rw [countIssue, hc]
  exact ⟨c, l, hend, hwait, hs⟩

/-- The device after an instruction that leaves it as `d` and goes on. -/
def nextInstr (d : Dev) (a : LoomAt) : Dev := afterInstr (countIssue d a) a .next

/-- An instruction whose body goes on does. -/
theorem issueAt_of_next {d' : Dev} {a : LoomAt} {body : LoomBody} (h : body a f d = (d', .next)) : issueAt a body f d = nextInstr d' a := by
  simp only [issueAt, h]
  rfl

/-- What goes on after an instruction leaves the chutes, the memories and the Granary alone; its Loom keeps its scalar registers and no
longer waits. -/
theorem nextInstr_frame (d : Dev) (a : LoomAt) :
    (nextInstr d a).chutes = d.chutes ∧ (nextInstr d a).mem = d.mem ∧ (nextInstr d a).granary = d.granary ∧
      (getLoom (nextInstr d a) a.tile a.eng).waitFrom = none ∧
      (getLoom (nextInstr d a) a.tile a.eng).s = (getLoom d a.tile a.eng).s := by
  obtain ⟨c, l, hcount, hwait, hs⟩ := countIssue_frame d a
  unfold nextInstr afterInstr
  dsimp only
  split
  · refine ⟨?_, ?_, ?_, ?_, ?_⟩
    · rw [modLoom_chutes, hcount]
    · rw [modLoom_mem, hcount]
    · rw [modLoom_granary, hcount]
    · rw [getLoom_modLoom, hwait]
    · rw [getLoom_modLoom, hs]
  · refine ⟨?_, ?_, ?_, ?_, ?_⟩
    · rw [endLoom, completeOp_chutes, modLoom_chutes, hcount]
    · rw [endLoom, completeOp_mem, modLoom_mem, hcount]
    · rw [endLoom, completeOp_granary, modLoom_granary, hcount]
    · rw [endLoom, getLoom_congr (completeOp_looms ..), getLoom_modLoom]
    · rw [endLoom, getLoom_congr (completeOp_looms ..), getLoom_modLoom, hs]

/-- An instruction that changes its Loom alone, outside a wait, goes on to the next one, or ends the operation past the last. -/
theorem loomGoesOn_nextInstr (hop : getOp d n = some o) {g : Loom → Loom} (hwait : (g (getLoom d tile eng)).waitFrom = none) :
    loomGoesOn d (nextInstr (modLoom d tile eng g) { tile := tile, eng := eng, op := n }) tile eng n (g (getLoom d tile eng)) := by
  have hloom := getLoom_modLoom d tile eng g
  obtain ⟨c, hcount⟩ := countIssue_of_no_wait (d := modLoom d tile eng g) (a := { tile := tile, eng := eng, op := n })
    (by rw [hloom]; exact hwait)
  have hcounted : getLoom { modLoom d tile eng g with counters := c } tile eng = g (getLoom d tile eng) := hloom
  have hother : otherLooms d (modLoom { modLoom d tile eng g with counters := c } tile eng fun l => { l with pc := l.pc + 1 }) tile eng :=
    fun k hk => (otherLooms_modLoom _ tile eng _ k hk).trans (otherLooms_modLoom d tile eng g k hk)
  unfold nextInstr
  rw [hcount]
  simp only [afterInstr, hcounted, loomGoesOnIn]
  split
  · refine ⟨hother, ?_, rfl⟩
    rw [getLoom_modLoom, hcounted]
  · obtain ⟨hend, -, hlooms⟩ := endLoom_ended (d := { modLoom d tile eng g with counters := c }) tile eng hop stProgramFault
      (((g (getLoom d tile eng)).length - 1) % 65536 + 0x0C * 65536)
    refine ⟨fun k hk => (hlooms k hk).trans (otherLooms_modLoom d tile eng g k hk), ?_, hend⟩
    rw [endLoom, getLoom_congr (completeOp_looms ..), getLoom_modLoom, hcounted]

end

/-! ## Register files (Tables 6.1 and 6.6) -/

/-- A scalar register that is written holds what was written, and every other one what it held. -/
theorem sreg_setS {l : Loom} {i : BitVec 6} (x : W64) (hlen : l.s.length = 32) (hi : i.toNat < 32) (hne : i ≠ 0) (j : BitVec 6) :
    (l.setS i x).sreg j = if j = i then x else l.sreg j := by
  rw [Loom.setS, if_neg hne]
  unfold Loom.sreg
  split_ifs with hj0 hji hji
  · exact absurd (hji.symm.trans hj0) hne
  · rfl
  · rw [hji]
    simp [hlen, hi]
  · have hsub : i.toNat ≠ j.toNat := fun h => hji (BitVec.eq_of_toNat_eq h.symm)
    simp [List.getD_eq_getElem?_getD, List.getElem?_set_ne hsub]

/-- Scalar registers are read from their file alone. -/
theorem sreg_congr {l l' : Loom} (h : l'.s = l.s) (i : BitVec 6) : l'.sreg i = l.sreg i := by
  unfold Loom.sreg
  rw [h]

/-- The lanes of a merge: the new ones where the mask has ones, the old ones elsewhere. -/
theorem mergeLanes_getD {old new : Lanes} {k : Nat} (m : BitVec 256) (hold : k < old.length) (hnew : k < new.length) :
    (mergeLanes m old new).getD k 0 = if m.getLsbD k then new.getD k 0 else old.getD k 0 := by
  simp [mergeLanes, hold, hnew]

/-- A vector register whose active lanes are written. -/
theorem vectorSet_putV {l : Loom} (hwhole : filesWhole l) (f : LoomFields) (val : Nat → W32) :
    vectorSet l (l.putV f ((List.range 256).map val)) f.d fun k => if isActive l f k then val k else lane l f.d k := by
  obtain ⟨-, -, hregs, hlanes⟩ := hwhole
  have hlt (i : BitVec 6) : i.toNat < l.v.length := hregs ▸ i.isLt
  refine ⟨rfl, fun j hj => ?_, fun k hk => ?_⟩
  · have hsub : f.d.toNat ≠ j.toNat := fun h => hj (BitVec.eq_of_toNat_eq h.symm)
    simp [Loom.putV, Loom.setV, Loom.vreg, List.getD_eq_getElem?_getD, List.getElem?_set_ne hsub]
  · have hsame : (l.putV f ((List.range 256).map val)).vreg f.d = mergeLanes (l.active f) (l.vreg f.d) ((List.range 256).map val) := by
      simp [Loom.putV, Loom.setV, Loom.vreg, hlt]
    have hold : (l.vreg f.d).length = 256 := by
      have hmem : l.vreg f.d ∈ l.v := by
        rw [Loom.vreg, List.getD_eq_getElem _ _ (hlt f.d)]
        exact List.getElem_mem _
      exact hlanes _ hmem
    rw [lane, hsame, mergeLanes_getD _ (hold ▸ hk) (by simpa using hk)]
    simp [hk]

/-! ## ACCRD (R142, R173) -/

section
variable {d : Dev} {tile eng : Nat} {n : OpName} {o : Op} {f : LoomFields}

/-- Element `k` of the part of a set's row that ACCRD reads, as a lane. -/
def accrdLane (x : AccSet) (i c k : Nat) : W32 :=
  if x.fmt = 1 ∨ x.fmt = 2 then toF32 (elemVal x.fmt.toNat false (x.elem i (256 * c + k))) else BitVec.ofNat 32 (x.elem i (256 * c + k))

/-- ACCRD of a declared set writes the active lanes of D. -/
theorem loomAccrd_of_set {x : AccSet} (hop : getOp d n = some o) (hdeclared : bit (o.f (36 + f.c.toNat) 1) 7 = true)
    (hset : setAt d tile (o.f (36 + f.c.toNat) 1 % 8) = some x)
    (hrow : ((getLoom d tile eng).sreg f.a).toNat < (shapeDims x.shape.toNat).1)
    (hcol : 256 * ((getLoom d tile eng).sreg f.b).toNat + 256 ≤ (shapeDims x.shape.toNat).2) :
    loomAccrd { tile := tile, eng := eng, op := n } f d =
      (modLoom d tile eng fun l => l.putV f ((List.range 256).map
        (accrdLane x ((getLoom d tile eng).sreg f.a).toNat ((getLoom d tile eng).sreg f.b).toNat)), .next) := by
  have hin : (decide ((shapeDims x.shape.toNat).1 ≤ ((getLoom d tile eng).sreg f.a).toNat) ||
      decide ((shapeDims x.shape.toNat).2 / 256 ≤ ((getLoom d tile eng).sreg f.b).toNat)) = false := by
    simp only [Bool.or_eq_false_iff, decide_eq_false_iff_not]
    omega
  have hlane : accrdLane x = fun i c k => if (x.fmt = 1 || x.fmt = 2) = true then toF32 (elemVal x.fmt.toNat false (x.elem i (256 * c + k)))
      else BitVec.ofNat 32 (x.elem i (256 * c + k)) := by
    funext i c k
    simp [accrdLane]
  simp only [loomAccrd, hop, Option.map_some, Option.getD_some, hdeclared, hset, hin, Bool.false_eq_true, if_false, hlane]

end

/-- ACCRD at the PC. -/
theorem exec_accrd {s : State} {tile eng : Nat} {n : OpName} {o : Op} {f : LoomFields} {x : AccSet}
    (hready : loomReady s tile eng n o .accrd f) (hdeclared : bit (o.f (36 + f.c.toNat) 1) 7 = true)
    (hset : setAt s.dev tile (o.f (36 + f.c.toNat) 1 % 8) = some x)
    (hrow : ((getLoom s.dev tile eng).sreg f.a).toNat < (shapeDims x.shape.toNat).1)
    (hcol : 256 * ((getLoom s.dev tile eng).sreg f.b).toNat + 256 ≤ (shapeDims x.shape.toNat).2) :
    acts (.accrd tile eng f) s fun d => ∃ l,
      vectorSet (getLoom s.dev tile eng) l f.d (fun k => if isActive (getLoom s.dev tile eng) f k then
        accrdLane x ((getLoom s.dev tile eng).sreg f.a).toNat ((getLoom s.dev tile eng).sreg f.b).toNat k
        else lane (getLoom s.dev tile eng) f.d k) ∧ loomGoesOn s.dev d tile eng n l := by
  obtain ⟨hw, hex, hrun, hpc, hwhole, hwait, haccept⟩ := hready
  have ⟨_, _, hstalls⟩ := hw
  obtain ⟨hget, -⟩ := issuedOp_eq_some (issuedOp_of_loomRunning hrun)
  have hissue := (issueLoom_of_atPc hex hrun hpc haccept loomAccrd).trans
    (issueAt_of_next (loomAccrd_of_set hget hdeclared hset hrow hcol))
  obtain ⟨-, -, hgranary, -⟩ := nextInstr_frame (modLoom s.dev tile eng fun l => l.putV f ((List.range 256).map
    (accrdLane x ((getLoom s.dev tile eng).sreg f.a).toNat ((getLoom s.dev tile eng).sreg f.b).toNat))) { tile := tile, eng := eng, op := n }
  refine ⟨_, act_running hw hissue ?_, _, vectorSet_putV hwhole f _, loomGoesOn_nextInstr hget hwait⟩
  rw [hgranary]
  exact hstalls

/-! ## CHTAKE (R174) -/

/-- The device with an entry granted and taken, and counted among those that the operation has taken. -/
def afterTake (d : Dev) (a : LoomAt) (q slot j : Nat) : Dev :=
  modLoom (takeEntry (grantTake d a (16 * a.tile + q)) a.tile q slot a.op) a.tile a.eng fun l => { l with taken := modAt l.taken j (· + 1) }

section
variable {d : Dev} {tile eng : Nat} {n : OpName} {o : Op} {f : LoomFields} {c : Chute} {x : Entry}

/-- CHTAKE of an entry that is granted takes it and writes its offsets to sD. -/
theorem loomChtake_of_granted (hop : getOp d n = some o) (hbound : bit (o.f (40 + f.imm.toNat % 4) 1) 7 = true)
    (hchute : getChute d tile (o.f (40 + f.imm.toNat % 4) 1 % 16) = some c)
    (hdepth : (getLoom d tile eng).taken.getD (f.imm.toNat % 4) 0 < c.depth) (hentry : c.takeable n.ring = some x)
    (hclean : x.transit = false)
    (hgrant : takeGranted d { tile := tile, eng := eng, op := n } (16 * tile + o.f (40 + f.imm.toNat % 4) 1 % 16) c = true) :
    loomChtake { tile := tile, eng := eng, op := n } f d =
      (modLoom (afterTake d { tile := tile, eng := eng, op := n } (o.f (40 + f.imm.toNat % 4) 1 % 16) x.slot (f.imm.toNat % 4)) tile eng
        fun l => l.setS f.d (BitVec.ofNat 64 (c.slotOffset x.slot + 2 ^ 32 * c.headerOffset x.slot)), .next) := by
  simp only [loomChtake, hop, hbound, hchute, if_neg (Nat.not_le.mpr hdepth), hentry, hgrant, hclean, Bool.not_true, Bool.false_eq_true,
    if_false]
  rfl

end

/-- A load accepts a CHTAKE whose D is one of s1 to s31 (R154). -/
theorem dest_of_acceptLoom_chtake {len : Nat} {f : LoomFields} (h : acceptLoom len { op := .chtake, f := f } = true) :
    f.d.toNat < 32 ∧ f.d ≠ 0 := by
  simp only [acceptLoom, Bool.and_eq_true] at h
  obtain ⟨⟨⟨⟨⟨⟨⟨⟨_, hd⟩, _⟩, _⟩, _⟩, _⟩, _⟩, _⟩, _⟩ := h
  have hrole : (decide (f.d.toNat < 32) && f.d != 0) = true := hd
  simpa using hrole

/-- CHTAKE at the PC, of an entry that is granted. -/
theorem exec_chtake {s : State} {tile eng : Nat} {n : OpName} {o : Op} {f : LoomFields} {c : Chute} {x : Entry}
    (hruns : loomRuns s tile eng n o .chtake f) (hbound : bit (o.f (40 + f.imm.toNat % 4) 1) 7 = true)
    (hchute : getChute s.dev tile (o.f (40 + f.imm.toNat % 4) 1 % 16) = some c)
    (hdepth : (getLoom s.dev tile eng).taken.getD (f.imm.toNat % 4) 0 < c.depth) (hentry : c.takeable n.ring = some x)
    (hclean : x.transit = false)
    (hgrant : takeGranted s.dev { tile := tile, eng := eng, op := n } (16 * tile + o.f (40 + f.imm.toNat % 4) 1 % 16) c = true) :
    acts (.chtake tile eng f) s fun d =>
      (getLoom d tile eng).sreg f.d = BitVec.ofNat 64 (c.slotOffset x.slot + 2 ^ 32 * c.headerOffset x.slot) ∧
      (getLoom d tile eng).waitFrom = none ∧
      getChute d tile (o.f (40 + f.imm.toNat % 4) 1 % 16) = some { c with
        entries := c.entries.map fun y => if y.slot = x.slot then { y with st := .taken n } else y } ∧
      ∀ r, r ≠ f.d → (getLoom d tile eng).sreg r = (getLoom s.dev tile eng).sreg r := by
  obtain ⟨hw, hex, hrun, hpc, ⟨hlen, -⟩, haccept⟩ := hruns
  have ⟨_, _, hstalls⟩ := hw
  obtain ⟨hget, -⟩ := issuedOp_eq_some (issuedOp_of_loomRunning hrun)
  obtain ⟨hd32, hd0⟩ := dest_of_acceptLoom_chtake haccept
  have hissue := (issueLoom_of_atPc hex hrun hpc haccept loomChtake).trans
    (issueAt_of_next (loomChtake_of_granted hget hbound hchute hdepth hentry hclean hgrant))
  generalize hq : o.f (40 + f.imm.toNat % 4) 1 % 16 = q at *
  generalize hv : BitVec.ofNat 64 (c.slotOffset x.slot + 2 ^ 32 * c.headerOffset x.slot) = v at *
  generalize hd1 : afterTake s.dev { tile := tile, eng := eng, op := n } q x.slot (f.imm.toNat % 4) = d1 at *
  have hs1 : (getLoom d1 tile eng).s = (getLoom s.dev tile eng).s := by
    rw [← hd1, afterTake, getLoom_modLoom]
    rfl
  have hchute1 : getChute d1 tile q = some { c with
      entries := c.entries.map fun y => if y.slot = x.slot then { y with st := .taken n } else y } := by
    rw [← hd1]
    show tget (tmod s.dev.chutes (16 * tile + q) _) _ = _
    rw [tget_tmod_same, show tget s.dev.chutes (16 * tile + q) = some c from hchute, Option.map_some]
  have hgranary1 : d1.granary = s.dev.granary := by
    rw [← hd1]
    rfl
  obtain ⟨hchutes, -, hgranary, hwait, hs⟩ :=
    nextInstr_frame (modLoom d1 tile eng fun l => l.setS f.d v) { tile := tile, eng := eng, op := n }
  have hsreg (r : BitVec 6) : (getLoom (nextInstr (modLoom d1 tile eng fun l => l.setS f.d v)
      { tile := tile, eng := eng, op := n }) tile eng).sreg r = if r = f.d then v else (getLoom s.dev tile eng).sreg r := by
    rw [sreg_congr hs, getLoom_modLoom, sreg_setS v (hs1 ▸ hlen) hd32 hd0, sreg_congr hs1]
  refine ⟨_, act_running hw hissue ?_, ?_, hwait, ?_, fun r hr => ?_⟩
  · rw [hgranary, modLoom_granary, hgranary1]
    exact hstalls
  · rw [hsreg, if_pos rfl]
  · rw [getChute, hchutes, modLoom_chutes]
    exact hchute1
  · rw [hsreg, if_neg hr]

/-! ## Bytes of a tile's SRAM -/

/-- No tile has more SRAM than its part of the address map holds (Tables 13.1 and 13.2). -/
theorem tileCapacity_lt (t : Nat) : tileCapacity t < 0x8000000 := by
  unfold tileCapacity
  split <;> decide

/-- An address of a tile's part of the map is its SRAM where the tile has it and is not retired, and else nothing (Table 13.1). -/
theorem regionOf_sramBase (d : Dev) {t off : Nat} (ht : t < 64) (hoff : off < 0x8000000) :
    regionOf d (sramBase t + off) = if off < tileCapacity t && !(tileRetired d t) then .sram t else .unmapped := by
  have htile : (sramBase t + off - 0x100000000000) / 0x8000000 = t := by
    unfold sramBase
    omega
  have hlow : ¬ sramBase t + off < 0xA80000000 ∧ ¬ sramBase t + off < 0x1500000000 := by
    unfold sramBase
    omega
  have hmap : (decide (0x100000000000 ≤ sramBase t + off) && decide (sramBase t + off < 0x100200000000)) = true := by
    unfold sramBase
    exact Bool.and_eq_true_iff.mpr ⟨decide_eq_true (by omega), decide_eq_true (by omega)⟩
  simp only [regionOf, if_neg hlow.1, if_neg hlow.2, hmap, if_true, htile, Nat.add_sub_cancel_left]

/-- A read of bytes of SRAM stored without error delivers them, and changes nothing (R337, R343). -/
theorem readMem_of_sramClear {d : Dev} {tile off n : Nat} (h : sramClear d tile off n) (who : Option OpName) :
    readMem d who (sramBase tile + off) n = (d, .ok (cellsRead d.mem.cells (sramBase tile + off) n)) := by
  obtain ⟨hend, hretired, hon, hsram, hflips⟩ := h
  have ht : tile < 64 := by
    simp only [tileRetired, Bool.or_eq_false_iff, decide_eq_false_iff_not] at hretired
    omega
  have hcap := tileCapacity_lt tile
  have hregion := regionOf_sramBase d (t := tile) (off := off) ht (by omega)
  have hfault : accessFault d (sramBase tile + off) n false = none := by
    unfold accessFault
    split_ifs with hn
    · rfl
    · have hin : rangeRegion d (sramBase tile + off) n = .sram tile := by
        have hlt : off < tileCapacity tile := by omega
        have hle : sramBase tile + off + n ≤ sramBase tile + tileCapacity tile := by omega
        simp [rangeRegion, hregion, hlt, hretired, regionEnd, hle]
      simp [hin, hon, hsram]
  split at hregion
  all_goals simp [readMem, hfault, countAccess, noteEntries, peerRequests, rawRead, hregion, hflips]

/-! ## The sending of an entry into SRAM (R31, R32) -/

section
variable {d : Dev} {t off : Nat} (ht : t < 64) (hoff : off < 0x8000000)
include ht hoff

/-- With no Granary that watches writes, bytes stored in a tile's part of the map change the bytes and error patterns of memory alone. -/
theorem storeBytes_sramBase (hcfg : d.granary.cfg = none) (b : Bytes) :
    ∃ fl, storeBytes d (sramBase t + off) b =
      { d with mem.cells := cellsWrite d.mem.cells (sramBase t + off) b, mem.flips := fl } := by
  have hregion := regionOf_sramBase d ht hoff
  have hown : (∃ die, regionOf d (sramBase t + off) = .gddr die) ∨ (∃ tile, regionOf d (sramBase t + off) = .sram tile) ∨
      regionOf d (sramBase t + off) = .unmapped := by
    split at hregion
    · exact .inr (.inl ⟨t, hregion⟩)
    · exact .inr (.inr hregion)
  obtain ⟨fl, -, hstore⟩ := storeBytes_of_own b hcfg hown
  exact ⟨fl, hstore⟩

end

section
variable {c : Chute}

/-- A queue with a credit has the slot that an entry takes (R32). -/
theorem freeSlot_lt (h : c.credits ≠ 0) : c.freeSlot < c.depth := by
  have hpos : 0 < c.depth := by
    unfold Chute.credits at h
    omega
  unfold Chute.freeSlot
  cases hfind : (List.range c.depth).find? fun s => c.entries.all fun e => e.slot != s with
  | none => exact hpos
  | some s => exact List.mem_range.mp (List.mem_of_find?_eq_some hfind)

/-- The slots of a queue lie one after another, and its headers behind them, all within its storage (R30, R31). -/
theorem slot_header_bounds {slot : Nat} (h : slot < c.depth) :
    c.slotOffset slot + c.slotBytes ≤ c.headerOffset slot ∧ c.headerOffset slot + 64 ≤ c.offset + c.storage := by
  have hslots : (slot + 1) * c.slotBytes ≤ c.depth * c.slotBytes := Nat.mul_le_mul_right _ h
  rw [Nat.succ_mul] at hslots
  have hstorage : c.depth * (c.slotBytes + 64) = c.depth * c.slotBytes + c.depth * 64 := Nat.mul_add ..
  unfold Chute.slotOffset Chute.headerOffset Chute.storage
  omega

end

/-- A header has 64 bytes (Table 1.6). -/
theorem chuteHeader_length (ring seq micro step tensor row col format : Nat) (last : Bool) (bytes : Nat) :
    (chuteHeader ring seq micro step tensor row col format last bytes).length = 64 := by
  simp [chuteHeader]

/-- Bytes that are read, one by one. -/
theorem cellsRead_getD {m : List Host.Cell} {a n i : Nat} (h : i < n) : (cellsRead m a n).getD i 0 = cellGet m (a + i) := by
  simp [cellsRead, h]

/-- A send whose words arrive without error queues its entry and stores its payload and its header in the consumer's SRAM; all else is
kept (R31, R32). -/
theorem sendEntry_clean {d : Dev} {s : Send} {c : Chute} (op : OpName) (hcfg : d.granary.cfg = none)
    (hchute : getChute d s.consumer s.queue = some c) (hcredit : c.credits ≠ 0) (ht : s.consumer < 64)
    (hstorage : c.offset + c.storage ≤ tileCapacity s.consumer) :
    ∃ fl, sendEntry d op s .clean = { queueEntry d op s .clean c with
      mem.cells := cellsWrite (cellsWrite d.mem.cells (sramBase s.consumer + c.slotOffset c.freeSlot) s.payload)
        (sramBase s.consumer + c.headerOffset c.freeSlot) s.header
      mem.flips := fl } := by
  obtain ⟨hslot, hheader⟩ := slot_header_bounds (freeSlot_lt hcredit)
  have hcap := tileCapacity_lt s.consumer
  obtain ⟨fl, hpayload⟩ := storeBytes_sramBase (d := queueEntry d op s .clean c) (off := c.slotOffset c.freeSlot) ht (by omega) hcfg
    s.payload
  obtain ⟨fl', hsecond⟩ := storeBytes_sramBase (d := storeBytes (queueEntry d op s .clean c)
    (sramBase s.consumer + c.slotOffset c.freeSlot) s.payload) (off := c.headerOffset c.freeSlot) ht (by omega)
    (by rw [hpayload]; exact hcfg) s.header
  refine ⟨fl', ?_⟩
  calc sendEntry d op s .clean
    _ = storeBytes (storeBytes (queueEntry d op s .clean c) (sramBase s.consumer + c.slotOffset c.freeSlot) s.payload)
        (sramBase s.consumer + c.headerOffset c.freeSlot) s.header := sendEntry_eq hchute op .clean
    _ = _ := by rw [hsecond, hpayload]; rfl

/-- So the queue holds one entry more, in its lowest free slot. -/
theorem getChute_queueEntry {d : Dev} {s : Send} {c : Chute} (op : OpName) (hchute : getChute d s.consumer s.queue = some c) :
    getChute (queueEntry d op s .clean c) s.consumer s.queue =
      some { c with entries := c.entries ++ [{ slot := c.freeSlot, header := s.header, bytes := s.payload.length, st := .sent op }] } := by
  show tget (tmod d.chutes (16 * s.consumer + s.queue) _) _ = _
  rw [tget_tmod_same, show tget d.chutes (16 * s.consumer + s.queue) = some c from hchute, Option.map_some]
  rfl

/-- A byte of memory after a payload and its header are stored, the header above the payload. -/
theorem cellGet_payload_header {m : List Host.Cell} (hwf : cellsWf m = true) {a h : Nat} {payload header : Bytes}
    (habove : a + payload.length ≤ h) (x : Nat) :
    cellGet (cellsWrite (cellsWrite m a payload) h header) x =
      if a ≤ x ∧ x < a + payload.length then payload.getD (x - a) 0
      else if h ≤ x ∧ x < h + header.length then header.getD (x - h) 0
      else cellGet m x := by
  rw [cellGet_cellsWrite (cellsWf_cellsWrite m a payload hwf), cellGet_cellsWrite hwf]
  split_ifs
  · omega
  · rfl
  · rfl
  · rfl

/-! ## CHSEND (R175) -/

/-- The entry that CHSEND sends by a chute field `e`: its payload under the header of R175, with the fields of `word`. -/
def chsendEntry (n : OpName) (o : Op) (e word : Nat) (payload : Bytes) (len : Nat) : Send :=
  { consumer := e % 64, queue := bits e 11 8, payload := payload
    header := chuteHeader n.ring n.seq.toNat (entryStamp n o).1 ((entryStamp n o).2 % 2 ^ 32) (word % 4096) (word / 2 ^ 16 % 2 ^ 16)
      (word / 2 ^ 32 % 2 ^ 16) (word / 2 ^ 48 % 2 ^ 8) false len }

/-- CHSEND on a credit sends its entry, and counts it among those sent by its chute field. -/
theorem loomChsend_of_credit {d : Dev} {tile eng : Nat} {n : OpName} {o : Op} {f : LoomFields} {c : Chute} {e word len off : Nat}
    (hop : getOp d n = some o) (he : o.f (48 + 4 * f.d.toNat) 4 = e) (hword : ((getLoom d tile eng).sreg f.c).toNat = word)
    (hlen : ((getLoom d tile eng).sreg f.b).toNat = len) (hoff : ((getLoom d tile eng).sreg f.a).toNat = off)
    (hbound : bit e 15 = true) (hchute : getChute d (e % 64) (bits e 11 8) = some c) (hzero : bits word 15 12 = 0)
    (hhigh : word < 2 ^ 56) (hcount : (getLoom d tile eng).sent.getD f.d.toNat 0 < bits e 22 16) (hfits : len ≤ c.slotBytes)
    (hcredit : c.credits ≠ 0) (hheld : queueHeld d (e % 64) = false) (hclear : sramClear d tile off len) :
    loomChsend { tile := tile, eng := eng, op := n } f d =
      (modLoom (sendEntry d n (chsendEntry n o e word (cellsRead d.mem.cells (sramBase tile + off) len) len) .clean) tile eng
        fun l => { l with sent := modAt l.sent f.d.toNat (· + 1) }, .next) := by
  have hattr : (bits word 15 12 != 0 || bits word 63 56 != 0) = false := by
    have htop : bits word 63 56 = 0 := by
      unfold bits
      omega
    simp [hzero, htop]
  have hwait : (decide (c.credits = 0) || queueHeld d (e % 64)) = false := by simp [hcredit, hheld]
  have hfault : sramFault tile off 0 len 1 = none := by
    obtain ⟨hend, -⟩ := hclear
    simp [sramFault, Nat.mod_one, hend]
  simp only [loomChsend, chsendBody, hop, he, hword, hlen, hoff, hbound, hchute, hattr, if_neg (Nat.not_le.mpr hcount),
    if_neg (Nat.not_lt.mpr hfits), hwait, hfault, orFault, loomRead, readMem_of_sramClear hclear, Bool.false_eq_true, if_false]
  simp [chsendEntry, bits]

/-- What a send by CHSEND leaves: the entry queued in the lowest free slot, its payload and header in the consumer's SRAM, and every other
byte as it was. -/
theorem sendEntry_chsendEntry {d : Dev} {n : OpName} {o : Op} {c : Chute} {e word len src : Nat} (hplain : plainMemory d)
    (hchute : getChute d (e % 64) (bits e 11 8) = some c) (hfits : len ≤ c.slotBytes) (hcredit : c.credits ≠ 0)
    (hstorage : c.offset + c.storage ≤ tileCapacity (e % 64)) {d' : Dev}
    (hd' : sendEntry d n (chsendEntry n o e word (cellsRead d.mem.cells src len) len) .clean = d') :
    d'.granary = d.granary ∧
    getChute d' (e % 64) (bits e 11 8) = some { c with entries := c.entries ++ [
      { slot := c.freeSlot, header := (chsendEntry n o e word (cellsRead d.mem.cells src len) len).header, bytes := len, st := .sent n }] } ∧
    ∀ x, byteAt d' x =
      if sramBase (e % 64) + c.slotOffset c.freeSlot ≤ x ∧ x < sramBase (e % 64) + c.slotOffset c.freeSlot + len then
        byteAt d (src + (x - (sramBase (e % 64) + c.slotOffset c.freeSlot)))
      else if sramBase (e % 64) + c.headerOffset c.freeSlot ≤ x ∧ x < sramBase (e % 64) + c.headerOffset c.freeSlot + 64 then
        (chsendEntry n o e word (cellsRead d.mem.cells src len) len).header.getD (x - (sramBase (e % 64) + c.headerOffset c.freeSlot)) 0
      else byteAt d x := by
  generalize hs : chsendEntry n o e word (cellsRead d.mem.cells src len) len = s at *
  have hconsumer : s.consumer = e % 64 := by rw [← hs]; rfl
  have hqueue : s.queue = bits e 11 8 := by rw [← hs]; rfl
  have hpayload : s.payload = cellsRead d.mem.cells src len := by rw [← hs]; rfl
  have hheader : s.header.length = 64 := by rw [← hs]; exact chuteHeader_length ..
  have hlen : s.payload.length = len := by rw [hpayload]; simp [cellsRead]
  have ht : s.consumer < 64 := hconsumer ▸ Nat.mod_lt e (by decide)
  rw [← hconsumer] at hstorage
  rw [← hconsumer, ← hqueue] at hchute ⊢
  obtain ⟨habove, -⟩ := slot_header_bounds (freeSlot_lt hcredit)
  obtain ⟨fl, hsend⟩ := sendEntry_clean n hplain.2 hchute hcredit ht hstorage
  rw [hsend] at hd'
  subst hd'
  refine ⟨rfl, ?_, fun x => ?_⟩
  · exact (getChute_queueEntry n hchute).trans (by rw [hlen])
  · refine (cellGet_payload_header (cellsWf_of_plainMemory hplain) (by omega) x).trans ?_
    rw [hlen, hheader]
    split_ifs with hin hat
    · rw [hpayload, cellsRead_getD (by omega)]
    · rfl
    · rfl

/-- CHSEND at the PC, on a credit. -/
theorem exec_chsend {s : State} {tile eng : Nat} {n : OpName} {o : Op} {f : LoomFields} {c : Chute} {e word len off : Nat}
    (hruns : loomRuns s tile eng n o .chsend f) (hplain : plainMemory s.dev)
    (he : o.f (48 + 4 * f.d.toNat) 4 = e) (hword : ((getLoom s.dev tile eng).sreg f.c).toNat = word)
    (hlen : ((getLoom s.dev tile eng).sreg f.b).toNat = len) (hoff : ((getLoom s.dev tile eng).sreg f.a).toNat = off)
    (hbound : bit e 15 = true) (hchute : getChute s.dev (e % 64) (bits e 11 8) = some c) (hzero : bits word 15 12 = 0)
    (hhigh : word < 2 ^ 56) (hcount : (getLoom s.dev tile eng).sent.getD f.d.toNat 0 < bits e 22 16) (hfits : len ≤ c.slotBytes)
    (hcredit : c.credits ≠ 0) (hheld : queueHeld s.dev (e % 64) = false) (hstorage : c.offset + c.storage ≤ tileCapacity (e % 64))
    (hclear : sramClear s.dev tile off len) :
    let header := (chsendEntry n o e word (cellsRead s.dev.mem.cells (sramBase tile + off) len) len).header
    acts (.chsend tile eng f) s fun d =>
      getChute d (e % 64) (bits e 11 8) = some { c with
        entries := c.entries ++ [{ slot := c.freeSlot, header := header, bytes := len, st := .sent n }] } ∧
      (getLoom d tile eng).waitFrom = none ∧
      ∀ x, byteAt d x =
        if sramBase (e % 64) + c.slotOffset c.freeSlot ≤ x ∧ x < sramBase (e % 64) + c.slotOffset c.freeSlot + len then
          byteAt s.dev (sramBase tile + off + (x - (sramBase (e % 64) + c.slotOffset c.freeSlot)))
        else if sramBase (e % 64) + c.headerOffset c.freeSlot ≤ x ∧ x < sramBase (e % 64) + c.headerOffset c.freeSlot + 64 then
          header.getD (x - (sramBase (e % 64) + c.headerOffset c.freeSlot)) 0
        else byteAt s.dev x := by
  intro header
  obtain ⟨hw, hex, hrun, hpc, -, haccept⟩ := hruns
  have ⟨_, _, hstalls⟩ := hw
  obtain ⟨hget, -⟩ := issuedOp_eq_some (issuedOp_of_loomRunning hrun)
  have hissue := (issueLoom_of_atPc hex hrun hpc haccept loomChsend).trans (issueAt_of_next
    (loomChsend_of_credit hget he hword hlen hoff hbound hchute hzero hhigh hcount hfits hcredit hheld hclear))
  generalize hd1 : sendEntry s.dev n _ .clean = d1 at hissue
  obtain ⟨hgranary1, hchute1, hbytes1⟩ := sendEntry_chsendEntry hplain hchute hfits hcredit hstorage hd1
  obtain ⟨hchutes, hmem, hgranary, hwait, -⟩ := nextInstr_frame
    (modLoom d1 tile eng fun l => { l with sent := modAt l.sent f.d.toNat (· + 1) }) { tile := tile, eng := eng, op := n }
  refine ⟨_, act_running hw hissue ?_, ?_, hwait, fun x => ?_⟩
  · rw [hgranary, modLoom_granary, hgranary1]
    exact hstalls
  · rw [getChute, hchutes, modLoom_chutes]
    exact hchute1
  · rw [byteAt, hmem, modLoom_mem]
    exact hbytes1 x

/-! ## The statement -/

/-- Settles O19: each command issues the instruction at the PC, whose effect is one equation of `loomAccrd`, `loomChtake` or
`loomChsend`; the program then goes on, which leaves the registers, the queues and the memories alone. -/
theorem loomAccumulatorAndChuteResults : Obligations.LoomAccumulatorAndChuteResults := by
  unfold Obligations.LoomAccumulatorAndChuteResults
  refine ⟨?accrd,
    fun s tile eng n o f c x hruns hbound hchute hdepth hentry hclean hgrant =>
      exec_chtake hruns hbound hchute hdepth hentry hclean hgrant,
    fun s tile eng n o f c hruns hplain hbound hchute hzero hhigh hcount hfits hcredit hheld hstorage hclear =>
      exec_chsend hruns hplain rfl rfl rfl rfl hbound hchute hzero hhigh hcount hfits hcredit hheld hstorage hclear⟩
  case accrd =>
    intro s tile eng n o f x hready l0 e i c hdeclared hset hrow hcol
    obtain ⟨d, hexec, l, hvector, hgoes⟩ := exec_accrd hready hdeclared hset hrow hcol
    have hval : (fun k => if isActive l0 f k then accrdLane x i c k else lane l0 f.d k) = fun k =>
        if !(isActive l0 f k) then lane l0 f.d k
        else if x.fmt = 1 ∨ x.fmt = 2 then toF32 (elemVal x.fmt.toNat false (x.elem i (256 * c + k)))
        else BitVec.ofNat 32 (x.elem i (256 * c + k)) := by
      funext k
      cases isActive l0 f k with
      | true => rfl
      | false => rfl
    exact ⟨d, hexec, l, hval ▸ hvector, hgoes⟩

end Sys2Proof.LoomProofs
end

section
/-! SUPPORT. The code of Loom instructions (R155, R160, Tables 6.2 and 6.3): fields laid together and read back, the word of each format,
and from them the statement on decoding and encoding. -/

namespace Sys2Proof.LoomCodeProofs

open Sys2Proof Sys2Proof.Machine

/-! ## Opcodes (Tables 6.8 to 6.16) -/

/-- OP has eight bits. -/
theorem num_lt (op : LoomOp) : op.info.num < 256 := by
  cases op <;> decide

/-- No two rows of the tables have the same OP. -/
theorem loomOpOf_num (op : LoomOp) : loomOpOf op.info.num = some op := by
  cases op <;> rfl

/-- The row that a number finds has that number. -/
theorem num_of_loomOpOf {k : Nat} {op : LoomOp} (h : loomOpOf k = some op) : op.info.num = k := by
  simpa using List.find?_some h

/-! ## Fields laid together (Tables 6.2 and 6.3)

Of bits laid together a field is read by passing the ones below it, and then the ones above it. -/

/-- The common fields, read from a word. -/
theorem extractLsb'_common (num : BitVec 8) (mask rc : BitVec 4) (d a : BitVec 6) (low : BitVec 36) :
    let w := num ++ mask ++ rc ++ d ++ a ++ low
    w.extractLsb' 56 8 = num ∧ w.extractLsb' 52 4 = mask ∧ w.extractLsb' 48 4 = rc ∧ w.extractLsb' 42 6 = d ∧ w.extractLsb' 36 6 = a := by
  refine ⟨?op, ?_, ?_, ?_, ?_⟩
  case op =>
    repeat rw [BitVec.extractLsb'_append_eq_of_le (by decide)]
    exact BitVec.extractLsb'_eq_self
  all_goals
    repeat rw [BitVec.extractLsb'_append_eq_of_le (by decide)]
    rw [BitVec.extractLsb'_append_eq_of_add_le (by decide)]
    exact BitVec.extractLsb'_eq_self

/-- The fields of format R, read from the 36 bits that follow the common ones. -/
theorem extractLsb'_formatR (b c : BitVec 6) (ty : BitVec 3) (as bs : BitVec 1) (sm : BitVec 4) (zero : BitVec 15) :
    let w := b ++ c ++ ty ++ as ++ bs ++ sm ++ zero
    w.extractLsb' 30 6 = b ∧ w.extractLsb' 24 6 = c ∧ w.extractLsb' 21 3 = ty ∧ w.extractLsb' 20 1 = as ∧ w.extractLsb' 19 1 = bs ∧
      w.extractLsb' 15 4 = sm ∧ w.extractLsb' 0 15 = zero := by
  refine ⟨?b, ?_, ?_, ?_, ?_, ?_, ?_⟩
  case b =>
    repeat rw [BitVec.extractLsb'_append_eq_of_le (by decide)]
    exact BitVec.extractLsb'_eq_self
  all_goals
    repeat rw [BitVec.extractLsb'_append_eq_of_le (by decide)]
    rw [BitVec.extractLsb'_append_eq_of_add_le (by decide)]
    exact BitVec.extractLsb'_eq_self

/-- The fields of format I. -/
theorem extractLsb'_formatI (ty : BitVec 3) (as : BitVec 1) (imm : BitVec 32) :
    let w := ty ++ as ++ imm
    w.extractLsb' 33 3 = ty ∧ w.extractLsb' 32 1 = as ∧ w.extractLsb' 0 32 = imm := by
  refine ⟨?ty, ?_, ?_⟩
  case ty =>
    repeat rw [BitVec.extractLsb'_append_eq_of_le (by decide)]
    exact BitVec.extractLsb'_eq_self
  all_goals
    repeat rw [BitVec.extractLsb'_append_eq_of_le (by decide)]
    rw [BitVec.extractLsb'_append_eq_of_add_le (by decide)]
    exact BitVec.extractLsb'_eq_self

/-- The fields of format M. -/
theorem extractLsb'_formatM (x f : BitVec 6) (sm : BitVec 4) (off : BitVec 20) :
    let w := x ++ f ++ sm ++ off
    w.extractLsb' 30 6 = x ∧ w.extractLsb' 24 6 = f ∧ w.extractLsb' 20 4 = sm ∧ w.extractLsb' 0 20 = off := by
  refine ⟨?x, ?_, ?_, ?_⟩
  case x =>
    repeat rw [BitVec.extractLsb'_append_eq_of_le (by decide)]
    exact BitVec.extractLsb'_eq_self
  all_goals
    repeat rw [BitVec.extractLsb'_append_eq_of_le (by decide)]
    rw [BitVec.extractLsb'_append_eq_of_add_le (by decide)]
    exact BitVec.extractLsb'_eq_self

/-- The fields of format B. -/
theorem extractLsb'_formatB (b : BitVec 6) (zero : BitVec 16) (target : BitVec 14) :
    let w := b ++ zero ++ target
    w.extractLsb' 30 6 = b ∧ w.extractLsb' 14 16 = zero ∧ w.extractLsb' 0 14 = target := by
  refine ⟨?b, ?_, ?_⟩
  case b =>
    repeat rw [BitVec.extractLsb'_append_eq_of_le (by decide)]
    exact BitVec.extractLsb'_eq_self
  all_goals
    repeat rw [BitVec.extractLsb'_append_eq_of_le (by decide)]
    rw [BitVec.extractLsb'_append_eq_of_add_le (by decide)]
    exact BitVec.extractLsb'_eq_self

/-- One bit of a word, as a field of one bit. -/
theorem getLsbD_eq_extractLsb' {n : Nat} (w : BitVec n) (k : Nat) : w.getLsbD k = (w.extractLsb' k 1).getLsbD 0 := by
  simp

/-- A field of one bit holds that bit. -/
theorem bit1_getLsbD {n : Nat} (w : BitVec n) (k : Nat) : bit1 (w.getLsbD k) = w.extractLsb' k 1 := by
  refine BitVec.eq_of_getLsbD_eq fun i hi => ?_
  obtain rfl : i = 0 := by omega
  simp [bit1]

/-- The bit of a field of one bit. -/
theorem getLsbD_bit1 (b : Bool) : (bit1 b).getLsbD 0 = b := by
  cases b <;> rfl

/-! ## Words -/

/-- The word of an opcode number and of fields in a format. -/
def codeWord (num : BitVec 8) (fmt : LoomFormat) (f : LoomFields) : W64 :=
  num ++ f.mask ++ f.rc ++ f.d ++ f.a ++ encodeLow fmt f

/-- An instruction is encoded as the word of its opcode's number. -/
theorem encodeLoom_eq (i : LoomInstr) : encodeLoom i = codeWord (BitVec.ofNat 8 i.op.info.num) i.op.info.format i.f := rfl

section
variable (num : BitVec 8) (fmt : LoomFormat) (f : LoomFields)

/-- The lowest 36 bits of a word are those of its format. -/
theorem extractLsb'_codeWord {start len : Nat} (h : start + len ≤ 36) :
    (codeWord num fmt f).extractLsb' start len = (encodeLow fmt f).extractLsb' start len :=
  BitVec.extractLsb'_append_eq_of_add_le h

/-- A word has the reserved bits of its format zero. -/
theorem reservedZero_codeWord : reservedZero fmt (codeWord num fmt f) = true := by
  cases fmt with
  | r =>
    obtain ⟨-, -, -, -, -, -, hzero⟩ := extractLsb'_formatR f.b f.c f.ty (bit1 f.as) (bit1 f.bs) f.sm 0#15
    exact beq_iff_eq.mpr ((extractLsb'_codeWord num .r f (by decide)).trans hzero)
  | i => rfl
  | m => rfl
  | b =>
    obtain ⟨-, hzero, -⟩ := extractLsb'_formatB f.b 0#16 f.target
    exact beq_iff_eq.mpr ((extractLsb'_codeWord num .b f (by decide)).trans hzero)

/-- The common fields stand in every word. -/
theorem codeWord_common :
    let w := codeWord num fmt f
    w.extractLsb' 52 4 = f.mask ∧ w.extractLsb' 48 4 = f.rc ∧ w.extractLsb' 42 6 = f.d ∧ w.extractLsb' 36 6 = f.a := by
  obtain ⟨-, hcommon⟩ := extractLsb'_common num f.mask f.rc f.d f.a (encodeLow fmt f)
  exact hcommon

/-- The fields of a format, those that it does not have zero, are read back from their word. -/
theorem decodeFields_codeWord (h : fieldsOf fmt f = true) : decodeFields fmt (codeWord num fmt f) = f := by
  obtain ⟨hmask, hrc, hd, ha⟩ := codeWord_common num fmt f
  have hlow (start len : Nat) (hle : start + len ≤ 36) := extractLsb'_codeWord num fmt f hle
  obtain ⟨mask, rc, d, a, b, c, ty, as, bs, sm, imm, x, f', off, target⟩ := f
  cases fmt with
  | r =>
    simp only [fieldsOf, Bool.and_eq_true, beq_iff_eq] at h
    obtain ⟨⟨⟨⟨rfl, rfl⟩, rfl⟩, rfl⟩, rfl⟩ := h
    obtain ⟨hb, hc, hty, has, hbs, hsm, -⟩ := extractLsb'_formatR b c ty (bit1 as) (bit1 bs) sm 0#15
    simp only [decodeFields, hmask, hrc, hd, ha, getLsbD_eq_extractLsb' (codeWord ..), hlow 30 6 (by decide), hlow 24 6 (by decide),
      hlow 21 3 (by decide), hlow 20 1 (by decide), hlow 19 1 (by decide), hlow 15 4 (by decide), encodeLow, hb, hc, hty, has, hbs, hsm,
      getLsbD_bit1]
  | i =>
    simp only [fieldsOf, Bool.and_eq_true, beq_iff_eq, Bool.not_eq_true'] at h
    obtain ⟨⟨⟨⟨⟨⟨⟨rfl, rfl⟩, rfl⟩, rfl⟩, rfl⟩, rfl⟩, rfl⟩, rfl⟩ := h
    obtain ⟨hty, has, himm⟩ := extractLsb'_formatI ty (bit1 as) imm
    simp only [decodeFields, hmask, hrc, hd, ha, getLsbD_eq_extractLsb' (codeWord ..), hlow 33 3 (by decide), hlow 32 1 (by decide),
      hlow 0 32 (by decide), encodeLow, hty, has, himm, getLsbD_bit1]
  | m =>
    simp only [fieldsOf, Bool.and_eq_true, beq_iff_eq, Bool.not_eq_true'] at h
    obtain ⟨⟨⟨⟨⟨⟨rfl, rfl⟩, rfl⟩, rfl⟩, rfl⟩, rfl⟩, rfl⟩ := h
    obtain ⟨hx, hf, hsm, hoff⟩ := extractLsb'_formatM x f' sm off
    simp only [decodeFields, hmask, hrc, hd, ha, hlow 30 6 (by decide), hlow 24 6 (by decide), hlow 20 4 (by decide),
      hlow 0 20 (by decide), encodeLow, hx, hf, hsm, hoff]
  | b =>
    simp only [fieldsOf, Bool.and_eq_true, beq_iff_eq, Bool.not_eq_true'] at h
    obtain ⟨⟨⟨⟨⟨⟨⟨⟨rfl, rfl⟩, rfl⟩, rfl⟩, rfl⟩, rfl⟩, rfl⟩, rfl⟩, rfl⟩ := h
    obtain ⟨hb, -, htarget⟩ := extractLsb'_formatB b 0#16 target
    simp only [decodeFields, hmask, hrc, hd, ha, hlow 30 6 (by decide), hlow 0 14 (by decide), encodeLow, hb, htarget]

end

/-- The fields that are read from a word are those of its format. -/
theorem fieldsOf_decodeFields (fmt : LoomFormat) (w : W64) : fieldsOf fmt (decodeFields fmt w) = true := by
  cases fmt <;> rfl

/-- A word whose reserved bits are zero is the word of what is read from it: its fields, each next to the one below it, make it up. -/
theorem codeWord_decodeFields {fmt : LoomFormat} {w : W64} (h : reservedZero fmt w = true) :
    codeWord (w.extractLsb' 56 8) fmt (decodeFields fmt w) = w := by
  have hlow : encodeLow fmt (decodeFields fmt w) = w.extractLsb' 0 36 := by
    cases fmt with
    | r =>
      have hzero : 0#15 = w.extractLsb' 0 15 := (beq_iff_eq.mp h).symm
      simp only [encodeLow, decodeFields, bit1_getLsbD, hzero]
      repeat rw [BitVec.extractLsb'_append_extractLsb'_eq_extractLsb' (by decide)]
    | i =>
      simp only [encodeLow, decodeFields, bit1_getLsbD]
      repeat rw [BitVec.extractLsb'_append_extractLsb'_eq_extractLsb' (by decide)]
    | m =>
      simp only [encodeLow, decodeFields]
      repeat rw [BitVec.extractLsb'_append_extractLsb'_eq_extractLsb' (by decide)]
    | b =>
      have hzero : 0#16 = w.extractLsb' 14 16 := (beq_iff_eq.mp h).symm
      simp only [encodeLow, decodeFields, hzero]
      repeat rw [BitVec.extractLsb'_append_extractLsb'_eq_extractLsb' (by decide)]
  have hcommon : (decodeFields fmt w).mask = w.extractLsb' 52 4 ∧ (decodeFields fmt w).rc = w.extractLsb' 48 4 ∧
      (decodeFields fmt w).d = w.extractLsb' 42 6 ∧ (decodeFields fmt w).a = w.extractLsb' 36 6 := by
    cases fmt <;> exact ⟨rfl, rfl, rfl, rfl⟩
  obtain ⟨hmask, hrc, hd, ha⟩ := hcommon
  rw [codeWord, hlow, hmask, hrc, hd, ha]
  repeat rw [BitVec.extractLsb'_append_extractLsb'_eq_extractLsb' (by decide)]
  exact BitVec.extractLsb'_eq_self

/-! ## The statement -/

/-- Settles O8: OP and the fields are read back from the word of an instruction, and a word that decodes is made up of them and of zero
bits. -/
theorem loomCodeRoundTrip : Obligations.LoomCodeRoundTrip := by
  unfold Obligations.LoomCodeRoundTrip
  refine ⟨fun i hfields => ?encoded, fun w i hdecode => ?decoded⟩
  case encoded =>
    have hop : (encodeLoom i).extractLsb' 56 8 = BitVec.ofNat 8 i.op.info.num := by
      obtain ⟨hop, -⟩ := extractLsb'_common (BitVec.ofNat 8 i.op.info.num) i.f.mask i.f.rc i.f.d i.f.a (encodeLow i.op.info.format i.f)
      exact hop
    have hnum : (BitVec.ofNat 8 i.op.info.num).toNat = i.op.info.num := Nat.mod_eq_of_lt (num_lt i.op)
    simp only [decodeLoom, hop, hnum, loomOpOf_num]
    simp only [encodeLoom_eq, reservedZero_codeWord, if_true, decodeFields_codeWord _ _ _ hfields]
  case decoded =>
    unfold decodeLoom at hdecode
    split at hdecode
    next => cases hdecode
    next op hop =>
      split at hdecode
      next hzero =>
        cases hdecode
        have hnum : BitVec.ofNat 8 op.info.num = w.extractLsb' 56 8 := by
          rw [num_of_loomOpOf hop, BitVec.ofNat_toNat, BitVec.setWidth_eq]
        refine ⟨?_, fieldsOf_decodeFields ..⟩
        rw [encodeLoom_eq, hnum]
        exact codeWord_decodeFields hzero
      next => cases hdecode

end Sys2Proof.LoomCodeProofs
end

section
/-! SUPPORT. The instructions of a Loom that change its registers or the flow of its program (R153, R178, R180): how a command issues its
instruction, what a load has accepted, what the register files hold after a write, and from them the statements on scalar instructions,
branches and ends. -/

namespace Sys2Proof.LoomResultProofs

open Sys2Proof Sys2Proof.Machine Sys2Proof.Safety Sys2Proof.HostProofs Sys2Proof.OrgProofs Sys2Proof.LoomProofs

/-! ## The command of an instruction (R186) -/

/-- The command of an instruction issues it with the meaning that a running program gives it. -/
theorem exec_loomCmd (tile eng : Nat) (f : LoomFields) (op : LoomOp) (s : State) :
    exec (loomCmd tile eng f op) s = act s (running (issueLoom op (loomBody op) tile eng f)) := by
  cases op <;> rfl

section
variable {s : State} {tile eng : Nat} {n : OpName} {o : Op} {op : LoomOp} {f : LoomFields} {d : Dev} {p : Dev → Prop}

/-- The operation of a Loom that may issue an instruction. -/
theorem getOp_of_loomReady (h : loomReady s tile eng n o op f) : getOp s.dev n = some o := by
  obtain ⟨-, -, hrun, -⟩ := h
  exact (issuedOp_eq_some (issuedOp_of_loomRunning hrun)).1

/-- An instruction that may issue and meets no untaken page has its effect at once. -/
theorem acts_issueAt (h : loomReady s tile eng n o op f)
    (heq : issueAt { tile := tile, eng := eng, op := n } (loomBody op) f s.dev = d) (hgranary : d.granary = s.dev.granary) (hp : p d) :
    acts (loomCmd tile eng f op) s p := by
  obtain ⟨hw, hex, hrun, hpc, -, -, haccept⟩ := h
  have ⟨_, _, hstalls⟩ := hw
  refine ⟨d, ?_, hp⟩
  rw [exec_loomCmd]
  exact act_running hw ((issueLoom_of_atPc hex hrun hpc haccept _).trans heq) (by rw [hgranary, hstalls])

/-- So does one that goes on to the next instruction. -/
theorem acts_of_next (h : loomReady s tile eng n o op f)
    (hbody : loomBody op { tile := tile, eng := eng, op := n } f s.dev = (d, .next)) (hgranary : d.granary = s.dev.granary)
    (hp : p (nextInstr d { tile := tile, eng := eng, op := n })) : acts (loomCmd tile eng f op) s p := by
  obtain ⟨-, -, hkept, -⟩ := nextInstr_frame d { tile := tile, eng := eng, op := n }
  exact acts_issueAt h (issueAt_of_next hbody) (hkept.trans hgranary) hp

/-- What goes on after an instruction that leaves its Loom as `l` and the device otherwise as `frame` tells, with its operation in its
ring. -/
theorem loomGoesOnIn_nextInstr {frame : Dev → Dev → Prop} {d' : Dev} {l : Loom} (hop : (getOp d' n).isSome = true)
    (hother : otherLooms d d' tile eng) (hloom : getLoom d' tile eng = l) (hwait : l.waitFrom = none)
    (hframe : ∀ c x, frame d { d' with counters := c, looms := x }) :
    loomGoesOnIn frame d (nextInstr d' { tile := tile, eng := eng, op := n }) tile eng n l := by
  obtain ⟨o', hop'⟩ := Option.isSome_iff_exists.mp hop
  obtain ⟨c, hcount⟩ := countIssue_of_no_wait (d := d') (a := { tile := tile, eng := eng, op := n }) (by rw [hloom]; exact hwait)
  have hcounted : getLoom { d' with counters := c } tile eng = l := hloom
  unfold nextInstr
  rw [hcount]
  simp only [afterInstr, hcounted, loomGoesOnIn]
  split
  · refine ⟨fun k hk => (otherLooms_modLoom _ tile eng _ k hk).trans (hother k hk), ?_, hframe c _⟩
    rw [getLoom_modLoom, hcounted]
  · obtain ⟨hend, -, hlooms⟩ := endLoom_ended (d := { d' with counters := c }) tile eng hop' stProgramFault
      ((l.length - 1) % 65536 + 0x0C * 65536)
    refine ⟨fun k hk => (hlooms k hk).trans (hother k hk), ?_, hend⟩
    rw [endLoom, getLoom_congr (completeOp_looms ..), getLoom_modLoom, hcounted]

/-- An instruction that leaves the device as it is goes on. -/
theorem acts_of_same (h : loomReady s tile eng n o op f)
    (hbody : loomBody op { tile := tile, eng := eng, op := n } f s.dev = (s.dev, .next)) :
    acts (loomCmd tile eng f op) s fun d => loomGoesOn s.dev d tile eng n (getLoom s.dev tile eng) := by
  have hop := getOp_of_loomReady h
  have ⟨_, _, _, _, _, hwait, _⟩ := h
  exact acts_of_next h hbody rfl
    (loomGoesOnIn_nextInstr (by rw [hop]; rfl) (fun _ _ => rfl) rfl hwait fun _ _ => rfl)

/-- An instruction that changes the registers of its Loom alone goes on. -/
theorem acts_of_modLoom {g : Loom → Loom} {l : Loom} (h : loomReady s tile eng n o op f)
    (hbody : loomBody op { tile := tile, eng := eng, op := n } f s.dev = (modLoom s.dev tile eng g, .next))
    (hg : g (getLoom s.dev tile eng) = l) (hwait : l.waitFrom = (getLoom s.dev tile eng).waitFrom) :
    acts (loomCmd tile eng f op) s fun d => loomGoesOn s.dev d tile eng n l := by
  subst hg
  have ⟨_, _, _, _, _, hnone, _⟩ := h
  exact acts_of_next h hbody rfl (loomGoesOn_nextInstr (getOp_of_loomReady h) (hwait.trans hnone))

/-- An instruction that goes to an instruction of its own choice. -/
theorem acts_of_goto {t : Nat} {l : Loom} (h : loomReady s tile eng n o op f)
    (hbody : loomBody op { tile := tile, eng := eng, op := n } f s.dev = (d, .goto t)) (hd : { d with looms := s.dev.looms } = s.dev)
    (hother : otherLooms s.dev d tile eng) (hloom : getLoom d tile eng = l) (hwait : l.waitFrom = (getLoom s.dev tile eng).waitFrom) :
    acts (loomCmd tile eng f op) s fun d =>
      otherLooms s.dev d tile eng ∧ onlyLooms s.dev d ∧ getLoom d tile eng = { l with pc := t } := by
  have ⟨_, _, _, _, _, hnone, _⟩ := h
  obtain ⟨c, hcount⟩ := countIssue_of_no_wait (d := d) (a := { tile := tile, eng := eng, op := n }) (by rw [hloom, hwait, hnone])
  have heq : issueAt { tile := tile, eng := eng, op := n } (loomBody op) f s.dev =
      modLoom { d with counters := c } tile eng fun l => { l with pc := t } := by
    simp only [issueAt, hbody, hcount, afterInstr]
  have hgranary : d.granary = s.dev.granary := by rw [← hd]
  refine acts_issueAt h heq hgranary ⟨fun k hk => (otherLooms_modLoom _ tile eng _ k hk).trans (hother k hk), ?_, ?_⟩
  · exact congrArg (fun x : Dev => { x with counters := s.dev.counters }) hd
  · rw [getLoom_modLoom]
    exact congrArg (fun x : Loom => { x with pc := t }) hloom

/-- The status and DETAIL with which a flow ends the operation of a Loom, if it does (R178, R180). -/
def endOf (l : Loom) : Flow → Option (Byte × Nat)
  | .done => some (stOk, (l.sreg 1).toNat)
  | .fault code imm => some (stProgramFault, l.pc % 65536 + code * 65536 + imm * 2 ^ 32)
  | .stop st => some (st, 0)
  | _ => none

/-- Such a flow ends the operation. -/
theorem issueAt_of_end {a : LoomAt} {body : LoomBody} {d d' : Dev} {flow : Flow} {st : Byte} {detail : Nat} (hbody : body a f d = (d', flow))
    (hwait : (getLoom d' a.tile a.eng).waitFrom = none) (hend : endOf (getLoom d' a.tile a.eng) flow = some (st, detail)) :
    ∃ c, issueAt a body f d = endLoom { d' with counters := c } a st detail := by
  obtain ⟨c, hcount⟩ := countIssue_of_no_wait hwait
  have hloom : getLoom { d' with counters := c } a.tile a.eng = getLoom d' a.tile a.eng := rfl
  refine ⟨c, ?_⟩
  cases flow with
  | next => cases hend
  | goto t => cases hend
  | wait i o => cases hend
  | done => cases hend; simp only [issueAt, hbody, hcount, afterInstr, hloom]
  | fault code imm => cases hend; simp only [issueAt, hbody, hcount, afterInstr, hloom]
  | stop st => cases hend; simp only [issueAt, hbody, hcount, afterInstr]

/-- An instruction that ends the operation of its Loom and changes nothing else. -/
theorem acts_of_end {flow : Flow} {st : Byte} {detail : Nat} (h : loomReady s tile eng n o op f)
    (hbody : loomBody op { tile := tile, eng := eng, op := n } f s.dev = (s.dev, flow))
    (hend : endOf (getLoom s.dev tile eng) flow = some (st, detail)) :
    acts (loomCmd tile eng f op) s fun d => ended d n st detail ∧ (getLoom d tile eng).run = none := by
  have ⟨_, _, _, _, _, hwait, _⟩ := h
  obtain ⟨c, heq⟩ := issueAt_of_end hbody hwait hend
  obtain ⟨hended, hrun, -⟩ := endLoom_ended (d := { s.dev with counters := c }) tile eng (getOp_of_loomReady h) st detail
  refine acts_issueAt h heq ?_ ⟨hended, hrun⟩
  rw [endLoom, completeOp_granary, modLoom_granary]

end

/-! ## What a load has accepted (R154, R170, R450) -/

/-- The roles of the fields of an instruction that a load accepts, and its lane type. -/
theorem acceptLoom_spec {len : Nat} {op : LoomOp} {f : LoomFields} (h : acceptLoom len { op := op, f := f } = true) :
    roleOk op.info.d false f.d = true ∧ roleOk op.info.a f.as f.a = true ∧ (∀ l, op.info.types = some l → f.ty.toNat ∈ l) ∧
      immOk op f.imm = true := by
  simp only [acceptLoom, Bool.and_eq_true] at h
  obtain ⟨⟨⟨⟨⟨⟨⟨⟨⟨⟨-, -⟩, htypes⟩, hd⟩, ha⟩, -⟩, -⟩, -⟩, -⟩, himm⟩, -⟩ := h
  refine ⟨hd, ha, fun l hl => ?_, himm⟩
  simpa [hl] using htypes

section
variable {len : Nat} {op : LoomOp} {f : LoomFields} (h : acceptLoom len { op := op, f := f } = true)
include h

/-- A scalar destination is one of s1 to s31. -/
theorem scalarDest_of_accept (hd : op.info.d = .scalarDest) : f.d.toNat < 32 ∧ f.d ≠ 0 := by
  obtain ⟨hrole, -⟩ := acceptLoom_spec h
  rw [hd] at hrole
  simpa [roleOk] using hrole

/-- A mask destination is one of m1 to m15. -/
theorem maskDest_of_accept (hd : op.info.d = .maskDest) : f.d.toNat < 16 ∧ f.d.toNat ≠ 0 := by
  obtain ⟨hrole, -⟩ := acceptLoom_spec h
  rw [hd] at hrole
  have hrole' : f.d.toNat < 16 ∧ f.d ≠ 0 := by simpa [roleOk] using hrole
  exact ⟨hrole'.1, fun h0 => hrole'.2 (BitVec.eq_of_toNat_eq h0)⟩

/-- The lane type is one that the instruction has. -/
theorem type_of_accept {l : List Nat} (htypes : op.info.types = some l) : f.ty.toNat ∈ l := by
  obtain ⟨-, -, hty, -⟩ := acceptLoom_spec h
  exact hty l htypes

end

/-! ## Scalar instructions (Table 6.9) -/

/-- A register that is not s0 is written. -/
theorem setS_of_ne (l : Loom) {i : BitVec 6} (h : i ≠ 0) (x : W64) : l.setS i x = { l with s := l.s.set i.toNat x } := if_neg h

/-- An instruction that changes registers of its Loom alone, as a meaning. -/
theorem regsOnly_apply (g : LoomFields → Loom → Loom) (a : LoomAt) (f : LoomFields) (d : Dev) :
    regsOnly g a f d = (modLoom d a.tile a.eng (g f), .next) := rfl

/-- An instruction that writes one scalar register. -/
theorem scalarResult_of_regsOnly (op : LoomOp) {g : LoomFields → Loom → Loom} {val : LoomFields → Loom → W64}
    (hbody : loomBody op = regsOnly g) (hd : op.info.d = .scalarDest)
    (hg : ∀ f l, filesWhole l → acceptLoom l.length { op := op, f := f } = true → g f l = l.setS f.d (val f l)) :
    scalarResult (fun tile eng f => loomCmd tile eng f op) op val := by
  intro s tile eng n o f h
  have ⟨_, _, _, _, hwhole, _, haccept⟩ := h
  obtain ⟨-, hne⟩ := scalarDest_of_accept haccept hd
  obtain ⟨d, hexec, hgoes⟩ := acts_of_modLoom (g := g f) h (by rw [hbody]; rfl)
    ((hg f _ hwhole haccept).trans (setS_of_ne _ hne _)) rfl
  exact ⟨d, hexec, _, rfl, hgoes⟩

/-- One whose meaning is that write. -/
theorem scalarResult_of_setS (op : LoomOp) {val : LoomFields → Loom → W64}
    (hbody : loomBody op = regsOnly fun f l => l.setS f.d (val f l)) (hd : op.info.d = .scalarDest) :
    scalarResult (fun tile eng f => loomCmd tile eng f op) op val :=
  scalarResult_of_regsOnly op hbody hd fun _ _ _ _ => rfl

/-- The signed minimum, by the order of integers. -/
theorem ite_sle {w : Nat} (a b : BitVec w) : (if a.sle b then a else b) = if a.toInt ≤ b.toInt then a else b := by
  simp only [BitVec.sle_iff_toInt_le]

/-- A maximum, taken either way: of two that are equal in order, either one, as they are the same. -/
theorem ite_le_swap {α β : Type} [LinearOrder β] {m : α → β} (hm : ∀ a b, m a = m b → a = b) (a b : α) :
    (if m b ≤ m a then a else b) = if m a ≤ m b then b else a := by
  split_ifs with hba hab hab
  · exact hm a b (le_antisymm hab hba)
  · rfl
  · rfl
  · exact absurd (le_of_not_ge hba) hab

/-- The signed maximum. -/
theorem ite_sle_swap {w : Nat} (a b : BitVec w) : (if b.sle a then a else b) = if a.toInt ≤ b.toInt then b else a := by
  simp only [BitVec.sle_iff_toInt_le]
  exact ite_le_swap (fun _ _ => BitVec.eq_of_toInt_eq) a b

/-- The context value that SCTX writes for an IMM of 0 to 5 (Table 6.9). -/
def contextValue (d : Dev) (tile eng : Nat) (n : OpName) (o : Op) (imm : Nat) : W64 :=
  match imm with
  | 0 => o.step
  | 1 => o.micro.setWidth 64
  | 2 => BitVec.ofNat 64 n.ring
  | 3 => n.seq.setWidth 64
  | 4 => BitVec.ofNat 64 (deviceTime d)
  | _ => BitVec.ofNat 64 (tile + 256 * eng)

/-- SCTX writes it. -/
theorem loomSctx_eq {d : Dev} {tile eng : Nat} {n : OpName} {o : Op} {f : LoomFields} (hop : getOp d n = some o) (himm : f.imm.toNat < 6) :
    loomSctx { tile := tile, eng := eng, op := n } f d =
      (modLoom d tile eng fun l => l.setS f.d (contextValue d tile eng n o f.imm.toNat), .next) := by
  have hmod : f.imm.toNat % 8 = f.imm.toNat := Nat.mod_eq_of_lt (by omega)
  simp only [loomSctx, hop, hmod, Option.map_some, Option.getD_some]
  rfl

/-- Settles O10: each scalar instruction writes one register of its Loom with the value of its table, and goes on. -/
theorem loomScalarResults : Obligations.LoomScalarResults := by
  unfold Obligations.LoomScalarResults
  refine ⟨⟨scalarResult_of_setS .sadd rfl rfl, scalarResult_of_setS .ssub rfl rfl, scalarResult_of_setS .smul rfl rfl,
    scalarResult_of_setS .sand rfl rfl, scalarResult_of_setS .sor rfl rfl, scalarResult_of_setS .sxor rfl rfl,
    scalarResult_of_setS .sshl rfl rfl, scalarResult_of_setS .sshr rfl rfl, scalarResult_of_setS .ssra rfl rfl, ?smin, ?smax,
    scalarResult_of_setS .saddi rfl rfl, scalarResult_of_setS .sshli rfl rfl, scalarResult_of_setS .sshri rfl rfl,
    scalarResult_of_setS .sli rfl rfl, scalarResult_of_setS .slui rfl rfl⟩,
    ⟨scalarResult_of_setS .sfadd rfl rfl, scalarResult_of_setS .sfmul rfl rfl, scalarResult_of_setS .sffma rfl rfl⟩, ?sctx⟩
  case smin => exact scalarResult_of_regsOnly .smin rfl rfl fun f l _ _ => congrArg (l.setS f.d) (ite_sle _ _)
  case smax => exact scalarResult_of_regsOnly .smax rfl rfl fun f l _ _ => congrArg (l.setS f.d) (ite_sle_swap _ _)
  case sctx =>
    intro s tile eng n o f h
    have ⟨_, _, _, _, _, _, haccept⟩ := h
    obtain ⟨-, hne⟩ := scalarDest_of_accept haccept rfl
    obtain ⟨-, -, -, himm⟩ := acceptLoom_spec haccept
    have himm : f.imm.toNat < 6 := by
      simp only [immOk, Bool.and_eq_true] at himm
      simpa using himm.2
    obtain ⟨d, hexec, hgoes⟩ := acts_of_modLoom h (loomSctx_eq (getOp_of_loomReady h) himm) (setS_of_ne _ hne _) rfl
    exact ⟨d, hexec, _, rfl, hgoes⟩

/-! ## Branches and ends (Table 6.8) -/

/-- A change of a Loom tells on what the Loom is. -/
theorem modLoom_congr {d : Dev} {tile eng : Nat} {g g' : Loom → Loom} (h : g (getLoom d tile eng) = g' (getLoom d tile eng)) :
    modLoom d tile eng g = modLoom d tile eng g' := by
  rw [modLoom, modLoom, h]

/-- A branch on a condition, which changes no register. -/
theorem branchResult_of_branchIf (op : LoomOp) {c taken : LoomFields → Loom → Bool} (hbody : loomBody op = branchIf c)
    (hc : ∀ f l, c f l = taken f l) : branchResult (fun tile eng f => loomCmd tile eng f op) op taken fun _ l => l := by
  obtain rfl : c = taken := funext fun f => funext fun l => hc f l
  intro s tile eng n o f h
  have happly : loomBody op { tile := tile, eng := eng, op := n } f s.dev =
      (s.dev, if c f (getLoom s.dev tile eng) then .goto f.target.toNat else .next) := by rw [hbody]; rfl
  dsimp only
  split
  next htaken =>
    rw [if_pos htaken] at happly
    exact acts_of_goto h happly rfl (fun _ _ => rfl) rfl rfl
  next hon =>
    rw [if_neg hon] at happly
    exact acts_of_same h happly

/-- A branch that also changes registers. -/
theorem branchResult_of_modLoom (op : LoomOp) {taken : LoomFields → Loom → Bool} {regs : LoomFields → Loom → Loom}
    (hbody : ∀ a f d, loomBody op a f d =
      (modLoom d a.tile a.eng (regs f), if taken f (getLoom d a.tile a.eng) then .goto f.target.toNat else .next))
    (hwait : ∀ f l, (regs f l).waitFrom = l.waitFrom) : branchResult (fun tile eng f => loomCmd tile eng f op) op taken regs := by
  intro s tile eng n o f h
  have happly := hbody { tile := tile, eng := eng, op := n } f s.dev
  dsimp only
  split
  next htaken =>
    rw [if_pos htaken] at happly
    exact acts_of_goto h happly rfl (otherLooms_modLoom s.dev tile eng _) (getLoom_modLoom s.dev tile eng _) (hwait f _)
  next hon =>
    rw [if_neg hon] at happly
    exact acts_of_modLoom h happly rfl (hwait f _)

/-- A mask is zero where no lane has its bit set. -/
theorem mask_beq_zero (m : BitVec 256) : (m == 0) = (List.range 256).all fun k => !m.getLsbD k := by
  rw [Bool.eq_iff_iff]
  simp only [beq_iff_eq, List.all_eq_true, List.mem_range, Bool.not_eq_true']
  refine ⟨fun h k _ => by rw [h]; exact BitVec.getLsbD_zero, fun h => BitVec.eq_of_getLsbD_eq fun k hk => ?_⟩
  rw [h k hk]
  exact BitVec.getLsbD_zero.symm

/-- It is not zero where one has. -/
theorem mask_bne_zero (m : BitVec 256) : (m != 0) = (List.range 256).any fun k => m.getLsbD k := by
  rw [bne, mask_beq_zero, List.not_all_eq_any_not]
  simp

/-- BGE branches where the order of integers says so. -/
theorem not_slt_eq_decide {w : Nat} (a b : BitVec w) : (!a.slt b) = decide (b.toInt ≤ a.toInt) := by
  rw [BitVec.slt, ← decide_not, decide_eq_decide]
  exact not_lt

/-- LOOP decrements sA and branches where it was not one. -/
theorem loomLoop_eq (a : LoomAt) (f : LoomFields) (d : Dev) :
    loomLoop a f d =
      (modLoom d a.tile a.eng fun l => if f.a = 0 then l else { l with s := l.s.set f.a.toNat (l.sreg f.a - 1) },
        if ((getLoom d a.tile a.eng).sreg f.a != 1) = true then .goto f.target.toNat else .next) := by
  have hone : (getLoom d a.tile a.eng).sreg f.a - 1 = 0 ↔ (getLoom d a.tile a.eng).sreg f.a = 1 := sub_eq_zero
  simp only [loomLoop, hone, bne_iff_ne, ne_eq, ite_not]
  exact congrArg (·, _) (modLoom_congr rfl)

/-- Settles O11: a branch moves the PC of its Loom alone, LOOP and CALL a scalar register besides; END, FAULT and a RET past the length end
the operation with the status and DETAIL of their flow. -/
theorem loomFlowAndEnds : Obligations.LoomFlowAndEnds := by
  unfold Obligations.LoomFlowAndEnds
  refine ⟨⟨branchResult_of_branchIf .loomNop rfl fun _ _ => rfl, branchResult_of_branchIf .j rfl fun _ _ => rfl,
    branchResult_of_branchIf .beq rfl fun _ _ => rfl, branchResult_of_branchIf .bne rfl fun _ _ => rfl,
    branchResult_of_branchIf .blt rfl fun _ _ => rfl, branchResult_of_branchIf .bge rfl fun _ _ => not_slt_eq_decide _ _,
    branchResult_of_branchIf .bltu rfl fun _ _ => rfl, branchResult_of_branchIf .bmz rfl fun _ _ => mask_beq_zero _,
    branchResult_of_branchIf .bmnz rfl fun _ _ => mask_bne_zero _,
    branchResult_of_modLoom .loop loomLoop_eq fun f l => ?loop, branchResult_of_modLoom .call (fun _ _ _ => rfl) fun _ _ => rfl, ?ret⟩,
    fun s tile eng n o f => ⟨fun h => acts_of_end h rfl rfl, fun h => acts_of_end h rfl rfl, fun h hlen => ?beyond⟩⟩
  case loop => split <;> rfl
  case ret =>
    intro s tile eng n o f h hlen
    have hbody : loomRet { tile := tile, eng := eng, op := n } f s.dev = (s.dev, .goto ((getLoom s.dev tile eng).sreg 31).toNat) := by
      simp only [loomRet, if_pos hlen]
    exact acts_of_goto h hbody rfl (fun _ _ => rfl) rfl rfl
  case beyond =>
    have hbody : loomRet { tile := tile, eng := eng, op := n } f s.dev = (s.dev, .fault 0x0B 0) := by
      simp only [loomRet, if_neg (Nat.not_lt.mpr hlen)]
    exact acts_of_end h hbody rfl

end Sys2Proof.LoomResultProofs
end

section
/-! SUPPORT. The instructions of a Loom that write lanes and masks (R156 to R159, R168, R169): operands as lists of lanes, masks as sets of
lanes, vector and mask registers after a write, and from them the statements on vector arithmetic, comparisons, masks and conversions. -/

namespace Sys2Proof.LoomLaneProofs

open Sys2Proof Sys2Proof.Machine Sys2Proof.Safety Sys2Proof.OrgProofs Sys2Proof.LoomProofs Sys2Proof.LoomResultProofs

/-! ## Lanes of operands (Tables 6.1 and 6.3) -/

/-- A vector of 256 lanes is the list of them. -/
theorem lanes_eq_map {v : Lanes} (h : v.length = 256) : v = (List.range 256).map fun k => v.getD k 0 := by
  refine List.ext_getElem (by simp [h]) fun k hk _ => ?_
  simp [hk]

/-- Every vector register has 256 lanes. -/
theorem vreg_length {l : Loom} (h : filesWhole l) (i : BitVec 6) : (l.vreg i).length = 256 := by
  obtain ⟨-, -, hregs, hlanes⟩ := h
  have hi : i.toNat < l.v.length := hregs ▸ i.isLt
  refine hlanes _ ?_
  rw [Loom.vreg, List.getD_eq_getElem _ _ hi]
  exact List.getElem_mem hi

/-- Each register, as its lanes. -/
theorem vreg_eq_map {l : Loom} (h : filesWhole l) (i : BitVec 6) : l.vreg i = (List.range 256).map (lane l i) :=
  lanes_eq_map (vreg_length h i)

section
variable {l : Loom} (h : filesWhole l) (f : LoomFields)
include h

/-- Operand A, as its lanes. -/
theorem laneA_eq_map : l.laneA f = (List.range 256).map (laneOfA l f) := by
  unfold Loom.laneA
  split
  next has =>
    have hlane : laneOfA l f = fun _ => (l.sreg f.a).setWidth 32 := funext fun _ => if_pos has
    rw [hlane, List.map_const', List.length_range, broadcast]
  next has =>
    have hlane : laneOfA l f = lane l f.a := funext fun _ => if_neg has
    rw [hlane, ← vreg_eq_map h]

/-- Operand B, as its lanes. -/
theorem laneB_eq_map : l.laneB f = (List.range 256).map (laneOfB l f) := by
  unfold Loom.laneB
  split
  next hbs =>
    have hlane : laneOfB l f = fun _ => (l.sreg f.b).setWidth 32 := funext fun _ => if_pos hbs
    rw [hlane, List.map_const', List.length_range, broadcast]
  next hbs =>
    have hlane : laneOfB l f = lane l f.b := funext fun _ => if_neg hbs
    rw [hlane, ← vreg_eq_map h]

/-- Operand C, as its lanes. -/
theorem laneC_eq_map : l.laneC f = (List.range 256).map (lane l f.c) := vreg_eq_map h f.c

/-- A function of the lanes of A and B, lane by lane. -/
theorem zipWith_laneA_laneB {α : Type} (g : W32 → W32 → α) :
    (l.laneA f).zipWith g (l.laneB f) = (List.range 256).map fun k => g (laneOfA l f k) (laneOfB l f k) := by
  rw [laneA_eq_map h, laneB_eq_map h, List.zipWith_map, List.zipWith_self]

/-- A function of the lanes of A. -/
theorem map_laneA {α : Type} (g : W32 → α) : (l.laneA f).map g = (List.range 256).map fun k => g (laneOfA l f k) := by
  rw [laneA_eq_map h, List.map_map]
  rfl

end

/-- A function of the lanes of a list of lanes, one lane. -/
theorem map_range_getD {α : Type} (g : Nat → α) (x : α) {k : Nat} (h : k < 256) : ((List.range 256).map g).getD k x = g k := by
  simp [h]

/-! ## Vector registers (Table 6.6) -/

/-- A vector register that is written whole. -/
theorem vectorSet_setV {l : Loom} (h : filesWhole l) (i : BitVec 6) {new : Lanes} {val : Nat → W32}
    (hval : ∀ k, k < 256 → new.getD k 0 = val k) : vectorSet l (l.setV i new) i val := by
  obtain ⟨-, -, hregs, -⟩ := h
  have hi : i.toNat < l.v.length := hregs ▸ i.isLt
  refine ⟨rfl, fun j hj => ?_, fun k hk => ?_⟩
  · have hsub : i.toNat ≠ j.toNat := fun h => hj (BitVec.eq_of_toNat_eq h.symm)
    simp [Loom.setV, Loom.vreg, List.getD_eq_getElem?_getD, List.getElem?_set_ne hsub]
  · have hsame : (l.setV i new).vreg i = new := by simp [Loom.setV, Loom.vreg, hi]
    rw [lane, hsame, hval k hk]

/-- What an inactive lane keeps may be told first. -/
theorem ite_not_active {α : Type} (b : Bool) (x y : α) : (if (!b) = true then x else y) = if b = true then y else x := by
  cases b <;> rfl

/-- An instruction that writes the active lanes of a vector register. -/
theorem vectorResult_of_putV (op : LoomOp) {g : LoomFields → Loom → Loom} {val : LoomFields → Loom → Nat → W32}
    (hbody : loomBody op = regsOnly g)
    (hg : ∀ f l, filesWhole l → acceptLoom l.length { op := op, f := f } = true → g f l = l.putV f ((List.range 256).map (val f l))) :
    vectorResult (fun tile eng f => loomCmd tile eng f op) op val := by
  intro s tile eng n o f h
  have ⟨_, _, _, _, hwhole, _, haccept⟩ := h
  obtain ⟨d, hexec, hgoes⟩ := acts_of_modLoom (g := g f) h (by rw [hbody]; rfl) (hg f _ hwhole haccept) rfl
  exact ⟨d, hexec, _, vectorSet_putV hwhole f _, hgoes⟩

/-! ## Floating-point lanes (Table 6.10) -/

/-- A lane's result tells on `g` at the operands' values alone. -/
theorem laneFp_congr {ty rc : Nat} {nanFirst : Bool} {g g' : List Val → Val} {xs : List W32}
    (h : ∀ φ : W32 → Val, g (xs.map φ) = g' (xs.map φ)) : laneFp ty rc nanFirst g xs = laneFp ty rc nanFirst g' xs := by
  simp only [laneFp, h]

/-- An instruction of one operand. -/
theorem vectorResult_of_fp1 (op : LoomOp) {nanFirst : Bool} {g g' : List Val → Val} (hbody : loomBody op = vectorFp1 nanFirst g)
    (hg : ∀ x, g [x] = g' [x]) : vectorResult (fun tile eng f => loomCmd tile eng f op) op fun f l k =>
      laneFp f.ty.toNat f.rc.toNat nanFirst g' [laneOfA l f k] := by
  refine vectorResult_of_putV op hbody fun f l hwhole _ => congrArg (l.putV f) ?_
  rw [map_laneA hwhole]
  exact List.map_congr_left fun k _ => laneFp_congr fun φ => hg _

/-- An instruction of two operands. -/
theorem vectorResult_of_fp2 (op : LoomOp) {g g' : List Val → Val} (hbody : loomBody op = vectorFp2 g)
    (hg : ∀ x y, g [x, y] = g' [x, y]) : vectorResult (fun tile eng f => loomCmd tile eng f op) op fun f l k =>
      laneFp f.ty.toNat f.rc.toNat true g' [laneOfA l f k, laneOfB l f k] := by
  refine vectorResult_of_putV op hbody fun f l hwhole _ => congrArg (l.putV f) ?_
  rw [zipWith_laneA_laneB hwhole]
  exact List.map_congr_left fun k _ => laneFp_congr fun φ => hg _ _

/-- An instruction of three operands. -/
theorem vectorResult_of_fp3 (op : LoomOp) {g g' : List Val → Val} (hbody : loomBody op = vectorFp3 g)
    (hg : ∀ x y z, g [x, y, z] = g' [x, y, z]) : vectorResult (fun tile eng f => loomCmd tile eng f op) op fun f l k =>
      laneFp f.ty.toNat f.rc.toNat true g' [laneOfA l f k, laneOfB l f k, lane l f.c k] := by
  refine vectorResult_of_putV op hbody fun f l hwhole _ => congrArg (l.putV f) ?_
  rw [laneA_eq_map hwhole, laneB_eq_map hwhole, laneC_eq_map hwhole, List.zip_map', List.zipWith_map, List.zipWith_self]
  exact List.map_congr_left fun k _ => laneFp_congr fun φ => hg _ _ _

/-! ## Integer lanes (Table 6.11) -/

/-- An instruction of two integer operands. -/
theorem vectorResult_of_int (op : LoomOp) (g : Bool → W32 → W32 → W32) {val : LoomFields → Loom → Nat → W32}
    (hbody : loomBody op = vectorInt g) (hg : ∀ f l k, g (f.ty == 3) (laneOfA l f k) (laneOfB l f k) = val f l k) :
    vectorResult (fun tile eng f => loomCmd tile eng f op) op val := by
  refine vectorResult_of_putV op hbody fun f l hwhole _ => congrArg (l.putV f) ?_
  rw [zipWith_laneA_laneB hwhole]
  exact List.map_congr_left fun k _ => hg f l k

/-- The order of integer lanes, signed or unsigned by TY. -/
theorem intLe_iff (ty : BitVec 3) (a b : W32) :
    intLe (ty == 3) a b = true ↔ if ty = 3 then a.toInt ≤ b.toInt else a.toNat ≤ b.toNat := by
  unfold intLe
  by_cases hty : ty = 3
  · simp only [hty, BEq.rfl, if_true, BitVec.sle_iff_toInt_le]
  · simp only [beq_false_of_ne hty, Bool.false_eq_true, hty, if_false, BitVec.ule_iff_toNat_le]

/-- The minimum of integer lanes. -/
theorem intMin_eq (ty : BitVec 3) (a b : W32) : (if intLe (ty == 3) a b then a else b) =
    if ty = 3 then (if a.toInt ≤ b.toInt then a else b) else if a.toNat ≤ b.toNat then a else b := by
  simp only [intLe_iff]
  split
  · rfl
  · rfl

/-- Their maximum. -/
theorem intMax_eq (ty : BitVec 3) (a b : W32) : (if intLe (ty == 3) b a then a else b) =
    if ty = 3 then (if a.toInt ≤ b.toInt then b else a) else if a.toNat ≤ b.toNat then b else a := by
  simp only [intLe_iff]
  split
  · exact ite_le_swap (fun _ _ => BitVec.eq_of_toInt_eq) a b
  · exact ite_le_swap (fun _ _ => BitVec.eq_of_toNat_eq) a b

/-- A shift to the right, arithmetic or logical. -/
theorem shiftRight_eq (ty : BitVec 3) (a b : W32) :
    (if (ty == 3) = true then a.sshiftRight (b.toNat % 32) else a >>> (b.toNat % 32)) =
      if ty = 3 then a.sshiftRight (b.toNat % 32) else a >>> (b.toNat % 32) := by
  simp only [beq_iff_eq]

/-- Settles O12: each operand is the list of its 256 lanes, so that a function of the lists is told lane by lane. -/
theorem loomVectorArithmeticResults : Obligations.LoomVectorArithmeticResults := by
  unfold Obligations.LoomVectorArithmeticResults
  refine ⟨⟨vectorResult_of_fp2 .vadd rfl fun _ _ => rfl, vectorResult_of_fp2 .vsub rfl fun _ _ => rfl,
    vectorResult_of_fp2 .vmul rfl fun _ _ => rfl, vectorResult_of_fp3 .vfma rfl fun _ _ _ => rfl,
    vectorResult_of_fp3 .vfms rfl fun _ _ _ => rfl, vectorResult_of_fp3 .vfnma rfl fun _ _ _ => rfl,
    vectorResult_of_fp2 .vmin rfl fun _ _ => rfl, vectorResult_of_fp2 .vmax rfl fun _ _ => rfl,
    vectorResult_of_fp1 .vabs rfl fun _ => rfl, vectorResult_of_fp1 .vneg rfl fun _ => rfl,
    vectorResult_of_fp1 .vrcp rfl fun _ => rfl, vectorResult_of_fp1 .vrsqrt rfl fun _ => rfl,
    vectorResult_of_fp1 .vsqrt rfl fun _ => rfl, vectorResult_of_fp2 .vdiv rfl fun _ _ => rfl,
    vectorResult_of_fp1 .vexp2 rfl fun _ => rfl, vectorResult_of_fp1 .vlog2 rfl fun _ => rfl,
    vectorResult_of_fp1 .vexp rfl fun _ => rfl, vectorResult_of_fp1 .vtanh rfl fun _ => rfl,
    vectorResult_of_putV .vrint rfl fun f l hwhole _ => congrArg (l.putV f) ?vrint,
    vectorResult_of_putV .vldexp rfl fun f l hwhole _ => congrArg (l.putV f) ?vldexp⟩,
    vectorResult_of_int .viadd (fun _ a b => a + b) rfl fun _ _ _ => rfl,
    vectorResult_of_int .visub (fun _ a b => a - b) rfl fun _ _ _ => rfl,
    vectorResult_of_int .vimul (fun _ a b => a * b) rfl fun _ _ _ => rfl,
    vectorResult_of_int .vimin (fun sg a b => if intLe sg a b then a else b) rfl fun f _ _ => intMin_eq f.ty _ _,
    vectorResult_of_int .vimax (fun sg a b => if intLe sg b a then a else b) rfl fun f _ _ => intMax_eq f.ty _ _,
    vectorResult_of_int .vand (fun _ a b => a &&& b) rfl fun _ _ _ => rfl,
    vectorResult_of_int .vor (fun _ a b => a ||| b) rfl fun _ _ _ => rfl,
    vectorResult_of_int .vxor (fun _ a b => a ^^^ b) rfl fun _ _ _ => rfl,
    vectorResult_of_int .vshl (fun _ a b => a <<< (b.toNat % 32)) rfl fun _ _ _ => rfl,
    vectorResult_of_int .vshr (fun sg a b => if sg then a.sshiftRight (b.toNat % 32) else a >>> (b.toNat % 32)) rfl fun f _ _ => shiftRight_eq f.ty _ _,
    vectorResult_of_putV .vmov rfl fun f l hwhole _ => congrArg (l.putV f) (laneA_eq_map hwhole f),
    vectorResult_of_putV .viota rfl fun _ _ _ _ => rfl,
    vectorResult_of_putV .vli rfl fun f l _ _ => congrArg (l.putV f) (by simp [List.map_const']), ?vsel⟩
  case vrint =>
    rw [map_laneA hwhole]
    exact List.map_congr_left fun k _ => laneFp_congr fun _ => rfl
  case vldexp =>
    rw [zipWith_laneA_laneB hwhole]
    exact List.map_congr_left fun k _ => laneFp_congr fun _ => rfl
  case vsel =>
    intro s tile eng n o f h
    have ⟨_, _, _, _, hwhole, _, _⟩ := h
    obtain ⟨d, hexec, hgoes⟩ := acts_of_modLoom h rfl rfl rfl
    refine ⟨d, hexec, _, vectorSet_setV hwhole f.d fun k hk => ?_, hgoes⟩
    rw [laneA_eq_map hwhole, laneB_eq_map hwhole, mergeLanes_getD _ (by simpa using hk) (by simpa using hk), map_range_getD _ _ hk,
      map_range_getD _ _ hk]

/-! ## Masks as sets of lanes (Table 6.6) -/

/-- The integer whose bits a list gives, the lowest first. -/
def bitsNat : List Bool → Nat
  | [] => 0
  | b :: r => b.toNat + 2 * bitsNat r

/-- Its bits are those of the list. -/
theorem testBit_bitsNat (l : List Bool) (k : Nat) : (bitsNat l).testBit k = l.getD k false := by
  induction l generalizing k with
  | nil => simp [bitsNat]
  | cons b r ih =>
    cases k with
    | zero => cases b <;> simp [bitsNat, Nat.add_mod]
    | succ k =>
      have hhalf : (b.toNat + 2 * bitsNat r) / 2 = bitsNat r := by
        cases b <;> simp only [Bool.toNat_false, Bool.toNat_true] <;> omega
      rw [bitsNat, Nat.testBit_succ, hhalf, ih, List.getD_cons_succ]

/-- A mask is made of a list as that integer is: each lane adds its own bit. -/
theorem foldl_zipIdx_eq_bitsNat (l : List Bool) (n m : Nat) :
    (l.zipIdx m).foldl (fun n e => if e.1 then n + 2 ^ e.2 else n) n = n + 2 ^ m * bitsNat l := by
  induction l generalizing n m with
  | nil => simp [bitsNat]
  | cons b r ih =>
    rw [List.zipIdx_cons, List.foldl_cons, ih, bitsNat]
    cases b <;> simp <;> ring

/-- A lane of a mask that is made of a list. -/
theorem getLsbD_maskOf (l : List Bool) {k : Nat} (h : k < 256) : (maskOf l).getLsbD k = l.getD k false := by
  rw [maskOf, foldl_zipIdx_eq_bitsNat, BitVec.getLsbD_ofNat, decide_eq_true h, Bool.true_and, Nat.zero_add, Nat.pow_zero, Nat.one_mul,
    testBit_bitsNat]

/-- The bits set in two masks, lane by lane. -/
theorem popCount_and (m m' : BitVec 256) :
    popCount (m &&& m') = ((List.range 256).filter fun k => m.getLsbD k && m'.getLsbD k).length := by
  have hlanes : (m &&& m').getLsbD = fun k => m.getLsbD k && m'.getLsbD k := funext fun _ => BitVec.getLsbD_and
  rw [popCount, maskLanes, List.filter_map, List.length_map, hlanes]
  rfl

/-- A mask register that is written. -/
theorem maskSet_setM {l : Loom} (hlen : l.m.length = 16) {i : Nat} (hi : i < 16) (h0 : i ≠ 0) {x : BitVec 256} {val : Nat → Bool}
    (hval : ∀ k, k < 256 → x.getLsbD k = val k) : maskSet l (l.setM i x) i val := by
  rw [Loom.setM, if_neg h0]
  refine ⟨rfl, fun j hj => ?_, fun k hk => ?_⟩
  · unfold Loom.mreg
    simp [List.getD_eq_getElem?_getD, List.getElem?_set_ne hj.symm]
  · rw [← hval k hk, Loom.mreg, if_neg h0]
    simp [hlen, hi]

/-- An instruction that writes a mask register. -/
theorem maskResult_of_setM (op : LoomOp) {masked : Bool} {x : LoomFields → Loom → BitVec 256} {val : LoomFields → Loom → Nat → Bool}
    (hbody : loomBody op = regsOnly fun f l => l.setM f.d.toNat (x f l)) (hd : op.info.d = .maskDest)
    (hx : ∀ f l, filesWhole l → acceptLoom l.length { op := op, f := f } = true →
      ∀ k, k < 256 → (x f l).getLsbD k = (val f l k && (!masked || isActive l f k))) :
    maskResult (fun tile eng f => loomCmd tile eng f op) op masked val := by
  intro s tile eng n o f h
  have ⟨_, _, _, _, hwhole, _, haccept⟩ := h
  have ⟨_, hlen, _, _⟩ := hwhole
  obtain ⟨hi, h0⟩ := maskDest_of_accept haccept hd
  have hwait : ((getLoom s.dev tile eng).setM f.d.toNat (x f (getLoom s.dev tile eng))).waitFrom = (getLoom s.dev tile eng).waitFrom := by
    rw [Loom.setM, if_neg h0]
  obtain ⟨d, hexec, hgoes⟩ := acts_of_modLoom h (by rw [hbody]; rfl) rfl hwait
  exact ⟨d, hexec, _, maskSet_setM hlen hi h0 (hx f _ hwhole haccept), hgoes⟩

/-- One that tells something on each active lane. -/
theorem maskResult_of_putM (op : LoomOp) {new : LoomFields → Loom → List Bool} {val : LoomFields → Loom → Nat → Bool}
    (hbody : loomBody op = regsOnly fun f l => l.putM f (new f l)) (hd : op.info.d = .maskDest)
    (hnew : ∀ f l, filesWhole l → acceptLoom l.length { op := op, f := f } = true → new f l = (List.range 256).map (val f l)) :
    maskResult (fun tile eng f => loomCmd tile eng f op) op true val := by
  refine maskResult_of_setM op hbody hd fun f l hwhole haccept k hk => ?_
  rw [BitVec.getLsbD_and, getLsbD_maskOf _ hk, hnew f l hwhole haccept, map_range_getD _ _ hk]
  rfl

/-! ## Comparisons (Table 6.12) -/

/-- A comparison of lanes. -/
theorem maskResult_of_compare (op : LoomOp) (gf : Val → Val → Bool) (gi : Bool → W32 → W32 → Bool) {val : LoomFields → Loom → Nat → Bool}
    (hbody : loomBody op = compareLanes gf gi) (hd : op.info.d = .maskDest)
    (hg : ∀ f l k, acceptLoom l.length { op := op, f := f } = true →
      (if f.ty = 0 then gf (f32 (laneOfA l f k)) (f32 (laneOfB l f k)) else gi (f.ty == 3) (laneOfA l f k) (laneOfB l f k)) = val f l k) :
    maskResult (fun tile eng f => loomCmd tile eng f op) op true val := by
  refine maskResult_of_putM op hbody hd fun f l hwhole haccept => ?_
  rw [zipWith_laneA_laneB hwhole]
  exact List.map_congr_left fun k _ => hg f l k haccept

/-- The order of integer lanes, as a truth value. -/
theorem intLe_eq_decide (ty : BitVec 3) (a b : W32) :
    intLe (ty == 3) a b = if ty = 3 then decide (a.toInt ≤ b.toInt) else decide (a.toNat ≤ b.toNat) := by
  rw [Bool.eq_iff_iff, intLe_iff]
  split
  · rw [decide_eq_true_iff]
  · rw [decide_eq_true_iff]

/-- The strict order. -/
theorem not_intLe_eq_decide (ty : BitVec 3) (a b : W32) :
    (!intLe (ty == 3) b a) = if ty = 3 then decide (a.toInt < b.toInt) else decide (a.toNat < b.toNat) := by
  rw [intLe_eq_decide]
  split
  · rw [← decide_not, decide_eq_decide]
    exact not_le
  · rw [← decide_not, decide_eq_decide]
    exact not_le

/-- An instruction whose only lane type is .f32 has TY 0. -/
theorem type_eq_zero_of_accept {len : Nat} {op : LoomOp} {f : LoomFields} (h : acceptLoom len { op := op, f := f } = true)
    (htypes : op.info.types = tyF32) : f.ty = 0 :=
  BitVec.eq_of_toNat_eq (List.mem_singleton.mp (type_of_accept h htypes))

/-- Settles O13: a mask made of a list of lanes has a bit set where the list says so, within the governing mask or without it. -/
theorem loomCompareAndMaskResults : Obligations.LoomCompareAndMaskResults := by
  unfold Obligations.LoomCompareAndMaskResults
  refine ⟨maskResult_of_compare .vcmpeq (fun a b => a.le b && b.le a) (fun _ a b => a == b) rfl rfl fun _ _ _ _ => rfl,
    maskResult_of_compare .vcmpne (fun a b => !(a.le b && b.le a)) (fun _ a b => a != b) rfl rfl fun _ _ _ _ => rfl,
    maskResult_of_compare .vcmplt Val.lt (fun sg a b => !(intLe sg b a)) rfl rfl fun f _ _ _ => by rw [not_intLe_eq_decide],
    maskResult_of_compare .vcmple Val.le intLe rfl rfl fun f _ _ _ => by rw [intLe_eq_decide],
    maskResult_of_compare .vcmpun (fun a b => (firstNan [a, b]).isSome) (fun _ _ _ => false) rfl rfl fun f _ _ haccept => ?vcmpun,
    maskResult_of_putM .visfin rfl rfl fun f l hwhole _ => map_laneA hwhole f _,
    maskResult_of_setM .mand rfl rfl fun f l _ _ k hk => ?mand, maskResult_of_setM .mor rfl rfl fun f l _ _ k hk => ?mor,
    maskResult_of_setM .mxor rfl rfl fun f l _ _ k hk => ?mxor, maskResult_of_setM .mnot rfl rfl fun f l _ _ k hk => ?mnot,
    maskResult_of_setM .mprefix rfl rfl fun f l _ _ k hk => ?mprefix,
    scalarResult_of_regsOnly .mpopc rfl rfl fun f l _ _ => ?mpopc, scalarResult_of_regsOnly .mfirst rfl rfl fun f l _ _ => ?mfirst⟩
  case vcmpun => exact if_pos (type_eq_zero_of_accept haccept rfl)
  case mand => simp
  case mor => simp
  case mxor => simp
  case mnot => simp [hk]
  case mprefix =>
    rw [BitVec.getLsbD_ofNat, decide_eq_true hk, Nat.testBit_two_pow_sub_one]
    simp [hk]
  case mpopc => rw [popCount_and]
  case mfirst =>
    have hlanes : (l.mreg f.a.toNat &&& l.active f).getLsbD = fun k => (l.mreg f.a.toNat).getLsbD k && isActive l f k :=
      funext fun _ => BitVec.getLsbD_and
    rw [hlanes]

/-! ## Conversions (R168, R169, Table 6.14) -/

/-- The saturated lanes go to mask SM, where it names one. -/
theorem putSat_spec {l : Loom} (hlen : l.m.length = 16) (f : LoomFields) (out : Nat → Conv) (active : BitVec 256) :
    if f.sm = 0 then putSat f ((List.range 256).map out) active l = l
    else maskSet l (putSat f ((List.range 256).map out) active l) f.sm.toNat fun k => (out k).sat && active.getLsbD k := by
  split
  next h0 => rw [putSat, h0]; rfl
  next h0 =>
    refine maskSet_setM hlen f.sm.isLt (fun h => h0 (BitVec.eq_of_toNat_eq h)) fun k hk => ?_
    rw [BitVec.getLsbD_and, getLsbD_maskOf _ hk, List.map_map, map_range_getD _ _ hk]
    rfl

/-- It keeps the Loom out of a wait, or in it. -/
@[simp] theorem putSat_waitFrom (f : LoomFields) (outs : List Conv) (active : BitVec 256) (l : Loom) :
    (putSat f outs active l).waitFrom = l.waitFrom := by
  rw [putSat, Loom.setM]
  split <;> rfl

section
variable {s : State} {tile eng : Nat} {n : OpName} {o : Op} {op : LoomOp} {f : LoomFields}

/-- An instruction that writes the encoding of each active lane, and the saturated ones. -/
theorem acts_of_convert {outs : List Conv} {out : Nat → Conv} (h : loomReady s tile eng n o op f)
    (hbody : loomBody op { tile := tile, eng := eng, op := n } f s.dev = (modLoom s.dev tile eng fun l =>
      putSat f outs (l.active f) (l.putV f (outs.map fun c => BitVec.ofNat 32 c.pat)), .next))
    (houts : outs = (List.range 256).map out) :
    acts (loomCmd tile eng f op) s fun d => ∃ l1 l2,
      vectorSet (getLoom s.dev tile eng) l1 f.d (fun k => if isActive (getLoom s.dev tile eng) f k then BitVec.ofNat 32 (out k).pat
        else lane (getLoom s.dev tile eng) f.d k) ∧
      (if f.sm = 0 then l2 = l1 else maskSet l1 l2 f.sm.toNat fun k => (out k).sat && isActive (getLoom s.dev tile eng) f k) ∧
      loomGoesOn s.dev d tile eng n l2 := by
  subst houts
  have ⟨_, _, _, _, hwhole, _, _⟩ := h
  have ⟨_, hlen, _, _⟩ := hwhole
  obtain ⟨d, hexec, hgoes⟩ := acts_of_modLoom h hbody rfl (putSat_waitFrom ..)
  refine ⟨d, hexec, _, _, ?_, putSat_spec ?_ f out _, hgoes⟩
  · rw [List.map_map]
    exact vectorSet_putV hwhole f _
  · exact hlen

end

/-- VCVT.X of a format word that it accepts. -/
theorem loomVcvtX_of_good {a : LoomAt} {f : LoomFields} {d : Dev}
    (hword : laneWordBad f.ty (((getLoom d a.tile a.eng).sreg f.b).toNat % 65536) = false) :
    loomVcvtX a f d = (modLoom d a.tile a.eng fun l => putSat f
      (((getLoom d a.tile a.eng).laneA f).map fun x =>
        convert (fmtOf (((getLoom d a.tile a.eng).sreg f.b).toNat % 65536)) f.rc.toNat 0 (if f.ty = 3 then intVal x.toInt 0 else f32 x))
      (l.active f)
      (l.putV f ((((getLoom d a.tile a.eng).laneA f).map fun x =>
        convert (fmtOf (((getLoom d a.tile a.eng).sreg f.b).toNat % 65536)) f.rc.toNat 0
          (if f.ty = 3 then intVal x.toInt 0 else f32 x)).map fun c => BitVec.ofNat 32 c.pat)), .next) := by
  simp only [loomVcvtX, hword, Bool.false_eq_true, if_false]

/-- VDCD.X of a lane. -/
def decodedLane (ty : BitVec 3) (w : Nat) (x : W32) : W32 :=
  if ty = 3 then
    BitVec.ofNat 32 (convert { code := 11, mx := false, scale := 0 } 0 0 (readVal (fmtOf w) (x.toNat % 2 ^ fmtBits (fmtOf w).code) 127)).pat
  else toF32 (readVal (fmtOf w) (x.toNat % 2 ^ fmtBits (fmtOf w).code) 127)

/-- VDCD.X of a format word that it accepts. -/
theorem loomVdcdX_of_good {a : LoomAt} {f : LoomFields} {d : Dev}
    (hword : laneWordBad f.ty (((getLoom d a.tile a.eng).sreg f.b).toNat % 65536) = false) :
    loomVdcdX a f d = (modLoom d a.tile a.eng fun l => l.putV f
      ((l.laneA f).map (decodedLane f.ty (((getLoom d a.tile a.eng).sreg f.b).toNat % 65536))), .next) := by
  simp only [loomVdcdX, hword, Bool.false_eq_true, if_false]
  rfl

/-- Settles O15: a conversion is told lane by lane, with the saturated lanes in the mask that SM names; a format word that is refused ends the
operation. -/
theorem loomConversionResults : Obligations.LoomConversionResults := by
  unfold Obligations.LoomConversionResults
  refine ⟨vectorResult_of_putV .vcvtF2i rfl fun f l hwhole _ => congrArg (l.putV f) (map_laneA hwhole f _),
    vectorResult_of_putV .vcvtI2f rfl fun f l hwhole _ => congrArg (l.putV f) (map_laneA hwhole f _),
    vectorResult_of_putV .vpack rfl fun f l hwhole _ => congrArg (l.putV f) (zipWith_laneA_laneB hwhole f _),
    vectorResult_of_putV .vunpl rfl fun f l hwhole _ => congrArg (l.putV f) (map_laneA hwhole f _),
    vectorResult_of_putV .vunph rfl fun f l hwhole _ => congrArg (l.putV f) (map_laneA hwhole f _),
    fun s tile eng n o f h => ?vcvtX, fun s tile eng n o f h => ?vdcdX⟩
  case vcvtX =>
    have ⟨_, _, _, _, hwhole, _, _⟩ := h
    dsimp only
    split
    next hbad =>
      have hbody : loomVcvtX { tile := tile, eng := eng, op := n } f s.dev = (s.dev, .fault 9 0) := by simp only [loomVcvtX, hbad, if_true]
      obtain ⟨d, hexec, hended, -⟩ := acts_of_end h hbody rfl
      exact ⟨d, hexec, hended⟩
    next hgood => exact acts_of_convert h (loomVcvtX_of_good (Bool.eq_false_iff.mpr hgood)) (map_laneA hwhole f _)
  case vdcdX =>
    have ⟨_, _, _, _, hwhole, _, _⟩ := h
    dsimp only
    split
    next hbad =>
      have hbody : loomVdcdX { tile := tile, eng := eng, op := n } f s.dev = (s.dev, .fault 9 0) := by simp only [loomVdcdX, hbad, if_true]
      obtain ⟨d, hexec, hended, -⟩ := acts_of_end h hbody rfl
      exact ⟨d, hexec, hended⟩
    next hgood =>
      obtain ⟨d, hexec, hgoes⟩ := acts_of_modLoom h (loomVdcdX_of_good (Bool.eq_false_iff.mpr hgood))
        (congrArg (Loom.putV _ f) (map_laneA hwhole f _)) rfl
      refine ⟨d, hexec, _, ?_, hgoes⟩
      simp only [ite_not_active]
      exact vectorSet_putV hwhole f _

/-! ## Census contributions (R172, Table 6.16) -/

/-- Some of a list, each changed. -/
theorem filterMap_ite {α β : Type} (p : α → Bool) (g : α → β) (l : List α) :
    (l.filterMap fun x => if p x then some (g x) else none) = (l.filter p).map g := by
  induction l with
  | nil => rfl
  | cons x r ih =>
    cases hx : p x with
    | true => simp [hx, ih]
    | false => simp [hx, ih]

/-- The active lanes of A, lane 0 first. -/
theorem activeLanes_eq {l : Loom} (h : filesWhole l) (f : LoomFields) :
    (((l.laneA f).zip (maskLanes (l.active f))).filterMap fun e => if e.2 then some e.1 else none) =
      ((List.range 256).filter (isActive l f)).map (laneOfA l f) := by
  rw [laneA_eq_map h, maskLanes, List.zip_map', List.filterMap_map]
  exact filterMap_ite (isActive l f) (laneOfA l f) _

/-- An operation that ends keeps all but how it stands. -/
theorem getOp_completeOp {d : Dev} {n : OpName} {o : Op} (h : getOp d n = some o) (st : Byte) (detail : Nat) :
    ∃ b, getOp (completeOp d n st detail) n = some { o with
      phase := .complete, status := st, detail := BitVec.ofNat 64 detail, completeAt := cycle d, sends := [], stallFrom := none
      noted := b } := by
  have hdone := getOp_modOp (f := fun o : Op => { o with
    phase := .complete, status := st, detail := BitVec.ofNat 64 detail, completeAt := cycle d, sends := [], stallFrom := none }) h fun _ => rfl
  unfold completeOp
  dsimp only
  split
  · exact ⟨_, hdone⟩
  · generalize modOp d n _ = d1 at hdone ⊢
    unfold noteFailure
    split
    next o' r hop _ =>
      obtain rfl := Option.some.inj (hop.symm.trans hdone)
      split
      · obtain ⟨_, _, _, _, _, _, _, e⟩ := endClears_frame (modOp d1 n fun o => { o with noted := true }) n _ st
        rw [e]
        exact ⟨true, getOp_modOp (f := fun o : Op => { o with noted := true }) hdone fun _ => rfl⟩
      · exact ⟨_, hdone⟩
    next => exact ⟨_, hdone⟩

/-- What goes on after an instruction leaves the contributions of its operation alone. -/
theorem census_nextInstr {d : Dev} {a : LoomAt} {o : Op} (h : getOp d a.op = some o) :
    (getOp (nextInstr d a) a.op).map (·.census) = some o.census := by
  obtain ⟨c, x, hcount, -⟩ := countIssue_frame d a
  unfold nextInstr afterInstr
  rw [hcount]
  dsimp only
  split
  · exact congrArg (Option.map (·.census)) h
  · obtain ⟨b, hend⟩ := getOp_completeOp (d := modLoom { d with counters := c, looms := x } a.tile a.eng fun l =>
      { l with run := none, waitFrom := none, waitOut := none, waitIn := none }) h stProgramFault
      (((getLoom { d with counters := c, looms := x } a.tile a.eng).length - 1) % 65536 + 0x0C * 65536)
    rw [endLoom, hend]
    rfl

/-- A tensor word whose bits [63:28] are zero names a tensor. -/
theorem tensorOf_of_lt {w : W64} (h : w.toNat < 2 ^ 28) : tensorOf w = some (w.toNat / 65536 % 4096) :=
  if_pos (Nat.div_eq_of_lt h)

/-- Any other one names none. -/
theorem tensorOf_of_not_lt {w : W64} (h : ¬ w.toNat < 2 ^ 28) : tensorOf w = none :=
  if_neg fun h0 => h (Nat.lt_of_div_eq_zero (by decide) h0)

section
variable {s : State} {tile eng : Nat} {n : OpName} {o : Op} {op : LoomOp} {f : LoomFields}

/-- An instruction that adds a contribution where its tensor word is right, and faults where it is not. -/
theorem acts_of_census {x : Nat → CensusAdd} (h : loomReady s tile eng n o op f)
    (hbody : loomBody op { tile := tile, eng := eng, op := n } f s.dev =
      match tensorOf ((getLoom s.dev tile eng).sreg f.b) with
      | none => (s.dev, .fault 0x0A 0)
      | some t => (addCensus s.dev n (x t), .next)) :
    if ((getLoom s.dev tile eng).sreg f.b).toNat < 2 ^ 28 then
      acts (loomCmd tile eng f op) s fun d =>
        (getOp d n).map (·.census) = some (o.census ++ [x (((getLoom s.dev tile eng).sreg f.b).toNat / 65536 % 4096)]) ∧
        loomGoesOnIn onlyOps s.dev d tile eng n (getLoom s.dev tile eng)
    else acts (loomCmd tile eng f op) s fun d => ended d n 0x2A ((getLoom s.dev tile eng).pc % 65536 + 0x0A * 65536) := by
  have hop := getOp_of_loomReady h
  have ⟨_, _, _, _, _, hwait, _⟩ := h
  split
  next hlt =>
    rw [tensorOf_of_lt hlt] at hbody
    have hadded := getOp_modOp (f := fun o : Op => { o with
      census := o.census ++ [x (((getLoom s.dev tile eng).sreg f.b).toNat / 65536 % 4096)] }) hop fun _ => rfl
    refine acts_of_next h hbody rfl ⟨census_nextInstr (a := { tile := tile, eng := eng, op := n }) hadded, ?_⟩
    exact loomGoesOnIn_nextInstr (Option.isSome_iff_exists.mpr ⟨_, hadded⟩) (fun _ _ => rfl) rfl hwait fun _ _ => rfl
  next hge =>
    rw [tensorOf_of_not_lt hge] at hbody
    obtain ⟨d, hexec, hended, -⟩ := acts_of_end h hbody rfl
    exact ⟨d, hexec, hended⟩

end

/-- Settles O18: the contribution is appended to those of the running operation, and stays there where the program ends behind it. -/
theorem loomCensusResults : Obligations.LoomCensusResults := by
  unfold Obligations.LoomCensusResults
  refine fun s tile eng n o f => ⟨fun h => ?val, fun h => ?sat, fun h => ?nf⟩
  case val =>
    have ⟨_, _, _, _, hwhole, _, _⟩ := h
    exact acts_of_census (x := fun t => censusOf f.ty.toNat t _) h (by
      rw [← activeLanes_eq hwhole]
      rfl)
  case sat => exact acts_of_census (x := fun t => { tensor := t, saturated := _ }) h (by rw [← popCount_and]; rfl)
  case nf => exact acts_of_census (x := fun t => { tensor := t, nonfinite := _ }) h (by rw [← popCount_and]; rfl)

end Sys2Proof.LoomLaneProofs
end

section
/-! SUPPORT. VCOMPRESS whose count names s0 (R154, R162): a Loom on which the statement on cross-lane instructions fails. -/

namespace Sys2Proof.LoomCompressProofs

open Sys2Proof Sys2Proof.Machine Sys2Proof.Safety Sys2Proof.RingProofs Sys2Proof.Tests

/-- VCOMPRESS v5, v1 under m0, with the number of active lanes to s0. C is a source to the load check, which accepts it. -/
def countToZero : LoomFields := { d := 5, a := 1, ty := 4 }

/-- A Loom that may issue it, all its scalar registers but s1 and s2 zero. -/
def compressDev : Dev := loomDev loomOp { op := .vcompress, f := countToZero }

/-- Whatever follows an instruction, its Loom keeps the scalar registers that the instruction left. -/
theorem s_of_loomGoesOn {frame : Dev → Dev → Prop} {d d' : Dev} {tile eng : Nat} {n : OpName} {l : Loom}
    (h : loomGoesOnIn frame d d' tile eng n l) : (getLoom d' tile eng).s = l.s := by
  obtain ⟨-, h⟩ := h
  split at h
  · rw [h.1]
  · rw [h.1]

/-- The write to s0 is lost: the register stays zero. -/
theorem s0_after_compress :
    (getLoom (running (issueLoom .vcompress loomVcompress 1 0 countToZero) compressDev) 1 0).s.getD 0 0 = 0 := by decide +kernel

/-- Refutes O14, at its clause on VCOMPRESS: where C names s0, all 256 lanes are active, and the register of s0 holds zero, it does not
come to hold the number of active lanes, since a write to s0 is lost. The premise that C is not s0 is missing. -/
theorem not_loomCrossLaneResults : ¬ Obligations.LoomCrossLaneResults := by
  unfold Obligations.LoomCrossLaneResults
  rintro ⟨-, -, -, -, -, -, -, -, -, -, -, -, hcompress⟩
  have hacts := hcompress (stateOf compressDev) 1 0 name0 loomOp countToZero (by decide +kernel)
  obtain ⟨l1, l2, ⟨⟨hkept, -⟩, hcount⟩, hgoes⟩ := of_acts hacts rfl
  have hactive : ((List.range 256).filter (isActive (getLoom compressDev 1 0) countToZero)).length = 256 := by decide +kernel
  have hs1 : l1.s = (getLoom compressDev 1 0).s := by rw [← show _ = getLoom compressDev 1 0 from hkept]
  have hs2 : l2.s = l1.s.set 0 (BitVec.ofNat 64 256) := by rw [← hactive]; exact congrArg Loom.s hcount
  have hval := congrArg (List.getD · 0 0) ((s_of_loomGoesOn hgoes).trans (hs2.trans (by rw [hs1])))
  exact absurd (s0_after_compress.symm.trans hval) (by decide +kernel)

end Sys2Proof.LoomCompressProofs
end

section
/-! SUPPORT. What the accesses of a Loom rest on (R156, R164, R343): buffers that pieces are laid into, ranges of memory that the accesses
of single lanes cover, and the runs of active lanes. -/

namespace Sys2Proof.LoomRangeProofs

open Sys2Proof Sys2Proof.Machine Sys2Proof.Safety Sys2Proof.LoomProofs Sys2Proof.MillProofs Sys2Proof.StoreProofs

/-! ## Buffers -/

/-- A slice lists the bytes from its offset up, zero past the end. -/
theorem slice_eq_map (b : Bytes) (off n : Nat) : slice b off n = (List.range n).map fun i => b.getD (off + i) 0 := by
  refine List.ext_getElem (by simp) fun i hi _ => ?_
  have hlt : i < n := by simpa using hi
  rw [List.getElem_map, List.getElem_range]
  simp only [slice]
  by_cases hin : i < ((b.drop off).take n).length
  · have hb : off + i < b.length := by
      rw [List.length_take, List.length_drop] at hin
      omega
    rw [List.getElem_append_left hin]
    simp [hb]
  · have hb : b.length ≤ off + i := by
      rw [List.length_take, List.length_drop] at hin
      omega
    rw [List.getElem_append_right (by omega)]
    simp [List.getElem?_eq_none hb]

/-- Fields of two buffers that agree on their bytes are equal. -/
theorem fld_congr {b b' : Bytes} {off n : Nat} (h : ∀ x, off ≤ x → x < off + n → b.getD x 0 = b'.getD x 0) : fld b off n = fld b' off n := by
  unfold fld
  rw [slice_eq_map, slice_eq_map]
  exact congrArg leNat (List.map_congr_left fun i hi => h _ (by omega) (by have := List.mem_range.mp hi; omega))

/-- A field of a buffer that holds the bytes of memory from an address. -/
theorem fld_of_cells {b : Bytes} {m : List Host.Cell} {off n a : Nat} (h : ∀ i, i < n → b.getD (off + i) 0 = cellGet m (a + i)) :
    fld b off n = leNat (cellsRead m a n) := by
  rw [fld, slice_eq_map, cellsRead]
  exact congrArg leNat (List.map_congr_left fun i hi => h i (List.mem_range.mp hi))

/-- A piece laid into a buffer leaves its length. -/
theorem splice_length {b v : Bytes} {off : Nat} (h : off + v.length ≤ b.length) : (splice b off v).length = b.length := by
  simp only [splice, List.length_append, slice_length, List.length_drop]
  omega

/-- Its bytes are there, and every other byte as before. -/
theorem splice_getD (b v : Bytes) (off x : Nat) :
    (splice b off v).getD x 0 = if off ≤ x ∧ x < off + v.length then v.getD (x - off) 0 else b.getD x 0 := by
  have hlow : (slice b 0 off).length = off := slice_length ..
  simp only [splice, List.getD_eq_getElem?_getD]
  split_ifs with hx
  · rw [List.append_assoc, List.getElem?_append_right (by omega), hlow, List.getElem?_append_left (by omega)]
  · obtain hlt | hge : x < off ∨ off + v.length ≤ x := by omega
    · rw [List.append_assoc, List.getElem?_append_left (by omega), slice_eq_map]
      simp [hlt]
    · rw [List.getElem?_append_right (by simp; omega), List.getElem?_drop, List.length_append, hlow]
      congr 2
      omega

/-- A piece of a function of places. -/
def pieceOf (g : Nat → Byte) (r : Nat × Nat) : Nat × Bytes := (r.1, (List.range r.2).map fun i => g (r.1 + i))

/-- Pieces of one function laid into a buffer: the function shows wherever a piece covers it. -/
theorem foldl_splice_getD {g : Nat → Byte} {l : List (Nat × Nat)} {b : Bytes} (hl : ∀ r ∈ l, r.1 + r.2 ≤ b.length) {x : Nat}
    (hx : b.getD x 0 = g x ∨ ∃ r ∈ l, r.1 ≤ x ∧ x < r.1 + r.2) :
    ((l.map (pieceOf g)).foldl (fun b p => splice b p.1 p.2) b).getD x 0 = g x := by
  induction l generalizing b with
  | nil =>
    obtain hx | ⟨r, hr, -⟩ := hx
    · exact hx
    · cases hr
  | cons r l ih =>
    have hlen : (pieceOf g r).2.length = r.2 := by simp [pieceOf]
    obtain ⟨hr, hrest⟩ := List.forall_mem_cons.mp hl
    have hfits : (pieceOf g r).1 + (pieceOf g r).2.length ≤ b.length := by rw [hlen]; exact hr
    rw [List.map_cons, List.foldl_cons]
    refine ih (by rwa [splice_length hfits]) ?_
    rw [splice_getD, hlen, show (pieceOf g r).1 = r.1 from rfl]
    by_cases hin : r.1 ≤ x ∧ x < r.1 + r.2
    · left
      rw [if_pos hin]
      have hlt : x - r.1 < r.2 := by omega
      simp [pieceOf, hlt, Nat.add_sub_cancel' hin.1]
    · rw [if_neg hin]
      refine hx.imp_right fun ⟨q, hq, hcover⟩ => ?_
      obtain rfl | hq := List.mem_cons.mp hq
      · exact absurd hcover hin
      · exact ⟨q, hq, hcover⟩

/-- So a buffer that is filled with pieces of memory holds the bytes of memory where a piece covers it. -/
theorem fillBuffer_getD {n : Nat} {g : Nat → Byte} {l : List (Nat × Nat)} (hl : ∀ r ∈ l, r.1 + r.2 ≤ n) {x : Nat}
    (hx : ∃ r ∈ l, r.1 ≤ x ∧ x < r.1 + r.2) : (fillBuffer n (l.map (pieceOf g))).getD x 0 = g x :=
  foldl_splice_getD (by simpa using hl) (.inr hx)

/-! ## Ranges that accesses of single lanes cover -/

/-- Bytes of one region that can be read and written as they are stored. -/
def clearIn (d : Dev) (R : Region) (a n : Nat) : Prop := rangeRegion d a n = R ∧ memClear d a n

section
variable {d : Dev} {R : Region} {a n : Nat}

/-- Bytes of GDDR7. -/
theorem clearIn_of_gddrClear {die : Nat} (h : gddrClear d die a n) : clearIn d (.gddr die) a n := by
  obtain ⟨hregion, hfault, hflips⟩ := h
  exact ⟨hregion, by simp [inOwnMemory, hregion], hfault, hflips⟩

/-- Bytes of a tile's SRAM are in one region. -/
theorem rangeRegion_of_sramClear {tile off : Nat} (hn : 0 < n) (h : sramClear d tile off n) :
    rangeRegion d (sramBase tile + off) n = .sram tile := by
  obtain ⟨hend, hretired, -⟩ := h
  have ht : tile < 64 := by
    simp only [tileRetired, Bool.or_eq_false_iff, decide_eq_false_iff_not] at hretired
    omega
  have hcap := tileCapacity_lt tile
  have hregion := regionOf_sramBase d (t := tile) (off := off) ht (by omega)
  have hlt : off < tileCapacity tile := by omega
  have hle : sramBase tile + off + n ≤ sramBase tile + tileCapacity tile := by omega
  simp [rangeRegion, hregion, hlt, hretired, regionEnd, hle]

/-- And can be read and written as they are stored. -/
theorem clearIn_of_sramClear {tile off : Nat} (hn : 0 < n) (h : sramClear d tile off n) : clearIn d (.sram tile) (sramBase tile + off) n := by
  have hregion := rangeRegion_of_sramClear hn h
  obtain ⟨-, -, hon, hsram, hflips⟩ := h
  exact ⟨hregion, by simp [inOwnMemory, hregion], by simp [accessFault, hregion, hon, hsram], hflips⟩

/-- A part of bytes without stored errors has none. -/
theorem flipsIn_of_part {b m : Nat} (h : flipsIn d a n = []) (hlow : a ≤ b) (hhigh : b + m ≤ a + n) : flipsIn d b m = [] := by
  unfold flipsIn at h ⊢
  by_cases hm : m = 0
  · exact if_pos hm
  · rw [if_neg (by omega)] at h
    rw [if_neg hm]
    simp only [List.map_eq_nil_iff, List.filter_eq_nil_iff, Bool.and_eq_true, decide_eq_true_eq, not_and] at h ⊢
    intro e he hfrom hto
    exact h e he (by omega) (by omega)

/-- A part of a tile's clear bytes is clear. -/
theorem sramClear_of_part {tile off b m : Nat} (h : sramClear d tile off n) (hlow : off ≤ b) (hhigh : b + m ≤ off + n) :
    sramClear d tile b m := by
  obtain ⟨hend, hretired, hon, hsram, hflips⟩ := h
  exact ⟨by omega, hretired, hon, hsram, flipsIn_of_part hflips (by omega) (by omega)⟩

/-- A range in a region begins there, and ends there. -/
theorem rangeRegion_eq_iff (hR : R ≠ .unmapped) : rangeRegion d a n = R ↔ regionOf d a = R ∧ a + n ≤ regionEnd d R := by
  simp only [rangeRegion]
  split
  next hle => exact ⟨fun h => ⟨h, h ▸ hle⟩, fun h => h.1⟩
  next hle => exact ⟨fun h => absurd h.symm hR, fun ⟨h, h'⟩ => absurd (h ▸ h') hle⟩

/-- A region of clear bytes is mapped. -/
theorem clearIn.ne_unmapped (h : clearIn d R a n) : R ≠ .unmapped := by
  obtain ⟨hregion, hown, -⟩ := h
  rintro rfl
  simp [inOwnMemory, hregion] at hown

/-- The lines of a range. -/
theorem mem_linesOf (hn : n ≠ 0) (x : Nat) : x ∈ linesOf a n ↔ ∃ j, x = j * 512 ∧ a / 512 ≤ j ∧ j ≤ (a + n - 1) / 512 := by
  have hle : a / 512 ≤ (a + n - 1) / 512 := Nat.div_le_div_right (by omega)
  simp only [linesOf, if_neg hn, List.mem_map, List.mem_range]
  constructor
  · rintro ⟨i, hi, rfl⟩
    exact ⟨a / 512 + i, rfl, by omega, by omega⟩
  · rintro ⟨j, rfl, hlow, hhigh⟩
    exact ⟨j - a / 512, by omega, by congr 1; omega⟩

/-- A range whose every byte lies in a range without stored errors has none. -/
theorem flipsIn_of_cover (h : ∀ x, a ≤ x → x < a + n → ∃ b m, flipsIn d b m = [] ∧ b ≤ x ∧ x < b + m) : flipsIn d a n = [] := by
  unfold flipsIn
  split_ifs with hn
  · rfl
  · simp only [List.map_eq_nil_iff, List.filter_eq_nil_iff, Bool.and_eq_true, decide_eq_true_eq, not_and]
    intro e he hlow hhigh
    obtain ⟨b, m, hf, hb, hbm⟩ := h (max a (e.1 * 16)) (by omega) (by omega)
    unfold flipsIn at hf
    rw [if_neg (by omega)] at hf
    simp only [List.map_eq_nil_iff, List.filter_eq_nil_iff, Bool.and_eq_true, decide_eq_true_eq, not_and] at hf
    exact hf e he (by omega) (by omega)

/-- A range whose every byte lies in a range of lines without fault has no line with one. -/
theorem linesOf_of_cover (h : ∀ x, a ≤ x → x < a + n → ∃ b m, (linesOf b m).findSome? (lineFault d) = none ∧ b ≤ x ∧ x < b + m)
    (hn : n ≠ 0) : (linesOf a n).findSome? (lineFault d) = none := by
  refine List.findSome?_eq_none_iff.mpr fun x hx => ?_
  obtain ⟨j, rfl, hlow, hhigh⟩ := (mem_linesOf hn x).mp hx
  obtain ⟨b, m, hf, hb, hbm⟩ := h (max a (j * 512)) (by omega) (by omega)
  exact List.findSome?_eq_none_iff.mp hf _ ((mem_linesOf (by omega) _).mpr ⟨j, rfl, by omega, by omega⟩)

/-- A range that begins and ends in a region and whose every byte lies in clear bytes of the region is clear. -/
theorem clearIn_of_cover (hstart : regionOf d a = R) (hend : a + n ≤ regionEnd d R)
    (h : ∀ x, a ≤ x → x < a + n → ∃ b m, clearIn d R b m ∧ b ≤ x ∧ x < b + m) (hn : 0 < n) : clearIn d R a n := by
  obtain ⟨b0, m0, hfirst, hle, hlt⟩ := h a le_rfl (by omega)
  have hR := hfirst.ne_unmapped
  have hregion : rangeRegion d a n = R := (rangeRegion_eq_iff hR).mpr ⟨hstart, hend⟩
  obtain ⟨hregion0, hown0, hfault0, -⟩ := hfirst
  refine ⟨hregion, by rwa [inOwnMemory, hregion, ← hregion0], ?_, flipsIn_of_cover fun x hlow hhigh => ?_⟩
  · rw [accessFault, if_neg (by omega), hregion]
    cases R with
    | unmapped => exact absurd rfl hR
    | host => rw [inOwnMemory, hregion0] at hown0; cases hown0
    | peer w => rw [inOwnMemory, hregion0] at hown0; cases hown0
    | sram t =>
      rw [accessFault, if_neg (by omega), hregion0] at hfault0
      exact hfault0
    | gddr die =>
      refine linesOf_of_cover (fun x hlow hhigh => ?_) (by omega)
      obtain ⟨b, m, ⟨hr, -, hf, -⟩, hb, hbm⟩ := h x hlow hhigh
      rw [accessFault, if_neg (by omega), hr] at hf
      exact ⟨b, m, hf, hb, hbm⟩
  · obtain ⟨b, m, ⟨-, -, -, hf⟩, hb, hbm⟩ := h x hlow hhigh
    exact ⟨b, m, hf, hb, hbm⟩

end

/-! ## Runs of active lanes -/

/-- Runs (the last first) of the lanes of a mask below `j`: they hold active lanes alone, and every active lane. -/
def runsOf (m : BitVec 256) (j : Nat) (l : List (Nat × Nat)) : Prop :=
  (∀ r ∈ l, 0 < r.2 ∧ ∀ k, r.1 ≤ k → k < r.1 + r.2 → m.getLsbD k = true) ∧
  ∀ k, k < j → m.getLsbD k = true → ∃ r ∈ l, r.1 ≤ k ∧ k < r.1 + r.2

/-- The runs after one lane more. -/
def addLane (m : BitVec 256) (acc : List (Nat × Nat)) (i : Nat) : List (Nat × Nat) :=
  if !(m.getLsbD i) then acc
  else match acc with
    | (s, n) :: r => if s + n = i then (s, n + 1) :: r else (i, 1) :: (s, n) :: r
    | [] => [(i, 1)]

/-- Runs stay runs when an active lane is put before them as a run of its own. -/
theorem runsOf_cons {m : BitVec 256} {j : Nat} {acc : List (Nat × Nat)} (h : runsOf m j acc) (hj : m.getLsbD j = true) :
    runsOf m (j + 1) ((j, 1) :: acc) := by
  obtain ⟨hactive, hcover⟩ := h
  refine ⟨List.forall_mem_cons.mpr ⟨⟨Nat.one_pos, fun k hlow hhigh => ?_⟩, hactive⟩, fun k hk hon => ?_⟩
  · rwa [show k = j by simp only at hlow hhigh; omega]
  · obtain hlt | rfl : k < j ∨ k = j := by omega
    · obtain ⟨r, hr, hin⟩ := hcover k hlt hon
      exact ⟨r, List.mem_cons_of_mem _ hr, hin⟩
    · exact ⟨_, List.mem_cons_self, le_rfl, Nat.lt_succ_self k⟩

/-- One lane more keeps them runs. -/
theorem runsOf_addLane {m : BitVec 256} {j : Nat} {acc : List (Nat × Nat)} (h : runsOf m j acc) : runsOf m (j + 1) (addLane m acc j) := by
  unfold addLane
  cases hj : m.getLsbD j with
  | false =>
    obtain ⟨hactive, hcover⟩ := h
    refine ⟨hactive, fun k hk hon => hcover k ?_ hon⟩
    have hne : k ≠ j := by
      rintro rfl
      rw [hj] at hon
      cases hon
    omega
  | true =>
    simp only [Bool.not_true, Bool.false_eq_true, if_false]
    split
    next s n r =>
      split
      next hadd =>
        obtain ⟨hactive, hcover⟩ := h
        obtain ⟨⟨-, hs⟩, hr⟩ := List.forall_mem_cons.mp hactive
        refine ⟨List.forall_mem_cons.mpr ⟨⟨Nat.succ_pos n, fun k hlow hhigh => ?_⟩, hr⟩, fun k hk hon => ?_⟩
        · simp only at hlow hhigh
          obtain hlt | rfl : k < s + n ∨ k = j := by omega
          · exact hs k hlow hlt
          · exact hj
        · obtain hlt | rfl : k < j ∨ k = j := by omega
          · obtain ⟨q, hq, hin⟩ := hcover k hlt hon
            obtain rfl | hq := List.mem_cons.mp hq
            · exact ⟨_, List.mem_cons_self, hin.1, by simp only at hin ⊢; omega⟩
            · exact ⟨q, List.mem_cons_of_mem _ hq, hin⟩
          · exact ⟨_, List.mem_cons_self, by simp only; omega, by simp only; omega⟩
      next => exact runsOf_cons h hj
    next => exact runsOf_cons h hj

/-- After all the lanes below a number. -/
theorem runsOf_foldl (m : BitVec 256) (j : Nat) : runsOf m j ((List.range j).foldl (addLane m) []) := by
  induction j with
  | zero => exact ⟨fun _ h => (List.not_mem_nil h).elim, fun _ h => (Nat.not_lt_zero _ h).elim⟩
  | succ j ih =>
    rw [List.range_succ, List.foldl_append]
    exact runsOf_addLane ih

/-- The runs are those of all the lanes, the first of them first. -/
theorem laneRuns_eq (m : BitVec 256) : laneRuns m = ((List.range 256).foldl (addLane m) []).reverse := rfl

section
variable {m : BitVec 256}

/-- A run holds active lanes alone, at least one. -/
theorem active_of_mem_laneRuns {r : Nat × Nat} (h : r ∈ laneRuns m) :
    0 < r.2 ∧ ∀ k, r.1 ≤ k → k < r.1 + r.2 → m.getLsbD k = true :=
  (runsOf_foldl m 256).1 r (List.mem_reverse.mp h)

/-- Every active lane is in a run. -/
theorem exists_laneRun {k : Nat} (h : m.getLsbD k = true) : ∃ r ∈ laneRuns m, r.1 ≤ k ∧ k < r.1 + r.2 := by
  obtain ⟨r, hr, hin⟩ := (runsOf_foldl m 256).2 k (BitVec.lt_of_getLsbD h) h
  exact ⟨r, List.mem_reverse.mpr hr, hin⟩

/-- A run has no lane above 255. -/
theorem laneRun_le {r : Nat × Nat} (h : r ∈ laneRuns m) : r.1 + r.2 ≤ 256 := by
  obtain ⟨hpos, hactive⟩ := active_of_mem_laneRuns h
  have hlast := BitVec.lt_of_getLsbD (hactive (r.1 + r.2 - 1) (by omega) (by omega))
  omega

/-- Without active lanes there is no extent. -/
theorem active_of_laneExtent_none (h : laneExtent m = none) (k : Nat) : m.getLsbD k = false := by
  by_contra hon
  obtain ⟨r, hr, -⟩ := exists_laneRun (Bool.of_not_eq_false hon)
  unfold laneExtent at h
  cases hl : laneRuns m with
  | nil => rw [hl] at hr; cases hr
  | cons q l =>
    rw [hl, List.head?_cons, List.getLast?_cons] at h
    cases h

/-- The extent goes from an active lane, and ends past an active lane. -/
theorem active_of_laneExtent {s n : Nat} (h : laneExtent m = some (s, n)) :
    m.getLsbD s = true ∧ ∃ e, m.getLsbD e = true ∧ s + n = max s (e + 1) := by
  unfold laneExtent at h
  split at h
  next a b ha hb =>
    obtain ⟨hpos, hactive⟩ := active_of_mem_laneRuns (List.mem_of_head? ha)
    obtain ⟨hpos', hactive'⟩ := active_of_mem_laneRuns (List.mem_of_getLast? hb)
    cases h
    exact ⟨hactive _ le_rfl (by omega), b.1 + b.2 - 1, hactive' _ (by omega) (by omega), by omega⟩
  next => cases h

end

end Sys2Proof.LoomRangeProofs
end

section
/-! SUPPORT. The loads of a Loom (R156, R164, Table 6.15): the runs of active lanes that VLD and VLDG read, the single lanes of VLDX, and
what goes on after a load. -/

namespace Sys2Proof.LoomLoadProofs

open Sys2Proof Sys2Proof.Machine Sys2Proof.Safety Sys2Proof.HostProofs Sys2Proof.OrgProofs Sys2Proof.LoomProofs Sys2Proof.MillProofs Sys2Proof.StoreProofs
open Sys2Proof.DrainProofs Sys2Proof.LoomResultProofs Sys2Proof.LoomLaneProofs Sys2Proof.LoomRangeProofs

/-! ## Runs of clear lanes -/

section
variable {d : Dev} {R : Region} {m : BitVec 256} {base size : Nat}

/-- Where each active lane has its own clear bytes of one region, so has each run of them. -/
theorem clearIn_of_laneRun (hsize : 0 < size) (h : ∀ k, m.getLsbD k = true → clearIn d R (base + size * k) size) {r : Nat × Nat}
    (hr : r ∈ laneRuns m) : clearIn d R (base + size * r.1) (size * r.2) := by
  obtain ⟨hpos, hactive⟩ := active_of_mem_laneRuns hr
  have hfirst := h r.1 (hactive _ le_rfl (by omega))
  have hlast := h (r.1 + r.2 - 1) (hactive _ (by omega) (by omega))
  have hR := hfirst.ne_unmapped
  have hend : size * (r.1 + r.2 - 1) + size = size * r.1 + size * r.2 := by
    rw [← Nat.mul_add, ← Nat.mul_succ, show (r.1 + r.2 - 1).succ = r.1 + r.2 by omega]
  refine clearIn_of_cover ((rangeRegion_eq_iff hR).mp hfirst.1).1 ?_ (fun x hlow hhigh => ?_) (Nat.mul_pos hsize hpos)
  · have := ((rangeRegion_eq_iff hR).mp hlast.1).2
    omega
  · have hdiv := Nat.div_add_mod (x - base) size
    have hmod := Nat.mod_lt (x - base) hsize
    have hlow' : r.1 ≤ (x - base) / size := (Nat.le_div_iff_mul_le hsize).mpr (by rw [Nat.mul_comm]; omega)
    have hhigh' : (x - base) / size < r.1 + r.2 := (Nat.div_lt_iff_lt_mul hsize).mpr (by rw [Nat.mul_comm, Nat.mul_add]; omega)
    exact ⟨_, _, h _ (hactive _ hlow' hhigh'), by omega, by omega⟩

/-- And the bytes from the first active lane to the last lie in the region. -/
theorem rangeRegion_of_laneExtent (h : ∀ k, m.getLsbD k = true → clearIn d R (base + size * k) size) {s n : Nat}
    (hext : laneExtent m = some (s, n)) : rangeRegion d (base + size * s) (size * n) = R := by
  obtain ⟨hs, e, he, hn⟩ := active_of_laneExtent hext
  have hfirst := h s hs
  have hlast := h e he
  have hR := hfirst.ne_unmapped
  obtain ⟨hregion, hend⟩ := (rangeRegion_eq_iff hR).mp hfirst.1
  refine (rangeRegion_eq_iff hR).mpr ⟨hregion, ?_⟩
  have hend' := ((rangeRegion_eq_iff hR).mp hlast.1).2
  have hsum : size * s + size * n = size * max s (e + 1) := by rw [← Nat.mul_add, hn]
  obtain hmax | hmax : max s (e + 1) = s ∨ max s (e + 1) = e + 1 := by omega
  · rw [hmax] at hsum
    omega
  · rw [hmax, Nat.mul_succ] at hsum
    omega

/-- In a tile's SRAM those bytes meet no fault of range or alignment (Table 6.19). -/
theorem sramFault_of_laneExtent {tile off : Nat}
    (h : ∀ k, m.getLsbD k = true → clearIn d (.sram tile) (sramBase tile + off + size * k) size) {s n align : Nat}
    (hext : laneExtent m = some (s, n)) (halign : off % align = 0) : sramFault tile off (size * s) (size * n) align = none := by
  obtain ⟨-, hend⟩ := (rangeRegion_eq_iff (by simp)).mp (rangeRegion_of_laneExtent h hext)
  have hle : ¬ tileCapacity tile < off + size * s + size * n := by
    have : regionEnd d (.sram tile) = sramBase tile + tileCapacity tile := rfl
    omega
  simp [sramFault, hle, halign]

/-- Nor do they in GDDR7. -/
theorem gddrFault_of_laneExtent {die a : Nat} (h : ∀ k, m.getLsbD k = true → clearIn d (.gddr die) (a + size * k) size) {s n align : Nat}
    (hext : laneExtent m = some (s, n)) (halign : a % align = 0) : gddrFault d a (size * s) (size * n) align = none := by
  simp [gddrFault, rangeRegion_of_laneExtent h hext, halign]

end

/-! ## Reads of pieces -/

/-- Pieces that are stored without error are read into the buffer as memory holds them. -/
theorem loomReads_of_clear {a : LoomAt} {d : Dev} {base n : Nat} {pieces : List (Nat × Nat)}
    (h : ∀ r ∈ pieces, memClear d (base + r.1) r.2) (k : Bytes → Dev → Dev × Flow) :
    ∃ c, loomReads a base n pieces d k =
      k (fillBuffer n (pieces.map (pieceOf fun x => cellGet d.mem.cells (base + x)))) { d with counters := c } := by
  obtain ⟨c, hread⟩ := readAll_of_clear (d := d) (l := pieces.map fun p => (base + p.1, p.2)) (List.forall_mem_map.mpr h) (some a.op)
  have hzip : (pieces.map (·.1)).zip ((pieces.map fun p => (base + p.1, p.2)).map fun r => cellsRead d.mem.cells r.1 r.2) =
      pieces.map (pieceOf fun x => cellGet d.mem.cells (base + x)) := by
    rw [List.map_map, List.zip_map']
    refine List.map_congr_left fun r _ => ?_
    simp [pieceOf, cellsRead, Nat.add_assoc]
  exact ⟨c, by simp only [loomReads, hread, hzip]⟩

section
variable {s : State} {tile eng : Nat} {n : OpName} {o : Op} {op : LoomOp} {f : LoomFields}

/-- An instruction that reads, which is counted, and changes the registers of its Loom alone. -/
theorem acts_of_read {g : Loom → Loom} {l : Loom} {c : Counters} (h : loomReady s tile eng n o op f)
    (hbody : loomBody op { tile := tile, eng := eng, op := n } f s.dev = (modLoom { s.dev with counters := c } tile eng g, .next))
    (hg : g (getLoom s.dev tile eng) = l) (hwait : l.waitFrom = (getLoom s.dev tile eng).waitFrom) :
    acts (loomCmd tile eng f op) s fun d => loomGoesOn s.dev d tile eng n l := by
  have ⟨_, _, _, _, _, hnone, _⟩ := h
  have hop : getOp s.dev n = some o := getOp_of_loomReady h
  refine acts_of_next h hbody rfl (loomGoesOnIn_nextInstr (by exact Option.isSome_of_eq_some hop)
    (otherLooms_modLoom { s.dev with counters := c } tile eng g) ?_ (hwait.trans hnone) fun _ _ => rfl)
  rw [getLoom_modLoom]
  exact hg

/-- An instruction that leaves the device as it is where no lane is active, and else reads and writes the active lanes of D. -/
theorem acts_of_vectorLoad {val : Nat → W32} (h : loomReady s tile eng n o op f)
    (hbody : (∀ k, isActive (getLoom s.dev tile eng) f k = false) ∧
        loomBody op { tile := tile, eng := eng, op := n } f s.dev = (s.dev, .next) ∨
      ∃ c new, loomBody op { tile := tile, eng := eng, op := n } f s.dev =
        (modLoom { s.dev with counters := c } tile eng fun l => l.putV f ((List.range 256).map new), .next) ∧
        ∀ k, isActive (getLoom s.dev tile eng) f k = true → new k = val k) :
    acts (loomCmd tile eng f op) s fun d => ∃ l,
      vectorSet (getLoom s.dev tile eng) l f.d (fun k => if isActive (getLoom s.dev tile eng) f k then val k
        else lane (getLoom s.dev tile eng) f.d k) ∧ loomGoesOn s.dev d tile eng n l := by
  have ⟨_, _, _, _, hwhole, _, _⟩ := h
  obtain ⟨hnone, hbody⟩ | ⟨c, new, hbody, hnew⟩ := hbody
  · obtain ⟨d, hexec, hgoes⟩ := acts_of_same h hbody
    exact ⟨d, hexec, _, ⟨rfl, fun _ _ => rfl, fun k _ => (if_neg (Bool.not_eq_true _ ▸ hnone k)).symm⟩, hgoes⟩
  · obtain ⟨d, hexec, hgoes⟩ := acts_of_read h hbody rfl rfl
    obtain ⟨hsame, hregs, hlanes⟩ := vectorSet_putV hwhole f new
    refine ⟨d, hexec, _, ⟨hsame, hregs, fun k hk => (hlanes k hk).trans ?_⟩, hgoes⟩
    by_cases hon : isActive (getLoom s.dev tile eng) f k = true
    · exact (if_pos hon).trans ((hnew k hon).trans (if_pos hon).symm)
    · exact (if_neg hon).trans (if_neg hon).symm

/-! ## VLD and VLDG -/

/-- A load of the runs of active lanes, from clear bytes of one region. -/
theorem loadVector_of_clear {a : LoomAt} {d : Dev} {R : Region} {base : Nat} {fault : Nat → Nat → Option Nat}
    (hclear : ∀ k, isActive (getLoom d a.tile a.eng) f k = true → clearIn d R (base + 4 * k) 4)
    (hfault : ∀ s n, laneExtent ((getLoom d a.tile a.eng).active f) = some (s, n) → fault (4 * s) (4 * n) = none) :
    (∀ k, isActive (getLoom d a.tile a.eng) f k = false) ∧ loadVector a f fault base d = (d, .next) ∨
    ∃ c new, loadVector a f fault base d =
        (modLoom { d with counters := c } a.tile a.eng fun l => l.putV f ((List.range 256).map new), .next) ∧
      ∀ k, isActive (getLoom d a.tile a.eng) f k = true → new k = wordAt d (base + 4 * k) := by
  unfold loadVector
  cases hext : laneExtent ((getLoom d a.tile a.eng).active f) with
  | none => exact .inl ⟨active_of_laneExtent_none hext, by simp only [hext]⟩
  | some e =>
    right
    have hpieces (r) (hr : r ∈ (laneRuns ((getLoom d a.tile a.eng).active f)).map fun r => (4 * r.1, 4 * r.2)) :
        memClear d (base + r.1) r.2 := by
      obtain ⟨q, hq, rfl⟩ := List.mem_map.mp hr
      exact (clearIn_of_laneRun (by omega) hclear hq).2
    obtain ⟨c, hread⟩ := loomReads_of_clear (a := a) (n := 1024) hpieces
      fun b d => (modLoom d a.tile a.eng fun l => l.putV f (lanesOf b), .next)
    refine ⟨c, _, (by simp only [hext, hfault _ _ hext, orFault] : _ = _).trans hread, fun k hk => ?_⟩
    obtain ⟨r, hr, hin⟩ := exists_laneRun hk
    refine congrArg (BitVec.ofNat 32) (fld_of_cells fun i hi => ?_)
    rw [fillBuffer_getD ?_ ⟨_, List.mem_map_of_mem hr, by simp only; omega, by simp only; omega⟩, Nat.add_assoc]
    refine List.forall_mem_map.mpr fun q hq => ?_
    have := laneRun_le hq
    simp only
    omega

end

/-- VLD (Table 6.15). -/
theorem acts_vld {s : State} {tile eng : Nat} {n : OpName} {o : Op} {f : LoomFields} (h : loomReady s tile eng n o .vld f)
    (halign : (getLoom s.dev tile eng).address f % 16 = 0)
    (hclear : ∀ k, k < 256 → isActive (getLoom s.dev tile eng) f k = true → sramClear s.dev tile ((getLoom s.dev tile eng).address f + 4 * k) 4) :
    acts (.vld tile eng f) s fun d => ∃ l,
      vectorSet (getLoom s.dev tile eng) l f.d (fun k => if isActive (getLoom s.dev tile eng) f k
        then wordAt s.dev (sramBase tile + (getLoom s.dev tile eng).address f + 4 * k) else lane (getLoom s.dev tile eng) f.d k) ∧
      loomGoesOn s.dev d tile eng n l := by
  have hlanes (k) (hk : isActive (getLoom s.dev tile eng) f k = true) :
      clearIn s.dev (.sram tile) (sramBase tile + (getLoom s.dev tile eng).address f + 4 * k) 4 := by
    rw [Nat.add_assoc]
    exact clearIn_of_sramClear (by omega) (hclear k (BitVec.lt_of_getLsbD hk) hk)
  exact acts_of_vectorLoad h (loadVector_of_clear (a := { tile := tile, eng := eng, op := n })
    (fault := fun lo n => sramFault tile ((getLoom s.dev tile eng).address f) lo n 16) hlanes
    fun _ _ hext => sramFault_of_laneExtent hlanes hext halign)

/-- VLDG (Table 6.15). -/
theorem acts_vldg {s : State} {tile eng : Nat} {n : OpName} {o : Op} {f : LoomFields} {die : Nat} (h : loomReady s tile eng n o .vldg f)
    (halign : (getLoom s.dev tile eng).address f % 16 = 0)
    (hclear : ∀ k, k < 256 → isActive (getLoom s.dev tile eng) f k = true → gddrClear s.dev die ((getLoom s.dev tile eng).address f + 4 * k) 4) :
    acts (.vldg tile eng f) s fun d => ∃ l,
      vectorSet (getLoom s.dev tile eng) l f.d (fun k => if isActive (getLoom s.dev tile eng) f k
        then wordAt s.dev ((getLoom s.dev tile eng).address f + 4 * k) else lane (getLoom s.dev tile eng) f.d k) ∧
      loomGoesOn s.dev d tile eng n l := by
  have hlanes (k) (hk : isActive (getLoom s.dev tile eng) f k = true) :
      clearIn s.dev (.gddr die) ((getLoom s.dev tile eng).address f + 4 * k) 4 :=
    clearIn_of_gddrClear (hclear k (BitVec.lt_of_getLsbD hk) hk)
  exact acts_of_vectorLoad h (loadVector_of_clear (a := { tile := tile, eng := eng, op := n })
    (fault := fun lo n => gddrFault s.dev ((getLoom s.dev tile eng).address f) lo n 16) hlanes
    fun _ _ hext => gddrFault_of_laneExtent hlanes hext halign)

/-! ## VLDX -/

/-- The active lanes and their addresses, lane 0 first. -/
theorem laneAddresses_eq {l : Loom} (hwhole : filesWhole l) (f : LoomFields) :
    l.laneAddresses f = ((List.range 256).filter (isActive l f)).map fun k => (k, (l.address f + (lane l f.x k).toNat) % 2 ^ 64) := by
  rw [Loom.laneAddresses, vreg_eq_map hwhole, maskLanes, List.zip_map', zipIdx_map_range, List.filterMap_map]
  exact filterMap_ite (isActive l f) (fun k => (k, (l.address f + (lane l f.x k).toNat) % 2 ^ 64)) _

/-- Four bytes of a tile's clear SRAM meet no fault. -/
theorem sramFault_of_sramClear {d : Dev} {tile off n align : Nat} (h : sramClear d tile off n) (halign : off % align = 0) :
    sramFault tile off 0 n align = none := by
  obtain ⟨hend, -⟩ := h
  simp [sramFault, halign, hend]

/-- Loads of single lanes from clear bytes change nothing, and go on with what memory holds. -/
theorem loadLanes_of_clear {a : LoomAt} {d : Dev} {l : List (Nat × Nat)} (h : ∀ e ∈ l, e.2 % 4 = 0 ∧ sramClear d a.tile e.2 4)
    (got : List (Nat × Bytes)) (k : List (Nat × Bytes) → Dev → Dev × Flow) :
    loadLanes a l got d k = k ((l.map fun e => (4 * e.1, cellsRead d.mem.cells (sramBase a.tile + e.2) 4)).reverse ++ got) d := by
  induction l generalizing got with
  | nil => rfl
  | cons e l ih =>
    obtain ⟨⟨halign, hclear⟩, hl⟩ := List.forall_mem_cons.mp h
    simp only [loadLanes, sramFault_of_sramClear hclear halign, orFault, loomRead, readMem_of_sramClear hclear, ih hl]
    simp

/-- VLDX (Table 6.15). -/
theorem acts_vldx {s : State} {tile eng : Nat} {n : OpName} {o : Op} {f : LoomFields} (h : loomReady s tile eng n o .vldx f)
    {a : Nat → Nat} (ha : ∀ k, a k = ((getLoom s.dev tile eng).address f + (lane (getLoom s.dev tile eng) f.x k).toNat) % 2 ^ 64)
    (hclear : ∀ k, k < 256 → isActive (getLoom s.dev tile eng) f k = true → a k % 4 = 0 ∧ sramClear s.dev tile (a k) 4) :
    acts (.vldx tile eng f) s fun d => ∃ l,
      vectorSet (getLoom s.dev tile eng) l f.d (fun k => if isActive (getLoom s.dev tile eng) f k
        then wordAt s.dev (sramBase tile + a k) else lane (getLoom s.dev tile eng) f.d k) ∧
      loomGoesOn s.dev d tile eng n l := by
  have ⟨_, _, _, _, hwhole, _, _⟩ := h
  have hlanes (e) (he : e ∈ (getLoom s.dev tile eng).laneAddresses f) : e.2 % 4 = 0 ∧ sramClear s.dev tile e.2 4 := by
    rw [laneAddresses_eq hwhole] at he
    obtain ⟨k, hk, rfl⟩ := List.mem_map.mp he
    obtain ⟨hrange, hon⟩ := List.mem_filter.mp hk
    exact ha k ▸ hclear k (List.mem_range.mp hrange) hon
  refine acts_of_vectorLoad h (.inr ⟨s.dev.counters, _,
    loadLanes_of_clear (a := { tile := tile, eng := eng, op := n }) hlanes [] _, fun k hk => ?_⟩)
  have hpieces : (((getLoom s.dev tile eng).laneAddresses f).map fun e =>
      (4 * e.1, cellsRead s.dev.mem.cells (sramBase tile + e.2) 4)).reverse ++ [] =
      ((((List.range 256).filter (isActive (getLoom s.dev tile eng) f)).map fun k => (4 * k, 4)).reverse).map
        (pieceOf fun x => cellGet s.dev.mem.cells (sramBase tile + a (x / 4) + x % 4)) := by
    rw [laneAddresses_eq hwhole, List.append_nil, List.map_reverse, List.map_map, List.map_map]
    refine congrArg List.reverse (List.map_congr_left fun k _ => ?_)
    simp only [Function.comp, pieceOf, cellsRead, ha]
    refine congrArg (Prod.mk _) (List.map_congr_left fun i hi => ?_)
    have hlt := List.mem_range.mp hi
    rw [show (4 * k + i) / 4 = k by omega, show (4 * k + i) % 4 = i by omega]
  refine congrArg (BitVec.ofNat 32) (fld_of_cells fun i hi => ?_)
  rw [hpieces, fillBuffer_getD, show (4 * k + i) / 4 = k by omega, show (4 * k + i) % 4 = i by omega]
  · intro r hr
    obtain ⟨q, hq, rfl⟩ := List.mem_map.mp (List.mem_reverse.mp hr)
    have := List.mem_range.mp (List.mem_filter.mp hq).1
    simp only
    omega
  · refine ⟨(4 * k, 4), List.mem_reverse.mpr (List.mem_map_of_mem (List.mem_filter.mpr ⟨?_, hk⟩)), by simp only; omega, by simp only; omega⟩
    exact List.mem_range.mpr (BitVec.lt_of_getLsbD hk)

/-! ## SLD and MLD -/

/-- SLD (Table 6.15). -/
theorem acts_sld {s : State} {tile eng : Nat} {n : OpName} {o : Op} {f : LoomFields} (h : loomReady s tile eng n o .sld f)
    (halign : (getLoom s.dev tile eng).address f % 8 = 0) (hclear : sramClear s.dev tile ((getLoom s.dev tile eng).address f) 8) :
    acts (.sld tile eng f) s fun d => ∃ l,
      scalarSet (getLoom s.dev tile eng) l f.d
        (BitVec.ofNat 64 (leNat (cellsRead s.dev.mem.cells (sramBase tile + (getLoom s.dev tile eng).address f) 8))) ∧
      loomGoesOn s.dev d tile eng n l := by
  have ⟨_, _, _, _, _, _, haccept⟩ := h
  obtain ⟨-, hne⟩ := scalarDest_of_accept haccept rfl
  have hbody : loomSld { tile := tile, eng := eng, op := n } f s.dev = (modLoom s.dev tile eng fun l => l.setS f.d
      (BitVec.ofNat 64 (leNat (cellsRead s.dev.mem.cells (sramBase tile + (getLoom s.dev tile eng).address f) 8))), .next) := by
    simp only [loomSld, sramFault_of_sramClear hclear halign, orFault, loomRead, readMem_of_sramClear hclear]
  obtain ⟨d, hexec, hgoes⟩ := acts_of_modLoom h hbody (setS_of_ne _ hne _) rfl
  exact ⟨d, hexec, _, rfl, hgoes⟩

/-- The bits of an integer are those of its bytes, the lowest first (R6). -/
theorem testBit_leNat (b : Bytes) (k : Nat) : (leNat b).testBit k = (b.getD (k / 8) 0).getLsbD (k % 8) := by
  induction b generalizing k with
  | nil => simp [leNat]
  | cons x r ih =>
    rw [leNat, Nat.add_comm, show (256 : Nat) = 2 ^ 8 from rfl, Nat.testBit_two_pow_mul_add _ x.isLt]
    split_ifs with hk
    · rw [Nat.div_eq_of_lt hk, Nat.mod_eq_of_lt hk]
      rfl
    · obtain ⟨j, rfl⟩ := Nat.exists_eq_add_of_le (Nat.le_of_not_lt hk)
      rw [Nat.add_sub_cancel_left, ih, show (8 + j) / 8 = j / 8 + 1 by omega, show (8 + j) % 8 = j % 8 by omega, List.getD_cons_succ]

/-- MLD (Tables 6.6 and 6.15). -/
theorem acts_mld {s : State} {tile eng : Nat} {n : OpName} {o : Op} {f : LoomFields} (h : loomReady s tile eng n o .mld f)
    (halign : (getLoom s.dev tile eng).address f % 8 = 0) (hclear : sramClear s.dev tile ((getLoom s.dev tile eng).address f) 32) :
    acts (.mld tile eng f) s fun d => ∃ l,
      maskSet (getLoom s.dev tile eng) l f.d.toNat (fun k => if isActive (getLoom s.dev tile eng) f k
        then (byteAt s.dev (sramBase tile + (getLoom s.dev tile eng).address f + k / 8)).getLsbD (k % 8)
        else ((getLoom s.dev tile eng).mreg f.d.toNat).getLsbD k) ∧ loomGoesOn s.dev d tile eng n l := by
  have ⟨_, _, _, _, hwhole, _, haccept⟩ := h
  have ⟨_, hlen, _, _⟩ := hwhole
  obtain ⟨hi, h0⟩ := maskDest_of_accept haccept rfl
  cases hext : laneExtent ((getLoom s.dev tile eng).active f) with
  | none =>
    obtain ⟨d, hexec, hgoes⟩ := acts_of_same h (by simp only [loomBody, loomMld, hext])
    have hoff := active_of_laneExtent_none hext
    exact ⟨d, hexec, _, ⟨rfl, fun _ _ => rfl, fun k _ => (if_neg (Bool.not_eq_true _ ▸ hoff k)).symm⟩, hgoes⟩
  | some e =>
    obtain ⟨hs, last, hlast, hsum⟩ := active_of_laneExtent hext
    have hs' := BitVec.lt_of_getLsbD hs
    have hlast' := BitVec.lt_of_getLsbD hlast
    have hfault : sramFault tile ((getLoom s.dev tile eng).address f) (e.1 / 8) ((e.1 + e.2 + 7) / 8 - e.1 / 8) 8 = none := by
      obtain ⟨hend, -⟩ := hclear
      have hle : ¬ tileCapacity tile < (getLoom s.dev tile eng).address f + e.1 / 8 + ((e.1 + e.2 + 7) / 8 - e.1 / 8) := by omega
      simp [sramFault, hle, halign]
    have hpieces (r) (hr : r ∈ (laneRuns ((getLoom s.dev tile eng).active f)).map fun r => (r.1 / 8, (r.1 + r.2 + 7) / 8 - r.1 / 8)) :
        r.1 + r.2 ≤ 32 ∧ memClear s.dev (sramBase tile + (getLoom s.dev tile eng).address f + r.1) r.2 := by
      obtain ⟨q, hq, rfl⟩ := List.mem_map.mp hr
      have hle := laneRun_le hq
      have hpos := (active_of_mem_laneRuns hq).1
      refine ⟨by simp only; omega, ?_⟩
      rw [Nat.add_assoc]
      exact (clearIn_of_sramClear (by simp only; omega) (sramClear_of_part hclear (by omega) (by simp only; omega))).2
    obtain ⟨c, hread⟩ := loomReads_of_clear (a := { tile := tile, eng := eng, op := n }) (n := 32) (fun r hr => (hpieces r hr).2)
      fun b d => (modLoom d tile eng fun l => l.setM f.d.toNat
        ((BitVec.ofNat 256 (leNat b) &&& l.active f) ||| (l.mreg f.d.toNat &&& ~~~(l.active f))), .next)
    obtain ⟨d, hexec, hgoes⟩ := acts_of_read h ((by simp only [loomBody, loomMld, hext, hfault, orFault] : _ = _).trans hread) rfl
      (by rw [Loom.setM, if_neg h0])
    refine ⟨d, hexec, _, maskSet_setM hlen hi h0 fun k hk => ?_, hgoes⟩
    rw [BitVec.getLsbD_or, BitVec.getLsbD_and, BitVec.getLsbD_and, BitVec.getLsbD_not, BitVec.getLsbD_ofNat, testBit_leNat]
    cases hon : ((getLoom s.dev tile eng).active f).getLsbD k with
    | true =>
      obtain ⟨r, hr, hin⟩ := exists_laneRun hon
      rw [fillBuffer_getD (fun q hq => (hpieces q hq).1) ⟨_, List.mem_map_of_mem hr, by simp only; omega, by simp only; omega⟩]
      simp only [isActive, hon, hk, decide_true, Bool.true_and, Bool.and_true, Bool.not_true, Bool.and_false, Bool.or_false, if_true]
    | false =>
      simp only [isActive, hon, hk, decide_true, Bool.true_and, Bool.and_false, Bool.not_false, Bool.and_true, Bool.false_or,
        Bool.false_eq_true, if_false]

end Sys2Proof.LoomLoadProofs
end

section
/-! SUPPORT. The stores of a Loom (R156, R165, Table 6.15): what memory holds after several writes, the lanes that they store, the runs of
active lanes of VST and VSTG, the single lanes of VSTX, and the statement on loads and stores. -/

namespace Sys2Proof.LoomStoreProofs

open Sys2Proof Sys2Proof.Machine Sys2Proof.Safety Sys2Proof.HostProofs Sys2Proof.OrgProofs Sys2Proof.LoomProofs Sys2Proof.StoreProofs
open Sys2Proof.LoomResultProofs Sys2Proof.LoomLaneProofs Sys2Proof.LoomRangeProofs Sys2Proof.LoomLoadProofs

/-! ## Bytes after several writes -/

/-- Each byte is that of the last write that it lies in. -/
theorem cellGet_writeCells {m : List Host.Cell} (hwf : cellsWf m = true) (l : List (Nat × Bytes)) (x : Nat) :
    cellGet (writeCells m l) x = (l.reverse.find? fun w => decide (within w x)).elim (cellGet m x) fun w => w.2.getD (x - w.1) 0 := by
  induction l generalizing m with
  | nil => rfl
  | cons w l ih =>
    have hrest : cellGet (writeCells m (w :: l)) x = cellGet (writeCells (cellsWrite m w.1 w.2) l) x := rfl
    rw [hrest, ih (cellsWf_cellsWrite m w.1 w.2 hwf), List.reverse_cons, List.find?_append, cellGet_cellsWrite hwf]
    cases l.reverse.find? fun w => decide (within w x) with
    | some v => rfl
    | none =>
      rw [Option.none_or, List.find?_singleton, Option.elim_none]
      by_cases hin : within w x
      · rw [if_pos hin, if_pos (decide_eq_true hin), Option.elim_some]
      · rw [if_neg hin, if_neg (by rwa [decide_eq_true_iff]), Option.elim_none]

/-- Every byte of a list of pieces of one length. -/
theorem flatMap_getD {α β : Type} {g : α → List β} {c : Nat} (hg : ∀ x, (g x).length = c) (xs : List α) (x : α) (z : β) {i j : Nat}
    (hi : i < xs.length) (hj : j < c) : (xs.flatMap g).getD (c * i + j) z = (g (xs.getD i x)).getD j z := by
  induction xs generalizing i with
  | nil => exact (Nat.not_lt_zero _ hi).elim
  | cons y r ih =>
    simp only [List.flatMap_cons, List.getD_eq_getElem?_getD]
    cases i with
    | zero =>
      rw [List.getElem?_append_left (by rw [hg]; omega)]
      simp
    | succ i =>
      rw [List.getElem?_append_right (by rw [hg, Nat.mul_succ]; omega), hg, Nat.mul_succ,
        show c * i + c + j - c = c * i + j by omega, ← List.getD_eq_getElem?_getD, ih (by simpa using hi)]
      simp

/-- Pieces of one length have that length together. -/
theorem flatMap_length {α β : Type} {g : α → List β} {c : Nat} (hg : ∀ x, (g x).length = c) (xs : List α) :
    (xs.flatMap g).length = c * xs.length := by
  rw [List.length_flatMap, List.map_congr_left fun x _ => hg x, List.map_const', List.sum_replicate, smul_eq_mul, Nat.mul_comm]

/-! ## Lanes that are stored -/

/-- A byte of a lane is a byte of no other lane. -/
theorem lane_eq_of_within {base size k q j : Nat} (hj : j < size) (hlow : base + size * k ≤ base + size * q + j)
    (hhigh : base + size * q + j < base + size * k + size) : k = q := by
  have hle : k < q + 1 := Nat.lt_of_mul_lt_mul_left (a := size) (by rw [Nat.mul_succ]; omega)
  have hge : q < k + 1 := Nat.lt_of_mul_lt_mul_left (a := size) (by rw [Nat.mul_succ]; omega)
  omega

/-- A byte of a run of lanes is one of a lane of it. -/
theorem lane_of_within_run {base size x : Nat} {r : Nat × Nat} {b : Bytes} (hsize : 0 < size) (hlen : b.length = size * r.2)
    (hin : within (base + size * r.1, b) x) : ∃ i j, i < r.2 ∧ j < size ∧ x = base + size * (r.1 + i) + j := by
  obtain ⟨hlow, hhigh⟩ := hin
  simp only [hlen] at hlow hhigh
  refine ⟨(x - (base + size * r.1)) / size, (x - (base + size * r.1)) % size, Nat.div_lt_of_lt_mul (by omega), Nat.mod_lt _ hsize, ?_⟩
  have := Nat.div_add_mod (x - (base + size * r.1)) size
  rw [Nat.mul_add]
  omega

/-- And a byte of a lane of a run is one of the run. -/
theorem within_run_of_lane {base size x k : Nat} {r : Nat × Nat} {b : Bytes} (hlen : b.length = size * r.2) (hfrom : r.1 ≤ k)
    (hto : k < r.1 + r.2) (hlow : base + size * k ≤ x) (hhigh : x < base + size * k + size) : within (base + size * r.1, b) x := by
  have hfirst : size * r.1 ≤ size * k := Nat.mul_le_mul_left _ hfrom
  have hlast : size * (k + 1) ≤ size * (r.1 + r.2) := Nat.mul_le_mul_left _ hto
  rw [Nat.mul_add, Nat.mul_add] at hlast
  simp only [within, hlen]
  omega

section
variable {d d' : Dev} {base size : Nat} {val : Nat → Nat} (hwf : cellsWf d.mem.cells = true)
include hwf

/-- Runs of active lanes that are written, each lane in its own bytes. -/
theorem lanesStored_of_runs {m : BitVec 256} {piece : Nat × Nat → Bytes} (hsize : 0 < size)
    (hcells : d'.mem.cells = writeCells d.mem.cells ((laneRuns m).map fun r => (base + size * r.1, piece r)))
    (hlen : ∀ r ∈ laneRuns m, (piece r).length = size * r.2)
    (hpiece : ∀ r ∈ laneRuns m, ∀ i j, i < r.2 → j < size → (piece r).getD (size * i + j) 0 = (leBytes size (val (r.1 + i))).getD j 0) :
    lanesStored d d' (fun k => m.getLsbD k) size (fun k => base + size * k) val := by
  intro x
  rw [byteAt, hcells, cellGet_writeCells hwf, ← List.map_reverse, List.find?_map]
  cases hlane : (List.range 256).reverse.find? fun k => m.getLsbD k && decide (base + size * k ≤ x) && decide (x < base + size * k + size) with
  | none =>
    have hnone : (laneRuns m).reverse.find? ((fun w => decide (within w x)) ∘ fun r => (base + size * r.1, piece r)) = none := by
      refine List.find?_eq_none.mpr fun r hr hin => ?_
      have hmem := List.mem_reverse.mp hr
      obtain ⟨i, j, hi, hj, hx⟩ := lane_of_within_run hsize (hlen r hmem) (of_decide_eq_true hin)
      have hon := (active_of_mem_laneRuns hmem).2 (r.1 + i) (by omega) (by omega)
      refine List.find?_eq_none.mp hlane (r.1 + i) (List.mem_reverse.mpr (List.mem_range.mpr (BitVec.lt_of_getLsbD hon))) ?_
      simp only [hon, Bool.true_and, Bool.and_eq_true, decide_eq_true_eq]
      omega
    rw [hnone]
    rfl
  | some k =>
    have hk := List.find?_some hlane
    simp only [Bool.and_eq_true, decide_eq_true_eq] at hk
    obtain ⟨⟨hon, hlow⟩, hhigh⟩ := hk
    obtain ⟨q, hq, hfrom, hto⟩ := exists_laneRun hon
    cases hfind : (laneRuns m).reverse.find? ((fun w => decide (within w x)) ∘ fun r => (base + size * r.1, piece r)) with
    | none =>
      exact absurd (decide_eq_true (within_run_of_lane (hlen q hq) hfrom hto hlow hhigh))
        (List.find?_eq_none.mp hfind q (List.mem_reverse.mpr hq))
    | some r =>
      have hr := List.mem_reverse.mp (List.mem_of_find?_eq_some hfind)
      have hin := List.find?_some hfind
      obtain ⟨i, j, hi, hj, rfl⟩ := lane_of_within_run hsize (hlen r hr) (of_decide_eq_true hin)
      obtain rfl := lane_eq_of_within hj hlow hhigh
      have hoff : base + size * (r.1 + i) + j - (base + size * r.1) = size * i + j := by
        rw [Nat.mul_add]
        omega
      simp only [Option.map_some, Option.elim_some, hoff, hpiece r hr i j hi hj, Nat.add_sub_cancel_left]

/-- Single lanes that are written in lane order: the highest remains where two share a byte. -/
theorem lanesStored_of_lanes {on : Nat → Bool} {addr : Nat → Nat}
    (hcells : d'.mem.cells = writeCells d.mem.cells (((List.range 256).filter on).map fun k => (addr k, leBytes size (val k)))) :
    lanesStored d d' on size addr val := by
  intro x
  rw [byteAt, hcells, cellGet_writeCells hwf, ← List.map_reverse, List.find?_map, ← List.filter_reverse, List.find?_filter]
  have hsame : (fun k => decide (on k = true ∧ ((fun w => decide (within w x)) ∘ fun k => (addr k, leBytes size (val k))) k = true)) =
      fun k => on k && decide (addr k ≤ x) && decide (x < addr k + size) := by
    funext k
    simp [Bool.and_assoc]
  rw [hsame]
  cases (List.range 256).reverse.find? fun k => on k && decide (addr k ≤ x) && decide (x < addr k + size) with
  | none => rfl
  | some k => rfl

end

/-! ## Writes of an instruction -/

/-- Nothing is written. -/
theorem onlyWritten_refl (d : Dev) : onlyWritten d d := ⟨_, _, _, _, rfl, List.Subset.refl _⟩

/-- Writes to clear bytes take place, and the instruction goes on. -/
theorem loomWrite_of_clear {a : LoomAt} {d : Dev} {o : Op} {l : List (Nat × Bytes)} (hcfg : d.granary.cfg = none)
    (hop : getOp d a.op = some o) (h : ∀ w ∈ l, memClear d w.1 w.2.length) :
    ∃ d', loomWrite a l d = (d', .next) ∧ onlyWritten d d' ∧ (getOp d' a.op).isSome = true ∧
      d'.mem.cells = writeCells d.mem.cells l := by
  obtain ⟨d', o', hwrite, honly, hcells, hop'⟩ := writeAll_of_clear hcfg hop h
  exact ⟨d', by simp only [loomWrite, hwrite], honly, Option.isSome_of_eq_some hop', hcells⟩

/-- Writes of the runs of active lanes, each lane in its own clear bytes of one region. -/
theorem loomWrite_laneRuns {a : LoomAt} {d : Dev} {o : Op} {R : Region} {m : BitVec 256} {base size : Nat} {piece : Nat × Nat → Bytes}
    {val : Nat → Nat} (hplain : plainMemory d) (hop : getOp d a.op = some o) (hsize : 0 < size)
    (hclear : ∀ k, m.getLsbD k = true → clearIn d R (base + size * k) size)
    (hlen : ∀ r ∈ laneRuns m, (piece r).length = size * r.2)
    (hpiece : ∀ r ∈ laneRuns m, ∀ i j, i < r.2 → j < size → (piece r).getD (size * i + j) 0 = (leBytes size (val (r.1 + i))).getD j 0) :
    ∃ d', loomWrite a ((laneRuns m).map fun r => (base + size * r.1, piece r)) d = (d', .next) ∧ onlyWritten d d' ∧
      (getOp d' a.op).isSome = true ∧ lanesStored d d' (fun k => m.getLsbD k) size (fun k => base + size * k) val := by
  obtain ⟨d', hwrite, honly, hop', hcells⟩ := loomWrite_of_clear (a := a) hplain.2 hop
    (l := (laneRuns m).map fun r => (base + size * r.1, piece r)) (List.forall_mem_map.mpr fun r hr => by
      rw [hlen r hr]
      exact (clearIn_of_laneRun hsize hclear hr).2)
  exact ⟨d', hwrite, honly, hop', lanesStored_of_runs (cellsWf_of_plainMemory hplain) hsize hcells hlen hpiece⟩

/-- No lane is stored where none is active. -/
theorem lanesStored_none (d : Dev) {on : Nat → Bool} (h : ∀ k, on k = false) (size : Nat) (addr val : Nat → Nat) :
    lanesStored d d on size addr val := by
  intro x
  rw [List.find?_eq_none.mpr fun k _ => by simp [h k]]

section
variable {s : State} {tile eng : Nat} {n : OpName} {o : Op} {op : LoomOp} {f : LoomFields}

/-- An instruction that writes memory, and leaves its Loom as `l`, goes on. -/
theorem acts_of_store {d' : Dev} {x : List (Nat × Loom)} {l : Loom} {p : Memory → Prop} (h : loomReady s tile eng n o op f)
    (hbody : loomBody op { tile := tile, eng := eng, op := n } f s.dev = ({ d' with looms := x }, .next)) (honly : onlyWritten s.dev d')
    (hop : (getOp d' n).isSome = true) (hother : otherLooms s.dev { d' with looms := x } tile eng)
    (hloom : getLoom { d' with looms := x } tile eng = l) (hwait : l.waitFrom = (getLoom s.dev tile eng).waitFrom) (hp : p d'.mem) :
    acts (loomCmd tile eng f op) s fun d => p d.mem ∧ loomGoesOnIn onlyStores s.dev d tile eng n l := by
  have ⟨_, _, _, _, _, hnone, _⟩ := h
  refine acts_of_next h hbody honly.granary_eq ⟨?_, loomGoesOnIn_nextInstr hop hother hloom (hwait.trans hnone) fun c y => ?_⟩
  · rw [(nextInstr_frame { d' with looms := x } { tile := tile, eng := eng, op := n }).2.1]
    exact hp
  · obtain ⟨_, _, _, _, rfl, -⟩ := honly
    rfl

/-- One that keeps its Loom. -/
theorem acts_of_written {d' : Dev} {p : Memory → Prop} (h : loomReady s tile eng n o op f)
    (hbody : loomBody op { tile := tile, eng := eng, op := n } f s.dev = (d', .next)) (honly : onlyWritten s.dev d')
    (hop : (getOp d' n).isSome = true) (hp : p d'.mem) :
    acts (loomCmd tile eng f op) s fun d => p d.mem ∧ loomGoesOnIn onlyStores s.dev d tile eng n (getLoom s.dev tile eng) := by
  have hlooms : d'.looms = s.dev.looms := by
    obtain ⟨_, _, _, _, rfl, -⟩ := honly
    rfl
  exact acts_of_store (x := d'.looms) h hbody honly hop (fun k _ => congrArg (tget · k) hlooms) (getLoom_congr hlooms ..) rfl hp

/-- One that stores lanes and keeps its Loom. -/
theorem acts_of_lanesStored {d' : Dev} {on : Nat → Bool} {size : Nat} {addr val : Nat → Nat} (h : loomReady s tile eng n o op f)
    (hbody : loomBody op { tile := tile, eng := eng, op := n } f s.dev = (d', .next)) (honly : onlyWritten s.dev d')
    (hop : (getOp d' n).isSome = true) (hstored : lanesStored s.dev d' on size addr val) :
    acts (loomCmd tile eng f op) s fun d => lanesStored s.dev d on size addr val ∧
      loomGoesOnIn onlyStores s.dev d tile eng n (getLoom s.dev tile eng) :=
  acts_of_written (p := fun m => lanesStored s.dev { s.dev with mem := m } on size addr val) h hbody honly hop hstored

/-! ## VST and VSTG -/

/-- A store of the runs of active lanes, into clear bytes of one region. -/
theorem storeVector_of_clear {a : LoomAt} {d : Dev} {R : Region} {base : Nat} {fault : Nat → Nat → Option Nat} (hplain : plainMemory d)
    (hop : getOp d a.op = some o) (hwhole : filesWhole (getLoom d a.tile a.eng))
    (hclear : ∀ k, isActive (getLoom d a.tile a.eng) f k = true → clearIn d R (base + 4 * k) 4)
    (hfault : ∀ s n, laneExtent ((getLoom d a.tile a.eng).active f) = some (s, n) → fault (4 * s) (4 * n) = none) :
    ∃ d', storeVector a f fault base d = (d', .next) ∧ onlyWritten d d' ∧ (getOp d' a.op).isSome = true ∧
      lanesStored d d' (isActive (getLoom d a.tile a.eng) f) 4 (fun k => base + 4 * k)
        (fun k => (lane (getLoom d a.tile a.eng) f.d k).toNat) := by
  cases hext : laneExtent ((getLoom d a.tile a.eng).active f) with
  | none =>
    exact ⟨d, by simp only [storeVector, hext], onlyWritten_refl d, Option.isSome_of_eq_some hop,
      lanesStored_none d (active_of_laneExtent_none hext) 4 _ _⟩
  | some e =>
    have hregs := vreg_length hwhole f.d
    obtain ⟨d', hwrite, honly, hop', hstored⟩ := loomWrite_laneRuns (a := a) (m := (getLoom d a.tile a.eng).active f)
      (piece := fun r => ((((getLoom d a.tile a.eng).vreg f.d).drop r.1).take r.2).flatMap fun x => leBytes 4 x.toNat)
      (val := fun k => (lane (getLoom d a.tile a.eng) f.d k).toNat) hplain hop (by omega) hclear
      (fun r hr => by
        have hle := laneRun_le hr
        rw [flatMap_length (c := 4) fun _ => leBytes_length ..]
        simp only [List.length_take, List.length_drop, hregs]
        omega)
      (fun r hr i j hi hj => by
        have hle := laneRun_le hr
        rw [flatMap_getD (fun _ => leBytes_length ..) _ 0 0 (by simp only [List.length_take, List.length_drop, hregs]; omega) hj]
        simp [List.getD_eq_getElem?_getD, hi, lane])
    exact ⟨d', (by simp only [storeVector, hext, hfault _ _ hext, orFault] : _ = _).trans hwrite, honly, hop', hstored⟩

end

section
variable {s : State} {tile eng : Nat} {n : OpName} {o : Op} {f : LoomFields}

/-- VST (Table 6.15). -/
theorem acts_vst (h : loomReady s tile eng n o .vst f) (hplain : plainMemory s.dev)
    (halign : (getLoom s.dev tile eng).address f % 16 = 0)
    (hclear : ∀ k, k < 256 → isActive (getLoom s.dev tile eng) f k = true → sramClear s.dev tile ((getLoom s.dev tile eng).address f + 4 * k) 4) :
    acts (.vst tile eng f) s fun d =>
      lanesStored s.dev d (isActive (getLoom s.dev tile eng) f) 4 (fun k => sramBase tile + (getLoom s.dev tile eng).address f + 4 * k)
        (fun k => (lane (getLoom s.dev tile eng) f.d k).toNat) ∧
      loomGoesOnIn onlyStores s.dev d tile eng n (getLoom s.dev tile eng) := by
  have ⟨_, _, _, _, hwhole, _, _⟩ := h
  have hlanes (k) (hk : isActive (getLoom s.dev tile eng) f k = true) :
      clearIn s.dev (.sram tile) (sramBase tile + (getLoom s.dev tile eng).address f + 4 * k) 4 := by
    rw [Nat.add_assoc]
    exact clearIn_of_sramClear (by omega) (hclear k (BitVec.lt_of_getLsbD hk) hk)
  obtain ⟨d', hbody, honly, hop, hstored⟩ := storeVector_of_clear (a := { tile := tile, eng := eng, op := n })
    (fault := fun lo n => sramFault tile ((getLoom s.dev tile eng).address f) lo n 16) hplain (getOp_of_loomReady h) hwhole hlanes
    fun _ _ hext => sramFault_of_laneExtent hlanes hext halign
  exact acts_of_lanesStored h hbody honly hop hstored

/-- VSTG (Table 6.15). -/
theorem acts_vstg {die : Nat} (h : loomReady s tile eng n o .vstg f) (hplain : plainMemory s.dev)
    (halign : (getLoom s.dev tile eng).address f % 16 = 0)
    (hclear : ∀ k, k < 256 → isActive (getLoom s.dev tile eng) f k = true → gddrClear s.dev die ((getLoom s.dev tile eng).address f + 4 * k) 4) :
    acts (.vstg tile eng f) s fun d =>
      lanesStored s.dev d (isActive (getLoom s.dev tile eng) f) 4 (fun k => (getLoom s.dev tile eng).address f + 4 * k)
        (fun k => (lane (getLoom s.dev tile eng) f.d k).toNat) ∧
      loomGoesOnIn onlyStores s.dev d tile eng n (getLoom s.dev tile eng) := by
  have ⟨_, _, _, _, hwhole, _, _⟩ := h
  have hlanes (k) (hk : isActive (getLoom s.dev tile eng) f k = true) :
      clearIn s.dev (.gddr die) ((getLoom s.dev tile eng).address f + 4 * k) 4 :=
    clearIn_of_gddrClear (hclear k (BitVec.lt_of_getLsbD hk) hk)
  obtain ⟨d', hbody, honly, hop, hstored⟩ := storeVector_of_clear (a := { tile := tile, eng := eng, op := n })
    (fault := fun lo n => gddrFault s.dev ((getLoom s.dev tile eng).address f) lo n 16) hplain (getOp_of_loomReady h) hwhole hlanes
    fun _ _ hext => gddrFault_of_laneExtent hlanes hext halign
  exact acts_of_lanesStored h hbody honly hop hstored

/-! ## VSTX, SST and MST -/

/-- Stores of single lanes into clear bytes take place one after another. -/
theorem storeLanes_of_clear {a : LoomAt} {d : Dev} {o : Op} {l : List (Nat × W32)} (hcfg : d.granary.cfg = none)
    (hop : getOp d a.op = some o) (h : ∀ e ∈ l, sramFault a.tile e.1 0 4 4 = none ∧ memClear d (sramBase a.tile + e.1) 4) :
    ∃ d', storeLanes a l d = (d', .next) ∧ onlyWritten d d' ∧ (getOp d' a.op).isSome = true ∧
      d'.mem.cells = writeCells d.mem.cells (l.map fun e => (sramBase a.tile + e.1, leBytes 4 e.2.toNat)) := by
  induction l generalizing d o with
  | nil => exact ⟨d, rfl, onlyWritten_refl d, Option.isSome_of_eq_some hop, rfl⟩
  | cons e l ih =>
    obtain ⟨⟨hfault, hclear⟩, hl⟩ := List.forall_mem_cons.mp h
    obtain ⟨d1, hwrite, honly, hop1, hcells⟩ := loomWrite_of_clear (a := a) (l := [(sramBase a.tile + e.1, leBytes 4 e.2.toNat)]) hcfg hop
      (by simpa using hclear)
    obtain ⟨o1, hop1⟩ := Option.isSome_iff_exists.mp hop1
    obtain ⟨d2, hrest, honly', hop2, hcells'⟩ := ih (by rw [honly.granary_eq, hcfg]) hop1
      fun v hv => ⟨(hl v hv).1, memClear_of_onlyWritten honly (hl v hv).2⟩
    refine ⟨d2, ?_, honly.trans honly', hop2, ?_⟩
    · simp only [storeLanes, hfault, orFault, hwrite, hrest]
    · rw [hcells', hcells]
      rfl

/-- VSTX (R165). -/
theorem acts_vstx (h : loomReady s tile eng n o .vstx f) (hplain : plainMemory s.dev) {a : Nat → Nat}
    (ha : ∀ k, a k = ((getLoom s.dev tile eng).address f + (lane (getLoom s.dev tile eng) f.x k).toNat) % 2 ^ 64)
    (hclear : ∀ k, k < 256 → isActive (getLoom s.dev tile eng) f k = true → a k % 4 = 0 ∧ sramClear s.dev tile (a k) 4) :
    acts (.vstx tile eng f) s fun d =>
      lanesStored s.dev d (isActive (getLoom s.dev tile eng) f) 4 (fun k => sramBase tile + a k)
        (fun k => (lane (getLoom s.dev tile eng) f.d k).toNat) ∧
      loomGoesOnIn onlyStores s.dev d tile eng n (getLoom s.dev tile eng) := by
  have ⟨_, _, _, _, hwhole, _, _⟩ := h
  have hlist : ((getLoom s.dev tile eng).laneAddresses f).map (fun e => (e.2, ((getLoom s.dev tile eng).vreg f.d).getD e.1 0)) =
      ((List.range 256).filter (isActive (getLoom s.dev tile eng) f)).map fun k => (a k, lane (getLoom s.dev tile eng) f.d k) := by
    rw [laneAddresses_eq hwhole, List.map_map]
    exact List.map_congr_left fun k _ => congrArg (Prod.mk · _) (ha k).symm
  obtain ⟨d', hstore, honly, hop, hcells⟩ := storeLanes_of_clear (a := { tile := tile, eng := eng, op := n })
    (l := ((List.range 256).filter (isActive (getLoom s.dev tile eng) f)).map fun k => (a k, lane (getLoom s.dev tile eng) f.d k))
    hplain.2 (getOp_of_loomReady h) (List.forall_mem_map.mpr fun k hk => by
      obtain ⟨hrange, hon⟩ := List.mem_filter.mp hk
      obtain ⟨halign, hc⟩ := hclear k (List.mem_range.mp hrange) hon
      exact ⟨sramFault_of_sramClear hc halign, (clearIn_of_sramClear (by omega) hc).2⟩)
  rw [List.map_map] at hcells
  exact acts_of_lanesStored h ((congrArg (storeLanes _ · _) hlist).trans hstore) honly hop
    (lanesStored_of_lanes (addr := fun k => sramBase tile + a k) (val := fun k => (lane (getLoom s.dev tile eng) f.d k).toNat)
      (cellsWf_of_plainMemory hplain) hcells)

/-- Bytes that one write stores. -/
theorem bytesStored_of_write {d d' : Dev} {a : Nat} {b : Bytes} (hplain : plainMemory d)
    (hcells : d'.mem.cells = writeCells d.mem.cells [(a, b)]) : bytesStored d d' a b := by
  intro x
  rw [byteAt, hcells]
  exact cellGet_cellsWrite (cellsWf_of_plainMemory hplain) a b x

/-- An instruction that writes bytes at one place in its tile's clear SRAM. -/
theorem acts_of_bytes {op : LoomOp} {off : Nat} {b : Bytes} (h : loomReady s tile eng n o op f) (hplain : plainMemory s.dev)
    (hbody : loomBody op { tile := tile, eng := eng, op := n } f s.dev =
      loomWrite { tile := tile, eng := eng, op := n } [(sramBase tile + off, b)] s.dev)
    (hpos : 0 < b.length) (hclear : sramClear s.dev tile off b.length) :
    acts (loomCmd tile eng f op) s fun d => bytesStored s.dev d (sramBase tile + off) b ∧
      loomGoesOnIn onlyStores s.dev d tile eng n (getLoom s.dev tile eng) := by
  obtain ⟨d', hwrite, honly, hop, hcells⟩ := loomWrite_of_clear (a := { tile := tile, eng := eng, op := n }) (l := [(sramBase tile + off, b)])
    hplain.2 (getOp_of_loomReady h) (by simpa using (clearIn_of_sramClear hpos hclear).2)
  exact acts_of_written (p := fun m => bytesStored s.dev { s.dev with mem := m } (sramBase tile + off) b) h (hbody.trans hwrite) honly hop
    (bytesStored_of_write (d' := d') hplain hcells)

end

/-- Settles O16: loads read the runs of active lanes into a buffer that then holds memory's bytes, stores write the runs or, by VSTX, one
lane after another. -/
theorem loomLoadAndStoreResults : Obligations.LoomLoadAndStoreResults := by
  unfold Obligations.LoomLoadAndStoreResults
  refine ⟨⟨fun s tile eng n o f h => acts_vld h, fun s tile eng n o f die h => acts_vldg h,
    fun s tile eng n o f h => acts_vldx h fun _ => rfl, fun s tile eng n o f h => acts_sld h, fun s tile eng n o f h => acts_mld h⟩,
    fun s tile eng n o f h hplain => acts_vst h hplain, fun s tile eng n o f die h hplain => acts_vstg h hplain,
    fun s tile eng n o f h hplain => acts_vstx h hplain fun _ => rfl, fun s tile eng n o f h hplain => ?sst,
    fun s tile eng n o f h hplain => ?mst⟩
  case sst =>
    intro l0 halign hclear
    have hfault : sramFault tile ((getLoom s.dev tile eng).address f) 0 8 8 = none := sramFault_of_sramClear hclear halign
    exact acts_of_bytes h hplain (by simp only [loomBody, loomSst, hfault, orFault, l0]) (by simp) (by simpa using hclear)
  case mst =>
    intro l0 halign hclear
    have hfault : sramFault tile ((getLoom s.dev tile eng).address f) 0 32 8 = none := sramFault_of_sramClear hclear halign
    exact acts_of_bytes h hplain (by simp only [loomBody, loomMst, hfault, l0]) (by simp) (by simpa using hclear)

end Sys2Proof.LoomStoreProofs
end

section
/-! SUPPORT. The typed loads and stores of a Loom and its update-class instructions (R168, R171, R244, Table 6.15): packed elements as the
bits that they take, the stores of whole elements, and the statement on VLDF, VSTF, UCVT and USTF. -/

namespace Sys2Proof.LoomTypedProofs

open Sys2Proof Sys2Proof.Machine Sys2Proof.Safety Sys2Proof.HostProofs Sys2Proof.OrgProofs Sys2Proof.MillProofs Sys2Proof.LoomProofs
open Sys2Proof.StoreProofs Sys2Proof.DrainProofs Sys2Proof.LoomResultProofs Sys2Proof.LoomLaneProofs Sys2Proof.LoomRangeProofs
open Sys2Proof.LoomLoadProofs Sys2Proof.LoomStoreProofs

/-! ## Packed elements (R86) -/

/-- The widths of elements. -/
theorem fmtBits_cases (code : Nat) : fmtBits code = 4 ∨ fmtBits code = 6 ∨ fmtBits code = 8 ∨ fmtBits code = 16 ∨ fmtBits code = 32 := by
  unfold fmtBits
  split <;> decide

/-- A field of three bytes, byte by byte. -/
theorem fld_three (b : Bytes) (off : Nat) : fld b off 3 =
    (b.getD off 0).toNat + 256 * ((b.getD (off + 1) 0).toNat + 256 * (b.getD (off + 2) 0).toNat) := by
  rw [fld, slice_eq_map]
  simp [List.range_succ, leNat]

/-- An element of six bits takes one or two of the three bytes of its group. -/
theorem sixBits_congr {b b' : Bytes} {i : Nat} (h : ∀ x, 6 * i / 8 ≤ x → x < (6 * (i + 1) + 7) / 8 → b.getD x 0 = b'.getD x 0) :
    bits (fld b (i / 4 * 3) 3) (6 * (i % 4) + 5) (6 * (i % 4)) = bits (fld b' (i / 4 * 3) 3) (6 * (i % 4) + 5) (6 * (i % 4)) := by
  have hlt (c : Bytes) (x : Nat) : (c.getD x 0).toNat < 256 := (c.getD x 0).isLt
  have h0 := hlt b (i / 4 * 3)
  have h0' := hlt b' (i / 4 * 3)
  have h1 := hlt b (i / 4 * 3 + 1)
  have h1' := hlt b' (i / 4 * 3 + 1)
  simp only [bits, fld_three, show 6 * (i % 4) + 5 + 1 - 6 * (i % 4) = 6 by omega]
  obtain hr | hr | hr | hr : i % 4 = 0 ∨ i % 4 = 1 ∨ i % 4 = 2 ∨ i % 4 = 3 := by omega
  · rw [hr, h (i / 4 * 3) (by omega) (by omega)]
    norm_num
    omega
  · rw [hr, h (i / 4 * 3) (by omega) (by omega), h (i / 4 * 3 + 1) (by omega) (by omega)]
    norm_num
    omega
  · rw [hr, h (i / 4 * 3 + 1) (by omega) (by omega), h (i / 4 * 3 + 2) (by omega) (by omega)]
    norm_num
    omega
  · rw [hr, h (i / 4 * 3 + 2) (by omega) (by omega)]
    norm_num
    omega

/-- An element depends on the bytes that it takes alone. -/
theorem unpackElem_congr {code : Nat} {b b' : Bytes} {i : Nat}
    (h : ∀ x, fmtBits code * i / 8 ≤ x → x < (fmtBits code * (i + 1) + 7) / 8 → b.getD x 0 = b'.getD x 0) :
    unpackElem code b i = unpackElem code b' i := by
  obtain hb | hb | hb | hb | hb := fmtBits_cases code
  all_goals
    rw [hb] at h
    simp only [unpackElem, hb]
  · rw [fld_congr fun x hlow hhigh => h x (by omega) (by omega)]
  · exact sixBits_congr h
  · exact fld_congr fun x hlow hhigh => h x (by omega) (by omega)
  · exact fld_congr fun x hlow hhigh => h x (by omega) (by omega)
  · exact fld_congr fun x hlow hhigh => h x (by omega) (by omega)

/-- The bytes of an integer, the lowest first, are those of its low part and then of its high part. -/
theorem leBytes_add (n m v : Nat) : leBytes (n + m) v = leBytes n v ++ leBytes m (v / 256 ^ n) := by
  induction n generalizing v with
  | zero => simp [leBytes]
  | succ n ih => rw [Nat.succ_add, leBytes, ih, leBytes, List.cons_append, Nat.div_div_eq_div_mul, ← Nat.pow_succ']

/-- Low bytes depend on the integer modulo their range alone. -/
theorem leBytes_mod (n v : Nat) : leBytes n (v % 256 ^ n) = leBytes n v := by
  induction n generalizing v with
  | zero => rfl
  | succ n ih =>
    rw [leBytes, leBytes, Nat.pow_succ', Nat.mod_mul_right_div_self, ih]
    refine congrArg (· :: _) (BitVec.eq_of_toNat_eq ?_)
    simp only [BitVec.toNat_ofNat]
    exact Nat.mod_mul_right_mod v 256 (256 ^ n)

/-- The integer whose digits in a base a list gives, the lowest first. -/
def digitsNat (b : Nat) : List Nat → Nat
  | [] => 0
  | x :: r => x % 2 ^ b + 2 ^ b * digitsNat b r

/-- Packing makes that integer. -/
theorem foldl_zipIdx_eq_digitsNat (b : Nat) (xs : List Nat) (n m : Nat) :
    (xs.zipIdx m).foldl (fun acc e => acc + (e.1 % 2 ^ b) * 2 ^ (b * e.2)) n = n + 2 ^ (b * m) * digitsNat b xs := by
  induction xs generalizing n m with
  | nil => simp [digitsNat]
  | cons x r ih =>
    rw [List.zipIdx_cons, List.foldl_cons, ih, digitsNat, Nat.mul_succ, Nat.pow_add]
    ring

/-- Elements of whole bytes are packed as their own bytes, one after another. -/
theorem packElems_eq_flatMap {code size : Nat} (h : fmtBits code = 8 * size) (xs : List Nat) :
    packElems code xs = xs.flatMap (leBytes size) := by
  have hlen : packedBytes code xs.length = size * xs.length := by
    rw [packedBytes, h, show xs.length * (8 * size) = 8 * (size * xs.length) by ring]
    omega
  have hbase : 2 ^ (8 * size) = 256 ^ size := by rw [Nat.pow_mul]
  rw [packElems, foldl_zipIdx_eq_digitsNat, hlen, h, Nat.mul_zero, Nat.pow_zero, Nat.one_mul, Nat.zero_add]
  clear hlen
  induction xs with
  | nil => rfl
  | cons x r ih =>
    have hpos : 0 < 256 ^ size := Nat.pow_pos (by omega)
    rw [List.flatMap_cons, List.length_cons, Nat.mul_succ, Nat.add_comm, leBytes_add, digitsNat, hbase,
      Nat.add_mul_div_left _ _ hpos, Nat.div_eq_of_lt (Nat.mod_lt _ hpos), Nat.zero_add, ih, ← leBytes_mod size (x % _ + _),
      Nat.add_mul_mod_self_left, Nat.mod_mod, leBytes_mod]

/-! ## Draws (R171, R244) -/

/-- The draw of a lane for an operation's tensor: of R244 where the instruction rounds stochastically. -/
def laneDraw (d : Dev) (o : Op) (f : LoomFields) (t : Nat) (e0 : W64) (k : Nat) : Nat :=
  if f.rc.toNat % 4 = 2 then r16 d.steps.num.seed o.step t (e0 + BitVec.ofNat 64 k) else 0

/-- The draws of an update-class instruction, where it has any. -/
theorem updateDraws_eq {d : Dev} {a : LoomAt} {o : Op} (hop : getOp d a.op = some o) (f : LoomFields) (t : Nat) (e0 : W64) :
    updateDraws d a f t e0 =
      if f.rc.toNat % 4 = 2 then (List.range 256).map fun i => r16 d.steps.num.seed o.step t (e0 + BitVec.ofNat 64 i) else [] := by
  rw [updateDraws, hop]
  rfl

/-- A list of a number for each lane, or none at all. -/
theorem ite_map_range_getD {c : Prop} [Decidable c] (g : Nat → Nat) {k : Nat} (hk : k < 256) :
    (if c then (List.range 256).map g else []).getD k 0 = if c then g k else 0 := by
  split
  · exact map_range_getD g 0 hk
  · rfl

/-- They are those of the lanes. -/
theorem updateDraws_getD {d : Dev} {a : LoomAt} {o : Op} (hop : getOp d a.op = some o) (f : LoomFields) (t : Nat) (e0 : W64) {k : Nat}
    (hk : k < 256) : (updateDraws d a f t e0).getD k 0 = laneDraw d o f t e0 k := by
  rw [updateDraws_eq hop, ite_map_range_getD _ hk]
  rfl

section
variable {s : State} {tile eng : Nat} {n : OpName} {o : Op} {f : LoomFields}

/-! ## UCVT -/

/-- UCVT (R171). -/
theorem acts_ucvt {t : Nat} (h : loomReady s tile eng n o .ucvt f) (htensor : tensorOf ((getLoom s.dev tile eng).sreg f.b) = some t)
    (hword : updateWordBad (((getLoom s.dev tile eng).sreg f.b).toNat % 65536) = false) {out : Nat → Conv}
    (hout : ∀ k, out k = convert (fmtOf (((getLoom s.dev tile eng).sreg f.b).toNat % 65536)) f.rc.toNat
      (laneDraw s.dev o f t ((getLoom s.dev tile eng).sreg f.c) k) (f32 (laneOfA (getLoom s.dev tile eng) f k))) :
    acts (.ucvt tile eng f) s fun d => ∃ l1 l2,
      vectorSet (getLoom s.dev tile eng) l1 f.d (fun k => if isActive (getLoom s.dev tile eng) f k then BitVec.ofNat 32 (out k).pat
        else lane (getLoom s.dev tile eng) f.d k) ∧
      (if f.sm = 0 then l2 = l1 else maskSet l1 l2 f.sm.toNat fun k => (out k).sat && isActive (getLoom s.dev tile eng) f k) ∧
      loomGoesOn s.dev d tile eng n l2 := by
  have ⟨_, _, _, _, hwhole, _, _⟩ := h
  refine acts_of_convert (outs := ((getLoom s.dev tile eng).laneA f).zipIdx.map fun e =>
    convert (fmtOf (((getLoom s.dev tile eng).sreg f.b).toNat % 65536)) f.rc.toNat
      ((updateDraws s.dev { tile := tile, eng := eng, op := n } f t ((getLoom s.dev tile eng).sreg f.c)).getD e.2 0) (f32 e.1)) h ?_ ?_
  · simp only [loomBody, loomUcvt, htensor, hword, Bool.false_eq_true, if_false]
  · rw [laneA_eq_map hwhole, zipIdx_map_range, List.map_map]
    refine List.map_congr_left fun k hk => ?_
    rw [hout k, ← updateDraws_getD (a := { tile := tile, eng := eng, op := n }) (getOp_of_loomReady h) f t _ (List.mem_range.mp hk)]
    rfl

/-! ## VSTF and USTF -/

/-- The elements that a typed store makes of the lanes, an inactive one as +0. -/
def storedConv (l : Loom) (f : LoomFields) (w : Nat) (asInt : Bool) (draws : List Nat) (k : Nat) : Conv :=
  convert (fmtOf w) f.rc.toNat (draws.getD k 0)
    (if isActive l f k then (if asInt then intVal (lane l f.d k).toInt 0 else f32 (lane l f.d k)) else .zero false)

/-- They are one for each lane. -/
theorem storedConvs_eq {l : Loom} (hwhole : filesWhole l) (f : LoomFields) (w : Nat) (asInt : Bool) (draws : List Nat) :
    ((((l.vreg f.d).zip (maskLanes (l.active f))).map fun e =>
        if e.2 then (if asInt then intVal e.1.toInt 0 else f32 e.1) else Val.zero false).zipIdx.map fun e =>
      convert (fmtOf w) f.rc.toNat (draws.getD e.2 0) e.1) = (List.range 256).map (storedConv l f w asInt draws) := by
  rw [vreg_eq_map hwhole, maskLanes, List.zip_map', List.map_map, zipIdx_map_range, List.map_map]
  rfl

section
variable {a : LoomAt} {d : Dev} {off w scaleAt : Nat} {asInt : Bool} {draws : List Nat} (hwhole : filesWhole (getLoom d a.tile a.eng))
  (hmx : (fmtOf w).mx = false) (hsize : 1 ≤ fmtBits (fmtOf w).code / 8)
include hwhole hmx hsize

/-- A typed store of whole elements, without MX, with no active lane. -/
theorem storeTyped_none (hext : laneExtent ((getLoom d a.tile a.eng).active f) = none) :
    storeTyped a f off w scaleAt asInt draws d =
      (modLoom d a.tile a.eng (putSat f ((List.range 256).map (storedConv (getLoom d a.tile a.eng) f w asInt draws))
        ((getLoom d a.tile a.eng).active f)), .next) := by
  have hlt : decide (fmtBits (fmtOf w).code < 8) = false := decide_eq_false (by omega)
  simp only [storeTyped, hmx, hlt, hext, Bool.or_false, Bool.false_eq_true, if_false, List.flatMap_singleton, storedConvs_eq hwhole]

/-- With active lanes it writes their runs. -/
theorem storeTyped_some {e : Nat × Nat} (hext : laneExtent ((getLoom d a.tile a.eng).active f) = some e)
    (hfault : sramFault a.tile off (fmtBits (fmtOf w).code / 8 * e.1) (fmtBits (fmtOf w).code / 8 * e.2) 16 = none) {d' : Dev}
    (hwrite : loomWrite a ((laneRuns ((getLoom d a.tile a.eng).active f)).map fun r =>
      (sramBase a.tile + off + fmtBits (fmtOf w).code / 8 * r.1,
        ((packElems (fmtOf w).code (((List.range 256).map (storedConv (getLoom d a.tile a.eng) f w asInt draws)).map (·.pat))).drop
          (fmtBits (fmtOf w).code / 8 * r.1)).take (fmtBits (fmtOf w).code / 8 * r.2))) d = (d', .next)) :
    storeTyped a f off w scaleAt asInt draws d =
      (modLoom d' a.tile a.eng (putSat f ((List.range 256).map (storedConv (getLoom d a.tile a.eng) f w asInt draws))
        ((getLoom d a.tile a.eng).active f)), .next) := by
  have hlt : decide (fmtBits (fmtOf w).code < 8) = false := decide_eq_false (by omega)
  simp only [storeTyped, hmx, hlt, hext, hfault, orFault, Bool.or_false, Bool.false_eq_true, if_false, List.flatMap_singleton,
    storedConvs_eq hwhole, hwrite]

end

/-- The lanes of a tile's clear bytes are clear. -/
theorem clearIn_lanes_of_sramClear {d : Dev} {tile off size : Nat} (hsize : 1 ≤ size) (h : sramClear d tile off (256 * size)) {k : Nat}
    (hk : k < 256) : clearIn d (.sram tile) (sramBase tile + off + size * k) size := by
  have hle : size * (k + 1) ≤ size * 256 := Nat.mul_le_mul_left _ hk
  rw [Nat.mul_succ, Nat.mul_comm size 256] at hle
  rw [Nat.add_assoc]
  exact clearIn_of_sramClear hsize (sramClear_of_part h (by omega) (by omega))

/-- A typed store into clear bytes stores the elements of the active lanes, and goes on with a Loom whose registers but SM it keeps. -/
theorem storeTyped_of_clear {d : Dev} {a : LoomAt} {off w scaleAt : Nat} {asInt : Bool} {draws : List Nat} {out : Nat → Conv}
    (hplain : plainMemory d) (hop : getOp d a.op = some o) (hwhole : filesWhole (getLoom d a.tile a.eng)) (hmx : (fmtOf w).mx = false)
    (hsize : 1 ≤ fmtBits (fmtOf w).code / 8) (halign : off % 16 = 0) (hclear : sramClear d a.tile off (256 * (fmtBits (fmtOf w).code / 8)))
    (hout : ∀ k, k < 256 → isActive (getLoom d a.tile a.eng) f k = true → storedConv (getLoom d a.tile a.eng) f w asInt draws k = out k) :
    ∃ d', storeTyped a f off w scaleAt asInt draws d = (modLoom d' a.tile a.eng (putSat f
        ((List.range 256).map (storedConv (getLoom d a.tile a.eng) f w asInt draws)) ((getLoom d a.tile a.eng).active f)), .next) ∧
      onlyWritten d d' ∧ (getOp d' a.op).isSome = true ∧
      lanesStored d d' (isActive (getLoom d a.tile a.eng) f) (fmtBits (fmtOf w).code / 8)
        (fun k => sramBase a.tile + off + fmtBits (fmtOf w).code / 8 * k) (fun k => (out k).pat) := by
  have hlanes (k) (hk : isActive (getLoom d a.tile a.eng) f k = true) := clearIn_lanes_of_sramClear hsize hclear (BitVec.lt_of_getLsbD hk)
  have hbits : fmtBits (fmtOf w).code = 8 * (fmtBits (fmtOf w).code / 8) := by
    have := fmtBits_cases (fmtOf w).code
    omega
  have hdata := packElems_eq_flatMap hbits (((List.range 256).map (storedConv (getLoom d a.tile a.eng) f w asInt draws)).map (·.pat))
  cases hext : laneExtent ((getLoom d a.tile a.eng).active f) with
  | none =>
    exact ⟨d, storeTyped_none hwhole hmx hsize hext, onlyWritten_refl d, Option.isSome_of_eq_some hop,
      lanesStored_none d (active_of_laneExtent_none hext) _ _ _⟩
  | some e =>
    obtain ⟨d', hwrite, honly, hop', hstored⟩ := loomWrite_laneRuns (a := a) (m := (getLoom d a.tile a.eng).active f)
      (piece := fun r => ((packElems (fmtOf w).code
        (((List.range 256).map (storedConv (getLoom d a.tile a.eng) f w asInt draws)).map (·.pat))).drop
          (fmtBits (fmtOf w).code / 8 * r.1)).take (fmtBits (fmtOf w).code / 8 * r.2))
      (val := fun k => (out k).pat) hplain hop hsize hlanes
      (fun r hr => by
        have hle : fmtBits (fmtOf w).code / 8 * (r.1 + r.2) ≤ fmtBits (fmtOf w).code / 8 * 256 := Nat.mul_le_mul_left _ (laneRun_le hr)
        rw [Nat.mul_add] at hle
        rw [hdata, List.length_take, List.length_drop, flatMap_length fun _ => leBytes_length ..]
        simp only [List.length_map, List.length_range]
        omega)
      (fun r hr i j hi hj => by
        have hle := laneRun_le hr
        have hin : fmtBits (fmtOf w).code / 8 * i + j < fmtBits (fmtOf w).code / 8 * r.2 := by
          have hstep : fmtBits (fmtOf w).code / 8 * (i + 1) ≤ fmtBits (fmtOf w).code / 8 * r.2 := Nat.mul_le_mul_left _ hi
          rw [Nat.mul_succ] at hstep
          omega
        have hon := (active_of_mem_laneRuns hr).2 (r.1 + i) (by omega) (by omega)
        rw [← hout _ (by omega) hon, List.getD_eq_getElem?_getD, List.getElem?_take_of_lt hin, List.getElem?_drop, ← Nat.add_assoc,
          ← Nat.mul_add, ← List.getD_eq_getElem?_getD, hdata, flatMap_getD (fun _ => leBytes_length ..) _ 0 0 (by simp; omega) hj,
          List.map_map, map_range_getD _ _ (by omega)]
        rfl)
    exact ⟨d', storeTyped_some hwhole hmx hsize hext (sramFault_of_laneExtent hlanes hext halign) hwrite, honly, hop', hstored⟩

/-- A mask register that is written, told otherwise. -/
theorem maskSet_congr {l l' : Loom} {i : Nat} {val val' : Nat → Bool} (hval : ∀ k, k < 256 → val k = val' k) (h : maskSet l l' i val) :
    maskSet l l' i val' := by
  obtain ⟨hsame, hregs, hmask⟩ := h
  exact ⟨hsame, hregs, fun k hk => (hmask k hk).trans (hval k hk)⟩

/-- An instruction that is such a typed store. -/
theorem acts_of_storeTyped {op : LoomOp} {off w scaleAt : Nat} {asInt : Bool} {draws : List Nat} {out : Nat → Conv}
    (h : loomReady s tile eng n o op f) (hplain : plainMemory s.dev)
    (hbody : loomBody op { tile := tile, eng := eng, op := n } f s.dev =
      storeTyped { tile := tile, eng := eng, op := n } f off w scaleAt asInt draws s.dev) (hmx : (fmtOf w).mx = false)
    (hsize : 1 ≤ fmtBits (fmtOf w).code / 8) (halign : off % 16 = 0) (hclear : sramClear s.dev tile off (256 * (fmtBits (fmtOf w).code / 8)))
    (hout : ∀ k, k < 256 → isActive (getLoom s.dev tile eng) f k = true → storedConv (getLoom s.dev tile eng) f w asInt draws k = out k) :
    acts (loomCmd tile eng f op) s fun d => ∃ l,
      (if f.sm = 0 then l = getLoom s.dev tile eng
        else maskSet (getLoom s.dev tile eng) l f.sm.toNat fun k => isActive (getLoom s.dev tile eng) f k && (out k).sat) ∧
      lanesStored s.dev d (isActive (getLoom s.dev tile eng) f) (fmtBits (fmtOf w).code / 8)
        (fun k => sramBase tile + off + fmtBits (fmtOf w).code / 8 * k) (fun k => (out k).pat) ∧
      loomGoesOnIn onlyStores s.dev d tile eng n l := by
  have ⟨_, _, _, _, hwhole, _, _⟩ := h
  have ⟨_, hlen, _, _⟩ := hwhole
  obtain ⟨d', hstore, honly, hop, hstored⟩ := storeTyped_of_clear (a := { tile := tile, eng := eng, op := n }) (scaleAt := scaleAt) hplain
    (getOp_of_loomReady h) hwhole hmx hsize halign hclear hout
  have hlooms : d'.looms = s.dev.looms := by
    obtain ⟨_, _, _, _, rfl, -⟩ := honly
    rfl
  obtain ⟨d, hexec, hlanes, hgoes⟩ := acts_of_store (p := fun m => lanesStored s.dev { s.dev with mem := m }
      (isActive (getLoom s.dev tile eng) f) (fmtBits (fmtOf w).code / 8) (fun k => sramBase tile + off + fmtBits (fmtOf w).code / 8 * k)
      fun k => (out k).pat) h (hbody.trans hstore) honly hop
    (fun k hk => (otherLooms_modLoom d' tile eng _ k hk).trans (congrArg (tget · k) hlooms))
    ((getLoom_modLoom ..).trans (congrArg _ (getLoom_congr hlooms ..))) (putSat_waitFrom ..) hstored
  refine ⟨d, hexec, _, ?_, hlanes, hgoes⟩
  have hsat := putSat_spec hlen f (storedConv (getLoom s.dev tile eng) f w asInt draws) ((getLoom s.dev tile eng).active f)
  split at hsat
  next h0 =>
    rw [if_pos h0]
    exact hsat
  next h0 =>
    rw [if_neg h0]
    refine maskSet_congr (fun k hk => ?_) hsat
    rw [Bool.and_comm]
    cases hon : ((getLoom s.dev tile eng).active f).getLsbD k with
    | true => rw [hout k hk hon, isActive, hon]
    | false => rw [isActive, hon, Bool.false_and, Bool.false_and]

/-! ## VLDF -/

/-- The lane that VLDF makes of an element's value. -/
def typedLane (w : Nat) (v : Val) : W32 :=
  if intLane w then BitVec.ofNat 32 (convert { code := 11, mx := false, scale := 0 } 0 0 v).pat else toF32 v

/-- The value of element `k` of packed elements, with the scales of their blocks. -/
def typedVal (w : Nat) (data scales : Bytes) (k : Nat) : Val :=
  readVal (fmtOf w) (unpackElem (fmtOf w).code data k) (if (fmtOf w).mx then fld scales (k / 32) 1 else 127)

/-- The blocks whose scales VLDF reads: those with an active lane. -/
def scaleBlocks (w : Nat) (m : BitVec 256) : List Nat :=
  if (fmtOf w).mx then (List.range 8).filter fun b => (laneRuns m).any fun r => r.1 < 32 * b + 32 && 32 * b < r.1 + r.2 else []

/-- The fault of the scales' bytes. -/
def scaleFault (tile sx w : Nat) (m : BitVec 256) : Option Nat :=
  match (scaleBlocks w m).head?, (scaleBlocks w m).getLast? with
  | some a, some b => sramFault tile sx a (b + 1 - a) 1
  | _, _ => none

/-- A block whose scale is read has MX, and one of 8 scales. -/
theorem mem_scaleBlocks {w b : Nat} {m : BitVec 256} (h : b ∈ scaleBlocks w m) : (fmtOf w).mx = true ∧ b < 8 := by
  unfold scaleBlocks at h
  split at h
  next hmx => exact ⟨hmx, List.mem_range.mp (List.mem_filter.mp h).1⟩
  next => cases h

/-- With MX the block of an active lane is among them. -/
theorem block_mem_scaleBlocks {w k : Nat} {m : BitVec 256} (hmx : (fmtOf w).mx = true) (hk : m.getLsbD k = true) :
    k / 32 ∈ scaleBlocks w m := by
  have hlt := BitVec.lt_of_getLsbD hk
  obtain ⟨r, hr, hlow, hhigh⟩ := exists_laneRun hk
  rw [scaleBlocks, if_pos hmx, List.mem_filter, List.mem_range, List.any_eq_true]
  exact ⟨by omega, r, hr, by simp only [Bool.and_eq_true, decide_eq_true_eq]; omega⟩

/-- Scales in clear bytes meet no fault. -/
theorem scaleFault_of_clear {d : Dev} {tile sx w : Nat} {m : BitVec 256} (h : (fmtOf w).mx = true → sramClear d tile sx 8) :
    scaleFault tile sx w m = none := by
  unfold scaleFault
  split
  next a b ha hb =>
    obtain ⟨hmx, ha8⟩ := mem_scaleBlocks (List.mem_of_head? ha)
    obtain ⟨-, hb8⟩ := mem_scaleBlocks (List.mem_of_getLast? hb)
    obtain ⟨hend, -⟩ := h hmx
    have hle : ¬ tileCapacity tile < sx + a + (b + 1 - a) := by omega
    simp [sramFault, hle, Nat.mod_one]
  next => rfl

/-- VLDF with an active lane, of a format word that it accepts (R168). -/
theorem loomVldf_eq {a : LoomAt} {d : Dev} {w : Nat} {e : Nat × Nat} (hw : ((getLoom d a.tile a.eng).sreg f.f).toNat % 65536 = w)
    (hword : typedWordBad w = false) (hext : laneExtent ((getLoom d a.tile a.eng).active f) = some e) :
    loomVldf a f d = orFault d ((sramFault a.tile ((getLoom d a.tile a.eng).address f) (elemSpan (fmtBits (fmtOf w).code) e.1 e.2).1
        (elemSpan (fmtBits (fmtOf w).code) e.1 e.2).2 16).or
          (scaleFault a.tile ((getLoom d a.tile a.eng).sreg f.x).toNat w ((getLoom d a.tile a.eng).active f)))
      (loomReads a (sramBase a.tile + ((getLoom d a.tile a.eng).sreg f.x).toNat) 8
        ((scaleBlocks w ((getLoom d a.tile a.eng).active f)).map fun b => (b, 1)) d fun scales d1 =>
        loomReads a (sramBase a.tile + (getLoom d a.tile a.eng).address f) (32 * fmtBits (fmtOf w).code)
          ((laneRuns ((getLoom d a.tile a.eng).active f)).map fun r => elemSpan (fmtBits (fmtOf w).code) r.1 r.2) d1 fun data d2 =>
          (modLoom d2 a.tile a.eng fun l => l.putV f ((List.range 256).map fun k => typedLane w (typedVal w data scales k)), .next)) := by
  subst hw
  simp only [loomVldf, hword, hext, Bool.false_eq_true, if_false]
  rfl

/-- The bytes of lanes lie among those of all 256, and are some. -/
theorem elemSpan_spec (code : Nat) {i m : Nat} (h : i + m ≤ 256) :
    (elemSpan (fmtBits code) i m).1 + (elemSpan (fmtBits code) i m).2 ≤ 32 * fmtBits code ∧
      (0 < m → 0 < (elemSpan (fmtBits code) i m).2) := by
  obtain hb | hb | hb | hb | hb := fmtBits_cases code
  all_goals
    rw [hb]
    simp only [elemSpan]
    omega

/-- The bytes of a lane of a run lie among those of the run. -/
theorem elemSpan_of_run (code : Nat) {i m k x : Nat} (hlow : i ≤ k) (hhigh : k < i + m) (hx : fmtBits code * k / 8 ≤ x)
    (hx' : x < (fmtBits code * (k + 1) + 7) / 8) :
    (elemSpan (fmtBits code) i m).1 ≤ x ∧ x < (elemSpan (fmtBits code) i m).1 + (elemSpan (fmtBits code) i m).2 := by
  obtain hb | hb | hb | hb | hb := fmtBits_cases code
  all_goals
    rw [hb] at hx hx' ⊢
    simp only [elemSpan]
    omega

section
variable {a : LoomAt} {d : Dev} {w off sx : Nat} {m : BitVec 256}

/-- The scales of the blocks with an active lane, as memory holds them. -/
def scaleBuffer (d : Dev) (tile sx w : Nat) (m : BitVec 256) : Bytes :=
  fillBuffer 8 (((scaleBlocks w m).map fun b => (b, 1)).map (pieceOf fun x => cellGet d.mem.cells (sramBase tile + sx + x)))

/-- Their places. -/
theorem scalePlaces_le {r : Nat × Nat} (hr : r ∈ (scaleBlocks w m).map fun b => (b, 1)) : r.1 + r.2 ≤ 8 := by
  obtain ⟨b, hb, rfl⟩ := List.mem_map.mp hr
  exact (mem_scaleBlocks hb).2

/-- They are read from clear bytes. -/
theorem loomReads_scales (h : (fmtOf w).mx = true → sramClear d a.tile sx 8) (k : Bytes → Dev → Dev × Flow) :
    ∃ c, loomReads a (sramBase a.tile + sx) 8 ((scaleBlocks w m).map fun b => (b, 1)) d k =
      k (scaleBuffer d a.tile sx w m) { d with counters := c } := by
  refine loomReads_of_clear (List.forall_mem_map.mpr fun b hb => ?_) k
  obtain ⟨hmx, hlt⟩ := mem_scaleBlocks hb
  rw [Nat.add_assoc]
  exact (clearIn_of_sramClear Nat.one_pos (sramClear_of_part (h hmx) (by simp only; omega) (by simp only; omega))).2

/-- The scale of an active lane is the byte of its block. -/
theorem fld_scaleBuffer (d : Dev) (tile sx : Nat) {k : Nat} (hmx : (fmtOf w).mx = true) (hk : m.getLsbD k = true) :
    fld (scaleBuffer d tile sx w m) (k / 32) 1 = (byteAt d (sramBase tile + sx + k / 32)).toNat := by
  have hcells : fld (scaleBuffer d tile sx w m) (k / 32) 1 = leNat (cellsRead d.mem.cells (sramBase tile + sx + k / 32) 1) := by
    refine fld_of_cells fun i hi => ?_
    rw [scaleBuffer, fillBuffer_getD (fun r hr => scalePlaces_le hr)
      ⟨_, List.mem_map_of_mem (block_mem_scaleBlocks hmx hk), by simp only; omega, by simp only; omega⟩, Nat.add_assoc _ (k / 32)]
  rw [hcells]
  simp [cellsRead, leNat]

/-- The elements of the runs of active lanes, as memory holds them. -/
def elemBuffer (d : Dev) (tile off w : Nat) (m : BitVec 256) : Bytes :=
  fillBuffer (32 * fmtBits (fmtOf w).code) (((laneRuns m).map fun r => elemSpan (fmtBits (fmtOf w).code) r.1 r.2).map
    (pieceOf fun x => cellGet d.mem.cells (sramBase tile + off + x)))

/-- They are read from clear bytes. -/
theorem loomReads_elems (h : sramClear d a.tile off (32 * fmtBits (fmtOf w).code)) (k : Bytes → Dev → Dev × Flow) :
    ∃ c, loomReads a (sramBase a.tile + off) (32 * fmtBits (fmtOf w).code)
        ((laneRuns m).map fun r => elemSpan (fmtBits (fmtOf w).code) r.1 r.2) d k =
      k (elemBuffer d a.tile off w m) { d with counters := c } := by
  refine loomReads_of_clear (List.forall_mem_map.mpr fun r hr => ?_) k
  obtain ⟨hle, hpos⟩ := elemSpan_spec (fmtOf w).code (laneRun_le hr)
  rw [Nat.add_assoc]
  exact (clearIn_of_sramClear (hpos (active_of_mem_laneRuns hr).1) (sramClear_of_part h (by omega) (by omega))).2

/-- The element of an active lane is that of memory. -/
theorem unpackElem_elemBuffer (d : Dev) (tile off w : Nat) {k : Nat} (hk : m.getLsbD k = true) :
    unpackElem (fmtOf w).code (elemBuffer d tile off w m) k =
      unpackElem (fmtOf w).code (cellsRead d.mem.cells (sramBase tile + off) (32 * fmtBits (fmtOf w).code)) k := by
  obtain ⟨q, hq, hlow, hhigh⟩ := exists_laneRun hk
  refine unpackElem_congr fun x hx hx' => ?_
  have hin := elemSpan_of_run (fmtOf w).code hlow hhigh hx hx'
  have hle := (elemSpan_spec (fmtOf w).code (laneRun_le hq)).1
  rw [elemBuffer, fillBuffer_getD (List.forall_mem_map.mpr fun r hr => (elemSpan_spec (fmtOf w).code (laneRun_le hr)).1)
    ⟨_, List.mem_map_of_mem hq, hin⟩, cellsRead_getD (by omega)]

/-- The elements' bytes meet no fault. -/
theorem elemFault_of_clear {tile : Nat} (h : sramClear d tile off (32 * fmtBits (fmtOf w).code)) (halign : off % 16 = 0) {e : Nat × Nat}
    (hext : laneExtent m = some e) :
    sramFault tile off (elemSpan (fmtBits (fmtOf w).code) e.1 e.2).1 (elemSpan (fmtBits (fmtOf w).code) e.1 e.2).2 16 = none := by
  obtain ⟨hcap, -⟩ := h
  obtain ⟨hs, last, hlast, hsum⟩ := active_of_laneExtent hext
  have hs' := BitVec.lt_of_getLsbD hs
  have hlast' := BitVec.lt_of_getLsbD hlast
  have hspan := (elemSpan_spec (fmtOf w).code (i := e.1) (m := e.2) (by omega)).1
  have hle : ¬ tileCapacity tile < off + (elemSpan (fmtBits (fmtOf w).code) e.1 e.2).1 + (elemSpan (fmtBits (fmtOf w).code) e.1 e.2).2 := by
    omega
  simp [sramFault, hle, halign]

end

/-- VLDF (R168). -/
theorem acts_vldf (h : loomReady s tile eng n o .vldf f) {w off sx : Nat} (hw : ((getLoom s.dev tile eng).sreg f.f).toNat % 65536 = w)
    (hoff : (getLoom s.dev tile eng).address f = off) (hsx : ((getLoom s.dev tile eng).sreg f.x).toNat = sx)
    (hword : typedWordBad w = false) (halign : off % 16 = 0) (hclear : sramClear s.dev tile off (32 * fmtBits (fmtOf w).code))
    (hscales : (fmtOf w).mx = true → sramClear s.dev tile sx 8) :
    acts (.vldf tile eng f) s fun d => ∃ l,
      vectorSet (getLoom s.dev tile eng) l f.d (fun k => if isActive (getLoom s.dev tile eng) f k then
        typedLane w (readVal (fmtOf w)
          (unpackElem (fmtOf w).code (cellsRead s.dev.mem.cells (sramBase tile + off) (32 * fmtBits (fmtOf w).code)) k)
          (if (fmtOf w).mx then (byteAt s.dev (sramBase tile + sx + k / 32)).toNat else 127))
        else lane (getLoom s.dev tile eng) f.d k) ∧ loomGoesOn s.dev d tile eng n l := by
  refine acts_of_vectorLoad h ?_
  cases hext : laneExtent ((getLoom s.dev tile eng).active f) with
  | none =>
    refine .inl ⟨active_of_laneExtent_none hext, ?_⟩
    simp only [loomBody, loomVldf, hw, hword, hext, Bool.false_eq_true, if_false]
  | some e =>
    have hbody := loomVldf_eq (a := { tile := tile, eng := eng, op := n }) hw hword hext
    simp only [hoff, hsx, elemFault_of_clear hclear halign hext, scaleFault_of_clear hscales, Option.or_none, orFault] at hbody
    obtain ⟨c, hread⟩ := loomReads_scales (a := { tile := tile, eng := eng, op := n }) (m := (getLoom s.dev tile eng).active f) hscales
      fun scales d1 => loomReads { tile := tile, eng := eng, op := n } (sramBase tile + off) (32 * fmtBits (fmtOf w).code)
        ((laneRuns ((getLoom s.dev tile eng).active f)).map fun r => elemSpan (fmtBits (fmtOf w).code) r.1 r.2) d1 fun data d2 =>
          (modLoom d2 tile eng fun l => l.putV f ((List.range 256).map fun k => typedLane w (typedVal w data scales k)), .next)
    obtain ⟨c', hread'⟩ := loomReads_elems (a := { tile := tile, eng := eng, op := n }) (m := (getLoom s.dev tile eng).active f)
      (d := { s.dev with counters := c }) hclear fun data d2 =>
        (modLoom d2 tile eng fun l => l.putV f ((List.range 256).map fun k => typedLane w
          (typedVal w data (scaleBuffer s.dev tile sx w ((getLoom s.dev tile eng).active f)) k)), Flow.next)
    refine .inr ⟨c', _, hbody.trans (hread.trans hread'), fun k hk =>
      congrArg (typedLane w) (congrArg₂ (readVal (fmtOf w)) (unpackElem_elemBuffer _ tile off w hk) ?_)⟩
    split
    next hmx => exact fld_scaleBuffer s.dev tile sx hmx hk
    next => rfl

end

/-- Settles O17: VLDF reads the bytes of the runs of active lanes, on which alone their elements depend; VSTF and USTF write whole elements
in runs of active lanes; UCVT converts lane by lane. -/
theorem loomTypedAccessResults : Obligations.LoomTypedAccessResults := by
  unfold Obligations.LoomTypedAccessResults
  refine ⟨fun s tile eng n o f h => ?vldf, fun s tile eng n o f h hplain => ?vstf, fun s tile eng n o f t h => ?ucvt,
    fun s tile eng n o f t h hplain => ?ustf⟩
  case vldf =>
    intro l0 w size off hword halign hclear hscales data v
    obtain ⟨d, hexec, l, hset, hgoes⟩ := acts_vldf h rfl rfl rfl hword halign hclear hscales
    refine ⟨d, hexec, l, ?_, hgoes⟩
    simp only [ite_not_active]
    exact hset
  case vstf =>
    intro l0 w off size hword hmx hsize halign hclear out
    have hbody : loomVstf { tile := tile, eng := eng, op := n } f s.dev =
        storeTyped { tile := tile, eng := eng, op := n } f off w (l0.sreg f.x).toNat (intLane w) [] s.dev := by
      have hgood : typedWordBad (((getLoom s.dev tile eng).sreg f.f).toNat % 65536) = false := hword
      simp only [loomVstf, hgood, Bool.false_eq_true, if_false, l0, off, w]
    refine acts_of_storeTyped h hplain hbody hmx hsize halign hclear fun k _ hon => ?_
    rw [storedConv, if_pos hon]
    rfl
  case ucvt =>
    intro l0 w htensor hword draw out
    exact acts_ucvt h htensor hword fun _ => rfl
  case ustf =>
    intro l0 w off size htensor hword hsize halign hclear draw out
    have hmx : (fmtOf w).mx = false := by
      simp only [updateWordBad, Bool.or_eq_false_iff] at hword
      exact hword.1.2
    have hbody : loomUstf { tile := tile, eng := eng, op := n } f s.dev =
        storeTyped { tile := tile, eng := eng, op := n } f off w 0 false
          (updateDraws s.dev { tile := tile, eng := eng, op := n } f t (l0.sreg f.c)) s.dev := by
      have hgood : updateWordBad (((getLoom s.dev tile eng).sreg f.b).toNat % 65536) = false := hword
      have hnamed : tensorOf ((getLoom s.dev tile eng).sreg f.b) = some t := htensor
      simp only [loomUstf, hgood, hnamed, Bool.false_eq_true, if_false, l0, off, w]
    refine acts_of_storeTyped h hplain hbody hmx hsize halign hclear fun k hk hon => ?_
    rw [storedConv, if_pos hon, updateDraws_getD (a := { tile := tile, eng := eng, op := n }) (getOp_of_loomReady h) f t _ hk]
    rfl

end Sys2Proof.LoomTypedProofs
end

section
/-! SUPPORT. What an instruction of a Loom keeps, whatever it does (R153, R178, R186): the package's power, the ring hub's halt, the shape of
its rings, and, while the Granary copies no snapshot, the writes that wait for its pages; and the Loom runs what it ran or nothing. -/

namespace Sys2Proof.LoomKeepProofs

open Sys2Proof Sys2Proof.Machine Sys2Proof.Safety Sys2Proof.HostProofs Sys2Proof.OrgProofs Sys2Proof.LoomProofs

/-! ## What is kept -/

/-- What of a ring no instruction of a Loom changes: its target, and the sequence numbers and opcodes of its operations. -/
def ringShape (r : Ring) : Nat × List (W32 × Nat) := (r.target, r.ops.map fun o => (o.seq, o.opcode))

/-- The part of the device that no instruction of a Loom changes, as long as the Granary copies no snapshot. -/
structure LoomKeeps (tile eng : Nat) (d d' : Dev) : Prop where
  power : d'.power = d.power
  halt : d'.hub.hardHalted = d.hub.hardHalted
  granarySt : d'.granary.st = d.granary.st
  stalls : d'.granary.stalls = d.granary.stalls
  rings : ∀ k, (tget d'.hub.rings k).map ringShape = (tget d.hub.rings k).map ringShape
  run : (getLoom d' tile eng).run = (getLoom d tile eng).run ∨ (getLoom d' tile eng).run = none

section
variable {tile eng : Nat} {d d' d'' : Dev}

/-- Nothing is kept less by doing nothing. -/
theorem LoomKeeps.refl (tile eng : Nat) (d : Dev) : LoomKeeps tile eng d d := ⟨rfl, rfl, rfl, rfl, fun _ => rfl, .inl rfl⟩

/-- One change after another. -/
theorem LoomKeeps.trans (h : LoomKeeps tile eng d d') (h' : LoomKeeps tile eng d' d'') : LoomKeeps tile eng d d'' where
  power := h'.power.trans h.power
  halt := h'.halt.trans h.halt
  granarySt := h'.granarySt.trans h.granarySt
  stalls := h'.stalls.trans h.stalls
  rings k := (h'.rings k).trans (h.rings k)
  run := h'.run.elim (fun hsame => h.run.imp hsame.trans hsame.trans) .inr

/-- With no snapshot being copied none comes to be copied. -/
theorem LoomKeeps.idle (h : LoomKeeps tile eng d d') (hidle : d.granary.st ≠ .copying) : d'.granary.st ≠ .copying :=
  h.granarySt ▸ hidle

/-- The target of a ring is kept. -/
theorem LoomKeeps.ringTarget_eq (h : LoomKeeps tile eng d d') (k : Nat) : ringTarget d' k = ringTarget d k := by
  have htarget : ∀ x : Option Ring, x.bind (fun r => targetOf r.target) = (x.map ringShape).bind fun e => targetOf e.1 := by
    intro x
    cases x with
    | none => rfl
    | some r => rfl
  rw [ringTarget, ringTarget, htarget, htarget]
  exact congrArg (Option.bind · fun e => targetOf e.1) (h.rings k)

/-- The opcode of an operation is kept. -/
theorem LoomKeeps.opcode_eq (h : LoomKeeps tile eng d d') (n : OpName) : (getOp d' n).map Op.opcode = (getOp d n).map Op.opcode := by
  have hshape : ∀ x : Option Ring, (x.bind fun r => r.ops.find? fun o => o.seq == n.seq).map Op.opcode =
      ((x.map ringShape).bind fun e => e.2.find? fun y => y.1 == n.seq).map Prod.snd := by
    intro x
    cases x with
    | none => rfl
    | some r =>
      simp only [Option.bind_some, Option.map_some, ringShape, List.find?_map, Option.map_map]
      rfl
  rw [getOp_eq, getOp_eq, hshape, hshape]
  exact congrArg (fun x => (Option.bind x fun e => e.2.find? fun y => y.1 == n.seq).map Prod.snd) (h.rings n.ring)

/-- A change outside of all that. -/
theorem LoomKeeps.of_outside (hpower : d'.power = d.power) (hhalt : d'.hub.hardHalted = d.hub.hardHalted)
    (hst : d'.granary.st = d.granary.st) (hstalls : d'.granary.stalls = d.granary.stalls) (hrings : d'.hub.rings = d.hub.rings)
    (hlooms : d'.looms = d.looms) : LoomKeeps tile eng d d' :=
  ⟨hpower, hhalt, hst, hstalls, fun _ => by rw [hrings], .inl (by rw [getLoom_congr hlooms])⟩

/-- A change of the Loom that goes on running, or ends. -/
theorem keeps_modLoom {g : Loom → Loom} (h : (g (getLoom d tile eng)).run = (getLoom d tile eng).run ∨ (g (getLoom d tile eng)).run = none) :
    LoomKeeps tile eng d (modLoom d tile eng g) :=
  ⟨rfl, rfl, rfl, rfl, fun _ => rfl, by rwa [getLoom_modLoom]⟩

/-- A change of an operation that keeps its number and opcode. -/
theorem keeps_modOp (n : OpName) {g : Op → Op} (hseq : ∀ o, (g o).seq = o.seq) (hopcode : ∀ o, (g o).opcode = o.opcode) :
    LoomKeeps tile eng d (modOp d n g) := by
  refine ⟨rfl, rfl, rfl, rfl, fun k => ?_, .inl rfl⟩
  have hshape : ringShape ∘ (fun r : Ring => { r with ops := r.ops.map fun o => if o.seq == n.seq then g o else o }) = ringShape := by
    funext r
    simp only [Function.comp_apply, ringShape, List.map_map]
    refine congrArg (Prod.mk _) (List.map_congr_left fun o _ => ?_)
    simp only [Function.comp_apply]
    split
    · rw [hseq, hopcode]
    · rfl
  show (tget (tmod d.hub.rings n.ring _) k).map ringShape = _
  by_cases hk : k = n.ring
  · rw [hk, tget_tmod_same, Option.map_map, hshape]
  · rw [tget_tmod_other _ _ hk]

end

/-! ## Reports and counts -/

section
variable (tile eng : Nat) (d : Dev)

/-- A report. -/
theorem keeps_logEvent (ev : Nat) (src : Source) (detail : Nat) (r : Option Nat) : LoomKeeps tile eng d (logEvent d ev src detail r) := by
  obtain ⟨_, _, _, _, _, _, e⟩ := logEvent_frame d ev src detail r
  rw [e]
  exact .of_outside rfl rfl rfl rfl rfl rfl

/-- A count. -/
theorem keeps_countEvent (code amount die : Nat) (t r : Option Nat) : LoomKeeps tile eng d (countEvent d code amount die t r) :=
  .of_outside rfl rfl rfl rfl rfl rfl

/-- A change of memory. -/
theorem keeps_mem (m : Memory) : LoomKeeps tile eng d { d with mem := m } := .of_outside rfl rfl rfl rfl rfl rfl

/-- A report of a word of memory. -/
theorem keeps_noteWord (bad : Bool) (a : Nat) (r : Option Nat) : LoomKeeps tile eng d (noteWord d bad a r) := by
  unfold noteWord
  have hbump : LoomKeeps tile eng d (match regionOf d a with
    | .sram t => bumpSram d t bad
    | _ => d) := by
    split
    · exact .of_outside rfl rfl rfl rfl rfl rfl
    · exact .refl ..
  exact hbump.trans (keeps_logEvent ..)

/-- The fault of an access. -/
theorem keeps_noteFault (f : Byte × Option Nat) (who : Option OpName) : LoomKeeps tile eng d (noteFault d f who) := by
  unfold noteFault
  split
  · split
    · exact keeps_logEvent ..
    · exact .refl ..
  · exact keeps_noteWord ..

/-- The counts of an access. -/
theorem keeps_countAccess (write : Bool) (a n : Nat) (who : Option OpName) : LoomKeeps tile eng d (countAccess d write a n who) := by
  obtain ⟨_, e⟩ := countAccess_frame d write a n who
  rw [e]
  exact .of_outside rfl rfl rfl rfl rfl rfl

end

/-- One step after another of a list. -/
theorem keeps_foldl {tile eng : Nat} {α : Type} {g : Dev → α → Dev} (h : ∀ d x, LoomKeeps tile eng d (g d x)) (l : List α) (d : Dev) :
    LoomKeeps tile eng d (l.foldl g d) := by
  induction l generalizing d with
  | nil => exact .refl ..
  | cons x l ih => exact (h d x).trans (ih _)

/-- One step after another of a list, with something besides. -/
theorem keeps_foldl_fst {tile eng : Nat} {α β : Type} {g : Dev × β → α → Dev × β} (h : ∀ e x, LoomKeeps tile eng e.1 (g e x).1)
    (l : List α) (e : Dev × β) : LoomKeeps tile eng e.1 (l.foldl g e).1 := by
  induction l generalizing e with
  | nil => exact .refl ..
  | cons x l ih => exact (h e x).trans (ih _)

/-! ## Accesses of memory (R337, R343) -/

section
variable (tile eng : Nat) (d : Dev)

/-- The page entries that an access of host memory looks up. -/
theorem keeps_noteEntries (a n : Nat) (who : Option OpName) : LoomKeeps tile eng d (noteEntries d a n who) := by
  unfold noteEntries
  split
  · refine keeps_foldl (fun d p => ?_) _ _
    split
    · exact .refl ..
    · exact keeps_noteWord ..
  · exact .refl ..

/-- A message that is sent. -/
theorem keeps_injectMsg (m : FabMsg) : LoomKeeps tile eng d (injectMsg d m).1 := by
  unfold injectMsg
  dsimp only
  split
  · exact .of_outside rfl rfl rfl rfl rfl rfl
  next q dl _ =>
    obtain ⟨_, _, _, _, e⟩ := portSend_frame d q 6
      { m with src := d.fabric.coord, inject := BitVec.ofNat 32 (deviceTime d), hops := 1, dl := dl }
    dsimp only
    rw [e]
    exact .of_outside rfl rfl rfl rfl rfl rfl
  · exact keeps_logEvent ..

/-- A request that is sent. -/
theorem keeps_sendRequest (q : Request) (body : Bytes) : LoomKeeps tile eng d (sendRequest d q body).1 := by
  unfold sendRequest
  dsimp only
  split
  · exact (keeps_injectMsg ..).trans (.of_outside rfl rfl rfl rfl rfl rfl)
  · exact keeps_injectMsg ..

/-- The requests of an access of another device's memory. -/
theorem keeps_peerRequests (write : Bool) (a : Nat) (data : Bytes) (n : Nat) (who : Option OpName) :
    LoomKeeps tile eng d (peerRequests d write a data n who) := by
  unfold peerRequests
  split
  · split
    · exact .refl ..
    · refine keeps_foldl (fun d p => ?_) _ _
      dsimp only
      split
      · exact .refl ..
      · exact keeps_sendRequest ..
  · exact .refl ..

/-- What an access does before it meets stored errors. -/
theorem keeps_access (write : Bool) (a : Nat) (data : Bytes) (n : Nat) (who : Option OpName) :
    LoomKeeps tile eng d (peerRequests (noteEntries (countAccess d write a n who) a n who) write a data n who) :=
  ((keeps_countAccess ..).trans (keeps_noteEntries ..)).trans (keeps_peerRequests ..)

/-- A read. -/
theorem keeps_readMem (who : Option OpName) (a n : Nat) : LoomKeeps tile eng d (readMem d who a n).1 := by
  unfold readMem
  split
  · exact keeps_noteFault ..
  · dsimp only
    split
    case h_1 | h_2 =>
      refine (keeps_access ..).trans (keeps_foldl_fst (fun e w => ?_) _ (_, _))
      split
      · exact .refl ..
      · split
        · exact .refl ..
        · exact keeps_noteWord ..
        · exact keeps_noteWord ..
        · exact keeps_noteWord ..
    case h_3 => exact keeps_access ..

end

/-- Several reads. -/
theorem keeps_readAll (tile eng : Nat) (who : Option OpName) (l : List (Nat × Nat)) (d : Dev) :
    LoomKeeps tile eng d (readAll d who l).1 := by
  induction l generalizing d with
  | nil => exact .refl ..
  | cons r l ih =>
    unfold readAll
    dsimp only
    split
    · exact keeps_readMem ..
    · exact (keeps_readMem ..).trans (ih _)

/-- The stored errors of the words that a write covers in part, one after another. -/
def mergeErrors (d : Dev) (who : Option OpName) (a len : Nat) (e : Dev × Option Byte) : Dev × Option Byte :=
  (mergedFlips d a len).foldl (fun (acc : Dev × Option Byte) w =>
    match acc.2 with
    | some _ => acc
    | none => match wordCheck d w with
      | .clean => acc
      | .corrected => (noteWord acc.1 false (16 * w) (ringOf who), none)
      | .uncorrectable => (noteWord acc.1 true (16 * w) (ringOf who), some stUncorrectable)
      | .miscorrected x =>
        (noteWord { acc.1 with mem.cells := cellsWrite acc.1.mem.cells (16 * w) (leBytes 16 x.toNat) } false (16 * w) (ringOf who), none)) e

/-- The bytes are stored, where no word of them is uncorrectable, and the output is noted in its operation. -/
def finishWrite (who : Option OpName) (a : Nat) (data : Bytes) (e : Dev × Option Byte) : Dev × Option Byte :=
  match e.2 with
  | some st => (e.1, some st)
  | none => match who with
    | none => (storeBytes e.1 a data, none)
    | some op => (modOp (storeBytes e.1 a data) op fun o => { o with outs := o.outs ++ [(a, data.length)] }, none)

/-- A write without fault of access, in memory of the device or outside. -/
theorem writeMem_eq {d : Dev} {who : Option OpName} {a : Nat} {data : Bytes} (h : accessFault d a data.length true = none) :
    ∃ b : Bool, writeMem d who a data = finishWrite who a data
      (if b then mergeErrors d who a data.length
        (peerRequests (noteEntries (countAccess d true a data.length who) a data.length who) true a data data.length who, none)
      else (peerRequests (noteEntries (countAccess d true a data.length who) a data.length who) true a data data.length who, none)) := by
  cases hr : regionOf d a with
  | gddr die => exact ⟨true, by simp only [writeMem, h, hr]; rfl⟩
  | sram t => exact ⟨true, by simp only [writeMem, h, hr]; rfl⟩
  | host => exact ⟨false, by simp only [writeMem, h, hr]; rfl⟩
  | peer w => exact ⟨false, by simp only [writeMem, h, hr]; rfl⟩
  | unmapped => exact ⟨false, by simp only [writeMem, h, hr]; rfl⟩

/-- Stored errors are reported and corrected. -/
theorem keeps_mergeErrors (tile eng : Nat) (d : Dev) (who : Option OpName) (a len : Nat) (e : Dev × Option Byte) :
    LoomKeeps tile eng e.1 (mergeErrors d who a len e).1 := by
  refine keeps_foldl_fst (fun e w => ?_) _ _
  split
  · exact .refl ..
  · split
    · exact .refl ..
    · exact keeps_noteWord ..
    · exact keeps_noteWord ..
    · exact LoomKeeps.trans (keeps_mem ..) (keeps_noteWord tile eng { e.1 with mem.cells := cellsWrite e.1.mem.cells (16 * w) _ } ..)

section
variable {tile eng : Nat} {d : Dev} (hidle : d.granary.st ≠ .copying)
include hidle

/-- Bytes that are stored. -/
theorem keeps_storeBytes (a : Nat) (data : Bytes) : LoomKeeps tile eng d (storeBytes d a data) := by
  obtain ⟨_, _, e⟩ := storeBytes_frame_of_idle hidle a data
  rw [e]
  exact .of_outside rfl rfl rfl rfl rfl rfl

/-- Bytes that are stored, with the note in their operation. -/
theorem keeps_finishWrite (who : Option OpName) (a : Nat) (data : Bytes) (st : Option Byte) :
    LoomKeeps tile eng d (finishWrite who a data (d, st)).1 := by
  unfold finishWrite
  split
  · exact .refl ..
  · split
    · exact keeps_storeBytes hidle ..
    · exact (keeps_storeBytes hidle ..).trans (keeps_modOp _ (fun _ => rfl) fun _ => rfl)

/-- A write. -/
theorem keeps_writeMem (who : Option OpName) (a : Nat) (data : Bytes) : LoomKeeps tile eng d (writeMem d who a data).1 := by
  cases hfault : accessFault d a data.length true with
  | some f =>
    simp only [writeMem, hfault]
    exact keeps_noteFault ..
  | none =>
    obtain ⟨b, hwrite⟩ := writeMem_eq (who := who) hfault
    have haccess := keeps_access tile eng d true a data data.length who
    rw [hwrite]
    cases b with
    | false => exact haccess.trans (keeps_finishWrite (haccess.idle hidle) ..)
    | true =>
      have hmerged := haccess.trans (keeps_mergeErrors tile eng d who a data.length (_, none))
      exact hmerged.trans (keeps_finishWrite (hmerged.idle hidle) ..)

/-- Several writes. -/
theorem keeps_writeAll (who : Option OpName) (l : List (Nat × Bytes)) : LoomKeeps tile eng d (writeAll d who l).1 := by
  induction l generalizing d with
  | nil => exact .refl ..
  | cons w l ih =>
    have hfirst := keeps_writeMem (tile := tile) (eng := eng) hidle who w.1 w.2
    unfold writeAll
    dsimp only
    split
    · exact hfirst
    · exact hfirst.trans (ih (hfirst.idle hidle))

/-- The sending of an entry. -/
theorem keeps_sendEntry (op : OpName) (s : Send) (transit : Transit) : LoomKeeps tile eng d (sendEntry d op s transit) := by
  cases hchute : getChute d s.consumer s.queue with
  | none =>
    rw [sendEntry, hchute]
    exact .refl ..
  | some c =>
    obtain ⟨_, _, _, _, _, _, _, _, e⟩ := sendEntry_frame hchute hidle op transit
    rw [e]
    refine LoomKeeps.trans (d' := queueEntry d op s transit c) ?_ (.of_outside rfl rfl rfl rfl rfl rfl)
    exact LoomKeeps.trans (d' := modChute d s.consumer s.queue _) (.of_outside rfl rfl rfl rfl rfl rfl)
      (keeps_modOp _ (fun _ => rfl) fun _ => rfl)

end

/-! ## How an instruction is fetched, and what follows it (R178, R185) -/

section
variable (tile eng : Nat) (d : Dev)

/-- What the end of an operation does to its step's flag. -/
theorem keeps_endClears (n : OpName) (o : Op) (st : Byte) : LoomKeeps tile eng d (endClears d n o st) := by
  obtain ⟨_, _, _, _, _, _, _, e⟩ := endClears_frame d n o st
  rw [e]
  exact .of_outside rfl rfl rfl rfl rfl rfl

/-- The note of a failure. -/
theorem keeps_noteFailure (n : OpName) (st : Byte) : LoomKeeps tile eng d (noteFailure d n st) := by
  unfold noteFailure
  split
  · split
    · refine LoomKeeps.trans ?_ (keeps_endClears ..)
      exact keeps_modOp _ (fun _ => rfl) fun _ => rfl
    · exact .refl ..
  · exact .refl ..

/-- The end of an operation. -/
theorem keeps_completeOp (n : OpName) (st : Byte) (detail : Nat) : LoomKeeps tile eng d (completeOp d n st detail) := by
  unfold completeOp
  dsimp only
  split
  · exact keeps_modOp _ (fun _ => rfl) fun _ => rfl
  · refine LoomKeeps.trans ?_ (keeps_noteFailure ..)
    exact keeps_modOp _ (fun _ => rfl) fun _ => rfl

/-- The images of a Loom that are left alone, or dropped. -/
theorem keeps_dropSlot (slot : Nat) : LoomKeeps tile eng d (dropSlot d tile eng slot) := by
  unfold dropSlot sweepImages
  refine LoomKeeps.trans ?_ (keeps_modLoom (.inl rfl))
  exact keeps_modLoom (.inl rfl)

/-- A record of an error in instruction memory. -/
theorem keeps_noteImem (bad : Bool) (slot i : Nat) (r : Option Nat) : LoomKeeps tile eng d (noteImem d bad tile eng slot i r) :=
  LoomKeeps.trans (d' := bumpSram d tile bad) (.of_outside rfl rfl rfl rfl rfl rfl) (keeps_logEvent ..)

/-- A word of instruction memory that is stored. -/
theorem keeps_storeImem (img : LoomImage) (i : Nat) (x : BitVec 128) : LoomKeeps tile eng d (storeImem d tile eng img i x) := by
  unfold storeImem
  exact keeps_modLoom (.inl rfl)

/-- The fetch of an instruction. -/
theorem keeps_fetchLoom (img : LoomImage) (i ring : Nat) : LoomKeeps tile eng d (fetchLoom d tile eng img i ring).1 := by
  unfold fetchLoom
  dsimp only
  split
  · exact .refl ..
  · split
    · exact .refl ..
    · exact LoomKeeps.trans (keeps_mem ..) (keeps_noteImem ..)
    · refine LoomKeeps.trans ?_ (keeps_storeImem ..)
      exact LoomKeeps.trans (keeps_mem ..) (keeps_noteImem ..)
    · refine LoomKeeps.trans ?_ (keeps_dropSlot ..)
      exact LoomKeeps.trans (keeps_mem ..) (keeps_noteImem ..)

end

section
variable (a : LoomAt) (d : Dev)

/-- The fetch of the instruction at the PC. -/
theorem keeps_fetched (img : LoomImage) : LoomKeeps a.tile a.eng d (fetched d a img).1 := by
  unfold fetched
  dsimp only
  split
  · exact .refl ..
  · exact keeps_fetchLoom ..

/-- The end of the running operation. -/
theorem keeps_endLoom (st : Byte) (detail : Nat) : LoomKeeps a.tile a.eng d (endLoom d a st detail) :=
  (keeps_modLoom (.inr rfl)).trans (keeps_completeOp ..)

/-- The begin of a wait. -/
theorem keeps_beginWait (inn out : Option Nat) : LoomKeeps a.tile a.eng d (beginWait d a inn out) := by
  refine keeps_modLoom (.inl ?_)
  split
  · rfl
  · rfl

/-- The end of a wait. -/
theorem keeps_endWait : LoomKeeps a.tile a.eng d (endWait d a) := by
  unfold endWait
  dsimp only
  split
  · exact .refl ..
  · refine LoomKeeps.trans ?_ (keeps_countEvent ..)
    exact keeps_modLoom (.inl rfl)

/-- The count of an instruction. -/
theorem keeps_countIssue : LoomKeeps a.tile a.eng d (countIssue d a) :=
  LoomKeeps.trans (keeps_countEvent ..) (keeps_endWait a (countEvent d ..))

/-- What follows an instruction. -/
theorem keeps_afterInstr (flow : Flow) : LoomKeeps a.tile a.eng d (afterInstr d a flow) := by
  unfold afterInstr
  dsimp only
  split
  · exact keeps_beginWait ..
  · split
    · exact keeps_modLoom (.inl rfl)
    · exact keeps_endLoom ..
  · exact keeps_modLoom (.inl rfl)
  · exact keeps_endLoom ..
  · exact keeps_endLoom ..
  · exact keeps_endLoom ..

end

/-! ## The meanings of the instructions -/

/-- A meaning that keeps all that, while the Granary copies no snapshot. -/
def BodyKeeps (body : LoomBody) : Prop :=
  ∀ a f d, d.granary.st ≠ .copying → LoomKeeps a.tile a.eng d (body a f d).1

/-- A write of a scalar register keeps what the Loom runs. -/
theorem setS_run (l : Loom) (i : BitVec 6) (x : W64) : (l.setS i x).run = l.run := by
  unfold Loom.setS
  split
  · rfl
  · rfl

/-- So does a write of a mask register. -/
theorem setM_run (l : Loom) (i : Nat) (x : BitVec 256) : (l.setM i x).run = l.run := by
  unfold Loom.setM
  split
  · rfl
  · rfl

/-- And a write of the saturated lanes. -/
theorem putSat_run (f : LoomFields) (out : List Conv) (m : BitVec 256) (l : Loom) : (putSat f out m l).run = l.run := setM_run ..

/-- A change of registers, whatever flow comes with it. -/
theorem keeps_regs {tile eng : Nat} {d : Dev} {g : Loom → Loom} (h : ∀ l, (g l).run = l.run) (flow : Flow) :
    LoomKeeps tile eng d (modLoom d tile eng g, flow).1 :=
  keeps_modLoom (.inl (h _))

/-- Instructions that change registers alone. -/
theorem keeps_regsOnly {g : LoomFields → Loom → Loom} (h : ∀ f l, (g f l).run = l.run) : BodyKeeps (regsOnly g) :=
  fun _ f _ _ => keeps_regs (h f) _

/-- Branches. -/
theorem keeps_branchIf (c : LoomFields → Loom → Bool) : BodyKeeps (branchIf c) := fun _ _ _ _ => .refl ..

section
variable {a : LoomAt} {d : Dev} {k : Dev × Flow}

/-- A fault that ends the instruction before it does anything. -/
theorem keeps_orFault (fault : Option Nat) (h : LoomKeeps a.tile a.eng d k.1) : LoomKeeps a.tile a.eng d (orFault d fault k).1 := by
  unfold orFault
  split
  · exact .refl ..
  · exact h

variable {k : Bytes → Dev → Dev × Flow}

/-- A read, and what is done with its bytes. -/
theorem keeps_loomRead (hidle : d.granary.st ≠ .copying) (x n : Nat)
    (h : ∀ b d1, d1.granary.st ≠ .copying → LoomKeeps a.tile a.eng d1 (k b d1).1) : LoomKeeps a.tile a.eng d (loomRead a x n d k).1 := by
  have hread := keeps_readMem a.tile a.eng d (some a.op) x n
  unfold loomRead
  split
  next d1 b heq =>
    rw [heq] at hread
    exact hread.trans (h _ _ (hread.idle hidle))
  next d1 st heq =>
    rw [heq] at hread
    exact hread

/-- Reads of pieces. -/
theorem keeps_loomReads (hidle : d.granary.st ≠ .copying) (base n : Nat) (pieces : List (Nat × Nat))
    (h : ∀ b d1, d1.granary.st ≠ .copying → LoomKeeps a.tile a.eng d1 (k b d1).1) :
    LoomKeeps a.tile a.eng d (loomReads a base n pieces d k).1 := by
  have hread := keeps_readAll a.tile a.eng (some a.op) (pieces.map fun p => (base + p.1, p.2)) d
  unfold loomReads
  split
  next d1 b heq =>
    rw [heq] at hread
    exact hread.trans (h _ _ (hread.idle hidle))
  next d1 st heq =>
    rw [heq] at hread
    exact hread

/-- Writes. -/
theorem keeps_loomWrite (hidle : d.granary.st ≠ .copying) (l : List (Nat × Bytes)) : LoomKeeps a.tile a.eng d (loomWrite a l d).1 := by
  have hwrite := keeps_writeAll (tile := a.tile) (eng := a.eng) hidle (some a.op) l
  unfold loomWrite
  split
  next d1 heq =>
    rw [heq] at hwrite
    exact hwrite
  next d1 st heq =>
    rw [heq] at hwrite
    exact hwrite

end

/-! ## Loads, stores and what else reaches beyond the registers (Tables 6.15 and 6.16) -/

section
variable {a : LoomAt} {d : Dev} (hidle : d.granary.st ≠ .copying)
include hidle

/-- Raw vector loads. -/
theorem keeps_loadVector (f : LoomFields) (fault : Nat → Nat → Option Nat) (base : Nat) :
    LoomKeeps a.tile a.eng d (loadVector a f fault base d).1 := by
  unfold loadVector
  dsimp only
  split
  · exact .refl ..
  · exact keeps_orFault _ (keeps_loomReads hidle _ _ _ fun _ _ _ => keeps_regs (fun _ => by rfl) _)

/-- Raw vector stores. -/
theorem keeps_storeVector (f : LoomFields) (fault : Nat → Nat → Option Nat) (base : Nat) :
    LoomKeeps a.tile a.eng d (storeVector a f fault base d).1 := by
  unfold storeVector
  dsimp only
  split
  · exact .refl ..
  · exact keeps_orFault _ (keeps_loomWrite hidle _)

/-- Loads of single lanes. -/
theorem keeps_loadLanes {k : List (Nat × Bytes) → Dev → Dev × Flow} (l : List (Nat × Nat)) (got : List (Nat × Bytes))
    (h : ∀ b d1, d1.granary.st ≠ .copying → LoomKeeps a.tile a.eng d1 (k b d1).1) :
    LoomKeeps a.tile a.eng d (loadLanes a l got d k).1 := by
  induction l generalizing got d with
  | nil => exact h _ _ hidle
  | cons e l ih => exact keeps_orFault _ (keeps_loomRead hidle _ _ fun _ _ hidle' => ih hidle' _)

/-- Stores of single lanes. -/
theorem keeps_storeLanes (l : List (Nat × W32)) : LoomKeeps a.tile a.eng d (storeLanes a l d).1 := by
  induction l generalizing d with
  | nil => exact .refl ..
  | cons e l ih =>
    have hwrite := keeps_loomWrite (a := a) hidle [(sramBase a.tile + e.1, leBytes 4 e.2.toNat)]
    refine keeps_orFault _ ?_
    split
    next d1 heq =>
      rw [heq] at hwrite
      exact hwrite.trans (ih (hwrite.idle hidle))
    next => exact hwrite

/-- Typed stores. -/
theorem keeps_storeTyped (f : LoomFields) (off w scaleAt : Nat) (asInt : Bool) (draws : List Nat) :
    LoomKeeps a.tile a.eng d (storeTyped a f off w scaleAt asInt draws d).1 := by
  have hsat (r : Dev × Flow) (out : List Conv) (m : BitVec 256) (hr : LoomKeeps a.tile a.eng d r.1) :
      LoomKeeps a.tile a.eng d (match r.2 with
        | .next => (modLoom r.1 a.tile a.eng (putSat f out m), Flow.next)
        | _ => r).1 := by
    split
    · exact hr.trans (keeps_modLoom (.inl (setM_run ..)))
    · exact hr
  unfold storeTyped
  dsimp only
  split
  · split
    · exact hsat _ _ _ (keeps_loomWrite hidle _)
    · split
      · exact .refl ..
      · exact .refl ..
  · split
    · exact hsat (d, .next) _ _ (.refl ..)
    · exact keeps_orFault _ (hsat _ _ _ (keeps_loomWrite hidle _))

end

/-- An entry that is taken. -/
theorem keeps_take (tile eng : Nat) (d : Dev) (a : LoomAt) (q t queue slot : Nat) (n : OpName) :
    LoomKeeps tile eng d (takeEntry (grantTake d a q) t queue slot n) := .of_outside rfl rfl rfl rfl rfl rfl

/-- What a taken entry whose word was uncorrectable does to its step's flag. -/
theorem keeps_noteTransitTaken (tile eng : Nat) (d : Dev) (n : OpName) : LoomKeeps tile eng d (noteTransitTaken d n) := by
  unfold noteTransitTaken
  split
  · exact .refl ..
  next o _ =>
    obtain ⟨_, _, _, _, _, _, _, e⟩ := clearFlag_frame d (opStep d o) 1 (some n)
    rw [e]
    exact .of_outside rfl rfl rfl rfl rfl rfl

/-- CHTAKE. -/
theorem keeps_chtake : BodyKeeps loomChtake := by
  intro a f d _
  unfold loomChtake
  dsimp only
  split
  · exact .refl ..
  next o _ =>
    split
    next c _ _ =>
      split
      · exact .refl ..
      · split
        · exact .refl ..
        next x _ =>
          split
          · exact .refl ..
          · split
            · refine LoomKeeps.trans ?_ (keeps_noteTransitTaken ..)
              exact LoomKeeps.trans (keeps_take ..) (keeps_modLoom (.inl (by rfl)))
            · refine LoomKeeps.trans ?_ (keeps_regs (fun _ => setS_run ..) _)
              exact LoomKeeps.trans (keeps_take ..) (keeps_modLoom (.inl (by rfl)))
    · exact .refl ..

/-- CHSEND. -/
theorem keeps_chsend (transit : Transit) : BodyKeeps (chsendBody transit) := by
  intro a f d hidle
  unfold chsendBody
  dsimp only
  split
  · exact .refl ..
  · split
    · split
      · exact .refl ..
      · split
        · exact .refl ..
        · split
          · exact .refl ..
          · split
            · exact .refl ..
            · refine keeps_orFault _ (keeps_loomRead hidle _ _ fun _ _ hidle' => ?_)
              exact (keeps_sendEntry hidle' ..).trans (keeps_regs (fun _ => by rfl) _)
    · exact .refl ..

/-- A contribution to the census. -/
theorem keeps_census {tile eng : Nat} {d : Dev} (n : OpName) (x : Option Nat) (c : Nat → CensusAdd) :
    LoomKeeps tile eng d (match x with
      | none => (d, Flow.fault 0x0A 0)
      | some t => (addCensus d n (c t), .next)).1 := by
  split
  · exact .refl ..
  · exact keeps_modOp _ (fun _ => rfl) fun _ => rfl

/-- VCVT.X. -/
theorem keeps_vcvtX : BodyKeeps loomVcvtX := by
  intro a f d _
  unfold loomVcvtX
  dsimp only
  split
  · exact .refl ..
  · exact keeps_regs (fun _ => by exact putSat_run ..) _

/-- VDCD.X. -/
theorem keeps_vdcdX : BodyKeeps loomVdcdX := by
  intro a f d _
  unfold loomVdcdX
  dsimp only
  split
  · exact .refl ..
  · exact keeps_regs (fun _ => by rfl) _

/-- VLDF. -/
theorem keeps_vldf : BodyKeeps loomVldf := by
  intro a f d hidle
  unfold loomVldf
  dsimp only
  split
  · exact .refl ..
  · split
    · exact .refl ..
    · exact keeps_orFault _ (keeps_loomReads hidle _ _ _ fun _ _ hidle' =>
        keeps_loomReads hidle' _ _ _ fun _ _ _ => keeps_regs (fun _ => by rfl) _)

/-- VSTF. -/
theorem keeps_vstf : BodyKeeps loomVstf := by
  intro a f d hidle
  unfold loomVstf
  dsimp only
  split
  · exact .refl ..
  · exact keeps_storeTyped hidle ..

/-- MLD. -/
theorem keeps_mld : BodyKeeps loomMld := by
  intro a f d hidle
  unfold loomMld
  dsimp only
  split
  · exact .refl ..
  · exact keeps_orFault _ (keeps_loomReads hidle _ _ _ fun _ _ _ => keeps_regs (fun _ => setM_run ..) _)

/-- MST. -/
theorem keeps_mst : BodyKeeps loomMst := by
  intro a f d hidle
  unfold loomMst
  dsimp only
  split
  · split
    · exact .refl ..
    · exact .refl ..
  · exact keeps_loomWrite hidle _

/-- ACCRD. -/
theorem keeps_accrd : BodyKeeps loomAccrd := by
  intro a f d _
  unfold loomAccrd
  dsimp only
  split
  · split
    · exact .refl ..
    · exact keeps_regs (fun _ => by rfl) _
  · exact .refl ..

/-- UCVT. -/
theorem keeps_ucvt : BodyKeeps loomUcvt := by
  intro a f d _
  unfold loomUcvt
  dsimp only
  split
  · exact .refl ..
  · split
    · exact .refl ..
    · exact keeps_regs (fun _ => by exact putSat_run ..) _

/-- USTF. -/
theorem keeps_ustf : BodyKeeps loomUstf := by
  intro a f d hidle
  unfold loomUstf
  dsimp only
  split
  · exact .refl ..
  · split
    · exact .refl ..
    · exact keeps_storeTyped hidle ..

/-- Every instruction keeps all that. -/
theorem keeps_loomBody (op : LoomOp) : BodyKeeps (loomBody op) := by
  cases op
  case loomNop | loomEnd | loomFault | ret => exact fun _ _ _ _ => .refl ..
  case j | beq | bne | blt | bge | bltu | bmz | bmnz => exact keeps_branchIf _
  case loop | call | sctx => exact fun _ _ _ _ => keeps_regs (fun _ => setS_run ..) _
  case sadd | ssub | smul | sand | sor | sxor | sshl | sshr | ssra | smin | smax | saddi | sshli | sshri | sli | slui | sfadd | sfmul | sffma |
      mpopc | mfirst | vcompress | vext | rsumO | rsumOa | rmax | rmin | risum =>
    exact keeps_regsOnly fun _ _ => setS_run ..
  case vadd | vsub | vmul | vfma | vfms | vfnma | vmin | vmax | vabs | vneg | vrcp | vrsqrt | vsqrt | vdiv | vexp2 | vlog2 | vexp | vtanh |
      vrint | vldexp | viadd | visub | vimul | vimin | vimax | vand | vor | vxor | vshl | vshr | vmov | vsel | viota | vli | vexpand | vperm |
      vrot | vbcast | vins | viscan | vcvtF2i | vcvtI2f | vpack | vunpl | vunph =>
    exact keeps_regsOnly fun _ _ => by rfl
  case vcmpeq | vcmpne | vcmplt | vcmple | vcmpun | visfin | mand | mor | mxor | mnot | mprefix =>
    exact keeps_regsOnly fun _ _ => setM_run ..
  case vcvtX => exact keeps_vcvtX
  case vdcdX => exact keeps_vdcdX
  case vld => exact fun _ f _ hidle => keeps_loadVector hidle f _ _
  case vldg => exact fun _ f _ hidle => keeps_loadVector hidle f _ _
  case vst => exact fun _ f _ hidle => keeps_storeVector hidle f _ _
  case vstg => exact fun _ f _ hidle => keeps_storeVector hidle f _ _
  case vldf => exact keeps_vldf
  case vstf => exact keeps_vstf
  case vldx => exact fun _ _ _ hidle => keeps_loadLanes hidle _ _ fun _ _ _ => keeps_regs (fun _ => by rfl) _
  case vstx => exact fun _ _ _ hidle => keeps_storeLanes hidle _
  case sld => exact fun _ _ _ hidle => keeps_orFault _ (keeps_loomRead hidle _ _ fun _ _ _ => keeps_regs (fun _ => setS_run ..) _)
  case sst => exact fun _ _ _ hidle => keeps_orFault _ (keeps_loomWrite hidle _)
  case mld => exact keeps_mld
  case mst => exact keeps_mst
  case accrd => exact keeps_accrd
  case chtake => exact keeps_chtake
  case chsend => exact keeps_chsend _
  case cnsVal => exact fun _ _ _ _ => keeps_census _ _ _
  case cnsSat => exact fun _ _ _ _ => keeps_census _ _ _
  case cnsNf => exact fun _ _ _ _ => keeps_census _ _ _
  case ucvt => exact keeps_ucvt
  case ustf => exact keeps_ustf

/-! ## The run of a program (R153, R178) -/

/-- An instruction that issues. -/
theorem keeps_issueAt {a : LoomAt} {body : LoomBody} (h : BodyKeeps body) (f : LoomFields) {d : Dev} (hidle : d.granary.st ≠ .copying) :
    LoomKeeps a.tile a.eng d (issueAt a body f d) := by
  unfold issueAt
  dsimp only
  split
  · exact keeps_beginWait ..
  · exact ((h a f d hidle).trans (keeps_countIssue a _)).trans (keeps_afterInstr a _ _)

/-- The instruction at the PC stands on the Loom that runs it. -/
theorem standing?_eq_some {d : Dev} {tile eng : Nat} {a : LoomAt} {img : LoomImage} {x : Option LoomInstr}
    (h : standing? d tile eng = some (a, img, x)) : a.tile = tile ∧ a.eng = eng := by
  unfold standing? at h
  split at h
  · cases h
  · obtain ⟨_, -, heq⟩ := Option.map_eq_some_iff.mp h
    cases heq
    exact ⟨rfl, rfl⟩

/-- One instruction of a program. -/
theorem keeps_stepLoom (tile eng : Nat) {d : Dev} (hidle : d.granary.st ≠ .copying) : LoomKeeps tile eng d (stepLoom d tile eng) := by
  unfold stepLoom
  split
  · exact .refl ..
  next a img _ hstand =>
    obtain ⟨rfl, rfl⟩ := standing?_eq_some hstand
    have hfetch := keeps_fetched a d img
    split
    next d1 heq =>
      rw [heq] at hfetch
      exact hfetch.trans (keeps_endLoom a d1 _ _)
    next d1 i heq =>
      rw [heq] at hfetch
      exact hfetch.trans (keeps_issueAt (keeps_loomBody i.op) i.f (hfetch.idle hidle))

/-- Several of them. -/
theorem keeps_runLoom (tile eng k : Nat) {d : Dev} (hidle : d.granary.st ≠ .copying) : LoomKeeps tile eng d (runLoom tile eng k d) := by
  induction k generalizing d with
  | zero => exact .refl ..
  | succ k ih =>
    have hstep := keeps_stepLoom tile eng hidle
    unfold runLoom
    dsimp only
    split
    · exact hstep
    · exact hstep.trans (ih (hstep.idle hidle))

end Sys2Proof.LoomKeepProofs
end

section
/-! SUPPORT. LOOM_RUN (R153): the start of an operation with its registers, and the run of its program as one command after another. -/

namespace Sys2Proof.LoomRunProofs

open Sys2Proof Sys2Proof.Machine Sys2Proof.Safety Sys2Proof.HostProofs Sys2Proof.OrgProofs Sys2Proof.LoomProofs
open Sys2Proof.LoomResultProofs Sys2Proof.LoomKeepProofs

/-! ## The registers of a start (R153) -/

section
variable {d : Dev} {tile eng : Nat} {n : OpName} {o : Op} {img : LoomImage}

/-- The arguments of a descriptor. -/
def arguments (o : Op) : List W64 := (List.range 8).map fun k => BitVec.ofNat 64 (o.f (64 + 8 * k) 8)

/-- A Loom as an operation starts on it. -/
def startedLoom (d : Dev) (tile eng : Nat) (n : OpName) (o : Op) (img : LoomImage) (l : Loom) : Loom := { l with
  v := List.replicate 64 (List.replicate 256 0)
  m := List.replicate 16 0
  s := 0 :: arguments o ++ List.replicate 23 0
  pc := (img.entries.getD (o.f 33 1 % 8) 0).toNat
  run := some n
  length := img.instrs.length
  startAt := engineCycles d (.loom tile eng)
  waited := 0
  waitFrom := none
  waitOut := none
  waitIn := none
  taken := List.replicate 4 0
  sent := List.replicate 4 0 }

/-- A start changes its Loom alone. -/
theorem startLoom_eq (himg : (getLoom d tile eng).images.find? (fun i => i.id == o.image) = some img) :
    startLoom d tile eng n o = modLoom d tile eng (startedLoom d tile eng n o img) := by
  simp only [startLoom, himg]
  rfl

variable (l : Loom)

/-- Its register files are whole. -/
theorem filesWhole_started : filesWhole (startedLoom d tile eng n o img l) := by
  refine ⟨rfl, List.length_replicate, List.length_replicate, fun x hx => ?_⟩
  rw [List.eq_of_mem_replicate hx, List.length_replicate]

/-- A list of one value holds it, or what is read past its end. -/
theorem getD_replicate_self {α : Type} (m i : Nat) (x : α) : (List.replicate m x).getD i x = x := by
  rw [List.getD_eq_getElem?_getD, List.getElem?_replicate]
  split
  · rfl
  · rfl

/-- Its vector registers are zero. -/
theorem vreg_started (i : BitVec 6) (k : Nat) : ((startedLoom d tile eng n o img l).vreg i).getD k 0 = 0 := by
  have hreg : (startedLoom d tile eng n o img l).vreg i = List.replicate 256 0 := by
    show (List.replicate 64 (List.replicate 256 (0 : W32))).getD i.toNat [] = _
    rw [List.getD_eq_getElem?_getD, List.getElem?_replicate, if_pos i.isLt, Option.getD_some]
  rw [hreg]
  exact getD_replicate_self ..

/-- Its mask registers but m0 are zero. -/
theorem mreg_started {i : Nat} (hi : i ≠ 0) : (startedLoom d tile eng n o img l).mreg i = 0 :=
  (if_neg hi).trans (getD_replicate_self ..)

/-- Its scalar registers s1 to s8 hold the arguments, the others zero. -/
theorem sreg_started (i : BitVec 6) : (startedLoom d tile eng n o img l).sreg i =
    if 1 ≤ i.toNat ∧ i.toNat ≤ 8 then BitVec.ofNat 64 (o.f (64 + 8 * (i.toNat - 1)) 8) else 0 := by
  by_cases h0 : i = 0
  · rw [h0]
    rfl
  · have hpos : i.toNat ≠ 0 := fun h => h0 (BitVec.eq_of_toNat_eq h)
    have hlen : (arguments o).length = 8 := rfl
    obtain ⟨j, hj⟩ := Nat.exists_eq_succ_of_ne_zero hpos
    refine (if_neg h0).trans ?_
    show (0 :: (arguments o ++ List.replicate 23 0)).getD i.toNat 0 = _
    rw [hj, List.getD_cons_succ, List.getD_eq_getElem?_getD]
    by_cases hlt : j < 8
    · rw [if_pos ⟨by omega, by omega⟩, List.getElem?_append_left (by rw [hlen]; exact hlt)]
      simp [arguments, hlt]
    · rw [if_neg (by omega), List.getElem?_append_right (by rw [hlen]; omega), ← List.getD_eq_getElem?_getD]
      exact getD_replicate_self ..

end

/-! ## The command (R152, R153) -/

section
variable {s : State} {tile eng : Nat} {n : OpName} {o : Op}

/-- LOOM_RUN as an effect of the engines. -/
theorem exec_loomRun (n : OpName) (k : Nat) (s : State) : exec (.loomRun n.ring n.seq k) s = act s (running (loomRunOp n k)) := rfl

/-- LOOM_RUN for the operation that runs. -/
theorem loomRunOp_of_running {d : Dev} (k : Nat) (hrun : loomRunning d tile eng = some (n, o))
    (htarget : ringTarget d n.ring = some (.loom tile eng)) (hopcode : o.opcode = 0x0201) : loomRunOp n k d = runLoom tile eng k d := by
  simp [loomRunOp, issuedOp_of_loomRunning hrun, htarget, hopcode, hrun]

/-- LOOM_RUN for the operation that starts. -/
theorem loomRunOp_of_idle {d : Dev} (k : Nat) (hop : issuedOp d n = some o) (hnone : loomRunning d tile eng = none)
    (htarget : ringTarget d n.ring = some (.loom tile eng)) (hopcode : o.opcode = 0x0201)
    (hhead : (issuedTo d (.loom tile eng)).head?.map (fun e => (e.1, e.2.seq)) = some (n.ring, n.seq)) :
    loomRunOp n k d = runLoom tile eng k (startLoom d tile eng n o) := by
  simp only [loomRunOp, hop, htarget, hopcode, hnone, hhead, bne_self_eq_false, Bool.false_eq_true, if_false, if_true]

/-- So the command runs the program where no write can wait. -/
theorem exec_loomRun_of_running (k : Nat) (hw : atWork s) (hidle : s.dev.granary.st ≠ .copying)
    (hrun : loomRunning s.dev tile eng = some (n, o)) (htarget : ringTarget s.dev n.ring = some (.loom tile eng))
    (hopcode : o.opcode = 0x0201) : exec (.loomRun n.ring n.seq k) s = .next { s with dev := runLoom tile eng k s.dev } := by
  have ⟨_, _, hstalls⟩ := hw
  exact act_running hw (loomRunOp_of_running k hrun htarget hopcode) ((keeps_runLoom tile eng k hidle).stalls.trans hstalls)

end

/-! ## The statement -/

section
variable {s : State} {tile eng : Nat} {n : OpName} {o : Op}

/-- A start: the operation runs, with the registers of R153, and the command that starts it goes on as one for the running operation. -/
theorem loomRun_starts {img : LoomImage} (hw : atWork s) (hop : issuedOp s.dev n = some o) (hopcode : o.opcode = 0x0201)
    (htarget : ringTarget s.dev n.ring = some (.loom tile eng)) (hnone : loomRunning s.dev tile eng = none)
    (hhead : (issuedTo s.dev (.loom tile eng)).head?.map (fun e => (e.1, e.2.seq)) = some (n.ring, n.seq))
    (himg : (getLoom s.dev tile eng).images.find? (fun i => i.id == o.image) = some img) (k : Nat)
    (hk : k = 0 ∨ s.dev.granary.st ≠ .copying) :
    exec (.loomRun n.ring n.seq k) s =
      .next { s with dev := runLoom tile eng k (modLoom s.dev tile eng (startedLoom s.dev tile eng n o img)) } := by
  have ⟨_, _, hstalls⟩ := hw
  have heq := loomRunOp_of_idle k hop hnone htarget hopcode hhead
  rw [startLoom_eq himg] at heq
  refine act_running hw heq ?_
  obtain rfl | hidle := hk
  · exact hstalls
  · exact (keeps_runLoom tile eng k (d := modLoom s.dev tile eng _) hidle).stalls.trans hstalls

/-- The operation that has started runs. -/
theorem loomRunning_started {d : Dev} {img : LoomImage} (hop : issuedOp d n = some o) :
    loomRunning (modLoom d tile eng (startedLoom d tile eng n o img)) tile eng = some (n, o) := by
  have hrun : (getLoom (modLoom d tile eng (startedLoom d tile eng n o img)) tile eng).run = some n := by
    rw [getLoom_modLoom]
    rfl
  have hissued : issuedOp (modLoom d tile eng (startedLoom d tile eng n o img)) n = some o := hop
  simp only [loomRunning, hrun, hissued, Option.map_some]

/-- What the instruction at the PC leaves running is the operation that ran, in its ring, with its opcode. -/
theorem running_of_keeps {d d' : Dev} {m : OpName} {o' : Op} (h : LoomKeeps tile eng d d') (hrun : loomRunning d tile eng = some (n, o))
    (hrun' : loomRunning d' tile eng = some (m, o')) : m = n ∧ o'.opcode = o.opcode := by
  have hname {d : Dev} {m : OpName} {o : Op} (h : loomRunning d tile eng = some (m, o)) : (getLoom d tile eng).run = some m := by
    unfold loomRunning at h
    split at h
    next => cases h
    next r heq =>
      obtain ⟨_, -, hpair⟩ := Option.map_eq_some_iff.mp h
      cases hpair
      exact heq
  have hsame : m = n := by
    obtain hkept | hnone := h.run
    · rw [hname hrun, hname hrun'] at hkept
      exact Option.some.inj hkept
    · rw [hname hrun'] at hnone
      cases hnone
  subst hsame
  have hopcode := h.opcode_eq m
  rw [(issuedOp_eq_some (issuedOp_of_loomRunning hrun)).1, (issuedOp_eq_some (issuedOp_of_loomRunning hrun')).1] at hopcode
  exact ⟨rfl, Option.some.inj hopcode⟩

/-- The instruction at the PC, in a word without error, issues. -/
theorem stepLoom_of_atPc {d : Dev} {op : LoomOp} {f : LoomFields} (hex : loomExists tile eng = true)
    (hrun : loomRunning d tile eng = some (n, o)) (hpc : atPc d tile eng o op f)
    (haccept : acceptLoom (getLoom d tile eng).length { op := op, f := f } = true) :
    stepLoom d tile eng = issueLoom op (loomBody op) tile eng f d := by
  obtain ⟨img, himg, hat⟩ := (Option.any_eq_true _ _).mp hpc
  simp only [Bool.and_eq_true, beq_iff_eq, Option.isNone_iff_eq_none] at hat
  obtain ⟨hdecode, hclean⟩ := hat
  have hword : (fetchLoom d tile eng img (getLoom d tile eng).pc n.ring) = (d, some (img.instrs.getD (getLoom d tile eng).pc 0)) := by
    simp only [fetchLoom, hclean]
  rw [issueLoom_of_atPc hex hrun hpc haccept]
  simp only [stepLoom, standing?, hrun, himg, Option.map_some, fetched, hword, ite_self, Option.bind_some, hdecode, Option.filter_some,
    haccept, if_true]

end

/-- Settles O20: no instruction of a Loom makes a write wait while the Granary copies no snapshot, so that a run of several is the run of
one after another. -/
theorem loomRunStarts : Obligations.LoomRunStarts := by
  unfold Obligations.LoomRunStarts
  refine ⟨fun s tile eng n o img hw hop hopcode htarget hnone hhead himg => ?start,
    fun s tile eng n o op f k h htarget hopcode hidle => ?run⟩
  case start =>
    have hstart := fun k hk => loomRun_starts hw hop hopcode htarget hnone hhead himg k hk
    refine ⟨_, hstart 0 (.inl rfl), ?_, fun k hidle => (hstart k (.inr hidle)).trans ?_⟩
    · have hloom : getLoom (runLoom tile eng 0 (modLoom s.dev tile eng (startedLoom s.dev tile eng n o img))) tile eng =
          startedLoom s.dev tile eng n o img (getLoom s.dev tile eng) := getLoom_modLoom ..
      rw [hloom]
      exact ⟨filesWhole_started _, vreg_started _, fun i hi => mreg_started _ hi, sreg_started _, rfl, rfl, rfl, rfl,
        otherLooms_modLoom s.dev tile eng _, rfl⟩
    · exact (exec_loomRun_of_running (s := { s with dev := modLoom s.dev tile eng (startedLoom s.dev tile eng n o img) }) k hw hidle
        (loomRunning_started hop) htarget hopcode).symm
  case run =>
    obtain ⟨hw, hex, hrun, hpc, -, haccept⟩ := h
    have ⟨hon, hhalt, hstalls⟩ := hw
    have hstep := stepLoom_of_atPc hex hrun hpc haccept
    have hkept := keeps_stepLoom tile eng hidle
    refine ⟨stepLoom s.dev tile eng, ?_, ?_⟩
    · rw [exec_loomCmd]
      exact act_running hw hstep.symm (hkept.stalls.trans hstalls)
    · rw [exec_loomRun_of_running (k + 1) hw hidle hrun htarget hopcode, runLoom]
      by_cases hend : (loomRunning (stepLoom s.dev tile eng) tile eng).isNone = true ∨
          (getLoom (stepLoom s.dev tile eng) tile eng).waitFrom ≠ none
      · rw [if_pos hend, if_pos]
        simpa [Option.isSome_iff_ne_none] using hend
      · rw [if_neg hend, if_neg (by simpa [Option.isSome_iff_ne_none] using hend)]
        obtain ⟨hsome, -⟩ := not_or.mp hend
        obtain ⟨⟨m, o'⟩, hrun'⟩ := Option.ne_none_iff_exists'.mp fun hnone => hsome (Option.isNone_iff_eq_none.mpr hnone)
        obtain ⟨rfl, hopcode'⟩ := running_of_keeps hkept hrun hrun'
        exact (exec_loomRun_of_running (s := { s with dev := stepLoom s.dev tile eng }) k
          ⟨(congrArg Power.on hkept.power).trans hon, hkept.halt.trans hhalt, hkept.stalls.trans hstalls⟩ (hkept.idle hidle) hrun'
          ((hkept.ringTarget_eq _).trans htarget) (hopcode'.trans hopcode)).symm

end Sys2Proof.LoomRunProofs
end

section
/-! SUPPORT. A pixel of no channels (R192, R202, R343): a device at which the statement on convolution and pooling fails. -/

namespace Sys2Proof.QuernProofs

open Sys2Proof Sys2Proof.Machine Sys2Proof.Safety Sys2Proof.HostProofs Sys2Proof.OrgProofs Sys2Proof.RingProofs Sys2Proof.Tests

/-- An issued QUERN_POOL of one window of 1 × 1 with its output at 0x1001 of GDDR7, whose C is 0. The checks at fetch would end it as
ST_BAD_SHAPE; the statement does not ask that they have passed. -/
def noChannelsOp : Op :=
  opOf 0x0303 [(32, [1]), (34, [1]), (36, [1, 1, 1, 1]), (40, [1]), (42, [1]), (54, [1]), (60, [1, 1]), (90, [1]), (96, leBytes 8 0x1001)]

/-- A device at work whose Quern runs it, with one bit error in the word at 0x1000, which holds the place of its pixel. -/
def noChannelsDev : Dev := { devOf 31 noChannelsOp with mem.flips := [(0x100, 1)] }

/-- The operation has one row of one pixel, and nothing is stored with an error where it reads or where its pixel goes: no byte lies
there. -/
theorem noChannels_premises :
    (∀ r, r < noChannelsOp.f 90 2 → readsOk noChannelsDev (quernReads 31 noChannelsOp (noChannelsOp.f 88 2 + r)) = true) ∧
    ∀ r, r < noChannelsOp.f 90 2 → ∀ x, x < noChannelsOp.geom.ow.toNat →
      let size := (quernPixel noChannelsDev 31 noChannelsOp (noChannelsOp.f 88 2 + r) x).length
      size ≤ noChannelsOp.f 104 4 ∧
        memClear noChannelsDev (noChannelsOp.f 96 8 + (r * noChannelsOp.geom.ow.toNat + x) * noChannelsOp.f 104 4) size := by
  decide +kernel

/-- It has no second row. -/
theorem noChannels_rows : noChannelsOp.f 90 2 = 1 := by decide +kernel

/-- The write of its pixel, of no bytes, takes the bit error with it. -/
theorem quernPool_noChannels : (quernPool name0 noChannelsDev).mem.flips = [] := by decide +kernel

/-- Refutes O39, at its clause on QUERN_POOL to memory: the statement is of every operation, also of one without channels, and the write
of its empty pixel, at a place within a word, clears the error pattern of that word, which the frame keeps. The premise that a pixel has
a byte, or that the operation has passed the checks of Table 7.6, is missing. -/
theorem not_convolutionAndPooling : ¬ Obligations.ConvolutionAndPooling := by
  unfold Obligations.ConvolutionAndPooling
  rintro ⟨-, -, hpool, -⟩
  obtain ⟨hreads, hpixels⟩ := noChannels_premises
  obtain ⟨-, hmemory⟩ := hpool (stateOf noChannelsDev) name0 noChannelsOp 31 (by decide +kernel) (by decide +kernel)
    (by decide +kernel) fun r hr => readsOk_clear _ _ (hreads r hr)
  have hacts := hmemory (by decide +kernel) (by decide +kernel) (fun r x hr hx => hpixels r hr x hx) fun r x r' a k hlt hr' => by
    rw [noChannels_rows] at hr'
    omega
  obtain ⟨⟨-, hframe⟩, -⟩ := of_acts hacts
    (act_running (d := quernPool name0 noChannelsDev) (by decide +kernel) rfl (by decide +kernel))
  have hflips := congrArg (fun d : Dev => d.mem.flips) hframe
  dsimp only at hflips
  rw [quernPool_noChannels] at hflips
  cases hflips

end Sys2Proof.QuernProofs
end

section
/-! SUPPORT. What the operations of a Badger rest on (R213, R222, R343): the parts of the device that they change, reads and writes of a
memory without stored errors, and how an operation gets to its work. -/

namespace Sys2Proof.BadgerProofs

open Sys2Proof Sys2Proof.Machine Sys2Proof.Safety Sys2Proof.HostProofs Sys2Proof.OrgProofs Sys2Proof.PoolingProofs Sys2Proof.MillProofs
  Sys2Proof.StoreProofs Sys2Proof.LoomRangeProofs Sys2Proof.LoomKeepProofs

/-! ## What the work of a Badger may change -/

/-- Nothing has changed but the Badgers, the operations, the counters and the bytes of SRAM and GDDR7. -/
def tablesFrame (d d' : Dev) : Prop := ∃ b r c m, d' = { d with badgers := b, hub.rings := r, counters := c, mem.cells := m }

theorem tablesFrame.refl (d : Dev) : tablesFrame d d := ⟨_, _, _, _, rfl⟩

theorem tablesFrame.trans {d d' d'' : Dev} (h : tablesFrame d d') (h' : tablesFrame d' d'') : tablesFrame d d'' := by
  obtain ⟨_, _, _, _, rfl⟩ := h
  obtain ⟨_, _, _, _, rfl⟩ := h'
  exact ⟨_, _, _, _, rfl⟩

section
variable {d d' : Dev} (h : tablesFrame d d')
include h

/-- The statements' words for it. -/
theorem tablesFrame.onlyTables : onlyTables d d' := by
  obtain ⟨_, _, _, _, rfl⟩ := h
  rfl

theorem tablesFrame.fabric_eq : d'.fabric = d.fabric := by
  obtain ⟨_, _, _, _, rfl⟩ := h
  rfl

theorem tablesFrame.granary_eq : d'.granary = d.granary := by
  obtain ⟨_, _, _, _, rfl⟩ := h
  rfl

theorem tablesFrame.steps_eq : d'.steps = d.steps := by
  obtain ⟨_, _, _, _, rfl⟩ := h
  rfl

/-- A memory without stored errors stays one. -/
theorem tablesFrame.quiet (hwf : cellsWf d'.mem.cells = true) (hq : quietMemory d) : quietMemory d' := by
  obtain ⟨_, _, _, _, rfl⟩ := h
  obtain ⟨⟨hmem, hcfg⟩, hflips, hborrows⟩ := hq
  simp only [memoryWf, Bool.and_eq_true] at hmem
  obtain ⟨⟨-, hhost⟩, hremote⟩ := hmem
  exact ⟨⟨by simp only [memoryWf, Bool.and_eq_true]; exact ⟨⟨hwf, hhost⟩, hremote⟩, hcfg⟩, hflips, hborrows⟩

/-- The fault of an access to a line stays the same. The place of the line stays opaque in this proof, as in `lineFault_counted`. -/
theorem tablesFrame.lineFault_eq : lineFault d' = lineFault d := by
  obtain ⟨b, r, c, m, rfl⟩ := h
  have hplace (line : Nat) : gddrLocate { d with badgers := b, hub.rings := r, counters := c, mem.cells := m } line = gddrLocate d line :=
    rfl
  delta lineFault
  funext line
  rw [hplace]
  cases gddrLocate d line with
  | none => rfl
  | some p => rfl

theorem tablesFrame.rangeRegion_eq (a n : Nat) : rangeRegion d' a n = rangeRegion d a n := by
  obtain ⟨_, _, _, _, rfl⟩ := h
  rfl

end

/-- Nothing has changed but the event counters. -/
def Counted (d d' : Dev) : Prop := ∃ c, d' = { d with counters := c }

namespace Counted
variable {d d' d'' : Dev}

theorem trans (h : Counted d d') (h' : Counted d' d'') : Counted d d'' := by
  obtain ⟨_, rfl⟩ := h
  obtain ⟨_, rfl⟩ := h'
  exact ⟨_, rfl⟩

theorem mem_eq (h : Counted d d') : d'.mem = d.mem := by
  obtain ⟨_, rfl⟩ := h
  rfl

theorem badgers_eq (h : Counted d d') : d'.badgers = d.badgers := by
  obtain ⟨_, rfl⟩ := h
  rfl

end Counted

/-! ## Accesses of a memory without stored errors (R339, R343) -/

/-- A word without an error pattern is delivered as it is stored. -/
theorem wordCheck_of_flips {d : Dev} (h : d.mem.flips = []) (w : Nat) : wordCheck d w = .clean := by
  have hnone : tgetD d.mem.flips w 0 = 0 := by rw [h]; rfl
  rw [wordCheck, hnone]
  exact if_pos (by decide)

theorem flipsIn_of_flips {d : Dev} (h : d.mem.flips = []) (a n : Nat) : flipsIn d a n = [] := by
  simp [flipsIn, h]

/-- The entry of a page is that of the table in effect. -/
theorem hostEntry_of_flips {d : Dev} (h : d.mem.flips = []) (page : Nat) :
    hostEntry d page = leNat (cellsRead d.mem.hostCells (entryAt d page) 8) := by
  simp only [hostEntry, wordCheck_of_flips h]

/-- Then the fault of an access does not depend on what Badgers change. -/
theorem tablesFrame.accessFault_eq {d d' : Dev} (h : tablesFrame d d') (hflips : d.mem.flips = []) (a n : Nat) (write : Bool) :
    accessFault d' a n write = accessFault d a n write := by
  have hline := h.lineFault_eq
  have hregion := h.rangeRegion_eq a n
  have hpage : hostPageFault d' write = hostPageFault d write := by
    obtain ⟨_, _, _, _, rfl⟩ := h
    funext page
    simp only [hostPageFault, hostEntry_of_flips hflips, wordCheck_of_flips hflips]
    rw [hostEntry_of_flips (by exact hflips), wordCheck_of_flips (by exact hflips)]
    rfl
  unfold accessFault
  rw [hregion, hline, hpage]
  obtain ⟨_, _, _, _, rfl⟩ := h
  rfl

theorem tablesFrame.memClear {d d' : Dev} {a n : Nat} (h : tablesFrame d d') (hflips : d.mem.flips = []) (hclear : memClear d a n) :
    memClear d' a n := by
  obtain ⟨hown, hfault, -⟩ := hclear
  refine ⟨?_, (h.accessFault_eq hflips a n true).trans hfault, ?_⟩
  · rw [inOwnMemory, h.rangeRegion_eq]
    exact hown
  · obtain ⟨_, _, _, _, rfl⟩ := h
    exact flipsIn_of_flips hflips a n

/-- No entry of the host's table is reported. -/
theorem noteEntries_of_flips {d : Dev} (h : d.mem.flips = []) (a n : Nat) (who : Option OpName) : noteEntries d a n who = d := by
  unfold noteEntries
  split
  · refine List.foldl_fixed' (fun p => ?_) _
    rw [wordCheck_of_flips h]
  · rfl

/-- With no window borrowed, no peer is asked. -/
theorem peerRequests_of_borrows {d : Dev} (h : d.fabric.borrows = []) (write : Bool) (a : Nat) (data : Bytes) (n : Nat)
    (who : Option OpName) : peerRequests d write a data n who = d := by
  unfold peerRequests
  split
  · rw [h]
    rfl
  · rfl

section
variable {d : Dev} (hq : quietMemory d)
include hq

/-- What precedes the bytes of an access is its count. -/
theorem accessed_of_quiet (write : Bool) (a : Nat) (data : Bytes) (n : Nat) (who : Option OpName) :
    ∃ c, peerRequests (noteEntries (countAccess d write a n who) a n who) write a data n who = { d with counters := c } := by
  obtain ⟨-, hflips, hborrows⟩ := hq
  obtain ⟨c, hcount⟩ := countAccess_frame d write a n who
  refine ⟨c, ?_⟩
  rw [hcount, noteEntries_of_flips (by exact hflips), peerRequests_of_borrows (by exact hborrows)]

/-- A read without fault of access delivers the bytes as they are stored, and only counts. -/
theorem readMem_of_quiet {a n : Nat} (h : accessFault d a n false = none) (who : Option OpName) :
    ∃ d', readMem d who a n = (d', .ok (rawRead d a n)) ∧ Counted d d' := by
  obtain ⟨c, haccess⟩ := accessed_of_quiet hq false a [] n who
  have ⟨_, hflips, _⟩ := hq
  refine ⟨{ d with counters := c }, ?_, c, rfl⟩
  simp only [readMem, h, haccess, flipsIn_of_flips hflips, List.foldl_nil]
  cases regionOf d a <;> rfl

/-- So a read that delivers bytes has only counted. -/
theorem counted_of_readMem {who : Option OpName} {a n : Nat} {d' : Dev} {b : Bytes} (h : readMem d who a n = (d', .ok b)) :
    Counted d d' := by
  cases hfault : accessFault d a n false with
  | none =>
    obtain ⟨d1, hread, hcounted⟩ := readMem_of_quiet hq hfault who
    cases h.symm.trans hread
    exact hcounted
  | some f =>
    simp only [readMem, hfault] at h
    cases h

/-- A write without fault of access stores its bytes, counts, and notes the output in its operation. -/
theorem writeMem_of_quiet {a : Nat} {b : Bytes} (h : accessFault d a b.length true = none) (n : OpName) :
    ∃ c, writeMem d (some n) a b =
      (modOp (rawWrite { d with counters := c } a b) n fun o => { o with outs := o.outs ++ [(a, b.length)] }, none) := by
  obtain ⟨c, haccess⟩ := accessed_of_quiet hq true a b b.length (some n)
  have ⟨⟨_, hcfg⟩, hflips, _⟩ := hq
  obtain ⟨merge, hwrite⟩ := writeMem_eq h
  have hmerged (e : Dev × Option Byte) : mergeErrors d (some n) a b.length e = e := by
    rw [mergeErrors, mergedFlips, flipsIn_of_flips hflips]
    rfl
  have hnote : noteWrite { d with counters := c } a b.length = { d with counters := c } := by simp [noteWrite, hcfg]
  refine ⟨c, ?_⟩
  rw [hwrite, hmerged, ite_self, haccess]
  simp only [finishWrite, storeBytes, hnote]

/-- In SRAM or GDDR7 it changes besides only the bytes stored there. -/
theorem writeMem_of_quiet_own {a : Nat} {b : Bytes} (h : memClear d a b.length) (n : OpName) :
    ∃ c, writeMem d (some n) a b =
      (modOp { d with counters := c, mem.cells := cellsWrite d.mem.cells a b } n fun o => { o with outs := o.outs ++ [(a, b.length)] },
       none) := by
  obtain ⟨hown, hfault, -⟩ := h
  obtain ⟨c, hwrite⟩ := writeMem_of_quiet hq hfault n
  have ⟨_, hflips, _⟩ := hq
  have hraw : rawWrite { d with counters := c } a b = { d with counters := c, mem.cells := cellsWrite d.mem.cells a b } := by
    have hregion : regionOf { d with counters := c } a = regionOf d a := rfl
    obtain ⟨_, hr⟩ | ⟨_, hr⟩ := regionOf_of_inOwnMemory hown
    all_goals
      rw [rawWrite, hregion, hr]
      simp [hflips]
  exact ⟨c, by rw [hwrite, hraw]⟩

end

/-! ## Operations of a Badger -/

/-- A change of an issued operation that leaves it issued. -/
theorem issuedOp_modOp {d : Dev} {n : OpName} {o : Op} {f : Op → Op} (h : issuedOp d n = some o) (hseq : ∀ o, (f o).seq = o.seq)
    (hphase : (f o).phase = o.phase) (haborted : (f o).aborted = o.aborted) : issuedOp (modOp d n f) n = some (f o) := by
  have hget := (issuedOp_eq_some h).1
  simp only [issuedOp, hget] at h
  simp only [issuedOp, getOp_modOp hget hseq, hphase, haborted]
  split_ifs at h ⊢
  rfl

/-- The work of an operation `n` so far: it stands as issued, with its descriptor, and memory is in canonical form as it was. -/
structure Works (n : OpName) (d d' : Dev) : Prop where
  frame : tablesFrame d d'
  wf : cellsWf d.mem.cells = true → cellsWf d'.mem.cells = true
  stands : ∀ o, issuedOp d n = some o → ∃ o', issuedOp d' n = some o' ∧ o'.desc = o.desc

namespace Works
variable {n : OpName} {d d' d'' : Dev}

theorem refl (n : OpName) (d : Dev) : Works n d d := ⟨.refl d, id, fun o ho => ⟨o, ho, rfl⟩⟩

theorem trans (h : Works n d d') (h' : Works n d' d'') : Works n d d'' where
  frame := h.frame.trans h'.frame
  wf hwf := h'.wf (h.wf hwf)
  stands o ho := by
    obtain ⟨o1, ho1, hdesc⟩ := h.stands o ho
    obtain ⟨o2, ho2, hdesc'⟩ := h'.stands o1 ho1
    exact ⟨o2, ho2, hdesc'.trans hdesc⟩

theorem ofCounted (n : OpName) (h : Counted d d') : Works n d d' := by
  obtain ⟨_, rfl⟩ := h
  exact ⟨⟨_, _, _, _, rfl⟩, id, fun o ho => ⟨o, ho, rfl⟩⟩

theorem ofBadgers (n : OpName) (d : Dev) (b : Table Badger) : Works n d { d with badgers := b } :=
  ⟨⟨_, _, _, _, rfl⟩, id, fun o ho => ⟨o, ho, rfl⟩⟩

theorem ofModBadger (n : OpName) (d : Dev) (tile : Nat) (f : Badger → Badger) : Works n d (modBadger d tile f) := .ofBadgers n d _

theorem ofModOp (n : OpName) (d : Dev) {f : Op → Op} (hseq : ∀ o, (f o).seq = o.seq) (hphase : ∀ o, (f o).phase = o.phase)
    (haborted : ∀ o, (f o).aborted = o.aborted) (hdesc : ∀ o, (f o).desc = o.desc) : Works n d (modOp d n f) :=
  ⟨⟨_, _, _, _, rfl⟩, id, fun o ho => ⟨f o, issuedOp_modOp ho hseq (hphase o) (haborted o), hdesc o⟩⟩

theorem ofProgress (n : OpName) (d : Dev) : Works n d (progress d n) := by
  unfold progress
  split
  · exact .refl n d
  · exact .ofModOp n d (fun _ => rfl) (fun _ => rfl) (fun _ => rfl) fun _ => rfl

theorem quiet (h : Works n d d') (hq : quietMemory d) : quietMemory d' := h.frame.quiet (h.wf (cellsWf_of_plainMemory hq.1)) hq

theorem memClear {a k : Nat} (h : Works n d d') (hq : quietMemory d) (hclear : memClear d a k) : memClear d' a k :=
  h.frame.memClear hq.2.1 hclear

/-- A write to SRAM or GDDR7. -/
theorem ofWrite {a : Nat} {b : Bytes} (hq : quietMemory d) (hclear : Safety.memClear d a b.length) (n : OpName) :
    ∃ d', writeMem d (some n) a b = (d', none) ∧ Works n d d' ∧ d'.badgers = d.badgers ∧ d'.mem.cells = cellsWrite d.mem.cells a b ∧
      d'.hub.rings = (modOp d n fun o => { o with outs := o.outs ++ [(a, b.length)] }).hub.rings := by
  obtain ⟨c, hwrite⟩ := writeMem_of_quiet_own hq hclear n
  refine ⟨_, hwrite, .trans (d' := { d with counters := c, mem.cells := cellsWrite d.mem.cells a b })
    ⟨⟨_, _, _, _, rfl⟩, cellsWf_cellsWrite _ _ _, fun o ho => ⟨o, ho, rfl⟩⟩
    (.ofModOp n _ (fun _ => rfl) (fun _ => rfl) (fun _ => rfl) fun _ => rfl), rfl, rfl, rfl⟩

/-- Several writes to SRAM or GDDR7. -/
theorem ofWriteAll {l : List (Nat × Bytes)} (hq : quietMemory d) (hclear : ∀ w ∈ l, Safety.memClear d w.1 w.2.length) (n : OpName) :
    ∃ d', writeAll d (some n) l = (d', none) ∧ Works n d d' ∧ d'.badgers = d.badgers ∧ d'.mem.cells = writeCells d.mem.cells l := by
  induction l generalizing d with
  | nil => exact ⟨d, rfl, .refl n d, rfl, rfl⟩
  | cons w l ih =>
    obtain ⟨hw, hl⟩ := List.forall_mem_cons.mp hclear
    obtain ⟨d1, hwrite, hworks, hbadgers, hcells, -⟩ := ofWrite hq hw n
    obtain ⟨d2, hall, hworks', hbadgers', hcells'⟩ := ih (hworks.quiet hq) fun v hv => hworks.memClear hq (hl v hv)
    refine ⟨d2, ?_, hworks.trans hworks', hbadgers'.trans hbadgers, ?_⟩
    · simp only [writeAll, hwrite, hall]
    · rw [hcells', hcells]
      rfl

end Works

@[simp] theorem progress_badgers (d : Dev) (n : OpName) : (progress d n).badgers = d.badgers := by
  unfold progress
  split <;> rfl

@[simp] theorem progress_mem (d : Dev) (n : OpName) : (progress d n).mem = d.mem := by
  unfold progress
  split <;> rfl

theorem completeOp_badgers (d : Dev) (n : OpName) (st : Byte) (detail : Nat) : (completeOp d n st detail).badgers = d.badgers := by
  obtain ⟨_, _, _, _, _, _, _, _, e⟩ := completeOp_frame d n st detail
  rw [e]

/-- A success-class end changes the rings alone. -/
theorem completeOp_success {st : Byte} (hst : st.toNat < 0x20) (d : Dev) (n : OpName) (detail : Nat) :
    ∃ r, completeOp d n st detail = { d with hub.rings := r } := by
  unfold completeOp
  dsimp only
  rw [if_pos hst]
  exact ⟨_, rfl⟩

theorem tablesFrame.complete {d d' : Dev} {st : Byte} (h : tablesFrame d d') (hst : st.toNat < 0x20) (n : OpName) (detail : Nat) :
    tablesFrame d (completeOp d' n st detail) := by
  obtain ⟨r, e⟩ := completeOp_success hst d' n detail
  rw [e]
  exact h.trans ⟨_, _, _, _, rfl⟩

/-- An operation of a Badger on an installed table, held back by none, does its work; nothing that it reads lies behind a peer window. -/
theorem badgerOp_of_badgerAt {d d' : Dev} {code : Nat} {n : OpName} {tile : Nat} {o : Op} {t : TableRec} (h : badgerAt d code n tile o t)
    {f : Nat → Op → TableRec → Dev → Dev} (heq : f tile o t d = d') (hfabric : d'.fabric = d.fabric) : badgerOp code n f d = d' := by
  obtain ⟨hop, hring, hcode, hsends, hbefore, htable⟩ := h
  have hasked : (d'.fabric.requests.drop d.fabric.requests.length).filter (fun r => r.op == n && r.read) = [] := by
    rw [hfabric, List.drop_length, List.filter_nil]
  simp only [badgerOp, hop, hring, hcode, hsends, hbefore, htable, List.isEmpty_nil, List.all_nil, Bool.and_true, decide_true,
    if_true, afterReads, heq, hasked]

/-- The state after a command by which an operation, having worked, ends in the success class. -/
theorem ended_of_works {s : State} {d : Dev} {n : OpName} {o : Op} {st : Byte} {detail : Nat} {f : Dev → Dev} (hw : atWork s)
    (hop : issuedOp s.dev n = some o) (h : Works n s.dev d) (heq : f s.dev = completeOp d n st detail) :
    act s (running f) = .next { s with dev := completeOp d n st detail } ∧ ended (completeOp d n st detail) n st detail := by
  have ⟨_, _, hstalls⟩ := hw
  obtain ⟨o', hop', -⟩ := h.stands o hop
  refine ⟨act_running hw heq ?_, ended_completeOp (issuedOp_eq_some hop').1 st detail⟩
  rw [completeOp_granary, h.frame.granary_eq]
  exact hstalls

/-! ## Badgers and their ledgers (R222) -/

/-- A Badger is read from the table of Badgers alone. -/
theorem getBadger_congr {d d' : Dev} (h : d'.badgers = d.badgers) (u : Nat) : getBadger d' u = getBadger d u := by
  rw [getBadger, h]
  rfl

/-- An entry is that of a row and step of a table. -/
def isEntry (table : Nat) (row step : W64) (e : LedgerEntry) : Bool := e.table == table && e.row == row && e.step == step

theorem isEntry_iff {table : Nat} {row step : W64} {e : LedgerEntry} :
    isEntry table row step e = true ↔ (e.table, e.row, e.step) = (table, row, step) := by
  simp [isEntry, and_assoc]

/-- An entry is of one row and step alone. -/
theorem isEntry_other {table k : Nat} {row step r p : W64} {e : LedgerEntry} (h : isEntry table row step e = true)
    (hne : (k, r, p) ≠ (table, row, step)) : isEntry k r p e = false :=
  Bool.eq_false_iff.mpr fun h' => hne ((isEntry_iff.mp h').symm.trans (isEntry_iff.mp h))

theorem findEntry_eq (d : Dev) (tile table : Nat) (row step : W64) :
    findEntry d tile table row step = (getBadger d tile).ledger.find? (isEntry table row step) := rfl

/-- An entry that is found is that of its row and step. -/
theorem isEntry_of_findEntry {d : Dev} {tile table : Nat} {row step : W64} {e : LedgerEntry}
    (h : findEntry d tile table row step = some e) : isEntry table row step e = true := List.find?_some (p := isEntry table row step) h

/-- A change of the entries of a row and step shows in the entry found for it, and in no other. -/
theorem find?_map_isEntry {table k : Nat} {row step r p : W64} {f : LedgerEntry → LedgerEntry} (l : List LedgerEntry)
    (hf : ∀ e, isEntry table row step e = true → isEntry table row step (f e) = true) :
    (l.map fun e => if isEntry table row step e then f e else e).find? (isEntry k r p) =
      if (k, r, p) = (table, row, step) then (l.find? (isEntry table row step)).map f else l.find? (isEntry k r p) := by
  have hkey : isEntry k r p ∘ (fun e => if isEntry table row step e then f e else e) = isEntry k r p := by
    funext e
    simp only [Function.comp_apply]
    split_ifs with he
    · rw [Bool.eq_iff_iff, isEntry_iff, isEntry_iff, isEntry_iff.mp he, isEntry_iff.mp (hf e he)]
    · rfl
  rw [List.find?_map, hkey]
  split_ifs with hsame
  · cases hsame
    exact Option.map_congr fun e he => if_pos (List.find?_some he)
  · refine (Option.map_congr fun e he => ?_).trans Option.map_id'
    exact if_neg fun he' => hsame ((isEntry_iff.mp (List.find?_some he)).symm.trans (isEntry_iff.mp he'))

/-- The Badger of a tile has this ledger, and its tables and programs as before; the others are as they were. -/
structure ledgerOf (d d' : Dev) (tile : Nat) (l : List LedgerEntry) : Prop where
  same : (getBadger d' tile).ledger = l
  other : ∀ u, u ≠ tile → getBadger d' u = getBadger d u

namespace ledgerOf
variable {d d' d'' : Dev} {tile : Nat} {l l' : List LedgerEntry}

theorem refl (d : Dev) (tile : Nat) : ledgerOf d d tile (getBadger d tile).ledger := ⟨rfl, fun _ _ => rfl⟩

theorem trans (h : ledgerOf d d' tile l) (h' : ledgerOf d' d'' tile l') : ledgerOf d d'' tile l' :=
  ⟨h'.same, fun u hu => (h'.other u hu).trans (h.other u hu)⟩

theorem congr (h : ledgerOf d d' tile l) (hb : d''.badgers = d'.badgers) : ledgerOf d d'' tile l :=
  ⟨(congrArg Badger.ledger (getBadger_congr hb tile)).trans h.same, fun u hu => (getBadger_congr hb u).trans (h.other u hu)⟩

theorem ofMod (d : Dev) (tile : Nat) (f : Badger → Badger) : ledgerOf d (modBadger d tile f) tile (f (getBadger d tile)).ledger :=
  ⟨congrArg Badger.ledger (getBadger_modBadger d tile f), fun _ hu => getBadger_modBadger_other d f hu⟩

theorem mod (h : ledgerOf d d' tile l) {f : Badger → Badger} {g : List LedgerEntry → List LedgerEntry}
    (hf : ∀ b, (f b).ledger = g b.ledger) : ledgerOf d (modBadger d' tile f) tile (g l) := by
  have h' := h.trans (.ofMod d' tile f)
  rwa [hf, h.same] at h'

theorem findEntry_eq (h : ledgerOf d d' tile l) (table : Nat) (row step : W64) :
    findEntry d' tile table row step = l.find? (isEntry table row step) := by
  rw [BadgerProofs.findEntry_eq, h.same]

end ledgerOf

/-! ## What is read of a table (R213, R214, R216) -/

/-- A field of bytes that are read is what memory holds there. -/
theorem fld_cellsRead (m : List Host.Cell) (a : Nat) {off k n : Nat} (h : off + k ≤ n) :
    fld (cellsRead m a n) off k = leNat (cellsRead m (a + off) k) :=
  fld_of_cells fun i hi => by
    rw [LoomProofs.cellsRead_getD (by omega), Nat.add_assoc]

/-- Bytes that are stored without error are read as memory holds them. -/
theorem read_of_clear {d : Dev} {a k : Nat} (h : memClear d a k) (n : OpName) :
    ∃ d', readMem d (some n) a k = (d', .ok (cellsRead d.mem.cells a k)) ∧ Counted d d' := by
  obtain ⟨c, hread⟩ := readMem_of_clear h (some n)
  exact ⟨_, hread, c, rfl⟩

/-- So is a map entry. -/
theorem readMap_of_clear {d : Dev} {t : TableRec} {index : Nat} (h : memClear d (t.map + 4 * index) 4) (n : OpName) :
    ∃ d', readMap d n t index = (d', .ok (mapOf d t index)) ∧ Counted d d' := by
  obtain ⟨d', hread, hcounted⟩ := read_of_clear h n
  have hfld : fld (cellsRead d.mem.cells (t.map + 4 * index) 4) 0 4 = leNat (cellsRead d.mem.cells (t.map + 4 * index) 4) :=
    fld_cellsRead _ _ (le_refl 4)
  refine ⟨d', ?_, hcounted⟩
  simp only [readMap, hread, Except.map, hfld]
  rfl

/-- A check that has let a list pass has changed nothing. -/
theorem ite_error_ok {α : Type} {c : Prop} [Decidable c] {d : Dev} {st : Byte} {x : Dev × Except Byte α} {l : α}
    (h : (if c then (d, .error st) else x).2 = .ok l) : (if c then (d, .error st) else x) = x ∧ x.2 = .ok l := by
  split_ifs at h ⊢
  exact ⟨rfl, h⟩

/-- A list that passes its checks has only been counted. -/
theorem readList_of_ok {d : Dev} (hq : quietMemory d) {n : OpName} {a room : Nat} {l : RowList} (h : (readList d n a room).2 = .ok l) :
    ∃ d', readList d n a room = (d', .ok l) ∧ Counted d d' := by
  unfold readList at h ⊢
  obtain ⟨hroom, h⟩ := ite_error_ok h
  rw [hroom]
  rcases hhead : readMem d (some n) a 16 with ⟨d1, _ | b⟩ <;> rw [hhead] at h
  · cases h
  · have hc1 := counted_of_readMem hq hhead
    dsimp only at h ⊢
    obtain ⟨hshape, h⟩ := ite_error_ok h
    rw [hshape]
    have hq1 := (Works.ofCounted n hc1).quiet hq
    generalize 16 + 8 * fld b 0 4 + _ + _ = len at h ⊢
    rcases hbody : readMem d1 (some n) a len with ⟨d2, _ | b2⟩ <;> rw [hbody] at h
    · cases h
    · have hc2 := counted_of_readMem hq1 hbody
      dsimp only at h ⊢
      obtain ⟨hoffs, h⟩ := ite_error_ok h
      rw [hoffs]
      exact ⟨d2, congrArg _ h, hc1.trans hc2⟩

/-- A row request changes its tier's count and the event counters (Tables 8.15 and 17.13). -/
theorem countRow_frame (d : Dev) (tile tier ring : Nat) : ∃ c, countRow d tile tier ring =
    modBadger { d with counters := c } tile fun b => { b with tierReq := modAt b.tierReq tier (· + 1) } := by
  unfold countRow
  dsimp only
  split
  · exact ⟨_, rfl⟩
  · exact ⟨_, rfl⟩

theorem Works.ofCountRow (n : OpName) (d : Dev) (tile tier ring : Nat) : Works n d (countRow d tile tier ring) := by
  obtain ⟨c, e⟩ := countRow_frame d tile tier ring
  rw [e]
  exact (Works.ofCounted n ⟨c, rfl⟩).trans (.ofBadgers n _ _)

theorem ledgerOf_countRow (d : Dev) (tile tier ring : Nat) : ledgerOf d (countRow d tile tier ring) tile (getBadger d tile).ledger := by
  obtain ⟨c, e⟩ := countRow_frame d tile tier ring
  rw [e]
  exact ((ledgerOf.refl d tile).congr (d'' := { d with counters := c }) rfl).mod (g := id) fun _ => rfl

theorem countRow_mem (d : Dev) (tile tier ring : Nat) : (countRow d tile tier ring).mem = d.mem := by
  obtain ⟨c, e⟩ := countRow_frame d tile tier ring
  rw [e]
  rfl

theorem badgersKept_countRow (d : Dev) (tile tier ring : Nat) : badgersKept d (countRow d tile tier ring) := by
  obtain ⟨c, e⟩ := countRow_frame d tile tier ring
  intro u
  rw [e]
  obtain rfl | hu := eq_or_ne u tile
  · rw [getBadger_modBadger]
    rfl
  · rw [getBadger_modBadger_other _ _ hu]
    rfl

theorem badgersKept.trans {d d' d'' : Dev} (h : badgersKept d d') (h' : badgersKept d' d'') : badgersKept d d'' := fun u =>
  calc { getBadger d'' u with tierReq := (getBadger d u).tierReq }
    _ = { ({ getBadger d'' u with tierReq := (getBadger d' u).tierReq } : Badger) with tierReq := (getBadger d u).tierReq } := rfl
    _ = { getBadger d' u with tierReq := (getBadger d u).tierReq } := by rw [h' u]
    _ = getBadger d u := h u

theorem badgersKept_of_eq {d d' : Dev} (h : d'.badgers = d.badgers) : badgersKept d d' := fun u => by rw [getBadger_congr h]

/-- What a tier's requests change: besides counts, nothing. -/
structure RowsCounted (n : OpName) (d d' : Dev) : Prop where
  works : Works n d d'
  kept : badgersKept d d'
  mem_eq : d'.mem = d.mem

namespace RowsCounted
variable {n : OpName} {d d' d'' : Dev}

theorem refl (n : OpName) (d : Dev) : RowsCounted n d d := ⟨.refl n d, badgersKept_of_eq rfl, rfl⟩

theorem trans (h : RowsCounted n d d') (h' : RowsCounted n d' d'') : RowsCounted n d d'' :=
  ⟨h.works.trans h'.works, badgersKept.trans h.kept h'.kept, h'.mem_eq.trans h.mem_eq⟩

theorem ofCounted (n : OpName) (h : Counted d d') : RowsCounted n d d' :=
  ⟨.ofCounted n h, badgersKept_of_eq h.badgers_eq, h.mem_eq⟩

theorem ofCountRow (n : OpName) (d : Dev) (tile tier ring : Nat) : RowsCounted n d (countRow d tile tier ring) :=
  ⟨.ofCountRow n d tile tier ring, badgersKept_countRow d tile tier ring, countRow_mem d tile tier ring⟩

end RowsCounted

/-- The map is read from memory alone. -/
theorem mapOf_congr {d d' : Dev} (h : d'.mem = d.mem) (t : TableRec) (index : Nat) : mapOf d' t index = mapOf d t index := by
  rw [mapOf, h]
  rfl

/-- The local index of a row that this Badger holds (R212). -/
theorem index_of_mine {t : TableRec} {g index : Nat} (h : t.kind g = .mine index) : g / t.rowMod = index := by
  unfold TableRec.kind at h
  split_ifs at h
  exact RowKind.mine.inj h

/-- The entry found after a change of the entries of a row and step. -/
theorem findEntry_modEntry (d : Dev) (tile : Nat) {table : Nat} {row step : W64} {f : LedgerEntry → LedgerEntry}
    (hf : ∀ e, isEntry table row step e = true → isEntry table row step (f e) = true) (k : Nat) (r p : W64) :
    findEntry (modEntry d tile table row step f) tile k r p =
      if (k, r, p) = (table, row, step) then (findEntry d tile table row step).map f else findEntry d tile k r p := by
  rw [modEntry, (ledgerOf.ofMod d tile _).findEntry_eq]
  exact find?_map_isEntry _ hf

/-- The table's bytes of an entry are stored, the entry is found under its row and step, and every other one is as it was (R222). -/
structure EntryStored (n : OpName) (d d' : Dev) (tile : Nat) (t : TableRec) (table : Nat) (row step : W64) (e : LedgerEntry) : Prop where
  works : Works n d d'
  found : findEntry d' tile table row step = some e
  kept : ∀ k r p, (k, r, p) ≠ (table, row, step) → findEntry d' tile k r p = findEntry d tile k r p
  other : ∀ u, u ≠ tile → getBadger d' u = getBadger d u
  cells : d'.mem.cells = cellsWrite d.mem.cells (ledgerAddr t e) (ledgerBytes t e)

/-- What has been counted before does not show. -/
theorem EntryStored.of_counted {n : OpName} {d d1 d' : Dev} {tile : Nat} {t : TableRec} {table : Nat} {row step : W64} {e : LedgerEntry}
    (h : Counted d d1) (hs : EntryStored n d1 d' tile t table row step e) : EntryStored n d d' tile t table row step e := by
  have hworks := (Works.ofCounted n h).trans hs.works
  obtain ⟨c, rfl⟩ := h
  exact ⟨hworks, hs.found, hs.kept, hs.other, hs.cells⟩

/-- With no window borrowed, the fetch of a record that meets no fault changes nothing yet. -/
theorem startFetch_of_quiet {d : Dev} (hq : quietMemory d) {t : TableRec} {slot : Nat}
    (h : accessFault d (t.slotAddr 2 slot) t.layout false = none) (tile : Nat) (e : LedgerEntry) : startFetch d tile t e slot = d := by
  obtain ⟨-, -, hborrows⟩ := hq
  simp only [startFetch, h, peerRequests_of_borrows hborrows]

/-- An entry that is discarded is not found, and every other one is. -/
theorem find?_filter_isEntry {table k : Nat} {row step r p : W64} (l : List LedgerEntry) :
    (l.filter fun e => !isEntry table row step e).find? (isEntry k r p) =
      if (k, r, p) = (table, row, step) then none else l.find? (isEntry k r p) := by
  rw [List.find?_filter]
  split_ifs with hsame
  · cases hsame
    exact List.find?_eq_none.mpr fun e _ => by simp
  · have hkey : (fun e => !isEntry table row step e && isEntry k r p e) = isEntry k r p := by
      funext e
      cases he : isEntry table row step e with
      | false => rfl
      | true => rw [isEntry_other he hsame]; rfl
    simp only [hkey, Bool.decide_and, Bool.decide_eq_true]

theorem findEntry_dropEntry (d : Dev) (tile table : Nat) (row step : W64) (k : Nat) (r p : W64) :
    findEntry (dropEntry d tile table row step) tile k r p =
      if (k, r, p) = (table, row, step) then none else findEntry d tile k r p := by
  rw [dropEntry, (ledgerOf.ofMod d tile _).findEntry_eq]
  exact find?_filter_isEntry _

/-- An entry is freed alone where no other of its row waits for its record (R220, R228). -/
theorem freeEntry_of_alone {d : Dev} {tile : Nat} {e : LedgerEntry}
    (h : ∀ x ∈ (getBadger d tile).ledger, x.table = e.table → x.row = e.row → x.step ≠ e.step → x.pending = false) (n : OpName)
    (t : TableRec) : freeEntry d tile n t e = dropEntry d tile e.table e.row e.step := by
  have hnone : ((getBadger (dropEntry d tile e.table e.row e.step) tile).ledger.find? fun x => x.table == e.table && x.row == e.row &&
      x.pending && !rowBusy (dropEntry d tile e.table e.row e.step) tile e.table e.row x.step) = none := by
    rw [List.find?_eq_none]
    intro x hx
    rw [dropEntry, getBadger_modBadger] at hx
    obtain ⟨hmem, hother⟩ := List.mem_filter.mp hx
    intro hp
    simp only [Bool.and_eq_true, beq_iff_eq] at hp
    obtain ⟨⟨⟨htable, hrow⟩, hpending⟩, -⟩ := hp
    have hstep : x.step ≠ e.step := by simpa [htable, hrow] using hother
    rw [h x hmem htable hrow hstep] at hpending
    cases hpending
  unfold freeEntry
  dsimp only
  rw [hnone]

end Sys2Proof.BadgerProofs
end

section
/-! SUPPORT. BADGER_GATHER (R212, R214, R216, R217, R219): the rows that a list names, read one after another, the output rows made of
them, where they are written, and from them the statement. -/

namespace Sys2Proof.GatherProofs

open Sys2Proof Sys2Proof.Machine Sys2Proof.Safety Sys2Proof.HostProofs Sys2Proof.OrgProofs Sys2Proof.MillProofs Sys2Proof.StoreProofs
  Sys2Proof.BadgerProofs

/-! ## The rows of a list (R212, R216) -/

/-- The rows that this Badger holds of a list's entries, each with its entry's index. -/
def placedRows (d : Dev) (t : TableRec) (l : List (Nat × Nat)) : List (Nat × Lanes) :=
  l.filterMap fun e => (tableRow d t e.2).map fun x => (e.1, x)

theorem tableRow_congr {d d' : Dev} (h : d'.mem = d.mem) (t : TableRec) : tableRow d' t = tableRow d t := by
  funext g
  simp only [tableRow, recordAt, mapOf_congr h, h]

theorem placedRows_congr {d d' : Dev} (h : d'.mem = d.mem) (t : TableRec) (l : List (Nat × Nat)) :
    placedRows d' t l = placedRows d t l := by
  rw [placedRows, tableRow_congr h]
  rfl

theorem tableRow_of_mine {d : Dev} {t : TableRec} {g index : Nat} (h : t.kind g = .mine index) :
    tableRow d t g = some (decodeRow t.fmt t.dim (cellsRead d.mem.cells (recordAt d t index) t.wb)) := by
  simp only [tableRow, h]

theorem tableRow_of_not_mine {d : Dev} {t : TableRec} {g : Nat} (h : ∀ index, t.kind g ≠ .mine index) : tableRow d t g = none := by
  unfold tableRow
  split
  next index hk => exact absurd hk (h index)
  next => rfl

/-- What is counted leaves a row where it is. -/
theorem rowPlaced_of_counted {d d' : Dev} {n : OpName} {t : TableRec} {g : Nat} (hq : quietMemory d) (h : RowsCounted n d d')
    (hg : rowPlaced d t g) : rowPlaced d' t g := by
  cases hk : t.kind g with
  | outOfRange => simp only [rowPlaced, hk] at hg
  | mine index =>
    simp only [rowPlaced, hk] at hg ⊢
    obtain ⟨hmap, hplaced, hrec⟩ := hg
    simp only [recordAt, mapOf_congr h.mem_eq]
    exact ⟨h.works.memClear hq hmap, hplaced, h.works.memClear hq hrec⟩
  | null => simp only [rowPlaced, hk]
  | foreign => simp only [rowPlaced, hk]

/-- A list whose rows are in range, placed and stored without error is read to its end. -/
theorem readRows_of_placed {d : Dev} (hq : quietMemory d) (tile : Nat) (n : OpName) (t : TableRec) {l : List (Nat × Nat)}
    (h : ∀ e ∈ l, rowPlaced d t e.2) (acc : List (Nat × Lanes)) :
    ∃ d', readRows d tile n t l acc = (d', .ok (acc.reverse ++ placedRows d t l)) ∧ RowsCounted n d d' := by
  induction l generalizing d acc with
  | nil => exact ⟨d, by simp [readRows, placedRows], .refl n d⟩
  | cons e l ih =>
    obtain ⟨i, g⟩ := e
    obtain ⟨hg, hl⟩ := List.forall_mem_cons.mp h
    have hskip (hnone : ∀ index, t.kind g ≠ .mine index) : placedRows d t ((i, g) :: l) = placedRows d t l := by
      rw [placedRows, List.filterMap_cons, tableRow_of_not_mine hnone]
      rfl
    cases hk : t.kind g with
    | null =>
      rw [hskip (by simp [hk])]
      simp only [readRows, hk]
      exact ih hq hl acc
    | foreign =>
      rw [hskip (by simp [hk])]
      simp only [readRows, hk]
      exact ih hq hl acc
    | outOfRange => simp only [rowPlaced, hk] at hg
    | mine index =>
      simp only [rowPlaced, hk] at hg
      obtain ⟨hmap, hplaced, hrec⟩ := hg
      obtain ⟨d1, hreadMap, hc1⟩ := readMap_of_clear hmap n
      have hcounted : RowsCounted n d (countRow d1 tile (mapOf d t index).1 n.ring) :=
        (RowsCounted.ofCounted n hc1).trans (.ofCountRow n _ _ _ _)
      obtain ⟨d2, hread, hc2⟩ := read_of_clear (hcounted.works.memClear hq hrec) n
      have hall := hcounted.trans (.ofCounted n hc2)
      obtain ⟨d', hrest, hrows⟩ := ih (hall.works.quiet hq) (fun e he => rowPlaced_of_counted hq hall (hl e he))
        ((i, decodeRow t.fmt t.dim (cellsRead d.mem.cells (recordAt d t index) t.wb)) :: acc)
      refine ⟨d', ?_, hall.trans hrows⟩
      rw [placedRows_congr hall.mem_eq] at hrest
      rw [placedRows, List.filterMap_cons, tableRow_of_mine hk]
      simp only [readRows, hk, hreadMap, if_neg hplaced, hread, hcounted.mem_eq]
      rw [hrest]
      simp [placedRows]

/-- The row of entry `i` of a list, where this Badger holds it. -/
theorem find?_placedRows (d : Dev) (t : TableRec) (ids : List Nat) (k i : Nat) :
    ((placedRows d t ((ids.zipIdx k).map fun e => (e.2, e.1))).find? fun r => r.1 == k + i).map (·.2) = (ids[i]?).bind (tableRow d t) := by
  induction ids generalizing k i with
  | nil => simp [placedRows]
  | cons g ids ih =>
    have hrest : (placedRows d t ((ids.zipIdx (k + 1)).map fun e => (e.2, e.1))).find? (fun r => r.1 == k) = none := by
      refine List.find?_eq_none.mpr fun r hr => ?_
      obtain ⟨e, he, hrow⟩ := List.mem_filterMap.mp hr
      obtain ⟨e', he', rfl⟩ := List.mem_map.mp he
      obtain ⟨x, -, rfl⟩ := Option.map_eq_some_iff.mp hrow
      have hle := (List.mem_zipIdx he').1
      simp only [beq_iff_eq]
      omega
    rw [placedRows, List.zipIdx_cons, List.map_cons, List.filterMap_cons]
    cases i with
    | zero =>
      cases hrow : tableRow d t g with
      | none =>
        simp only [Option.map_none, Nat.add_zero]
        rw [← placedRows, hrest]
        simp [hrow]
      | some x => simp [hrow]
    | succ i =>
      have hnext := ih (k + 1) i
      rw [show k + 1 + i = k + (i + 1) by omega] at hnext
      cases hrow : tableRow d t g with
      | none =>
        simp only [Option.map_none]
        exact hnext
      | some x =>
        simp only [Option.map_some]
        rw [List.find?_cons_of_neg (by simp)]
        exact hnext

/-! ## Output rows (R216, R217) -/

/-- The rows that a gather makes of its list: `none` for one left unwritten. -/
def gatheredRows (d : Dev) (tile : Nat) (o : Op) (t : TableRec) (l : RowList) : List (Option Lanes) :=
  if o.f 33 1 = 0 then l.ids.map fun g => if t.kind g = .null then some (List.replicate t.dim 0) else tableRow d t g
  else l.bags.map fun bag =>
    some (poolBag (poolProgram d tile o) t.dim (bag.map fun i => (i, l.weight i, (l.ids[i]?).bind (tableRow d t)))).a

/-- A list's entries with their indices, as they are read. -/
def listEntries (l : RowList) : List (Nat × Nat) := l.ids.zipIdx.map fun e => (e.2, e.1)

theorem find?_listEntries (d : Dev) (t : TableRec) (l : RowList) (i : Nat) :
    ((placedRows d t (listEntries l)).find? fun r => r.1 == i).map (·.2) = (l.ids[i]?).bind (tableRow d t) := by
  simpa [listEntries] using find?_placedRows d t l.ids 0 i

theorem poolProgram_of_kept {d d' : Dev} (h : badgersKept d d') (tile : Nat) (o : Op) : poolProgram d' tile o = poolProgram d tile o := by
  have hprograms := congrArg Badger.programs (h tile)
  dsimp only at hprograms
  unfold poolProgram gatherProgram
  rw [hprograms]

/-- The model's output rows are these, from the rows that were read. -/
theorem gatherRows_map_fst {d d' : Dev} {tile : Nat} {o : Op} {t : TableRec} {l : RowList} (hrows : ∀ g ∈ l.ids, rowPlaced d t g)
    (hkept : badgersKept d d') :
    (gatherRows d' tile o t l (placedRows d t (listEntries l))).map (·.1) = gatheredRows d tile o t l := by
  unfold gatherRows gatheredRows
  split_ifs with hpool
  · refine List.ext_getElem (by simp) fun i hi _ => ?_
    have hlt : i < l.ids.length := by simpa using hi
    have hfind := find?_listEntries d t l i
    rw [List.getElem?_eq_getElem hlt, Option.bind_some] at hfind
    have hg := hrows _ (List.getElem_mem hlt)
    simp only [List.getElem_map, List.getElem_zipIdx, Nat.zero_add, hfind]
    cases hk : t.kind l.ids[i] with
    | null => simp
    | foreign => simp [tableRow_of_not_mine (d := d) (t := t) (g := l.ids[i]) (by simp [hk])]
    | outOfRange => simp only [rowPlaced, hk] at hg
    | mine index => simp [tableRow_of_mine (d := d) hk]
  · simp only [List.map_map, poolProgram_of_kept hkept, find?_listEntries]
    rfl

/-- A row converted once under RC. -/
def outRow (o : Op) (x : Lanes) : OutRow := convertRow (fmtOf (o.f 38 2)) (o.f 37 1 % 16) (x.map f32)

/-- The converted rows, as they are numbered. -/
def outRows (d : Dev) (tile : Nat) (o : Op) (t : TableRec) (l : RowList) : List (Option OutRow) :=
  (gatheredRows d tile o t l).map (Option.map (outRow o))

/-- A count over the rows that are written. -/
def rowsTotal (f : OutRow → Nat) (rows : List (Option OutRow)) : Nat := (rows.filterMap id).foldl (fun s r => s + f r) 0

/-- It can be taken row by row, where one left unwritten counts nothing. -/
theorem rowsTotal_eq (f : OutRow → Nat) (rows : List (Option OutRow)) :
    rowsTotal f rows = (List.range rows.length).foldl (fun c i => c + ((rows.getD i none).map f).getD 0) 0 := by
  have hall (c : Nat) : (rows.filterMap id).foldl (fun s r => s + f r) c = rows.foldl (fun c r => c + (r.map f).getD 0) c := by
    induction rows generalizing c with
    | nil => rfl
    | cons r rows ih =>
      cases r with
      | none => simpa using ih c
      | some y => simpa using ih (c + f y)
  have hlist : (List.range rows.length).map (fun i => rows.getD i none) = rows :=
    List.ext_getElem (by simp) fun i _ hi => by simp [hi]
  rw [rowsTotal, hall]
  conv_lhs => rw [← hlist, List.foldl_map]

/-- DETAIL of a gather (R219). -/
def gatherDetail (rows : List (Option OutRow)) : Nat :=
  min (rowsTotal (·.sat) rows) 0xFFFFFFFF + 2 ^ 32 * min (rowsTotal (·.nonfinite) rows) 0xFFFFFFFF

/-- Where output row `i` goes (R216). -/
def gatherAt (o : Op) (i : Nat) : Nat := o.f 48 8 + i * o.f 44 4

/-- The writes of a gather to memory. -/
def gatherWrites (o : Op) (rows : List (Option OutRow)) : List (Nat × Bytes) :=
  rows.zipIdx.filterMap fun r => r.1.map fun y => (gatherAt o r.2, y.data)

theorem mem_gatherWrites {o : Op} {rows : List (Option OutRow)} {w : Nat × Bytes} :
    w ∈ gatherWrites o rows ↔ ∃ i y, rows.getD i none = some y ∧ (gatherAt o i, y.data) = w := by
  simp only [gatherWrites, List.mem_filterMap, Option.map_eq_some_iff, Prod.exists, List.mem_zipIdx_iff_getElem?, List.getD_eq_getElem?_getD]
  constructor
  · rintro ⟨x, i, hx, y, rfl, hw⟩
    exact ⟨i, y, by simp [hx], hw⟩
  · rintro ⟨i, y, hy, hw⟩
    cases hx : rows[i]? with
    | none => simp [hx] at hy
    | some x => exact ⟨x, i, hx, y, by simpa [hx] using hy, hw⟩

/-- Rows no longer than OUT_STRIDE share no byte. -/
theorem gatherWrites_disjoint {o : Op} {rows : List (Option OutRow)} (h : ∀ i y, rows.getD i none = some y → y.data.length ≤ o.f 44 4) :
    (gatherWrites o rows).Pairwise fun w w' => ∀ z, within w z → ¬ within w' z := by
  refine List.pairwise_filterMap.mpr (List.pairwise_iff_getElem.mpr fun i j hi hj hij w hw w' hw' z hz hz' => ?_)
  simp only [List.getElem_zipIdx, Nat.zero_add, Option.map_eq_some_iff] at hw hw'
  obtain ⟨y, hy, rfl⟩ := hw
  obtain ⟨y', -, rfl⟩ := hw'
  have hlt : i < rows.length := by simpa using hi
  have hlen := h i y (by rw [List.getD_eq_getElem?_getD, List.getElem?_eq_getElem hlt, hy]; rfl)
  have hnext : (i + 1) * o.f 44 4 ≤ j * o.f 44 4 := Nat.mul_le_mul_right _ hij
  rw [Nat.succ_mul] at hnext
  obtain ⟨-, hend⟩ := hz
  obtain ⟨hstart, -⟩ := hz'
  simp only [gatherAt] at hend hstart
  omega

/-! ## BADGER_GATHER -/

/-- The device before a gather's writes: its operation holds its contribution to the census. -/
def gatherNoted (d : Dev) (n : OpName) (o : Op) (rows : List (Option OutRow)) : Dev :=
  progress (modOp d n fun p => { p with
    census := p.census ++ [{ tensor := o.f 64 2 % 4096, saturated := rowsTotal (·.sat) rows, nonfinite := rowsTotal (·.nonfinite) rows }] }) n

theorem works_gatherNoted (d : Dev) (n : OpName) (o : Op) (rows : List (Option OutRow)) : Works n d (gatherNoted d n o rows) := by
  refine .trans ?_ (.ofProgress n _)
  exact .ofModOp n d (fun _ => rfl) (fun _ => rfl) (fun _ => rfl) fun _ => rfl

section
variable {d : Dev} {tile : Nat} {n : OpName} {o : Op} {t : TableRec} {l : RowList}

/-- A gather to memory, held back by no ledger entry, whose rows are read and whose writes take place, completes. -/
theorem gatherList_of_writes {d' d3 : Dev} (hctl : o.f 35 1 = 0) (harg : o.zero 56 8 = true) (hheld : gatherHeld d tile n o t l = false)
    (hplace : settOrGddr d tile (o.f 48 8) (extent (gatheredRows d tile o t l).length (o.f 44 4) (packedBytes (fmtOf (o.f 38 2)).code t.dim)) = true)
    (hrows : ∀ g ∈ l.ids, rowPlaced d t g)
    (hread : readRows d tile n t (listEntries l) [] = (d', .ok (placedRows d t (listEntries l)))) (hkept : badgersKept d d')
    (hwrite : writeAll (gatherNoted d' n o (outRows d tile o t l)) (some n) (gatherWrites o (outRows d tile o t l)) = (d3, none)) :
    gatherList tile n o t l d = completeOp d3 n stOk (gatherDetail (outRows d tile o t l)) := by
  have hchute : bit 0 1 = false := by decide
  have hconv : (gatherRows d' tile o t l (placedRows d t (listEntries l))).map (fun r => r.1.map fun x =>
      convertRow (fmtOf (o.f 38 2)) (o.f 37 1 % 16) (x.map f32)) = outRows d tile o t l := by
    rw [outRows, ← gatherRows_map_fst hrows hkept, List.map_map]
    rfl
  have hlen : (if o.f 33 1 = 0 then l.ids.length else l.bags.length) = (gatheredRows d tile o t l).length := by
    unfold gatheredRows
    split_ifs <;> simp
  unfold gatherNoted rowsTotal gatherWrites gatherAt at hwrite
  unfold listEntries at hread hconv
  simp only [gatherList, hctl, hchute, hlen, hplace, hheld, hread, hconv, harg, Bool.false_and, Bool.not_true, Bool.and_false,
    Bool.false_eq_true, if_false, if_true, List.nil_append, hwrite]
  rfl

/-- A gather to bytes stored without error writes its rows, and changes besides the counters and the operations. -/
theorem gatherList_of_clear (hq : quietMemory d) (hctl : o.f 35 1 = 0) (harg : o.zero 56 8 = true)
    (hheld : gatherHeld d tile n o t l = false)
    (hplace : settOrGddr d tile (o.f 48 8) (extent (gatheredRows d tile o t l).length (o.f 44 4) (packedBytes (fmtOf (o.f 38 2)).code t.dim)) = true)
    (hrows : ∀ g ∈ l.ids, rowPlaced d t g) (hclear : ∀ w ∈ gatherWrites o (outRows d tile o t l), memClear d w.1 w.2.length) :
    ∃ d', gatherList tile n o t l d = completeOp d' n stOk (gatherDetail (outRows d tile o t l)) ∧ Works n d d' ∧ badgersKept d d' ∧
      d'.mem.cells = writeCells d.mem.cells (gatherWrites o (outRows d tile o t l)) := by
  have hentries : ∀ e ∈ listEntries l, rowPlaced d t e.2 := by
    intro e he
    obtain ⟨x, hx, rfl⟩ := List.mem_map.mp he
    exact hrows _ (List.fst_mem_of_mem_zipIdx hx)
  obtain ⟨d1, hread, hcounted⟩ := readRows_of_placed hq tile n t hentries []
  have hnoted := works_gatherNoted d1 n o (outRows d tile o t l)
  have hbefore := hcounted.works.trans hnoted
  obtain ⟨d2, hwrite, hworks, hbadgers, hcells⟩ :=
    Works.ofWriteAll (hbefore.quiet hq) (fun w hw => hbefore.memClear hq (hclear w hw)) n
  refine ⟨d2, gatherList_of_writes hctl harg hheld hplace hrows hread hcounted.kept hwrite, hbefore.trans hworks, ?_, ?_⟩
  · exact badgersKept.trans hcounted.kept (badgersKept_of_eq (hbadgers.trans (by simp [gatherNoted])))
  · rw [hcells, gatherNoted, progress_mem, modOp_mem, hcounted.mem_eq]

end

theorem outRows_getD (d : Dev) (tile : Nat) (o : Op) (t : TableRec) (l : RowList) (i : Nat) :
    (outRows d tile o t l).getD i none = ((gatheredRows d tile o t l).getD i none).map (outRow o) :=
  List.getD_map (gatheredRows d tile o t l) none (Option.map (outRow o))

theorem gatherDetail_outRows (d : Dev) (tile : Nat) (o : Op) (t : TableRec) (l : RowList) :
    let total (f : OutRow → Nat) : Nat := (List.range (gatheredRows d tile o t l).length).foldl
      (fun c i => c + ((((gatheredRows d tile o t l).getD i none).map (outRow o)).map f).getD 0) 0
    gatherDetail (outRows d tile o t l) = min (total (·.sat)) 0xFFFFFFFF + 2 ^ 32 * min (total (·.nonfinite)) 0xFFFFFFFF := by
  simp only [gatherDetail, rowsTotal_eq, outRows_getD]
  rw [outRows, List.length_map]

/-- What has only been counted leaves the rows of a list as they were. -/
theorem gatheredRows_of_counted {d d' : Dev} (h : Counted d d') (tile : Nat) (o : Op) (t : TableRec) (l : RowList) :
    gatheredRows d' tile o t l = gatheredRows d tile o t l := by
  obtain ⟨_, rfl⟩ := h
  rfl

/-- BADGER_GATHER with its list in the Sett and its output in memory. -/
theorem badgerGather_of_clear {d : Dev} {tile : Nat} {n : OpName} {o : Op} {t : TableRec} {l : RowList} (hq : quietMemory d)
    (hat : badgerAt d 0x0401 n tile o t) (hctl : o.f 35 1 = 0) (harg : o.zero 56 8 = true)
    (hlist : (readList d n (sramBase tile + o.f 40 4) (tileCapacity tile - o.f 40 4)).2 = .ok l)
    (hrows : ∀ g ∈ l.ids, rowPlaced d t g) (hheld : gatherHeld d tile n o t l = false)
    (hplace : settOrGddr d tile (o.f 48 8) (extent (gatheredRows d tile o t l).length (o.f 44 4) (packedBytes (fmtOf (o.f 38 2)).code t.dim)) = true)
    (hclear : ∀ w ∈ gatherWrites o (outRows d tile o t l), memClear d w.1 w.2.length) :
    ∃ d', badgerGather n d = completeOp d' n stOk (gatherDetail (outRows d tile o t l)) ∧ Works n d d' ∧ badgersKept d d' ∧
      d'.mem.cells = writeCells d.mem.cells (gatherWrites o (outRows d tile o t l)) := by
  obtain ⟨d1, hread, hcounted⟩ := readList_of_ok hq hlist
  have hsource : listSource d tile n o = (d, .at_ (sramBase tile + o.f 40 4) (tileCapacity tile - o.f 40 4)) := by
    have hbit : bit 0 0 = false := by decide
    simp [listSource, takeSource, hctl, hbit]
  have hrowsEq := gatheredRows_of_counted hcounted tile o t l
  have houtEq : outRows d1 tile o t l = outRows d tile o t l := by rw [outRows, hrowsEq]; rfl
  have hheld1 : gatherHeld d1 tile n o t l = false := by
    obtain ⟨_, rfl⟩ := hcounted
    exact hheld
  have hplace1 : settOrGddr d1 tile (o.f 48 8)
      (extent (gatheredRows d1 tile o t l).length (o.f 44 4) (packedBytes (fmtOf (o.f 38 2)).code t.dim)) = true := by
    rw [hrowsEq]
    obtain ⟨_, rfl⟩ := hcounted
    exact hplace
  have hworks1 := Works.ofCounted n hcounted
  obtain ⟨d2, hgather, hworks, hkept, hcells⟩ := gatherList_of_clear (hworks1.quiet hq) hctl harg hheld1 hplace1
    (fun g hg => rowPlaced_of_counted hq (.ofCounted n hcounted) (hrows g hg))
    (by rw [houtEq]; exact fun w hw => hworks1.memClear hq (hclear w hw))
  rw [houtEq] at hgather hcells
  have hall := hworks1.trans hworks
  refine ⟨d2, badgerOp_of_badgerAt hat ?_ ?_, hall, badgersKept.trans (badgersKept_of_eq hcounted.badgers_eq) hkept, ?_⟩
  · simp only [hsource, hread]
    exact hgather
  · obtain ⟨_, e⟩ := completeOp_stOk_frame d2 n (gatherDetail (outRows d tile o t l))
    rw [e]
    exact hall.frame.fabric_eq
  · rw [hcells, hcounted.mem_eq]

/-- Settles O40: the list and its rows are read without a change but counts, every output row is the conversion of what they give, and
the rows are written to disjoint places. -/
theorem badgerGather : Obligations.BadgerGather := by
  unfold Obligations.BadgerGather
  intro s n o tile t l hw hplain hflips hborrows hat hctl harg hlist hrows hheld rows out at_ hplace hclear
  have hout (i : Nat) : (outRows s.dev tile o t l).getD i none = out i := outRows_getD s.dev tile o t l i
  have hwf := cellsWf_of_plainMemory hplain
  have hlen (i : Nat) (y : OutRow) (hy : (outRows s.dev tile o t l).getD i none = some y) : y.data.length ≤ o.f 44 4 :=
    (hclear i y ((hout i).symm.trans hy)).1
  obtain ⟨d, hgather, hworks, hkept, hcells⟩ := badgerGather_of_clear (n := n) ⟨hplain, hflips, hborrows⟩ hat hctl harg hlist hrows hheld hplace
    (by
      intro w hmem
      obtain ⟨i, y, hy, rfl⟩ := mem_gatherWrites.mp hmem
      exact (hclear i y ((hout i).symm.trans hy)).2)
  obtain ⟨hexec, hended⟩ := ended_of_works hw hat.1 hworks hgather
  refine ⟨_, hexec, ?_, fun i y hy => ?_, fun z hz => ?_, badgersKept.trans hkept (badgersKept_of_eq (completeOp_badgers ..)),
    (hworks.frame.complete (by decide) n _).onlyTables⟩
  · refine hended.trans ?_
    rw [gatherDetail_outRows]
    rfl
  · rw [completeOp_mem, hcells]
    exact cellsRead_writeCells hwf (gatherWrites_disjoint hlen) (mem_gatherWrites.mpr ⟨i, y, (hout i).trans hy, rfl⟩)
  · rw [byteAt, completeOp_mem, hcells]
    refine cellGet_writeCells_outside hwf fun w hmem => ?_
    obtain ⟨i, y, hy, rfl⟩ := mem_gatherWrites.mp hmem
    exact hz i y ((hout i).symm.trans hy)

end Sys2Proof.GatherProofs
end

section
/-! SUPPORT. BADGER_SCATTER, LEDGER_RECORD_ARRIVE and LEDGER_FULL (R212, R221 to R225): a gradient that enters the ledger, the last entry of
a scatter, what the Cellar's answer makes of an entry, and from them the statement. -/

namespace Sys2Proof.ScatterProofs

open Sys2Proof Sys2Proof.Machine Sys2Proof.Safety Sys2Proof.HostProofs Sys2Proof.OrgProofs Sys2Proof.MillProofs Sys2Proof.StoreProofs
  Sys2Proof.PoolingProofs Sys2Proof.BadgerProofs Sys2Proof.LoomStoreProofs

/-! ## A gradient row enters the ledger (R222, R223) -/

section
variable {d : Dev} {tile : Nat} {n : OpName} {table : Nat} {t : TableRec} {row step : W64} {place : Nat × Nat} {x : Lanes}

/-- A later gradient of a row is added in FP32. -/
theorem addGradient_of_found {e : LedgerEntry} (hq : quietMemory d) (hfind : findEntry d tile table row step = some e)
    (hread : memClear d (ledgerAddr t e) t.entryBytes) :
    let e1 := { e with acc := (e.acc.zip x).map fun y => f32Add y.1 y.2 }
    memClear d (ledgerAddr t e1) (ledgerBytes t e1).length →
    ∃ d', addGradient d tile n table t row step place x = (d', .added) ∧ EntryStored n d d' tile t table row step e1 := by
  intro e1 hclear
  obtain ⟨d1, hbytes, hcounted⟩ := read_of_clear hread n
  have hworks1 := Works.ofCounted n hcounted
  obtain ⟨d2, hwrite, hworks2, hbadgers, hcells, -⟩ := Works.ofWrite (hworks1.quiet hq) (hworks1.memClear hq hclear) n
  have hsame := hbadgers.trans hcounted.badgers_eq
  have hkey : isEntry table row step e1 = true := show isEntry table row step e = true from isEntry_of_findEntry hfind
  have hentry (k : Nat) (r p : W64) : findEntry (modEntry d2 tile table row step fun _ => e1) tile k r p =
      if (k, r, p) = (table, row, step) then some e1 else findEntry d tile k r p := by
    rw [findEntry_modEntry d2 tile fun _ _ => hkey, findEntry, findEntry, getBadger_congr hsame]
    exact if_congr Iff.rfl (by rw [← findEntry, hfind]; rfl) rfl
  refine ⟨modEntry d2 tile table row step fun _ => e1, ?_, (hworks1.trans hworks2).trans (.ofModBadger n d2 tile _), ?_, fun k r p hne => ?_,
    fun u hu => ?_, ?_⟩
  · simp only [addGradient, hfind, hbytes]
    rw [hwrite]
  · rw [hentry, if_pos rfl]
  · rw [hentry, if_neg hne]
  · rw [modEntry, getBadger_modBadger_other d2 _ hu, getBadger_congr hsame]
  · rw [← hcounted.mem_eq]
    exact hcells

/-- The entry that the first gradient of a row takes. -/
def firstEntry (table : Nat) (row step : W64) (place : Nat × Nat) (x : Lanes) (slot : Nat) : LedgerEntry :=
  { table := table, slot := slot, row := row, step := step, acc := x, cellar := place.1 == 2, pending := place.1 == 2 }

/-- The fetch of a record from the Cellar, where one is issued, changes nothing but counts. -/
theorem fetch_of_quiet (hq : quietMemory d) (hfault : place.1 = 2 → accessFault d (t.slotAddr 2 place.2) t.layout false = none) (issued : Bool)
    (e : LedgerEntry) :
    ∃ d', (if (place.1 = 2 && issued) = true then startFetch (countRow d tile 2 n.ring) tile t e place.2 else d) = d' ∧ RowsCounted n d d' ∧
      ledgerOf d d' tile (getBadger d tile).ledger := by
  split_ifs with hissued
  · simp only [Bool.and_eq_true, decide_eq_true_eq] at hissued
    have hcounted := RowsCounted.ofCountRow n d tile 2 n.ring
    refine ⟨_, startFetch_of_quiet (hcounted.works.quiet hq) ?_ tile e, hcounted, ledgerOf_countRow ..⟩
    rw [hcounted.works.frame.accessFault_eq hq.2.1]
    exact hfault hissued.1
  · exact ⟨d, rfl, .refl n d, .refl d tile⟩

/-- The first gradient of a row takes the lowest free entry, and the fetch of its record meets no fault. -/
theorem addGradient_of_free {slot : Nat} (hq : quietMemory d) (hfind : findEntry d tile table row step = none)
    (hroom : ((getBadger d tile).ledger.filter fun e => e.table == table).length < t.entries) (hslot : slot < t.entries)
    (htaken : ∀ k, k < slot → ∃ e ∈ (getBadger d tile).ledger.filter fun e => e.table == table, e.slot = k)
    (hfree : ∀ e ∈ (getBadger d tile).ledger.filter fun e => e.table == table, e.slot ≠ slot)
    (hfault : place.1 = 2 → accessFault d (t.slotAddr 2 place.2) t.layout false = none)
    (hclear : memClear d (ledgerAddr t (firstEntry table row step place x slot)) (ledgerBytes t (firstEntry table row step place x slot)).length) :
    ∃ d', addGradient d tile n table t row step place x = (d', .added) ∧
      EntryStored n d d' tile t table row step (firstEntry table row step place x slot) := by
  have hsearch : ((List.range t.entries).find? fun s => ((getBadger d tile).ledger.filter fun e => e.table == table).all fun e => e.slot != s) =
      some slot := by
    refine List.find?_range_eq_some.mpr ⟨List.all_eq_true.mpr fun e he => bne_iff_ne.mpr (hfree e he), List.mem_range.mpr hslot, fun k hk => ?_⟩
    obtain ⟨e, he, hek⟩ := htaken k hk
    rw [Bool.not_eq_true', List.all_eq_false]
    exact ⟨e, he, by simp [hek]⟩
  obtain ⟨d1, hwrite, hworks1, hbadgers, hcells, -⟩ := Works.ofWrite hq hclear n
  generalize hfirst : firstEntry table row step place x slot = e at *
  have hkey : isEntry table row step e = true := by rw [← hfirst]; simp [firstEntry, isEntry]
  have hworks2 := hworks1.trans (.ofModBadger n d1 tile fun b => { b with ledger := b.ledger ++ [e] })
  have hledger := ((ledgerOf.refl d tile).congr hbadgers).mod (f := fun b => { b with ledger := b.ledger ++ [e] }) (g := (· ++ [e])) fun _ => rfl
  obtain ⟨d3, hfetch, hcounted, hledger3⟩ := fetch_of_quiet (d := modBadger d1 tile fun b => { b with ledger := b.ledger ++ [e] }) (n := n)
    (tile := tile) (place := place) (t := t) (hworks2.quiet hq) (fun htier => (hworks2.frame.accessFault_eq hq.2.1 ..).trans (hfault htier))
    (!rowBusy (modBadger d1 tile fun b => { b with ledger := b.ledger ++ [e] }) tile table row step) e
  rw [hledger.same] at hledger3
  have hall := hledger.trans hledger3
  refine ⟨d3, ?_, hworks2.trans hcounted.works, ?_, fun k r p hne => ?_, hall.other, ?_⟩
  · simp only [addGradient, hfind, if_neg (Nat.not_le.mpr hroom), hsearch, Option.getD_some]
    unfold firstEntry at hfirst
    rw [hfirst, hwrite]
    dsimp only
    rw [hfetch]
  · rw [hall.findEntry_eq, List.find?_append, ← findEntry_eq, hfind]
    simp [hkey]
  · rw [hall.findEntry_eq, List.find?_append, ← findEntry_eq]
    simp [isEntry_other hkey hne]
  · rw [hcounted.mem_eq]
    exact hcells

end

/-! ## The last entry of a scatter (R212, R221, R224) -/

/-- How a scatter ends, or waits, after the gradient of its last entry, at position `k` of its list. -/
def scatterOutcome (tile : Nat) (n : OpName) (o : Op) (t : TableRec) (k : Nat) : Dev × AddOutcome → Dev
  | (d, .added) => completeOp (progress d n) n stOk
  | (d, .stop st) => completeOp d n st
  | (d, .full) =>
    if (getBadger d tile).ledger.all fun e => e.table != o.f 32 1 % 64 || e.step == o.step then
      completeOp (logEvent d evLedgerFull (.ring n.ring) 0) n stBadShape (o.f 32 1 % 64 + 2 ^ 32 * t.entries)
    else waitLedger d n o k

/-- Where the gradient row of entry `i` in bag `b` lies, outside a chute entry (R221). -/
def gradientAt (o : Op) (i b : Nat) : Nat := o.f 48 8 + (if o.f 33 1 = 3 then i else b) * o.f 44 4

/-- The bytes of a gradient row. -/
def gradientBytes (o : Op) (t : TableRec) : Nat := packedBytes (fmtOf (o.f 38 2)).code t.dim

/-- The gradient row of entry `i` in bag `b`, as memory holds it. -/
def gradient (d : Dev) (o : Op) (t : TableRec) (l : RowList) (i b : Nat) (bag : List Nat) : Lanes :=
  gradientOf o t l i bag (decodeRow (fmtOf (o.f 38 2)) t.dim (cellsRead d.mem.cells (gradientAt o i b) (gradientBytes o t)))

section
variable {d : Dev} {tile : Nat} {n : OpName} {o : Op} {t : TableRec} {l : RowList} {i b : Nat} {bag : List Nat}

/-- A null or foreign entry is passed over. -/
theorem scatterFrom_of_skipped (h : t.kind (l.ids.getD i 0) = .null ∨ t.kind (l.ids.getD i 0) = .foreign) (k : Nat) :
    scatterFrom tile n o t l (o.f 48 8) (o.f 44 4) none [(i, b, bag)] k d = completeOp d n stOk := by
  obtain hk | hk := h
  · simp only [scatterFrom, hk]
  · simp only [scatterFrom, hk]

/-- The gradient of an entry that this Badger holds enters the ledger. -/
theorem scatterFrom_of_mine {index : Nat} (hq : quietMemory d) (hk : t.kind (l.ids.getD i 0) = .mine index)
    (hmap : memClear d (t.map + 4 * index) 4) (hplaced : (mapOf d t index).1 ≠ 3)
    (hgrad : memClear d (gradientAt o i b) (gradientBytes o t)) (k : Nat) :
    ∃ d', Counted d d' ∧ scatterFrom tile n o t l (o.f 48 8) (o.f 44 4) none [(i, b, bag)] k d =
      scatterOutcome tile n o t k (addGradient d' tile n (o.f 32 1 % 64) t (BitVec.ofNat 64 (l.ids.getD i 0)) o.step (mapOf d t index)
        (gradient d o t l i b bag)) := by
  obtain ⟨d1, hreadMap, hc1⟩ := readMap_of_clear hmap n
  obtain ⟨d2, hread, hc2⟩ := read_of_clear ((Works.ofCounted n hc1).memClear hq hgrad) n
  unfold gradientAt gradientBytes at hread
  refine ⟨d2, hc1.trans hc2, ?_⟩
  simp only [scatterFrom, hk, hreadMap, if_neg hplaced, Option.any_none, Bool.false_eq_true, if_false, hread, hc1.mem_eq]
  unfold gradient gradientAt gradientBytes
  generalize addGradient d2 _ _ _ _ _ _ _ _ = r
  rcases r with ⟨d3, _ | _ | st⟩
  · rfl
  · rfl
  · rfl

/-- BADGER_SCATTER with its list in the Sett and its gradients in memory, once it is not skipped: it reads its list and goes on from where
it stands. -/
theorem badgerScatter_of_list {r : List (Nat × Nat × List Nat)} (hq : quietMemory d) (hat : badgerAt d 0x0402 n tile o t)
    (hskip : stepSkipped d o.step.toNat = false) (hctl : o.f 35 1 = 0)
    (hlist : (readList d n (sramBase tile + o.f 40 4) (tileCapacity tile - o.f 40 4)).2 = .ok l) (hleft : (scatterEntries l).drop o.done = r) :
    ∃ d1, Counted d d1 ∧ ∀ d', scatterFrom tile n o t l (o.f 48 8) (o.f 44 4) none r o.done d1 = d' → d'.fabric = d.fabric →
      badgerScatter n d = d' := by
  obtain ⟨d1, hread, hcounted⟩ := readList_of_ok hq hlist
  have hlow : bit 0 0 = false := by decide
  have hhigh : bit 0 1 = false := by decide
  refine ⟨d1, hcounted, fun d' hfrom hfabric => badgerOp_of_badgerAt hat ?_ hfabric⟩
  simp only [hskip, listSource, takeSource, hctl, hlow, hhigh, hread, hleft, Bool.not_false, if_true, Bool.false_eq_true, if_false]
  exact hfrom

/-- BADGER_SCATTER whose last entry is this Badger's, but for what its gradient finds in the ledger. -/
theorem badgerScatter_of_mine {index : Nat} (hq : quietMemory d) (hat : badgerAt d 0x0402 n tile o t)
    (hskip : stepSkipped d o.step.toNat = false) (hctl : o.f 35 1 = 0)
    (hlist : (readList d n (sramBase tile + o.f 40 4) (tileCapacity tile - o.f 40 4)).2 = .ok l)
    (hleft : (scatterEntries l).drop o.done = [(i, b, bag)]) (hk : t.kind (l.ids.getD i 0) = .mine index)
    (hmap : memClear d (t.map + 4 * index) 4) (hplaced : (mapOf d t index).1 ≠ 3)
    (hgrad : memClear d (gradientAt o i b) (gradientBytes o t)) :
    ∃ d1, Counted d d1 ∧ ∀ d', scatterOutcome tile n o t o.done (addGradient d1 tile n (o.f 32 1 % 64) t (BitVec.ofNat 64 (l.ids.getD i 0))
      o.step (mapOf d t index) (gradient d o t l i b bag)) = d' → d'.fabric = d.fabric → badgerScatter n d = d' := by
  obtain ⟨d1, hc1, hscatter⟩ := badgerScatter_of_list hq hat hskip hctl hlist hleft
  have hworks := Works.ofCounted n hc1
  have hsame : mapOf d1 t index = mapOf d t index := mapOf_congr hc1.mem_eq t index
  obtain ⟨d2, hc2, hfrom⟩ := scatterFrom_of_mine (tile := tile) (n := n) (bag := bag) (hworks.quiet hq) hk (hworks.memClear hq hmap)
    (by rw [hsame]; exact hplaced) (hworks.memClear hq hgrad) o.done
  rw [hsame, gradient, hc1.mem_eq, ← gradient] at hfrom
  exact ⟨d2, hc1.trans hc2, fun d' hout hfabric => hscatter d' (hfrom.trans hout) hfabric⟩

end

/-- BADGER_SCATTER of a skipped step (R225). -/
theorem exec_badgerScatter_skipped {s : State} {n : OpName} {o : Op} {tile : Nat} {t : TableRec} (hw : atWork s)
    (hat : badgerAt s.dev 0x0402 n tile o t) (hskip : stepSkipped s.dev o.step.toNat = true) :
    acts (.badgerScatter n.ring n.seq) s fun d => ended d n 0x02 0 ∧ { d with hub.rings := s.dev.hub.rings } = s.dev := by
  obtain ⟨r, hcomplete⟩ := completeOp_success (st := stStepSkipped) (by decide) s.dev n 0
  have hscatter : badgerScatter n s.dev = completeOp s.dev n stStepSkipped :=
    badgerOp_of_badgerAt hat (by simp only [hskip, if_true]) (by rw [hcomplete])
  obtain ⟨hexec, hended⟩ := ended_of_works hw hat.1 (.refl n s.dev) hscatter
  refine ⟨_, hexec, hended, ?_⟩
  rw [hcomplete]

section
variable {s : State} {n : OpName} {o : Op} {tile : Nat} {t : TableRec} {l : RowList} {i b : Nat} {bag : List Nat} (hw : atWork s)
  (hq : quietMemory s.dev) (hat : badgerAt s.dev 0x0402 n tile o t) (hskip : stepSkipped s.dev o.step.toNat = false) (hctl : o.f 35 1 = 0)
  (hlist : (readList s.dev n (sramBase tile + o.f 40 4) (tileCapacity tile - o.f 40 4)).2 = .ok l)
  (hleft : (scatterEntries l).drop o.done = [(i, b, bag)])
include hw hq hat hskip hctl hlist hleft

/-- BADGER_SCATTER whose last entry is null or foreign (R212). -/
theorem exec_badgerScatter_passed (h : t.kind (l.ids.getD i 0) = .null ∨ t.kind (l.ids.getD i 0) = .foreign) :
    acts (.badgerScatter n.ring n.seq) s fun d => ended d n 0x00 0 ∧ d.badgers = s.dev.badgers ∧ d.mem = s.dev.mem ∧ onlyTables s.dev d := by
  obtain ⟨d1, hcounted, hscatter⟩ := badgerScatter_of_list hq hat hskip hctl hlist hleft
  have hworks := Works.ofCounted n hcounted
  have hframe := hworks.frame.complete (st := stOk) (by decide) n 0
  obtain ⟨hexec, hended⟩ := ended_of_works hw hat.1 hworks (hscatter _ (scatterFrom_of_skipped h o.done) hframe.fabric_eq)
  exact ⟨_, hexec, hended, (completeOp_badgers ..).trans hcounted.badgers_eq, (completeOp_mem ..).trans hcounted.mem_eq, hframe.onlyTables⟩

section
variable {index : Nat} (hk : t.kind (l.ids.getD i 0) = .mine index) (hmap : memClear s.dev (t.map + 4 * index) 4)
  (hplaced : (mapOf s.dev t index).1 ≠ 3) (hgrad : memClear s.dev (gradientAt o i b) (gradientBytes o t))
include hk hmap hplaced hgrad

/-- BADGER_SCATTER whose last gradient the ledger takes as an entry. -/
theorem exec_badgerScatter_added {e : LedgerEntry}
    (hadd : ∀ d1, Counted s.dev d1 → ∃ d2, addGradient d1 tile n (o.f 32 1 % 64) t (BitVec.ofNat 64 (l.ids.getD i 0)) o.step (mapOf s.dev t index)
      (gradient s.dev o t l i b bag) = (d2, .added) ∧
      EntryStored n d1 d2 tile t (o.f 32 1 % 64) (BitVec.ofNat 64 (l.ids.getD i 0)) o.step e) :
    acts (.badgerScatter n.ring n.seq) s fun d => ended d n 0x00 0 ∧
      findEntry d tile (o.f 32 1 % 64) (BitVec.ofNat 64 (l.ids.getD i 0)) o.step = some e ∧
      (∀ k r p, (k, r, p) ≠ (o.f 32 1 % 64, BitVec.ofNat 64 (l.ids.getD i 0), o.step) → findEntry d tile k r p = findEntry s.dev tile k r p) ∧
      (∀ u, u ≠ tile → getBadger d u = getBadger s.dev u) ∧
      bytesStored s.dev d (ledgerAddr t e) (ledgerBytes t e) ∧ onlyTables s.dev d := by
  obtain ⟨d1, hcounted, hscatter⟩ := badgerScatter_of_mine hq hat hskip hctl hlist hleft hk hmap hplaced hgrad
  obtain ⟨d2, hadded, hstored1⟩ := hadd d1 hcounted
  have hstored := EntryStored.of_counted hcounted hstored1
  have hworks := hstored.works.trans (.ofProgress n d2)
  have hframe := hworks.frame.complete (st := stOk) (by decide) n 0
  obtain ⟨hexec, hended⟩ := ended_of_works hw hat.1 hworks (hscatter _ (by rw [hadded]; rfl) hframe.fabric_eq)
  have hbadgers : (completeOp (progress d2 n) n stOk 0).badgers = d2.badgers := (completeOp_badgers ..).trans (progress_badgers d2 n)
  have hfind (k : Nat) (r p : W64) : findEntry (completeOp (progress d2 n) n stOk 0) tile k r p = findEntry d2 tile k r p := by
    rw [findEntry, getBadger_congr hbadgers]
    rfl
  refine ⟨_, hexec, hended, (hfind ..).trans hstored.found, fun k r p hne => ?_, fun u hu => ?_, ?_, hframe.onlyTables⟩
  · rw [hfind, hstored.kept k r p hne]
  · rw [getBadger_congr hbadgers, hstored.other u hu]
  · refine bytesStored_of_write hq.1 ?_
    rw [completeOp_mem, progress_mem, hstored.cells, writeCells, List.foldl_cons, List.foldl_nil]

/-- BADGER_SCATTER whose last gradient finds all entries of its table taken, some by another step, waits (R224). -/
theorem exec_badgerScatter_waits
    (hfind : findEntry s.dev tile (o.f 32 1 % 64) (BitVec.ofNat 64 (l.ids.getD i 0)) o.step = none)
    (hfull : t.entries ≤ ((getBadger s.dev tile).ledger.filter fun e => e.table == o.f 32 1 % 64).length)
    (hother : ∃ e ∈ (getBadger s.dev tile).ledger.filter fun e => e.table == o.f 32 1 % 64, e.step ≠ o.step) :
    acts (.badgerScatter n.ring n.seq) s fun d =>
      (∃ p, issuedOp d n = some p ∧ p.waitsLedger = true ∧ p.done = o.done ∧
        p.stallFrom = some (if o.starting then deviceTime s.dev else o.stallFrom.getD (deviceTime s.dev))) ∧
      d.badgers = s.dev.badgers ∧ d.mem = s.dev.mem := by
  have ⟨_, _, hstalls⟩ := hw
  have ⟨hop, _, hcode, _⟩ := hat
  obtain ⟨d1, ⟨c, rfl⟩, hscatter⟩ := badgerScatter_of_mine hq hat hskip hctl hlist hleft hk hmap hplaced hgrad
  have hadd : addGradient { s.dev with counters := c } tile n (o.f 32 1 % 64) t (BitVec.ofNat 64 (l.ids.getD i 0)) o.step (mapOf s.dev t index)
      (gradient s.dev o t l i b bag) = ({ s.dev with counters := c }, .full) := by
    have hfind1 : findEntry { s.dev with counters := c } tile (o.f 32 1 % 64) (BitVec.ofNat 64 (l.ids.getD i 0)) o.step = none := hfind
    simp only [addGradient, hfind1]
    exact if_pos hfull
  have hmore : ((getBadger { s.dev with counters := c } tile).ledger.all fun e => e.table != o.f 32 1 % 64 || e.step == o.step) = false := by
    obtain ⟨e, he, hstep⟩ := hother
    obtain ⟨hmem, htable⟩ := List.mem_filter.mp he
    exact List.all_eq_false.mpr ⟨e, hmem, by simp [beq_iff_eq.mp htable, hstep]⟩
  have hwait : badgerScatter n s.dev = waitLedger { s.dev with counters := c } n o o.done :=
    hscatter _ (by rw [hadd, scatterOutcome, hmore]; rfl) rfl
  refine ⟨_, act_running hw hwait hstalls, ⟨_, issuedOp_modOp (d := { s.dev with counters := c }) hop (fun _ => rfl) rfl rfl, ?_, rfl, ?_⟩,
    rfl, rfl⟩
  · have hcode' : fld o.desc 0 2 = 0x0402 := hcode
    simp [Op.waitsLedger, Op.opcode, hcode']
  · cases o.stallFrom <;> cases o.starting <;> simp <;> rfl

end
end

/-! ## What the Cellar answers (R223, R228) -/

/-- Operations issued to a unit stand in a ring that targets it. -/
theorem mem_issuedTo {d : Dev} {u : Target} {e : Nat × Op} :
    e ∈ issuedTo d u ↔ ∃ r, (e.1, r) ∈ d.hub.rings ∧ targetOf r.target = some u ∧ e.2 ∈ r.ops ∧ e.2.phase = .issued ∧ 3 ≤ e.2.opcode := by
  have hinsert (x e : Nat × Op) (l : List (Nat × Op)) : e ∈ insertOp x l ↔ e = x ∨ e ∈ l := by
    induction l with
    | nil => simp [insertOp]
    | cons y l ih =>
      simp only [insertOp]
      split_ifs
      · simp
      · simp only [List.mem_cons, ih]
        tauto
  have hsort (l : List (Nat × Op)) : e ∈ l.foldr insertOp [] ↔ e ∈ l := by
    induction l with
    | nil => rfl
    | cons x l ih => rw [List.foldr_cons, hinsert, ih, List.mem_cons]
  unfold issuedTo
  dsimp only
  rw [hsort, List.mem_flatMap]
  constructor
  · rintro ⟨⟨k, r⟩, hr, he⟩
    split_ifs at he with htarget
    · obtain ⟨o, ho, rfl⟩ := List.mem_map.mp he
      obtain ⟨hmem, hp⟩ := List.mem_filter.mp ho
      simp only [Bool.and_eq_true, beq_iff_eq, decide_eq_true_eq] at hp
      exact ⟨r, hr, htarget, hmem, hp⟩
    · cases he
  · rintro ⟨r, hr, htarget, hmem, hphase, hcode⟩
    refine ⟨(e.1, r), hr, ?_⟩
    rw [if_pos htarget]
    exact List.mem_map.mpr ⟨e.2, List.mem_filter.mpr ⟨hmem, by simp [hphase, hcode]⟩, rfl⟩

/-- What a table holds after a put, it held before, or it is what was put. -/
theorem mem_tput {α : Type} {t : Table α} {k : Nat} {v : α} {e : Nat × α} (h : e ∈ tput t k v) : e = (k, v) ∨ e ∈ t := by
  induction t with
  | nil => simpa [tput] using h
  | cons c r ih =>
    simp only [tput] at h
    split_ifs at h
    · simpa using h
    · obtain rfl | h := List.mem_cons.mp h
      · exact .inl rfl
      · exact .inr (List.mem_cons_of_mem _ h)
    · obtain rfl | h := List.mem_cons.mp h
      · exact .inr List.mem_cons_self
      · exact (ih h).imp_right (List.mem_cons_of_mem _)

/-- What a key finds is listed under it. -/
theorem mem_of_tget {α : Type} {t : Table α} {k : Nat} {v : α} (h : tget t k = some v) : (k, v) ∈ t := by
  induction t with
  | nil => cases h
  | cons c r ih =>
    simp only [tget] at h
    split_ifs at h with hk
    · cases h
      rw [hk]
      exact List.mem_cons_self
    · exact List.mem_cons_of_mem _ (ih h)

/-- A change of an operation shows in the operations of a ring that has stood. -/
theorem mem_rings_modOp {d : Dev} {n : OpName} {f : Op → Op} {k : Nat} {r : Ring} (h : (k, r) ∈ (modOp d n f).hub.rings) :
    ∃ r0, (k, r0) ∈ d.hub.rings ∧ r.target = r0.target ∧ ∀ o ∈ r.ops, o ∈ r0.ops ∨ ∃ o0 ∈ r0.ops, o = f o0 := by
  have hold (h : (k, r) ∈ d.hub.rings) : ∃ r0, (k, r0) ∈ d.hub.rings ∧ r.target = r0.target ∧ ∀ o ∈ r.ops, o ∈ r0.ops ∨ ∃ o0 ∈ r0.ops, o = f o0 :=
    ⟨r, h, rfl, fun o ho => .inl ho⟩
  unfold modOp modRing tmod at h
  dsimp only at h
  split at h
  next => exact hold h
  next r0 hr0 =>
    obtain heq | h := mem_tput h
    · cases heq
      refine ⟨r0, mem_of_tget hr0, rfl, fun o ho => ?_⟩
      obtain ⟨o0, ho0, rfl⟩ := List.mem_map.mp ho
      split_ifs
      · exact .inr ⟨o0, ho0, rfl⟩
      · exact .inl ho0
    · exact hold h

/-- A write of an operation's outputs lets no update begin to wait. -/
theorem waitingUpdate_of_outs {d d' : Dev} {tile table : Nat} {step : W64} {n : OpName} {x : List (Nat × Nat)}
    (h : waitingUpdate d tile table step = none) (hrings : d'.hub.rings = (modOp d n fun o => { o with outs := o.outs ++ x }).hub.rings) :
    waitingUpdate d' tile table step = none := by
  rw [waitingUpdate, List.find?_eq_none] at h ⊢
  intro e he
  obtain ⟨r, hr, htarget, hmem, hphase, hcode⟩ := mem_issuedTo.mp he
  rw [hrings] at hr
  obtain ⟨r0, hr0, htarget0, hops⟩ := mem_rings_modOp hr
  rw [htarget0] at htarget
  obtain hold | ⟨o0, ho0, heq⟩ := hops _ hmem
  · exact h e (mem_issuedTo.mpr ⟨r0, hr0, htarget, hold, hphase, hcode⟩)
  · rw [heq] at hphase hcode ⊢
    exact h (e.1, o0) (mem_issuedTo.mpr ⟨r0, hr0, htarget, ho0, hphase, hcode⟩)

section
variable {d : Dev} {tile table : Nat} {row step : W64} {who : OpName} {t : TableRec} {e : LedgerEntry}

/-- An entry whose answer is kept in its place: the table's bytes of it are stored. -/
theorem storeEntry_of_clear {e1 : LedgerEntry} (hq : quietMemory d) (hkey : isEntry table row step e1 = true)
    (hfind : findEntry d tile table row step = some e) (hclear : memClear d (ledgerAddr t e1) (ledgerBytes t e1).length) :
    ∃ d' x, writeMem (modEntry d tile table row step fun _ => e1) (some who) (ledgerAddr t e1) (ledgerBytes t e1) = (d', none) ∧
      EntryStored who d d' tile t table row step e1 ∧ d'.hub.rings = (modOp d who fun o => { o with outs := o.outs ++ x }).hub.rings := by
  have hworks : Works who d (modEntry d tile table row step fun _ => e1) := .ofModBadger who d tile _
  obtain ⟨d', hwrite, hworks', hbadgers, hcells, hrings⟩ := Works.ofWrite (hworks.quiet hq) (hworks.memClear hq hclear) who
  have hentry (k : Nat) (r p : W64) : findEntry d' tile k r p = if (k, r, p) = (table, row, step) then some e1 else findEntry d tile k r p := by
    rw [findEntry, getBadger_congr hbadgers, ← findEntry]
    refine (findEntry_modEntry d tile (fun _ _ => hkey) k r p).trans (if_congr Iff.rfl ?_ rfl)
    rw [hfind]
    rfl
  refine ⟨d', [(ledgerAddr t e1, (ledgerBytes t e1).length)], hwrite, ⟨hworks.trans hworks', ?_, fun k r p hne => ?_, fun u hu => ?_, hcells⟩, hrings⟩
  · rw [hentry, if_pos rfl]
  · rw [hentry, if_neg hne]
  · rw [getBadger_congr hbadgers, modEntry, getBadger_modBadger_other d _ hu]

/-- An entry after the Cellar's answer: its record, or the failure of its fetch (R223). -/
def answeredEntry (d : Dev) (t : TableRec) (index : Nat) (e : LedgerEntry) : Option Byte → LedgerEntry
  | some st => { e with pending := false, failed := some st }
  | none => { e with pending := false, staging := rawRead d (recordAt d t index) t.layout }

/-- The Cellar's answer to the fetch of an entry's record is kept in the entry, and stored. -/
theorem entryAnswered_of_pending {index : Nat} {failed : Option Byte} (hq : quietMemory d) (hfind : findEntry d tile table row step = some e)
    (hk : t.kind row.toNat = .mine index) (hwriting : e.writing = false) (hmap : memClear d (t.map + 4 * index) 4)
    (hfault : accessFault d (recordAt d t index) t.layout false = none)
    (hclear : memClear d (ledgerAddr t (answeredEntry d t index e failed)) (ledgerBytes t (answeredEntry d t index e failed)).length) :
    ∃ x, EntryStored who d (entryAnswered d tile who t e failed) tile t table row step (answeredEntry d t index e failed) ∧
      (entryAnswered d tile who t e failed).hub.rings = (modOp d who fun o => { o with outs := o.outs ++ x }).hub.rings := by
  have hkey := isEntry_of_findEntry hfind
  obtain ⟨rfl, rfl, rfl⟩ : e.table = table ∧ e.row = row ∧ e.step = step := by simpa using isEntry_iff.mp hkey
  have hindex := index_of_mine hk
  cases failed with
  | some st =>
    obtain ⟨d', x, hwrite, hstored, hrings⟩ := storeEntry_of_clear (who := who) (e1 := answeredEntry d t index e (some st)) hq hkey hfind hclear
    have hanswer : entryAnswered d tile who t e (some st) = d' := by
      simp only [answeredEntry, hwriting] at hwrite
      simp only [entryAnswered, hwriting, Bool.false_eq_true, if_false, hwrite]
    rw [hanswer]
    exact ⟨x, hstored, hrings⟩
  | none =>
    obtain ⟨d1, hreadMap, hc1⟩ := readMap_of_clear hmap who
    have hworks1 := Works.ofCounted who hc1
    obtain ⟨d2, hread, hc2⟩ := readMem_of_quiet (hworks1.quiet hq) ((hworks1.frame.accessFault_eq hq.2.1 ..).trans hfault) none
    have hc := hc1.trans hc2
    have hworks := Works.ofCounted who hc
    have hraw : rawRead d1 (recordAt d t index) t.layout = rawRead d (recordAt d t index) t.layout := by
      obtain ⟨_, rfl⟩ := hc1
      rfl
    have hfind2 : findEntry d2 tile e.table e.row e.step = some e := by
      rw [findEntry, getBadger_congr hc.badgers_eq]
      exact hfind
    obtain ⟨d', x, hwrite, hstored, hrings⟩ := storeEntry_of_clear (who := who) (e1 := answeredEntry d t index e none) (hworks.quiet hq) hkey
      hfind2 (hworks.memClear hq hclear)
    have hanswer : entryAnswered d tile who t e none = d' := by
      simp only [answeredEntry, hwriting] at hwrite
      rw [hraw] at hread
      simp only [entryAnswered, hwriting, Bool.false_eq_true, if_false, hindex, hreadMap, hread, hwrite]
    rw [hanswer]
    refine ⟨x, EntryStored.of_counted hc hstored, hrings.trans ?_⟩
    obtain ⟨_, rfl⟩ := hc
    rfl

/-- The operation in whose name the Cellar's answer is taken while no update waits. -/
def recordAgent (t : TableRec) : OpName := { ring := t.updRing, seq := 0 }

/-- LEDGER_RECORD_ARRIVE while no update waits. -/
theorem ledgerRecordArrive_of_answer {failed : Option Byte} (hfind : findEntry d tile table row step = some e)
    (htable : getTable d tile table = some t) (hwait : waitingUpdate d tile table step = none)
    (hopen : e.writing = true ∨ e.pending = true ∧ rowBusy d tile table row step = false ∧
      (failed = none → awaits d (ledgerAgent tile table e.slot) = false))
    (hafter : waitingUpdate (entryAnswered d tile (recordAgent t) t e failed) tile table step = none) :
    ledgerRecordArrive tile table row step failed d = entryAnswered d tile (recordAgent t) t e failed := by
  have hheld : (e.writing || (e.pending && !(rowBusy d tile table row step || (failed.isNone && awaits d (ledgerAgent tile table e.slot))))) = true := by
    obtain hwriting | ⟨hpending, hbusy, hawaits⟩ := hopen
    · simp [hwriting]
    · cases failed with
      | none => simp [hpending, hbusy, hawaits rfl]
      | some st => simp [hpending, hbusy]
  unfold recordAgent at hafter ⊢
  simp only [ledgerRecordArrive, hfind, htable, hwait, hheld, Bool.not_true, Bool.false_eq_true, if_false, hafter]

end

section
variable {s : State} {tile table : Nat} {row step : W64} {t : TableRec} {e : LedgerEntry} {failed : Option Byte} (hw : atWork s)
  (hfind : findEntry s.dev tile table row step = some e) (htable : getTable s.dev tile table = some t)
  (hwait : waitingUpdate s.dev tile table step = none)
include hw hfind htable hwait

/-- LEDGER_RECORD_ARRIVE of the record that an entry waits for, or of its failure (R223). -/
theorem exec_ledgerRecordArrive_pending {index : Nat} (hq : quietMemory s.dev) (hk : t.kind row.toNat = .mine index) (hpending : e.pending = true)
    (hwriting : e.writing = false) (hbusy : rowBusy s.dev tile table row step = false)
    (hawaits : failed = none → awaits s.dev (ledgerAgent tile table e.slot) = false) (hmap : memClear s.dev (t.map + 4 * index) 4)
    (hfault : accessFault s.dev (recordAt s.dev t index) t.layout false = none)
    (hclear : memClear s.dev (ledgerAddr t (answeredEntry s.dev t index e failed)) (ledgerBytes t (answeredEntry s.dev t index e failed)).length) :
    acts (.ledgerRecordArrive tile table row step failed) s fun d =>
      findEntry d tile table row step = some (answeredEntry s.dev t index e failed) ∧
      (∀ k r p, (k, r, p) ≠ (table, row, step) → findEntry d tile k r p = findEntry s.dev tile k r p) ∧
      (∀ u, u ≠ tile → getBadger d u = getBadger s.dev u) ∧
      bytesStored s.dev d (ledgerAddr t (answeredEntry s.dev t index e failed)) (ledgerBytes t (answeredEntry s.dev t index e failed)) ∧
      onlyTables s.dev d := by
  have ⟨_, _, hstalls⟩ := hw
  obtain ⟨x, hstored, hrings⟩ := entryAnswered_of_pending (who := recordAgent t) hq hfind hk hwriting hmap hfault hclear
  have heq := ledgerRecordArrive_of_answer hfind htable hwait (.inr ⟨hpending, hbusy, hawaits⟩) (waitingUpdate_of_outs hwait hrings)
  refine ⟨_, act_running hw heq ?_, hstored.found, hstored.kept, hstored.other, bytesStored_of_write hq.1 ?_, hstored.works.frame.onlyTables⟩
  · rw [hstored.works.frame.granary_eq]
    exact hstalls
  · rw [hstored.cells, writeCells, List.foldl_cons, List.foldl_nil]

/-- LEDGER_RECORD_ARRIVE of the acknowledgement of a write-back, or of its failure (R228). -/
theorem exec_ledgerRecordArrive_writing (hwriting : e.writing = true) (hawaits : failed = none → awaits s.dev (recordAgent t) = false)
    (hothers : ∀ x ∈ (getBadger s.dev tile).ledger, x.table = table → x.row = row → x.step ≠ step → x.pending = false) :
    acts (.ledgerRecordArrive tile table row step failed) s fun d =>
      findEntry d tile table row step = failed.map (fun st => { e with writing := false, failed := some st }) ∧
      (∀ k r p, (k, r, p) ≠ (table, row, step) → findEntry d tile k r p = findEntry s.dev tile k r p) ∧
      (∀ u, u ≠ tile → getBadger d u = getBadger s.dev u) ∧ { d with badgers := s.dev.badgers } = s.dev := by
  have ⟨_, _, hstalls⟩ := hw
  have hkey := isEntry_of_findEntry hfind
  obtain ⟨rfl, rfl, rfl⟩ : e.table = table ∧ e.row = row ∧ e.step = step := by simpa using isEntry_iff.mp hkey
  cases failed with
  | none =>
    have hanswer : entryAnswered s.dev tile (recordAgent t) t e none = dropEntry s.dev tile e.table e.row e.step := by
      simp only [entryAnswered, hwriting, if_true, hawaits rfl, Bool.false_eq_true, if_false]
      exact freeEntry_of_alone hothers ..
    have heq := (ledgerRecordArrive_of_answer hfind htable hwait (.inl hwriting) (by rw [hanswer]; exact hwait)).trans hanswer
    refine ⟨_, act_running hw heq hstalls, ?_, fun k r p hne => ?_, fun u hu => getBadger_modBadger_other s.dev _ hu, rfl⟩
    · rw [findEntry_dropEntry, if_pos rfl]
      rfl
    · rw [findEntry_dropEntry, if_neg hne]
  | some st =>
    have hanswer : entryAnswered s.dev tile (recordAgent t) t e (some st) =
        modEntry s.dev tile e.table e.row e.step fun e => { e with writing := false, failed := some st } := by
      simp only [entryAnswered, hwriting, if_true]
    have heq := (ledgerRecordArrive_of_answer hfind htable hwait (.inl hwriting) (by rw [hanswer]; exact hwait)).trans hanswer
    have hsame (x : LedgerEntry) (hx : isEntry e.table e.row e.step x = true) :
        isEntry e.table e.row e.step { x with writing := false, failed := some st } = true := hx
    refine ⟨_, act_running hw heq hstalls, ?_, fun k r p hne => ?_, fun u hu => getBadger_modBadger_other s.dev _ hu, rfl⟩
    · rw [findEntry_modEntry s.dev tile hsame, if_pos rfl, hfind]
      rfl
    · rw [findEntry_modEntry s.dev tile hsame, if_neg hne]

end

/-! ## LEDGER_FULL (R224) -/

/-- LEDGER_FULL of a scatter that waits for ledger space. -/
theorem ledgerFull_of_waiting {d : Dev} {n : OpName} {o : Op} {since : Nat} (hop : issuedOp d n = some o) (hcode : o.opcode = 0x0402)
    (hfrom : o.stallFrom = some since) (hstarting : o.starting = false) :
    ledgerFull n d =
      if o.stallLogged = false ∧ since + ringLimit d n.ring * 1000000 < deviceTime d then
        logEvent (modOp d n fun o => { o with stallLogged := true }) evLedgerFull (.ring n.ring) 0
      else d := by
  have hwaits : o.waitsLedger = true := by simp [Op.waitsLedger, hcode, hfrom, hstarting]
  simp only [ledgerFull, hop, hwaits, hfrom, overdue_some, Bool.true_and, Bool.and_eq_true, Bool.not_eq_true', decide_eq_true_eq]

/-- LEDGER_FULL of a wait that has passed its limit for the first time. -/
theorem exec_ledgerFull_overdue {s : State} {n : OpName} {o : Op} (hw : atWork s) (hop : issuedOp s.dev n = some o)
    (heq : ledgerFull n s.dev = logEvent (modOp s.dev n fun o => { o with stallLogged := true }) evLedgerFull (.ring n.ring) 0) :
    acts (.ledgerFull n.ring n.seq) s fun d => recorded s.dev d 0x814 (.ring n.ring) 0 ∧
      issuedOp d n = some { o with stallLogged := true } ∧ d.mem = s.dev.mem ∧ d.badgers = s.dev.badgers := by
  have ⟨_, hhalt, hstalls⟩ := hw
  refine ⟨_, act_running hw heq (by rw [logEvent_granary]; exact hstalls), recorded_logEvent_modOp hhalt .., ?_, ?_, ?_⟩
  · rw [issuedOp, getOp_congr (logEvent_rings ..)]
    exact issuedOp_modOp hop (fun _ => rfl) rfl rfl
  · rw [logEvent_mem]
    rfl
  · rw [logEvent_badgers]
    rfl

/-! ## The statement -/

/-- Settles O41: the last entry of a scatter is passed over, added, put into a free place or made to wait by what it finds; an answer is
kept in its entry's place, frees it or marks it failed; and a wait is logged by one equation. -/
theorem badgerScatterAndLedger : Obligations.BadgerScatterAndLedger := by
  unfold Obligations.BadgerScatterAndLedger
  refine ⟨fun s n o tile t hw hat hskip => exec_badgerScatter_skipped hw hat hskip, ?scatter, ?pending, ?writing, ?full⟩
  case scatter =>
    intro s n o tile t l i b bag hw hplain hflips hborrows hat hskip hctl hlist hleft table g grad bytes
    have hq : quietMemory s.dev := ⟨hplain, hflips, hborrows⟩
    refine ⟨fun hpassed => exec_badgerScatter_passed hw hq hat hskip hctl hlist hleft hpassed, ?_⟩
    intro index hk hmap hplaced hgrad x taken mine
    cases hfind : findEntry s.dev tile table (BitVec.ofNat 64 g) o.step with
    | some e =>
      intro hread hclear
      refine exec_badgerScatter_added hw hq hat hskip hctl hlist hleft hk hmap hplaced hgrad fun d1 hcounted => ?_
      have hworks := Works.ofCounted n hcounted
      refine addGradient_of_found (hworks.quiet hq) ?_ (hworks.memClear hq hread) (hworks.memClear hq hclear)
      rw [findEntry, getBadger_congr hcounted.badgers_eq]
      exact hfind
    | none =>
      refine ⟨?_, fun hfull hother =>
        exec_badgerScatter_waits hw hq hat hskip hctl hlist hleft hk hmap hplaced hgrad hfind hfull hother⟩
      intro slot hslot htaken hfree hroom cellar hfault hclear
      refine exec_badgerScatter_added hw hq hat hskip hctl hlist hleft hk hmap hplaced hgrad fun d1 hcounted => ?_
      have hworks := Works.ofCounted n hcounted
      have hsame := getBadger_congr hcounted.badgers_eq tile
      refine addGradient_of_free (hworks.quiet hq) ?_ (by rw [hsame]; exact hroom) hslot (by rw [hsame]; exact htaken) (by rw [hsame]; exact hfree)
        (fun htier => ?_) (hworks.memClear hq hclear)
      · rw [findEntry, hsame]
        exact hfind
      · rw [hworks.frame.accessFault_eq hflips, ← htier]
        exact hfault (beq_iff_eq.mpr htier)
  case pending =>
    intro s tile table row step failed e t index hw hplain hflips hborrows hfind htable hk hpending hwriting hbusy hwait hawaits _ hmap hfault e1 hclear
    have he1 : answeredEntry s.dev t index e failed = e1 := by cases failed <;> rfl
    have hexec := exec_ledgerRecordArrive_pending (failed := failed) hw hfind htable hwait ⟨hplain, hflips, hborrows⟩ hk hpending hwriting hbusy
      hawaits hmap hfault
    rw [he1] at hexec
    exact hexec hclear
  case writing =>
    intro s tile table row step failed e t hw hfind htable hwriting hwait hawaits hothers
    exact exec_ledgerRecordArrive_writing hw hfind htable hwait hwriting hawaits hothers
  case full =>
    intro s n o since hw hop hcode hfrom hstarting
    have heq := ledgerFull_of_waiting hop hcode hfrom hstarting
    split_ifs with hover
    · exact exec_ledgerFull_overdue hw hop (heq.trans (if_pos hover))
    · exact act_running_same hw (heq.trans (if_neg hover))

end Sys2Proof.ScatterProofs
end

section
/-! SUPPORT. BADGER_UPDATE (R220, R225, R226, R228): the entries that an update finds, the record of one entry applied and written back, and
how the update ends or waits. -/

namespace Sys2Proof.UpdateProofs

open Sys2Proof Sys2Proof.Machine Sys2Proof.Safety Sys2Proof.HostProofs Sys2Proof.OrgProofs Sys2Proof.PoolingProofs Sys2Proof.MillProofs
  Sys2Proof.StoreProofs Sys2Proof.LoomStoreProofs Sys2Proof.BadgerProofs

/-! ## The entries of a table and step (R222) -/

/-- An entry is that of a table and step. -/
def ofStep (table : Nat) (step : W64) (e : LedgerEntry) : Bool := e.table == table && e.step == step

theorem stepEntries_eq (d : Dev) (tile table : Nat) (step : W64) :
    stepEntries d tile table step = (getBadger d tile).ledger.filter (ofStep table step) := rfl

theorem ofStep_of_isEntry {table : Nat} {row step : W64} {e : LedgerEntry} (h : isEntry table row step e = true) : ofStep table step e = true := by
  obtain ⟨rfl, -, rfl⟩ : e.table = table ∧ e.row = row ∧ e.step = step := by simpa using isEntry_iff.mp h
  simp [ofStep]

/-- The ledger without the entries of a table and step. -/
theorem find?_filter_ofStep {table k : Nat} {step r p : W64} (l : List LedgerEntry) :
    (l.filter fun e => !ofStep table step e).find? (isEntry k r p) = if k = table ∧ p = step then none else l.find? (isEntry k r p) := by
  rw [List.find?_filter]
  split_ifs with hsame
  · obtain ⟨rfl, rfl⟩ := hsame
    refine List.find?_eq_none.mpr fun e _ he => ?_
    simp only [Bool.decide_and, Bool.decide_eq_true, Bool.and_eq_true, Bool.not_eq_true'] at he
    obtain ⟨hother, hkey⟩ := he
    rw [ofStep_of_isEntry hkey] at hother
    cases hother
  · have hkey : (fun e => !ofStep table step e && isEntry k r p e) = isEntry k r p := by
      funext e
      cases he : isEntry k r p e with
      | false => rw [Bool.and_false]
      | true =>
        obtain ⟨rfl, -, rfl⟩ : e.table = k ∧ e.row = r ∧ e.step = p := by simpa using isEntry_iff.mp he
        have hother : ofStep table step e = false := Bool.eq_false_iff.mpr fun h => hsame (by simpa [ofStep] using h)
        rw [hother]
        rfl
    simp only [hkey, Bool.decide_and, Bool.decide_eq_true]

section
variable {d : Dev} {tile table : Nat} {step : W64} {e : LedgerEntry} (h : stepEntries d tile table step = [e])
include h

/-- The one entry of a table and step is in the ledger, under that table and step. -/
theorem mem_of_stepEntries : e ∈ (getBadger d tile).ledger ∧ e.table = table ∧ e.step = step := by
  rw [stepEntries_eq] at h
  obtain ⟨hmem, hkey⟩ := List.mem_filter.mp (h ▸ List.mem_singleton_self e)
  exact ⟨hmem, by simpa [ofStep] using hkey⟩

/-- It is found under its row. -/
theorem findEntry_of_stepEntries : findEntry d tile table e.row step = some e := by
  obtain ⟨-, htable, hstep⟩ := mem_of_stepEntries h
  have hkey : isEntry table e.row step e = true := isEntry_iff.mpr (by rw [htable, hstep])
  have hboth : (fun x => ofStep table step x && isEntry table e.row step x) = isEntry table e.row step := by
    funext x
    cases hx : isEntry table e.row step x with
    | false => rw [Bool.and_false]
    | true => rw [ofStep_of_isEntry hx]; rfl
  have hfind := List.find?_filter (xs := (getBadger d tile).ledger) (p := ofStep table step) (q := isEntry table e.row step)
  simp only [Bool.decide_and, Bool.decide_eq_true, hboth] at hfind
  rw [findEntry_eq, ← hfind, ← stepEntries_eq, h, List.find?_cons_of_pos hkey]

/-- A change of it leaves one entry of that table and step. -/
theorem stepEntries_modEntry {f : LedgerEntry → LedgerEntry}
    (hf : ∀ x, isEntry table e.row step x = true → isEntry table e.row step (f x) = true) :
    stepEntries (modEntry d tile table e.row step f) tile table step = [f e] := by
  obtain ⟨-, htable, hstep⟩ := mem_of_stepEntries h
  have hkey : isEntry table e.row step e = true := isEntry_iff.mpr (by rw [htable, hstep])
  have hcomp : ofStep table step ∘ (fun x => if isEntry table e.row step x then f x else x) = ofStep table step := by
    funext x
    simp only [Function.comp_apply]
    split_ifs with hx
    · rw [ofStep_of_isEntry hx, ofStep_of_isEntry (hf x hx)]
    · rfl
  have hledger := (ledgerOf.ofMod d tile fun b => { b with ledger := b.ledger.map fun x => if isEntry table e.row step x then f x else x }).same
  calc stepEntries (modEntry d tile table e.row step f) tile table step
    _ = ((getBadger d tile).ledger.map fun x => if isEntry table e.row step x then f x else x).filter (ofStep table step) :=
      congrArg (List.filter (ofStep table step)) hledger
    _ = (stepEntries d tile table step).map fun x => if isEntry table e.row step x then f x else x := by rw [List.filter_map, hcomp]; rfl
    _ = [f e] := by rw [h, List.map_singleton, if_pos hkey]

end

/-! ## The entry that an update finds (R228) -/

/-- The device once an update that begins anew has taken up what failed before. -/
def resumed (d : Dev) (tile : Nat) (n : OpName) (o : Op) (t : TableRec) : Dev :=
  if o.stallFrom.isSome then d else resumeEntries tile n t (stepEntries d tile (o.f 32 1 % 64) o.step) d

/-- An update's one entry, whose record has not failed, is taken up as it is, but for the mark that an update was told of a failure. -/
structure Resumed (n : OpName) (d d0 : Dev) (tile table : Nat) (step : W64) (e : LedgerEntry) (told : Bool) : Prop where
  works : Works n d d0
  mem_eq : d0.mem = d.mem
  entries : stepEntries d0 tile table step = [{ e with told := told }]
  kept : ∀ k r p, (k, r, p) ≠ (table, e.row, step) → findEntry d0 tile k r p = findEntry d tile k r p
  other : ∀ u, u ≠ tile → getBadger d0 u = getBadger d u
  others : ∀ x ∈ (getBadger d0 tile).ledger, x.step ≠ step → x ∈ (getBadger d tile).ledger

theorem resumed_of_single {d : Dev} {tile : Nat} {n : OpName} {o : Op} {t : TableRec} {e : LedgerEntry}
    (h : stepEntries d tile (o.f 32 1 % 64) o.step = [e]) (hpending : e.pending = false) (hfailed : e.failed = none) (hwriting : e.writing = false) :
    ∃ told, Resumed n d (resumed d tile n o t) tile (o.f 32 1 % 64) o.step e told := by
  unfold resumed
  split_ifs with hstalled
  · exact ⟨e.told, .refl n d, rfl, h, fun _ _ _ _ => rfl, fun _ _ => rfl, fun _ hx _ => hx⟩
  · obtain ⟨-, htable, hstep⟩ := mem_of_stepEntries h
    have hkey : isEntry (o.f 32 1 % 64) e.row o.step { e with told := false } = true := isEntry_iff.mpr (by rw [← htable, ← hstep])
    have hresume : resumeEntries tile n t (stepEntries d tile (o.f 32 1 % 64) o.step) d =
        modEntry d tile (o.f 32 1 % 64) e.row o.step fun _ => { e with told := false } := by
      rw [h, ← htable, ← hstep]
      cases e
      cases hpending
      cases hfailed
      cases hwriting
      simp [resumeEntries]
    rw [hresume]
    refine ⟨false, .ofModBadger n d tile _, rfl, stepEntries_modEntry h fun _ _ => hkey, fun k r p hne => ?_,
      fun u hu => getBadger_modBadger_other d _ hu, fun x hx hother => ?_⟩
    · rw [findEntry_modEntry d tile fun _ _ => hkey, if_neg hne]
    · rw [modEntry, getBadger_modBadger] at hx
      obtain ⟨y, hy, rfl⟩ := List.mem_map.mp hx
      split_ifs at hother ⊢ with hy'
      · exact absurd hstep hother
      · exact hy

/-! ## One entry applied (R227, R228) -/

/-- The record that an entry's gradients are applied to: its staging copy, or what memory holds for its row. -/
def recordBefore (d : Dev) (t : TableRec) (index : Nat) (e : LedgerEntry) : Bytes :=
  if e.cellar then e.staging else cellsRead d.mem.cells (recordAt d t index) t.layout

/-- The record that an update writes back for an entry, and the facts of its conversions. -/
def recordAfter (d : Dev) (o : Op) (t : TableRec) (index : Nat) (e : LedgerEntry) : Bytes × List CensusAdd :=
  updateRecord t (updParams (cellsRead d.mem.cells (o.f 40 8) 64)) (o.f 34 1 % 16) d.steps.num.seed o.step e.row.toNat e.acc
    (slice (recordBefore d t index e) 0 t.layout)

/-- It depends on memory and on the seed of the steps. -/
theorem recordAfter_congr {d d' : Dev} (hmem : d'.mem = d.mem) (hsteps : d'.steps = d.steps) (o : Op) (t : TableRec) (index : Nat)
    (e : LedgerEntry) : recordAfter d' o t index e = recordAfter d o t index e := by
  unfold recordAfter recordBefore recordAt
  rw [hmem, hsteps, mapOf_congr hmem]

/-- So the record of an update's one entry, and its place, are those of the device that the update began on. -/
theorem Resumed.record_eq {n : OpName} {d d0 : Dev} {tile table : Nat} {step : W64} {e : LedgerEntry} {told : Bool} {o : Op} {t : TableRec}
    {index : Nat} (h : Resumed n d d0 tile table step e told) :
    mapOf d0 t index = mapOf d t index ∧ recordAt d0 t index = recordAt d t index ∧
      recordAfter d0 o t index { e with told := told } = recordAfter d o t index e := by
  have hsame := mapOf_congr h.mem_eq t index
  exact ⟨hsame, by rw [recordAt, hsame], recordAfter_congr h.mem_eq h.works.frame.steps_eq o t index e⟩

/-- What an update does with an entry whose record has been written back (R228). -/
def entryApplied (tile : Nat) (n : OpName) (t : TableRec) (tier : Nat) (e : LedgerEntry) (added : List CensusAdd) (d : Dev) : Dev :=
  let d1 := modOp d n fun o => { o with census := o.census ++ added }
  if tier = 2 then modEntry d1 tile e.table e.row e.step fun e => { e with writing := true } else progress (freeEntry d1 tile n t e) n

section
variable {d : Dev} {tile : Nat} {n : OpName} {o : Op} {t : TableRec} {e : LedgerEntry} {index : Nat}

/-- The record of an entry is at hand: it has been fetched, or is read. -/
theorem record_of_clear (hq : quietMemory d) (hclear : e.cellar = false → memClear d (recordAt d t index) t.layout) :
    ∃ d', (if e.cellar = true then (d, .ok e.staging) else readMem (countRow d tile (mapOf d t index).1 n.ring) (some n) (recordAt d t index) t.layout) =
        (d', .ok (recordBefore d t index e)) ∧ RowsCounted n d d' ∧ ledgerOf d d' tile (getBadger d tile).ledger := by
  unfold recordBefore
  cases hcellar : e.cellar with
  | true => exact ⟨d, rfl, .refl n d, .refl d tile⟩
  | false =>
    have hcounted := RowsCounted.ofCountRow n d tile (mapOf d t index).1 n.ring
    obtain ⟨d', hread, hc⟩ := read_of_clear (hcounted.works.memClear hq (hclear hcellar)) n
    rw [hcounted.mem_eq] at hread
    exact ⟨d', hread, hcounted.trans (.ofCounted n hc), (ledgerOf_countRow ..).congr hc.badgers_eq⟩

/-- An entry whose record is at hand is applied as its record's write goes. -/
theorem applyEntry_of_record (hq : quietMemory d) (hindex : e.row.toNat / t.rowMod = index) (hplace : (mapOf d t index).1 = 2 → e.cellar = true)
    (hentry : memClear d (ledgerAddr t e) t.entryBytes) (hmap : memClear d (t.map + 4 * index) 4)
    (hrecord : e.cellar = false → memClear d (recordAt d t index) t.layout) :
    ∃ d2, RowsCounted n d d2 ∧ ledgerOf d d2 tile (getBadger d tile).ledger ∧
      ∀ d3, writeMem d2 (some n) (recordAt d t index) (recordAfter d o t index e).1 = (d3, none) →
        applyEntry d tile n o t (updParams (cellsRead d.mem.cells (o.f 40 8) 64)) e =
          (entryApplied tile n t (mapOf d t index).1 e (recordAfter d o t index e).2 d3, none) := by
  obtain ⟨d0, hread, hc0⟩ := read_of_clear hentry n
  have hw0 := Works.ofCounted n hc0
  obtain ⟨d1, hreadMap, hc1⟩ := readMap_of_clear (hw0.memClear hq hmap) n
  rw [mapOf_congr hc0.mem_eq] at hreadMap
  have hc := hc0.trans hc1
  have hw := Works.ofCounted n hc
  have hsame := mapOf_congr hc.mem_eq t index
  obtain ⟨d2, hrec, hcounted, hledger⟩ := record_of_clear (tile := tile) (n := n) (e := e) (index := index) (t := t) (hw.quiet hq) fun hcellar => by
    rw [recordAt, hsame]
    exact hw.memClear hq (hrecord hcellar)
  have hbefore : recordBefore d1 t index e = recordBefore d t index e := by
    unfold recordBefore recordAt
    rw [hc.mem_eq, hsame]
  rw [recordAt, hsame, hbefore] at hrec
  have hall := (RowsCounted.ofCounted n hc).trans hcounted
  refine ⟨d2, hall, ⟨hledger.same.trans (congrArg _ (getBadger_congr hc.badgers_eq tile)),
    fun u hu => (hledger.other u hu).trans (getBadger_congr hc.badgers_eq u)⟩, fun d3 hwrite => ?_⟩
  have hnotMoved : (!e.cellar && decide ((mapOf d t index).1 = 2)) = false := by
    cases hcellar : e.cellar with
    | true => rfl
    | false =>
      have hmoved : (mapOf d t index).1 ≠ 2 := fun h => Bool.false_ne_true (hcellar.symm.trans (hplace h))
      simp [hmoved]
  simp only [applyEntry, hread, hindex, hreadMap, hnotMoved, Bool.false_eq_true, if_false, hrec, hall.works.frame.steps_eq]
  unfold recordAfter recordAt at hwrite
  rw [hwrite]
  rfl


/-- An entry whose row lies outside the Cellar is updated in its place and freed (R228). -/
theorem applyEntry_of_placed (hq : quietMemory d) (hindex : e.row.toNat / t.rowMod = index) (hplace : (mapOf d t index).1 ≠ 2)
    (hentry : memClear d (ledgerAddr t e) t.entryBytes) (hmap : memClear d (t.map + 4 * index) 4)
    (hrecord : memClear d (recordAt d t index) t.layout)
    (hclear : memClear d (recordAt d t index) (recordAfter d o t index e).1.length)
    (halone : ∀ x ∈ (getBadger d tile).ledger, x.table = e.table → x.row = e.row → x.step ≠ e.step → x.pending = false) :
    ∃ d', applyEntry d tile n o t (updParams (cellsRead d.mem.cells (o.f 40 8) 64)) e = (d', none) ∧ Works n d d' ∧
      ledgerOf d d' tile ((getBadger d tile).ledger.filter fun x => !isEntry e.table e.row e.step x) ∧
      d'.mem.cells = cellsWrite d.mem.cells (recordAt d t index) (recordAfter d o t index e).1 := by
  obtain ⟨d2, hcounted, hledger, happly⟩ := applyEntry_of_record (tile := tile) (n := n) (o := o) hq hindex (absurd · hplace) hentry hmap
    fun _ => hrecord
  obtain ⟨d3, hwrite, hworks, hbadgers, hcells, -⟩ := Works.ofWrite (hcounted.works.quiet hq) (hcounted.works.memClear hq hclear) n
  have hledger3 := hledger.congr hbadgers
  generalize (recordAfter d o t index e).2 = added at happly
  obtain ⟨d4, hd4⟩ : ∃ d4, modOp d3 n (fun o => { o with census := o.census ++ added }) = d4 := ⟨_, rfl⟩
  have hworks4 : Works n d3 d4 := hd4 ▸ .ofModOp n d3 (fun _ => rfl) (fun _ => rfl) (fun _ => rfl) fun _ => rfl
  have hledger4 : ledgerOf d d4 tile (getBadger d tile).ledger := hledger3.congr (hd4 ▸ rfl)
  have hfreed : freeEntry d4 tile n t e = dropEntry d4 tile e.table e.row e.step := freeEntry_of_alone (by rw [hledger4.same]; exact halone) n t
  have happlied : entryApplied tile n t (mapOf d t index).1 e added d3 = progress (dropEntry d4 tile e.table e.row e.step) n := by
    simp only [entryApplied, if_neg hplace, hd4, hfreed]
  refine ⟨_, (happly d3 hwrite).trans (by rw [happlied]), ?_, ?_, ?_⟩
  · exact (((hcounted.works.trans hworks).trans hworks4).trans (.ofModBadger n d4 tile _)).trans (.ofProgress n _)
  · exact (hledger4.mod (g := List.filter fun x => !isEntry e.table e.row e.step x) fun _ => rfl).congr (progress_badgers ..)
  · rw [progress_mem, ← hcounted.mem_eq, ← hcells, ← hd4]
    rfl

/-- An entry whose row lies in the Cellar is written back, and its write is to be acknowledged (R228). -/
theorem applyEntry_of_cellar {o0 : Op} (hq : quietMemory d) (hop : issuedOp d n = some o0) (hindex : e.row.toNat / t.rowMod = index)
    (hplace : (mapOf d t index).1 = 2)
    (hcellar : e.cellar = true) (hentry : memClear d (ledgerAddr t e) t.entryBytes) (hmap : memClear d (t.map + 4 * index) 4)
    (hfault : accessFault d (recordAt d t index) (recordAfter d o t index e).1.length true = none) :
    ∃ d', applyEntry d tile n o t (updParams (cellsRead d.mem.cells (o.f 40 8) 64)) e =
        (modEntry d' tile e.table e.row e.step fun x => { x with writing := true }, none) ∧
      ledgerOf d d' tile (getBadger d tile).ledger ∧ d'.granary = d.granary ∧ d'.fabric = d.fabric ∧ ∃ p, issuedOp d' n = some p := by
  obtain ⟨d2, hcounted, hledger, happly⟩ := applyEntry_of_record (tile := tile) (n := n) (o := o) hq hindex (fun _ => hcellar) hentry hmap
    fun h => absurd (h.symm.trans hcellar) Bool.false_ne_true
  have hframe := hcounted.works.frame
  obtain ⟨c, hwrite⟩ := writeMem_of_quiet (hcounted.works.quiet hq) ((hframe.accessFault_eq hq.2.1 ..).trans hfault) n
  obtain ⟨m, hraw⟩ := rawWrite_frame { d2 with counters := c } (recordAt d t index) (recordAfter d o t index e).1
  rw [hraw] at hwrite
  obtain ⟨p, hp, -⟩ := hcounted.works.stands o0 hop
  refine ⟨_, (happly _ hwrite).trans (by rw [entryApplied, if_pos hplace]), ?_, ?_, ?_, ?_⟩
  · exact hledger.congr rfl
  · exact hframe.granary_eq
  · exact hframe.fabric_eq
  · exact ⟨_, issuedOp_modOp (issuedOp_modOp (d := { d2 with counters := c, mem := m }) hp (fun _ => rfl) rfl rfl) (fun _ => rfl) rfl rfl⟩

end

/-! ## How an update goes on (R225, R228) -/

/-- How an update ends, or waits, after the entries that it could apply. -/
def updateOutcome (tile : Nat) (n : OpName) (o : Op) : Dev × Option Byte → Dev
  | (d, some st) => completeOp (modEntries d tile (o.f 32 1 % 64) o.step fun e => { e with told := e.failed.isSome }) n st
  | (d, none) => if (stepEntries d tile (o.f 32 1 % 64) o.step).isEmpty then completeOp d n stOk else waitOn d n

section
variable {d : Dev} {tile : Nat} {n : OpName} {o : Op} {t : TableRec}

/-- An update reads its parameters and applies what it can. -/
theorem updateOn_of_clear (hparams : memClear d (o.f 40 8) 64) :
    ∃ d', Counted d d' ∧ updateOn tile n o t d = updateOutcome tile n o
      (applyEntries tile n o t (updParams (cellsRead d.mem.cells (o.f 40 8) 64)) (stepEntries d tile (o.f 32 1 % 64) o.step) d') := by
  obtain ⟨d', hread, hcounted⟩ := read_of_clear hparams n
  have hentries : stepEntries d' tile (o.f 32 1 % 64) o.step = stepEntries d tile (o.f 32 1 % 64) o.step := by
    rw [stepEntries, getBadger_congr hcounted.badgers_eq]
    rfl
  refine ⟨d', hcounted, ?_⟩
  simp only [updateOn, hread, hentries]
  generalize applyEntries _ _ _ _ _ _ _ = r
  obtain ⟨d2, _ | st⟩ := r
  · rfl
  · rfl

/-- With one entry, whose record is at hand and has not failed, all turns on that entry. -/
theorem applyEntries_single {e : LedgerEntry} (hpending : e.pending = false) (hwriting : e.writing = false) (hfailed : e.failed = none) (p : UpdParams) :
    applyEntries tile n o t p [e] d = applyEntry d tile n o t p e := by
  simp only [applyEntries, hpending, hwriting, hfailed, Bool.or_self, Bool.false_eq_true, if_false]
  generalize applyEntry _ _ _ _ _ _ _ = r
  obtain ⟨d2, _ | st⟩ := r
  · rfl
  · rfl

/-- BADGER_UPDATE under APPLY. -/
theorem badgerUpdate_of_apply {d' : Dev} (hat : badgerAt d 0x0403 n tile o t) (hskip : stepSkipped d o.step.toNat = false)
    (heq : updateOn tile n o t (resumed d tile n o t) = d') (hfabric : d'.fabric = d.fabric) : badgerUpdate n d = d' := by
  refine badgerOp_of_badgerAt hat ?_ hfabric
  simp only [hskip, Bool.false_eq_true, if_false]
  exact heq

/-- The one entry of an update is what it applies, on a device that has kept all else. -/
theorem badgerUpdate_of_single {e : LedgerEntry} (hq : quietMemory d) (hat : badgerAt d 0x0403 n tile o t)
    (hskip : stepSkipped d o.step.toNat = false) (hparams : memClear d (o.f 40 8) 64)
    (hsingle : stepEntries d tile (o.f 32 1 % 64) o.step = [e]) (hpending : e.pending = false) (hfailed : e.failed = none)
    (hwriting : e.writing = false) :
    ∃ told d1, Resumed n d d1 tile (o.f 32 1 % 64) o.step e told ∧ ∀ d',
      updateOutcome tile n o (applyEntry d1 tile n o t (updParams (cellsRead d1.mem.cells (o.f 40 8) 64)) { e with told := told }) = d' →
      d'.fabric = d.fabric → badgerUpdate n d = d' := by
  obtain ⟨told, h0⟩ := resumed_of_single (n := n) (t := t) hsingle hpending hfailed hwriting
  obtain ⟨d1, hcounted, hupdate⟩ := updateOn_of_clear (d := resumed d tile n o t) (tile := tile) (n := n) (o := o) (t := t)
    (h0.works.memClear hq hparams)
  rw [h0.entries, applyEntries_single (by exact hpending) (by exact hwriting) (by exact hfailed), ← hcounted.mem_eq] at hupdate
  have hsame := getBadger_congr hcounted.badgers_eq
  refine ⟨told, d1, ⟨h0.works.trans (.ofCounted n hcounted), hcounted.mem_eq.trans h0.mem_eq, ?_, fun k r p hne => ?_, fun u hu => ?_,
    fun x hx => ?_⟩, fun d' hout hfabric => badgerUpdate_of_apply hat hskip (hupdate.trans hout) hfabric⟩
  · rw [stepEntries, hsame]
    exact h0.entries
  · rw [findEntry, hsame]
    exact h0.kept k r p hne
  · rw [hsame, h0.other u hu]
  · rw [hsame] at hx
    exact h0.others x hx

/-- BADGER_UPDATE of a skipped step discards the step's entries of its table (R225). -/
theorem badgerUpdate_of_skip (hat : badgerAt d 0x0403 n tile o t) (hskip : stepSkipped d o.step.toNat = true) :
    badgerUpdate n d =
      completeOp (modBadger d tile fun b => { b with ledger := b.ledger.filter fun e => !ofStep (o.f 32 1 % 64) o.step e }) n stStepSkipped := by
  refine badgerOp_of_badgerAt hat (by simp only [hskip, if_true]; rfl) ?_
  obtain ⟨r, e⟩ := completeOp_success (st := stStepSkipped) (by decide)
    (modBadger d tile fun b => { b with ledger := b.ledger.filter fun e => !ofStep (o.f 32 1 % 64) o.step e }) n 0
  rw [e]
  rfl

end

section
variable {s : State} {n : OpName} {o : Op} {tile : Nat} {t : TableRec} (hw : atWork s) (hat : badgerAt s.dev 0x0403 n tile o t)
include hw hat

/-- BADGER_UPDATE of a skipped step (R225). -/
theorem exec_badgerUpdate_skipped (hskip : stepSkipped s.dev o.step.toNat = true) :
    acts (.badgerUpdate n.ring n.seq) s fun d => ended d n 0x02 0 ∧ (∀ r, findEntry d tile (o.f 32 1 % 64) r o.step = none) ∧ d.mem = s.dev.mem ∧
      ∀ k r p, k ≠ o.f 32 1 % 64 ∨ p ≠ o.step → findEntry d tile k r p = findEntry s.dev tile k r p := by
  obtain ⟨hexec, hended⟩ := ended_of_works hw hat.1 (.ofModBadger n s.dev tile _) (badgerUpdate_of_skip hat hskip)
  have hledger := ((ledgerOf.refl s.dev tile).mod (g := List.filter fun e => !ofStep (o.f 32 1 % 64) o.step e) fun _ => rfl).congr
    (completeOp_badgers (modBadger s.dev tile fun b => { b with ledger := b.ledger.filter fun e => !ofStep (o.f 32 1 % 64) o.step e }) n stStepSkipped 0)
  have hfind (k : Nat) (r p : W64) := (hledger.findEntry_eq k r p).trans (find?_filter_ofStep _)
  refine ⟨_, hexec, hended, fun r => ?_, completeOp_mem .., fun k r p hne => ?_⟩
  · rw [hfind, if_pos ⟨rfl, rfl⟩]
  · rw [hfind, if_neg fun h => hne.elim (absurd h.1) (absurd h.2)]
    rfl

variable (hskip : stepSkipped s.dev o.step.toNat = false) (hparams : memClear s.dev (o.f 40 8) 64)
include hskip hparams

/-- BADGER_UPDATE with no entry to apply (R228). -/
theorem exec_badgerUpdate_empty (hnone : stepEntries s.dev tile (o.f 32 1 % 64) o.step = []) :
    acts (.badgerUpdate n.ring n.seq) s fun d => ended d n 0x00 0 ∧ d.mem = s.dev.mem ∧ badgersKept s.dev d := by
  obtain ⟨d1, hcounted, hupdate⟩ := updateOn_of_clear (tile := tile) (n := n) (t := t) hparams
  have hworks := Works.ofCounted n hcounted
  have hnone1 : stepEntries d1 tile (o.f 32 1 % 64) o.step = [] := by
    rw [stepEntries, getBadger_congr hcounted.badgers_eq]
    exact hnone
  have hresumed : resumed s.dev tile n o t = s.dev := by rw [resumed, hnone, resumeEntries, ite_self]
  have hdone : updateOn tile n o t (resumed s.dev tile n o t) = completeOp d1 n stOk := by
    rw [hresumed, hupdate, hnone, applyEntries, updateOutcome, hnone1]
    rfl
  have hframe := hworks.frame.complete (st := stOk) (by decide) n 0
  obtain ⟨hexec, hended⟩ := ended_of_works hw hat.1 hworks (badgerUpdate_of_apply hat hskip hdone hframe.fabric_eq)
  exact ⟨_, hexec, hended, (completeOp_mem ..).trans hcounted.mem_eq, badgersKept_of_eq ((completeOp_badgers ..).trans hcounted.badgers_eq)⟩

section
variable {e : LedgerEntry} {index : Nat} (hq : quietMemory s.dev) (hsingle : stepEntries s.dev tile (o.f 32 1 % 64) o.step = [e])
  (hpending : e.pending = false) (hfailed : e.failed = none) (hwriting : e.writing = false) (hk : t.kind e.row.toNat = .mine index)
  (hentry : memClear s.dev (ledgerAddr t e) t.entryBytes) (hmap : memClear s.dev (t.map + 4 * index) 4)
include hq hsingle hpending hfailed hwriting hk hentry hmap

/-- BADGER_UPDATE whose one entry has its row outside the Cellar (R227, R228). -/
theorem exec_badgerUpdate_placed (hplace : (mapOf s.dev t index).1 ≠ 2) (hrecord : memClear s.dev (recordAt s.dev t index) t.layout)
    (hclear : memClear s.dev (recordAt s.dev t index) (recordAfter s.dev o t index e).1.length)
    (halone : ∀ x ∈ (getBadger s.dev tile).ledger, x.table = o.f 32 1 % 64 → x.row = e.row → x.step ≠ o.step → x.pending = false) :
    acts (.badgerUpdate n.ring n.seq) s fun d => ended d n 0x00 0 ∧ bytesStored s.dev d (recordAt s.dev t index) (recordAfter s.dev o t index e).1 ∧
      findEntry d tile (o.f 32 1 % 64) e.row o.step = none ∧
      (∀ k r p, (k, r, p) ≠ (o.f 32 1 % 64, e.row, o.step) → findEntry d tile k r p = findEntry s.dev tile k r p) ∧
      (∀ u, u ≠ tile → getBadger d u = getBadger s.dev u) ∧ onlyTables s.dev d := by
  obtain ⟨-, htable, hstep⟩ := mem_of_stepEntries hsingle
  obtain ⟨told, d1, h1, hupdate⟩ := badgerUpdate_of_single hq hat hskip hparams hsingle hpending hfailed hwriting
  obtain ⟨hsame, hrecordAt, hafter⟩ := h1.record_eq (o := o) (t := t) (index := index)
  obtain ⟨d2, happly, hworks2, hledger, hcells⟩ := applyEntry_of_placed (e := { e with told := told }) (tile := tile) (n := n) (o := o) (t := t)
    (h1.works.quiet hq) (index_of_mine hk) (by rw [hsame]; exact hplace) (h1.works.memClear hq hentry) (h1.works.memClear hq hmap)
    (by rw [hrecordAt]; exact h1.works.memClear hq hrecord) (by rw [hrecordAt, hafter]; exact h1.works.memClear hq hclear)
    fun x hx htab hrow hother => by
      rw [hstep] at hother
      exact halone x (h1.others x hx hother) (htab.trans htable) hrow hother
  rw [hrecordAt, hafter, h1.mem_eq] at hcells
  dsimp only at hledger
  rw [htable, hstep] at hledger
  have hnone : stepEntries d2 tile (o.f 32 1 % 64) o.step = [] := by
    have hkey : isEntry (o.f 32 1 % 64) e.row o.step { e with told := told } = true := isEntry_iff.mpr (by rw [← htable, ← hstep])
    rw [stepEntries_eq, hledger.same, List.filter_comm, ← stepEntries_eq, h1.entries]
    simp [hkey]
  have hworks := h1.works.trans hworks2
  have hframe := hworks.frame.complete (st := stOk) (by decide) n 0
  obtain ⟨hexec, hended⟩ := ended_of_works hw hat.1 hworks (hupdate _ (by rw [happly, updateOutcome, hnone]; rfl) hframe.fabric_eq)
  have hfind (k : Nat) (r p : W64) : findEntry (completeOp d2 n stOk 0) tile k r p =
      if (k, r, p) = (o.f 32 1 % 64, e.row, o.step) then none else findEntry d1 tile k r p :=
    ((hledger.congr (completeOp_badgers d2 n stOk 0)).findEntry_eq k r p).trans (find?_filter_isEntry _)
  refine ⟨_, hexec, hended, bytesStored_of_write hq.1 ?_, ?_, fun k r p hne => ?_, fun u hu => ?_, hframe.onlyTables⟩
  · rw [completeOp_mem, hcells, writeCells, List.foldl_cons, List.foldl_nil]
  · rw [hfind, if_pos rfl]
  · rw [hfind, if_neg hne, h1.kept k r p hne]
  · rw [getBadger_congr (completeOp_badgers ..), hledger.other u hu, h1.other u hu]

/-- BADGER_UPDATE whose one entry has its row in the Cellar waits for the acknowledgement of its write (R228). -/
theorem exec_badgerUpdate_cellar (hplace : (mapOf s.dev t index).1 = 2) (hcellar : e.cellar = true)
    (hfault : accessFault s.dev (recordAt s.dev t index) (recordAfter s.dev o t index e).1.length true = none) :
    acts (.badgerUpdate n.ring n.seq) s fun d => (∃ p, issuedOp d n = some p ∧ p.stallFrom.isSome = true) ∧
      (findEntry d tile (o.f 32 1 % 64) e.row o.step).map (·.writing) = some true ∧
      ∀ k r p, (k, r, p) ≠ (o.f 32 1 % 64, e.row, o.step) → findEntry d tile k r p = findEntry s.dev tile k r p := by
  have ⟨_, _, hstalls⟩ := hw
  obtain ⟨-, htable, hstep⟩ := mem_of_stepEntries hsingle
  obtain ⟨told, d1, h1, hupdate⟩ := badgerUpdate_of_single hq hat hskip hparams hsingle hpending hfailed hwriting
  obtain ⟨hsame, hrecordAt, hafter⟩ := h1.record_eq (o := o) (t := t) (index := index)
  have hframe1 := h1.works.frame
  obtain ⟨o1, hop1, -⟩ := h1.works.stands o hat.1
  obtain ⟨d2, happly, hledger, hgranary, hfabric, p, hp⟩ := applyEntry_of_cellar (e := { e with told := told }) (tile := tile) (o := o) (t := t)
    (h1.works.quiet hq) hop1 (index_of_mine hk) (by rw [hsame]; exact hplace) hcellar (h1.works.memClear hq hentry) (h1.works.memClear hq hmap)
    (by rw [hrecordAt, hafter, hframe1.accessFault_eq hq.2.1]; exact hfault)
  have hmarked : applyEntry d1 tile n o t (updParams (cellsRead d1.mem.cells (o.f 40 8) 64)) { e with told := told } =
      (modEntry d2 tile (o.f 32 1 % 64) e.row o.step fun x => { x with writing := true }, none) := happly.trans (by rw [← htable, ← hstep])
  have hkey (x : LedgerEntry) (hx : isEntry (o.f 32 1 % 64) e.row o.step x = true) :
      isEntry (o.f 32 1 % 64) e.row o.step { x with writing := true } = true := hx
  have hentries : stepEntries d2 tile (o.f 32 1 % 64) o.step = [{ e with told := told }] := by
    rw [stepEntries_eq, hledger.same, ← stepEntries_eq, h1.entries]
  have hleft := stepEntries_modEntry (e := { e with told := told }) hentries hkey
  have hwait := hupdate (waitOn (modEntry d2 tile (o.f 32 1 % 64) e.row o.step fun x => { x with writing := true }) n)
    (by rw [hmarked, updateOutcome, hleft]; rfl) (hfabric.trans hframe1.fabric_eq)
  have hfind (k : Nat) (r q : W64) := findEntry_modEntry d2 tile hkey k r q
  refine ⟨_, act_running hw hwait ((congrArg _ (hgranary.trans hframe1.granary_eq)).trans hstalls), ⟨_, issuedOp_modOp hp (fun _ => rfl) rfl rfl, rfl⟩,
    ?_, fun k r q hne => ?_⟩
  · refine congrArg (Option.map _) ((hfind ..).trans (if_pos rfl)) |>.trans ?_
    rw [findEntry_of_stepEntries (e := { e with told := told }) hentries]
    rfl
  · refine ((hfind ..).trans (if_neg hne)).trans (Eq.trans ?_ (h1.kept k r q hne))
    rw [findEntry_eq, hledger.same, ← findEntry_eq]

end
end

end Sys2Proof.UpdateProofs
end

section
/-! SUPPORT. BADGER_MIGRATE and the Badger's watchdog (R213, R229, R231): an occupancy bit set and cleared, the four writes that move a row,
what memory holds after them, and from these and the rules of an update the statement. -/

namespace Sys2Proof.MigrateProofs

open Sys2Proof Sys2Proof.Machine Sys2Proof.Safety Sys2Proof.HostProofs Sys2Proof.OrgProofs Sys2Proof.PoolingProofs Sys2Proof.MillProofs
  Sys2Proof.StoreProofs Sys2Proof.LoomStoreProofs Sys2Proof.BadgerProofs Sys2Proof.UpdateProofs

/-! ## An occupancy bit (R213) -/

/-- A byte with bit `k` set or cleared. -/
def withBit (v : Byte) (k : Nat) (on : Bool) : Byte := if on then v ||| BitVec.twoPow 8 k else v &&& ~~~BitVec.twoPow 8 k

/-- That bit is as it was asked for. -/
theorem withBit_same {k : Nat} (h : k < 8) (v : Byte) (on : Bool) : (withBit v k on).getLsbD k = on := by
  cases on <;> simp [withBit, h]

/-- Every other bit is kept. -/
theorem withBit_other {j k : Nat} (h : j ≠ k) (v : Byte) (on : Bool) : (withBit v k on).getLsbD j = v.getLsbD j := by
  by_cases hj : j < 8
  · cases on <;> simp [withBit, hj, h]
  · rw [BitVec.getLsbD_of_ge _ _ (by omega), BitVec.getLsbD_of_ge _ _ (by omega)]

/-- A bit of a byte's integer is that bit of the byte. -/
theorem bit_toNat (v : Byte) (k : Nat) : bit v.toNat k = v.getLsbD k := by
  rw [BitVec.getLsbD, Nat.testBit_eq_decide_div_mod_eq, bit]
  exact Bool.beq_eq_decide_eq ..

/-- A bit that stands as it is to stand makes no change. -/
theorem withBit_of_eq {v : Byte} {k : Nat} {on : Bool} (h : v.getLsbD k = on) : withBit v k on = v := by
  refine BitVec.eq_of_getLsbD_eq fun j hj => ?_
  obtain rfl | hne := eq_or_ne j k
  · rw [withBit_same hj, h]
  · exact withBit_other hne v on

/-- A bit that is clear is set by adding its power of two. -/
theorem withBit_true {v : Byte} {k : Nat} (h : v.getLsbD k = false) : withBit v k true = v + BitVec.twoPow 8 k := by
  have hand : v &&& BitVec.twoPow 8 k = 0#8 := by rw [BitVec.and_twoPow, h]; rfl
  exact (BitVec.add_eq_or_of_and_eq_zero v _ hand).symm

/-- A bit that is set is cleared by taking it away. -/
theorem withBit_false {v : Byte} {k : Nat} (hk : k < 8) (h : v.getLsbD k = true) : withBit v k false = v - BitVec.twoPow 8 k := by
  refine BitVec.eq_sub_iff_add_eq.mpr ?_
  rw [← withBit_true (withBit_same hk v false)]
  refine BitVec.eq_of_getLsbD_eq fun j hj => ?_
  obtain rfl | hne := eq_or_ne j k
  · rw [withBit_same hj, h]
  · rw [withBit_other hne, withBit_other hne]

/-- So the byte of an occupancy bit is written with that bit set or cleared. -/
theorem withBit_eq {k : Nat} (h : k < 8) (v : Byte) (on : Bool) :
    BitVec.ofNat 8 (if bit v.toNat k == on then v.toNat else if on then v.toNat + 2 ^ k else v.toNat - 2 ^ k) = withBit v k on := by
  rw [bit_toNat]
  split_ifs with hsame hon
  · rw [withBit_of_eq (beq_iff_eq.mp hsame), BitVec.ofNat_toNat, BitVec.setWidth_eq]
  · subst hon
    rw [withBit_true (by simpa using hsame), ← BitVec.toNat_twoPow_of_lt h, BitVec.ofNat_add, BitVec.ofNat_toNat, BitVec.ofNat_toNat]
    rfl
  · rw [Bool.not_eq_true] at hon
    subst hon
    have hset : v.getLsbD k = true := by simpa using hsame
    have hle : 2 ^ k ≤ v.toNat := Nat.ge_two_pow_of_testBit hset
    rw [withBit_false h hset, ← BitVec.ofNat_sub_ofNat_of_le _ _ (Nat.pow_lt_pow_right (by decide) h) hle, ← BitVec.toNat_twoPow_of_lt h,
      BitVec.ofNat_toNat, BitVec.ofNat_toNat]
    rfl

/-- The occupancy bit of a slot is one of its byte's eight. -/
theorem occBit_lt (t : TableRec) (tier slot : Nat) : (t.occBit tier slot).2 < 8 := Nat.mod_lt _ (by decide)

/-- One byte of memory as a field. -/
theorem fld_byte (m : List Host.Cell) (a : Nat) : fld (cellsRead m a 1) 0 1 = (cellGet m a).toNat := by
  rw [fld_cellsRead m a (le_refl 1)]
  simp [cellsRead, leNat]

/-- Bytes spell an integer of their size. -/
theorem leNat_lt (b : Bytes) : leNat b < 256 ^ b.length := by
  induction b with
  | nil => simp [leNat]
  | cons x b ih =>
    have hx := x.isLt
    rw [leNat, List.length_cons, Nat.pow_succ]
    omega

/-! ## The writes that move a row (R229) -/

/-- What a store stores is told from memory alone. -/
theorem bytesStored_congr {d d1 d' : Dev} {a : Nat} {b : Bytes} (hmem : d1.mem = d.mem) (h : bytesStored d1 d' a b) : bytesStored d d' a b :=
  fun z => (h z).trans (by rw [byteAt, hmem])

/-- One byte that is stored. -/
theorem byteAt_of_bytesStored {d d' : Dev} {a : Nat} {v : Byte} (h : bytesStored d d' a [v]) (z : Nat) :
    byteAt d' z = if z = a then v else byteAt d z := by
  rw [h z]
  obtain rfl | hne := eq_or_ne z a
  · simp
  · rw [if_neg hne, if_neg (by simp; omega)]

/-- What a write of a migration does: it stores its bytes, and leaves the Badgers. -/
structure Moved (n : OpName) (d d' : Dev) (a : Nat) (b : Bytes) : Prop where
  works : Works n d d'
  badgers_eq : d'.badgers = d.badgers
  stored : bytesStored d d' a b

section
variable {d : Dev} {n : OpName} {t : TableRec}

/-- A write to SRAM or GDDR7 without stored errors. -/
theorem moved_of_clear {a : Nat} {b : Bytes} (hq : quietMemory d) (h : memClear d a b.length) (n : OpName) :
    ∃ d', writeMem d (some n) a b = (d', none) ∧ Moved n d d' a b := by
  obtain ⟨d', hwrite, hworks, hbadgers, hcells, -⟩ := Works.ofWrite hq h n
  exact ⟨d', hwrite, hworks, hbadgers, bytesStored_of_write hq.1 (by rw [hcells, writeCells, List.foldl_cons, List.foldl_nil])⟩

/-- An occupancy bit is set or cleared in its byte, and no other bit changes. -/
theorem setOcc_of_clear {tier slot : Nat} (hq : quietMemory d) (h : memClear d (t.occBit tier slot).1 1) (n : OpName) (on : Bool) :
    ∃ d', setOcc d n t tier slot on = (d', none) ∧
      Moved n d d' (t.occBit tier slot).1 [withBit (byteAt d (t.occBit tier slot).1) (t.occBit tier slot).2 on] := by
  obtain ⟨d1, hread, hcounted⟩ := read_of_clear h n
  have hworks := Works.ofCounted n hcounted
  obtain ⟨d2, hwrite, hmoved⟩ := moved_of_clear (b := [withBit (byteAt d (t.occBit tier slot).1) (t.occBit tier slot).2 on]) (hworks.quiet hq)
    (hworks.memClear hq h) n
  refine ⟨d2, ?_, hworks.trans hmoved.works, hmoved.badgers_eq.trans hcounted.badgers_eq, bytesStored_congr hcounted.mem_eq hmoved.stored⟩
  simp only [setOcc, hread, fld_byte, withBit_eq (occBit_lt t tier slot)]
  exact hwrite

end

/-- Where a migration puts a record. -/
abbrev newPlace (t : TableRec) (dest : Nat) : Nat := t.slotAddr (bits dest 31 30) (bits dest 29 0)

/-- The occupancy bit of the place that a migration fills. -/
abbrev newBit (t : TableRec) (dest : Nat) : Nat × Nat := t.occBit (bits dest 31 30) (bits dest 29 0)

/-- The occupancy bit of the place that it leaves. -/
abbrev oldBit (d : Dev) (t : TableRec) (index : Nat) : Nat × Nat := t.occBit (mapOf d t index).1 (mapOf d t index).2

/-- A row can move: it has a place, the new one is another and free, and all that is read or written is stored without error. -/
structure Movable (d : Dev) (t : TableRec) (g index dest : Nat) : Prop where
  kind : t.kind g = .mine index
  map : memClear d (t.map + 4 * index) 4
  placed : (mapOf d t index).1 ≠ 3
  tier : bits dest 31 30 ≠ 3
  slot : bits dest 29 0 < t.slots.getD (bits dest 31 30) 0
  oldByte : memClear d (oldBit d t index).1 1
  newByte : memClear d (newBit t dest).1 1
  free : (byteAt d (newBit t dest).1).getLsbD (newBit t dest).2 = false
  record : memClear d (recordAt d t index) t.layout
  room : memClear d (newPlace t dest) t.layout
  moves : (bits dest 31 30, bits dest 29 0) ≠ mapOf d t index

/-- The places of a migration lie apart: the new record from the map entry and the occupancy bits, the map entry from those bits, and the
bits from each other. -/
structure Apart (d : Dev) (t : TableRec) (index dest : Nat) : Prop where
  record : ∀ z, newPlace t dest ≤ z → z < newPlace t dest + t.layout →
    z ≠ (oldBit d t index).1 ∧ z ≠ (newBit t dest).1 ∧ ¬(t.map + 4 * index ≤ z ∧ z < t.map + 4 * index + 4)
  map : ∀ z, t.map + 4 * index ≤ z → z < t.map + 4 * index + 4 → z ≠ (oldBit d t index).1 ∧ z ≠ (newBit t dest).1
  apart : oldBit d t index ≠ newBit t dest

/-- What has been counted before does not matter. -/
theorem Movable.of_counted {d d1 : Dev} {t : TableRec} {g index dest : Nat} (hq : quietMemory d) (hc : Counted d d1)
    (h : Movable d t g index dest) : Movable d1 t g index dest := by
  have hclear {a k : Nat} (h : memClear d a k) : memClear d1 a k := (Works.ofCounted { ring := 0, seq := 0 } hc).memClear hq h
  obtain ⟨c, rfl⟩ := hc
  exact ⟨h.kind, hclear h.map, h.placed, h.tier, h.slot, hclear h.oldByte, hclear h.newByte, h.free, hclear h.record, hclear h.room, h.moves⟩

/-- The four writes of a migration, in their order: the record, the new place's bit, the map entry and the old place's bit. -/
structure RowMoved (n : OpName) (d d' : Dev) (t : TableRec) (index dest : Nat) : Prop where
  works : Works n d d'
  kept : badgersKept d d'
  chain : ∃ d2 d3 d4,
    bytesStored d d2 (newPlace t dest) (cellsRead d.mem.cells (recordAt d t index) t.layout) ∧
    bytesStored d2 d3 (newBit t dest).1
      [withBit (byteAt d2 (newBit t dest).1) (newBit t dest).2 true] ∧
    bytesStored d3 d4 (t.map + 4 * index) (leBytes 4 dest) ∧
    bytesStored d4 d' (oldBit d t index).1
      [withBit (byteAt d4 (oldBit d t index).1) (oldBit d t index).2 false]

/-- What has been counted before does not show. -/
theorem RowMoved.of_counted {n : OpName} {d d1 d' : Dev} {t : TableRec} {index dest : Nat} (hc : Counted d d1) (h : RowMoved n d1 d' t index dest) :
    RowMoved n d d' t index dest := by
  have hworks := (Works.ofCounted n hc).trans h.works
  obtain ⟨c, rfl⟩ := hc
  exact ⟨hworks, h.kept, h.chain⟩

/-- A row that can move is moved. -/
theorem migrateRow_of_movable {d : Dev} {n : OpName} {t : TableRec} {g index dest : Nat} (hq : quietMemory d) (h : Movable d t g index dest)
    (tile : Nat) : ∃ d', migrateRow tile n t g dest d = (d', none) ∧ RowMoved n d d' t index dest := by
  obtain ⟨hk, hmap, hplaced, htier, hslot, hocc0, hocc1, hfree, hold, hnew, hmoves⟩ := h
  obtain ⟨d1, hreadMap, hc1⟩ := readMap_of_clear hmap n
  obtain ⟨d2, hreadOcc, hc2⟩ := read_of_clear ((Works.ofCounted n hc1).memClear hq hocc1) n
  have hr2 := (RowsCounted.ofCounted n (hc1.trans hc2)).trans (.ofCountRow n d2 tile (mapOf d t index).1 n.ring)
  obtain ⟨d3, hreadOld, hc3⟩ := read_of_clear (hr2.works.memClear hq hold) n
  have hr := hr2.trans (.ofCounted n hc3)
  obtain ⟨d4, hwriteNew, hm4⟩ := moved_of_clear (b := cellsRead d.mem.cells (recordAt d t index) t.layout) (hr.works.quiet hq)
    (a := newPlace t dest) (by simpa [cellsRead] using hr.works.memClear hq hnew) n
  have hw4 := hr.works.trans hm4.works
  obtain ⟨d5, hset, hm5⟩ := setOcc_of_clear (hw4.quiet hq) (hw4.memClear hq hocc1) n true
  have hw5 := hw4.trans hm5.works
  obtain ⟨d6, hwriteMap, hm6⟩ := moved_of_clear (b := leBytes 4 dest) (hw5.quiet hq) (hw5.memClear hq hmap) n
  have hw6 := hw5.trans hm6.works
  obtain ⟨d7, hclear, hm7⟩ := setOcc_of_clear (hw6.quiet hq) (hw6.memClear hq hocc0) n false
  have hbadgers := hm7.badgers_eq.trans (hm6.badgers_eq.trans (hm5.badgers_eq.trans hm4.badgers_eq))
  refine ⟨d7, ?_, hw6.trans hm7.works, badgersKept.trans hr.kept (badgersKept_of_eq hbadgers),
    d4, d5, d6, bytesStored_congr hr.mem_eq hm4.stored, hm5.stored, hm6.stored, hm7.stored⟩
  rw [hc1.mem_eq] at hreadOcc
  rw [hr2.mem_eq] at hreadOld
  have hclearBit : bit (fld (cellsRead d.mem.cells (newBit t dest).1 1) 0 1) (newBit t dest).2 = false := by
    rw [fld_byte, bit_toNat]
    exact hfree
  have hother : (decide (bits dest 31 30 = (mapOf d t index).1) && decide (bits dest 29 0 = (mapOf d t index).2) && bits dest 31 30 != 3) = false := by
    by_contra h
    simp only [Bool.not_eq_false, Bool.and_eq_true, decide_eq_true_eq] at h
    obtain ⟨⟨htier0, hslot0⟩, -⟩ := h
    exact hmoves (Prod.ext htier0 hslot0)
  simp only [migrateRow, hk, hreadMap, hother, htier, Nat.not_le.mpr hslot, hreadOcc, hclearBit, hplaced, hreadOld, Bool.false_eq_true,
    if_false, decide_false, Bool.or_self, inOrder, List.foldl_cons, List.foldl_nil, hwriteNew, hset, hwriteMap, hclear]

/-! ## Memory after a migration (R213, R229) -/

section
variable {d d' : Dev} {n : OpName} {t : TableRec} {index dest : Nat} (h : RowMoved n d d' t index dest)

include h in
/-- Bytes that are neither the moved record's, the map entry's nor an occupancy bit's are kept. -/
theorem RowMoved.byteAt_other {z : Nat} (h0 : z ≠ (oldBit d t index).1) (h1 : z ≠ (newBit t dest).1)
    (hm : ¬(t.map + 4 * index ≤ z ∧ z < t.map + 4 * index + 4)) (hr : ¬(newPlace t dest ≤ z ∧ z < newPlace t dest + t.layout)) :
    byteAt d' z = byteAt d z := by
  obtain ⟨d2, d3, d4, hrec, hset, hentry, hclear⟩ := h.chain
  rw [byteAt_of_bytesStored hclear, if_neg h0, hentry, leBytes_length, if_neg hm, byteAt_of_bytesStored hset, if_neg h1, hrec,
    if_neg (by simpa [cellsRead] using hr)]

include h in
/-- The old place's bit is cleared. -/
theorem RowMoved.oldBit_clear : (byteAt d' (oldBit d t index).1).getLsbD (oldBit d t index).2 = false := by
  obtain ⟨d2, d3, d4, hrec, hset, hentry, hclear⟩ := h.chain
  rw [byteAt_of_bytesStored hclear, if_pos rfl, withBit_same (occBit_lt ..)]

variable (hapart : Apart d t index dest)
include h hapart

/-- The record lies in its new place as it lay in its old one. -/
theorem RowMoved.record_eq : cellsRead d'.mem.cells (newPlace t dest) t.layout = cellsRead d.mem.cells (recordAt d t index) t.layout := by
  obtain ⟨d2, d3, d4, hrec, hset, hentry, hclear⟩ := h.chain
  have hlen : (cellsRead d.mem.cells (recordAt d t index) t.layout).length = t.layout := by simp [cellsRead]
  conv_lhs => rw [← hlen]
  refine cellsRead_eq fun i hi => ?_
  rw [hlen] at hi
  obtain ⟨h0, h1, hm⟩ := hapart.record (newPlace t dest + i) (by omega) (by omega)
  change byteAt d' _ = _
  rw [byteAt_of_bytesStored hclear, if_neg h0, hentry, leBytes_length, if_neg hm, byteAt_of_bytesStored hset, if_neg h1, hrec, hlen,
    if_pos (by omega), Nat.add_sub_cancel_left]

/-- The map points to the new place. -/
theorem RowMoved.map_eq (hdest : dest < 256 ^ 4) : leNat (cellsRead d'.mem.cells (t.map + 4 * index) 4) = dest := by
  obtain ⟨d2, d3, d4, hrec, hset, hentry, hclear⟩ := h.chain
  have hlen : (leBytes 4 dest).length = 4 := leBytes_length 4 dest
  have hread : cellsRead d'.mem.cells (t.map + 4 * index) (leBytes 4 dest).length = leBytes 4 dest := cellsRead_eq fun i hi => by
    rw [hlen] at hi
    obtain ⟨h0, -⟩ := hapart.map (t.map + 4 * index + i) (by omega) (by omega)
    change byteAt d' _ = _
    rw [byteAt_of_bytesStored hclear, if_neg h0, hentry, hlen, if_pos (by omega), Nat.add_sub_cancel_left]
  rw [hlen] at hread
  rw [hread, leNat_leBytes, Nat.mod_eq_of_lt hdest]

/-- The new place's bit is set: where the old place's bit is in the same byte, it is another bit. -/
theorem RowMoved.newBit_set : (byteAt d' (newBit t dest).1).getLsbD (newBit t dest).2 = true := by
  obtain ⟨d2, d3, d4, hrec, hset, hentry, hclear⟩ := h.chain
  have hmap : ¬(t.map + 4 * index ≤ (newBit t dest).1 ∧ (newBit t dest).1 < t.map + 4 * index + 4) := fun hin =>
    (hapart.map _ hin.1 hin.2).2 rfl
  have hbefore : byteAt d4 (newBit t dest).1 = withBit (byteAt d2 (newBit t dest).1) (newBit t dest).2 true := by
    rw [hentry, leBytes_length, if_neg hmap, byteAt_of_bytesStored hset, if_pos rfl]
  rw [byteAt_of_bytesStored hclear]
  split_ifs with hbyte
  · have hbits : (newBit t dest).2 ≠ (oldBit d t index).2 := fun hb => hapart.apart (Prod.ext hbyte.symm hb.symm)
    rw [withBit_other hbits, ← hbyte, hbefore, withBit_same (occBit_lt ..)]
  · rw [hbefore, withBit_same (occBit_lt ..)]

end

/-- The tier and slot that the one row of a migration's list is to move to. -/
def migrationDest (d : Dev) (o : Op) : Nat := fld (cellsRead d.mem.cells (o.f 40 8) 16) 8 4

/-- They are one map entry. -/
theorem migrationDest_lt (d : Dev) (o : Op) : migrationDest d o < 256 ^ 4 := by
  unfold migrationDest fld
  exact (leNat_lt _).trans_eq (by rw [slice_length])

/-- BADGER_MIGRATE with one row in its list, that can move. -/
theorem badgerMigrate_of_movable {d : Dev} {tile : Nat} {n : OpName} {o : Op} {t : TableRec} {index : Nat} (hq : quietMemory d)
    (hat : badgerAt d 0x0404 n tile o t) (hone : o.f 36 4 = 1) (hlist : memClear d (o.f 40 8) 16)
    (h : Movable d t (fld (cellsRead d.mem.cells (o.f 40 8) 16) 0 8) index (migrationDest d o)) :
    ∃ d', RowMoved n d d' t index (migrationDest d o) ∧ badgerMigrate n d = completeOp (progress d' n) n stOk := by
  obtain ⟨d1, hread, hcounted⟩ := read_of_clear hlist n
  obtain ⟨d2, hmigrate, hmoved1⟩ := migrateRow_of_movable (n := n) ((Works.ofCounted n hcounted).quiet hq) (h.of_counted hq hcounted) tile
  have hmoved := RowMoved.of_counted hcounted hmoved1
  refine ⟨d2, hmoved, badgerOp_of_badgerAt hat ?_ ((hmoved.works.trans (.ofProgress n d2)).frame.complete (by decide) n 0).fabric_eq⟩
  unfold migrationDest at hmigrate
  simp only [hone, Nat.mul_one, hread, migrateRows, Nat.mul_zero, Nat.zero_add, hmigrate]

/-- BADGER_MIGRATE of one row to a free place (R229). -/
theorem exec_badgerMigrate {s : State} {n : OpName} {o : Op} {tile : Nat} {t : TableRec} {index : Nat} (hw : atWork s)
    (hq : quietMemory s.dev) (hat : badgerAt s.dev 0x0404 n tile o t) (hone : o.f 36 4 = 1) (hlist : memClear s.dev (o.f 40 8) 16)
    (h : Movable s.dev t (fld (cellsRead s.dev.mem.cells (o.f 40 8) 16) 0 8) index (migrationDest s.dev o))
    (hapart : Apart s.dev t index (migrationDest s.dev o)) :
    acts (.badgerMigrate n.ring n.seq) s fun d => ended d n 0x00 0 ∧
      cellsRead d.mem.cells (newPlace t (migrationDest s.dev o)) t.layout = cellsRead s.dev.mem.cells (recordAt s.dev t index) t.layout ∧
      leNat (cellsRead d.mem.cells (t.map + 4 * index) 4) = migrationDest s.dev o ∧
      (byteAt d (newBit t (migrationDest s.dev o)).1).getLsbD (newBit t (migrationDest s.dev o)).2 = true ∧
      (byteAt d (oldBit s.dev t index).1).getLsbD (oldBit s.dev t index).2 = false ∧
      (∀ z, z ≠ (oldBit s.dev t index).1 → z ≠ (newBit t (migrationDest s.dev o)).1 → ¬(t.map + 4 * index ≤ z ∧ z < t.map + 4 * index + 4) →
        ¬(newPlace t (migrationDest s.dev o) ≤ z ∧ z < newPlace t (migrationDest s.dev o) + t.layout) → byteAt d z = byteAt s.dev z) ∧
      badgersKept s.dev d ∧ onlyTables s.dev d := by
  obtain ⟨d, hmoved, heq⟩ := badgerMigrate_of_movable hq hat hone hlist h
  have hworks := hmoved.works.trans (.ofProgress n d)
  obtain ⟨hexec, hended⟩ := ended_of_works hw hat.1 hworks heq
  have hmem : (completeOp (progress d n) n stOk 0).mem = d.mem := (completeOp_mem ..).trans (progress_mem d n)
  have hbadgers : (completeOp (progress d n) n stOk 0).badgers = d.badgers := (completeOp_badgers ..).trans (progress_badgers d n)
  refine ⟨_, hexec, hended, ?_, ?_, ?_, ?_, fun z h0 h1 hm hr => ?_, badgersKept.trans hmoved.kept (badgersKept_of_eq hbadgers),
    (hworks.frame.complete (by decide) n 0).onlyTables⟩
  · rw [hmem]
    exact hmoved.record_eq hapart
  · rw [hmem]
    exact hmoved.map_eq hapart (migrationDest_lt s.dev o)
  · rw [byteAt, hmem]
    exact hmoved.newBit_set hapart
  · rw [byteAt, hmem]
    exact hmoved.oldBit_clear
  · rw [byteAt, hmem]
    exact hmoved.byteAt_other h0 h1 hm hr

/-! ## BADGER_WATCHDOG_EXPIRY (R231) -/

/-- The watchdog ends an operation whose limit has passed without progress. -/
theorem badgerWatchdogExpiry_of_issued {d : Dev} {n : OpName} {o : Op} {tile : Nat} (hop : issuedOp d n = some o)
    (hring : ringTarget d n.ring = some (.badger tile)) (hsends : o.sends = []) (hwaits : o.waitsLedger = false) :
    badgerWatchdogExpiry n d =
      if o.progressAt + (getBadger d tile).limit.toNat * 65536 ≤ cycle d then completeOp d n stEngineTimeout else d := by
  simp only [badgerWatchdogExpiry, hop, hring, hsends, hwaits, List.isEmpty_nil, Bool.not_false, Bool.true_and]
  exact if_congr decide_eq_true_iff rfl rfl

/-- BADGER_WATCHDOG_EXPIRY once the limit has passed. -/
theorem exec_badgerWatchdogExpiry_reached {s : State} {n : OpName} {o : Op} (hw : atWork s) (hop : issuedOp s.dev n = some o)
    (heq : badgerWatchdogExpiry n s.dev = completeOp s.dev n stEngineTimeout) :
    acts (.badgerWatchdogExpiry n.ring n.seq) s fun d => ended d n 0x58 0 ∧ d.mem = s.dev.mem := by
  obtain ⟨hexec, hended⟩ := ended_of_works hw hop (.refl n s.dev) heq
  exact ⟨_, hexec, hended, completeOp_mem ..⟩

/-! ## The statement -/

/-- Settles O42: an update turns on the one entry that it finds, a migration is four writes apart from each other, and the watchdog is one
equation. -/
theorem badgerUpdateAndMigrate : Obligations.BadgerUpdateAndMigrate := by
  unfold Obligations.BadgerUpdateAndMigrate
  refine ⟨?update, ?migrate, ?watchdog⟩
  case update =>
    intro s n o tile t hw hplain hflips hborrows hat table
    have hq : quietMemory s.dev := ⟨hplain, hflips, hborrows⟩
    refine ⟨fun hskip => exec_badgerUpdate_skipped hw hat hskip, fun hskip hparams hnone => exec_badgerUpdate_empty hw hat hskip hparams hnone, ?_⟩
    intro e index hskip hparams hsingle hpending hfailed hwriting hk hentry hmap rec0 rec1
    exact ⟨fun hplace hcellar hfault =>
        exec_badgerUpdate_cellar hw hat hskip hparams hq hsingle hpending hfailed hwriting hk hentry hmap hplace hcellar hfault,
      fun hplace hrecord hclear halone =>
        exec_badgerUpdate_placed hw hat hskip hparams hq hsingle hpending hfailed hwriting hk hentry hmap hplace hrecord hclear halone⟩
  case migrate =>
    intro s n o tile t index hw hplain hflips hborrows hat hone hlist list dest src old new occ0 occ1 map_ hk hmap hplaced htier hslot hocc0 hocc1
      hother hfree hold hnew hmoves hnewApart hmapApart
    exact exec_badgerMigrate hw ⟨hplain, hflips, hborrows⟩ hat hone hlist
      ⟨hk, hmap, hplaced, htier, hslot, hocc0, hocc1, hfree, hold, hnew, hmoves⟩ ⟨hnewApart, hmapApart, hother⟩
  case watchdog =>
    intro s n o tile hw hop hring hsends hwaits
    have heq := badgerWatchdogExpiry_of_issued hop hring hsends hwaits
    split_ifs with hlimit
    · exact exec_badgerWatchdogExpiry_reached hw hop (heq.trans (if_pos hlimit))
    · exact act_running_same hw (heq.trans (if_neg hlimit))

end Sys2Proof.MigrateProofs
end

section
/-! SUPPORT. Operations of the ring hub on open steps (R237, R238, R240, R242): how one gets to its work, a wait beyond its limit, what
a check of readiness leaves of a ring, and STEP_DECIDE. -/

namespace Sys2Proof.StepProofs

open Sys2Proof Sys2Proof.Machine Sys2Proof.Safety Sys2Proof.HostProofs Sys2Proof.OrgProofs Sys2Proof.RingProofs Sys2Proof.MailboxProofs
  Sys2Proof.BadgerProofs

/-! ## How an operation of the ring hub gets to its work -/

/-- An issued operation of the ring hub does its work. -/
theorem hubOp_of_hubAt {d : Dev} {code : Nat} {n : OpName} {o : Op} (h : hubAt d code n o) (f : Op → Dev → Dev) :
    hubOp code n f d = f o d := by
  obtain ⟨hop, hring, hcode⟩ := h
  simp only [hubOp, hop, hring, if_pos hcode]

/-! ## Waits beyond WAIT_LIMIT (R240) -/

/-- A command that reports a wait since `since` once it has passed the limit of its ring, and not twice. -/
theorem stallLogs_of_eq {c : OpName → Instr} {f : Dev → Dev} {ev since : Nat} {s : State} {n : OpName} {o : Op} (hw : atWork s)
    (hop : getOp s.dev n = some o) (hexec : exec (c n) s = act s (running f))
    (heq : f s.dev = if o.stallLogged = false ∧ since + ringLimit s.dev n.ring * 1000000 < deviceTime s.dev then
      logEvent (modOp s.dev n fun o => { o with stallLogged := true }) ev (.ring n.ring) 0 else s.dev) :
    stallLogs c ev s n o since := by
  have ⟨_, hhalt, hstalls⟩ := hw
  refine ⟨fun hlogged hover => ?late, fun hnot => ?within⟩
  case late =>
    refine ⟨_, hexec.trans (act_running hw (heq.trans (if_pos ⟨hlogged, hover⟩)) ?_), recorded_logEvent_modOp hhalt .., ?_, ?_, ?_⟩
    · rw [logEvent_granary]
      exact hstalls
    · rw [getOp_congr (logEvent_rings ..)]
      exact getOp_modOp hop fun _ => rfl
    · rw [logEvent_mem, modOp_mem]
    · rw [logEvent_steps, modOp_steps]
  case within =>
    refine hexec.trans (act_running_same hw (heq.trans (if_neg ?_)))
    rintro ⟨hlogged, hover⟩
    obtain htrue | hle := hnot
    · exact Bool.false_ne_true (hlogged.symm.trans htrue)
    · exact absurd hover (Nat.not_lt.mpr hle)

/-- STEP_DECISION_STALL of an operation that waits for its step's decision (R240). -/
theorem stepDecisionStall_of_waiting {d : Dev} {n : OpName} {o : Op} {r : Ring} {since : Nat} (hop : getOp d n = some o)
    (hring : getRing d n.ring = some r) (hover : waitsOver d r o = true) (hmet : decisionMet d o = false) (hfrom : o.stallFrom = some since) :
    stepDecisionStall n d =
      if o.stallLogged = false ∧ since + ringLimit d n.ring * 1000000 < deviceTime d then
        logEvent (modOp d n fun o => { o with stallLogged := true }) evStepDecisionStall (.ring n.ring) 0
      else d := by
  have hlimit : ringLimit d n.ring = r.waitLimit := by simp only [ringLimit, hring, Option.map_some, Option.getD_some]
  simp only [stepDecisionStall, hop, hring, hover, hmet, hfrom, overdue_some, hlimit, Bool.not_false, Bool.true_and, Bool.and_eq_true,
    Bool.not_eq_true', decide_eq_true_eq]

/-- LEDGER_BUSY_AT_COMMIT of a STEP_COMMIT that has waited (R242). -/
theorem ledgerBusyAtCommit_of_waiting {d : Dev} {n : OpName} {o : Op} {since : Nat} (hat : hubAt d 0x0981 n o)
    (hfrom : o.stallFrom = some since) :
    ledgerBusyAtCommit n d =
      if ledgerBusy d (o.f 32 8) = true ∧ o.stallLogged = false ∧ since + ringLimit d n.ring * 1000000 < deviceTime d then
        logEvent (modOp d n fun o => { o with stallLogged := true }) evLedgerBusyAtCommit (.ring n.ring) 0
      else d := by
  rw [ledgerBusyAtCommit, hubOp_of_hubAt hat]
  simp only [hfrom, Option.isSome_some, overdue_some, Bool.and_true, Bool.and_eq_true, Bool.not_eq_true', decide_eq_true_eq, and_assoc]

/-! ## What a check of readiness leaves of a ring (Table 2.8) -/

/-- A table whose values are changed finds the changed value. -/
theorem tget_map {α β : Type} (t : Table α) (f : α → β) (k : Nat) : tget (t.map fun e => (e.1, f e.2)) k = (tget t k).map f := by
  induction t with
  | nil => rfl
  | cons e t ih =>
    obtain ⟨j, v⟩ := e
    simp only [List.map_cons, tget]
    split
    · rfl
    · exact ih

/-- An operation keeps its sequence number. -/
@[simp] theorem markOp_seq (met : Bool) (t : Nat) (d : Dev) (r : Ring) (o : Op) : (markOp met t d r o).seq = o.seq := by
  unfold markOp
  dsimp only
  split_ifs <;> rfl

/-- The operations of a ring after a check of their readiness. -/
def markedRing (t : Nat) (d : Dev) (r : Ring) : Ring := { r with ops := r.ops.map fun o => markOp (waitsMet d o) t d r o }

/-- Each ring is checked by itself. -/
theorem getRing_markReady (t : Nat) (d : Dev) (k : Nat) : getRing (markReady t d) k = (getRing d k).map (markedRing t d) :=
  tget_map d.hub.rings (markedRing t d) k

/-- An operation stands in its ring after the check. -/
theorem getOp_markReady {d : Dev} {n : OpName} {o : Op} (h : getOp d n = some o) (t : Nat) : ∃ o', getOp (markReady t d) n = some o' := by
  rw [getOp_eq] at h
  obtain ⟨r, hring, hfind⟩ := Option.bind_eq_some_iff.mp h
  have hkey : ((fun o : Op => o.seq == n.seq) ∘ fun o => markOp (waitsMet d o) t d r o) = fun o => o.seq == n.seq := by
    funext o
    simp only [Function.comp_apply, markOp_seq]
  refine ⟨markOp (waitsMet d o) t d r o, ?_⟩
  rw [getOp_eq, getRing_markReady, hring, Option.map_some, Option.bind_some, markedRing, List.find?_map, hkey, hfind, Option.map_some]

/-! ## STEP_DECIDE (R237, R238) -/

/-- A change of one open step leaves the others. -/
theorem stepState_modStep_other (d : Dev) {k j : Nat} (f : StepState → StepState) (h : j ≠ k) :
    stepState (modStep d k f) j = stepState d j := by
  unfold modStep
  split
  next hk =>
    have hplace : d.steps.oldest ≤ j → k - d.steps.oldest ≠ j - d.steps.oldest := by omega
    unfold stepState modAt
    dsimp only
    split
    next hj =>
      split
      · rfl
      · exact List.getElem?_set_ne (hplace hj)
    next => rfl
  next => rfl

/-- A step as a STEP_DECIDE decides it: by its local flag, alone (R238). -/
def decidedAlone (d : Dev) (apply : Bool) (st : StepState) : StepState := { st with
  decision := some apply
  decidedAt := cycle d
  localAt := st.deciding.getD st.flag
  alone := true
  decideTime := BitVec.ofNat 64 (deviceTime d)
  cause := if !apply && st.flag then 5 else st.cause }

/-- The device with a step decided; under SKIP the ledgers' entries of the step are discarded (R225). -/
def withDecision (d : Dev) (k : Nat) (apply : Bool) : Dev :=
  if apply then modStep d k (decidedAlone d apply) else discardLedger (modStep d k (decidedAlone d apply)) k

section
variable {d : Dev} {k : Nat} {st : StepState} (hst : stepState d k = some st)
include hst

/-- The first decision of a step is taken, and the operations that wait for it become ready. -/
theorem decideStep_of_undecided (hnone : st.decision = none) (apply : Bool) (src : Source) :
    decideStep d k apply true src = markReady (cycle d + 1) (withDecision d k apply) := by
  simp only [decideStep, hst, hnone, Option.isSome_none, Bool.false_eq_true, if_false, if_true]
  rfl

/-- A second one is reported, and changes nothing. -/
theorem decideStep_of_decided (hsome : st.decision ≠ none) (apply alone : Bool) (src : Source) :
    decideStep d k apply alone src = logEvent d evStepDecideTwice src 0 := by
  simp only [decideStep, hst, Option.isSome_iff_ne_none.mpr hsome, if_true]

end

/-- A decision changes the open steps, and what the Badgers hold of the step. -/
theorem withDecision_frame (d : Dev) (k : Nat) (apply : Bool) : ∃ x b, withDecision d k apply = { d with steps := x, badgers := b } := by
  obtain ⟨x, e⟩ := modStep_frame d k (decidedAlone d apply)
  unfold withDecision
  rw [e]
  split
  · exact ⟨_, _, rfl⟩
  · exact ⟨_, _, rfl⟩

/-- The open steps after a decision. -/
theorem stepState_withDecision (d : Dev) (k j : Nat) (apply : Bool) :
    stepState (withDecision d k apply) j = stepState (modStep d k (decidedAlone d apply)) j := by
  unfold withDecision
  split <;> rfl

/-- The ledgers after the entries of a step are discarded. -/
theorem ledger_discardLedger (d : Dev) (k u : Nat) :
    (getBadger (discardLedger d k) u).ledger = (getBadger d u).ledger.filter fun e => e.step.toNat != k := by
  simp only [getBadger, tgetD, discardLedger,
    tget_map d.badgers (fun b : Badger => { b with ledger := b.ledger.filter fun e => e.step.toNat != k })]
  cases tget d.badgers u <;> rfl

/-- The ledgers after a decision. -/
theorem ledger_withDecision (d : Dev) (k u : Nat) (apply : Bool) :
    (getBadger (withDecision d k apply) u).ledger =
      if apply then (getBadger d u).ledger else (getBadger d u).ledger.filter fun e => e.step.toNat != k := by
  have hsteps : getBadger (modStep d k (decidedAlone d apply)) u = getBadger d u := by
    obtain ⟨x, e⟩ := modStep_frame d k (decidedAlone d apply)
    rw [e]
    rfl
  unfold withDecision
  split
  · rw [hsteps]
  · rw [ledger_discardLedger, hsteps]

section
variable {s : State} {n : OpName} {o : Op} {st : StepState} (hat : hubAt s.dev 0x0980 n o) (hst : stepState s.dev (o.f 32 8) = some st)
include hat hst

/-- STEP_DECIDE is the decision of its step, then the end of the operation. -/
theorem stepDecide_of_hubAt : stepDecide n s.dev =
    completeOp (decideStep s.dev (o.f 32 8) (st.deciding.getD st.flag) true (.ring n.ring)) n stOk := by
  rw [stepDecide, hubOp_of_hubAt hat]
  simp only [hst]

variable (hw : atWork s)
include hw

/-- STEP_DECIDE of an undecided step. -/
theorem exec_stepDecide_undecided (hnone : st.decision = none) :
    let stood := st.deciding.getD st.flag
    acts (.stepDecide n.ring n.seq) s fun d => ended d n 0x00 0 ∧
      (∃ t, stepState d (o.f 32 8) = some t ∧ t.decision = some stood ∧ t.localAt = stood ∧ t.alone = true ∧
        t.flag = st.flag ∧ t.census = st.census) ∧
      (∀ k, k ≠ o.f 32 8 → stepState d k = stepState s.dev k) ∧
      (∀ u, (getBadger d u).ledger = if stood then (getBadger s.dev u).ledger
        else (getBadger s.dev u).ledger.filter fun e => e.step.toNat != o.f 32 8) ∧
      d.mem = s.dev.mem ∧ { d with hub.rings := s.dev.hub.rings, steps := s.dev.steps, badgers := s.dev.badgers } = s.dev := by
  intro stood
  have ⟨_, _, hstalls⟩ := hw
  obtain ⟨hget, -⟩ := issuedOp_eq_some hat.1
  have heq := stepDecide_of_hubAt hat hst
  rw [decideStep_of_undecided hst hnone] at heq
  have hsteps (k : Nat) := stepState_withDecision s.dev (o.f 32 8) k stood
  have hledgers (u : Nat) := ledger_withDecision s.dev (o.f 32 8) u stood
  obtain ⟨x, b, e⟩ := withDecision_frame s.dev (o.f 32 8) stood
  rw [e] at heq hsteps hledgers
  obtain ⟨o', hop⟩ := getOp_markReady (d := { s.dev with steps := x, badgers := b }) hget (cycle s.dev + 1)
  refine ⟨_, act_running hw heq hstalls, ended_completeOp hop .., ⟨decidedAlone s.dev stood st, ?_, rfl, rfl, rfl, rfl, rfl⟩,
    fun k hk => ?_, hledgers, rfl, rfl⟩
  · refine (hsteps _).trans ?_
    rw [stepState_modStep, hst, Option.map_some]
  · exact (hsteps k).trans (stepState_modStep_other s.dev _ hk)

/-- STEP_DECIDE of a decided step. -/
theorem exec_stepDecide_decided (hsome : st.decision ≠ none) :
    acts (.stepDecide n.ring n.seq) s fun d => ended d n 0x00 0 ∧ recorded s.dev d 0x821 (.ring n.ring) 0 ∧
      d.steps = s.dev.steps ∧ d.mem = s.dev.mem := by
  have ⟨_, hhalt, hstalls⟩ := hw
  obtain ⟨hget, -⟩ := issuedOp_eq_some hat.1
  have heq := stepDecide_of_hubAt hat hst
  rw [decideStep_of_decided hst hsome] at heq
  have hop := (getOp_congr (logEvent_rings s.dev evStepDecideTwice (.ring n.ring) 0 none) n).trans hget
  have hrec := recorded_logEvent hhalt evStepDecideTwice (.ring n.ring) 0
  refine ⟨_, act_running hw heq ?_, ended_completeOp hop .., hrec, logEvent_steps .., logEvent_mem ..⟩
  rw [completeOp_granary, logEvent_granary]
  exact hstalls

end

end Sys2Proof.StepProofs
end

section
/-! SUPPORT. The shard table (R242, R254, Table 9.7): its entries as memory without stored errors holds them, and the writes that flip the
valid ones at a close. -/

namespace Sys2Proof.ShardProofs

open Sys2Proof Sys2Proof.Machine Sys2Proof.Safety Sys2Proof.LoomProofs Sys2Proof.MillProofs Sys2Proof.StoreProofs Sys2Proof.LoomRangeProofs
  Sys2Proof.LoomKeepProofs Sys2Proof.BadgerProofs

/-! ## Parts of a range without stored errors (Table 13.1) -/

/-- The GDDR7 of a die ends before that of the next begins (R334). -/
theorem gddrSize_le (d : Dev) (die : Nat) : gddrSize d die ≤ 0xA80000000 := by
  have hcount : (goodControllers d die).length ≤ 12 := by
    unfold goodControllers
    split
    · exact Nat.zero_le _
    · exact (List.length_filter_le ..).trans (List.length_range (n := 12)).le
  exact Nat.mul_le_mul_right 3758096384 hcount

section
variable {d : Dev} {a n : Nat}

/-- An address of GDDR7 lies below the size of its die's. -/
theorem of_regionOf_gddr {die : Nat} (h : regionOf d a = .gddr die) :
    (die = 0 ∧ a < gddrSize d 0) ∨ (die = 1 ∧ 0xA80000000 ≤ a ∧ a - 0xA80000000 < gddrSize d 1) := by
  simp only [regionOf] at h
  split_ifs at h with h0 hsize h1 hsize
  · exact .inl ⟨(Region.gddr.inj h).symm, hsize⟩
  · exact .inr ⟨(Region.gddr.inj h).symm, by omega, hsize⟩

/-- An address of a tile's SRAM lies in the tile's part of the map, below its capacity. -/
theorem of_regionOf_sram {t : Nat} (h : regionOf d a = .sram t) :
    t < 64 ∧ sramBase t ≤ a ∧ a < sramBase t + tileCapacity t ∧ tileRetired d t = false := by
  simp only [regionOf] at h
  split_ifs at h with _ _ _ _ hmap hin
  obtain rfl := Region.sram.inj h
  simp only [Bool.and_eq_true, decide_eq_true_eq, Bool.not_eq_true'] at hmap hin
  obtain ⟨hcap, hretired⟩ := hin
  unfold sramBase at hcap ⊢
  exact ⟨by omega, by omega, by omega, hretired⟩

/-- What follows an address of GDDR7, up to the end of its die's, lies there too. -/
theorem regionOf_gddr_of_between {die b : Nat} (h : regionOf d a = .gddr die) (hlow : a ≤ b) (hhigh : b < regionEnd d (.gddr die)) :
    regionOf d b = .gddr die := by
  have hsize0 := gddrSize_le d 0
  have hsize1 := gddrSize_le d 1
  obtain ⟨rfl, -⟩ | ⟨rfl, hfrom, -⟩ := of_regionOf_gddr h
  · have hb : b < gddrSize d 0 := hhigh
    rw [regionOf, if_pos (by omega), if_pos hb]
  · have hb : b < 0xA80000000 * 1 + gddrSize d 1 := hhigh
    rw [regionOf, if_neg (by omega), if_pos (by omega), if_pos (by omega)]

/-- And what follows an address of a tile's SRAM lies in that SRAM. -/
theorem regionOf_sram_of_between {t b : Nat} (h : regionOf d a = .sram t) (hlow : a ≤ b) (hhigh : b < regionEnd d (.sram t)) :
    regionOf d b = .sram t := by
  obtain ⟨ht, hbase, -, hretired⟩ := of_regionOf_sram h
  have hb : b < sramBase t + tileCapacity t := hhigh
  have hcap := tileCapacity_lt t
  have hregion := regionOf_sramBase d (t := t) (off := b - sramBase t) ht (by omega)
  rw [Nat.add_sub_cancel' (hbase.trans hlow)] at hregion
  simpa [hretired, show b - sramBase t < tileCapacity t by omega] using hregion

/-- So a part of clear bytes is clear. -/
theorem memClear_of_part {b m : Nat} (h : memClear d a n) (hm : 0 < m) (hlow : a ≤ b) (hhigh : b + m ≤ a + n) : memClear d b m := by
  have hown := h.1
  obtain ⟨R, hR⟩ : ∃ R, R = rangeRegion d a n := ⟨_, rfl⟩
  have hclear : clearIn d R a n := ⟨hR.symm, h⟩
  obtain ⟨hstart, hend⟩ := (rangeRegion_eq_iff hclear.ne_unmapped).mp hR.symm
  have hpart : regionOf d b = R := by
    subst hstart
    obtain ⟨die, hr⟩ | ⟨t, hr⟩ := regionOf_of_inOwnMemory hown
    · rw [hr] at hend ⊢
      exact regionOf_gddr_of_between hr hlow (by omega)
    · rw [hr] at hend ⊢
      exact regionOf_sram_of_between hr hlow (by omega)
  exact (clearIn_of_cover hpart (by omega) (fun x hx hx' => ⟨a, n, hclear, by omega, by omega⟩) hm).2

end

/-! ## The entries of the table -/

/-- A slice of bytes that are read is what memory holds there. -/
theorem slice_cellsRead (m : List Host.Cell) (a : Nat) {off k n : Nat} (h : off + k ≤ n) :
    slice (cellsRead m a n) off k = cellsRead m (a + off) k := by
  rw [slice_eq_map]
  refine List.map_congr_left fun i hi => ?_
  have hlt := List.mem_range.mp hi
  rw [cellsRead_getD (by omega), Nat.add_assoc]

/-- Entry `i` of the shard table, as memory holds it. -/
abbrev tableEntry (d : Dev) (i : Nat) : Bytes := cellsRead d.mem.cells (shardAddr d i) 64

/-- The valid entries, with their numbers; none where there is no table. -/
def liveShards (d : Dev) : List (Nat × Bytes) :=
  if d.steps.num.shardAddr = 0 then []
  else ((List.range d.steps.num.shardCount).map fun i => (i, tableEntry d i)).filter fun e => bit (fld e.2 26 1) 0

/-- The shard table is stored without error, where there is one. -/
def tableClear (d : Dev) : Prop := d.steps.num.shardAddr ≠ 0 → memClear d d.steps.num.shardAddr (64 * d.steps.num.shardCount)

section
variable {d : Dev}

/-- A valid entry is one of the table's. -/
theorem mem_liveShards {e : Nat × Bytes} : e ∈ liveShards d ↔ d.steps.num.shardAddr ≠ 0 ∧ e.1 < d.steps.num.shardCount ∧
    e.2 = tableEntry d e.1 ∧ bit (fld e.2 26 1) 0 = true := by
  unfold liveShards
  split
  next h => simp [h]
  next h =>
    simp only [List.mem_filter, List.mem_map, List.mem_range]
    constructor
    · rintro ⟨⟨i, hi, rfl⟩, hvalid⟩
      exact ⟨h, hi, rfl, hvalid⟩
    · rintro ⟨-, hi, heq, hvalid⟩
      exact ⟨⟨e.1, hi, Prod.ext rfl heq.symm⟩, hvalid⟩

/-- The valid entries are read as memory holds them, and the read only counts. -/
theorem validShards_of_clear (h : tableClear d) : ∃ d', validShards d = (d', .ok (liveShards d)) ∧ Counted d d' := by
  by_cases hnone : d.steps.num.shardAddr = 0
  · exact ⟨d, by simp only [validShards, liveShards, if_pos hnone], d.counters, rfl⟩
  · obtain ⟨c, hread⟩ := readMem_of_clear (h hnone) none
    have hentries : ((List.range d.steps.num.shardCount).map fun i =>
        (i, slice (cellsRead d.mem.cells d.steps.num.shardAddr (64 * d.steps.num.shardCount)) (64 * i) 64)) =
        (List.range d.steps.num.shardCount).map fun i => (i, tableEntry d i) := by
      refine List.map_congr_left fun i hi => ?_
      have hlt := List.mem_range.mp hi
      rw [slice_cellsRead _ _ (by omega)]
      rfl
    refine ⟨_, ?_, c, rfl⟩
    simp only [validShards, liveShards, if_neg hnone, hread, hentries]

end

/-! ## The flip (R242) -/

/-- An entry with LIVE_SEL inverted and LIVE_STEP = `k`. -/
def flippedEntry (k : Nat) (e : Bytes) : Bytes := splice (splice e 26 [BitVec.ofNat 8 (fld e 26 1 ^^^ 4)]) 32 (leBytes 8 k)

/-- It differs from the entry in those two fields. -/
theorem flippedEntry_eq (k : Nat) {e : Bytes} (h : e.length = 64) : flippedEntry k e =
    e.take 26 ++ [BitVec.ofNat 8 (fld e 26 1 ^^^ 4)] ++ (e.take 32).drop 27 ++ leBytes 8 k ++ e.drop 40 := by
  have hslice (b : Bytes) (off : Nat) (hlen : off ≤ b.length) : slice b 0 off = b.take off := by
    simp [slice, Nat.min_eq_left hlen]
  have hinner : splice e 26 [BitVec.ofNat 8 (fld e 26 1 ^^^ 4)] = e.take 26 ++ [BitVec.ofNat 8 (fld e 26 1 ^^^ 4)] ++ e.drop 27 := by
    rw [splice, hslice e 26 (by omega), List.length_singleton]
  have hlen : (splice e 26 [BitVec.ofNat 8 (fld e 26 1 ^^^ 4)]).length = 64 := (splice_length (by simp [h])).trans h
  rw [flippedEntry, splice, hslice _ 32 (by omega), hinner, leBytes_length]
  simp [List.take_append, List.drop_append, List.drop_take, h]

/-- An entry keeps its length. -/
theorem flippedEntry_length (k : Nat) {e : Bytes} (h : e.length = 64) : (flippedEntry k e).length = 64 := by
  rw [flippedEntry_eq k h]
  simp [h]

/-- The writes of a flip: every valid entry, flipped. -/
def shardWrites (d : Dev) (k : Nat) : List (Nat × Bytes) := (liveShards d).map fun e => (shardAddr d e.1, flippedEntry k e.2)

/-- A write beside the writes of an operation, to memory without stored errors and without a window borrowed. -/
theorem writeMem_beside_of_quiet {d : Dev} {a : Nat} {b : Bytes} (hq : quietMemory d) (h : memClear d a b.length) :
    ∃ c, (writeMem d none a b).1 = { d with counters := c, mem.cells := cellsWrite d.mem.cells a b } := by
  obtain ⟨hown, hfault, -⟩ := h
  obtain ⟨c, haccess⟩ := accessed_of_quiet hq true a b b.length none
  have ⟨⟨_, hcfg⟩, hflips, _⟩ := hq
  obtain ⟨merge, hwrite⟩ := writeMem_eq hfault
  have hmerged (e : Dev × Option Byte) : mergeErrors d none a b.length e = e := by
    rw [mergeErrors, mergedFlips, flipsIn_of_flips hflips]
    rfl
  obtain ⟨f, hf, hstore⟩ := storeBytes_of_own (d := { d with counters := c }) b hcfg ((regionOf_of_inOwnMemory hown).imp_right .inl)
  obtain rfl : f = d.mem.flips := by
    have hnone : f ⊆ d.mem.flips := hf
    rw [hflips] at hnone ⊢
    exact List.subset_nil.mp hnone
  refine ⟨c, ?_⟩
  rw [hwrite, hmerged, ite_self, haccess, finishWrite, hstore]

section
variable {d : Dev} (hq : quietMemory d)
include hq

/-- Entries that are written one after another. -/
theorem foldl_writeShards {l : List (Nat × Bytes)} (g : Nat × Bytes → Bytes) (h : ∀ e ∈ l, memClear d (shardAddr d e.1) (g e).length) :
    ∃ c, l.foldl (fun d e => (writeMem d none (shardAddr d e.1) (g e)).1) d =
      { d with counters := c, mem.cells := writeCells d.mem.cells (l.map fun e => (shardAddr d e.1, g e)) } := by
  induction l generalizing d with
  | nil => exact ⟨d.counters, rfl⟩
  | cons e l ih =>
    obtain ⟨he, hl⟩ := List.forall_mem_cons.mp h
    obtain ⟨c, hwrite⟩ := writeMem_beside_of_quiet hq he
    have hframe : tablesFrame d { d with counters := c, mem.cells := cellsWrite d.mem.cells (shardAddr d e.1) (g e) } := ⟨_, _, _, _, rfl⟩
    obtain ⟨c', hrest⟩ := ih (hframe.quiet (cellsWf_cellsWrite _ _ _ (cellsWf_of_plainMemory hq.1)) hq)
      fun x hx => hframe.memClear hq.2.1 (hl x hx)
    refine ⟨c', ?_⟩
    rw [List.foldl_cons, hwrite, hrest]
    rfl

/-- The flip writes the valid entries, and counts. -/
theorem flipShards_of_clear (h : tableClear d) (k : Nat) :
    ∃ c, flipShards d k = { d with counters := c, mem.cells := writeCells d.mem.cells (shardWrites d k) } := by
  obtain ⟨d1, hread, hcounted⟩ := validShards_of_clear h
  have hframe : tablesFrame d d1 := by
    obtain ⟨_, rfl⟩ := hcounted
    exact ⟨_, _, _, _, rfl⟩
  have hclear : ∀ e ∈ liveShards d, memClear d1 (shardAddr d1 e.1) (flippedEntry k e.2).length := by
    intro e he
    obtain ⟨haddr, hi, hentry, -⟩ := mem_liveShards.mp he
    rw [flippedEntry_length k (by simp [hentry, cellsRead])]
    refine hframe.memClear hq.2.1 (memClear_of_part (h haddr) (by omega) ?_ ?_)
    · rw [shardAddr, hframe.steps_eq]
      omega
    · rw [shardAddr, hframe.steps_eq]
      omega
  obtain ⟨c, hwrites⟩ := foldl_writeShards (hframe.quiet (by rw [hcounted.mem_eq]; exact cellsWf_of_plainMemory hq.1) hq)
    (fun e => flippedEntry k e.2) hclear
  refine ⟨c, ?_⟩
  rw [flipShards, hread]
  refine hwrites.trans ?_
  obtain ⟨_, rfl⟩ := hcounted
  rfl

end

/-! ## Memory after the flip -/

section
variable {d : Dev} (k : Nat)

/-- A valid entry is flipped in its place. -/
theorem shardWrites_of_mem {w : Nat × Bytes} (h : w ∈ shardWrites d k) : ∃ i, i < d.steps.num.shardCount ∧ d.steps.num.shardAddr ≠ 0 ∧
    bit (fld (tableEntry d i) 26 1) 0 = true ∧ w = (shardAddr d i, flippedEntry k (tableEntry d i)) := by
  obtain ⟨e, he, rfl⟩ := List.mem_map.mp h
  obtain ⟨haddr, hi, hentry, hvalid⟩ := mem_liveShards.mp he
  rw [hentry] at hvalid ⊢
  exact ⟨e.1, hi, haddr, hvalid, rfl⟩

/-- An entry that is read has its 64 bytes. -/
theorem tableEntry_length (i : Nat) : (tableEntry d i).length = 64 := by simp [cellsRead]

/-- The flipped entries share no byte. -/
theorem shardWrites_disjoint : (shardWrites d k).Pairwise fun w w' => ∀ x, within w x → ¬ within w' x := by
  have hrising : (liveShards d).Pairwise fun e e' => e.1 < e'.1 := by
    unfold liveShards
    split
    · exact List.Pairwise.nil
    · refine List.Pairwise.filter _ (List.pairwise_map.mpr ?_)
      exact List.pairwise_lt_range
  refine List.pairwise_map.mpr (hrising.imp_of_mem fun {e e'} he _ hlt x hx hx' => ?_)
  obtain ⟨-, -, hentry, -⟩ := mem_liveShards.mp he
  obtain ⟨-, hend⟩ := hx
  obtain ⟨hstart, -⟩ := hx'
  rw [flippedEntry_length k (by rw [hentry]; exact tableEntry_length _)] at hend
  simp only [shardAddr] at hend hstart
  omega

/-- Bytes outside the table are kept. -/
theorem cellGet_flip_outside (hwf : cellsWf d.mem.cells = true) {z : Nat}
    (hz : ¬(d.steps.num.shardAddr ≤ z ∧ z < d.steps.num.shardAddr + 64 * d.steps.num.shardCount)) :
    cellGet (writeCells d.mem.cells (shardWrites d k)) z = cellGet d.mem.cells z := by
  refine cellGet_writeCells_outside hwf fun w hw => ?_
  obtain ⟨i, hi, -, -, rfl⟩ := shardWrites_of_mem k hw
  rintro ⟨hlow, hhigh⟩
  rw [flippedEntry_length k (tableEntry_length i)] at hhigh
  simp only [shardAddr] at hlow hhigh
  omega

/-- A valid entry reads as flipped, any other one as before. -/
theorem cellsRead_flip (hwf : cellsWf d.mem.cells = true) {i : Nat} (hi : i < d.steps.num.shardCount) :
    cellsRead (writeCells d.mem.cells (shardWrites d k)) (shardAddr d i) 64 =
      if d.steps.num.shardAddr ≠ 0 ∧ bit (fld (tableEntry d i) 26 1) 0 = true then flippedEntry k (tableEntry d i) else tableEntry d i := by
  have hlen (j : Nat) : (flippedEntry k (tableEntry d j)).length = 64 := flippedEntry_length k (tableEntry_length j)
  split
  next h =>
    have hmem : (shardAddr d i, flippedEntry k (tableEntry d i)) ∈ shardWrites d k :=
      List.mem_map.mpr ⟨(i, tableEntry d i), mem_liveShards.mpr ⟨h.1, hi, rfl, h.2⟩, rfl⟩
    have hread := cellsRead_writeCells hwf (shardWrites_disjoint k) hmem
    rwa [hlen] at hread
  next h =>
    refine List.map_congr_left fun x hx => cellGet_writeCells_outside hwf fun w hw => ?_
    have hlt := List.mem_range.mp hx
    obtain ⟨j, -, haddr, hvalid, rfl⟩ := shardWrites_of_mem k hw
    rintro ⟨hlow, hhigh⟩
    rw [hlen] at hhigh
    simp only [shardAddr] at hlow hhigh
    obtain rfl : j = i := by omega
    exact h ⟨haddr, hvalid⟩

end

end Sys2Proof.ShardProofs
end

section
/-! SUPPORT. STEP_COMMIT (R234, R242): the control cycles that pass until it retires, the close of its step, what its retirement changes,
and from these and the rules of the ring hub's operations the statement. -/

namespace Sys2Proof.CommitProofs

open Sys2Proof Sys2Proof.Machine Sys2Proof.Safety Sys2Proof.HostProofs Sys2Proof.OrgProofs Sys2Proof.RingProofs Sys2Proof.MillProofs
  Sys2Proof.StoreProofs Sys2Proof.BadgerProofs Sys2Proof.StepProofs Sys2Proof.ShardProofs

/-! ## Control cycles that pass (R323, R409) -/

/-- Nothing has changed but the clock, with its slewing, and the event counters. -/
def Ticked (d d' : Dev) : Prop := ∃ k c x y, d' = { d with clock := k, counters := c, fabric.slew := x, fabric.slewAt := y }

namespace Ticked
variable {d d' d'' : Dev}

theorem refl (d : Dev) : Ticked d d := ⟨_, _, _, _, rfl⟩

theorem trans (h : Ticked d d') (h' : Ticked d' d'') : Ticked d d'' := by
  obtain ⟨_, _, _, _, rfl⟩ := h
  obtain ⟨_, _, _, _, rfl⟩ := h'
  exact ⟨_, _, _, _, rfl⟩

theorem ofCounted (h : Counted d d') : Ticked d d' := by
  obtain ⟨_, rfl⟩ := h
  exact ⟨_, _, _, _, rfl⟩

end Ticked

/-- Counts of a list. -/
theorem counted_foldl {α : Type} {g : Dev → α → Dev} (h : ∀ d x, Counted d (g d x)) (l : List α) (d : Dev) : Counted d (l.foldl g d) := by
  induction l generalizing d with
  | nil => exact ⟨_, rfl⟩
  | cons x l ih => exact (h d x).trans (ih _)

/-- The core cycles of a pulse are counted. -/
theorem counted_countCore (d : Dev) : Counted d (countCore d) := by
  unfold countCore
  dsimp only
  split
  · exact ⟨_, rfl⟩
  · refine counted_foldl (fun d t => ?_) _ d
    split
    · exact ⟨_, rfl⟩
    · exact ⟨_, rfl⟩

/-- A tick of the clock that is slewed in. -/
theorem ticked_slewTick (d : Dev) : Ticked d (slewTick d) := by
  unfold slewTick
  dsimp only
  split
  · exact .refl d
  · exact ⟨_, _, _, _, rfl⟩

/-- A pulse. -/
theorem ticked_pulse (d : Dev) : Ticked d (pulse d) := by
  have hcore := (ticked_slewTick d).trans (.ofCounted (counted_countCore (slewTick d)))
  unfold pulse
  dsimp only
  generalize countCore (slewTick d) = d1 at hcore
  refine hcore.trans ?_
  split
  · exact ⟨_, _, _, _, rfl⟩
  · exact ⟨_, _, _, _, rfl⟩

/-- A control cycle. -/
theorem ticked_nextCycle (d : Dev) : Ticked d (nextCycle d) := by
  unfold nextCycle
  dsimp only
  split
  · exact (ticked_pulse d).trans (ticked_pulse _)
  · exact ticked_pulse d

/-- A control cycle that may be waited for. -/
theorem ticked_if (c : Prop) [Decidable c] (d : Dev) : Ticked d (if c then nextCycle d else d) := by
  split
  · exact ticked_nextCycle d
  · exact .refl d

/-- The control cycles up to a retirement. -/
theorem ticked_retireTime (d : Dev) (ring : Nat) (o : Op) : Ticked d (retireTime d ring o) := by
  unfold retireTime
  exact (((ticked_if _ _).trans (ticked_if _ _)).trans (ticked_if _ _)).trans (ticked_if _ _)

/-- Nothing has changed but the clock, with its slewing, the event counters and the operations. -/
def Passed (d d' : Dev) : Prop :=
  ∃ k c x y r, d' = { d with clock := k, counters := c, fabric.slew := x, fabric.slewAt := y, hub.rings := r }

section
variable {d d' : Dev} (h : Passed d d')
include h

/-- The fault of an access to a line stays the same. The place of the line stays opaque in this proof, as in `lineFault_counted`. -/
theorem Passed.lineFault_eq : lineFault d' = lineFault d := by
  obtain ⟨k, c, x, y, r, rfl⟩ := h
  have hplace (line : Nat) : gddrLocate { d with clock := k, counters := c, fabric.slew := x, fabric.slewAt := y, hub.rings := r } line =
      gddrLocate d line := rfl
  delta lineFault
  funext line
  rw [hplace]
  cases gddrLocate d line with
  | none => rfl
  | some p => rfl

/-- Bytes that are stored without error stay so. -/
theorem Passed.memClear {a n : Nat} (hclear : memClear d a n) : memClear d' a n := by
  have hline := h.lineFault_eq
  obtain ⟨k, c, x, y, r, rfl⟩ := h
  obtain ⟨hown, hfault, hflips⟩ := hclear
  have hregion : rangeRegion { d with clock := k, counters := c, fabric.slew := x, fabric.slewAt := y, hub.rings := r } a n =
      rangeRegion d a n := rfl
  refine ⟨hown, ?_, hflips⟩
  unfold accessFault at hfault ⊢
  unfold inOwnMemory at hown
  rw [hregion, hline]
  split at hown
  next hr => rw [hr] at hfault ⊢; exact hfault
  next hr => rw [hr] at hfault ⊢; exact hfault
  next => cases hown

/-- The table of shards stays stored without error. -/
theorem Passed.tableClear (hclear : tableClear d) : tableClear d' := by
  intro hnone
  have hmem := fun hn => h.memClear (hclear hn)
  obtain ⟨_, _, _, _, _, rfl⟩ := h
  exact hmem hnone

/-- Memory stays quiet. -/
theorem Passed.quiet (hq : quietMemory d) : quietMemory d' := by
  obtain ⟨_, _, _, _, _, rfl⟩ := h
  exact hq

end

/-! ## The close of a step (R234, R242) -/

section
variable {d : Dev} {k : Nat} {st : StepState} (hst : stepState d k = some st)
include hst

/-- Without a census the close of a step is its flip, and the next step is the oldest. -/
theorem closeStep_of_open (hnone : d.steps.num.censusAddr = 0) (hcensus : st.census = []) (flipped : Nat) {e : Dev}
    (hflip : (if st.decision = some true then flipShards d k else d) = e) :
    closeStep d k flipped =
      markReady (cycle e + 1) { e with steps.oldest := k + 1, steps.opened := e.steps.opened.tail ++ [{}] } := by
  have hwrite : writeCensus d k flipped st = d := by simp only [writeCensus, hnone, if_true]
  have hsilent (x : Dev) : silentTensors x k st = x := by simp only [silentTensors, hcensus, List.foldl_nil]
  have hscale : delayedScaling d k = d := by simp only [delayedScaling, hnone, decide_true, Bool.true_or, if_true]
  have hkept : ({ d with steps.closed := d.steps.closed } : Dev) = d := rfl
  simp only [closeStep, hst, hwrite, hnone, if_true, hsilent, hkept, hscale, hflip]

end

/-! ## The retirement of a STEP_COMMIT (R56) -/

/-- Nothing has changed but the chutes, the Sequencer, the counters, the rings with the cycle of their latest retirement, and which requests
and collectives operations have a part in. -/
def Retires (d d' : Dev) : Prop := ∃ q x c p a l r, d' =
  { d with chutes := q, seq := x, counters := c, fabric.requests := p, fabric.parts := a, hub.lastRetire := l, hub.rings := r }

namespace Retires
variable {d d' d'' : Dev}

theorem trans (h : Retires d d') (h' : Retires d' d'') : Retires d d'' := by
  obtain ⟨_, _, _, _, _, _, _, rfl⟩ := h
  obtain ⟨_, _, _, _, _, _, _, rfl⟩ := h'
  exact ⟨_, _, _, _, _, _, _, rfl⟩

theorem ofModRing (d : Dev) (n : Nat) (f : Ring → Ring) : Retires d (modRing d n f) := ⟨_, _, _, _, _, _, _, rfl⟩

theorem ofMarkReady (t : Nat) (d : Dev) : Retires d (markReady t d) := ⟨_, _, _, _, _, _, _, rfl⟩

theorem ofSeq (d : Dev) (x : Sequencer) : Retires d { d with seq := x } := ⟨_, _, _, _, _, _, _, rfl⟩

theorem steps_eq (h : Retires d d') : d'.steps = d.steps := by
  obtain ⟨_, _, _, _, _, _, _, rfl⟩ := h
  rfl

theorem mem_eq (h : Retires d d') : d'.mem = d.mem := by
  obtain ⟨_, _, _, _, _, _, _, rfl⟩ := h
  rfl

theorem granary_eq (h : Retires d d') : d'.granary = d.granary := by
  obtain ⟨_, _, _, _, _, _, _, rfl⟩ := h
  rfl

theorem bells_eq (h : Retires d d') : d'.hub.bells = d.hub.bells := by
  obtain ⟨_, _, _, _, _, _, _, rfl⟩ := h
  rfl

end Retires

/-- A ring that is changed is what is read of it. -/
theorem getRing_modRing_map (d : Dev) (n : Nat) (f : Ring → Ring) : getRing (modRing d n f) n = (getRing d n).map f :=
  tget_tmod_same ..

/-- A ring is read from the table of rings alone. -/
theorem getRing_congr {d d' : Dev} (h : d'.hub.rings = d.hub.rings) (n : Nat) : getRing d' n = getRing d n := by
  rw [getRing, getRing, h]

/-- What the Sequencer has released on a ring, without operation `seq`. -/
abbrev dropReleased (seq : W32) (r : Ring) : Ring := { r with released := r.released.filter fun e => e.1 != seq }

/-- A retirement lets the Sequencer look at the ring. -/
theorem seqLook_frame (d : Dev) (ring : Nat) : ∃ x, seqLook d ring = { d with seq := x } := by
  unfold seqLook
  split
  · exact ⟨_, rfl⟩
  · exact ⟨_, rfl⟩

/-- The Sequencer's part in a retirement: what it has released on the ring, and its own units. -/
theorem seqSuccess_frame (d : Dev) (ring : Nat) (seq : W32) :
    ∃ x, seqSuccess d ring seq = { modRing d ring (dropReleased seq) with seq := x } := by
  unfold seqSuccess
  dsimp only
  split
  · exact seqLook_frame ..
  next u _ =>
    split
    · exact seqLook_frame (unitRetired _ _) ring
    · exact seqLook_frame { modRing d ring (dropReleased seq) with seq := _ } ring

/-- A ring without an operation. -/
abbrev dropOp (o : Op) (r : Ring) : Ring := { r with ops := r.ops.filter fun p => p.seq != o.seq }

/-- An operation of the ring hub leaves its ring. -/
theorem leaveRing_hub_frame (d : Dev) (ring : Nat) (o : Op) :
    Retires d (leaveRing d ring .hub o) ∧ getRing (leaveRing d ring .hub o) ring = (getRing d ring).map (dropOp o) :=
  ⟨⟨_, _, _, _, _, _, _, rfl⟩, tget_tmod_same ..⟩

/-- A completed STEP_COMMIT in the success class, at the head of a running ring, that brings no census, status word, signal or interrupt,
and whose requests are answered. -/
structure Commits (d : Dev) (ring : Nat) (r : Ring) (o : Op) : Prop where
  ring_eq : getRing d ring = some r
  target : ringTarget d ring = some .hub
  running : r.st = .running
  unhalted : r.haltAt = none
  head : r.ops.head? = some o
  phase : o.phase = .complete
  sound : o.failed = false
  unaborted : o.aborted = false
  opcode : o.opcode = 0x0981
  census : o.census = []
  word : o.statusEn = false
  signal : o.sigEn = false
  vector : o.irq = false
  answered : awaits d (o.name ring) = false

/-- A ring from which operation `o` has retired in the success class. -/
def retiredRing (o : Op) (r : Ring) : Ring := dropReleased o.seq (dropOp o { r with retired := r.retired + 1 })

/-- The numbers of the operations that stay. -/
theorem seqs_retiredRing {o : Op} {r : Ring} {rest : List Op} (h : r.ops.map (·.seq) = o.seq :: rest.map (·.seq))
    (hrest : ∀ p ∈ rest, p.seq ≠ o.seq) : (retiredRing o r).ops.map (·.seq) = rest.map (·.seq) := by
  have hstay : ∀ x ∈ rest.map (·.seq), (x != o.seq) = true := by
    intro x hx
    obtain ⟨p, hp, rfl⟩ := List.mem_map.mp hx
    exact bne_iff_ne.mpr (hrest p hp)
  calc (r.ops.filter fun p => p.seq != o.seq).map (·.seq)
    _ = (r.ops.map (·.seq)).filter (· != o.seq) := (List.filter_map (p := (· != o.seq)) (f := fun p : Op => p.seq)).symm
    _ = rest.map (·.seq) := by rw [h, List.filter_cons_of_neg (by simp), List.filter_eq_self.mpr hstay]

/-- With no chute bound, no entry is committed. -/
theorem commitEntries_of_unbound {d : Dev} (h : d.chutes = []) (n : OpName) : ∃ q, commitEntries (markLast d n) n = { d with chutes := q } := by
  have hlast : markLast d n = d := by
    unfold markLast
    rw [h]
    split
    · rfl
    · rfl
  unfold commitEntries
  rw [hlast, h, List.foldl_nil]
  unfold dropAbandoned
  dsimp only
  split
  · exact ⟨_, rfl⟩
  · exact ⟨_, rfl⟩

section
variable {ring : Nat} {r : Ring} {o : Op}

/-- Steps 3 to 6 of R56, where no chute is bound. -/
theorem retireEffects_of_commits {d0 d : Dev} (h : Commits d0 ring r o) (hchutes : d.chutes = []) :
    Retires d (retireEffects d ring r .hub o) ∧ getRing (retireEffects d ring r .hub o) ring = (getRing d ring).map (retiredRing o) := by
  obtain ⟨q, hcommit⟩ := commitEntries_of_unbound hchutes (o.name ring)
  have hbell (e : Dev) : hubBell e ring o = e := by simp [hubBell, h.opcode]
  have hmerge (e : Dev) (k : Nat) : mergeCensus e k (some (o.name ring)) o.census = e := by
    simp only [mergeCensus, h.census, List.isEmpty_nil, if_true]
  simp only [retireEffects, hcommit, settleSuccess, hmerge, hbell, h.signal, h.vector, Bool.false_eq_true, if_false]
  generalize hd1 : modRing (freeTaken { d with chutes := q } (o.name ring)) ring (fun r => { r with retired := r.retired + 1 }) = d1
  have hretires : Retires d d1 := by
    subst hd1
    exact ⟨_, _, _, _, _, _, _, rfl⟩
  have hring : getRing d1 ring = (getRing d ring).map fun r => { r with retired := r.retired + 1 } := by
    subst hd1
    exact getRing_modRing_map ..
  obtain ⟨hleave, hleft⟩ := leaveRing_hub_frame d1 ring o
  generalize leaveRing d1 ring .hub o = d2 at hleave hleft ⊢
  obtain ⟨x, hseq⟩ := seqSuccess_frame d2 ring o.seq
  rw [hseq]
  refine ⟨(hretires.trans hleave).trans ((Retires.ofModRing ..).trans (.ofSeq ..)), ?_⟩
  calc getRing (modRing d2 ring (dropReleased o.seq)) ring
    _ = (getRing d2 ring).map (dropReleased o.seq) := getRing_modRing_map ..
    _ = _ := by
      rw [hleft, hring, Option.map_map, Option.map_map]
      rfl

/-- A ring that runs, with no halt point, has nothing to settle. -/
theorem settleRing_of_running {d : Dev} (hring : getRing d ring = some r) (hrun : r.st = .running) (hhalt : r.haltAt = none) :
    settleRing d ring = d := by
  simp [settleRing, settleHalt, hring, hrun, hhalt]

/-- The retirement of a STEP_COMMIT: its step is closed, and the operation taken from its ring. -/
theorem opRetire_of_commits {d e x : Dev} {rx : Ring} (h : Commits d ring r o) (htime : retireTime d ring o = e)
    (hclose : closeStep e (o.f 32 8) o.detail.toNat = x)
    (hchutes : x.chutes = []) (harmed : x.granary.st ≠ .armed) (hxring : getRing x ring = some rx) (hxrun : rx.st = .running)
    (hxhalt : rx.haltAt = none) :
    Retires x (opRetire ring false d) ∧
      ∃ t e, opRetire ring false d = markReady t e ∧ getRing e ring = some (retiredRing o rx) := by
  subst htime
  obtain ⟨hretires, hring⟩ := retireEffects_of_commits (d := x) h hchutes
  generalize heffects : retireEffects x ring r .hub o = d1 at hretires hring
  rw [hxring, Option.map_some] at hring
  have hseq : Retires d1 (seqClose d1) := .ofSeq ..
  have hseqRing : getRing (seqClose d1) ring = some (retiredRing o rx) := hring
  have hcut : cutSnapshot (seqClose d1) (o.f 32 8) = seqClose d1 := by
    have hst : (seqClose d1).granary.st ≠ .armed := by rwa [hseq.granary_eq, hretires.granary_eq]
    simp [cutSnapshot, hst]
  have hsettle : settleRing (seqClose d1) ring = seqClose d1 := settleRing_of_running hseqRing hxrun hxhalt
  have hawaits : awaits (retireTime d ring o) (o.name ring) = false := by
    obtain ⟨_, _, _, _, e⟩ := ticked_retireTime d ring o
    rw [e]
    exact h.answered
  have hcommit : commitsStep o = true := by simp [commitsStep, h.opcode]
  have hword (e : Dev) (st : Byte) : writeStatus e (o.name ring) o st false = (e, none) := by simp [writeStatus, h.word]
  have heq : opRetire ring false d = markReady (cycle (retireTime d ring o) + 1) (seqClose d1) := by
    simp [opRetire, h.ring_eq, h.target, h.head, h.phase, h.running, h.unaborted, h.sound, hawaits, seekMerge, h.census, retireSuccess, hcommit,
      hclose, hword, heffects, hcut, hsettle]
  rw [heq]
  exact ⟨(hretires.trans hseq).trans (.ofMarkReady ..), _, _, rfl, hseqRing⟩

end

/-! ## STEP_COMMIT -/

/-- What of a ring a check of readiness leaves: its state, its halt point, its count of retired operations, and their numbers. -/
def ringOutline (r : Ring) : RingState × Option W32 × W32 × List W32 := (r.st, r.haltAt, r.retired, r.ops.map (·.seq))

/-- So it does. -/
theorem ringOutline_markedRing (t : Nat) (d : Dev) (r : Ring) : ringOutline (markedRing t d r) = ringOutline r := by
  have hseq : ((fun o : Op => o.seq) ∘ fun o => markOp (waitsMet d o) t d r o) = fun o => o.seq := by
    funext o
    exact markOp_seq ..
  simp only [ringOutline, markedRing, List.map_map, hseq]

/-- A ring after a check of readiness. -/
theorem getRing_markReady_outline {d : Dev} {k : Nat} {r : Ring} (h : getRing d k = some r) (t : Nat) :
    ∃ r', getRing (markReady t d) k = some r' ∧ ringOutline r' = ringOutline r :=
  ⟨_, (getRing_markReady t d k).trans (by rw [h, Option.map_some]), ringOutline_markedRing t d r⟩

/-- A change of the operation at the head of its ring. -/
theorem getRing_modOp_head {d : Dev} {n : OpName} {r : Ring} {o : Op} {rest : List Op} (hring : getRing d n.ring = some r)
    (hops : r.ops = o :: rest) (hseq : o.seq = n.seq) (hrest : ∀ p ∈ rest, p.seq ≠ o.seq) (f : Op → Op) :
    getRing (modOp d n f) n.ring = some { r with ops := f o :: rest } := by
  have hkept : rest.map (fun p => if p.seq == n.seq then f p else p) = rest := by
    refine (List.map_congr_left fun p hp => ?_).trans (List.map_id _)
    rw [← hseq, beq_false_of_ne (hrest p hp)]
    rfl
  rw [modOp, getRing_modRing_map, hring, Option.map_some, hops, List.map_cons, hkept, hseq, beq_self_eq_true, if_pos rfl]

/-- An operation of the ring hub as it completes. -/
abbrev completedOp (d : Dev) (st : Byte) (detail : Nat) (o : Op) : Op := { o with
  phase := .complete, status := st, detail := BitVec.ofNat 64 detail, completeAt := cycle d, sends := [], stallFrom := none }

/-- In the success class that is all that changes. -/
theorem completeOp_eq_modOp {st : Byte} (hst : st.toNat < 0x20) (d : Dev) (n : OpName) (detail : Nat) :
    completeOp d n st detail = modOp d n (completedOp d st detail) := if_pos hst

/-- An issued operation has the number it is named by. -/
theorem seq_of_issuedOp {d : Dev} {n : OpName} {o : Op} (h : issuedOp d n = some o) : o.seq = n.seq ∧ o.aborted = false := by
  obtain ⟨hget, -⟩ := issuedOp_eq_some h
  rw [issuedOp, hget] at h
  obtain ⟨r, -, hfind⟩ := Option.bind_eq_some_iff.mp ((getOp_eq d n).symm.trans hget)
  refine ⟨beq_iff_eq.mp (List.find?_some (p := fun o : Op => o.seq == n.seq) hfind), ?_⟩
  simp only [Option.ite_none_right_eq_some, Bool.and_eq_true, Bool.not_eq_true'] at h
  exact h.1.2

/-- A STEP_COMMIT at the head of its running ring, of the decided oldest step, that may close it: no ledger and no census holds it back, and
it brings no status word, signal or interrupt. -/
structure Closable (d : Dev) (n : OpName) (o : Op) (r : Ring) (rest : List Op) (st : StepState) (apply : Bool) : Prop where
  quiet : quietMemory d
  unbound : d.chutes = []
  hub : hubAt d 0x0981 n o
  ring_eq : getRing d n.ring = some r
  oldest : o.f 32 8 = d.steps.oldest
  isOpen : stepState d (o.f 32 8) = some st
  decided : st.decision = some apply
  ops : r.ops = o :: rest
  distinct : ∀ p ∈ rest, p.seq ≠ o.seq
  running : r.st = .running
  unhalted : r.haltAt = none
  fetched : o.failedFetch = false
  census : o.census = []
  word : o.statusEn = false
  signal : o.sigEn = false
  vector : o.irq = false
  answered : awaits d n = false
  stepCensus : st.census = []
  noCensus : d.steps.num.censusAddr = 0
  unarmed : d.granary.st ≠ .armed
  idle : apply = true → ledgerBusy d (o.f 32 8) = false
  clear : apply = true → tableClear d

section
variable {d : Dev} {n : OpName} {o : Op} {st : StepState} {apply : Bool}

/-- STEP_COMMIT of the decided oldest step, by its decision. -/
theorem stepCommitReady_of_decided (hat : hubAt d 0x0981 n o) (holdest : o.f 32 8 = d.steps.oldest)
    (hst : stepState d (o.f 32 8) = some st) (hdecided : st.decision = some apply) : stepCommitReady n d =
      if apply then
        if ledgerBusy d (o.f 32 8) then waitOn d n
        else match validShards d with
          | (d1, .error st) => completeOp d1 n st
          | (d1, .ok l) => completeOp d1 n stOk l.length
      else completeOp d n stStepSkipped := by
  have hcheck : stepIssueCheck d o = none := by simp only [stepIssueCheck, hat.2.2, if_pos holdest, if_true]
  rw [stepCommitReady, hubOp_of_hubAt hat]
  simp only [hcheck, hst, Option.bind_some, hdecided]
  cases apply <;> rfl

/-- An operation of the ring hub that goes on waiting does not retire. -/
theorem thenRetire_waitOn (hop : issuedOp d n = some o) : thenRetire n d (waitOn d n) = waitOn d n := by
  obtain ⟨hget, hphase⟩ := issuedOp_eq_some hop
  have hwaits := getOp_modOp (f := fun o : Op => { o with starting := false, stallFrom := some (o.stallFrom.getD (deviceTime d)) }) hget
    fun _ => rfl
  unfold thenRetire
  rw [hop, waitOn, hwaits]
  cases getRing (modOp d n fun o => { o with starting := false, stallFrom := some (o.stallFrom.getD (deviceTime d)) }) n.ring with
  | none => rfl
  | some r => simp [hphase]

/-- Nothing holds it back: it completes in the success class. -/
theorem Closable.completes {r : Ring} {rest : List Op} (h : Closable d n o r rest st apply) :
    ∃ d1 x k, Counted d d1 ∧ x.toNat < 0x20 ∧ stepCommitReady n d = completeOp d1 n x k := by
  rw [stepCommitReady_of_decided h.hub h.oldest h.isOpen h.decided]
  cases apply with
  | false => exact ⟨d, stStepSkipped, 0, ⟨_, rfl⟩, by decide, rfl⟩
  | true =>
    obtain ⟨d1, hread, hcounted⟩ := validShards_of_clear (h.clear rfl)
    refine ⟨d1, stOk, (liveShards d).length, hcounted, by decide, ?_⟩
    simp only [if_true, h.idle rfl, Bool.false_eq_true, if_false, hread]

/-- It goes on waiting while a ledger holds an entry of its step. -/
theorem stepCommit_of_busy (hat : hubAt d 0x0981 n o) (holdest : o.f 32 8 = d.steps.oldest) (hst : stepState d (o.f 32 8) = some st)
    (hdecided : st.decision = some true) (hbusy : ledgerBusy d (o.f 32 8) = true) : stepCommit n d = waitOn d n := by
  rw [stepCommit, stepCommitReady_of_decided hat holdest hst hdecided, if_pos rfl, if_pos hbusy]
  exact thenRetire_waitOn hat.1

/-- STEP_COMMIT while a ledger holds an entry of its step. -/
theorem exec_stepCommit_busy {s : State} (hw : atWork s) (hat : hubAt s.dev 0x0981 n o) (holdest : o.f 32 8 = s.dev.steps.oldest)
    (hst : stepState s.dev (o.f 32 8) = some st) (hdecided : st.decision = some true) (hbusy : ledgerBusy s.dev (o.f 32 8) = true) :
    acts (.stepCommit n.ring n.seq) s fun d =>
      (∃ p, issuedOp d n = some p ∧ p.stallFrom.isSome = true) ∧ { d with hub.rings := s.dev.hub.rings } = s.dev := by
  have ⟨_, _, hstalls⟩ := hw
  exact ⟨_, act_running hw (stepCommit_of_busy hat holdest hst hdecided hbusy) hstalls,
    ⟨_, issuedOp_modOp hat.1 (fun _ => rfl) rfl rfl, rfl⟩, rfl⟩

end

/-! ## The commit -/

/-- Up to its retirement time passes, and an operation completes. -/
theorem passed_retireTime {d d1 : Dev} (hcounted : Counted d d1) {x : Byte} (hx : x.toNat < 0x20) (n : OpName) (o : Op) (k : Nat) :
    Passed d (retireTime (completeOp d1 n x k) n.ring (completedOp d1 x k o)) ∧
      (retireTime (completeOp d1 n x k) n.ring (completedOp d1 x k o)).hub.rings = (completeOp d1 n x k).hub.rings := by
  obtain ⟨_, _, _, _, hticked⟩ := ticked_retireTime (completeOp d1 n x k) n.ring (completedOp d1 x k o)
  rw [hticked]
  obtain ⟨_, rfl⟩ := hcounted
  rw [completeOp_eq_modOp hx]
  exact ⟨⟨_, _, _, _, _, rfl⟩, rfl⟩

/-- Memory's bytes after the close of a step: under APPLY the valid entries are flipped. -/
def closedCells (d : Dev) (k : Nat) (apply : Bool) : List Host.Cell :=
  if apply then writeCells d.mem.cells (shardWrites d k) else d.mem.cells

/-- Device `e` with the step closed that is the oldest of device `d`, and with the counters of the flip. -/
abbrev withClose (d : Dev) (k : Nat) (apply : Bool) (c : Counters) (e : Dev) : Dev := { e with
  counters := c
  mem.cells := closedCells d k apply
  steps.oldest := k + 1
  steps.opened := d.steps.opened.tail ++ [{}] }

section
variable {d : Dev} {n : OpName} {o : Op} {r : Ring} {rest : List Op} {st : StepState} {apply : Bool}
  (h : Closable d n o r rest st apply)
include h

/-- The close of the step, some control cycles later. -/
theorem Closable.closes {e : Dev} (hpassed : Passed d e) (flipped : Nat) :
    ∃ t c, closeStep e (o.f 32 8) flipped = markReady t (withClose d (o.f 32 8) apply c e) := by
  have hflip : ∃ c, (if st.decision = some true then flipShards e (o.f 32 8) else e) =
      { e with counters := c, mem.cells := closedCells d (o.f 32 8) apply } := by
    rw [h.decided, closedCells]
    cases apply with
    | false =>
      obtain ⟨_, _, _, _, _, rfl⟩ := hpassed
      exact ⟨_, rfl⟩
    | true =>
      obtain ⟨c, hflip⟩ := flipShards_of_clear (hpassed.quiet h.quiet) (hpassed.tableClear (h.clear rfl)) (o.f 32 8)
      obtain ⟨_, _, _, _, _, rfl⟩ := hpassed
      exact ⟨c, hflip⟩
  obtain ⟨c, hflip⟩ := hflip
  have hopen : stepState e (o.f 32 8) = some st := by
    obtain ⟨_, _, _, _, _, rfl⟩ := hpassed
    exact h.isOpen
  have hnone : e.steps.num.censusAddr = 0 := by
    obtain ⟨_, _, _, _, _, rfl⟩ := hpassed
    exact h.noCensus
  have hsteps : e.steps = d.steps := by
    obtain ⟨_, _, _, _, _, rfl⟩ := hpassed
    rfl
  refine ⟨cycle e + 1, c, (closeStep_of_open hopen hnone h.stepCensus flipped hflip).trans ?_⟩
  rw [withClose, ← hsteps]
  rfl

/-- The operation once it has completed. -/
theorem Closable.commits {d1 : Dev} (hcounted : Counted d d1) {x : Byte} (hx : x.toNat < 0x20) (k : Nat) :
    Commits (completeOp d1 n x k) n.ring { r with ops := completedOp d1 x k o :: rest } (completedOp d1 x k o) := by
  obtain ⟨hseq, haborted⟩ := seq_of_issuedOp h.hub.1
  obtain ⟨-, htarget, hcode⟩ := h.hub
  have hname : (completedOp d1 x k o).name n.ring = n := by
    rw [Op.name, hseq]
  obtain ⟨c, rfl⟩ := hcounted
  rw [completeOp_eq_modOp hx]
  have hring := getRing_modOp_head (d := { d with counters := c }) h.ring_eq h.ops hseq h.distinct
  rw [ringTarget, h.ring_eq] at htarget
  exact {
    ring_eq := hring _
    target := by
      rw [ringTarget, hring]
      exact htarget
    running := h.running
    unhalted := h.unhalted
    head := rfl
    phase := rfl
    sound := by simp [Op.failed, h.fetched, hx]
    unaborted := haborted
    opcode := hcode
    census := h.census
    word := h.word
    signal := h.signal
    vector := h.vector
    answered := by
      rw [hname]
      exact h.answered }

/-- Once it has completed it is the oldest of its ring, and retires. -/
theorem Closable.thenRetire_eq {d1 : Dev} (hcounted : Counted d d1) {x : Byte} (hx : x.toNat < 0x20) (k : Nat) :
    thenRetire n d (completeOp d1 n x k) = opRetire n.ring false (completeOp d1 n x k) := by
  have hring := (h.commits hcounted hx k).ring_eq
  obtain ⟨hseq, -⟩ := seq_of_issuedOp h.hub.1
  have hget := (issuedOp_eq_some h.hub.1).1
  obtain ⟨c, rfl⟩ := hcounted
  rw [completeOp_eq_modOp hx] at hring ⊢
  have hcompleted := getOp_modOp (d := { d with counters := c }) (f := completedOp { d with counters := c } x k) hget fun _ => rfl
  simp [thenRetire, h.hub.1, hcompleted, hring, hseq]

/-- STEP_COMMIT closes its step, and its operation retires. -/
theorem Closable.stepCommit_eq : ∃ t c e d' r', Passed d e ∧ stepCommit n d = d' ∧
    Retires (markReady t (withClose d (o.f 32 8) apply c e)) d' ∧
    getRing d' n.ring = some r' ∧ r'.retired = r.retired + 1 ∧ r'.ops.map (·.seq) = rest.map (·.seq) := by
  obtain ⟨d1, x, k, hcounted, hx, hready⟩ := h.completes
  have heq : stepCommit n d = opRetire n.ring false (completeOp d1 n x k) := by
    rw [stepCommit, hready, h.thenRetire_eq hcounted hx]
  have hcommits := h.commits hcounted hx k
  obtain ⟨hpassed, hrings⟩ := passed_retireTime hcounted hx n o k
  obtain ⟨t, c, hclose⟩ := h.closes hpassed (completedOp d1 x k o).detail.toNat
  generalize htime : retireTime (completeOp d1 n x k) n.ring (completedOp d1 x k o) = e at hpassed hrings hclose
  have hring : getRing (withClose d (o.f 32 8) apply c e) n.ring = some { r with ops := completedOp d1 x k o :: rest } :=
    (getRing_congr hrings n.ring).trans hcommits.ring_eq
  obtain ⟨rx, hrx, houtline⟩ := getRing_markReady_outline hring t
  simp only [ringOutline, Prod.mk.injEq] at houtline
  obtain ⟨hrun, hhalt, hretired, hseqs⟩ := houtline
  have hkept : e.chutes = d.chutes ∧ e.granary = d.granary := by
    obtain ⟨_, _, _, _, _, rfl⟩ := hpassed
    exact ⟨rfl, rfl⟩
  obtain ⟨hretires, t', e', hend, hering⟩ := opRetire_of_commits hcommits htime hclose (hkept.1.trans h.unbound)
    (fun harmed => h.unarmed (hkept.2 ▸ harmed)) hrx (hrun.trans h.running) (hhalt.trans h.unhalted)
  obtain ⟨r', hr', hout'⟩ := getRing_markReady_outline hering t'
  simp only [ringOutline, Prod.mk.injEq] at hout'
  obtain ⟨-, -, hretired', hseqs'⟩ := hout'
  exact ⟨t, c, e, _, r', hpassed, heq, hretires, hend ▸ hr', hretired'.trans (congrArg (· + 1) hretired),
    hseqs'.trans (seqs_retiredRing hseqs h.distinct)⟩

/-- What memory holds of an entry after the close. -/
theorem Closable.entry_closed (k : Nat) {i : Nat} (hi : i < d.steps.num.shardCount) :
    cellsRead (closedCells d k apply) (shardAddr d i) 64 =
      if apply && d.steps.num.shardAddr != 0 && bit (fld (tableEntry d i) 26 1) 0 then flippedEntry k (tableEntry d i) else tableEntry d i := by
  cases apply with
  | false => rfl
  | true => simpa [closedCells] using cellsRead_flip k (cellsWf_of_plainMemory h.quiet.1) hi

/-- What it holds outside the table. -/
theorem Closable.outside_closed (k : Nat) {z : Nat}
    (hz : ¬(d.steps.num.shardAddr ≤ z ∧ z < d.steps.num.shardAddr + 64 * d.steps.num.shardCount)) :
    cellGet (closedCells d k apply) z = cellGet d.mem.cells z := by
  cases apply with
  | false => rfl
  | true => exact cellGet_flip_outside k (cellsWf_of_plainMemory h.quiet.1) hz

end

/-- STEP_COMMIT of a step that may be closed. -/
theorem exec_stepCommit_closable {s : State} {n : OpName} {o : Op} {r : Ring} {rest : List Op} {st : StepState} {apply : Bool}
    (hw : atWork s) (h : Closable s.dev n o r rest st apply) :
    acts (.stepCommit n.ring n.seq) s fun d => d.steps.oldest = o.f 32 8 + 1 ∧
      d.steps.opened = s.dev.steps.opened.tail ++ [{ flag := true }] ∧
      (∃ r', getRing d n.ring = some r' ∧ r'.retired = r.retired + 1 ∧ r'.ops.map (·.seq) = rest.map (·.seq)) ∧
      (∀ b, bellValue d b = bellValue s.dev b) ∧ d.mem.cells = closedCells s.dev (o.f 32 8) apply := by
  have ⟨_, _, hstalls⟩ := hw
  obtain ⟨t, c, e, d', r', hpassed, heq, hretires, hring, hretired, hseqs⟩ := h.stepCommit_eq
  have hkept : e.granary = s.dev.granary ∧ e.hub.bells = s.dev.hub.bells := by
    obtain ⟨_, _, _, _, _, rfl⟩ := hpassed
    exact ⟨rfl, rfl⟩
  obtain ⟨hgranary, hbells⟩ := hkept
  refine ⟨d', act_running hw heq ?_, ?_, ?_, ⟨r', hring, hretired, hseqs⟩, fun b => ?_, ?_⟩
  · rw [hretires.granary_eq]
    exact (congrArg (·.stalls) hgranary).trans hstalls
  · rw [hretires.steps_eq]
    rfl
  · rw [hretires.steps_eq]
    rfl
  · rw [bellValue, hretires.bells_eq]
    exact congrArg (tgetD · b 0) hbells
  · rw [hretires.mem_eq]
    rfl

/-- Settles O44: a decision by the issue's flag, the close at the retirement of STEP_COMMIT, and the stalls of both waits. -/
theorem stepDecisionAndCommit : Obligations.StepDecisionAndCommit := by
  refine ⟨fun s n o st hw hat hst => ⟨exec_stepDecide_undecided hat hst hw, exec_stepDecide_decided hat hst hw⟩,
    fun s n o r rest st apply hw hquiet hunstaged hat hring holdest hst hdecided => ⟨fun happly hbusy => ?busy, ?closes⟩,
    fun s n o r since hw hop hring hover hmet hfrom => stallLogs_of_eq hw hop rfl (stepDecisionStall_of_waiting hop hring hover hmet hfrom),
    fun s n o since hw hat hfrom => ⟨fun hbusy => ?late, fun hidle => ?idle⟩⟩
  case busy =>
    subst happly
    exact exec_stepCommit_busy hw hat holdest hst hdecided hbusy
  case closes =>
    intro table old flips hops hdistinct hrun hhalt hfetched haborted hcensus hword hsignal hvector hanswered hstepCensus hnoCensus hunarmed
      hidle hclear
    have h : Closable s.dev n o r rest st apply := {
      quiet := hquiet, unbound := hunstaged.1, hub := hat, ring_eq := hring, oldest := holdest, isOpen := hst, decided := hdecided, ops := hops
      distinct := hdistinct, running := hrun, unhalted := hhalt, fetched := hfetched, census := hcensus, word := hword, signal := hsignal
      vector := hvector, answered := hanswered, stepCensus := hstepCensus, noCensus := hnoCensus, unarmed := hunarmed, idle := hidle
      clear := hclear }
    obtain ⟨d, hexec, hnext, hopened, hretired, hbells, hcells⟩ := exec_stepCommit_closable hw h
    refine ⟨d, hexec, hnext.trans (congrArg (· + 1) holdest), hopened, hretired, hbells, fun i hi => ?_, fun z hz => ?_⟩
    · have hentry := h.entry_closed (o.f 32 8) hi
      rw [flippedEntry_eq (o.f 32 8) (tableEntry_length (d := s.dev) i), ← hcells] at hentry
      exact hentry
    · rw [byteAt, hcells]
      exact h.outside_closed (o.f 32 8) hz
  case late =>
    refine stallLogs_of_eq hw (issuedOp_eq_some hat.1).1 rfl ((ledgerBusyAtCommit_of_waiting hat hfrom).trans ?_)
    simp only [hbusy, true_and]
  case idle =>
    refine act_running_same hw ((ledgerBusyAtCommit_of_waiting hat hfrom).trans (if_neg ?_))
    simp [hidle]

end Sys2Proof.CommitProofs
end

section
/-! SUPPORT. SHARD_FETCH (R240, R241, R256): reads of another device's memory by class 0 requests, what a fetch does by the entries that it
has, and from these and the rules of the ring hub's operations the statement. -/

namespace Sys2Proof.FetchProofs

open Sys2Proof Sys2Proof.Machine Sys2Proof.Safety Sys2Proof.OrgProofs Sys2Proof.StoreProofs Sys2Proof.BadgerProofs Sys2Proof.StepProofs
  Sys2Proof.ShardProofs Sys2Proof.CommitProofs

/-! ## Requests to another device (R321, R322) -/

/-- A message to a device that can be reached goes, or is delivered here. -/
theorem injectMsg_of_routable {d : Dev} {m : FabMsg} (hcls : m.cls = 0) (h : routable d m.dest = true) :
    ∃ p x b c, injectMsg d m = ({ d with fabric.ports := p, out.fabric := x, out.flits := b, counters := c }, true) := by
  unfold injectMsg
  dsimp only
  rw [hcls]
  split
  next => exact ⟨_, _, _, _, rfl⟩
  next q dl _ =>
    obtain ⟨p, x, b, c, e⟩ := portSend_frame d q 6
      { m with src := d.fabric.coord, cls := 0, inject := BitVec.ofNat 32 (deviceTime d), hops := 1, dl := dl }
    exact ⟨p, x, b, c, Prod.ext e rfl⟩
  next hroute => simp [routable, hroute] at h

/-- Operation `n` has sent a read request of 64 bytes at `addr` of device `owner`, and memory, the steps and the
Granary are as they were. -/
structure Asked (d d' : Dev) (n : OpName) (owner : W16) (addr pass : Nat) : Prop where
  request : ∃ q ∈ d'.fabric.requests, q.op = n ∧ q.dest = owner ∧ q.read = true ∧ q.key = remoteKey owner addr ∧ q.len = 64 ∧ q.pass = pass
  mem : d'.mem = d.mem
  steps : d'.steps = d.steps
  granary : d'.granary = d.granary

/-- A read request to a device that can be reached. -/
theorem asked_sendRequest {d : Dev} {addr : Nat} {q : Request} (hread : q.read = true) (hkey : q.key = remoteKey q.dest addr)
    (hlen : q.len = 64) (h : routable d q.dest = true) :
    Asked d (sendRequest d q []).1 q.op q.dest addr q.pass ∧ (sendRequest d q []).1.hub.rings = d.hub.rings := by
  obtain ⟨p, x, b, c, e⟩ := injectMsg_of_routable (d := d) (m := {
    dest := q.dest, src := d.fabric.coord, cls := 0, op := ofBool (!q.read), hops := 0, inject := 0, tag := d.fabric.nextTag
    info := q.info, body := [] }) rfl h
  simp only [sendRequest, e, if_true, and_true]
  exact ⟨⟨_, List.mem_append_right _ (List.mem_singleton_self _), rfl, rfl, hread, hkey, hlen, rfl⟩, rfl, rfl, rfl⟩

/-! ## Reads of another device's memory (R256) -/

section
variable {d : Dev} {n : OpName} {o : Op} {owner : W16} {a : Nat} (hget : getOp d n = some o) (hroutable : routable d owner = true)
include hget hroutable

/-- A read of 64 bytes of which nothing has come, and that waits for no response, is asked for. -/
theorem remoteRead_of_fresh (hfetched : o.fetched = []) (hawaits : awaits d n = false) (pass : Nat) :
    ∃ d', remoteRead d n owner a 64 pass = (d', .waits) ∧ Asked d d' n owner a pass ∧ d'.hub.rings = d.hub.rings := by
  have hpieces : messagePieces 64 = [(0, 64)] := by decide
  have hleft : (messagePieces 64).filter (fun p => !(hasFetched d n (remoteKey owner (a + p.1)) p.2 pass)) = [(0, 64)] := by
    simp [hpieces, hasFetched, hget, hfetched]
  have hpending (key : Nat) : d.fabric.requests.any (fun r => r.op == n && r.key == key && r.pass == pass) = false := by
    refine List.any_eq_false.mpr fun r hr => ?_
    have hop := List.any_eq_false.mp hawaits r hr
    simp [Bool.eq_false_iff.mpr hop]
  refine ⟨_, ?_, asked_sendRequest (q := {
    tag := 0, sentAt := 0, op := n, dest := owner, key := remoteKey owner a, len := 64, read := true, pass := pass
    info := leBytes 8 a ++ leBytes 8 64 }) rfl rfl rfl hroutable⟩
  simp only [remoteRead, hroutable, hleft, hpending, Bool.not_true, Bool.false_eq_true, if_false, List.isEmpty_cons,
    List.foldl_cons, List.foldl_nil, Nat.add_zero]

/-- A read whose pieces have all come gives the other device's bytes. -/
theorem remoteRead_of_fetched {len pass : Nat} (h : ∀ p ∈ messagePieces len, (remoteKey owner (a + p.1), p.2, pass) ∈ o.fetched) :
    remoteRead d n owner a len pass = (d, .got (cellsRead d.mem.remote (remoteKey owner a) len)) := by
  have hleft : (messagePieces len).filter (fun p => !(hasFetched d n (remoteKey owner (a + p.1)) p.2 pass)) = [] := by
    refine List.filter_eq_nil_iff.mpr fun p hp => ?_
    simp [hasFetched, hget, h p hp]
  simp only [remoteRead, hroutable, hleft, Bool.not_true, Bool.false_eq_true, if_false, List.isEmpty_nil, if_true]

/-- A read of 64 bytes that have come. -/
theorem remoteRead_of_fetched_entry {pass : Nat} (h : (remoteKey owner a, 64, pass) ∈ o.fetched) :
    remoteRead d n owner a 64 pass = (d, .got (cellsRead d.mem.remote (remoteKey owner a) 64)) := by
  have hpieces : messagePieces 64 = [(0, 64)] := by decide
  refine remoteRead_of_fetched hget hroutable fun p hp => ?_
  rw [hpieces, List.mem_singleton] at hp
  rw [hp]
  exact h

end

/-! ## A fetch, by the entries that it has (R256) -/

/-- The owner that an entry names. -/
abbrev ownerOf (entry : Bytes) : W16 := BitVec.ofNat 16 (fld entry 28 2 % 2 ^ 15)

/-- The owner's entry, as its memory holds it. -/
abbrev theirEntry (d : Dev) (entry : Bytes) : Bytes := cellsRead d.mem.remote (remoteKey (ownerOf entry) (fld entry 40 8)) 64

/-- The buffer of an entry that is not live. -/
abbrev nextBuffer (entry : Bytes) : Nat := fld entry (if bit (fld entry 26 1) 2 then 0 else 8) 8

/-- The buffer of an entry that is live. -/
abbrev liveBuffer (entry : Bytes) : Nat := fld entry (if bit (fld entry 26 1) 2 then 8 else 0) 8

/-- The owner's live bytes of an entry. -/
abbrev ownersBytes (d : Dev) (entry : Bytes) : Bytes :=
  cellsRead d.mem.remote (remoteKey (ownerOf entry) (liveBuffer (theirEntry d entry))) (fld entry 16 8)

/-- Nothing has changed but the operations, the counters, and memory, which has the owner's live bytes in the buffer that is next here. -/
def shardCopied (d d' : Dev) (entry : Bytes) : Prop := ∃ r c,
  d' = { d with hub.rings := r, counters := c, mem.cells := cellsWrite d.mem.cells (nextBuffer entry) (ownersBytes d entry) }

section
variable {d : Dev} {n : OpName} {o p : Op} {entry : Bytes} (hget : getOp d n = some p) (hroutable : routable d (ownerOf entry) = true)
include hget hroutable

/-- Without the owner's entry it asks for it. -/
theorem fetchShard_of_fresh (hfetched : p.fetched = []) (hawaits : awaits d n = false) :
    Asked d (fetchShard n o entry d) n (ownerOf entry) (fld entry 40 8) 0 ∧ (fetchShard n o entry d).hub.rings = d.hub.rings := by
  obtain ⟨d', hread, hasked⟩ := remoteRead_of_fresh hget hroutable (a := fld entry 40 8) hfetched hawaits 0
  simpa only [fetchShard, hread] using hasked

variable (hentry : (remoteKey (ownerOf entry) (fld entry 40 8), 64, 0) ∈ p.fetched)
include hentry

/-- The owner's version is not there yet. -/
theorem fetchShard_of_earlier (h : fld (theirEntry d entry) 32 8 < o.f 32 8) : fetchShard n o entry d =
    modOp (waitOn d n) n fun o => { o with sendFrom := some (deviceTime d), fetched := [] } := by
  have hread := remoteRead_of_fetched_entry hget hroutable hentry
  simp only [fetchShard, hread, if_pos h]

/-- The owner's version has passed by. -/
theorem fetchShard_of_later (h : o.f 32 8 < fld (theirEntry d entry) 32 8) : fetchShard n o entry d =
    completeOp (modOp d n fun o => { o with outs := o.outs ++ [(nextBuffer entry, fld entry 16 8)] }) n stRemoteError
      (fld (theirEntry d entry) 32 8) := by
  have hread := remoteRead_of_fetched_entry hget hroutable hentry
  simp only [fetchShard, hread, if_neg (Nat.lt_asymm h), if_pos h]

/-- The owner's version is there, and its live buffer is copied into the one that is next here. -/
theorem fetchShard_of_current (hq : quietMemory d) (h : fld (theirEntry d entry) 32 8 = o.f 32 8)
    (hagain : (remoteKey (ownerOf entry) (fld entry 40 8), 64, 2) ∈ p.fetched)
    (hpieces : ∀ x ∈ messagePieces (fld entry 16 8),
      (remoteKey (ownerOf entry) (liveBuffer (theirEntry d entry) + x.1), x.2, 1) ∈ p.fetched)
    (hclear : memClear d (nextBuffer entry) (fld entry 16 8)) :
    ∃ d' p', getOp d' n = some p' ∧ shardCopied d d' entry ∧ fetchShard n o entry d = completeOp d' n stOk := by
  have hread := remoteRead_of_fetched_entry hget hroutable hentry
  have hsuspended := getOp_modOp (f := fun o : Op => { o with stallFrom := none }) hget fun _ => rfl
  obtain ⟨d1, hd1⟩ : ∃ d1, d1 = modOp d n fun o => { o with stallFrom := none } := ⟨_, rfl⟩
  rw [← hd1] at hsuspended
  have hrings : d1 = { d with hub.rings := d1.hub.rings } := by
    rw [hd1]
    rfl
  have hpassed : Passed d d1 := ⟨_, _, _, _, _, hrings⟩
  have hreach : routable d1 (ownerOf entry) = true := by
    rw [hrings]
    exact hroutable
  have hremote : d1.mem = d.mem := by rw [hrings]
  have hdata : remoteRead d1 n (ownerOf entry) (liveBuffer (theirEntry d entry)) (fld entry 16 8) 1 =
      (d1, .got (ownersBytes d entry)) := by
    rw [remoteRead_of_fetched hsuspended hreach hpieces, hremote]
  have hlen : (ownersBytes d entry).length = fld entry 16 8 := by simp [cellsRead]
  obtain ⟨c, hwrite⟩ := writeMem_of_quiet_own (hpassed.quiet hq) (by rw [hlen]; exact hpassed.memClear hclear) n
  have hwritten := getOp_modOp (d := { d1 with counters := c, mem.cells := cellsWrite d1.mem.cells (nextBuffer entry) (ownersBytes d entry) })
    (f := fun o : Op => { o with outs := o.outs ++ [(nextBuffer entry, (ownersBytes d entry).length)] }) hsuspended fun _ => rfl
  have hreread := remoteRead_of_fetched_entry hwritten hreach hagain
  refine ⟨_, _, hwritten, ?_, ?_⟩
  · rw [hrings]
    exact ⟨_, _, rfl⟩
  · have hearlier : ¬(fld (theirEntry d entry) 32 8 < o.f 32 8) := by omega
    have hlater : ¬(o.f 32 8 < fld (theirEntry d entry) 32 8) := by omega
    simp only [fetchShard, hread, if_neg hearlier, if_neg hlater, ← hd1, hdata, hwrite, hreread]
    rw [hremote]
    exact if_pos h

end

/-! ## SHARD_FETCH -/

/-- An issued operation is read from the table of rings alone. -/
theorem issuedOp_congr {d d' : Dev} (h : d'.hub.rings = d.hub.rings) (n : OpName) : issuedOp d' n = issuedOp d n := by
  rw [issuedOp, issuedOp, getOp_congr h]

/-- A fetch asks for the owner's entry, after a count and a change of its operation. -/
theorem fetchShard_of_modOp {d d1 : Dev} {n : OpName} {o : Op} {entry : Bytes} {f : Op → Op} (hcounted : Counted d d1)
    (hop : issuedOp d n = some o) (hseq : ∀ o, (f o).seq = o.seq) (hphase : (f o).phase = o.phase) (haborted : (f o).aborted = o.aborted)
    (hfetched : (f o).fetched = []) (hawaits : awaits d n = false) (hroutable : routable d (ownerOf entry) = true) :
    issuedOp (fetchShard n o entry (modOp d1 n f)) n = some (f o) ∧
      Asked d (fetchShard n o entry (modOp d1 n f)) n (ownerOf entry) (fld entry 40 8) 0 := by
  obtain ⟨c, rfl⟩ := hcounted
  have hissued := issuedOp_modOp (d := { d with counters := c }) hop hseq hphase haborted
  obtain ⟨⟨hrequest, hmem, hsteps, hgranary⟩, hrings⟩ :=
    fetchShard_of_fresh (o := o) (issuedOp_eq_some hissued).1 hroutable hfetched hawaits
  exact ⟨(issuedOp_congr hrings n).trans hissued, hrequest, hmem, hsteps, hgranary⟩

/-- The entry that a fetch names, where it is valid and not owned here. -/
theorem shardEntry_of_clear {d : Dev} {n : OpName} {o : Op} {st : StepState} (hst : stepState d (o.f 32 8) = some st)
    (htable : d.steps.num.shardAddr ≠ 0) (hcount : o.f 40 2 % 4096 < d.steps.num.shardCount)
    (hclear : memClear d (shardAddr d (o.f 40 2 % 4096)) 64) (hvalid : bit (fld (tableEntry d (o.f 40 2 % 4096)) 26 1) 0 = true)
    (hremote : bit (fld (tableEntry d (o.f 40 2 % 4096)) 26 1) 1 = false) :
    ∃ d1, shardEntry d n o = (d1, .ok (tableEntry d (o.f 40 2 % 4096))) ∧ Counted d d1 := by
  obtain ⟨d1, hread, hcounted⟩ := read_of_clear hclear n
  refine ⟨d1, ?_, hcounted⟩
  simp only [shardEntry, hst, Option.isNone_some, Bool.false_eq_true, if_false, if_neg htable, if_neg (Nat.not_le.mpr hcount), hread, hvalid,
    hremote, Bool.not_true, Bool.or_false]

section
variable {d : Dev} {n : OpName} {o : Op} (hat : hubAt d 0x0982 n o) (hfrom : o.sendFrom = none)
include hat hfrom

/-- A fetch whose entry is valid and not owned here, by its step's decision. -/
theorem shardFetch_of_new {st : StepState} {entry : Bytes} {d1 : Dev} (hst : stepState d (o.f 32 8) = some st) (hnew : o.entry = [])
    (hcheck : shardEntry d n o = (d1, .ok entry)) : Machine.shardFetch n d =
    if st.decision = some false then completeOp d1 n stStepSkipped
    else fetchShard n o entry (modOp d1 n fun o => { o with entry := entry }) := by
  rw [Machine.shardFetch, hubOp_of_hubAt hat]
  simp only [hfrom, hnew, hcheck, hst, Option.isSome_none, List.isEmpty_nil, Bool.not_true, Bool.false_eq_true, if_false, Option.bind_some,
    beq_iff_eq]

/-- A fetch that has its entry goes on with it. -/
theorem shardFetch_of_entry (hsome : o.entry ≠ []) : Machine.shardFetch n d = fetchShard n o o.entry d := by
  rw [Machine.shardFetch, hubOp_of_hubAt hat]
  simp [hfrom, hsome]

end

section
variable {s : State} {n : OpName} {o : Op} (hw : atWork s) (hat : hubAt s.dev 0x0982 n o)
include hw hat

/-- SHARD_FETCH_STALL of a fetch that waits. -/
theorem stallLogs_shardFetchStall {since : Nat} (hfrom : o.stallFrom = some since) :
    stallLogs (fun n => .shardFetchStall n.ring n.seq) 0x827 s n o since := by
  refine stallLogs_of_eq hw (issuedOp_eq_some hat.1).1 (f := Machine.shardFetchStall n) rfl ?_
  rw [Machine.shardFetchStall, hubOp_of_hubAt hat]
  simp only [hfrom, Option.isSome_some, overdue_some, Bool.true_and, Bool.and_eq_true, Bool.not_eq_true', decide_eq_true_eq]

/-- SHARD_FETCH_RETRY of a fetch whose latest read is 1 µs past. -/
theorem exec_shardFetchRetry {t : Nat} (hfrom : o.sendFrom = some t) (hfetched : o.fetched = []) (hawaits : awaits s.dev n = false)
    (hdue : t + 1000 ≤ deviceTime s.dev) (hroutable : routable s.dev (ownerOf o.entry) = true) :
    acts (.shardFetchRetry n.ring n.seq) s fun d => issuedOp d n = some { o with sendFrom := none } ∧
      Asked s.dev d n (ownerOf o.entry) (fld o.entry 40 8) 0 := by
  have ⟨_, _, hstalls⟩ := hw
  have heq : Machine.shardFetchRetry n s.dev = fetchShard n o o.entry (modOp s.dev n fun o => { o with sendFrom := none }) := by
    rw [Machine.shardFetchRetry, hubOp_of_hubAt hat]
    simp only [hfrom, if_pos hdue]
  obtain ⟨hissued, hasked⟩ := fetchShard_of_modOp (entry := o.entry) (f := fun o => { o with sendFrom := none }) ⟨_, rfl⟩ hat.1
    (fun _ => rfl) rfl rfl hfetched hawaits hroutable
  exact ⟨_, act_running hw heq (hasked.granary ▸ hstalls), hissued, hasked⟩

variable (hfrom : o.sendFrom = none)
include hfrom

section
variable {st : StepState} (hst : stepState s.dev (o.f 32 8) = some st) (hnew : o.entry = []) {entry : Bytes} {d1 : Dev}
  (hcheck : shardEntry s.dev n o = (d1, .ok entry)) (hcounted : Counted s.dev d1)
include hst hnew hcheck hcounted

/-- Under SKIP it ends. -/
theorem exec_shardFetch_skipped (hskip : st.decision = some false) :
    acts (.shardFetch n.ring n.seq) s fun d => ended d n 0x02 0 ∧ d.mem = s.dev.mem := by
  have ⟨_, _, hstalls⟩ := hw
  obtain ⟨c, rfl⟩ := hcounted
  have heq := (shardFetch_of_new hat hfrom hst hnew hcheck).trans (if_pos hskip)
  exact ⟨_, act_running hw heq hstalls, ended_completeOp (d := { s.dev with counters := c }) (issuedOp_eq_some hat.1).1 .., rfl⟩

/-- Otherwise it asks for the owner's entry. -/
theorem exec_shardFetch_asks (hfetched : o.fetched = []) (hawaits : awaits s.dev n = false) (hskip : st.decision ≠ some false)
    (hroutable : routable s.dev (ownerOf entry) = true) :
    acts (.shardFetch n.ring n.seq) s fun d => issuedOp d n = some { o with entry := entry } ∧
      Asked s.dev d n (ownerOf entry) (fld entry 40 8) 0 := by
  have ⟨_, _, hstalls⟩ := hw
  have heq := (shardFetch_of_new hat hfrom hst hnew hcheck).trans (if_neg hskip)
  obtain ⟨hissued, hasked⟩ := fetchShard_of_modOp (f := fun o => { o with entry := entry }) hcounted hat.1
    (fun _ => rfl) rfl rfl hfetched hawaits hroutable
  exact ⟨_, act_running hw heq (hasked.granary ▸ hstalls), hissued, hasked⟩

end

variable (hsome : o.entry ≠ []) (hroutable : routable s.dev (ownerOf o.entry) = true)
  (hentry : (remoteKey (ownerOf o.entry) (fld o.entry 40 8), 64, 0) ∈ o.fetched)
include hsome hroutable hentry

/-- A fetch of a version that is not there yet waits. -/
theorem exec_shardFetch_earlier (h : fld (theirEntry s.dev o.entry) 32 8 < o.f 32 8) :
    acts (.shardFetch n.ring n.seq) s fun d => (∃ p, issuedOp d n = some p ∧ p.stallFrom.isSome = true ∧
      p.sendFrom = some (deviceTime s.dev) ∧ p.fetched = []) ∧ d.mem = s.dev.mem := by
  have ⟨_, _, hstalls⟩ := hw
  have heq := (shardFetch_of_entry hat hfrom hsome).trans (fetchShard_of_earlier (issuedOp_eq_some hat.1).1 hroutable hentry h)
  have hwaits : issuedOp (waitOn s.dev n) n = some { o with starting := false, stallFrom := some (o.stallFrom.getD (deviceTime s.dev)) } :=
    issuedOp_modOp hat.1 (fun _ => rfl) rfl rfl
  exact ⟨_, act_running hw heq hstalls, ⟨_, issuedOp_modOp hwaits (fun _ => rfl) rfl rfl, rfl, rfl, rfl⟩, rfl⟩

/-- A fetch of a version that has passed by fails. -/
theorem exec_shardFetch_later (h : o.f 32 8 < fld (theirEntry s.dev o.entry) 32 8) :
    acts (.shardFetch n.ring n.seq) s fun d => ended d n 0x3B (fld (theirEntry s.dev o.entry) 32 8) ∧ d.mem = s.dev.mem := by
  have ⟨_, _, hstalls⟩ := hw
  have hget := (issuedOp_eq_some hat.1).1
  have heq := (shardFetch_of_entry hat hfrom hsome).trans (fetchShard_of_later hget hroutable hentry h)
  have houts := getOp_modOp (f := fun p : Op => { p with outs := p.outs ++ [(nextBuffer o.entry, fld o.entry 16 8)] }) hget fun _ => rfl
  refine ⟨_, act_running hw heq ?_, ended_completeOp houts .., completeOp_mem ..⟩
  rw [completeOp_granary]
  exact hstalls

/-- A fetch of the version that is there copies it. -/
theorem exec_shardFetch_current (hq : quietMemory s.dev) (h : fld (theirEntry s.dev o.entry) 32 8 = o.f 32 8)
    (hagain : (remoteKey (ownerOf o.entry) (fld o.entry 40 8), 64, 2) ∈ o.fetched)
    (hpieces : ∀ x ∈ messagePieces (fld o.entry 16 8),
      (remoteKey (ownerOf o.entry) (liveBuffer (theirEntry s.dev o.entry) + x.1), x.2, 1) ∈ o.fetched)
    (hclear : memClear s.dev (nextBuffer o.entry) (fld o.entry 16 8)) :
    acts (.shardFetch n.ring n.seq) s fun d => ended d n 0x00 0 ∧ shardCopied s.dev d o.entry := by
  have ⟨_, _, hstalls⟩ := hw
  obtain ⟨d', p', hget, ⟨r, c, hcopied⟩, hfetch⟩ :=
    fetchShard_of_current (issuedOp_eq_some hat.1).1 hroutable hentry hq h hagain hpieces hclear
  have heq := (shardFetch_of_entry hat hfrom hsome).trans hfetch
  have hended := ended_completeOp hget stOk 0
  obtain ⟨r', hcomplete⟩ := completeOp_success (st := stOk) (by decide) d' n 0
  rw [hcomplete] at heq hended
  subst hcopied
  exact ⟨_, act_running hw heq hstalls, hended, r', c, rfl⟩

end

/-- Settles O45: the requests of a fetch, what it does by the owner's version, its retry and its stall. -/
theorem shardFetch : Obligations.ShardFetch := by
  refine ⟨fun s n o st hw _ hat hst hfrom hnew hfetched hawaits htable hcount => ?issue,
    fun s n o hw hq hat hfrom hsome => ?goesOn,
    fun s n o t hw hat hfrom hfetched hawaits hdue hroutable => ?retry,
    fun s n o since hw hat hfrom => stallLogs_shardFetchStall hw hat hfrom⟩
  case issue =>
    intro a entry hclear hvalid hremote
    obtain ⟨d1, hcheck, hcounted⟩ := shardEntry_of_clear hst htable hcount hclear hvalid hremote
    refine ⟨exec_shardFetch_skipped hw hat hfrom hst hnew hcheck hcounted, fun hskip hroutable => ?_⟩
    obtain ⟨d, hexec, hissued, hrequest, hmem, hsteps, -⟩ :=
      exec_shardFetch_asks hw hat hfrom hst hnew hcheck hcounted hfetched hawaits hskip hroutable
    exact ⟨d, hexec, congrArg (Option.map (·.entry)) hissued, hrequest, hmem, hsteps⟩
  case goesOn =>
    intro owner theirs next len live entryFetched hroutable hentry
    refine ⟨exec_shardFetch_earlier hw hat hfrom hsome hroutable hentry, exec_shardFetch_later hw hat hfrom hsome hroutable hentry,
      fun h hagain hpieces hclear => ?_⟩
    obtain ⟨d, hexec, hended, r, c, hcopied⟩ := exec_shardFetch_current hw hat hfrom hsome hroutable hentry hq h hagain hpieces hclear
    subst hcopied
    exact ⟨_, hexec, hended, LoomStoreProofs.bytesStored_of_write hq.1 rfl, rfl, rfl⟩
  case retry =>
    obtain ⟨d, hexec, hissued, hrequest, hmem, hsteps, -⟩ := exec_shardFetchRetry hw hat hfrom hfetched hawaits hdue hroutable
    exact ⟨d, hexec, congrArg (Option.map (·.sendFrom)) hissued, hrequest, hmem, hsteps⟩

end Sys2Proof.FetchProofs
end

section
/-! SUPPORT. A copy that fails after a STEP_DECIDE has been issued (R237, R238, R272): a device at which the statement on the units of the
Sequencer fails. -/

namespace Sys2Proof.SequencerProofs

open Sys2Proof Sys2Proof.Machine Sys2Proof.Safety Sys2Proof.OrgProofs Sys2Proof.RingProofs Sys2Proof.Tests

/-- A member with the copy of the saves of micro-batch 1 to the pool under way. -/
def copyingMember : Member := { member0 with pool := 0x100000, copies := [(0, 1, 1)] }

/-- A step with its flag set, which a STEP_DECIDE in flight has read. -/
def decidingStep : StepState := { deciding := some true }

/-- A device at work with that member, whose step is being decided. -/
def decidingDev : Dev := { scriptDev copyingMember with steps.opened := [decidingStep, {}, {}, {}] }

/-- The copy has started, and both its places are stored without error. -/
theorem copyRuns_decidingDev :
    copyPlaces decidingDev (script0 copyingMember) copyingMember 0 1 = some (0x101000, sramBase 1 + 0x1000) ∧
    copyRuns decidingDev (script0 copyingMember) copyingMember 0 1 = true ∧
    memClear decidingDev 0x101000 (saveBytes copyingMember) ∧ memClear decidingDev (sramBase 1 + 0x1000) (saveBytes copyingMember) := by
  decide +kernel

/-- Its failure comes too late to clear the flag. -/
theorem flag_offloadDone_deciding :
    (stepState (offloadDone 0 1 false true decidingDev) 0).map (·.flag) = some true := by decide +kernel

/-- Refutes O46, at its clause on a failed OFFLOAD_DONE: the statement is of every undecided step, also of one that a STEP_DECIDE in flight
has read (`deciding`). That instruction takes the flag as it stands at its issue (R238), so the clear of the failed copy is late there
(R237) and leaves the flag set. The premise that no STEP_DECIDE is in flight is missing. -/
theorem not_sequencerUnits : ¬ Obligations.SequencerUnits := by
  unfold Obligations.SequencerUnits
  rintro ⟨-, -, hcopy, -⟩
  obtain ⟨hplaces, hruns, hpool, hslot⟩ := copyRuns_decidingDev
  obtain ⟨-, hfailed⟩ := hcopy (stateOf decidingDev) (script0 copyingMember) copyingMember 0 1 0x101000 (sramBase 1 + 0x1000) false true
    (by decide +kernel) (by decide +kernel) rfl rfl rfl hplaces hruns hpool hslot
  have hacts := hfailed decidingStep rfl (by decide +kernel) rfl rfl rfl (by decide +kernel)
  obtain ⟨hflag, -⟩ := of_acts hacts
    (act_running (d := offloadDone 0 1 false true decidingDev) (by decide +kernel) rfl (by decide +kernel))
  rw [flag_offloadDone_deciding] at hflag
  cases hflag

end Sys2Proof.SequencerProofs
end

section
/-! SUPPORT. The migration of a stage (R277, R278, R279, R356): the bytes that the copy moves, what the tables hold once the stage has
moved, how the end of a migration is reported and arms what was held, and from these the statement. -/

namespace Sys2Proof.MigrationProofs

open Sys2Proof Sys2Proof.Machine Sys2Proof.Safety Sys2Proof.OrgProofs Sys2Proof.RingProofs Sys2Proof.StoreProofs Sys2Proof.StepProofs
  Sys2Proof.CommitProofs

/-! ## Bytes moved from one window to another -/

/-- An address lies in the window of `n` bytes from `base` on. -/
def inWindow (base n a : Nat) : Bool := decide (base ≤ a ∧ a < base + n)

theorem inWindow_iff {base n a : Nat} : inWindow base n a = true ↔ base ≤ a ∧ a < base + n := decide_eq_true_iff

/-- The stored bytes of the window at `src`, at their places in the window at `dst`. -/
def movedCells (src dst n : Nat) (m : List Host.Cell) : List Host.Cell :=
  m.filterMap fun c => if inWindow src n c.1 then some (c.1 - src + dst, c.2) else none

/-- The canonical form: the addresses ascend, and no byte listed is zero. -/
theorem cellsWf_iff {m : List Host.Cell} : cellsWf m = true ↔ (m.Pairwise fun c e => c.1 < e.1) ∧ ∀ c ∈ m, c.2 ≠ 0 := by
  induction m with
  | nil => simp [cellsWf]
  | cons c m ih =>
    rw [cellsWf_cons, ih, List.pairwise_cons, List.forall_mem_cons]
    tauto

/-- The bytes of SRAM and GDDR7 in memories that are in canonical form. -/
theorem cellsWf_of_memoryWf {m : Memory} (h : memoryWf m = true) : cellsWf m.cells = true := by
  simp only [memoryWf, Bool.and_eq_true] at h
  exact h.1.1

/-- Part of a memory is in canonical form. -/
theorem cellsWf_filter {m : List Host.Cell} (p : Host.Cell → Bool) (h : cellsWf m = true) : cellsWf (m.filter p) = true := by
  obtain ⟨hasc, hnz⟩ := cellsWf_iff.mp h
  exact cellsWf_iff.mpr ⟨hasc.filter p, fun c hc => hnz c (List.mem_filter.mp hc).1⟩

/-- A cell of the moved window is one of the window, at its new place. -/
theorem mem_movedCells {src dst n : Nat} {m : List Host.Cell} {c : Host.Cell} :
    c ∈ movedCells src dst n m ↔ ∃ e ∈ m, inWindow src n e.1 = true ∧ (e.1 - src + dst, e.2) = c := by
  simp [movedCells]

/-- A moved window is in canonical form. -/
theorem cellsWf_movedCells (src dst n : Nat) {m : List Host.Cell} (h : cellsWf m = true) : cellsWf (movedCells src dst n m) = true := by
  obtain ⟨hasc, hnz⟩ := cellsWf_iff.mp h
  refine cellsWf_iff.mpr ⟨List.Pairwise.filterMap _ (fun c e hlt c' hc' e' he' => ?_) hasc, fun c hc => ?_⟩
  · simp only [Option.ite_none_right_eq_some, Option.some.injEq, inWindow_iff] at hc' he'
    obtain ⟨hc, rfl⟩ := hc'
    obtain ⟨he, rfl⟩ := he'
    show c.1 - src + dst < e.1 - src + dst
    omega
  · obtain ⟨e, he, -, rfl⟩ := mem_movedCells.mp hc
    exact hnz e he

/-- What a table without some of its addresses finds. -/
theorem tget_filter_key {α : Type} (t : Table α) (p : Nat → Bool) (k : Nat) :
    tget (t.filter fun c => p c.1) k = if p k then tget t k else none := by
  induction t with
  | nil => simp [tget]
  | cons c t ih =>
    rw [List.filter_cons]
    obtain ⟨j, v⟩ := c
    obtain rfl | hk := eq_or_ne k j
    · by_cases hp : p k = true <;> simp [tget, hp, ih]
    · by_cases hp : p j = true <;> simp [tget, hk, hp, ih]

/-- What a moved window finds. -/
theorem tget_movedCells (src dst n : Nat) (m : List Host.Cell) (z : Nat) :
    tget (movedCells src dst n m) z = if inWindow dst n z then tget m (z - dst + src) else none := by
  induction m with
  | nil => simp [movedCells, tget]
  | cons c m ih =>
    obtain ⟨a, v⟩ := c
    unfold movedCells at ih ⊢
    by_cases ha : inWindow src n a = true
    · simp only [List.filterMap_cons, if_pos ha, tget, ih]
      rw [inWindow_iff] at ha
      by_cases hz : inWindow dst n z = true
      · have hkey : z = a - src + dst ↔ z - dst + src = a := by rw [inWindow_iff] at hz; omega
        simp only [if_pos hz, hkey]
      · have hkey : z ≠ a - src + dst := by rw [inWindow_iff] at hz; omega
        simp only [if_neg hz, if_neg hkey]
    · simp only [List.filterMap_cons, if_neg ha, tget, ih]
      rw [inWindow_iff] at ha
      by_cases hz : inWindow dst n z = true
      · have hkey : z - dst + src ≠ a := by rw [inWindow_iff] at hz; omega
        rw [if_neg hkey]
      · simp only [if_neg hz]

/-- A memory over which cells in canonical form are put reads each of them, and elsewhere as before. -/
theorem cellGet_foldl_cellPut {l m : List Host.Cell} (hl : cellsWf l = true) (hm : cellsWf m = true) (z : Nat) :
    cellGet (l.foldl (fun m c => cellPut m c.1 c.2) m) z = (tget l z).getD (cellGet m z) := by
  induction l generalizing m with
  | nil => rfl
  | cons c l ih =>
    obtain ⟨-, habove, hl⟩ := (cellsWf_cons c l).mp hl
    rw [List.foldl_cons, ih hl (cellsWf_cellPut m c.1 c.2 hm), cellGet_cellPut hm, tget]
    split_ifs with hz
    · rw [hz, tget_of_cellsAbove habove]
      rfl
    · rfl

/-- A copy of SRAM gives the destination's window the bytes of the source's, and every other byte is read as before. -/
theorem byteAt_copySram {d : Dev} (hwf : cellsWf d.mem.cells = true) (src dst z : Nat) :
    byteAt (copySram d src dst) z =
      if sramBase dst ≤ z ∧ z < sramBase dst + tileCapacity src then byteAt d (z - sramBase dst + sramBase src) else byteAt d z := by
  have hcells : (copySram d src dst).mem.cells =
      (movedCells (sramBase src) (sramBase dst) (tileCapacity src) d.mem.cells).foldl (fun m c => cellPut m c.1 c.2)
        (d.mem.cells.filter fun c => !inWindow (sramBase dst) (tileCapacity src) c.1) := by
    unfold copySram
    simp only [noteWrite_mem]
    rfl
  rw [byteAt, hcells, cellGet_foldl_cellPut (cellsWf_movedCells _ _ _ hwf) (cellsWf_filter _ hwf), tget_movedCells]
  unfold byteAt cellGet tgetD
  rw [tget_filter_key d.mem.cells fun a => !inWindow (sramBase dst) (tileCapacity src) a]
  simp only [Bool.not_eq_true', ← Bool.not_eq_true, inWindow_iff]
  split_ifs with hz
  · rfl
  · rfl

/-! ## The device whose stage has moved (R278, R279) -/

/-- The rings of a stage take the destination as their target. -/
def retargetRings (d : Dev) (rings : List Nat) (src dst : Nat) : Dev :=
  rings.foldl (fun d n => modRing d n fun r => { r with target := r.target - src + dst }) d

/-- The device after the copy of stage `st` by migration `g`, before the source is retired. -/
def moveStage (d : Dev) (g : Migration) (st : Stage) : Dev :=
  let e := retargetRings (retileSends (rebindChutes (copyEngines (copySram d st.tile g.dest) st.tile g.dest) st.tile g.dest)
    st.tile g.dest) st.rings st.tile g.dest
  { e with
    mills := tmod e.mills st.tile fun m => { m with sets := m.sets.filter fun s => !(st.rings.contains s.owner) }
    seq.stages := tput e.seq.stages g.stage { st with tile := g.dest }
    seq.migration := none }

/-- A tile is retired: its domains are OFF (R278, R413). -/
def retireTile (d : Dev) (tile : Nat) : Dev :=
  { d with
    units.testTiles := d.units.testTiles ++ [tile]
    power.domains := (d.power.domains.set tile .off).set (64 + tile) .off }

/-- The end of a migration is recorded, its mailbox is answered, and the members' next units are looked at. -/
def reportEnd (d : Dev) (ev m : Nat) (r : MbxResponse) : Dev := markRipe (answerMbx (logEvent d ev .hub 0) m r)

/-- A ring whose operations send to tile `dst` what they would have sent to tile `src` (log 110). -/
def retiledRing (src dst : Nat) (r : Ring) : Ring := { r with ops := r.ops.map (Op.retile src dst) }

/-- The operations of each ring send to the destination. -/
theorem getRing_retileSends (d : Dev) (src dst n : Nat) : getRing (retileSends d src dst) n = (getRing d n).map (retiledRing src dst) :=
  tget_map d.hub.rings (retiledRing src dst) n

/-- What a change of the target's rings leaves of each ring. -/
theorem getRing_retargetRings {rings : List Nat} (hnodup : rings.Nodup) (d : Dev) (src dst n : Nat) :
    getRing (retargetRings d rings src dst) n =
      (getRing d n).map fun r => { r with target := if n ∈ rings then r.target - src + dst else r.target } := by
  induction rings generalizing d with
  | nil => simp [retargetRings]
  | cons k rings ih =>
    obtain ⟨hk, hnodup⟩ := List.nodup_cons.mp hnodup
    rw [retargetRings, List.foldl_cons, ← retargetRings, ih hnodup]
    obtain rfl | hn := eq_or_ne n k
    · simp [getRing_modRing_map, hk, Function.comp_def]
    · simp [getRing_modRing_other _ _ hn, hn]

/-- It changes the rings alone. -/
theorem retargetRings_frame (rings : List Nat) (d : Dev) (src dst : Nat) :
    ∃ r, retargetRings d rings src dst = { d with hub.rings := r } := by
  induction rings generalizing d with
  | nil => exact ⟨_, rfl⟩
  | cons k rings ih =>
    obtain ⟨r, hr⟩ := ih (modRing d k fun r => { r with target := r.target - src + dst })
    exact ⟨r, hr⟩

/-- Loom `e` of tile `dst` is loaded with the current images of that of tile `src`, and takes its limit. -/
def reloadLoom (src dst : Nat) (d : Dev) (e : Nat) : Dev :=
  let l := tgetD d.looms (loomIndex src e) {}
  { d with looms := tput d.looms (loomIndex dst e) { tgetD d.looms (loomIndex dst e) {} with
      images := l.images.filter (·.current), nextImage := l.nextImage, limit := l.limit } }

/-- Updates of the Looms, one after another, change the Looms alone. -/
theorem foldl_looms_frame {α : Type} {f : Dev → α → Dev} (h : ∀ d x, ∃ l, f d x = { d with looms := l }) (xs : List α) (d : Dev) :
    ∃ l, xs.foldl f d = { d with looms := l } := by
  induction xs generalizing d with
  | nil => exact ⟨_, rfl⟩
  | cons x xs ih =>
    obtain ⟨l, hl⟩ := h d x
    obtain ⟨l', hl'⟩ := ih (f d x)
    exact ⟨l', by rw [List.foldl_cons, hl', hl]⟩

/-- The copy of the engines changes the engines of tiles, and the destination's Mill holds no claim. -/
theorem copyEngines_frame (d : Dev) (src dst : Nat) :
    ∃ l m x q b, copyEngines d src dst = { d with looms := l, mills := tput m dst { limit := x }, querns := q, badgers := b } := by
  obtain ⟨l, hl⟩ := foldl_looms_frame (f := reloadLoom src dst) (fun _ _ => ⟨_, rfl⟩) ((List.range 2).filter (loomExists src)) d
  unfold reloadLoom at hl
  unfold copyEngines
  dsimp only
  rw [hl]
  exact ⟨_, _, _, _, _, rfl⟩

/-- With no snapshot being copied, the copy of SRAM changes the memories and the pages counted as written. -/
theorem copySram_frame {d : Dev} (h : d.granary.st ≠ .copying) (src dst : Nat) :
    ∃ w c f, copySram d src dst = { d with granary.written := w, mem.cells := c, mem.flips := f } := by
  obtain ⟨w, hw⟩ := noteWrite_frame_of_idle h (sramBase dst) (tileCapacity src)
  unfold copySram
  dsimp only
  rw [hw]
  exact ⟨_, _, _, rfl⟩

/-- Ring `n` once the stage has moved to tile `dst`. -/
def movedRing (st : Stage) (dst n : Nat) (r : Ring) : Ring := { retiledRing st.tile dst r with
  target := if n ∈ st.rings then r.target - st.tile + dst else r.target }

/-- What a migration that has ended leaves alone: what reports rest on, the steps, and all of the Granary but the pages it counts as
written. -/
structure KeptByMigration (d e : Dev) : Prop where
  halted : e.hub.hardHalted = d.hub.hardHalted
  clock : e.clock = d.clock
  tally : e.tally = d.tally
  owl : e.owl = d.owl
  steps : e.steps = d.steps
  granary : ∃ w, e.granary = { d.granary with written := w }

/-- Device `e` is `d` after the copy of stage `st` by migration `g`. -/
structure StageMoved (d e : Dev) (g : Migration) (st : Stage) : Prop where
  migration : e.seq.migration = none
  stage : tget e.seq.stages g.stage = some { st with tile := g.dest }
  bytes : ∀ z, byteAt e z =
    if sramBase g.dest ≤ z ∧ z < sramBase g.dest + tileCapacity st.tile then byteAt d (z - sramBase g.dest + sramBase st.tile)
    else byteAt d z
  rings : ∀ n, getRing e n = (getRing d n).map (movedRing st g.dest n)
  claims : (getMill e g.dest).sets = []

section
variable {d : Dev} {g : Migration} {st : Stage}

/-- All that the copy changes: the destination's SRAM, the engines and chutes of both tiles, what names the source as a destination,
the rings of the stage, and the stage itself. -/
theorem moveStage_eq (hidle : d.granary.st ≠ .copying) (hnodup : st.rings.Nodup) : ∃ w f l m x u q b h t r, moveStage d g st = { d with
    granary.written := w, mem.cells := (copySram d st.tile g.dest).mem.cells, mem.flips := f, looms := l
    mills := tmod (tput m g.dest { limit := x }) st.tile u, querns := q, badgers := b, chutes := h, threshers := t, hub.rings := r
    seq.stages := tput d.seq.stages g.stage { st with tile := g.dest }, seq.migration := none } ∧
    ∀ n, tget r n = (getRing d n).map (movedRing st g.dest n) := by
  obtain ⟨w, c, f, hsram⟩ := copySram_frame hidle st.tile g.dest
  obtain ⟨l, m, x, q, b, hengines⟩ := copyEngines_frame (copySram d st.tile g.dest) st.tile g.dest
  unfold moveStage
  rw [hengines, hsram]
  generalize he : retileSends (rebindChutes _ _ _) _ _ = e
  obtain ⟨r, hr⟩ := retargetRings_frame st.rings e st.tile g.dest
  have hrings (n : Nat) := getRing_retargetRings hnodup e st.tile g.dest n
  rw [hr] at hrings ⊢
  subst he
  refine ⟨w, f, _, m, x, _, q, b, _, _, r, rfl, fun n => (hrings n).trans ?_⟩
  rw [getRing_retileSends, Option.map_map]
  rfl

/-- The copy moves the stage. -/
theorem stageMoved_moveStage (hwf : cellsWf d.mem.cells = true) (hidle : d.granary.st ≠ .copying) (hne : st.tile ≠ g.dest)
    (hnodup : st.rings.Nodup) : KeptByMigration d (moveStage d g st) ∧ StageMoved d (moveStage d g st) g st := by
  have hbytes := byteAt_copySram hwf st.tile g.dest
  obtain ⟨w, f, l, m, x, u, q, b, h, t, r, heq, hrings⟩ := moveStage_eq (g := g) hidle hnodup
  have hclaims : (tgetD (tmod (tput m g.dest { limit := x }) st.tile u) g.dest {}).sets = [] := by
    rw [tgetD, tget_tmod_other _ _ hne.symm, tget_tput_same]
    rfl
  rw [heq]
  exact ⟨⟨rfl, rfl, rfl, rfl, rfl, w, rfl⟩, ⟨rfl, tget_tput_same .., hbytes, hrings, hclaims⟩⟩

/-- The retirement of a tile leaves alone what reports rest on. -/
theorem KeptByMigration.retire {e : Dev} (h : KeptByMigration d e) (tile : Nat) : KeptByMigration d (retireTile e tile) :=
  ⟨h.halted, h.clock, h.tally, h.owl, h.steps, h.granary⟩

/-- It leaves the stage where it has moved. -/
theorem StageMoved.retire {e : Dev} (h : StageMoved d e g st) (tile : Nat) : StageMoved d (retireTile e tile) g st :=
  ⟨h.migration, h.stage, h.bytes, h.rings, h.claims⟩

/-- The stage that a migration moves. -/
theorem movingStage_eq (hg : d.seq.migration = some g) (hst : tget d.seq.stages g.stage = some st) : movingStage d = some (g, st) := by
  simp [movingStage, hg, hst]

/-- MIGRATE_COPY_DONE in the copy moves the stage and reports the end. -/
theorem migrateCopyDone_of_copy (hg : d.seq.migration = some g) (hst : tget d.seq.stages g.stage = some st) (hcopy : g.phase = .copy)
    (hwf : memoryWf d.mem = true) (hidle : d.granary.st ≠ .copying) (hne : st.tile ≠ g.dest) (hnodup : st.rings.Nodup) :
    ∃ e r, KeptByMigration d e ∧ StageMoved d e g st ∧ migrateCopyDone d = reportEnd e evStageMigrated g.mbx r := by
  obtain ⟨hkept, hmoved⟩ := stageMoved_moveStage (g := g) (cellsWf_of_memoryWf hwf) hidle hne hnodup
  have heq : migrateCopyDone d =
      let e := if g.retire then retireTile (moveStage d g st) st.tile else moveStage d g st
      reportEnd e evStageMigrated g.mbx { result := 0, body := leBytes 8 (deviceTime e) } := by
    simp only [migrateCopyDone, movingStage_eq hg hst, hcopy]
    rfl
  by_cases hretire : g.retire = true
  · rw [if_pos hretire] at heq
    exact ⟨_, _, hkept.retire st.tile, hmoved.retire st.tile, heq⟩
  · rw [if_neg hretire] at heq
    exact ⟨_, _, hkept, hmoved, heq⟩

/-- STAGE_MIGRATE_TIMEOUT after 1 s of drain ends the migration and reports it. -/
theorem stageMigrateTimeout_of_late (hg : d.seq.migration = some g) (hdrain : g.phase = .drain)
    (hlate : g.since + 1000000000 ≤ deviceTime d) :
    stageMigrateTimeout d = reportEnd { d with seq.migration := none } evStageMigrateTimeout g.mbx { result := 9, detail := 1 } := by
  simp only [stageMigrateTimeout, hg, hdrain, hlate, decide_true, Bool.and_self, if_true]
  rfl

/-- Before that it does nothing. -/
theorem stageMigrateTimeout_of_early (hg : d.seq.migration = some g) (hearly : ¬ g.since + 1000000000 ≤ deviceTime d) :
    stageMigrateTimeout d = d := by
  simp [stageMigrateTimeout, hg, hearly]

/-- MIGRATE_DRAIN_DONE begins the copy where no sender and no operation is left, and else does nothing. -/
theorem migrateDrainDone_of_drain (hg : d.seq.migration = some g) (hst : tget d.seq.stages g.stage = some st) (hdrain : g.phase = .drain) :
    migrateDrainDone d =
      if (d.chutes.all fun q => q.1 / 16 != st.tile || q.2.entries.all fun e => !e.st.isSent) = true ∧
          (st.rings.all fun n => (getRing d n).all fun r => r.ops.isEmpty && r.submitted == r.retired) = true then
        { d with seq.migration := some { g with phase := .copy } }
      else d := by
  have hsenders : (d.chutes.all fun q => q.1 / 16 != st.tile || q.2.entries.all fun e => !e.st.isSent) =
      !d.chutes.any fun q => q.1 / 16 == st.tile && q.2.entries.any fun e => e.st.isSent := by
    simp only [List.not_any_eq_all_not, Bool.not_and]
    rfl
  have hbusy : (st.rings.all fun n => (getRing d n).all fun r => r.ops.isEmpty && r.submitted == r.retired) =
      !st.rings.any fun n => (getRing d n).any fun r => !r.ops.isEmpty || r.submitted != r.retired := by
    rw [List.not_any_eq_all_not]
    congr 1
    funext n
    cases getRing d n with
    | none => rfl
    | some r => simp [bne]
  rw [hsenders, hbusy]
  simp only [migrateDrainDone, movingStage_eq hg hst, hdrain, decide_true, true_and, Bool.and_eq_true]

end

/-! ## The end of a migration is reported, and arms what was held (R356) -/

/-- A snapshot is held for step `k`. -/
abbrev snapshotHeld (d : Dev) (k : Nat) : Prop := d.granary.cfg ≠ none ∧ d.granary.st = .idle ∧ d.granary.heldStep = some k

/-- No request and no trigger is held. -/
abbrev nothingHeld (d : Dev) : Prop := d.granary.heldStep = none ∧ d.granary.heldTrigger = false

/-- The report of the end is recorded, and besides what a report changes it changes the scripts' marks and the mailboxes. -/
theorem reportEnd_frame {d : Dev} (h : d.hub.hardHalted = false) (ev m : Nat) (r : MbxResponse) :
    recorded d (reportEnd d ev m r) ev .hub 0 ∧ ∃ x b c o t h p, reportEnd d ev m r =
      { d with seq.scripts := x, iabor.mbx := b, counters := c, owl := o, tally := t, host := h, out := p } := by
  obtain ⟨c, i, p, w, e⟩ := HostProofs.logEvent_host_frame h ev .hub 0 none
  refine ⟨recorded_logEvent h ev .hub 0, ?_⟩
  rw [reportEnd, e]
  exact ⟨_, _, _, _, _, _, _, rfl⟩

/-- With no migration left, what is held arms at its step or the oldest open one. -/
theorem armHeld_of_held {d : Dev} {k : Nat} (h : snapshotHeld d k) (hmig : d.seq.migration = none) :
    (armHeld d).granary = { d.granary with
      heldStep := none, st := .armed, step := max k d.steps.oldest, byOwl := false, waiters := [] } := by
  obtain ⟨hcfg, hidle, hheld⟩ := h
  unfold armHeld requestStep
  rw [if_neg (by simp [hidle, hmig, hcfg]), hheld]
  dsimp only
  split
  next hlate => simp [armSnapshot, max_eq_right hlate.le]
  next hlate => simp [armSnapshot, max_eq_left (not_lt.mp hlate)]

/-- While a stage migrates, nothing arms. -/
theorem armHeld_of_migrating {d : Dev} {g : Migration} (h : d.seq.migration = some g) : armHeld d = d := by
  simp [armHeld, h]

/-- With nothing held, nothing arms. -/
theorem armHeld_of_nothingHeld {d : Dev} (h : nothingHeld d) : armHeld d = d := by
  obtain ⟨hstep, htrigger⟩ := h
  simp [armHeld, hstep, htrigger]

section
variable {s : State} {c : Instr} {f : Dev → Dev} {e : Dev} {ev m : Nat} {r : MbxResponse} (hw : atWork s)
  (hexec : exec c s = act s (running fun d => armHeld (f d))) (heq : f s.dev = reportEnd e ev m r)
  (hkept : KeptByMigration s.dev e)
include hw hexec heq hkept

/-- A command that ends a migration arms the snapshot that is held. -/
theorem acts_armed (hmig : e.seq.migration = none) {k : Nat} (hheld : snapshotHeld s.dev k) :
    acts c s fun d => d.granary.st = .armed ∧ d.granary.step = max k s.dev.steps.oldest := by
  have ⟨_, hrun, hstalls⟩ := hw
  obtain ⟨w, hgranary⟩ := hkept.granary
  obtain ⟨-, x, b, c', o, t, h, p, hframe⟩ := reportEnd_frame (hkept.halted.trans hrun) ev m r
  have hreported : (reportEnd e ev m r).granary = { s.dev.granary with written := w } := by rw [hframe]; exact hgranary
  have harmed := armHeld_of_held (d := reportEnd e ev m r) (k := k) (by rw [snapshotHeld, hreported]; exact hheld)
    (by rw [hframe]; exact hmig)
  have hsteps : (reportEnd e ev m r).steps = s.dev.steps := by rw [hframe]; exact hkept.steps
  refine ⟨_, hexec.trans (act_running hw (congrArg armHeld heq) ?_), ?_⟩
  · rw [harmed, hreported]
    exact hstalls
  · simp only [harmed, hsteps, and_self]

/-- With nothing held, its report is all that follows. -/
theorem exec_eq_reportEnd (hnothing : nothingHeld s.dev) : exec c s = .next { s with dev := reportEnd e ev m r } ∧
    recorded s.dev (reportEnd e ev m r) ev .hub 0 := by
  have ⟨_, hrun, hstalls⟩ := hw
  obtain ⟨w, hgranary⟩ := hkept.granary
  obtain ⟨hrec, x, b, c', o, t, h, p, hframe⟩ := reportEnd_frame (hkept.halted.trans hrun) ev m r
  have hreported : (reportEnd e ev m r).granary = { s.dev.granary with written := w } := by rw [hframe]; exact hgranary
  have hquiet : armHeld (reportEnd e ev m r) = reportEnd e ev m r :=
    armHeld_of_nothingHeld (by rw [nothingHeld, hreported]; exact hnothing)
  refine ⟨hexec.trans (act_running hw ((congrArg armHeld heq).trans hquiet) ?_), ?_⟩
  · rw [hreported]
    exact hstalls
  · unfold recorded deviceTime at hrec ⊢
    rwa [hkept.clock, hkept.tally, hkept.owl] at hrec

end

section
variable {s : State} {g : Migration} {st : Stage} (hw : atWork s) (hg : s.dev.seq.migration = some g)
  (hst : tget s.dev.seq.stages g.stage = some st)
include hw hg

/-- A drain that has not finished in time ends the migration and changes no stage, no ring and no memory. -/
theorem exec_stageMigrateTimeout_late (hdrain : g.phase = .drain) (hlate : g.since + 1000000000 ≤ deviceTime s.dev) :
    (∀ k, snapshotHeld s.dev k → acts .stageMigrateTimeout s fun d =>
      d.granary.st = .armed ∧ d.granary.step = max k s.dev.steps.oldest) ∧
    (nothingHeld s.dev → acts .stageMigrateTimeout s fun d => d.seq.migration = none ∧ recorded s.dev d 0x833 .hub 0 ∧
      d.seq.stages = s.dev.seq.stages ∧ d.hub = s.dev.hub ∧ d.mem = s.dev.mem) := by
  have ⟨_, hrun, _⟩ := hw
  have heq := stageMigrateTimeout_of_late hg hdrain hlate
  have hkept : KeptByMigration s.dev { s.dev with seq.migration := none } := ⟨rfl, rfl, rfl, rfl, rfl, _, rfl⟩
  refine ⟨fun k hheld => acts_armed hw rfl heq hkept rfl hheld, fun hnothing => ?_⟩
  obtain ⟨hexec, hrec⟩ := exec_eq_reportEnd (c := .stageMigrateTimeout) hw rfl heq hkept hnothing
  obtain ⟨-, x, b, c, o, t, h, p, hframe⟩ := reportEnd_frame (hkept.halted.trans hrun) evStageMigrateTimeout g.mbx
    { result := 9, detail := 1 }
  rw [hframe] at hexec hrec
  exact ⟨_, hexec, rfl, hrec, rfl, rfl, rfl⟩

include hst

/-- The end of the copy gives the destination the stage, its SRAM and its rings. -/
theorem exec_migrateCopyDone_copied (hcopy : g.phase = .copy) (hwf : memoryWf s.dev.mem = true) (hne : st.tile ≠ g.dest)
    (hnodup : st.rings.Nodup) (hidle : s.dev.granary.st ≠ .copying) :
    (∀ k, snapshotHeld s.dev k → acts .migrateCopyDone s fun d =>
      d.granary.st = .armed ∧ d.granary.step = max k s.dev.steps.oldest) ∧
    (nothingHeld s.dev → acts .migrateCopyDone s fun d => StageMoved s.dev d g st ∧ recorded s.dev d 0x430 .hub 0) := by
  have ⟨_, hrun, _⟩ := hw
  obtain ⟨e, r, hkept, hmoved, heq⟩ := migrateCopyDone_of_copy hg hst hcopy hwf hidle hne hnodup
  refine ⟨fun k hheld => acts_armed hw rfl heq hkept hmoved.migration hheld, fun hnothing => ?_⟩
  obtain ⟨hexec, hrec⟩ := exec_eq_reportEnd (c := .migrateCopyDone) hw rfl heq hkept hnothing
  obtain ⟨-, x, b, c, o, t, h, p, hframe⟩ := reportEnd_frame (hkept.halted.trans hrun) evStageMigrated g.mbx r
  rw [hframe] at hexec hrec
  exact ⟨_, hexec, ⟨hmoved.migration, hmoved.stage, hmoved.bytes, hmoved.rings, hmoved.claims⟩, hrec⟩

end

/-- Settles O47: the drain's two commands are their equations, the copy moves the stage, and the end of a migration is reported and
arms what was held. -/
theorem stageMigration : Obligations.StageMigration := by
  intro s g st hw hg hst held nothing
  have ⟨_, _, hstalls⟩ := hw
  refine ⟨fun hdrain => ⟨?drained, ?timeout⟩, fun hcopy hwf _ _ hne _ hnodup hidle => ?copied⟩
  case drained =>
    have heq := migrateDrainDone_of_drain hg hst hdrain
    split
    next hdone => exact act_running hw (heq.trans (if_pos hdone)) hstalls
    next hleft => exact act_running_same hw (heq.trans (if_neg hleft))
  case timeout =>
    split
    next hlate => exact exec_stageMigrateTimeout_late hw hg hdrain hlate
    next hearly => exact act_running_same hw (by rw [stageMigrateTimeout_of_early hg hearly, armHeld_of_migrating hg])
  case copied =>
    obtain ⟨harmed, hends⟩ := exec_migrateCopyDone_copied hw hg hst hcopy hwf hne hnodup hidle
    refine ⟨harmed, fun hnothing => ?_⟩
    obtain ⟨d, hexec, hmoved, hrec⟩ := hends hnothing
    refine ⟨d, hexec, fun i hi => ?_, fun z hz => (hmoved.bytes z).trans (if_neg hz), hmoved.stage, hmoved.migration,
      fun n r hring => ?_, fun n hnone => ?_, hmoved.claims, hrec⟩
    · have hplace : sramBase g.dest + i - sramBase g.dest + sramBase st.tile = sramBase st.tile + i := by omega
      rw [hmoved.bytes, if_pos ⟨by omega, by omega⟩, hplace]
    · rw [hmoved.rings, hring]
      rfl
    · rw [hmoved.rings, hnone]
      rfl

end Sys2Proof.MigrationProofs
end

section
/-! SUPPORT. The Thresher of a die, and the augmentation instructions (R302, R303, Table 11.8): what a change of one Thresher leaves of
both, the values of each instruction's elements, and from them the statement on the eight instructions. -/

namespace Sys2Proof.AugmentProofs

open Sys2Proof Sys2Proof.Machine Sys2Proof.Safety Sys2Proof.HostProofs Sys2Proof.OrgProofs Sys2Proof.PoolingProofs

/-! ## The Thresher of a die -/

/-- Threshers are read from their list alone. -/
theorem getTh_congr {d d' : Dev} (h : d'.threshers = d.threshers) (die : Nat) : getTh d' die = getTh d die := by
  rw [getTh, h]
  rfl

/-- A change of a Thresher that a device has is what it then holds. -/
theorem getTh_modTh {d : Dev} {die : Nat} (h : die < d.threshers.length) (f : Thresher → Thresher) :
    getTh (modTh d die f) die = f (getTh d die) := by
  simp [getTh, modTh, modAt, h]

/-- The other Thresher stays as it was. -/
theorem getTh_modTh_other (d : Dev) {die k : Nat} (h : k ≠ die) (f : Thresher → Thresher) :
    getTh (modTh d die f) k = getTh d k := by
  simp only [getTh, modTh, modAt]
  split
  · rfl
  · simp [List.getElem?_set_ne h.symm]

/-- A change of one Thresher leaves it as `f` of what it was, and all else of the two and of memory alone. -/
theorem threshSet_modTh {d : Dev} {die : Nat} (h : die < d.threshers.length) (f : Thresher → Thresher) :
    threshSet d (modTh d die f) die (f (getTh d die)) :=
  ⟨getTh_modTh h f, fun _ hk => getTh_modTh_other d hk f, rfl⟩

/-! ## Values of elements (Table 11.8) -/

/-- The fused product and sum of FP32 patterns, rounded once. -/
theorem fpFma_eq (x y z : W32) : fpFma x y z =
    fp32 0 (fun v => addVal (mulVal (v.getD 0 (.zero false)) (v.getD 1 (.zero false))) (v.getD 2 (.zero false))) [x, y, z] :=
  laneFp_f32 ..

/-- An FP32 pattern is a zero where its exponent and fraction are. -/
theorem f32_zero_iff (x : W32) : (∃ s, f32 x = .zero s) ↔ x &&& 0x7FFFFFFF = 0 := by
  have hfrac : fracField x < 2 ^ 23 := Nat.mod_lt _ (by decide)
  have hexp : expField x < 2 ^ 8 := Nat.mod_lt _ (by decide)
  have hfields : x &&& 0x7FFFFFFF = 0 ↔ expField x = 0 ∧ fracField x = 0 := by
    rw [and_magnitude_eq, ← BitVec.toNat_inj, BitVec.toNat_ofNat]
    show _ % 2 ^ 32 = 0 ↔ _
    omega
  rw [hfields, f32_eq]
  unfold Val.mk
  split_ifs <;> simp_all

/-- FLIPH mirrors where P[A] is no zero of either sign. -/
theorem augFliph_eq (t : Thresher) (a b : Nat) (i : W32) (w : AugWork) : augFliph t a b i w =
    if w.p a &&& 0x7FFFFFFF = 0 then w
    else w.remap w.width w.height w.channels fun pic x y c => w.at_ pic (w.width - 1 - x) y c := by
  have hzero := f32_zero_iff (w.p a)
  unfold augFliph
  split
  next s h => rw [if_pos (hzero.mp ⟨s, h⟩)]
  next h => rw [if_neg fun hbits => (hzero.mpr hbits).elim h]

/-- TRIM takes a negative number of frames as none. -/
theorem augTrim_eq (t : Thresher) (a b : Nat) (i : W32) (w : AugWork) :
    augTrim t a b i w = { w with units := w.units.drop (w.pInt a).toNat } := by
  have hneg : (max 0 (w.pInt a)).toNat = (w.pInt a).toNat := by omega
  rw [augTrim, hneg]

/-! ## An instruction on its die -/

/-- An instruction whose command is `augStep` of an operation with the values `f` has the result `f`. -/
theorem augResult_of_augStep {c : Nat → Byte → Byte → W32 → Instr} {op f : AugOp}
    (hexec : ∀ die a b i s, exec (c die a b i) s = act s (running (augStep die op a b i)))
    (hop : ∀ t a b i w, op t a b i w = f t a b i w) : augResult c f := by
  intro s die a b i hw hdie hlen
  have ⟨_, _, hstalls⟩ := hw
  obtain rfl : op = f := by funext t a b i w; exact hop t a b i w
  exact ⟨_, (hexec die a b i s).trans (act_running hw (if_pos hdie) hstalls), threshSet_modTh (hlen ▸ hdie) _, rfl⟩

/-- Settles O50: each of the eight commands is `augStep` of its operation, whose elements are read off. -/
theorem augmentationInstructions : Obligations.AugmentationInstructions := by
  unfold Obligations.AugmentationInstructions
  refine ⟨?select, ?crop, ?fliph, ?resize, ?colour, ?affine, ?trim, ?gain⟩
  case select => exact augResult_of_augStep (op := augSelect) (fun _ _ _ _ _ => rfl) fun _ _ _ _ _ => rfl
  case crop => exact augResult_of_augStep (fun _ _ _ _ _ => rfl) fun _ _ _ _ _ => by simp only [augCrop, Bool.or_eq_true, decide_eq_true_eq]
  case fliph => exact augResult_of_augStep (fun _ _ _ _ _ => rfl) augFliph_eq
  case resize =>
    refine augResult_of_augStep (fun _ _ _ _ _ => rfl) fun t _ _ _ w => ?_
    unfold augResize
    split <;> simp [*]
  case colour => exact augResult_of_augStep (fun _ _ _ _ _ => rfl) fun _ _ _ _ _ => by simp only [augColour, fpMul_eq]
  case affine => exact augResult_of_augStep (fun _ _ _ _ _ => rfl) fun _ _ _ _ _ => by simp only [augAffine, fpFma_eq]
  case trim => exact augResult_of_augStep (fun _ _ _ _ _ => rfl) augTrim_eq
  case gain => exact augResult_of_augStep (fun _ _ _ _ _ => rfl) fun _ _ _ _ _ => by simp only [augGain, fpMul_eq]

end Sys2Proof.AugmentProofs
end

section
/-! SUPPORT. The stream port of a Thresher (R284 to R289, R292): a device with one Thresher replaced, what each change of a sample, a
class or a count makes of it, and one equation for each outcome of a received block, of a sent block and of the grant of a core. -/

namespace Sys2Proof.StreamProofs

open Sys2Proof Sys2Proof.Machine Sys2Proof.Safety Sys2Proof.HostProofs Sys2Proof.OrgProofs Sys2Proof.AugmentProofs

/-! ## A device with one Thresher replaced -/

/-- The device with Thresher `t` in place of that of a die. -/
def withTh (d : Dev) (die : Nat) (t : Thresher) : Dev := { d with threshers := d.threshers.set die t }

/-- A change of a Thresher puts the changed one in its place. -/
theorem modTh_eq_withTh (d : Dev) (die : Nat) (f : Thresher → Thresher) : modTh d die f = withTh d die (f (getTh d die)) := by
  unfold modTh withTh modAt getTh
  split
  next h => rw [List.set_eq_of_length_le (List.getElem?_eq_none_iff.mp h)]
  next h => rw [List.getD_eq_getElem?_getD, h, Option.getD_some]

/-- The Thresher that a device holds already changes nothing. -/
theorem withTh_getTh (d : Dev) (die : Nat) : withTh d die (getTh d die) = d := by
  have hset : d.threshers.set die (d.threshers.getD die {}) = d.threshers := by
    apply List.ext_getElem?
    intro k
    rw [List.getElem?_set]
    split
    next h =>
      subst h
      split
      next hlt => simp [hlt]
      next hge => simp [List.getElem?_eq_none (Nat.le_of_not_lt hge)]
    next => rfl
  rw [withTh, getTh, hset]

/-- A second replacement takes the place of the first. -/
theorem withTh_withTh (d : Dev) (die : Nat) (t u : Thresher) : withTh (withTh d die t) die u = withTh d die u := by
  simp [withTh, List.set_set]

section
variable {d : Dev} {die : Nat} (hlt : die < d.threshers.length) (t : Thresher)
include hlt

/-- The Thresher in place is read back. -/
theorem getTh_withTh : getTh (withTh d die t) die = t := by simp [getTh, withTh, hlt]

/-- A change of the Thresher in place. -/
theorem modTh_withTh (f : Thresher → Thresher) : modTh (withTh d die t) die f = withTh d die (f t) := by
  rw [modTh_eq_withTh, getTh_withTh hlt, withTh_withTh]

/-- Nothing but that Thresher has changed. -/
theorem threshSet_withTh : threshSet d (withTh d die t) die t := by
  have h := threshSet_modTh hlt fun _ => t
  rwa [modTh_eq_withTh] at h

/-- Blocks that are freed count (R286). -/
theorem freeBlocks_withTh (n : Nat) :
    freeBlocks (withTh d die t) die n = withTh d die { t with freed := t.freed + BitVec.ofNat 32 n } := modTh_withTh hlt t _

/-- A sample that is there takes its change. -/
theorem modSample_withTh {k : Nat} {x : Sample} (hx : t.samples[k]? = some x) (f : Sample → Sample) :
    modSample (withTh d die t) die k f = withTh d die { t with samples := t.samples.set k (f x) } := by
  rw [modSample, modTh_withTh hlt, modAt, hx]

/-- Where no sample waits to be swept, a sweep changes nothing. -/
theorem sweepSamples_withTh (h : ∀ x ∈ t.samples, x.dropped = false ∨ x.ended = false) :
    sweepSamples (withTh d die t) die = withTh d die t := by
  have hall : (t.samples.filter fun s => !(s.dropped && s.ended)) = t.samples :=
    List.filter_eq_self.mpr fun x hx => by simpa using h x hx
  rw [sweepSamples, modTh_withTh hlt, hall]

end

/-- The report of an event leaves the Thresher and memory as they were. -/
theorem threshSet_logEvent {d d' : Dev} {die : Nat} {t : Thresher} (h : threshSet d d' die t) (ev : Nat) (src : Source) (detail : Nat) :
    threshSet d (logEvent d' ev src detail) die t := by
  obtain ⟨hsame, hother, hmem⟩ := h
  have hth := logEvent_threshers d' ev src detail none
  exact ⟨(getTh_congr hth die).trans hsame, fun k hk => (getTh_congr hth k).trans (hother k hk), (logEvent_mem ..).trans hmem⟩

/-! ## Blocks that are received (R285, R289) -/

/-- The port is up, at 8 lanes or at 4 (R283). -/
abbrev portUp (t : Thresher) : Prop := (t.port == 1 || t.port == 2) = true

/-- Said of the port's state. -/
theorem portUp_iff (t : Thresher) : portUp t ↔ t.port = 1 ∨ t.port = 2 := by simp

/-- What a port that is up makes of a block. -/
theorem streamBlock_of_up {d : Dev} {die : Nat} {blk : Bytes} (hup : portUp (getTh d die)) (hlen : blk.length = 256) :
    streamBlock die blk d =
      if (crc32c (blk.take 252)).toNat ≠ fld blk 252 4 then logEvent (freeBlocks d die 1) evStreamCrc (.streamPort die) 0
      else if blockBad (getTh d die) blk || bits (fld blk 0 8) 3 0 == 3 || bits (fld blk 0 8) 3 0 == 4 then
        logEvent (freeBlocks d die 1) evStreamBadBlock (.streamPort die) 0
      else if bits (fld blk 0 8) 3 0 == 2 then d
      else takeBlock (if bit (fld blk 0 8) 4 then
          startSample d die (bits (fld blk 0 8) 19 8) (BitVec.ofNat 16 (bits (fld blk 0 8) 47 32)) else d)
        die (bits (fld blk 0 8) 19 8) (BitVec.ofNat 16 (bits (fld blk 0 8) 47 32)) (slice blk 8 (bits (fld blk 0 8) 27 20))
        (bit (fld blk 0 8) 5) := by
  simp only [streamBlock, hup, hlen, Bool.not_true, bne_self_eq_false, Bool.or_self, Bool.false_eq_true, if_false, bne_iff_ne]

/-- A DATA block with SOS of a stream that is receiving none begins a sample (R289). -/
theorem startSample_withTh {d : Dev} {die : Nat} (hlt : die < d.threshers.length) (t : Thresher) {stream : Nat} (bseq : W16)
    (hnone : receiving t stream = none) : startSample (withTh d die t) die stream bseq = withTh d die { t with
      skipping := t.skipping.erase stream
      samples := t.samples ++ [{ stream := stream, sos := bseq, bseq := bseq }] } := by
  simp only [startSample, getTh_withTh hlt, hnone, modTh_withTh hlt]

/-- That sample is the one that the stream then receives. -/
theorem receiving_append {t : Thresher} {x : Sample} (hnone : receiving t x.stream = none) (hopen : x.ended = false)
    (hinj : x.injector = none) : receiving { t with samples := t.samples ++ [x] } x.stream = some t.samples.length := by
  unfold receiving at hnone ⊢
  simp [List.findIdx?_append, hnone, hopen, hinj]

/-- A block that no sample takes is freed; with EOS its stream's skipping ends (R286, R292). -/
theorem takeBlock_of_none {d : Dev} {die : Nat} (hlt : die < d.threshers.length) {t : Thresher} {stream : Nat}
    (hnone : receiving t stream = none) (bseq : W16) (payload : Bytes) (eos : Bool) :
    takeBlock (withTh d die t) die stream bseq payload eos = withTh d die { t with
      freed := t.freed + 1
      skipping := if eos then t.skipping.erase stream else t.skipping } := by
  simp only [takeBlock, getTh_withTh hlt, hnone, modTh_withTh hlt, freeBlocks_withTh hlt]
  rfl

/-- The bytes of a sample with a payload behind them, up to the end that its header gives (R289). -/
def grownBytes (x : Sample) (payload : Bytes) : Bytes :=
  let grown := x.bytes ++ payload.take (if x.whole then 64 + fld x.bytes 32 4 - x.bytes.length else payload.length)
  if 64 ≤ grown.length then grown.take (64 + fld grown 32 4) else grown

/-- A payload joins the sample in progress, where the block is the one expected, no core decodes the sample yet, and no header
becomes whole by it. -/
theorem takeBlock_of_receiving {d : Dev} {die : Nat} (hlt : die < d.threshers.length) {t : Thresher} {stream k : Nat} {x : Sample}
    {payload : Bytes} (hk : receiving t stream = some k) (hx : t.samples[k]? = some x) (hdropped : x.dropped = false)
    (hdecoding : x.decoding = false) (hgap : x.gapAt = none ∨ x.whole = true)
    (hheader : x.whole = true ∨ x.bytes.length + payload.length < 64)
    (hswept : ∀ y ∈ t.samples, y.dropped = false ∨ y.ended = false) :
    takeBlock (withTh d die t) die stream x.bseq payload false = withTh d die { t with
      samples := t.samples.set k { x with bytes := grownBytes x payload, bseq := x.bseq + 1, blocks := x.blocks + 1 } } := by
  have hgap' : (!x.whole && x.gapAt.isSome) = false := by rcases hgap with h | h <;> simp [h]
  have hheader' : (!x.whole && decide (64 ≤ (x.bytes ++
      payload.take (if x.whole then 64 + fld x.bytes 32 4 - x.bytes.length else payload.length)).length)) = false := by
    rcases hheader with h | h
    · simp [h]
    · have hshort : x.whole = false := by simp [Sample.whole]; omega
      simp [hshort]; omega
  have hnote : noteGap (withTh d die t) die k x.bseq = withTh d die t := by simp [noteGap, getTh_withTh hlt, hx]
  have hswept' : ∀ y ∈ t.samples.set k { x with bytes := grownBytes x payload, bseq := x.bseq + 1, blocks := x.blocks + 1 },
      y.dropped = false ∨ y.ended = false := by
    intro y hy
    rcases List.mem_or_eq_of_mem_set hy with hold | rfl
    · exact hswept y hold
    · exact .inl hdropped
  refine Eq.trans ?_ (sweepSamples_withTh hlt _ hswept')
  simp only [takeBlock, grownBytes, getTh_withTh hlt, hk, hnote, hx, hdropped, hgap', hheader', hdecoding, Bool.false_eq_true, if_false,
    modSample_withTh hlt t hx]

/-- A payload that is too short for a whole header stands as it is. -/
theorem grownBytes_of_short {x : Sample} {payload : Bytes} (hempty : x.bytes = []) (hshort : payload.length < 64) :
    grownBytes x payload = payload := by
  have hnot : x.whole = false := by simp [Sample.whole, hempty]
  simp [grownBytes, hempty, hnot, Nat.not_le.mpr hshort]

/-- Behind a whole header the bytes grow up to the end that the header gives. -/
theorem grownBytes_of_whole {x : Sample} {payload : Bytes} (hwhole : 64 ≤ x.bytes.length)
    (hroom : x.bytes.length ≤ 64 + fld x.bytes 32 4) :
    grownBytes x payload = x.bytes ++ payload.take (64 + fld x.bytes 32 4 - x.bytes.length) := by
  have hw : x.whole = true := decide_eq_true hwhole
  have hfld (rest : Bytes) : fld (x.bytes ++ rest) 32 4 = fld x.bytes 32 4 :=
    LoomRangeProofs.fld_congr fun i _ hi => by
      rw [List.getD_eq_getElem?_getD, List.getD_eq_getElem?_getD, List.getElem?_append_left (by omega)]
  simp only [grownBytes, hw, if_true, hfld]
  rw [if_pos (by rw [List.length_append]; omega), List.take_of_length_le (by rw [List.length_append, List.length_take]; omega)]

/-- A sample as the block that begins it leaves it, its header not yet whole (R289). -/
theorem takeBlock_startSample {d : Dev} {die : Nat} (hlt : die < d.threshers.length) {t : Thresher} {stream : Nat} {payload : Bytes}
    (hnone : receiving t stream = none) (bseq : W16) (hshort : payload.length < 64)
    (hswept : ∀ y ∈ t.samples, y.dropped = false ∨ y.ended = false) :
    takeBlock (startSample (withTh d die t) die stream bseq) die stream bseq payload false = withTh d die { t with
      skipping := t.skipping.erase stream
      samples := t.samples ++ [{ stream := stream, sos := bseq, bseq := bseq + 1, bytes := payload, blocks := 1 }] } := by
  let x : Sample := { stream := stream, sos := bseq, bseq := bseq }
  have hk : receiving { t with skipping := t.skipping.erase stream, samples := t.samples ++ [x] } stream = some t.samples.length :=
    receiving_append (t := { t with skipping := t.skipping.erase stream }) (x := x) hnone rfl rfl
  have htake := takeBlock_of_receiving (d := d) hlt hk (x := x) (payload := payload) (by simp) rfl rfl (.inl rfl)
    (.inr (by simpa [x] using hshort)) fun y hy => by
      rcases List.mem_append.mp hy with hold | hnew
      · exact hswept y hold
      · exact .inl (by rw [List.mem_singleton.mp hnew])
  rw [startSample_withTh hlt t bseq hnone]
  rw [grownBytes_of_short rfl hshort] at htake
  simpa [x] using htake

/-! ## Commands on a die -/

section
variable {s : State} {die : Nat} (hw : atWork s) (hth : threshes s.dev die)
include hw hth

/-- An effect on a die that the device has takes place at once. -/
theorem act_onDie {f : Dev → Dev} {d : Dev} (heq : f s.dev = d) (hg : d.granary = s.dev.granary) :
    act s (running fun d => if die < 2 then f d else d) = .next { s with dev := d } := by
  have ⟨_, _, hstalls⟩ := hw
  have ⟨hdie, _⟩ := hth
  exact act_running hw ((if_pos hdie).trans heq) (hg ▸ hstalls)

omit hw in
/-- That die has its Thresher. -/
theorem die_lt : die < s.dev.threshers.length := by
  have ⟨hdie, hlen, _⟩ := hth
  omega

/-- A command whose effect on a die is a change of its Thresher. -/
theorem acts_withTh {c : Instr} {f : Dev → Dev} {t : Thresher}
    (hexec : exec c s = act s (running fun d => if die < 2 then f d else d)) (heq : f s.dev = withTh s.dev die t) :
    acts c s fun d => threshSet s.dev d die t :=
  ⟨_, hexec.trans (act_onDie hw hth heq rfl), threshSet_withTh (die_lt hth) t⟩

/-- A block that is freed and recorded. -/
theorem acts_freed {blk : Bytes} {ev : Nat}
    (heq : streamBlock die blk s.dev = logEvent (freeBlocks s.dev die 1) ev (.streamPort die) 0) :
    acts (.streamBlockReceived die blk) s fun d =>
      threshSet s.dev d die { getTh s.dev die with freed := (getTh s.dev die).freed + 1 } ∧ recorded s.dev d ev (.streamPort die) 0 := by
  have ⟨_, hhalt, _⟩ := hw
  exact ⟨_, act_onDie hw hth heq (by rw [logEvent_granary]; rfl),
    threshSet_logEvent (threshSet_modTh (die_lt hth) _) .., recorded_logEvent (d := freeBlocks s.dev die 1) hhalt ..⟩

section
variable {blk : Bytes} (hup : portUp (getTh s.dev die)) (hlen : blk.length = 256)
  (hcrc : (crc32c (blk.take 252)).toNat = fld blk 252 4) (hgood : blockBad (getTh s.dev die) blk = false)
  (hty : bits (fld blk 0 8) 3 0 = 1)
include hup hlen hcrc hgood hty

omit hw hth in
/-- What a port makes of a DATA block that it does not free at once. -/
theorem streamBlock_of_data : streamBlock die blk s.dev = takeBlock (if bit (fld blk 0 8) 4 then
      startSample s.dev die (bits (fld blk 0 8) 19 8) (BitVec.ofNat 16 (bits (fld blk 0 8) 47 32)) else s.dev)
    die (bits (fld blk 0 8) 19 8) (BitVec.ofNat 16 (bits (fld blk 0 8) 47 32)) (slice blk 8 (bits (fld blk 0 8) 27 20))
    (bit (fld blk 0 8) 5) := by
  simp [streamBlock_of_up hup hlen, hcrc, hgood, hty]

/-- A DATA block with SOS and without EOS, whose header is not whole yet, begins a sample. -/
theorem acts_sampleBegun (hsos : bit (fld blk 0 8) 4 = true) (heos : bit (fld blk 0 8) 5 = false)
    (hnone : receiving (getTh s.dev die) (bits (fld blk 0 8) 19 8) = none) (hshort : (slice blk 8 (bits (fld blk 0 8) 27 20)).length < 64) :
    acts (.streamBlockReceived die blk) s fun d => threshSet s.dev d die { getTh s.dev die with
      skipping := (getTh s.dev die).skipping.erase (bits (fld blk 0 8) 19 8)
      samples := (getTh s.dev die).samples ++ [{
        stream := bits (fld blk 0 8) 19 8, sos := BitVec.ofNat 16 (bits (fld blk 0 8) 47 32)
        bseq := BitVec.ofNat 16 (bits (fld blk 0 8) 47 32) + 1
        bytes := slice blk 8 (bits (fld blk 0 8) 27 20), blocks := 1 }] } := by
  have ⟨_, _, hswept⟩ := hth
  refine acts_withTh hw hth rfl ?_
  rw [streamBlock_of_data hup hlen hcrc hgood hty, hsos, if_pos rfl, heos]
  have hbegun := takeBlock_startSample (die_lt hth) hnone (BitVec.ofNat 16 (bits (fld blk 0 8) 47 32)) hshort hswept
  rwa [withTh_getTh] at hbegun

/-- A DATA block without SOS that no sample of its stream takes is freed. -/
theorem acts_blockSkipped (hsos : bit (fld blk 0 8) 4 = false)
    (hnone : receiving (getTh s.dev die) (bits (fld blk 0 8) 19 8) = none) :
    acts (.streamBlockReceived die blk) s fun d => threshSet s.dev d die { getTh s.dev die with
      freed := (getTh s.dev die).freed + 1
      skipping := if bit (fld blk 0 8) 5 then (getTh s.dev die).skipping.erase (bits (fld blk 0 8) 19 8)
        else (getTh s.dev die).skipping } := by
  refine acts_withTh hw hth rfl ?_
  rw [streamBlock_of_data hup hlen hcrc hgood hty, hsos, if_neg Bool.false_ne_true]
  have hnone := takeBlock_of_none (die_lt hth) hnone (BitVec.ofNat 16 (bits (fld blk 0 8) 47 32)) (slice blk 8 (bits (fld blk 0 8) 27 20))
    (bit (fld blk 0 8) 5)
  rwa [withTh_getTh] at hnone

/-- A DATA block in the midst of a sample whose header is whole adds its payload. -/
theorem acts_payloadAdded {k : Nat} {x : Sample} (hsos : bit (fld blk 0 8) 4 = false) (heos : bit (fld blk 0 8) 5 = false)
    (hk : receiving (getTh s.dev die) (bits (fld blk 0 8) 19 8) = some k) (hx : (getTh s.dev die).samples[k]? = some x)
    (hbseq : x.bseq = BitVec.ofNat 16 (bits (fld blk 0 8) 47 32)) (hwhole : 64 ≤ x.bytes.length)
    (hroom : x.bytes.length ≤ 64 + fld x.bytes 32 4) (hdecoding : x.decoding = false) (hdropped : x.dropped = false) :
    acts (.streamBlockReceived die blk) s fun d => threshSet s.dev d die { getTh s.dev die with
      samples := (getTh s.dev die).samples.set k { x with
        bytes := x.bytes ++ (slice blk 8 (bits (fld blk 0 8) 27 20)).take (64 + fld x.bytes 32 4 - x.bytes.length)
        bseq := BitVec.ofNat 16 (bits (fld blk 0 8) 47 32) + 1, blocks := x.blocks + 1 } } := by
  have ⟨_, _, hswept⟩ := hth
  have hx64 : x.whole = true := decide_eq_true hwhole
  refine acts_withTh hw hth rfl ?_
  have htake := takeBlock_of_receiving (die_lt hth) hk hx hdropped hdecoding (payload := slice blk 8 (bits (fld blk 0 8) 27 20))
    (.inr hx64) (.inl hx64) hswept
  rw [withTh_getTh, grownBytes_of_whole hwhole hroom, hbseq] at htake
  rw [streamBlock_of_data hup hlen hcrc hgood hty, hsos, if_neg Bool.false_ne_true, heos]
  exact htake

end

end

/-! ## Blocks that are sent (R286, R287) -/

/-- A field in the first bytes of a list. -/
theorem fld_slice_append (b rest : Bytes) {off n m : Nat} (h : off + n ≤ m) : fld (slice b 0 m ++ rest) off n = fld b off n := by
  refine LoomRangeProofs.fld_congr fun i _ hi => ?_
  rw [LoomRangeProofs.slice_eq_map, List.getD_eq_getElem?_getD, List.getElem?_append_left (by simp; omega)]
  simp [show i < m by omega]

/-- A block that is sent: its length, its type, its CRC, and the number at the head of its payload (Table 11.1). -/
theorem portBlock_spec {ty n v : Nat} (hty : ty < 256 ^ 8) (hn : n ≤ 244) (hv : v < 256 ^ n) :
    (portBlock ty (leBytes n v)).length = 256 ∧ fld (portBlock ty (leBytes n v)) 0 8 = ty ∧
    fld (portBlock ty (leBytes n v)) 8 n = v ∧
    (crc32c ((portBlock ty (leBytes n v)).take 252)).toNat = fld (portBlock ty (leBytes n v)) 252 4 := by
  have hslice := slice_length (leBytes 8 ty ++ leBytes n v) 0 252
  have hhead : fld (leBytes 8 ty ++ leBytes n v) 0 8 = fld (leBytes 8 ty) 0 8 := by
    refine LoomRangeProofs.fld_congr fun i _ hi => ?_
    rw [List.getD_eq_getElem?_getD, List.getElem?_append_left (by simp; omega), List.getD_eq_getElem?_getD]
  have hhead' : fld (leBytes 8 ty) 0 8 = ty := by
    have h := fld_append [] 0 8 ty rfl
    rwa [List.nil_append, Nat.mod_eq_of_lt hty] at h
  unfold portBlock
  refine ⟨?_, ?_, ?_, ?_⟩
  · rw [List.length_append, hslice, leBytes_length]
  · rw [fld_slice_append _ _ (by omega), hhead, hhead']
  · rw [fld_slice_append _ _ (by omega), fld_append _ _ _ _ (leBytes_length ..), Nat.mod_eq_of_lt hv]
  · rw [List.take_left' hslice, fld_append _ _ _ _ hslice]
    exact (Nat.mod_eq_of_lt (BitVec.isLt _)).symm

/-- A port sends a block with a number at the head of its payload. -/
abbrev blockSent (d d' : Dev) (die ty n v : Nat) : Prop :=
  (∃ blk : Bytes, blk.length = 256 ∧ fld blk 0 8 = ty ∧ fld blk 8 n = v ∧
    (crc32c (blk.take 252)).toNat = fld blk 252 4 ∧ d'.out.stream = d.out.stream ++ [(die, blk)]) ∧
  { d' with out.stream := d.out.stream, threshers := d.threshers } = d ∧
  (getTh d' die).freed = (getTh d die).freed ∧ (getTh d' die).samples = (getTh d die).samples

/-- A block leaves a port beside a note of its time in the Thresher. -/
theorem blockSent_sendBlock {d : Dev} {die ty n v : Nat} {f : Thresher → Thresher} (hlt : die < d.threshers.length)
    (hfreed : ∀ t, (f t).freed = t.freed) (hsamples : ∀ t, (f t).samples = t.samples) (hty : ty < 256 ^ 8) (hn : n ≤ 244)
    (hv : v < 256 ^ n) : blockSent d (sendBlock (modTh d die f) die (portBlock ty (leBytes n v))) die ty n v := by
  have hget : getTh (sendBlock (modTh d die f) die (portBlock ty (leBytes n v))) die = f (getTh d die) := getTh_modTh hlt f
  obtain ⟨hlen, htype, hnum, hcrc⟩ := portBlock_spec hty hn hv
  refine ⟨⟨_, hlen, htype, hnum, hcrc, rfl⟩, rfl, ?_, ?_⟩
  · rw [hget, hfreed]
  · rw [hget, hsamples]

/-- The device time has 64 bits (R12). -/
theorem deviceTime_lt (d : Dev) : deviceTime d < 256 ^ 8 := by
  unfold deviceTime
  omega

/-- A command that sends a block where the port is up does so, and elsewhere nothing. -/
theorem exec_blockSend {s : State} {die : Nat} (hw : atWork s) (hth : threshes s.dev die) {c : Instr} {g : Dev → Dev}
    {f : Thresher → Thresher} {ty n v : Nat} (hexec : exec c s = act s (running g))
    (heq : g s.dev = if die < 2 && ((getTh s.dev die).port == 1 || (getTh s.dev die).port == 2) then
      sendBlock (modTh s.dev die f) die (portBlock ty (leBytes n v)) else s.dev)
    (hfreed : ∀ t, (f t).freed = t.freed) (hsamples : ∀ t, (f t).samples = t.samples) (hty : ty < 256 ^ 8) (hn : n ≤ 244)
    (hv : v < 256 ^ n) :
    if (getTh s.dev die).port = 1 ∨ (getTh s.dev die).port = 2 then acts c s fun d => blockSent s.dev d die ty n v
    else exec c s = .next s := by
  have ⟨_, _, hstalls⟩ := hw
  have ⟨hdie, _⟩ := hth
  split
  next hup =>
    exact ⟨_, hexec.trans (act_running hw (heq.trans (if_pos (by simpa [hdie] using hup))) hstalls),
      blockSent_sendBlock (die_lt hth) hfreed hsamples hty hn hv⟩
  next hdown => exact hexec.trans (act_running_same hw (heq.trans (if_neg (by simpa [hdie] using hdown))))

end Sys2Proof.StreamProofs
end

section
/-! SUPPORT. Decoding (R286, R292, R294 to R296, R301): the sample that is granted a core, the slot that a decoded sample resolves and
what its resolution leaves alone, and from these and the rules of the stream port the statement. -/

namespace Sys2Proof.DecodeProofs

open Sys2Proof Sys2Proof.Machine Sys2Proof.Safety Sys2Proof.HostProofs Sys2Proof.OrgProofs Sys2Proof.AugmentProofs Sys2Proof.StreamProofs

/-! ## The grant of a core (R62, R292) -/

/-- One entry of a list meets the predicate: it is all that a filter keeps. -/
theorem filter_eq_singleton {α : Type} {l : List α} {p : α → Bool} {k : Nat} {x : α} (hx : l[k]? = some x) (hp : p x = true)
    (hother : ∀ j y, j ≠ k → l[j]? = some y → p y = false) : l.filter p = [x] := by
  induction l generalizing k with
  | nil => simp at hx
  | cons a r ih =>
    cases k with
    | zero =>
      obtain rfl : a = x := by simpa using hx
      have hrest : r.filter p = [] := List.filter_eq_nil_iff.mpr fun y hy => by
        obtain ⟨j, hj⟩ := List.mem_iff_getElem?.mp hy
        simp [hother (j + 1) y (by omega) (by simpa using hj)]
      rw [List.filter_cons_of_pos hp, hrest]
    | succ k =>
      have ha : p a = false := hother 0 a (by omega) (by simp)
      rw [List.filter_cons_of_neg (by simp [ha])]
      exact ih (by simpa using hx) fun j y hj hy => hother (j + 1) y (by omega) (by simpa using hy)

/-- And the first that a search finds. -/
theorem findIdx?_eq_of_unique {α : Type} {l : List α} {p : α → Bool} {k : Nat} {x : α} (hx : l[k]? = some x) (hp : p x = true)
    (hother : ∀ j y, j ≠ k → l[j]? = some y → p y = false) : l.findIdx? p = some k := by
  obtain ⟨hk, rfl⟩ := List.getElem?_eq_some_iff.mp hx
  refine List.findIdx?_eq_some_iff_getElem.mpr ⟨hk, hp, fun j hj => ?_⟩
  simp [hother j l[j] (by omega) (List.getElem?_eq_getElem _)]

/-- The only request is granted. -/
theorem grant_single (p n i t : Nat) : grant p n [(i, t)] = some i := by simp [grant, firstFrom]

/-- With no core free, nothing is granted. -/
theorem decodeStart_of_full {d : Dev} {die : Nat} (h : ¬((getTh d die).samples.filter (·.decoding)).length < dieCores d die) :
    decodeStart die d = d := if_pos (Nat.le_of_not_lt h)

/-- The only sample that waits is granted a free core, and its blocks are taken. -/
theorem decodeStart_of_single {d : Dev} {die k : Nat} {x : Sample} (hlt : die < d.threshers.length)
    (hx : (getTh d die).samples[k]? = some x) (hwaits : x.waits = true) (htick : x.headerTick ≤ cycle d)
    (hother : ∀ j y, j ≠ k → (getTh d die).samples[j]? = some y → y.waits = false)
    (hfree : ((getTh d die).samples.filter (·.decoding)).length < dieCores d die) :
    decodeStart die d = withTh d die { getTh d die with
      samples := (getTh d die).samples.set k { x with decoding := true, blocks := 0 }
      freed := (getTh d die).freed + BitVec.ofNat 32 x.blocks
      pointer := (x.stream + 1) % 4096 } := by
  have hready := filter_eq_singleton (p := Sample.waits) hx hwaits hother
  have hfirst : min (cycle d) x.headerTick = x.headerTick := Nat.min_eq_right htick
  have hfind : (getTh d die).samples.findIdx? (fun s => s.waits && s.stream == x.stream && s.headerTick == x.headerTick) = some k :=
    findIdx?_eq_of_unique hx (by simp [hwaits]) fun j y hj hy => by simp [hother j y hj hy]
  have hsample := modSample_withTh hlt (getTh d die) hx fun s => { s with decoding := true, blocks := 0 }
  rw [withTh_getTh] at hsample
  simp only [decodeStart, if_neg (Nat.not_le.mpr hfree), hready, List.map_cons, List.map_nil, grant_single, List.filter_cons,
    beq_self_eq_true, if_true, List.filter_nil, List.foldl_cons, List.foldl_nil, hfirst, hfind, hx, Option.map_some, Option.getD_some, hsample,
    modTh_withTh hlt, freeBlocks_withTh hlt]

/-! ## Batches of a class (R298) -/

/-- Batches are read from the classes of their die alone. -/
theorem getBatch_congr {d d' : Dev} {die : Nat} (h : (getTh d' die).classes = (getTh d die).classes) (cls n : Nat) :
    getBatch d' die cls n = getBatch d die cls n := by
  rw [getBatch, h]
  rfl

/-- A change of an open batch that keeps its number and leaves it open is what is found of it. -/
theorem getBatch_modBatch {d : Dev} {die : Nat} (hlt : die < d.threshers.length) (cls n : Nat) {f : Batch → Batch}
    (hnumber : ∀ b, (f b).number = b.number) (hopen : ∀ b, (f b).emitted = b.emitted) :
    getBatch (modBatch d die cls n f) die cls n = (getBatch d die cls n).map f := by
  have hkey : ((fun b : Batch => b.number == n && b.isOpen) ∘ fun b => if b.number = n ∧ b.isOpen then f b else b) =
      fun b => b.number == n && b.isOpen := by
    funext b
    simp only [Function.comp_apply]
    split
    next => simp only [Batch.isOpen, hnumber, hopen]
    next => rfl
  unfold getBatch modBatch modClass
  rw [getTh_modTh hlt]
  simp only [tget_tmod_same]
  cases tget (getTh d die).classes cls with
  | none => rfl
  | some c =>
    simp only [Option.map_some, Option.bind_some, List.find?_map, hkey]
    cases hfind : c.batches.find? fun b => b.number == n && b.isOpen with
    | none => rfl
    | some b =>
      have hb : b.number = n ∧ b.isOpen = true := by simpa using List.find?_some hfind
      simp [hb]

/-! ## The slot of a sample (R299) -/

/-- The status of a slot that becomes padding. -/
def paddedStatus (c : BatchClass) (x : Sample) (state : Byte) (damage : W16) (firstDamage regions : W32) : SlotStatus :=
  { sampleId := x.id, capture := BitVec.ofNat 64 x.capture, firstDamage := firstDamage, damage := damage, state := state
    flags := x.flags, regions := if firstDamage = 0xFFFFFFFF then 0 else regions, content := padSlot c }

/-- Padding resolves the slot with that status. -/
theorem padSample_eq (d : Dev) (die cls k : Nat) (c : BatchClass) (x : Sample) (state : Byte) (damage : W16) (firstDamage regions : W32) :
    padSample d die cls k c x state damage firstDamage regions =
      resolveSlot d die cls k x (paddedStatus c x state damage firstDamage regions) [] := rfl

/-- A dropped sample that has ended leaves the list with the next sweep, which keeps all others. -/
theorem samples_swept {l : List Sample} {k : Nat} {y : Sample} (hk : k < l.length) (hdropped : y.dropped = true) (hended : y.ended = true)
    (hswept : ∀ x ∈ l, x.dropped = false ∨ x.ended = false) :
    ((l.set k y).filter fun s => !(s.dropped && s.ended)) = l.eraseIdx k := by
  have hkept (r : List Sample) (hr : ∀ x ∈ r, x ∈ l) : (r.filter fun s => !(s.dropped && s.ended)) = r :=
    List.filter_eq_self.mpr fun x hx => by simpa using hswept x (hr x hx)
  rw [List.set_eq_take_append_cons_drop, if_pos hk, List.filter_append, List.filter_cons_of_neg (by simp [hdropped, hended]),
    hkept _ fun _ => List.mem_of_mem_take, hkept _ fun _ => List.mem_of_mem_drop, List.eraseIdx_eq_take_drop_succ]

/-- A sample that has ended and is dropped leaves the list, and its blocks are freed (R286). -/
theorem sweepSamples_dropSample {d : Dev} {die k : Nat} {t : Thresher} {y : Sample} (hlt : die < d.threshers.length)
    (hy : t.samples[k]? = some y) (hended : y.ended = true) (hswept : ∀ x ∈ t.samples, x.dropped = false ∨ x.ended = false) :
    sweepSamples (dropSample (withTh d die t) die k) die =
      withTh d die { t with samples := t.samples.eraseIdx k, freed := t.freed + BitVec.ofNat 32 y.blocks } := by
  obtain ⟨hk, -⟩ := List.getElem?_eq_some_iff.mp hy
  have hleft := samples_swept (y := { y with dropped := true, blocks := 0 }) hk rfl hended hswept
  simp only [dropSample, getTh_withTh hlt, hy, modSample_withTh hlt t hy, freeBlocks_withTh hlt, sweepSamples, modTh_withTh hlt, hleft]

/-- The sample at place `k` has resolved its slot with a status and has left the list; all else of its batch, the rest of the samples,
memory and the Granary are as they were. -/
structure SlotResolved (d d' : Dev) (die cls k : Nat) (x : Sample) (st : SlotStatus) : Prop where
  slot : slotOf d' die cls x.batch x.slot = some st
  others : ∀ i, i ≠ x.slot → slotOf d' die cls x.batch i = slotOf d die cls x.batch i
  samples : (getTh d' die).samples = (getTh d die).samples.eraseIdx k
  mem : d'.mem = d.mem
  granary : d'.granary = d.granary

/-- A batch in which sample `x` has resolved its slot with a status. -/
def resolvedBatch (x : Sample) (st : SlotStatus) (counts : List CensusAdd) (b : Batch) : Batch :=
  { b with claimed := b.claimed.filter (· != x.slot), slots := tput b.slots x.slot st, census := b.census ++ counts }

section
variable {d : Dev} {die cls k : Nat} {x y : Sample} (hlt : die < d.threshers.length) (hinj : x.injector = none)
  (hy : (getTh d die).samples[k]? = some y) (hended : y.ended = true)
  (hswept : ∀ x ∈ (getTh d die).samples, x.dropped = false ∨ x.ended = false)
include hlt hinj hy hended hswept

/-- A sample from a stream resolves its slot in its batch and leaves the list; beside its Thresher only the counts change. -/
theorem resolveSlot_frame (st : SlotStatus) (counts : List CensusAdd) :
    ∃ c t, sweepSamples (resolveSlot d die cls k x st counts) die = withTh { d with counters := c } die t ∧
      t.classes = (getTh (modBatch d die cls x.batch (resolvedBatch x st counts)) die).classes ∧
      t.samples = (getTh d die).samples.eraseIdx k := by
  have hbatch : modBatch d die cls x.batch (resolvedBatch x st counts) =
      withTh d die (getTh (modBatch d die cls x.batch (resolvedBatch x st counts)) die) := by
    rw [modBatch, modClass, modTh_eq_withTh, getTh_withTh hlt]
  have hsamples : (getTh (modBatch d die cls x.batch (resolvedBatch x st counts)) die).samples = (getTh d die).samples := by
    rw [modBatch, modClass, getTh_modTh hlt]
  generalize getTh (modBatch d die cls x.batch (resolvedBatch x st counts)) die = t at *
  let e : Dev := { d with counters := (countEvent (withTh d die t) evThSample 1 die none none).counters }
  have hcount : completeInjector (countEvent (modBatch d die cls x.batch (resolvedBatch x st counts)) evThSample 1 die none none) x
      st.state st.damage = withTh e die t := by
    rw [completeInjector, hinj, hbatch]
    rfl
  rw [← hsamples] at hy hswept ⊢
  have hdrop := sweepSamples_dropSample (d := e) hlt hy hended hswept
  rw [← hcount] at hdrop
  exact ⟨_, _, hdrop, rfl, rfl⟩

/-- So the slot is resolved. -/
theorem slotResolved_resolveSlot {b : Batch} (hb : getBatch d die cls x.batch = some b) (st : SlotStatus) (counts : List CensusAdd) :
    SlotResolved d (sweepSamples (resolveSlot d die cls k x st counts) die) die cls k x st := by
  obtain ⟨c, t, heq, hclasses, hsamples⟩ := resolveSlot_frame (cls := cls) hlt hinj hy hended hswept st counts
  have hget : getTh (withTh { d with counters := c } die t) die = t := getTh_withTh hlt t
  rw [heq]
  have hbatch : getBatch (withTh { d with counters := c } die t) die cls x.batch = some (resolvedBatch x st counts b) := by
    rw [getBatch_congr ((congrArg Thresher.classes hget).trans hclasses),
      getBatch_modBatch (f := resolvedBatch x st counts) hlt _ _ (fun _ => rfl) fun _ => rfl, hb, Option.map_some]
  constructor
  case slot => rw [slotOf, hbatch, Option.bind_some, resolvedBatch, tget_tput_same]
  case others =>
    intro i hi
    rw [slotOf, slotOf, hbatch, hb, Option.bind_some, Option.bind_some, resolvedBatch, tget_tput_other _ _ _ _ hi]
  case samples => rw [hget, hsamples]
  case mem => rfl
  case granary => rfl

/-- What has been recorded before stays so. -/
theorem recorded_resolveSlot {d0 : Dev} {ev detail : Nat} {src : Source} (h : recorded d0 d ev src detail) (st : SlotStatus)
    (counts : List CensusAdd) : recorded d0 (sweepSamples (resolveSlot d die cls k x st counts) die) ev src detail := by
  obtain ⟨c, t, heq, -⟩ := resolveSlot_frame (cls := cls) hlt hinj hy hended hswept st counts
  rw [heq]
  exact h

end

/-- What resolves a slot is read from the bytes of the sample, whose header names it. -/
theorem SlotResolved.of_bytes {d d' : Dev} {die cls k : Nat} {x y : Sample} {st : SlotStatus} (hbytes : y.bytes = x.bytes)
    (h : SlotResolved d d' die cls k y st) : SlotResolved d d' die cls k x st := by
  have hbatch : y.batch = x.batch := congrArg (fld · 16 8) hbytes
  have hslot : y.slot = x.slot := congrArg (fld · 24 2) hbytes
  obtain ⟨slot, others, samples, mem, granary⟩ := h
  rw [hbatch, hslot] at slot
  rw [hbatch, hslot] at others
  exact ⟨slot, others, samples, mem, granary⟩

/-- A device that differs in nothing that batches and samples are read from may stand for the one before. -/
theorem SlotResolved.of_start {d d1 d' : Dev} {die cls k : Nat} {x : Sample} {st : SlotStatus}
    (hclasses : (getTh d1 die).classes = (getTh d die).classes) (hsamples : (getTh d1 die).samples = (getTh d die).samples)
    (hmem : d1.mem = d.mem) (hgranary : d1.granary = d.granary) (h : SlotResolved d1 d' die cls k x st) :
    SlotResolved d d' die cls k x st where
  slot := h.slot
  others i hi := (h.others i hi).trans (by rw [slotOf, slotOf, getBatch_congr hclasses])
  samples := h.samples.trans (congrArg (List.eraseIdx · k) hsamples)
  mem := h.mem.trans hmem
  granary := h.granary.trans hgranary

section
variable {d d1 : Dev} {die cls k : Nat} {x y z : Sample} {b : Batch} (hlt : die < d1.threshers.length)
  (hmem : d1.mem = d.mem) (hgranary : d1.granary = d.granary) (hinj : z.injector = none) (hbytes : z.bytes = x.bytes)
  (hy : (getTh d die).samples[k]? = some y) (hended : y.ended = true)
  (hswept : ∀ x ∈ (getTh d die).samples, x.dropped = false ∨ x.ended = false) (hb : getBatch d die cls x.batch = some b)
include hlt hmem hgranary hinj hbytes hy hended hswept hb

/-- The slot is resolved also where the device has changed first in what neither batches nor samples are read from, and the sample in its
flags. -/
theorem slotResolved_of_kept (hclasses : (getTh d1 die).classes = (getTh d die).classes)
    (hsamples : (getTh d1 die).samples = (getTh d die).samples) (st : SlotStatus) (counts : List CensusAdd) :
    SlotResolved d (sweepSamples (resolveSlot d1 die cls k z st counts) die) die cls k x st := by
  have hbatch : z.batch = x.batch := congrArg (fld · 16 8) hbytes
  rw [← hsamples] at hy hswept
  rw [← hbatch, ← getBatch_congr hclasses] at hb
  exact ((slotResolved_resolveSlot hlt hinj hy hended hswept hb st counts).of_start hclasses hsamples hmem hgranary).of_bytes hbytes

/-- And where it becomes padding, beside a report. -/
theorem slotResolved_padSample (hth : d1.threshers = d.threshers) (c : BatchClass) (state : Byte) (damage : W16)
    (firstDamage regions : W32) :
    SlotResolved d (sweepSamples (padSample d1 die cls k c z state damage firstDamage regions) die) die cls k x
      (paddedStatus c z state damage firstDamage regions) := by
  have hget : getTh d1 die = getTh d die := getTh_congr hth die
  exact slotResolved_of_kept hlt hmem hgranary hinj hbytes hy hended hswept hb (congrArg _ hget) (congrArg _ hget) _ _

end

/-! ## The end of decoding (R294 to R296, R301) -/

/-- DAMAGE as its 16 bits hold it. -/
abbrev damageField (found : Decoded) : W16 := BitVec.ofNat 16 (damageOf found)

/-- STATE of the slot of a decoded sample: REFUSED, FAULT, DAMAGED, OK or CONCEALED. -/
def decodedState (cfg : StreamCfg) (x : Sample) (found : Decoded) : Byte :=
  if decodeRefused cfg x found then 3
  else if found.memFault then 7
  else if cfg.damageMax < (damageField found).toNat then 2
  else if damageField found = 0 then 0
  else 1

/-- The elements of a decoded sample after its augmentation program, where it has one (R302). -/
def augmentedWork (t : Thresher) (cfg : StreamCfg) (x : Sample) (found : Decoded) : AugWork :=
  match x.prog.orElse fun _ => tget t.programs cfg.augSlot with
  | none => decodedWork x found
  | some p => runAug t p (decodedWork x found)

/-- The sample with FLAGS [3] where its coding carries film grain (Table 11.4). -/
def grainFlagged (x : Sample) (found : Decoded) : Sample := if found.grain then { x with flags := x.flags ||| 8 } else x

/-- The flag leaves the sample's bytes alone. -/
theorem grainFlagged_bytes (x : Sample) (found : Decoded) : (grainFlagged x found).bytes = x.bytes := by
  unfold grainFlagged
  split <;> rfl

/-- And the operation that injected it. -/
theorem grainFlagged_injector (x : Sample) (found : Decoded) : (grainFlagged x found).injector = x.injector := by
  unfold grainFlagged
  split <;> rfl

/-- And so its identifier. -/
theorem grainFlagged_id (x : Sample) (found : Decoded) : (grainFlagged x found).id = x.id :=
  congrArg (fun b => BitVec.ofNat 64 (fld b 0 8)) (grainFlagged_bytes x found)

/-- The status of a slot that a decoded sample fills, whole or concealed. -/
def filledStatus (x : Sample) (found : Decoded) (f : Filled) : SlotStatus :=
  { sampleId := x.id, capture := BitVec.ofNat 64 x.capture, length := BitVec.ofNat 32 f.length
    firstDamage := if damageField found = 0 then 0xFFFFFFFF else found.firstDamage, damage := damageField found
    state := if damageField found = 0 then 0 else 1, flags := (grainFlagged x found).flags ||| BitVec.ofNat 8 f.flags
    regions := if damageField found = 0 then 0 else found.regionMap, content := f.content }

/-- What the conversion to the slot's format counts (R301). -/
def fillCounts (c : BatchClass) (f : Filled) : List CensusAdd :=
  if f.sat = 0 && f.nonfinite = 0 then [] else [{ tensor := c.tensor, saturated := f.sat, nonfinite := f.nonfinite }]

section
variable {d : Dev} {die k : Nat} {x : Sample} {cfg : StreamCfg} {c : BatchClass} {out : Decoded}
  (hfind : (getTh d die).samples.findIdx? (fun y => y.stream == x.stream && y.decoding && y.ended && !y.dropped) = some k)
  (hx : (getTh d die).samples[k]? = some x) (hcfg : tget (getTh d die).streams x.stream = some cfg)
  (hc : tget (getTh d die).classes cfg.cls = some c)
include hfind hx hcfg hc

/-- Decoding ends by what was found: refused, a fault of memory, damaged, or placed. -/
theorem decodeDone_eq {found : Decoded} (hfound : decodedOf (getTh d die) cfg x out = found) : decodeDone die x.stream out d =
    if decodeRefused cfg x found then
      sweepSamples (padSample (logEvent d evThSampleRefused (.decoder die 2) 0) die cfg.cls k c x 3) die
    else if found.memFault then
      sweepSamples (padSample (logEvent d evMemUncorrectable (.decoder die 2) (x.stream + 2 ^ 12 * (x.id.toNat % 2 ^ 48))) die cfg.cls k c
        (grainFlagged x found) 7 65535 found.firstDamage found.regionMap) die
    else if cfg.damageMax < (damageField found).toNat then
      sweepSamples (padSample d die cfg.cls k c (grainFlagged x found) 2 (damageField found) found.firstDamage found.regionMap) die
    else
      sweepSamples (resolveSlot (modTh d die fun t => { t with aug := augmentedWork (getTh d die) cfg x found }) die cfg.cls k
        (grainFlagged x found) (filledStatus x found (fillSlot c (augmentedWork (getTh d die) cfg x found)))
        (fillCounts c (fillSlot c (augmentedWork (getTh d die) cfg x found)))) die := by
  subst hfound
  simp only [decodeDone, hfind, hx, hcfg, hc]
  rfl

/-- The status of the slot that a decoded sample resolves (R294 to R296, R301). -/
structure DecodedStatus (t : Thresher) (cfg : StreamCfg) (c : BatchClass) (x : Sample) (found : Decoded) (st : SlotStatus) : Prop where
  sampleId : st.sampleId = x.id
  state : st.state = decodedState cfg x found
  damage : st.damage =
    if decodedState cfg x found = 3 then 0 else if decodedState cfg x found = 7 then 65535 else damageField found
  content : st.content = if decodedState cfg x found = 0 ∨ decodedState cfg x found = 1 then
    (fillSlot c (augmentedWork t cfg x found)).content else padSlot c
  length : st.length = if decodedState cfg x found = 0 ∨ decodedState cfg x found = 1 then
    BitVec.ofNat 32 (fillSlot c (augmentedWork t cfg x found)).length else 0

omit hfind hx hcfg hc in
/-- A sample whose slot becomes padding has STATE REFUSED, FAULT or DAMAGED. -/
theorem decodedStatus_padded {t : Thresher} {found : Decoded} {y : Sample} {state : Byte} {damage : W16} {firstDamage regions : W32}
    (hid : y.id = x.id) (hstate : decodedState cfg x found = state)
    (hdamage : damage = if state = 3 then 0 else if state = 7 then 65535 else damageField found) (hpad : ¬(state = 0 ∨ state = 1)) :
    DecodedStatus t cfg c x found (paddedStatus c y state damage firstDamage regions) := by
  subst hstate
  exact ⟨hid, rfl, hdamage, (if_neg hpad).symm, (if_neg hpad).symm⟩

omit hfind hx hcfg hc in
/-- A sample that fills its slot has STATE OK or CONCEALED. -/
theorem decodedStatus_filled {t : Thresher} {found : Decoded} (hstate : decodedState cfg x found = if damageField found = 0 then 0 else 1) :
    DecodedStatus t cfg c x found (filledStatus x found (fillSlot c (augmentedWork t cfg x found))) := by
  have hfilled : decodedState cfg x found = 0 ∨ decodedState cfg x found = 1 := by
    rw [hstate]
    split
    · exact .inl rfl
    · exact .inr rfl
  have hpadded : decodedState cfg x found ≠ 3 ∧ decodedState cfg x found ≠ 7 := by
    rcases hfilled with h | h
    all_goals rw [h]; decide
  obtain ⟨hrefused, hfault⟩ := hpadded
  exact ⟨rfl, hstate.symm, by rw [if_neg hrefused, if_neg hfault]; rfl, (if_pos hfilled).symm, (if_pos hfilled).symm⟩

/-- SAMPLE_DECODE_DONE resolves the slot of its sample with that status; a refusal is recorded. -/
theorem slotResolved_decodeDone {found : Decoded} {b : Batch} (hlt : die < d.threshers.length) (hhalt : d.hub.hardHalted = false)
    (hswept : ∀ x ∈ (getTh d die).samples, x.dropped = false ∨ x.ended = false) (hb : getBatch d die cfg.cls x.batch = some b)
    (hinj : x.injector = none) (hfound : decodedOf (getTh d die) cfg x out = found) :
    ∃ st, SlotResolved d (decodeDone die x.stream out d) die cfg.cls k x st ∧ DecodedStatus (getTh d die) cfg c x found st ∧
      (decodedState cfg x found = 3 → recorded d (decodeDone die x.stream out d) 0x844 (.decoder die 2) 0) := by
  have hended : x.ended = true := by
    obtain ⟨hk, hp, -⟩ := List.findIdx?_eq_some_iff_getElem.mp hfind
    rw [List.getElem?_eq_getElem hk, Option.some_inj] at hx
    rw [hx] at hp
    simp only [Bool.and_eq_true] at hp
    obtain ⟨⟨_, hp⟩, _⟩ := hp
    exact hp
  have hinj' := (grainFlagged_injector x found).trans hinj
  have hbytes := grainFlagged_bytes x found
  rw [decodeDone_eq hfind hx hcfg hc hfound]
  split_ifs with hrefused hfault hdamaged
  · have hstate : decodedState cfg x found = 3 := if_pos hrefused
    have hth := logEvent_threshers d evThSampleRefused (.decoder die 2) 0 none
    have hget : getTh (logEvent d evThSampleRefused (.decoder die 2) 0) die = getTh d die := getTh_congr hth die
    refine ⟨_, slotResolved_padSample (hth ▸ hlt) (logEvent_mem ..) (logEvent_granary ..) hinj rfl hx hended hswept hb hth ..,
      decodedStatus_padded rfl hstate rfl (by decide), fun _ => ?_⟩
    exact recorded_resolveSlot (hth ▸ hlt) hinj (hget ▸ hx) hended (hget ▸ hswept) (recorded_logEvent hhalt ..) _ _
  · have hstate : decodedState cfg x found = 7 := (if_neg hrefused).trans (if_pos hfault)
    have hth := logEvent_threshers d evMemUncorrectable (.decoder die 2) (x.stream + 2 ^ 12 * (x.id.toNat % 2 ^ 48)) none
    exact ⟨_, slotResolved_padSample (hth ▸ hlt) (logEvent_mem ..) (logEvent_granary ..) hinj' hbytes hx hended hswept hb hth ..,
      decodedStatus_padded (grainFlagged_id x found) hstate rfl (by decide), fun h => absurd (hstate.symm.trans h) (by decide)⟩
  · have hstate : decodedState cfg x found = 2 := (if_neg hrefused).trans ((if_neg hfault).trans (if_pos hdamaged))
    exact ⟨_, slotResolved_padSample hlt rfl rfl hinj' hbytes hx hended hswept hb rfl ..,
      decodedStatus_padded (grainFlagged_id x found) hstate rfl (by decide), fun h => absurd (hstate.symm.trans h) (by decide)⟩
  · have hstate : decodedState cfg x found = if damageField found = 0 then 0 else 1 :=
      (if_neg hrefused).trans ((if_neg hfault).trans (if_neg hdamaged))
    have hget := getTh_modTh hlt fun t => { t with aug := augmentedWork (getTh d die) cfg x found }
    have hlt' : die < (modTh d die fun t => { t with aug := augmentedWork (getTh d die) cfg x found }).threshers.length := by
      simpa [modTh_eq_withTh, withTh] using hlt
    have hmem : (modTh d die fun t => { t with aug := augmentedWork (getTh d die) cfg x found }).mem = d.mem := rfl
    have hgranary : (modTh d die fun t => { t with aug := augmentedWork (getTh d die) cfg x found }).granary = d.granary := rfl
    generalize modTh d die _ = d1 at *
    refine ⟨_, slotResolved_of_kept hlt' hmem hgranary hinj' hbytes hx hended hswept hb (by rw [hget]) (by rw [hget]) _ _,
      decodedStatus_filled hstate, fun h => absurd h ?_⟩
    rw [hstate]
    split <;> decide

end

/-! ## Raw samples (R295, Table 11.4) -/

/-- An undamaged raw sample gives the bytes behind its header, none of them concealed. -/
theorem decodedOf_raw (t : Thresher) {cfg : StreamCfg} {x : Sample} (out : Decoded) (hdamaged : x.damaged = false) (hkind : cfg.kind = 0x20) :
    (decodedOf t cfg x out).concealed = 0 ∧ (decodedOf t cfg x out).units = (x.bytes.drop 64).map fun v => [v.setWidth 32] := by
  have hmissing : x.missing = (x.bytes.length - 64, 0) := by simp [Sample.missing, hdamaged]
  have hcoded : codedBytes x false = x.bytes.drop 64 := by simp [codedBytes, hmissing]
  have hraw : decodedOf t cfg x out = decodeRaw x out := by simp only [decodedOf, hkind]
  rw [hraw]
  refine ⟨by simp [decodeRaw, withDamage, hmissing], ?_⟩
  show single ((codedBytes x false).map (·.toNat)) = _
  rw [hcoded, single, List.map_map]
  exact List.map_congr_left fun v _ => congrArg (fun w => [w]) (BitVec.ofNat_toNat 32 v)

/-! ## The statement -/

/-- Settles O48: each outcome of a received block, of a sent block and of the grant of a core is one equation of its command; a decoded
sample resolves its slot with the status of what was found. -/
theorem streamBlocksAndDecoding : Obligations.StreamBlocksAndDecoding := by
  unfold Obligations.StreamBlocksAndDecoding
  refine ⟨fun s die blk hw hth hport hlen => ?received, fun c ty size v hc s die hw hth => ?sent,
    fun s die k x hw hth hx hwaits _ htick hother => ?granted,
    fun s die k x cfg c b out hw hth hfind hx hcfg hc hb hinj => ?decoded⟩
  case received =>
    have hup := (portUp_iff (getTh s.dev die)).mpr hport
    refine ⟨fun hcrc => acts_freed hw hth (by rw [streamBlock_of_up hup hlen, if_pos hcrc]),
      fun hcrc hbad => acts_freed hw hth (by simp [streamBlock_of_up hup hlen, hcrc, hbad]),
      fun hcrc hgood hidle => act_onDie hw hth (by simp [streamBlock_of_up hup hlen, hcrc, hgood, hidle]) rfl,
      fun hcrc hgood hty => ⟨fun hsos heos hnone hshort => ?_, fun hsos hnone => ?_,
        fun k x hsos heos hk hx hbseq hwhole hroom hdecoding hdropped => ?_⟩⟩
    · exact acts_sampleBegun hw hth hup hlen hcrc hgood hty hsos heos hnone hshort
    · exact acts_blockSkipped hw hth hup hlen hcrc hgood hty hsos hnone
    · exact acts_payloadAdded hw hth hup hlen hcrc hgood hty hsos heos hk hx hbseq hwhole hroom hdecoding hdropped
  case sent =>
    simp only [List.mem_cons, List.not_mem_nil, or_false, Prod.mk.injEq] at hc
    obtain ⟨rfl, rfl, rfl, rfl⟩ | ⟨rfl, rfl, rfl, rfl⟩ := hc
    · exact exec_blockSend hw hth rfl rfl (fun _ => rfl) (fun _ => rfl) (by norm_num) (by norm_num) (BitVec.isLt _)
    · exact exec_blockSend hw hth rfl rfl (fun _ => rfl) (fun _ => rfl) (by norm_num) (by norm_num) (deviceTime_lt _)
  case granted =>
    intro t
    split
    next hfree => exact acts_withTh hw hth rfl (decodeStart_of_single (die_lt hth) hx hwaits htick hother hfree)
    next hfull => exact act_onDie hw hth (decodeStart_of_full hfull) rfl
  case decoded =>
    have ⟨_, hhalt, _⟩ := hw
    have ⟨_, _, hswept⟩ := hth
    obtain ⟨st, hresolved, hstatus, hrecorded⟩ := slotResolved_decodeDone hfind hx hcfg hc (die_lt hth) hhalt hswept hb hinj rfl
    exact ⟨_, act_onDie hw hth rfl hresolved.granary,
      ⟨st, hresolved.slot, hstatus.sampleId, hstatus.state, hstatus.damage, hstatus.content, hstatus.length⟩,
      decodedOf_raw _ out, hresolved.others, hresolved.samples, hrecorded, hresolved.mem⟩

end Sys2Proof.DecodeProofs
end

section
/-! SUPPORT. TH_FLUSH of a class in a table whose numbers do not ascend (R298, R304): a device at which the statement on injection and
batches fails. -/

namespace Sys2Proof.FlushProofs

open Sys2Proof Sys2Proof.Machine Sys2Proof.Safety Sys2Proof.OrgProofs Sys2Proof.RingProofs Sys2Proof.Tests

/-- A TH_FLUSH of class 0, at whose issue no batch was open. -/
def emptyFlush : Op := opOf 0x0502 []

/-- A device at work with that operation on die 0, whose table of classes lists class 1 before class 0. -/
def unsortedDev : Dev :=
  { thDev emptyFlush [] [] with threshers := [{ classes := [(1, class0 []), (0, class0 [])] }, {}] }

/-- The flush puts class 0 where its number belongs, and leaves the old entry behind the new one. -/
theorem thFlush_unsorted :
    (thFlush name0 unsortedDev).threshers.map (fun t => t.classes.map (·.1)) = [[0, 1, 0], []] := by decide +kernel

/-- Refutes O49, at its clause on a TH_FLUSH whose batches have all committed: the statement is of every Thresher, also of one whose table
of classes is not in ascending order. A change of a class there, though it leaves the class as it is, lists it a second time, so that the
Threshers do not stay as they were. The premise that the table is in order, which MB_TH_CLASS keeps, is missing. -/
theorem not_injectionAndBatches : ¬ Obligations.InjectionAndBatches := by
  unfold Obligations.InjectionAndBatches
  rintro ⟨-, hflush, -⟩
  obtain ⟨hcommitted, -⟩ := hflush (stateOf unsortedDev) name0 emptyFlush 0 (class0 []) (by decide +kernel) (by decide +kernel)
    (by decide +kernel) rfl List.nodup_nil (by decide +kernel)
  obtain ⟨-, hsame⟩ := of_acts (hcommitted fun _ hb => nomatch hb)
    (act_running (d := thFlush name0 unsortedDev) (by decide +kernel) rfl (by decide +kernel))
  have hnumbers := thFlush_unsorted
  rw [hsame] at hnumbers
  exact absurd hnumbers (by decide +kernel)

end Sys2Proof.FlushProofs
end

section
/-! SUPPORT. What every step keeps: the form of each meaning, the queue, the pulse, reset, and an unpowered package (R323, R358, R359,
R409, R418, R441). -/

namespace Sys2Proof.StepFormProofs

open Sys2Proof Sys2Proof.Machine Sys2Proof.Safety Sys2Proof.HostProofs Sys2Proof.RingProofs Sys2Proof.StepProofs Sys2Proof.CommitProofs

/-! ## The form of each meaning -/

/-- Commands that change the state the package stands in: of its power, its pins and its function. They act without `settle`. -/
def statePins : Instr → Option (Dev → Dev)
  | .powerOn => some powerOn
  | .powerLoss => some powerLoss
  | .thermalTrip t => some (thermalTrip t)
  | .tripRelease => some tripRelease
  | .functionLevelReset => some Machine.functionLevelReset
  | .perstNAssert => some perstAssert
  | .perstNDeassert => some perstDeassert
  | _ => none

/-- A command that changes the state of the package acts as its function says. -/
theorem exec_eq_statePins {c : Instr} {f : Dev → Dev} (h : statePins c = some f) (s : State) : exec c s = act s f := by
  cases c <;> cases h <;> rfl

/-- Every other command needs the package powered, and that of an engine needs no hard halt (R72, R420). -/
theorem exec_eq_live_or_running {c : Instr} (h : statePins c = none) :
    ∃ f, (∀ s, exec c s = act s (live f)) ∨ ∀ s, exec c s = act s (running f) := by
  cases hc : outsideEngines c with
  | false =>
    obtain ⟨f, hf⟩ := exec_eq_running hc
    exact ⟨f, .inr hf⟩
  | true => cases c <;> cases hc <;> cases h <;> exact ⟨_, .inl fun _ => rfl⟩

/-! ## Stalled writes -/

/-- A command that meets an untaken page leaves none of its stalls behind (R359). -/
theorem settle_stalls {d : Dev} (h : d.granary.stalls = []) (d' : Dev) : (settle d d').granary.stalls = [] := by
  unfold settle
  split
  next hempty => exact List.isEmpty_iff.mp hempty
  next => exact h

/-- A change of the package's state leaves no write waiting: the Granary is reset, or left as it is. -/
theorem statePins_stalls {c : Instr} {f : Dev → Dev} (h : statePins c = some f) {d : Dev} (hd : d.granary.stalls = []) :
    (f d).granary.stalls = [] := by
  cases c <;> cases h
  case powerOn => unfold powerOn; split; exacts [hd, rfl]
  case powerLoss => unfold powerLoss; split; exacts [rfl, hd]
  case thermalTrip t => unfold thermalTrip; split; exacts [rfl, hd]
  case tripRelease => unfold tripRelease; split <;> exact hd
  case perstNDeassert => exact hd
  case functionLevelReset => unfold Machine.functionLevelReset; split; exacts [rfl, hd]
  case perstNAssert =>
    unfold perstAssert
    split
    · exact hd
    · split
      · rfl
      · exact hd

/-- No command leaves a write waiting at an untaken page. -/
theorem exec_stalls (c : Instr) {s t : State} (hs : s.dev.granary.stalls = []) (h : exec c s = .next t) :
    t.dev.granary.stalls = [] := by
  cases hc : statePins c with
  | some f =>
    rw [exec_eq_statePins hc] at h
    cases h
    exact statePins_stalls hc hs
  | none =>
    obtain ⟨f, hf | hf⟩ := exec_eq_live_or_running hc
    · rw [hf] at h
      cases h
      show (live f s.dev).granary.stalls = []
      unfold live
      split
      · exact settle_stalls hs _
      · exact hs
    · rw [hf] at h
      cases h
      show (running f s.dev).granary.stalls = []
      unfold running
      split
      · exact settle_stalls hs _
      · exact hs

/-- A pulse leaves the Granary alone. -/
theorem tickDev_granary (d : Dev) : (tickDev d).granary = d.granary := by
  unfold tickDev
  split
  · obtain ⟨_, _, _, _, h⟩ := ticked_pulse d
    rw [h]
  · rfl

/-- Settles O7: a command either settles, with all of its effect or none, or resets the Granary or leaves it alone; a pulse leaves it alone. -/
theorem noStallSurvives : Obligations.NoStallSurvives := by
  unfold Obligations.NoStallSurvives
  intro s t hs hstep
  unfold step at hstep
  split at hstep
  next =>
    cases hstep
    exact (congrArg Granary.stalls (tickDev_granary s.dev)).trans hs
  next c rest _ => exact exec_stalls c (s := { s with pending := rest }) hs hstep

/-- Settles O6: nothing has been written, and the queue is empty. -/
theorem noStallAtReset : Obligations.NoStallAtReset := ⟨rfl, rfl⟩

/-- Settles O1: the match of `step` on the queue. -/
theorem stepRunsFrontCommand : Obligations.StepRunsFrontCommand := fun _ _ _ => rfl

/-! ## An unpowered package -/

/-- A change of the package's state, but for those that power it or move its pins, leaves an unpowered package as it is. -/
theorem statePins_unpowered {c : Instr} {f : Dev → Dev} (h : statePins c = some f) {d : Dev} (hoff : d.power.on = false)
    (hc : c ≠ .powerOn ∧ c ≠ .tripRelease ∧ c ≠ .perstNAssert ∧ c ≠ .perstNDeassert) : f d = d := by
  obtain ⟨hon, htrip, hassert, hdeassert⟩ := hc
  cases c <;> cases h
  case powerOn => exact absurd rfl hon
  case tripRelease => exact absurd rfl htrip
  case perstNAssert => exact absurd rfl hassert
  case perstNDeassert => exact absurd rfl hdeassert
  case powerLoss => simp [powerLoss, hoff]
  case thermalTrip t => simp [thermalTrip, hoff]
  case functionLevelReset => exact functionLevelReset_of_shut (by simp [configOpen, hoff])

/-- Settles O4: `live` and `running` let nothing through while the package is unpowered. -/
theorem unpoweredDeviceIsInert : Obligations.UnpoweredDeviceIsInert := by
  unfold Obligations.UnpoweredDeviceIsInert
  refine ⟨fun c s hoff hon htrip hassert hdeassert => ?_, fun s hoff hempty => ?_⟩
  · cases hc : statePins c with
    | some f => rw [exec_eq_statePins hc, act, statePins_unpowered hc hoff ⟨hon, htrip, hassert, hdeassert⟩]
    | none =>
      obtain ⟨f, hf | hf⟩ := exec_eq_live_or_running hc
      · rw [hf]
        simp [act, live, hoff]
      · rw [hf]
        simp [act, running, hoff]
  · obtain ⟨d, pending⟩ := s
    cases hempty
    exact congrArg (fun d => Host.Outcome.next (State.mk d [])) (if_neg (by simp [show d.power.on = false from hoff]))

/-! ## The pulse -/

/-- A pulse is a tick of the slewed clock, one more pulse, a control cycle where it is delivered, and what it counts. -/
theorem pulse_eq (d : Dev) : pulse d = { slewTick d with
    counters := (pulse d).counters
    clock := { (slewTick d).clock with
      pulse := d.clock.pulse + 1
      cyc := d.clock.cyc + if swallowed d.clock.control (d.clock.pulse % 64) then 0 else 1
      core := (pulse d).clock.core, branch := (pulse d).clock.branch, control := (pulse d).clock.control } } := by
  have hcyc : (slewTick d).clock.cyc = d.clock.cyc := by
    unfold slewTick
    dsimp only
    split <;> rfl
  obtain ⟨c, hcore⟩ := counted_countCore (slewTick d)
  unfold pulse
  rw [hcore]
  cases swallowed d.clock.control (d.clock.pulse % 64) with
  | true => simp [hcyc]
  | false => simp [hcyc, countEvent]

/-- The tick of the uncorrected clock that a pulse ends in. -/
abbrev tickAfter (d : Dev) : Nat := (d.clock.pulse + 1) * 4 / 5

/-- A tick is doubled or swallowed at this pulse (R323). -/
abbrev slewDue (d : Dev) : Prop :=
  d.fabric.slew ≠ 0 ∧ tickAfter d ≠ d.clock.pulse * 4 / 5 ∧ d.fabric.slewAt + 1000 ≤ tickAfter d

/-- One ns of the offset still to be slewed in. -/
abbrev slewUnit (d : Dev) : Int := if 0 < d.fabric.slew then 1 else -1

theorem slewTick_of_due {d : Dev} (h : slewDue d) : slewTick d = { d with
    clock.offset := d.clock.offset + slewUnit d, fabric.slew := d.fabric.slew - slewUnit d, fabric.slewAt := tickAfter d } := by
  obtain ⟨hslew, hpasses, hlater⟩ := h
  exact if_neg (by simp only [tickAfter, Bool.or_eq_true, decide_eq_true_eq] at *; omega)

theorem slewTick_of_not_due {d : Dev} (h : ¬slewDue d) : slewTick d = d :=
  if_pos (by simp only [slewDue, tickAfter, Bool.or_eq_true, decide_eq_true_eq] at *; omega)

/-- A ns that is slewed in brings the offset still to come closer to 0. -/
theorem slewUnit_spec {d : Dev} (h : d.fabric.slew ≠ 0) :
    (slewUnit d).natAbs = 1 ∧ (d.fabric.slew - slewUnit d).natAbs + 1 = d.fabric.slew.natAbs := by
  unfold slewUnit
  split <;> omega

/-- Settles O3: a pulse is a tick of the slewed clock, one more pulse, a control cycle where it is delivered, and counts. -/
theorem emptyQueuePassesAPulse : Obligations.EmptyQueuePassesAPulse := by
  unfold Obligations.EmptyQueuePassesAPulse
  rintro ⟨d, pending⟩ hempty
  cases hempty
  refine ⟨tickDev d, rfl, ?_⟩
  unfold tickDev
  split
  next =>
    obtain ⟨_, _, _, _, hticked⟩ := ticked_slewTick d
    rw [pulse_eq]
    refine ⟨rfl, rfl, ?_, by rw [hticked]⟩
    by_cases hdue : slewDue d
    · obtain ⟨hunit, hcloser⟩ := slewUnit_spec hdue.1
      rw [slewTick_of_due hdue]
      refine (if_pos hdue).mpr ⟨rfl, ?_, hcloser, ?_⟩
      · simpa using hunit
      · show d.clock.offset + slewUnit d + (d.fabric.slew - slewUnit d) = d.clock.offset + d.fabric.slew
        omega
    · rw [slewTick_of_not_due hdue]
      exact (if_neg hdue).mpr ⟨rfl, rfl⟩
  next => rfl

end Sys2Proof.StepFormProofs
end

section
/-! SUPPORT. Power and bring-up: what power-on leaves, power loss and the thermal trip, the fast limiter, the power and thermal levels,
heartbeats and the Iabor watchdog, and the training record (R379, R401, R404, R415 to R418, R441). -/

namespace Sys2Proof.PowerProofs

open Sys2Proof Sys2Proof.Machine Sys2Proof.Safety Sys2Proof.HostProofs Sys2Proof.OrgProofs Sys2Proof.RingProofs

/-! ## Reset -/

/-- Settles O9: the device after reset is the device with every field at its default. -/
theorem resetValues : Obligations.ResetValues := by
  unfold Obligations.ResetValues
  refine ⟨rfl, rfl, rfl, fun _ => rfl, rfl, rfl, rfl, rfl, rfl, fun _ => ⟨rfl, rfl⟩, fun _ _ => ⟨rfl, rfl⟩, fun _ => ⟨rfl, rfl⟩,
    fun _ => rfl, fun _ _ => rfl, rfl, rfl, rfl, rfl, rfl, rfl, fun die => ?tally, fun scope unit i => ?counter, fun _ => rfl⟩
  case tally =>
    match die with
    | 0 | 1 | _ + 2 => exact ⟨rfl, rfl⟩
  case counter =>
    unfold getCounter
    split <;> rfl

/-! ## Power on and off (R401, R416, R418, R441) -/

theorem powerOn_of_off {d : Dev} (hoff : d.power.on = false) (htrip : d.power.tripLatched = false) :
    powerOn d = { unpoweredDev d with power := { perst := d.power.perst, reference := d.power.reference } } := by
  simp [powerOn, hoff, htrip]

theorem powerOn_of_latched {d : Dev} (htrip : d.power.tripLatched = true) : powerOn d = d := by
  simp [powerOn, htrip]

theorem powerLoss_of_on {d : Dev} (hon : d.power.on = true) : powerLoss d = unpoweredDev d := if_pos hon

theorem thermalTrip_of_on {d : Dev} {t : Int} (hon : d.power.on = true) (ht : 115 ≤ t) :
    thermalTrip t d = { unpoweredDev d with power := { (unpoweredDev d).power with tripLatched := true } } := by
  simp [thermalTrip, hon, ht]

/-- An effect without conditions. -/
theorem act_eq {f : Dev → Dev} {s : State} {d : Dev} (h : f s.dev = d) : act s f = .next { s with dev := d } := by
  rw [act, h]

/-- Settles O22: power is lost and found again as `unpoweredDev` says, which keeps the flash. -/
theorem powerOnAndOff : Obligations.PowerOnAndOff := by
  unfold Obligations.PowerOnAndOff
  refine ⟨fun s hoff htrip => ?on, fun s hon => ?loss, fun s t hon ht => ?trip, fun s hoff => ?release⟩
  case on => exact ⟨_, act_eq (powerOn_of_off hoff htrip), rfl, rfl, rfl, rfl, rfl, rfl, rfl⟩
  case loss => exact ⟨_, act_eq (powerLoss_of_on hon), rfl, rfl, rfl, rfl, rfl, rfl, rfl⟩
  case trip => exact ⟨_, act_eq (thermalTrip_of_on hon ht), rfl, rfl, rfl, rfl, act_eq (powerOn_of_latched rfl)⟩
  case release => exact ⟨_, act_eq (f := tripRelease) (if_neg (by simp [hoff])), rfl⟩

/-! ## The fast limiter and the power level (R415, R416) -/

/-- The power level after a sample, as one chain of cases. -/
theorem powerLevels_level (d : Dev) :
    (powerLevels d).power.level =
      (let total := sumOf d.power.window
       let limit := d.power.limitW * 1000 * d.power.window.length
       if limit < total then min 56 (d.power.level + 1)
       else if 100 * total < 95 * limit ∧ 10 ≤ d.power.lowerTick + 1 then d.power.level - 1 else d.power.level) := by
  unfold powerLevels
  dsimp only
  split
  · rfl
  · split
    next hbelow =>
      split
      next htenth => exact (if_pos ⟨hbelow, htenth⟩).symm
      next hearly => exact (if_neg fun h => hearly h.2).symm
    next habove => exact (if_neg fun h => habove h.1).symm

/-- And it changes nothing but the level and the count of samples. -/
theorem powerLevels_frame (d : Dev) : ∃ l k, powerLevels d = { d with power.level := l, power.lowerTick := k } := by
  unfold powerLevels
  dsimp only
  split
  · exact ⟨_, _, rfl⟩
  · split
    · split
      · exact ⟨_, _, rfl⟩
      · exact ⟨_, _, rfl⟩
    · exact ⟨_, _, rfl⟩

theorem reevePowerMeasure_of_runs {d : Dev} (h : firmwareRuns d 0 = true) (mv ma : Nat) :
    reevePowerMeasure mv ma d = writeReeve (powerLevels { d with
      power.inputMv := mv
      power.inputMa := ma
      power.lastMs := (mv * ma / 1000 :: d.power.lastMs).take 10
      power.peakMw := max d.power.peakMw (mv * ma / 1000)
      power.window := (mv * ma / 1000 :: d.power.window).take (10 * d.power.tauMs) }) := by
  simp [reevePowerMeasure, h]

/-- REEVE_POWER_MEASURE under firmware. -/
theorem exec_reevePowerMeasure {s : State} (mv ma : Nat) (hp : powered s) (hruns : firmwareRuns s.dev 0 = true) :
    let p := s.dev.power
    let w := (mv * ma / 1000 :: p.window).take (10 * p.tauMs)
    let total := w.foldl (· + ·) 0
    let limit := p.limitW * 1000 * w.length
    acts (.reevePowerMeasure mv ma) s fun d =>
      d.power.window = w ∧ d.power.inputMv = mv ∧ d.power.inputMa = ma ∧
      d.power.level = (if limit < total then min 56 (p.level + 1)
        else if 100 * total < 95 * limit ∧ 10 ≤ p.lowerTick + 1 then p.level - 1 else p.level) ∧
      { d with power := p, iabor := s.dev.iabor } = s.dev := by
  intro p w total limit
  generalize hsampled : ({ s.dev with
      power.inputMv := mv, power.inputMa := ma, power.lastMs := (mv * ma / 1000 :: s.dev.power.lastMs).take 10
      power.peakMw := max s.dev.power.peakMw (mv * ma / 1000), power.window := w } : Dev) = d0
  have hlevel := powerLevels_level d0
  obtain ⟨l, k, hframe⟩ := powerLevels_frame d0
  have heq := reevePowerMeasure_of_runs hruns mv ma
  rw [hsampled] at heq
  refine ⟨_, act_live hp heq ?_, ?_⟩
  · rw [hframe, ← hsampled]
    rfl
  · refine ⟨?_, ?_, ?_, hlevel.trans (by rw [← hsampled]; rfl), ?_⟩ <;> rw [hframe, ← hsampled] <;> rfl

/-! ## The thermal levels (R417) -/

/-- The thermal level of a branch after a sample, as one chain of cases. -/
theorem thermalNext_level (d : Dev) (b : Nat) :
    (thermalNext d b).1 =
      (if (d.power.tThrottle : Int) ≤ branchTemp d b then min 56 (d.power.thermal.getD b 0 + 4)
       else if branchTemp d b ≤ (d.power.tThrottle : Int) - 3 ∧ 10 ≤ d.power.coolTick.getD b 0 + 1 then d.power.thermal.getD b 0 - 1
       else d.power.thermal.getD b 0) := by
  unfold thermalNext
  dsimp only
  split
  · rfl
  · split
    next hcool =>
      split
      next htenth => exact (if_pos ⟨hcool, htenth⟩).symm
      next hearly => exact (if_neg fun h => hearly h.2).symm
    next hwarm => exact (if_neg fun h => hwarm h.1).symm

/-- SHED after a sample: entered at 105 °C on a die sensor or 100 °C on a GDDR7 device, left once every sensor is 5 °C below. -/
abbrev shedAfter (p : Power) : Bool :=
  if p.shed then !(decide (hottest p.tileTemp ≤ 100) && decide (hottest p.gddrTemp ≤ 95))
  else decide (105 ≤ hottest p.tileTemp) || decide (100 ≤ hottest p.gddrTemp)

/-- SHED is entered and left (R417); besides it only reports are made. -/
theorem shedNext_frame (d : Dev) : ∃ c o x t h m, shedNext d = { d with
    power.shed := shedAfter d.power, counters := c, owl := o, hub.dropped := x, tally := t, host := h, out := m } := by
  unfold shedNext
  dsimp only
  split
  next henter =>
    simp only [Bool.and_eq_true, Bool.not_eq_true'] at henter
    obtain ⟨hout, hhot⟩ := henter
    obtain ⟨_, _, _, _, _, _, hlog⟩ := logEvent_frame { d with power.shed := true } evThermalShed (.core 0 0) 0 none
    obtain ⟨_, _, hcause⟩ := setCause_frame (logEvent { d with power.shed := true } evThermalShed (.core 0 0) 0) 5
    rw [hcause, hlog, show shedAfter d.power = true by simp [shedAfter, hout, hhot]]
    exact ⟨_, _, _, _, _, _, rfl⟩
  next hstay =>
    split
    next hleave =>
      simp only [Bool.and_eq_true, decide_eq_true_eq] at hleave
      obtain ⟨⟨hin, hdie⟩, hgddr⟩ := hleave
      rw [show shedAfter d.power = false by simp [shedAfter, hin, hdie, hgddr]]
      exact ⟨_, _, _, _, _, _, rfl⟩
    next hkeep =>
      have hkept : shedAfter d.power = d.power.shed := by
        cases hshed : d.power.shed with
        | true => simpa [shedAfter, hshed, imp_iff_not_or] using hkeep
        | false => simpa [shedAfter, hshed] using hstay
      rw [hkept]
      exact ⟨_, _, _, _, _, _, rfl⟩

/-- The device with a sample of its sensors. -/
def sensed (d : Dev) (tiles gddr : List Int) : Dev := { d with power.tileTemp := tileSensors tiles, power.gddrTemp := gddr }

/-- The device with the thermal levels that its sensors ask for. -/
def levelled (d : Dev) : Dev := { d with
  power.thermal := (List.range 20).map fun b => (thermalNext d b).1
  power.coolTick := (List.range 20).map fun b => (thermalNext d b).2 }

theorem tempSample_of_runs {d : Dev} {tiles gddr : List Int} (hruns : firmwareRuns d 0 = true) (ht : tiles.length = 64)
    (hg : gddr.length = 24) : tempSample tiles gddr d = writeReeve (shedNext (levelled (sensed d tiles gddr))) := by
  simp [tempSample, levelled, sensed, hruns, ht, hg, Function.comp_def]

/-- Settles O24: each sample is one chain of cases for the level, and the limiter is one bit. -/
theorem powerAndHeatLevels : Obligations.PowerAndHeatLevels := by
  unfold Obligations.PowerAndHeatLevels
  refine ⟨fun s hp hlimit => ?engage, fun s hp => ?release, fun s mv ma hp hruns => exec_reevePowerMeasure mv ma hp hruns,
    fun s tiles gddr hp hruns ht hg => ?temp⟩
  case engage =>
    refine ⟨_, act_live hp (if_neg (by simp [hlimit])) (logEvent_granary ..), logEvent_power .., fun b => ?_⟩
    unfold branchLevel
    rw [logEvent_power]
    dsimp only
    split
    · decide
    · exact Nat.le_max_right _ _
  case release => exact ⟨_, act_live hp rfl rfl, rfl⟩
  case temp =>
    obtain ⟨_, _, _, _, _, _, hshed⟩ := shedNext_frame (levelled (sensed s.dev tiles gddr))
    have heq := tempSample_of_runs hruns ht hg
    rw [hshed] at heq
    refine ⟨_, act_live hp heq rfl, rfl, rfl, fun b hb => ?_, rfl⟩
    show ((List.range 20).map fun b => (thermalNext (sensed s.dev tiles gddr) b).1).getD b 0 = _
    rw [List.getD_eq_getElem?_getD, List.getElem?_map, List.getElem?_range hb]
    exact thermalNext_level ..

end Sys2Proof.PowerProofs
end

section
/-! SUPPORT. Heartbeats, the Iabor watchdog and the training record (R379, R404). -/

namespace Sys2Proof.IaborProofs

open Sys2Proof Sys2Proof.Machine Sys2Proof.Safety Sys2Proof.HostProofs Sys2Proof.OrgProofs Sys2Proof.RingProofs Sys2Proof.PowerProofs

/-- A list with a change at a place holds the changed element there. -/
theorem getElem?_modAt_same {α : Type} {l : List α} {n : Nat} {x : α} (h : l[n]? = some x) (f : α → α) :
    (modAt l n f)[n]? = some (f x) := by
  obtain ⟨hn, -⟩ := List.getElem?_eq_some_iff.mp h
  simp only [modAt, h, List.getElem?_set_self hn]

/-- And it holds elsewhere what it held. -/
theorem getElem?_modAt_other {α : Type} (l : List α) {n k : Nat} (f : α → α) (h : k ≠ n) : (modAt l n f)[k]? = l[k]? := by
  unfold modAt
  split
  · rfl
  · exact List.getElem?_set_ne (Ne.symm h)

theorem getD_of_getElem? {α : Type} {l : List α} {n : Nat} {x : α} (h : l[n]? = some x) (y : α) : l.getD n y = x := by
  simp [h]

/-! ## Heartbeats -/

theorem heartbeat_of_due {d : Dev} {die : Nat} {c : Cluster} (hruns : firmwareRuns d die = true) (hc : d.iabor.clusters[die]? = some c)
    (hdue : ∀ t, c.lastBeat = some t → t + 1000000 ≤ deviceTime d) :
    heartbeat die d = modCluster d die fun c => { c with beats := c.beats + 1, lastBeat := some (deviceTime d) } := by
  have hlast : c.lastBeat.all (fun t => decide (t + 1000000 ≤ deviceTime d)) = true := by
    simpa [Option.all_eq_true] using hdue
  unfold heartbeat
  rw [getD_of_getElem? hc, hruns]
  exact if_pos hlast

/-! ## The watchdog -/

/-- The resets of a cluster in the last 10 s. -/
def recentResets (d : Dev) (die : Nat) : List Nat :=
  (d.iabor.clusters.getD die {}).resets.filter fun t => decide (deviceTime d < t + 10000000000)

/-- The device with the reset of a cluster noted; `halts` is the third in 10 s. -/
def restarted (d : Dev) (die : Nat) (halts : Bool) : Dev := modCluster d die fun c => { c with
  resets := deviceTime d :: recentResets d die, halted := halts, watchFrom := deviceTime d }

/-- And reported. -/
def resetNoted (d : Dev) (die : Nat) (halts : Bool) : Dev :=
  setCause (logEvent (restarted d die halts) evIaborRestart (.core die 0) 0) 4

/-- A mailbox after the reset of a cluster: its command is interrupted where it was that cluster's. -/
def interrupted (d : Dev) (die : Nat) (b : Mailbox) : Mailbox :=
  if b.st = .busy ∧ (die = 0 ∨ (b.answer.isSome = true ∧ namesEast d b = true)) then { b with answer := some (mbEnd rsInterrupted) } else b

/-- Commands of either die are interrupted; besides the mailboxes only what waits to answer them changes. -/
theorem interrupt_frame (d : Dev) (die : Nat) :
    ∃ r p g, (if die = 0 then interruptAll d else interruptEast d) = { d with
      iabor.mbx := d.iabor.mbx.map (interrupted d die), hub.rings := r, fabric.ports := p, seq.migration := g } := by
  split
  next hwest =>
    have hmbx : (fun b => if b.st = .busy then { b with answer := some (mbEnd rsInterrupted) } else b) = interrupted d die := by
      funext b
      simp [interrupted, hwest]
    unfold interruptAll
    rw [hmbx]
    exact ⟨_, _, _, rfl⟩
  next heast =>
    have hmbx : (fun b => if b.st = .busy && b.answer.isSome && namesEast d b then { b with answer := some (mbEnd rsInterrupted) }
        else b) = interrupted d die := by
      funext b
      simp [interrupted, heast, and_assoc]
    unfold interruptEast
    rw [hmbx]
    exact ⟨_, _, _, rfl⟩

/-- A mailbox after the reset of a cluster that stays halted, or not. -/
def afterReset (d : Dev) (die : Nat) (halts : Bool) (b : Mailbox) : Mailbox :=
  if halts then { b with st := .noFirmware, answer := none } else interrupted d die b

/-- A mailbox that is shut is shut whether its command was interrupted or not. -/
theorem shut_interrupted (d : Dev) (die : Nat) (b : Mailbox) :
    { interrupted d die b with st := .noFirmware, answer := none } = afterReset d die true b := by
  unfold interrupted afterReset
  split <;> rfl

/-- The reset of a silent cluster: noted and reported, and then the mailboxes. -/
theorem iaborWatchdogExpiry_of_silent {d : Dev} {die : Nat} (hdie : die < 2) (hruns : firmwareRuns d die = true)
    (hsilent : silentSince d die + 250000000 ≤ deviceTime d) {halts : Bool} (hhalts : decide (2 ≤ (recentResets d die).length) = halts) :
    ∃ r p g, iaborWatchdogExpiry die d = (let d1 := resetNoted d die halts
      { d1 with iabor.mbx := d1.iabor.mbx.map (afterReset d1 die halts), hub.rings := r, fabric.ports := p, seq.migration := g }) := by
  have hcond : ¬(!(firmwareRuns d die) || decide (2 ≤ die) || decide (deviceTime d < silentSince d die + 250000000)) = true := by
    simp [hruns]
    omega
  obtain ⟨r, p, g, hframe⟩ := interrupt_frame (resetNoted d die halts) die
  have heq : iaborWatchdogExpiry die d =
      (let d2 := if die = 0 then interruptAll (resetNoted d die halts) else interruptEast (resetNoted d die halts)
       if halts = true then { d2 with iabor.mbx := d2.iabor.mbx.map fun b => { b with st := .noFirmware, answer := none } } else d2) := by
    subst hhalts
    unfold iaborWatchdogExpiry
    rw [if_neg hcond]
    rfl
  rw [heq, hframe]
  refine ⟨r, p, g, ?_⟩
  cases halts with
  | true => simp [shut_interrupted, Function.comp_def]
  | false => simp [afterReset]

/-- The note of a reset is a report, a cause and the cluster's new record. -/
theorem resetNoted_spec {d : Dev} (h : d.hub.hardHalted = false) (die : Nat) (halts : Bool) :
    recorded d (resetNoted d die halts) 0x884 (.core die 0) 0 ∧ (resetNoted d die halts).host.irqCause.getLsbD 4 = true ∧
    (resetNoted d die halts).iabor = (restarted d die halts).iabor ∧
    (resetNoted d die halts).granary = d.granary ∧ (resetNoted d die halts).seq = d.seq := by
  have hhub : (restarted d die halts).hub = d.hub := rfl
  obtain ⟨htally, howl⟩ : recorded (restarted d die halts) (logEvent (restarted d die halts) evIaborRestart (.core die 0) 0)
      evIaborRestart (.core die 0) 0 := recorded_logEvent (by rw [hhub, h]) ..
  have hirq : (resetNoted d die halts).host.irqCause.getLsbD 4 = true := by
    rw [resetNoted, setCause_irqCause _ (by decide)]
    simp
  refine ⟨?_, hirq, ?_⟩
  all_goals
    obtain ⟨_, _, hcause⟩ := setCause_frame (logEvent (restarted d die halts) evIaborRestart (.core die 0) 0) 4
    rw [resetNoted, hcause]
  · exact ⟨htally, howl⟩
  · exact ⟨logEvent_iabor .., logEvent_granary .., logEvent_seq ..⟩

/-- Whether a request names a unit of the east die depends on the Sequencer's migration and stages alone. -/
theorem namesEast_congr {d d' : Dev} (h : d'.seq = d.seq) : namesEast d' = namesEast d := by
  funext b
  unfold namesEast eastMigration
  rw [h]

/-- The watchdog of a silent cluster. -/
theorem exec_iaborWatchdogExpiry {s : State} {die : Nat} {c : Cluster} (hp : powered s) (hrun : s.dev.hub.hardHalted = false)
    (hdie : die < 2) (hruns : firmwareRuns s.dev die = true) (hc : s.dev.iabor.clusters[die]? = some c)
    (hsilent : silentSince s.dev die + 250000000 ≤ deviceTime s.dev) :
    let third := decide (2 ≤ (c.resets.filter fun t => decide (deviceTime s.dev < t + 10000000000)).length)
    acts (.iaborWatchdogExpiry die) s fun d =>
      recorded s.dev d 0x884 (.core die 0) 0 ∧ d.host.irqCause.getLsbD 4 = true ∧
      (∃ c', d.iabor.clusters[die]? = some c' ∧ c'.halted = third ∧ c'.resets.head? = some (deviceTime s.dev)) ∧
      ∀ (m : Nat) (b : Mailbox), s.dev.iabor.mbx[m]? = some b → d.iabor.mbx[m]? = some (
        if third then { b with st := .noFirmware, answer := none } else interrupted s.dev die b) := by
  intro third
  have hthird : decide (2 ≤ (recentResets s.dev die).length) = third := by rw [recentResets, getD_of_getElem? hc]
  obtain ⟨r, p, g, heq⟩ := iaborWatchdogExpiry_of_silent hdie hruns hsilent hthird
  obtain ⟨hrec, hirq, hiabor, hgranary, hseq⟩ := resetNoted_spec hrun die third
  have hafter : afterReset (resetNoted s.dev die third) die third = afterReset s.dev die third := by
    funext b
    unfold afterReset interrupted
    rw [namesEast_congr hseq]
  dsimp only at heq
  rw [hafter, hiabor] at heq
  refine ⟨_, act_live hp heq hgranary, hrec, hirq, ⟨_, getElem?_modAt_same hc _, rfl, rfl⟩, fun m b hb => ?_⟩
  show ((restarted s.dev die third).iabor.mbx.map (afterReset s.dev die third))[m]? = _
  rw [List.getElem?_map, show (restarted s.dev die third).iabor.mbx[m]? = some b from hb]
  rfl

/-- Settles O25: a heartbeat changes its cluster; a reset is noted and reported, and then interrupts the mailboxes or shuts them. -/
theorem heartbeatsAndTrainingRecord : Obligations.HeartbeatsAndTrainingRecord := by
  unfold Obligations.HeartbeatsAndTrainingRecord
  refine ⟨fun s die c hp hruns hc hdue => ?beat, fun s die c hp hrun hdie hruns hc hsilent =>
    exec_iaborWatchdogExpiry hp hrun hdie hruns hc hsilent, fun s hp hruns hdue => ?record⟩
  case beat => exact ⟨_, act_live hp (heartbeat_of_due hruns hc hdue) rfl, getElem?_modAt_same hc _, rfl⟩
  case record => exact ⟨_, act_live hp (if_pos (by simp [hdue, hruns])) rfl, rfl⟩

end Sys2Proof.IaborProofs
end

section
/-! SUPPORT. What the traffic of the fabric leaves alone: flits, messages, responses, and the training of ports (R308 to R324). -/

namespace Sys2Proof.TrafficProofs

open Sys2Proof Sys2Proof.Machine Sys2Proof.Safety Sys2Proof.HostProofs Sys2Proof.OrgProofs Sys2Proof.RingProofs

/-- What the fabric's traffic may change: the fabric itself, what was sent, the operations and ledgers that wait for responses, memory of
other devices as it is seen here, and what reports change. -/
def Traffic (d d' : Dev) : Prop :=
  ∃ f o c w r y t h x b m, d' = { d with
    fabric := f, out := o, counters := c, owl := w, hub.rings := r, hub.dropped := y, tally := t, host := h, steps := x, badgers := b
    mem.remote := m }

namespace Traffic
variable {d d' d'' : Dev}

theorem refl (d : Dev) : Traffic d d := ⟨_, _, _, _, _, _, _, _, _, _, _, rfl⟩

theorem trans (h : Traffic d d') (h' : Traffic d' d'') : Traffic d d'' := by
  obtain ⟨_, _, _, _, _, _, _, _, _, _, _, rfl⟩ := h
  obtain ⟨_, _, _, _, _, _, _, _, _, _, _, rfl⟩ := h'
  exact ⟨_, _, _, _, _, _, _, _, _, _, _, rfl⟩

theorem foldl {α : Type} {g : Dev → α → Dev} (h : ∀ d x, Traffic d (g d x)) (l : List α) (d : Dev) : Traffic d (l.foldl g d) := by
  induction l generalizing d with
  | nil => exact refl d
  | cons x l ih => exact (h d x).trans (ih _)

theorem granary_eq (h : Traffic d d') : d'.granary = d.granary := by
  obtain ⟨_, _, _, _, _, _, _, _, _, _, _, rfl⟩ := h
  rfl

theorem power_eq (h : Traffic d d') : d'.power = d.power := by
  obtain ⟨_, _, _, _, _, _, _, _, _, _, _, rfl⟩ := h
  rfl

end Traffic

theorem traffic_logEvent (d : Dev) (ev : Nat) (src : Source) (detail : Nat) (r : Option Nat) :
    Traffic d (logEvent d ev src detail r) := by
  obtain ⟨_, _, _, _, _, _, e⟩ := logEvent_frame d ev src detail r
  rw [e]
  exact ⟨_, _, _, _, _, _, _, _, _, _, _, rfl⟩

theorem traffic_countEvent (d : Dev) (ev n die : Nat) (tile r : Option Nat) : Traffic d (countEvent d ev n die tile r) :=
  ⟨_, _, _, _, _, _, _, _, _, _, _, rfl⟩

theorem traffic_modOp (d : Dev) (n : OpName) (f : Op → Op) : Traffic d (modOp d n f) := ⟨_, _, _, _, _, _, _, _, _, _, _, rfl⟩

theorem traffic_modPort (d : Dev) (q : Nat) (f : Port → Port) : Traffic d (modPort d q f) := ⟨_, _, _, _, _, _, _, _, _, _, _, rfl⟩

theorem traffic_remote (d : Dev) (m : List Host.Cell) : Traffic d { d with mem.remote := m } :=
  ⟨_, _, _, _, _, _, _, _, _, _, _, rfl⟩

theorem traffic_progress (d : Dev) (n : OpName) : Traffic d (progress d n) := by
  unfold progress
  split
  · exact .refl d
  · exact traffic_modOp ..

theorem traffic_completeOp (d : Dev) (n : OpName) (st : Byte) (detail : Nat) : Traffic d (completeOp d n st detail) := by
  obtain ⟨_, _, _, _, _, _, _, _, e⟩ := completeOp_frame d n st detail
  rw [e]
  exact ⟨_, _, _, _, _, _, _, _, _, _, _, rfl⟩

/-! ## Flits that leave (R308 to R313) -/

theorem traffic_emitFlits (d : Dev) (q : Nat) (p : Port) (sent : List Bytes) : Traffic d (emitFlits d q p sent) := by
  obtain ⟨_, e⟩ := emitFlits_frame d q p sent
  rw [e]
  exact ⟨_, _, _, _, _, _, _, _, _, _, _, rfl⟩

theorem traffic_drainPort (q fuel : Nat) (d : Dev) : Traffic d (drainPort q fuel d) := by
  obtain ⟨_, _, _, _, e⟩ := drainPort_frame q fuel d
  rw [e]
  exact ⟨_, _, _, _, _, _, _, _, _, _, _, rfl⟩

theorem traffic_pumpPort (d : Dev) (q : Nat) : Traffic d (pumpPort d q) := by
  unfold pumpPort
  dsimp only
  split
  · exact .refl d
  · split
    · exact traffic_drainPort ..
    · exact (traffic_emitFlits ..).trans (traffic_drainPort ..)

theorem traffic_portSend (d : Dev) (q inPort : Nat) (m : FabMsg) : Traffic d (portSend d q inPort m) :=
  (traffic_modPort d q fun p => { p with waiting := p.waiting ++ [(inPort, m)] }).trans (traffic_pumpPort _ q)

theorem traffic_injectMsg (d : Dev) (m : FabMsg) : Traffic d (injectMsg d m).1 := by
  unfold injectMsg
  dsimp only
  split
  · exact ⟨_, _, _, _, _, _, _, _, _, _, _, rfl⟩
  · exact traffic_portSend ..
  · exact traffic_logEvent ..

/-! ## Responses (R321, R322, R349) -/

theorem traffic_failRequest (d : Dev) (n : OpName) (st : Byte) : Traffic d (failRequest d n st) := by
  unfold failRequest
  split
  · unfold failFetch
    dsimp only
    split
    · exact .refl d
    · exact ⟨_, _, _, _, _, _, _, _, _, _, _, rfl⟩
  · split
    · exact .refl d
    · exact traffic_completeOp ..

theorem traffic_failCollective (d : Dev) (info : Bytes) (tag : W32) : Traffic d (failCollective d info tag) := by
  refine Traffic.foldl (fun d p => ?_) _ d
  split
  · exact traffic_failRequest ..
  · exact .refl d

theorem traffic_notePayload (d : Dev) (q : Nat) (t : Transit) (r : Option Nat) : Traffic d (notePayload d q t r) := by
  cases t with
  | clean => exact .refl d
  | corrected => exact traffic_logEvent ..
  | uncorrectable => exact traffic_logEvent ..

theorem traffic_takeResponse (d : Dev) (q : Nat) (m : FabMsg) : Traffic d (takeResponse d q m) := by
  unfold takeResponse
  dsimp only
  split
  · split
    · exact traffic_failCollective ..
    · exact .refl d
  next r _ =>
    have hfreed : Traffic d { notePayload d q m.bodyCheck (some r.op.ring) with
        fabric.requests := (notePayload d q m.bodyCheck (some r.op.ring)).fabric.requests.filter fun r => r.tag != m.tag } :=
      (traffic_notePayload ..).trans ⟨_, _, _, _, _, _, _, _, _, _, _, rfl⟩
    refine hfreed.trans ?_
    split
    · exact traffic_failRequest ..
    · split
      · exact traffic_failRequest ..
      · split
        · exact traffic_failRequest ..
        · split
          · exact (traffic_remote _ _).trans ((traffic_progress _ _).trans (traffic_modOp _ _ _))
          · exact .refl _

theorem traffic_discardMsg (d : Dev) (q : Nat) (m : FabMsg) : Traffic d (discardMsg d q m) := by
  unfold discardMsg
  dsimp only
  refine (traffic_logEvent d evFabUnroutable (.port q) 0 none).trans ?_
  split
  · split
    · exact traffic_takeResponse ..
    · exact traffic_injectMsg ..
  · exact .refl _

theorem traffic_dropWaiting (d : Dev) (q : Nat) : Traffic d (dropWaiting d q) :=
  (traffic_modPort ..).trans (.foldl (g := fun d (w : Nat × FabMsg) => discardMsg d q w.2) (fun d w => traffic_discardMsg d q w.2) _ _)

/-! ## Training (R314 to R318) -/

theorem traffic_refreshDetours (d : Dev) : Traffic d (refreshDetours d) := ⟨_, _, _, _, _, _, _, _, _, _, _, rfl⟩

theorem traffic_findParent (d : Dev) : Traffic d (findParent d) := by
  unfold findParent
  split
  · exact .refl d
  · exact ⟨_, _, _, _, _, _, _, _, _, _, _, rfl⟩

theorem traffic_stateEvents (d : Dev) (q st : Nat) (spare : Bool) : Traffic d (stateEvents d q st spare) := by
  unfold stateEvents
  split
  · exact traffic_logEvent ..
  · split
    · exact traffic_logEvent ..
    · split
      · exact traffic_logEvent ..
      · split
        · exact traffic_logEvent ..
        · exact .refl d

theorem traffic_trainPort (d : Dev) (q : Nat) (t : PortTrain) (afresh retrain : Bool) : Traffic d (trainPort d q t afresh retrain) := by
  have hinits (d : Dev) (w : Nat) (l : List (Nat × LinkInit)) : Traffic d (if w = 0 then d else { d with out.inits := l }) := by
    split
    · exact .refl d
    · exact ⟨_, _, _, _, _, _, _, _, _, _, _, rfl⟩
  have hreport (d : Dev) (b : Bool) : Traffic d (if b = true then logEvent d evFabRetrain (.port q) 0 else d) := by
    split
    · exact traffic_logEvent ..
    · exact .refl d
  have hsent (d : Dev) (b : Bool) : Traffic d (if b = true then pumpPort d q else dropWaiting d q) := by
    split
    · exact traffic_pumpPort ..
    · exact traffic_dropWaiting ..
  exact (traffic_modPort ..).trans ((hinits ..).trans ((hreport ..).trans ((traffic_stateEvents ..).trans
    ((traffic_refreshDetours _).trans ((hsent ..).trans (traffic_findParent _))))))

theorem traffic_beginRetrain (d : Dev) (q : Nat) (forced : Bool) (mbx : Option Nat) : Traffic d (beginRetrain d q forced mbx) := by
  cases forced with
  | true => exact traffic_modPort ..
  | false => exact (traffic_modPort ..).trans (traffic_refreshDetours _)

end Sys2Proof.TrafficProofs
end

section
/-! SUPPORT. The phases of bring-up (R391, R401, R402, R407, R422, R442, 16 Table 16.1). -/

namespace Sys2Proof.BringupProofs

open Sys2Proof Sys2Proof.Machine Sys2Proof.Safety Sys2Proof.HostProofs Sys2Proof.OrgProofs Sys2Proof.RingProofs Sys2Proof.PowerProofs
  Sys2Proof.TrafficProofs Sys2Proof.MigrationProofs

/-! ## Reports of retired units -/

/-- What reports of retired units change. -/
def Reported (d d' : Dev) : Prop :=
  ∃ a c o x t h m, d' = { d with
    power.retiredAny := a, counters := c, owl := o, hub.dropped := x, tally := t, host := h, out := m }

theorem Reported.refl (d : Dev) : Reported d d := ⟨_, _, _, _, _, _, _, rfl⟩

theorem Reported.trans {d d' d'' : Dev} (h : Reported d d') (h' : Reported d' d'') : Reported d d'' := by
  obtain ⟨_, _, _, _, _, _, _, rfl⟩ := h
  obtain ⟨_, _, _, _, _, _, _, rfl⟩ := h'
  exact ⟨_, _, _, _, _, _, _, rfl⟩

theorem reported_reportRetired (phase : Nat) (d : Dev) (src : Source) : Reported d (reportRetired phase d src) := by
  obtain ⟨_, _, _, _, _, _, e⟩ := logEvent_frame { d with power.retiredAny := true } evUnitRetired src
    (src.code + phase * 2 ^ 16 + (Config.failingTest (sourceDie d src) src.code).toNat * 2 ^ 20) none
  unfold reportRetired
  dsimp only
  rw [e]
  exact ⟨_, _, _, _, _, _, _, rfl⟩

/-- Units are reported one after the other. -/
theorem reported_foldl {α : Type} (phase : Nat) (src : Dev → α → Source) (l : List α) (d : Dev) :
    Reported d (l.foldl (fun d x => reportRetired phase d (src d x)) d) := by
  induction l generalizing d with
  | nil => exact .refl d
  | cons x l ih => exact (reported_reportRetired ..).trans (ih _)

theorem reported_reportCores (phase : Nat) (found : Findings) (before d : Dev) : Reported d (reportCores phase found before d) := by
  unfold reportCores
  dsimp only
  split
  · exact (reported_foldl phase (fun _ _ => .ctl 0) _ d).trans (reported_foldl phase (fun _ x => x) _ _)
  · exact reported_foldl phase (fun _ _ => .ctl 0) _ d

/-- With no finding of bad Iabor cores, none is lost. -/
theorem loseCores_of_none {found : Findings} (h : found.iabor = []) (d : Dev) : loseCores found d = d := by
  simp [loseCores, iaborLosses, h]

theorem reportCores_of_none {found : Findings} (h : found.iabor = []) (phase : Nat) (d : Dev) : reportCores phase found d d = d := by
  simp [reportCores, iaborLosses, h]

/-! ## Phases A to C -/

/-- The reference as a phase up to C meets it. -/
theorem seeReference_early {d : Dev} {p : BitVec 4} (hp : d.power.phase = p) (h : p.toNat ≤ 3) (found : Findings) :
    seeReference found d = { d with power.reference := found.reference } := if_pos (by rw [hp]; exact h)

/-- And later phases do not look at it. -/
theorem seeReference_late {d : Dev} {p : BitVec 4} (hp : d.power.phase = p) (h : ¬p.toNat ≤ 3) (found : Findings) :
    seeReference found d = d := if_neg (by rw [hp]; exact h)

theorem bringup_phaseA {d : Dev} {found : Findings} (hp : d.power.phase = 1)
    (hlink : linkRuns found.link.1 found.link.2 = true) :
    bringupPhaseDone found d = { d with
      power.phase := 2, power.bootFrom := deviceTime d, power.reference := found.reference
      host.speed := found.link.1, host.width := found.link.2 } := by
  unfold bringupPhaseDone
  rw [seeReference_early hp (by decide)]
  simp [hp, endPhaseA, hlink, deviceTime]

/-- With no image on TRIAL nothing is discarded at power-on. -/
theorem discardTrial_of_none {d : Dev} (h : ∀ k, k < 2 → (fwSlot d k).st ≠ 2) : discardTrial d = d := by
  simp [discardTrial, List.range_succ, h 0 (by decide), h 1 (by decide)]

/-- Without an image that starts, phase B ends in the boot ROM (R391). -/
theorem endPhaseB_of_none {d : Dev} {found : Findings} (hcores : found.iabor = []) (himage : found.imageOk = false)
    (hother : found.otherOk = false) (htrial : ∀ k, k < 2 → (fwSlot d k).st ≠ 2) : endPhaseB found d = enterRom d := by
  have hfound : iaborFindings 2 found (discardTrial d) = d := by
    rw [discardTrial_of_none htrial, iaborFindings, loseCores_of_none hcores, reportCores_of_none hcores]
  unfold endPhaseB
  simp [hfound, himage, hother]

theorem bringup_phaseB {d : Dev} {found : Findings} (hp : d.power.phase = 2) (hrom : d.power.noFw = false)
    (hcores : found.iabor = []) (himage : found.imageOk = false) (hother : found.otherOk = false)
    (htrial : ∀ k, k < 2 → (fwSlot d k).st ≠ 2) :
    bringupPhaseDone found d = enterRom { d with power.reference := found.reference } := by
  unfold bringupPhaseDone
  rw [seeReference_early hp (by decide)]
  simp only [hp, hrom]
  exact endPhaseB_of_none hcores himage hother htrial

/-- Under the boot ROM every mailbox but the first has no firmware. -/
theorem enterRom_mbx {d : Dev} {m : Nat} {b : Mailbox} (hb : d.iabor.mbx[m]? = some b) :
    (enterRom d).iabor.mbx[m]? = some (if m = 0 then b else { b with st := .noFirmware }) := by
  simp [enterRom, List.getElem?_map, List.getElem?_zipIdx, hb]

theorem bringup_phaseC {d : Dev} {found : Findings} (hp : d.power.phase = 3) (hruns : firmwareRuns d 0 = true) :
    bringupPhaseDone found d = (let d1 : Dev := { d with power.reference := found.reference }
      if found.reference then endPhaseC d1 else d1) := by
  have hruns' : firmwareRuns { d with power.reference := found.reference } 0 = true := hruns
  unfold bringupPhaseDone
  rw [seeReference_early hp (by decide)]
  dsimp only
  rw [if_neg (by simp [hp]), if_neg (by simp [hp]), if_neg (by rw [hruns']; decide), if_pos hp]

theorem domainState_endPhaseC (d : Dev) {n : Nat} (hn : n < 157) :
    domainState (endPhaseC d) n = if domainRetired d n then .off else .on := by
  unfold domainState endPhaseC powerAll
  dsimp only
  rw [List.getD_eq_getElem?_getD, List.getElem?_map, List.getElem?_range hn]
  rfl

/-! ## Phases D to H -/

/-- From phase D on firmware carries the sequence, and the phase alone says which one ends. -/
theorem bringup_late {d : Dev} {found : Findings} {p : BitVec 4} (hp : d.power.phase = p) (hlate : 3 < p.toNat)
    (hruns : firmwareRuns d 0 = true) :
    bringupPhaseDone found d =
      if p = 4 then endPhaseD found d
      else if p = 5 then endPhaseE found d
      else if (p = 6 || p = 7) && found.ports.length = 6 && !d.power.phaseH then endPhaseH found d
      else if p = 6 then endPhaseF found d
      else if p = 7 then endPhaseG found d
      else d := by
  unfold bringupPhaseDone
  rw [seeReference_late hp (by omega)]
  dsimp only
  rw [hp, if_neg (by rintro rfl; exact absurd hlate (by decide)), if_neg (by rintro rfl; exact absurd hlate (by decide)),
    if_neg (by simp [hruns]), if_neg (by rintro rfl; exact absurd hlate (by decide))]

theorem byteAt_zeroMemory (sram : Bool) (d : Dev) (a : Nat) :
    byteAt (zeroMemory sram d) a = if (decide (0x100000000000 ≤ a) != sram) = true then byteAt d a else 0 := by
  have h := tget_filter_key d.mem.cells (fun a => decide (0x100000000000 ≤ a) != sram) a
  show (tget (d.mem.cells.filter fun c => decide (0x100000000000 ≤ c.1) != sram) a).getD 0 = _
  rw [h]
  split <;> rfl

/-- Counting spares in use changes the error counts alone. -/
theorem countSpares_frame (d : Dev) : ∃ e, countSpares d = { d with mem.sramErr := e } := by
  unfold countSpares
  generalize List.range 64 = l
  induction l generalizing d with
  | nil => exact ⟨_, rfl⟩
  | cons t l ih =>
    simp only [List.foldl_cons]
    split
    · exact ih d
    · obtain ⟨e, h⟩ := ih { d with mem.sramErr := tput d.mem.sramErr t { tgetD d.mem.sramErr t {} with
        rows := BitVec.ofNat 8 (min 255 (repairSums ((d.units.fuseRepairs ++ d.units.testRepairs).filter fun m => m.tile == physTile d t)).1)
        cols := BitVec.ofNat 8 (min 255 (repairSums ((d.units.fuseRepairs ++ d.units.testRepairs).filter fun m => m.tile == physTile d t)).2) } }
      exact ⟨e, h⟩

section
variable {d : Dev} {found : Findings} (hruns : firmwareRuns d 0 = true)
include hruns

theorem bringup_phaseD (hp : d.power.phase = 4) : bringupPhaseDone found d = endPhaseD found d := by
  rw [bringup_late hp (by decide) hruns, if_pos rfl]

theorem bringup_phaseE (hp : d.power.phase = 5) : bringupPhaseDone found d = endPhaseE found d := by
  rw [bringup_late hp (by decide) hruns, if_neg (by decide), if_pos rfl]

theorem bringup_phaseF (hp : d.power.phase = 6) (hports : found.ports.length ≠ 6) : bringupPhaseDone found d = endPhaseF found d := by
  rw [bringup_late hp (by decide) hruns, if_neg (by decide), if_neg (by decide), if_neg (by simp [hports]), if_pos rfl]

theorem bringup_phaseG (hp : d.power.phase = 7) (hports : found.ports.length ≠ 6) : bringupPhaseDone found d = endPhaseG found d := by
  rw [bringup_late hp (by decide) hruns, if_neg (by decide), if_neg (by decide), if_neg (by simp [hports]), if_neg (by decide), if_pos rfl]

theorem bringup_phaseH (hp : d.power.phase = 6 ∨ d.power.phase = 7) (hports : found.ports.length = 6) (hH : d.power.phaseH = false) :
    bringupPhaseDone found d = endPhaseH found d := by
  obtain hp | hp := hp
  · rw [bringup_late hp (by decide) hruns, if_neg (by decide), if_neg (by decide), if_pos (by simp [hports, hH])]
  · rw [bringup_late hp (by decide) hruns, if_neg (by decide), if_neg (by decide), if_pos (by simp [hports, hH])]

end

/-- What the end of phase D leaves where no Iabor core is lost (R407, R408). -/
theorem endPhaseD_frame {d : Dev} {found : Findings} (hcores : found.iabor = []) (hiabor : d.units.iabor = [4, 4]) :
    ∃ d5, endPhaseD found d = zeroMemory true d5 ∧ d5.power.phase = 5 ∧ d5.mem.cells = d.mem.cells ∧ d5.granary = d.granary := by
  have hreported (d d' : Dev) (h : Reported d d') :
      ∃ d5, zeroMemory true (dropRetired (countSpares d')) = zeroMemory true d5 ∧ d5.power.phase = d.power.phase ∧
        d5.mem.cells = d.mem.cells ∧ d5.granary = d.granary ∧ d5.units = d.units := by
    obtain ⟨_, _, _, _, _, _, _, rfl⟩ := h
    obtain ⟨_, e⟩ := countSpares_frame _
    rw [e]
    exact ⟨_, rfl, rfl, rfl, rfl, rfl⟩
  unfold endPhaseD
  dsimp only
  rw [loseCores_of_none hcores, loseCores_of_none hcores]
  obtain ⟨d5, heq, hphase, hcells, hgranary, hunits⟩ := hreported _ _
    (((reported_foldl 4 (fun d (h : Nat × Nat) => hamletSource d h.1 h.2) (badHamlets d found) _).trans
      (reported_foldl 4 (fun _ t => .engine t 0) (badTiles d found) _)).trans
      ((reported_foldl 4 (fun _ c => .decoder (c / 4) (c % 4)) _ _).trans (reported_reportCores 4 found
        { mergeFindings found { d with power.phase := 5 } with
          units.order := (assignHamlets (mergeFindings found { d with power.phase := 5 })).units.order } _)))
  rw [heq]
  refine ⟨d5, if_neg ?_, hphase, hcells, hgranary⟩
  show ¬d5.units.iabor.getD 0 4 < 4
  rw [hunits]
  show ¬d.units.iabor.getD 0 4 < 4
  rw [hiabor]
  decide

/-- With no gateway lost and no saved record, phase E leads to phase F from cold. -/
theorem endPhaseE_of_none {d : Dev} {found : Findings} (hgateways : found.gateways = []) (hcold : d.flash.trained = false) :
    ∃ l, endPhaseE found d = { d with power.phase := 6, power.warm := false, power.domains := l } := by
  have hsaved : rejectSaved found d = d := by simp [rejectSaved, hcold]
  unfold endPhaseE
  rw [hsaved, hgateways]
  simp only [hcold, List.filter_nil, List.eraseDups_nil, List.append_nil, List.foldl_nil]
  rw [if_neg (by show ¬(dieRetired d 1 && !(dieRetired d 1)) = true; simp)]
  exact ⟨_, rfl⟩

/-- With no finding, phase F leads to phase G. -/
theorem endPhaseF_of_none {d : Dev} {found : Findings} (hgddr : found.gddr = []) (hcold : d.flash.trained = false) :
    ∃ l c, endPhaseF found d = { d with power.phase := 7, power.domains := l, mem.channels := c } := by
  have hsaved : rejectSaved found d = d := by simp [rejectSaved, hcold]
  unfold endPhaseF
  simp only [hsaved, hgddr]
  exact ⟨_, _, rfl⟩

theorem traffic_rejectSaved (found : Findings) (d : Dev) : Traffic d (rejectSaved found d) := by
  unfold rejectSaved
  split
  · exact .refl d
  · exact .foldl (g := fun d (u : Nat × Nat) => logEvent d evTrainSavedRejected (.unit u.1 u.2) 0) (fun d u => traffic_logEvent ..) _ d

/-- A stream port that trains leaves the Granary alone. -/
theorem trainStream_granary (d : Dev) (die n : Nat) : (trainStream d die n).granary = d.granary := by
  unfold trainStream
  dsimp only
  split
  · exact logEvent_granary ..
  · rfl

/-- Phase H ends once, and leaves the Granary alone. -/
theorem endPhaseH_spec (found : Findings) (d : Dev) :
    (endPhaseH found d).power.phaseH = true ∧ (endPhaseH found d).granary = d.granary := by
  have hports : Traffic d ((List.range 6).foldl (fun d q =>
      if dieRetired d (q / 3) then d else trainPort d q (found.ports.getD q noLanes) true false) (rejectSaved found d)) := by
    refine (traffic_rejectSaved found d).trans (.foldl (fun d q => ?_) _ _)
    split
    · exact .refl d
    · exact traffic_trainPort ..
  have hstreams (e : Dev) : ((List.range 2).foldl (fun d die =>
      if dieRetired d die then d else trainStream d die (found.streams.getD die 0)) e).granary = e.granary := by
    have hone (d : Dev) (die : Nat) : (if dieRetired d die = true then d else trainStream d die (found.streams.getD die 0)).granary = d.granary := by
      split
      · rfl
      · exact trainStream_granary ..
    simp only [List.range_succ, List.range_zero, List.nil_append, List.cons_append, List.foldl_cons, List.foldl_nil, hone]
  have hgranary := (hstreams _).trans hports.granary_eq
  unfold endPhaseH
  dsimp only
  split
  · split
    · exact ⟨rfl, hgranary⟩
    · exact ⟨rfl, hgranary⟩
  · exact ⟨rfl, hgranary⟩

/-- Phase G ends after phase H, with no finding: the device is ready. -/
theorem endPhaseG_of_none {d : Dev} {found : Findings} (hH : d.power.phaseH = true) (hgood : found.gddrBad = []) :
    endPhaseG found d = becomeReady (zeroMemory false (dropRetired d)) := by
  simp [endPhaseG, hH, hgood]

theorem becomeReady_spec (d : Dev) :
    (becomeReady d).power.phase = 0xF ∧ (becomeReady d).power.ready = true ∧ (becomeReady d).host.irqCause.getLsbD 0 = true ∧
    (becomeReady d).power.recordDue = !d.power.warm ∧ (becomeReady d).mem = d.mem ∧ (becomeReady d).granary = d.granary := by
  unfold becomeReady
  dsimp only
  generalize hready : ({ d with
    power.phase := 0xF, power.ready := true, power.elapsedStop := some (bootElapsed d), power.readyAt := deviceTime d
    power.recordDue := !d.power.warm } : Dev) = d1
  generalize ofBool d.power.warm + 2 * bootElapsed d = detail
  have hirq : (writeReeve (setCause (logEvent d1 evReady (.core 0 0) detail) 0)).host.irqCause.getLsbD 0 = true := by
    show (setCause (logEvent d1 evReady (.core 0 0) detail) 0).host.irqCause.getLsbD 0 = true
    rw [setCause_irqCause _ (by decide)]
    simp
  obtain ⟨_, _, _, _, _, _, hlog⟩ := logEvent_frame d1 evReady (.core 0 0) detail none
  obtain ⟨_, _, hcause⟩ := setCause_frame (logEvent d1 evReady (.core 0 0) detail) 0
  refine ⟨?_, ?_, hirq, ?_, ?_, ?_⟩ <;> rw [hcause, hlog, ← hready] <;> rfl

/-- Settles O23: each phase that runs ends by its own equation, from phase D on under firmware. -/
theorem bringupPhases : Obligations.BringupPhases := by
  unfold Obligations.BringupPhases
  intro s found hp c
  refine ⟨fun h hlink => ⟨_, act_live hp (bringup_phaseA h hlink) rfl, rfl⟩, fun h hrom hcores himage hother htrial => ?b,
    fun hruns => ⟨fun h href => ?c, fun h href => ?noReference, fun h _ _ _ hcores _ hiabor _ => ?d, fun h hgateways hcold => ?e,
      fun h hports hgddr hcold => ?f, fun h hports hH => ?h, fun h hports hH hgood => ?g⟩⟩
  case b => exact ⟨_, act_live hp (bringup_phaseB h hrom hcores himage hother htrial) rfl, rfl, rfl, fun _ _ hb => enterRom_mbx hb⟩
  case c =>
    have heq := bringup_phaseC (found := found) h hruns
    rw [href] at heq
    exact ⟨_, act_live hp heq rfl, rfl, fun n hn => domainState_endPhaseC _ hn⟩
  case noReference =>
    have heq := bringup_phaseC (found := found) h hruns
    rw [href] at heq
    exact ⟨_, act_live hp heq rfl, rfl, by simp [configOpen]⟩
  case d =>
    obtain ⟨d5, heq, hphase, hcells, hgranary⟩ := endPhaseD_frame (d := s.dev) hcores hiabor
    refine ⟨_, act_live hp ((bringup_phaseD hruns h).trans heq) hgranary, hphase, fun a => ?_⟩
    rw [byteAt_zeroMemory, byteAt, hcells]
    by_cases ha : 0x100000000000 ≤ a <;> simp [ha]
  case e =>
    obtain ⟨_, heq⟩ := endPhaseE_of_none hgateways hcold
    exact ⟨_, act_live hp ((bringup_phaseE hruns h).trans heq) rfl, rfl, rfl, rfl⟩
  case f =>
    obtain ⟨_, _, heq⟩ := endPhaseF_of_none hgddr hcold
    exact ⟨_, act_live hp ((bringup_phaseF hruns h hports).trans heq) rfl, rfl, rfl⟩
  case h =>
    obtain ⟨hended, hgranary⟩ := endPhaseH_spec found s.dev
    exact ⟨_, act_live hp (bringup_phaseH hruns h hports hH) hgranary, hended⟩
  case g =>
    obtain ⟨hphase, hready, hirq, hdue, hmem, hgranary⟩ := becomeReady_spec (zeroMemory false (dropRetired s.dev))
    refine ⟨_, act_live hp ((bringup_phaseG hruns h hports).trans (endPhaseG_of_none hH hgood)) hgranary,
      hphase, hready, hirq, hdue, fun a => ?_⟩
    rw [byteAt, hmem, ← byteAt, byteAt_zeroMemory]
    by_cases ha : 0x100000000000 ≤ a <;> simp [ha, dropRetired]

end Sys2Proof.BringupProofs
end

section
/-! SUPPORT. The host's accesses to memory, sampling windows and counters, and the link's errors (R343, R347, R422, R425, R427, R428,
R434, R439). -/

namespace Sys2Proof.HostMemoryProofs

open Sys2Proof Sys2Proof.Machine Sys2Proof.Safety Sys2Proof.HostProofs Sys2Proof.OrgProofs Sys2Proof.RingProofs Sys2Proof.MillProofs
  Sys2Proof.StoreProofs Sys2Proof.LoomStoreProofs Sys2Proof.StepProofs Sys2Proof.IaborProofs Sys2Proof.TrafficProofs

/-! ## BAR2 (R427, R428) -/

/-- A write beside an operation to bytes stored without error stores them. -/
theorem writeMem_beside_of_clear {d : Dev} {a : Nat} {b : Bytes} (hcfg : d.granary.cfg = none) (h : memClear d a b.length) :
    ∃ c f, writeMem d none a b =
      ({ d with counters := c, mem.cells := cellsWrite d.mem.cells a b, mem.flips := f }, none) := by
  obtain ⟨hown, hfault, hflips⟩ := h
  obtain ⟨c, hcount⟩ := countAccess_frame d true a b.length none
  have hcounted : regionOf { d with counters := c } a = regionOf d a := rfl
  have hmerged : mergedFlips d a b.length = [] := by rw [mergedFlips, hflips, List.filter_nil]
  have hregion := regionOf_of_inOwnMemory hown
  obtain ⟨f, -, hstore⟩ := storeBytes_of_own (d := { d with counters := c }) b hcfg (hregion.imp_right .inl)
  refine ⟨c, f, ?_⟩
  obtain ⟨die, hr⟩ | ⟨tile, hr⟩ := hregion
  all_goals
    rw [hr] at hcounted
    simp [writeMem, hfault, hcount, noteEntries, peerRequests, hcounted, hr, hmerged, hstore]

theorem bar2Read_of_clear {d : Dev} {off len a : Nat} (hopen : configOpen d = true) (hd0 : d.host.d3hot = false)
    (haddr : bar2Address d off len = some a) (hclear : memClear d a len) :
    ∃ c, bar2Read off len d = answerRead { d with counters := c } (.data (cellsRead d.mem.cells a len)) := by
  obtain ⟨c, hread⟩ := readMem_of_clear hclear none
  exact ⟨c, by simp [bar2Read, Machine.linkUp, hopen, hd0, haddr, hread]⟩

theorem bar2Write_of_clear {d : Dev} {off a : Nat} {data : Bytes} (hopen : barOpen d = true) (hcfg : d.granary.cfg = none)
    (haddr : bar2Address d off data.length = some a) (hclear : memClear d a data.length) :
    ∃ c f, bar2Write off data d = { d with counters := c, mem.cells := cellsWrite d.mem.cells a data, mem.flips := f } := by
  obtain ⟨c, f, hwrite⟩ := writeMem_beside_of_clear hcfg hclear
  obtain ⟨-, hfault, -⟩ := hclear
  exact ⟨c, f, by simp [bar2Write, hopen, haddr, hfault, hwrite]⟩

theorem bar2Read_of_outside {d : Dev} {off len : Nat} (hopen : barOpen d = true) (haddr : bar2Address d off len = none) :
    bar2Read off len d = answerRead (badAccess d) (.data (List.replicate len 0xFF)) := by
  simp only [barOpen, Bool.and_eq_true, Bool.not_eq_true'] at hopen
  simp [bar2Read, Machine.linkUp, hopen, haddr]

theorem bar2Write_of_outside {d : Dev} {off : Nat} {data : Bytes} (hopen : barOpen d = true)
    (haddr : bar2Address d off data.length = none) : bar2Write off data d = badAccess d := by
  simp [bar2Write, hopen, haddr]

/-- Settles O29: a read and a write of bytes stored without error are those of memory, and an access outside is recorded. -/
theorem bar2Accesses : Obligations.Bar2Accesses := by
  unfold Obligations.Bar2Accesses
  refine ⟨fun s off len a hp hopen hd0 haddr hclear => ?read, fun s off a data hp hopen hplain haddr hclear => ?write,
    fun s off data hp hopen hrun haddr => ⟨?badRead, ?badWrite⟩⟩
  case read =>
    obtain ⟨c, heq⟩ := bar2Read_of_clear hopen hd0 haddr hclear
    exact ⟨_, act_live hp heq rfl, rfl, rfl⟩
  case write =>
    obtain ⟨c, f, heq⟩ := bar2Write_of_clear hopen hplain.2 haddr hclear
    exact ⟨_, act_live hp heq rfl, bytesStored_of_write hplain rfl, rfl⟩
  case badRead =>
    refine ⟨_, act_live hp (bar2Read_of_outside hopen haddr) (logEvent_granary ..), ?_⟩
    obtain ⟨hrec, c, e, t, i, p, m, heq⟩ := badAccess_frame hrun
    exact ⟨hrec, by rw [heq]; rfl⟩
  case badWrite =>
    refine ⟨_, act_live hp (bar2Write_of_outside hopen haddr) (logEvent_granary ..), ?_⟩
    obtain ⟨hrec, c, e, t, i, p, m, heq⟩ := badAccess_frame hrun
    exact ⟨hrec, by rw [heq]⟩

/-! ## Sampling windows and counters (R434, R439) -/

/-- A counter with a change of every one. -/
theorem getCounter_mapCounters (d : Dev) {f : Counter → Counter} (h : f {} = {}) (scope unit i : Nat) :
    getCounter (mapCounters d f) scope unit i = f (getCounter d scope unit i) := by
  have hmap (t : Table Counter) (k : Nat) : tgetD (t.map fun e => (e.1, f e.2)) k {} = f (tgetD t k {}) := by
    rw [tgetD, tgetD, tget_map]
    cases tget t k with
    | none => exact h.symm
    | some x => rfl
  unfold getCounter
  split
  · exact hmap _ _
  · exact hmap _ _

/-- CNT_PERIOD as it is stored, by the field that is written. -/
theorem clampPeriod_field (v : W64) :
    clampPeriod v.toNat =
      (let p := (v.extractLsb' 0 41).toNat
       if p = 0 then 0 else if p < 1000 then 1000 else min p (2 ^ 40)) := by
  have hfield : (v.extractLsb' 0 41).toNat = v.toNat % 2 ^ 41 := by
    rw [BitVec.extractLsb'_toNat, Nat.shiftRight_zero]
  rw [hfield]
  rfl

theorem counterWindowClose_of_ended {d : Dev}
    (h : ¬(d.counters.period = 0 ∨ deviceTime d < d.counters.base + (d.counters.next + 1) * d.counters.period)) :
    counterWindowClose d = mapCounters { d with
      counters.window := BitVec.ofNat 64 d.counters.next, counters.next := d.counters.next + 1 } (·.close d.counters.next) :=
  if_neg (by simpa using h)

/-- A counter counts on while the windows begin anew. -/
theorem restartWindows_count (period : Bool) (v : W64) (d : Dev) (scope unit i : Nat) :
    (getCounter (restartWindows period v d) scope unit i).count = (getCounter d scope unit i).count := by
  unfold restartWindows
  dsimp only
  rw [getCounter_mapCounters _ rfl]
  rfl

/-- Settles O30: the windows begin anew, close, or run on; and a record is spilled. -/
theorem countersAndTally : Obligations.CountersAndTally := by
  unfold Obligations.CountersAndTally
  refine ⟨fun s period v hp hopen => ?restart, fun s hp => ?close, fun s die t hp hruns ht hleft hfree => ?spill⟩
  case restart =>
    refine ⟨_, act_live hp (if_pos hopen) rfl, rfl, ?_, rfl, fun scope unit i => ?_, rfl⟩
    · cases period with
      | true => exact clampPeriod_field v
      | false => rfl
    · exact restartWindows_count ..
  case close =>
    intro c
    split
    next hopen => exact act_live_same hp (if_pos (by simpa using hopen))
    next hended =>
      refine ⟨_, act_live hp (counterWindowClose_of_ended hended) rfl, rfl, rfl, fun k x hx => ?_, fun k x hx => ?_, rfl⟩
      · exact (tget_map _ _ k).trans (congrArg (Option.map (·.close c.next)) hx)
      · exact (tget_map _ _ k).trans (congrArg (Option.map (·.close c.next)) hx)
  case spill =>
    have heq : tallySpill die s.dev = { s.dev with tally := modAt s.dev.tally die fun t => { t with spilled := t.spilled + 1 } } :=
      if_pos (by rw [getD_of_getElem? ht, hruns]; simp [hleft, hfree])
    exact ⟨_, act_live hp heq rfl, getElem?_modAt_same ht _, rfl⟩

/-! ## Errors of the link (R347, R422, R425) -/

/-- A sample that cannot be read makes its slot MISSING; only the Threshers and the counters change. -/
theorem missAborted_frame (d : Dev) (n : OpName) : ∃ t c, missAborted d n = { d with threshers := t, counters := c } := by
  have hmiss (die : Nat) (s : Sample) : ∃ t c, missInjected d die s = { d with threshers := t, counters := c } := by
    unfold missInjected
    split
    · exact ⟨_, _, rfl⟩
    · dsimp only
      split
      · split
        · exact ⟨_, _, rfl⟩
        · exact ⟨_, _, rfl⟩
      · exact ⟨_, _, rfl⟩
  unfold missAborted
  split
  · split
    · exact hmiss _ _
    · exact ⟨_, _, rfl⟩
  · exact ⟨_, _, rfl⟩

/-- An error is recorded, and its status bit is set (R425). -/
theorem reportAer_spec {d : Dev} (h : d.hub.hardHalted = false) (aer : BitVec 5) (unc : Bool) :
    recorded d (reportAer d aer unc) 0xC02 .hostLink (aer.toNat + 32 * ofBool unc) ∧
    (reportAer d aer unc).host.aerUnc = (if unc then d.host.aerUnc ||| BitVec.twoPow 32 aer.toNat else d.host.aerUnc) ∧
    (reportAer d aer unc).host.aerCor = (if unc then d.host.aerCor else d.host.aerCor ||| BitVec.twoPow 32 aer.toNat) ∧
    (reportAer d aer unc).hub = d.hub ∧ (reportAer d aer unc).mem = d.mem ∧ (reportAer d aer unc).granary = d.granary := by
  unfold reportAer
  dsimp only
  obtain ⟨c, i, p, m, e⟩ := logEvent_host_frame (d := { d with
    host.aerUnc := if unc then d.host.aerUnc ||| BitVec.twoPow 32 aer.toNat else d.host.aerUnc
    host.aerCor := if unc then d.host.aerCor else d.host.aerCor ||| BitVec.twoPow 32 aer.toNat }) h evPcieError .hostLink
    (aer.toNat + 32 * ofBool unc) none
  rw [e]
  exact ⟨⟨rfl, by simp [tgetD]⟩, rfl, rfl, rfl, rfl, rfl⟩

/-- A request of an operation that can still fail ends it (R321, R425). -/
theorem failRequest_of_open {d : Dev} {n : OpName} {o : Op} (h : getOp d n = some o) (haborted : o.aborted = false)
    (hopen : o.phase ≠ .complete ∨ isSuccess o.status = true) (st : Byte) : failRequest d n st = completeOp d n st := by
  unfold failRequest
  rw [h]
  refine if_neg ?_
  simp only [haborted, Bool.false_or, Bool.and_eq_true, beq_iff_eq, Bool.not_eq_true']
  rintro ⟨hphase, hfail⟩
  obtain hne | hok := hopen
  · exact hne hphase
  · exact absurd hok (by simp [hfail])

theorem issuedOp_not_aborted {d : Dev} {n : OpName} {o : Op} (h : issuedOp d n = some o) :
    getOp d n = some o ∧ o.phase = .issued ∧ o.aborted = false := by
  unfold issuedOp at h
  cases hop : getOp d n with
  | none => simp [hop] at h
  | some x =>
    simp only [hop, Option.ite_none_right_eq_some, Bool.and_eq_true, beq_iff_eq, Bool.not_eq_true', Option.some.injEq] at h
    obtain ⟨⟨hphase, haborted⟩, rfl⟩ := h
    exact ⟨rfl, hphase, haborted⟩

/-! What the end of an operation leaves of the error reporting of the link. -/

/-- A report changes the counters, the Tally and what it sends to the host. -/
theorem logEvent_sent_frame (d : Dev) (ev : Nat) (src : Source) (detail : Nat) (r : Option Nat) :
    ∃ c w y t i p m, logEvent d ev src detail r = { d with
      counters := c, owl.events := w, hub.dropped := y, tally := t, host.irqCause := i, host.pending := p, out.msix := m } := by
  cases h : d.hub.hardHalted with
  | false =>
    obtain ⟨c, i, p, m, e⟩ := logEvent_host_frame h ev src detail r
    exact ⟨c, _, _, _, i, p, m, e⟩
  | true =>
    have heq : logEvent d ev src detail r = dropReport (seeEvent d ev (sourceDie d src) src.tile (src.ringOr r)) := if_pos h
    have hdrop (x : Dev) : dropReport x = { x with hub.dropped := (dropReport x).hub.dropped } := rfl
    rw [heq, hdrop]
    exact ⟨_, _, _, _, _, _, _, rfl⟩

@[simp] theorem logEvent_aerUnc (d : Dev) (ev : Nat) (src : Source) (detail : Nat) (r : Option Nat) :
    (logEvent d ev src detail r).host.aerUnc = d.host.aerUnc := by
  obtain ⟨_, _, _, _, _, _, _, e⟩ := logEvent_sent_frame d ev src detail r
  rw [e]

@[simp] theorem modStep_aerUnc (d : Dev) (k : Nat) (f : StepState → StepState) :
    (modStep d k f).host.aerUnc = d.host.aerUnc := by
  obtain ⟨_, e⟩ := modStep_frame d k f
  rw [e]

@[simp] theorem clearFlag_aerUnc (d : Dev) (k : Nat) (cause : Byte) (op : Option OpName) :
    (clearFlag d k cause op).host.aerUnc = d.host.aerUnc := by
  unfold clearFlag
  dsimp only
  split
  next => exact logEvent_aerUnc ..
  next =>
    split
    next => simp
    next =>
      split
      next => exact modStep_aerUnc ..
      next => simp

@[simp] theorem noteFailure_aerUnc (d : Dev) (n : OpName) (st : Byte) : (noteFailure d n st).host.aerUnc = d.host.aerUnc := by
  have hends (e : Dev) (o : Op) : (endClears e n o st).host.aerUnc = e.host.aerUnc := by
    unfold endClears
    split
    · rfl
    · split
      · exact clearFlag_aerUnc ..
      · split
        · rfl
        · exact clearFlag_aerUnc ..
  unfold noteFailure
  split
  next =>
    split
    · exact (hends ..).trans rfl
    · rfl
  next => rfl

theorem completeOp_aerUnc (d : Dev) (n : OpName) (st : Byte) (detail : Nat) :
    (completeOp d n st detail).host.aerUnc = d.host.aerUnc := by
  unfold completeOp
  dsimp only
  split
  · rfl
  · exact (noteFailure_aerUnc ..).trans rfl

theorem flushes_reportAer (d : Dev) (aer : BitVec 5) (unc : Bool) (n : OpName) :
    flushes (reportAer d aer unc) n = flushes d n := by
  unfold reportAer
  obtain ⟨_, _, _, _, _, _, _, e⟩ := logEvent_sent_frame { d with
    host.aerUnc := if unc then d.host.aerUnc ||| BitVec.twoPow 32 aer.toNat else d.host.aerUnc
    host.aerCor := if unc then d.host.aerCor else d.host.aerCor ||| BitVec.twoPow 32 aer.toNat } evPcieError .hostLink
    (aer.toNat + 32 * ofBool unc) none
  dsimp only
  rw [e]
  rfl

/-- A completion timeout sets AER bit 14, and the request it ends ends its operation as ST_HOST_ABORT (R425). -/
theorem hostReadTimeout_of_open {d : Dev} {n : OpName} {o : Op} (hopen : configOpen d = true) (hhalted : d.hub.hardHalted = false)
    (hop : getOp d n = some o) (haborted : o.aborted = false) (hphase : o.phase ≠ .complete ∨ isSuccess o.status = true)
    (hreads : (issuedOp d n).isSome = true ∨ flushes d n = true) :
    ended (hostReadTimeout n d) n 0x39 0 ∧ (hostReadTimeout n d).host.aerUnc.getLsbD 14 = true ∧
      (hostReadTimeout n d).mem = d.mem ∧ (hostReadTimeout n d).granary = d.granary := by
  obtain ⟨-, haer, -, hhub, hmem, hgranary⟩ := reportAer_spec hhalted aerTimeout true
  have hop' := getOp_congr (congrArg Hub.rings hhub) n
  have hissued : issuedOp (reportAer d aerTimeout true) n = issuedOp d n := by rw [issuedOp, hop', issuedOp]
  obtain ⟨e, he, hehub, hehost, hemem, hegranary⟩ : ∃ e, hostAbort (reportAer d aerTimeout true) n = completeOp e n 0x39 ∧
      e.hub = d.hub ∧ e.host.aerUnc = (reportAer d aerTimeout true).host.aerUnc ∧ e.mem = d.mem ∧ e.granary = d.granary := by
    have hflushes := flushes_reportAer d aerTimeout true n
    generalize reportAer d aerTimeout true = r at *
    obtain ⟨t, c, hmiss⟩ := missAborted_frame r n
    unfold hostAbort
    rw [hissued]
    by_cases hi : (issuedOp d n).isSome = true
    · rw [if_pos hi, hmiss]
      exact ⟨_, failRequest_of_open (d := { r with threshers := t, counters := c }) (hop'.trans hop) haborted hphase _,
        hhub, rfl, hmem, hgranary⟩
    · rw [if_neg hi, if_pos (hflushes.trans (hreads.resolve_left hi))]
      exact ⟨r, failRequest_of_open (hop'.trans hop) haborted hphase _, hhub, rfl, hmem, hgranary⟩
  have heq : hostReadTimeout n d = completeOp e n 0x39 := by
    rw [hostReadTimeout, if_pos, he]
    rw [hopen, Bool.true_and, Bool.or_eq_true]
    exact hreads
  rw [heq]
  refine ⟨ended_completeOp ((getOp_congr (congrArg Hub.rings hehub) n).trans hop) _ _, ?_, (completeOp_mem ..).trans hemem,
    (completeOp_granary ..).trans hegranary⟩
  rw [completeOp_aerUnc, hehost, haer]
  simp [aerTimeout]

/-- Settles O27: an error is recorded with its bit, a timeout ends its operation, and a link's change is taken. -/
theorem pcieErrorsAndLinkChanges : Obligations.PcieErrorsAndLinkChanges := by
  unfold Obligations.PcieErrorsAndLinkChanges
  refine ⟨fun s aer unc hp hrun hopen => ?error, fun s n o hw hopen hop => ?issued,
    fun s n o hw hopen hop hphase hst haborted => ?flushed, fun s speed width hp hrun hopen hspeed hwidth hne => ?link⟩
  case error =>
    obtain ⟨hrec, hunc, hcor, hhub, hmem, hgranary⟩ := reportAer_spec hrun aer unc
    have heq : pcieError aer unc [] s.dev = reportAer s.dev aer unc := by simp [pcieError, hopen]
    refine ⟨_, act_live hp heq hgranary, ?_, hunc, hcor, hhub, hmem⟩
    cases unc with
    | true => exact hrec
    | false => exact hrec
  case issued =>
    obtain ⟨hget, hissued, haborted⟩ := issuedOp_not_aborted hop
    obtain ⟨hp, hhalted, hstalls⟩ := hw
    obtain ⟨hend, haer, hmem, hgranary⟩ := hostReadTimeout_of_open hopen hhalted hget haborted
      (.inl (by simp [hissued])) (.inl (by simp [hop]))
    exact ⟨_, act_running ⟨hp, hhalted, hstalls⟩ rfl (hgranary ▸ hstalls), hend, haer, hmem⟩
  case flushed =>
    have hnotIssued : (issuedOp s.dev n).isSome = false := by simp [issuedOp, hop, hphase]
    have hflushes : flushes s.dev n = o.outs.any fun r => regionOf s.dev r.1 == .host := by
      simp [flushes, hop, hphase, hst, haborted, isSuccess]
    split
    next houts =>
      obtain ⟨hend, haer, hmem, hgranary⟩ := hostReadTimeout_of_open hopen hw.2.1 hop haborted
        (.inr (by simp [hst, isSuccess])) (.inr (hflushes.trans houts))
      exact ⟨_, act_running hw rfl (hgranary ▸ hw.2.2), hend, haer, hmem⟩
    next houts =>
      refine act_running_same hw (if_neg ?_)
      rw [hnotIssued, hflushes]
      simpa [hopen] using houts
  case link =>
    have heq : linkChange speed width s.dev =
        logEvent { s.dev with host.speed := speed, host.width := width } evPcieLinkChange .hostLink (speed + 256 * width) := by
      refine if_pos ?_
      rw [hopen, linkRuns, hspeed, hwidth]
      simpa using hne
    obtain ⟨c, i, p, m, e⟩ := logEvent_host_frame (d := { s.dev with host.speed := speed, host.width := width }) hrun
      evPcieLinkChange .hostLink (speed + 256 * width) none
    refine ⟨_, act_live hp (heq.trans e) rfl, ⟨rfl, ?_⟩, rfl, rfl, rfl, rfl⟩
    simp [tgetD]

end Sys2Proof.HostMemoryProofs
end

section
/-! SUPPORT. The link of a fabric port: codewords and flits, replays, LINK_INIT, retrains and lanes (R306 to R318). -/

namespace Sys2Proof.LinkProofs

open Sys2Proof Sys2Proof.Machine Sys2Proof.Safety Sys2Proof.HostProofs Sys2Proof.OrgProofs Sys2Proof.RingProofs Sys2Proof.IaborProofs
  Sys2Proof.TrafficProofs Sys2Proof.HostMemoryProofs

/-! ## A port with a change -/

theorem getElem?_ports {d : Dev} {q : Nat} (h : q < d.fabric.ports.length) : d.fabric.ports[q]? = some (getPort d q) := by
  rw [List.getElem?_eq_getElem h, getPort, List.getD_eq_getElem _ _ h]

theorem modAt_modAt {α : Type} (l : List α) (n : Nat) (f g : α → α) : modAt (modAt l n f) n g = modAt l n (g ∘ f) := by
  cases h : l[n]? with
  | none => simp [modAt, h]
  | some x =>
    obtain ⟨hn, -⟩ := List.getElem?_eq_some_iff.mp h
    simp [modAt, hn]

theorem length_modAt {α : Type} (l : List α) (n : Nat) (f : α → α) : (modAt l n f).length = l.length := by
  unfold modAt
  split <;> simp

theorem modAt_congr {α : Type} {l : List α} {n : Nat} {x : α} (h : l[n]? = some x) {f g : α → α} (hx : f x = g x) :
    modAt l n f = modAt l n g := by
  simp [modAt, h, hx]

theorem getPort_of_same {d d' : Dev} {q : Nat} {f : Port → Port} (hq : q < d.fabric.ports.length)
    (h : d'.fabric.ports = modAt d.fabric.ports q f) : getPort d' q = f (getPort d q) := by
  rw [getPort, h]
  exact getD_of_getElem? (getElem?_modAt_same (getElem?_ports hq) f) {}

theorem getPort_of_other {d d' : Dev} {q k : Nat} {f : Port → Port} (h : d'.fabric.ports = modAt d.fabric.ports q f) (hk : k ≠ q) :
    getPort d' k = getPort d k := by
  rw [getPort, h, List.getD_eq_getElem?_getD, getElem?_modAt_other _ _ hk, ← List.getD_eq_getElem?_getD, getPort]

/-- A device whose ports differ in one: that port is changed, and nothing else of `portSet`. -/
theorem portSet_of_ports {d d' : Dev} {q : Nat} {f : Port → Port} (hq : q < d.fabric.ports.length)
    (h : d'.fabric.ports = modAt d.fabric.ports q f) (hmem : d'.mem = d.mem) : portSet d d' q (f (getPort d q)) :=
  ⟨getPort_of_same hq h, fun _ hk => getPort_of_other h hk, hmem⟩

/-- The same, of a port changed twice. -/
theorem portSet_modPort {d e : Dev} {q : Nat} {f : Port → Port} (hq : q < d.fabric.ports.length)
    (h : e.fabric.ports = modAt d.fabric.ports q f) (hmem : e.mem = d.mem) (g : Port → Port) :
    portSet d (modPort e q g) q (g (f (getPort d q))) :=
  portSet_of_ports (f := g ∘ f) hq ((congrArg (modAt · q g) h).trans (modAt_modAt ..)) hmem

theorem getPort_modPort {d : Dev} {q : Nat} (hq : q < d.fabric.ports.length) (f : Port → Port) :
    getPort (modPort d q f) q = f (getPort d q) := getPort_of_same hq rfl

theorem modPort_modPort (d : Dev) (q : Nat) (f g : Port → Port) : modPort (modPort d q f) q g = modPort d q (g ∘ f) := by
  unfold modPort
  rw [modAt_modAt]

@[simp] theorem logEvent_flits (d : Dev) (ev : Nat) (src : Source) (detail : Nat) (r : Option Nat) :
    (logEvent d ev src detail r).out.flits = d.out.flits := by
  obtain ⟨_, _, _, _, _, _, _, e⟩ := logEvent_sent_frame d ev src detail r
  rw [e]

theorem findParent_ports (d : Dev) : (findParent d).fabric.ports = d.fabric.ports := by
  unfold findParent
  split <;> rfl

theorem findParent_exceptions (d : Dev) : (findParent d).fabric.exceptions = d.fabric.exceptions := by
  unfold findParent
  split <;> rfl

theorem findParent_mem (d : Dev) : (findParent d).mem = d.mem := by
  unfold findParent
  split <;> rfl

/-! ## What a port with nothing to send does -/

theorem pumpPort_of_idle {d : Dev} {q : Nat} (hwaiting : (getPort d q).waiting = []) (hsending : (getPort d q).sending = []) :
    pumpPort d q = d := by
  unfold getPort at hwaiting hsending
  unfold pumpPort
  dsimp only
  rw [hwaiting, hsending]
  simp [drainPort]

theorem dropWaiting_of_idle {d : Dev} {q : Nat} (hwaiting : (getPort d q).waiting = []) :
    dropWaiting d q = modPort d q fun p => { p with waiting := [], sending := [] } := by
  unfold dropWaiting
  rw [hwaiting]
  rfl

/-! ## NAKs (R310; log 115) -/

theorem portSet_sendNak {d : Dev} {q : Nat} (hq : q < d.fabric.ports.length) :
    portSet d (sendNak d q) q { getPort d q with nakFrom := some (deviceTime d) } :=
  portSet_of_ports (f := fun p => { p with nakFrom := some (deviceTime d) }) hq rfl rfl

theorem discardFlit_of_none {d : Dev} {q : Nat} (h : (getPort d q).nakFrom = none) : discardFlit d q = sendNak d q := by
  simp [discardFlit, h]

theorem discardFlit_of_some {d : Dev} {q : Nat} (h : (getPort d q).nakFrom ≠ none) : discardFlit d q = d :=
  if_pos (Option.isSome_iff_ne_none.mpr h)

theorem nakResend_of_due {d : Dev} {q t : Nat} (h : (getPort d q).nakFrom = some t) :
    nakResend q d = if t + 200 ≤ deviceTime d then sendNak d q else d := by
  simp [nakResend, h]

/-! ## Flits of a codeword (R306, R308 to R312) -/

theorem st_up {p : Port} (h : p.st = 1 ∨ p.st = 2 ∨ p.st = 6) : (p.st == 1 || p.st == 2 || p.st == 6) = true := by
  simpa [or_assoc] using h

/-- ACK and credits of a flit on a port with nothing to send only change its link (R311, R312). -/
theorem takeLink_of_up {d : Dev} {q : Nat} (h : Safety.linkUp d q) (head : Nat) :
    takeLink d q head = modPort d q fun p => p.linked head := by
  obtain ⟨hq, hlen, -, hwaiting, hsending, hretrain⟩ := h
  have hport := getPort_modPort (hlen.symm ▸ hq) fun p => p.linked head
  have hidle : pumpPort (modPort d q fun p => p.linked head) q = modPort d q fun p => p.linked head :=
    pumpPort_of_idle (by rw [hport]; exact hwaiting) (by rw [hport]; exact hsending)
  unfold takeLink settleRetrain
  rw [hidle, hport]
  exact if_neg (by simp [Port.linked, hretrain])

/-- A flit in order as its port takes it in. -/
def takenIn (flit : Bytes) (p : Port) : Port :=
  { p.linked (fld flit 0 6) with
    rxLast := p.rxLast + 1, nakFrom := none, rx := p.rx ++ [(bits (fld flit 0 6) 7 4, slice flit 6 54)] }

section FlitIn
variable {d : Dev} {q : Nat} {flit : Bytes} (hup : Safety.linkUp d q) (hlen : flit.length = 64)
include hup hlen

theorem flitIn_of_bad (h : (crc32c (flit.take 60)).toNat ≠ fld flit 60 4) : flitIn q d flit = discardFlit d q := by
  obtain ⟨-, -, hst, -⟩ := hup
  simp [flitIn, st_up hst, hlen, h]

theorem flitIn_of_control (h : (crc32c (flit.take 60)).toNat = fld flit 60 4) (hkind : bits (fld flit 0 6) 3 0 < 2) :
    flitIn q d flit = modPort d q fun p => p.linked (fld flit 0 6) := by
  have htake := takeLink_of_up hup (fld flit 0 6)
  obtain ⟨-, -, hst, -⟩ := hup
  have hk : bits (fld flit 0 6) 3 0 = 0 ∨ bits (fld flit 0 6) 3 0 = 1 := by omega
  simp [flitIn, st_up hst, hlen, h, htake, hk]

theorem flitIn_of_next (h : (crc32c (flit.take 60)).toNat = fld flit 60 4)
    (hkind : bits (fld flit 0 6) 3 0 = 2 ∨ bits (fld flit 0 6) 3 0 = 3)
    (hseq : BitVec.ofNat 12 (bits (fld flit 0 6) 19 8) = (getPort d q).rxLast + 1) :
    flitIn q d flit = countEvent (reportIdle (modPort d q (takenIn flit)) q) evFabFlitRx 1 (q / 3) none none := by
  have htake := takeLink_of_up hup (fld flit 0 6)
  obtain ⟨-, -, hst, -⟩ := hup
  have hk : ¬(bits (fld flit 0 6) 3 0 = 0 ∨ bits (fld flit 0 6) 3 0 = 1) := by omega
  have hbusy : (!((getPort d q).st == 1 || (getPort d q).st == 2 || (getPort d q).st == 6) || flit.length != 64) = false := by
    simp [st_up hst, hlen]
  unfold flitIn
  dsimp only
  rw [hbusy, if_neg (by simp), if_neg (by simp [h]), if_neg (by simpa using hk), if_pos (by simp [hkind, hseq]), htake, modPort_modPort]
  rfl

theorem flitIn_of_other (h : (crc32c (flit.take 60)).toNat = fld flit 60 4)
    (hkind : bits (fld flit 0 6) 3 0 = 2 ∨ bits (fld flit 0 6) 3 0 = 3)
    (hseq : BitVec.ofNat 12 (bits (fld flit 0 6) 19 8) ≠ (getPort d q).rxLast + 1) :
    flitIn q d flit = discardFlit (modPort d q fun p => p.linked (fld flit 0 6)) q := by
  have htake := takeLink_of_up hup (fld flit 0 6)
  obtain ⟨-, -, hst, -⟩ := hup
  have hk : ¬(bits (fld flit 0 6) 3 0 = 0 ∨ bits (fld flit 0 6) 3 0 = 1) := by omega
  have hbusy : (!((getPort d q).st == 1 || (getPort d q).st == 2 || (getPort d q).st == 6) || flit.length != 64) = false := by
    simp [st_up hst, hlen]
  unfold flitIn
  dsimp only
  rw [hbusy, if_neg (by simp), if_neg (by simp [h]), if_neg (by simpa using hk), if_neg (by simpa [hkind] using hseq), htake]

end FlitIn

theorem traffic_discardFlit (d : Dev) (q : Nat) : Traffic d (discardFlit d q) := by
  unfold discardFlit
  split
  · exact .refl d
  · exact ⟨_, _, _, _, _, _, _, _, _, _, _, rfl⟩

theorem traffic_reportIdle (d : Dev) (q : Nat) : Traffic d (reportIdle d q) := ⟨_, _, _, _, _, _, _, _, _, _, _, rfl⟩

theorem traffic_takeLink (d : Dev) (q h : Nat) : Traffic d (takeLink d q h) := by
  refine (traffic_modPort d q fun p => p.linked h).trans ((traffic_pumpPort _ q).trans ?_)
  unfold takeLink settleRetrain
  dsimp only
  split
  · exact traffic_modPort ..
  · exact .refl _

theorem traffic_flitIn (q : Nat) (d : Dev) (flit : Bytes) : Traffic d (flitIn q d flit) := by
  unfold flitIn
  dsimp only
  split
  · exact .refl d
  · split
    · exact traffic_discardFlit ..
    · refine (traffic_takeLink d q (fld flit 0 6)).trans ?_
      split
      · exact .refl _
      · split
        · exact (traffic_modPort ..).trans ((traffic_reportIdle _ q).trans (traffic_countEvent ..))
        · exact traffic_discardFlit ..

/-- A codeword that decoded is its flits, one after the other. -/
theorem codewordIn_of_decoded {q : Nat} (hq : q < 6) (flits : List Bytes) (d : Dev) :
    codewordIn q flits true d = flits.foldl (flitIn q) d := by
  simp [codewordIn, hq]

theorem codewordIn_of_lost {d : Dev} {q : Nat} (hup : Safety.linkUp d q) (flits : List Bytes) :
    codewordIn q flits false d = discardFlit d q := by
  obtain ⟨hq, -, hst, -⟩ := hup
  have : portUp d q = true := st_up hst
  simp [codewordIn, hq, this]

/-! ## The bytes of a flit (Table 12.2) -/

section Wire
variable {p : Port} {kind vc : Nat} {lseq : BitVec 12} {data : Bytes} (hturn : p.crTurn < 8) (hkind : kind < 16) (hvc : vc < 16)

theorem wire_length (p : Port) (kind vc : Nat) (lseq : BitVec 12) (data : Bytes) : (p.wire kind vc lseq data).length = 64 := by
  simp [Port.wire]

theorem wire_check (p : Port) (kind vc : Nat) (lseq : BitVec 12) (data : Bytes) :
    (crc32c ((p.wire kind vc lseq data).take 60)).toNat = fld (p.wire kind vc lseq data) 60 4 := by
  have hbody (b : Bytes) (h : b.length = 60) (x : W32) : fld (b ++ leBytes 4 x.toNat) 60 4 = x.toNat ∧
      (b ++ leBytes 4 x.toNat).take 60 = b := by
    refine ⟨?_, by simp [← h]⟩
    rw [fld_append b 60 4 _ h]
    exact Nat.mod_eq_of_lt x.isLt
  unfold Port.wire
  dsimp only
  generalize hb : leBytes 6 _ ++ _ = b
  have hlen : b.length = 60 := by simp [← hb]
  obtain ⟨hfld, htake⟩ := hbody b hlen (crc32c b)
  rw [hfld, htake]

include hturn hkind hvc in
theorem wire_head : let h := fld (p.wire kind vc lseq data) 0 6
    bits h 3 0 = kind ∧ bits h 7 4 = vc ∧ bits h 19 8 = lseq.toNat ∧ bits h 31 20 = p.rxLast.toNat ∧ bits h 35 32 = p.crTurn ∧
      bits h 47 36 = (p.vcFreed.getD p.crTurn 0).toNat := by
  have hhead (n : Nat) (r : Bytes) : fld (leBytes 6 n ++ r) 0 6 = n % 256 ^ 6 := by
    rw [← leNat_leBytes 6 n]
    simp [fld, slice]
  have hl := lseq.isLt
  have hr := p.rxLast.isLt
  have hf := (p.vcFreed.getD p.crTurn 0).isLt
  unfold Port.wire
  simp only [List.append_assoc, hhead, bits]
  omega

end Wire

/-- A flit in order is accepted, and an IDLE flit acknowledges it (R310; log 115). -/
theorem acknowledged {d : Dev} {q : Nat} {flit : Bytes} (hq : q < d.fabric.ports.length) :
    let p := getPort d q
    let d' := countEvent (reportIdle (modPort d q (takenIn flit)) q) evFabFlitRx 1 (q / 3) none none
    portSet d d' q { takenIn flit p with crTurn := (p.crTurn + 1) % 8 } ∧
    (p.crTurn < 8 → ∃ b : Bytes, d'.out.flits = d.out.flits ++ [(q, b)] ∧ b.length = 64 ∧ bits (fld b 0 6) 3 0 = 0 ∧
      bits (fld b 0 6) 31 20 = (p.rxLast + 1).toNat ∧ bits (fld b 0 6) 35 32 = p.crTurn ∧
      bits (fld b 0 6) 47 36 = (p.vcFreed.getD p.crTurn 0).toNat ∧ (crc32c (b.take 60)).toNat = fld b 60 4) := by
  intro p d'
  refine ⟨portSet_of_ports (f := Port.turn ∘ takenIn flit) hq (modAt_modAt ..) rfl, fun hturn => ?_⟩
  have hport : (modPort d q (takenIn flit)).fabric.ports.getD q {} = takenIn flit p := getPort_modPort hq _
  refine ⟨(takenIn flit p).wire 0 0 0 [], ?_, wire_length .., ?_⟩
  · rw [← hport]
    rfl
  · obtain ⟨hkind, -, -, hack, hcr, htotal⟩ := wire_head (p := takenIn flit p) (kind := 0) (vc := 0) (lseq := 0) (data := [])
      hturn (by omega) (by omega)
    exact ⟨hkind, hack, hcr, htotal, wire_check ..⟩

/-! ## Replays (R311) -/

/-- What a HEAD or BODY flit says of itself. -/
theorem flitBytes_head {p : Port} {f : Flit} (hturn : p.crTurn < 8) (hvc : f.vc < 16) :
    bits (fld (p.flitBytes f) 0 6) 19 8 = f.lseq.toNat ∧ bits (fld (p.flitBytes f) 0 6) 3 0 = (if f.head then 2 else 3) ∧
      bits (fld (p.flitBytes f) 0 6) 7 4 = f.vc := by
  obtain ⟨hkind, hvc, hseq, -⟩ := wire_head (p := p) (kind := if f.head then 2 else 3) (lseq := f.lseq) (data := f.bytes) hturn
    (by split <;> omega) hvc
  exact ⟨hseq, hkind, hvc⟩

/-- A flit of the replay buffer goes out again. -/
def sendAgain (q : Nat) (d : Dev) (f : Flit) : Dev := emitFlits d q (getPort d q).turn [(getPort d q).flitBytes f]

theorem sendAgain_frame {d : Dev} {q : Nat} (hq : q < d.fabric.ports.length) (f : Flit) :
    ∃ c, sendAgain q d f = { d with
      fabric.ports := modAt d.fabric.ports q Port.turn
      out.flits := d.out.flits ++ [(q, (getPort d q).flitBytes f)], counters := c } := by
  have hset : d.fabric.ports.set q (getPort d q).turn = modAt d.fabric.ports q Port.turn := by
    simp [modAt, getElem?_ports hq]
  obtain ⟨c, e⟩ := emitFlits_frame d q (getPort d q).turn [(getPort d q).flitBytes f]
  exact ⟨c, by rw [sendAgain, e, hset]; rfl⟩

/-- The flits of a replay go out in order, each as its flit says (R311). -/
theorem replay_frame {q : Nat} (l : List Flit) {d : Dev} (hq : q < d.fabric.ports.length) (hturn : (getPort d q).crTurn < 8) :
    ∃ c, ∃ bs : List Bytes, l.foldl (sendAgain q) d = { d with
        fabric.ports := modAt d.fabric.ports q fun p => { p with crTurn := (p.crTurn + l.length) % 8 }
        out.flits := d.out.flits ++ bs.map fun b => (q, b)
        counters := c } ∧
      bs.length = l.length ∧
      ∀ (k : Nat) (f : Flit) (b : Bytes), l[k]? = some f → bs[k]? = some b → f.vc < 16 → bits (fld b 0 6) 19 8 = f.lseq.toNat ∧
        bits (fld b 0 6) 3 0 = (if f.head then 2 else 3) ∧ bits (fld b 0 6) 7 4 = f.vc := by
  induction l generalizing d with
  | nil =>
    have hsame : modAt d.fabric.ports q (fun p => { p with crTurn := (p.crTurn + 0) % 8 }) = d.fabric.ports := by
      have hport : ({ getPort d q with crTurn := ((getPort d q).crTurn + 0) % 8 } : Port) = getPort d q := by
        rw [Nat.add_zero, Nat.mod_eq_of_lt hturn]
      simp only [modAt, getElem?_ports hq, hport]
      rw [getPort, List.getD_eq_getElem _ _ hq, List.set_getElem_self]
    refine ⟨d.counters, [], ?_, rfl, by simp⟩
    simp only [List.length_nil, List.foldl_nil, List.map_nil, List.append_nil, hsame]
  | cons f l ih =>
    obtain ⟨c, e⟩ := sendAgain_frame hq f
    have hq' : q < (sendAgain q d f).fabric.ports.length := by rw [e]; exact (length_modAt ..).symm ▸ hq
    have hports : (sendAgain q d f).fabric.ports = modAt d.fabric.ports q Port.turn := by rw [e]
    have hturn' : (getPort (sendAgain q d f) q).crTurn < 8 := by
      rw [getPort_of_same hq hports]
      exact Nat.mod_lt _ (by omega)
    obtain ⟨c', bs, hrest, hlen, hbs⟩ := ih hq' hturn'
    refine ⟨c', (getPort d q).flitBytes f :: bs, ?_, by simp [hlen], ?_⟩
    · have hfun : ((fun p : Port => { p with crTurn := (p.crTurn + l.length) % 8 }) ∘ Port.turn) =
          fun p => { p with crTurn := (p.crTurn + (f :: l).length) % 8 } := by
        funext p
        simp only [Function.comp_apply, Port.turn, List.length_cons]
        congr 1
        omega
      rw [List.foldl_cons, hrest, e]
      dsimp only
      rw [modAt_modAt, hfun, List.map_cons, List.append_assoc]
      rfl
    · intro k f' b hf hb hvc
      cases k with
      | zero =>
        obtain rfl : f = f' := by simpa using hf
        obtain rfl : (getPort d q).flitBytes f = b := by simpa using hb
        exact flitBytes_head hturn hvc
      | succ k => exact hbs k f' b (by simpa using hf) (by simpa using hb) hvc

/-- How often a LSEQ has been replayed in a row, with this NAK (R311). -/
def replaysOf (p : Port) (seq : BitVec 12) : Nat := if p.nakSeq = seq ∧ p.nakRun ≠ 0 then p.nakRun + 1 else 1

/-- A NAK is noted at its port. -/
def noteNak (seq : BitVec 12) (n : Nat) (p : Port) : Port :=
  { p with replays := p.replays + BitVec.ofNat 64 n, nakSeq := seq, nakRun := replaysOf p seq }

theorem nakIn_of_found {d : Dev} {q i : Nat} {seq : BitVec 12} (hup : Safety.linkUp d q)
    (hfind : ((getPort d q).replay.findIdx? fun f => f.lseq == seq) = some i) :
    nakIn q seq d =
      (let again := (getPort d q).replay.drop i
       let d2 := again.foldl (sendAgain q) (logEvent (modPort d q (noteNak seq again.length)) evFabReplay (.port q) 0)
       if 8 ≤ replaysOf (getPort d q) seq then beginRetrain d2 q true none else d2) := by
  obtain ⟨hq, hlen, hst, -⟩ := hup
  have hopen : (decide (6 ≤ q) || !((getPort d q).st == 1 || (getPort d q).st == 2 || (getPort d q).st == 6)) = false := by
    simp [st_up hst, hq]
  have hrun : (if (decide ((getPort d q).nakSeq = seq) && (getPort d q).nakRun != 0) = true then (getPort d q).nakRun + 1 else 1) =
      replaysOf (getPort d q) seq := by
    simp [replaysOf]
  have hnote : modPort d q (fun p => { p with
      replays := p.replays + BitVec.ofNat 64 (p.replay.length - i), nakSeq := seq
      nakRun := replaysOf (getPort d q) seq }) = modPort d q (noteNak seq ((getPort d q).replay.drop i).length) := by
    unfold modPort
    rw [List.length_drop, modAt_congr (getElem?_ports (hlen.symm ▸ hq)) (g := noteNak seq _)]
    rfl
  unfold nakIn
  dsimp only
  rw [hfind]
  dsimp only
  rw [hopen, hrun, hnote]
  rfl

theorem beginRetrain_forced (d : Dev) (q : Nat) :
    beginRetrain d q true none = modPort d q fun p => { p with retraining := true, forced := !p.retraining, st := 5 } := rfl

/-- What a NAK does: its flits go out again, counted and recorded, and at the eighth in a row the port retrains (R311). -/
theorem nakIn_spec {d : Dev} {q i : Nat} {seq : BitVec 12} (hup : Safety.linkUp d q)
    (hfind : ((getPort d q).replay.findIdx? fun f => f.lseq == seq) = some i) (hturn : (getPort d q).crTurn < 8) :
    let p := getPort d q
    let again := p.replay.drop i
    let p1 : Port := { noteNak seq again.length p with crTurn := (p.crTurn + again.length) % 8 }
    let d' := nakIn q seq d
    portSet d d' q (if 8 ≤ replaysOf p seq then { p1 with retraining := true, forced := true, st := 5 } else p1) ∧
    (∃ bs : List Bytes, d'.out.flits = d.out.flits ++ bs.map (fun b => (q, b)) ∧ bs.length = again.length ∧
      ∀ (k : Nat) (f : Flit) (b : Bytes), again[k]? = some f → bs[k]? = some b → f.vc < 16 → bits (fld b 0 6) 19 8 = f.lseq.toNat ∧
        bits (fld b 0 6) 3 0 = (if f.head then 2 else 3) ∧ bits (fld b 0 6) 7 4 = f.vc) ∧
    d'.fabric.exceptions = d.fabric.exceptions ∧
    (d.hub.hardHalted = false → recorded d d' 0x450 (.port q) 0) ∧ d'.granary = d.granary := by
  intro p again p1 d'
  have hq : q < d.fabric.ports.length := hup.2.1.symm ▸ hup.1
  have hretrain : p.retraining = false := hup.2.2.2.2.2
  have hnoted := logEvent_fabric (modPort d q (noteNak seq again.length)) evFabReplay (.port q) 0 none
  have hflits := logEvent_flits (modPort d q (noteNak seq again.length)) evFabReplay (.port q) 0 none
  have hmem := logEvent_mem (modPort d q (noteNak seq again.length)) evFabReplay (.port q) 0 none
  have hgranary := logEvent_granary (modPort d q (noteNak seq again.length)) evFabReplay (.port q) 0 none
  have hrec (h : d.hub.hardHalted = false) : recorded d _ 0x450 (.port q) 0 :=
    recorded_logEvent (d := modPort d q (noteNak seq again.length)) h evFabReplay (.port q) 0
  have heq : d' = _ := nakIn_of_found hup hfind
  dsimp only at heq
  generalize logEvent (modPort d q (noteNak seq again.length)) evFabReplay (.port q) 0 = e at *
  have hports : e.fabric.ports = modAt d.fabric.ports q (noteNak seq again.length) := congrArg Fabric.ports hnoted
  have hexceptions : e.fabric.exceptions = (modPort d q (noteNak seq again.length)).fabric.exceptions := congrArg Fabric.exceptions hnoted
  have hflits' : e.out.flits = d.out.flits := hflits
  obtain ⟨c, bs, hagain, hlen, hbs⟩ := replay_frame again (d := e) (hports ▸ (length_modAt ..).symm ▸ hq)
    (by rw [getPort_of_same hq hports]; exact hturn)
  change d' = (if 8 ≤ replaysOf p seq then beginRetrain (again.foldl (sendAgain q) e) q true none else again.foldl (sendAgain q) e) at heq
  have hsent : (again.foldl (sendAgain q) e).fabric.ports =
      modAt d.fabric.ports q ((fun p => { p with crTurn := (p.crTurn + again.length) % 8 }) ∘ noteNak seq again.length) := by
    rw [hagain, ← modAt_modAt, ← hports]
  have hsentFlits : (again.foldl (sendAgain q) e).out.flits = d.out.flits ++ bs.map fun b => (q, b) := by rw [hagain, hflits']
  have hsentMem : (again.foldl (sendAgain q) e).mem = d.mem := by rw [hagain]; exact hmem
  have hsentExceptions : (again.foldl (sendAgain q) e).fabric.exceptions = d.fabric.exceptions := by rw [hagain]; exact hexceptions
  have hsentRec (h : d.hub.hardHalted = false) : recorded d (again.foldl (sendAgain q) e) 0x450 (.port q) 0 := by
    rw [hagain]
    exact hrec h
  have hsentGranary : (again.foldl (sendAgain q) e).granary = d.granary := by rw [hagain]; exact hgranary
  generalize again.foldl (sendAgain q) e = x at *
  rw [heq]
  split
  next hforced =>
    rw [beginRetrain_forced]
    refine ⟨?_, ⟨bs, hsentFlits, hlen, hbs⟩, hsentExceptions, hsentRec, hsentGranary⟩
    have hset := portSet_modPort hq hsent hsentMem fun p => { p with retraining := true, forced := !p.retraining, st := 5 }
    have hretrain' : (noteNak seq again.length (getPort d q)).retraining = false := hretrain
    simp only [Function.comp_apply, hretrain', Bool.not_false] at hset
    exact hset
  next hfew => exact ⟨portSet_of_ports hq hsent hsentMem, ⟨bs, hsentFlits, hlen, hbs⟩, hsentExceptions, hsentRec, hsentGranary⟩

/-! ## LINK_INIT (R316, R317) -/

theorem portRecord_state (d : Dev) (q : Nat) : fld (portRecord d q) 0 1 = (getPort d q).st % 256 := by
  unfold portRecord
  simp [fld, slice, leBytes, leNat]

theorem portRecord_width (d : Dev) (q : Nat) : fld (portRecord d q) 1 1 =
    (if (getPort d q).st == 1 || (getPort d q).st == 2 || (getPort d q).st == 6 then (getPort d q).width else 0) % 256 := by
  unfold portRecord
  simp [fld, slice, leBytes, leNat]

/-- STATE of a port by its peer's LINK_INIT. -/
def initState (d : Dev) (q : Nat) (x : LinkInit) : Nat :=
  if x.version = 1 then 6 else if miscabled d q x.coord x.dir then 3 else if (getPort d q).width = 16 then 1 else 2

/-- The port record that a peer's LINK_INIT fills. -/
def initPort (st : Nat) (x : LinkInit) (p : Port) : Port :=
  { p with
    st := st, peerVersion := x.version, peerIdent := x.ident, peerCoord := x.coord, peerPort := x.port
    rate := if st = 6 then 1 else 2 }

theorem linkInit_spec {d : Dev} {q : Nat} {x : LinkInit} (hup : Safety.linkUp d q) (hver : x.version = 1 ∨ x.version = 2) :
    portSet d (linkInit q x d) q (initPort (initState d q x) x (getPort d q)) ∧ (linkInit q x d).granary = d.granary := by
  obtain ⟨hq, hlen, hst, hwaiting, hsending, -⟩ := hup
  have hlt : q < d.fabric.ports.length := hlen.symm ▸ hq
  have hopen : (decide (6 ≤ q) || !((getPort d q).st == 1 || (getPort d q).st == 2 || (getPort d q).st == 3 || (getPort d q).st == 6) ||
      !(x.version == 1 || x.version == 2)) = false := by
    obtain h | h | h := hst <;> obtain h' | h' := hver <;> simp [h, h', hq]
  have hinit : linkInit q x d =
      (let d2 := refreshDetours (modPort d q (initPort (initState d q x) x))
       if initState d q x = (getPort d q).st then d2
       else if initState d q x = 3 then dropWaiting (stateEvents d2 q 3 false) q
       else findParent d2) := if_neg (by rw [hopen]; simp)
  rw [hinit]
  dsimp only
  split
  · exact ⟨portSet_of_ports hlt rfl rfl, rfl⟩
  · split
    · have hevent : stateEvents (refreshDetours (modPort d q (initPort (initState d q x) x))) q 3 false =
          logEvent (refreshDetours (modPort d q (initPort (initState d q x) x))) evFabMiscabled (.port q) 0 := rfl
      have hports : (logEvent (refreshDetours (modPort d q (initPort (initState d q x) x))) evFabMiscabled (.port q) 0).fabric.ports =
          modAt d.fabric.ports q (initPort (initState d q x) x) := by rw [logEvent_fabric]; rfl
      have hport := getPort_of_same hlt hports
      rw [hevent, dropWaiting_of_idle (by rw [hport]; exact hwaiting)]
      refine ⟨?_, logEvent_granary ..⟩
      have hset := portSet_modPort hlt hports (logEvent_mem _ evFabMiscabled (.port q) 0 none)
        fun p => { p with waiting := [], sending := [] }
      have hsame : ({ initPort (initState d q x) x (getPort d q) with waiting := [], sending := [] } : Port) =
          initPort (initState d q x) x (getPort d q) := by
        unfold initPort
        rw [hwaiting, hsending]
      rwa [hsame] at hset
    · exact ⟨portSet_of_ports hlt (findParent_ports _) (findParent_mem _), (traffic_findParent _).granary_eq⟩

/-! ## Retrains (R315, R318) -/

theorem retrainReq_of_busy {d : Dev} {q : Nat} (h : retrainBusy d = true) : retrainReq q d = d := by
  simp [retrainReq, h]

theorem retrainReq_of_free {d : Dev} {q : Nat} (hup : Safety.linkUp d q) (h : retrainBusy d = false) :
    portSet d (retrainReq q d) q { getPort d q with
      retraining := true, forced := false, mbx := none, st := if (getPort d q).replay = [] then 5 else (getPort d q).st } ∧
    (retrainReq q d).granary = d.granary := by
  obtain ⟨hq, hlen, hst, hwaiting, hsending, -⟩ := hup
  have hportUp : portUp d q = true := st_up hst
  have hopen : (decide (6 ≤ q) || retrainBusy d || !(portUp d q)) = false := by simp [h, hportUp, hq]
  have heq : retrainReq q d = beginRetrain d q false none := if_neg (by rw [hopen]; simp)
  rw [heq]
  refine ⟨?_, (traffic_beginRetrain ..).granary_eq⟩
  have hset := portSet_of_ports (d' := beginRetrain d q false none) (hlen.symm ▸ hq) rfl rfl
  simpa [Port.empty, hwaiting, hsending] using hset

/-- How many entries a table holds of a key. -/
def listed {α : Type} (t : Table α) (k : Nat) : Nat := (t.filter fun e => e.1 == k).length

theorem tget_of_not_listed {α : Type} {t : Table α} {k : Nat} (h : listed t k = 0) : tget t k = none := by
  induction t with
  | nil => rfl
  | cons e t ih =>
    simp only [listed, List.length_eq_zero_iff, List.filter_eq_nil_iff, List.mem_cons, forall_eq_or_imp, beq_iff_eq] at h
    rw [tget, if_neg (Ne.symm h.1)]
    exact ih (by simpa [listed] using h.2)

theorem listed_tput_other {α : Type} (t : Table α) {k j : Nat} (v : α) (h : j ≠ k) : listed (tput t k v) j = listed t j := by
  unfold listed
  induction t with
  | nil => simp [tput, Ne.symm h]
  | cons e t ih =>
    rw [tput]
    split
    · simp [Ne.symm h]
    · split
      next heq => simp [← heq, Ne.symm h]
      next => by_cases he : e.1 = j <;> simp [he, ih]

theorem listed_tdel_other {α : Type} (t : Table α) {k j : Nat} (h : j ≠ k) : listed (tdel t k) j = listed t j := by
  unfold listed
  induction t with
  | nil => rfl
  | cons e t ih =>
    rw [tdel]
    split
    next heq => simp [← heq, Ne.symm h]
    next => by_cases he : e.1 = j <;> simp [he, ih]

theorem listed_tdel_same {α : Type} (t : Table α) (k : Nat) : listed (tdel t k) k = listed t k - 1 := by
  unfold listed
  induction t with
  | nil => rfl
  | cons e t ih =>
    rw [tdel]
    split
    next heq => simp [← heq]
    next hne => simp [Ne.symm hne, ih]

/-- A port without a detour loses its entry among the route exceptions (R315, R320). -/
theorem tget_detours {f : Nat → Option W64} {q : Nat} (hf : f q = none) (l : List Nat) (t : Table W64) (h : listed t (192 + q) ≤ 1)
    (hlisted : q ∈ l ∨ listed t (192 + q) = 0) :
    tget (l.foldl (fun t k => match f k with | none => tdel t (192 + k) | some e => tput t (192 + k) e) t) (192 + q) = none := by
  induction l generalizing t with
  | nil => exact tget_of_not_listed (hlisted.resolve_left (by simp))
  | cons k l ih =>
    rw [List.foldl_cons]
    by_cases hk : k = q
    · subst hk
      have hdel := listed_tdel_same t (192 + k)
      rw [hf]
      exact ih (tdel t (192 + k)) (by omega) (.inr (by omega))
    · have hne : 192 + q ≠ 192 + k := by omega
      have hmem : q ∈ l ∨ listed t (192 + q) = 0 := by
        obtain h | h := hlisted
        · exact .inl ((List.mem_cons.mp h).resolve_left (Ne.symm hk))
        · exact .inr h
      cases f k with
      | none => exact ih _ (listed_tdel_other t hne ▸ h) (listed_tdel_other t hne ▸ hmem)
      | some e => exact ih _ (listed_tput_other t e hne ▸ h) (listed_tput_other t e hne ▸ hmem)

theorem refreshDetours_of_straight {d : Dev} {q : Nat} (hq : q < 6) (h : (getPort d q).steered = false)
    (hlisted : listed d.fabric.exceptions (192 + q) ≤ 1) : tget (refreshDetours d).fabric.exceptions (192 + q) = none :=
  tget_detours (f := detourOf d) (by simp [detourOf, h]) (List.range 6) d.fabric.exceptions hlisted (.inl (List.mem_range.mpr hq))

/-- A port's record after a retrain. -/
def retrained (d : Dev) (q : Nat) (t : PortTrain) (p : Port) : Port :=
  let w := trainedWidth d q t
  let st := trainedState d q t
  { p with
    st := st
    width := if st = 0 then 0 else w
    rxSpare := if st = 0 then none else spareFor (portLanes d q t t.rxBad) w
    txSpare := if st = 0 then none else spareFor (portLanes d q t t.txBad) w
    peerVersion := if st = 0 then 0 else t.peerVersion
    rate := if st = 0 then 0 else if st = 6 then 1 else 2
    peerPort := if st = 0 then 0 else t.peerPort
    peerIdent := if st = 0 then 0 else t.peerIdent
    peerCoord := if st = 0 then 0 else t.peerCoord
    replay := if st == 1 || st == 2 || st == 6 then p.replay else []
    retrains := satInc p.retrains
    retraining := false
    forced := false
    nakRun := 0
    mbx := none }

theorem stateEvents_fabric (d : Dev) (q st : Nat) (spare : Bool) :
    (stateEvents d q st spare).fabric = d.fabric ∧ (stateEvents d q st spare).mem = d.mem := by
  unfold stateEvents
  split
  · exact ⟨logEvent_fabric .., logEvent_mem ..⟩
  · split
    · exact ⟨logEvent_fabric .., logEvent_mem ..⟩
    · split
      · exact ⟨logEvent_fabric .., logEvent_mem ..⟩
      · split
        · exact ⟨logEvent_fabric .., logEvent_mem ..⟩
        · exact ⟨rfl, rfl⟩

/-- A retrain of a port with nothing to send: its new record, and the entries of the detours that follow from it. -/
theorem trainPort_of_idle {d : Dev} {q : Nat} (t : PortTrain) (hq : q < d.fabric.ports.length)
    (hwaiting : (getPort d q).waiting = []) (hsending : (getPort d q).sending = []) :
    (trainPort d q t false true).fabric.ports = modAt d.fabric.ports q (retrained d q t) ∧
    (trainPort d q t false true).fabric.exceptions = (refreshDetours (modPort d q (retrained d q t))).fabric.exceptions ∧
    (trainPort d q t false true).mem = d.mem := by
  have hinits (e : Dev) (w : Nat) (l : List (Nat × LinkInit)) :
      (if w = 0 then e else { e with out.inits := l }).fabric = e.fabric ∧ (if w = 0 then e else { e with out.inits := l }).mem = e.mem := by
    split
    · exact ⟨rfl, rfl⟩
    · exact ⟨rfl, rfl⟩
  obtain ⟨e, hfabric, hmem, heq⟩ : ∃ e, e.fabric = (modPort d q (retrained d q t)).fabric ∧ e.mem = d.mem ∧
      trainPort d q t false true = findParent (if (trainedState d q t == 1 || trainedState d q t == 2 || trainedState d q t == 6) = true
        then pumpPort (refreshDetours e) q else dropWaiting (refreshDetours e) q) := by
    refine ⟨_, ?_, ?_, rfl⟩
    · exact (stateEvents_fabric ..).1.trans ((logEvent_fabric ..).trans (hinits ..).1)
    · exact (stateEvents_fabric ..).2.trans ((logEvent_mem ..).trans (hinits ..).2)
  have hdetours : (refreshDetours e).fabric = (refreshDetours (modPort d q (retrained d q t))).fabric := by
    unfold refreshDetours detourOf nextPlus portOfDir getPort
    simp only [hfabric]
  have hports : (refreshDetours e).fabric.ports = modAt d.fabric.ports q (retrained d q t) := by rw [hdetours]; rfl
  have hport := getPort_of_same hq hports
  have hwaiting' : (getPort (refreshDetours e) q).waiting = [] := by rw [hport]; exact hwaiting
  have hsending' : (getPort (refreshDetours e) q).sending = [] := by rw [hport]; exact hsending
  have hexceptions : (refreshDetours e).fabric.exceptions = _ := congrArg Fabric.exceptions hdetours
  rw [heq, findParent_ports, findParent_exceptions, findParent_mem]
  split
  · rw [pumpPort_of_idle hwaiting' hsending']
    exact ⟨hports, hexceptions, hmem⟩
  · rw [dropWaiting_of_idle hwaiting']
    refine ⟨?_, hexceptions, hmem⟩
    have hsame : ({ retrained d q t (getPort d q) with waiting := [], sending := [] } : Port) = retrained d q t (getPort d q) := by
      unfold retrained
      rw [hwaiting, hsending]
    have hclear : modAt (modAt d.fabric.ports q (retrained d q t)) q (fun p => { p with waiting := [], sending := [] }) =
        modAt d.fabric.ports q (retrained d q t) := (modAt_modAt ..).trans (modAt_congr (getElem?_ports hq) hsame)
    rw [← hports] at hclear ⊢
    exact hclear

theorem answerMbx_of_retrain {d : Dev} {q : Nat} {t : PortTrain} (hq : q < 6) (hretrain : (getPort d q).retraining = true)
    (hst : (getPort d q).st = 5) (hruns : firmwareRuns d (q / 3) = true) :
    ∃ i, retrainDone q t d = { trainPort d q t false true with iabor := i } := by
  have hopen : (decide (6 ≤ q) || !(getPort d q).retraining || (getPort d q).st != 5 || !(firmwareRuns d (q / 3))) = false := by
    simp [hq, hretrain, hst, hruns]
  unfold retrainDone
  dsimp only
  rw [hopen, if_neg (by simp)]
  split
  · exact ⟨_, rfl⟩
  · exact ⟨_, rfl⟩

/-- What the end of a retrain leaves (R315, R318). -/
theorem retrainDone_spec {d : Dev} {q : Nat} {t : PortTrain} (hq : q < 6) (hlen : d.fabric.ports.length = 6)
    (hretrain : (getPort d q).retraining = true) (hst : (getPort d q).st = 5) (hruns : firmwareRuns d (q / 3) = true)
    (hwaiting : (getPort d q).waiting = []) (hsending : (getPort d q).sending = []) :
    let d' := retrainDone q t d
    getPort d' q = retrained d q t (getPort d q) ∧ (∀ k, k ≠ q → getPort d' k = getPort d k) ∧
    (trainedState d q t = 1 → listed d.fabric.exceptions (192 + q) ≤ 1 → tget d'.fabric.exceptions (192 + q) = none) ∧
    d'.mem = d.mem ∧ d'.granary = d.granary := by
  intro d'
  have hlt : q < d.fabric.ports.length := hlen.symm ▸ hq
  obtain ⟨i, heq⟩ : ∃ i, d' = { trainPort d q t false true with iabor := i } := answerMbx_of_retrain hq hretrain hst hruns
  obtain ⟨hports, hexceptions, hmem⟩ := trainPort_of_idle t hlt hwaiting hsending
  have hgranary := (traffic_trainPort d q t false true).granary_eq
  generalize trainPort d q t false true = e at *
  rw [heq]
  refine ⟨getPort_of_same hlt hports, fun k hk => getPort_of_other hports hk, fun hup hlisted => ?_, hmem, hgranary⟩
  have hsteered : (getPort (modPort d q (retrained d q t)) q).steered = false := by
    rw [getPort_modPort hlt]
    simp [Port.steered, retrained, hup]
  exact (congrArg (tget · (192 + q)) hexceptions).trans (refreshDetours_of_straight hq hsteered hlisted)

theorem retrainDone_of_not_due {d : Dev} {q : Nat} (t : PortTrain)
    (h : ¬((getPort d q).retraining = true ∧ (getPort d q).st = 5 ∧ firmwareRuns d (q / 3) = true)) : retrainDone q t d = d := by
  refine if_pos ?_
  simp only [not_and_or, Bool.not_eq_true] at h
  obtain h | h | h := h <;> simp [h]

/-! ## Lanes (R307) -/

theorem trainedWidth_lanes {d : Dev} {q : Nat} {t : PortTrain} (hver : t.peerVersion = 2) (hfuse : d.units.fuseLanes.getD q none = none) :
    trainedWidth d q t = ([16, 8, 4].find? fun w => widthUsable t.rxBad w && widthUsable t.txBad w).getD 0 := by
  simp only [trainedWidth, portLanes, hver, hfuse]
  simp

theorem widthUsable_iff (bad w : Nat) : widthUsable bad w = true ↔ (failedLanes bad w).length ≤ 1 := decide_eq_true_iff

/-- Where at most one lane has failed, no logical lane lies on it (R307). -/
theorem testBit_physicalLane {bad w l : Nat} (husable : (failedLanes bad w).length ≤ 1) (hl : l < w) :
    bad.testBit (physicalLane (spareFor bad w) l) = false := by
  have hfailed {k : Nat} (hk : k ≤ w) (hbit : bad.testBit k = true) : k ∈ failedLanes bad w :=
    List.mem_filter.mpr ⟨List.mem_range.mpr (by omega), hbit⟩
  by_contra hbit
  rw [Bool.not_eq_false] at hbit
  have hle : physicalLane (spareFor bad w) l ≤ w := by
    unfold physicalLane
    split
    · split <;> omega
    · omega
  have hmem := hfailed hle hbit
  obtain ⟨f, hf⟩ : ∃ f, failedLanes bad w = [f] := List.length_eq_one_iff.mp (by
    have := List.length_pos_of_mem hmem
    omega)
  rw [hf, List.mem_singleton] at hmem
  have hspare : spareFor bad w = if f < w then some f else none := by
    unfold spareFor
    rw [hf]
    by_cases h : f < w <;> simp [h]
  rw [hspare] at hmem
  split at hmem
  · simp only [physicalLane] at hmem
    split at hmem <;> omega
  · simp only [physicalLane] at hmem
    omega

/-! ## The statement -/

/-- Settles O51: discarded codewords and flits, flits in order, replays, NAKs again, LINK_INIT, retrains and lanes, one by one. -/
theorem fabricLinks : Obligations.FabricLinks := by
  unfold Obligations.FabricLinks
  refine ⟨fun s q flits hp hup => ?lost, fun s t q flit rest hp hq hstalls hfirst => ?codeword, fun s q flit hp hup hlen => ?flit,
    fun s q seq hp hup => ?nak, fun s q t hp hq hlen hnak => ?resend, fun s q x hp hup => ?init, fun s q hp hup => ?request,
    fun s q t hp hq hlen => ?retrain, fun d q t hver hfuse => ?lanes⟩
  case lost =>
    have hq : q < s.dev.fabric.ports.length := hup.2.1.symm ▸ hup.1
    intro p
    split
    next hnone =>
      exact ⟨_, act_live hp ((codewordIn_of_lost hup flits).trans (discardFlit_of_none hnone)) rfl, portSet_sendNak hq, rfl⟩
    next hsome => exact act_live_same hp ((codewordIn_of_lost hup flits).trans (discardFlit_of_some hsome))
  case codeword =>
    have htraffic := traffic_flitIn q s.dev flit
    have hdone : act s (live (codewordIn q [flit] true)) = .next { s with dev := flitIn q s.dev flit } :=
      act_live hp (codewordIn_of_decoded hq ..) htraffic.granary_eq
    obtain rfl : { s with dev := flitIn q s.dev flit } = t := by
      have := hdone.symm.trans hfirst
      simpa using this
    have hon : (flitIn q s.dev flit).power.on = true := htraffic.power_eq ▸ hp.1
    have hrest := Traffic.foldl (traffic_flitIn q) rest (flitIn q s.dev flit)
    refine (act_live hp (codewordIn_of_decoded hq ..) ?_).trans
      (act_live (s := { s with dev := flitIn q s.dev flit }) ⟨hon, htraffic.granary_eq ▸ hstalls⟩ (codewordIn_of_decoded hq ..)
        hrest.granary_eq).symm
    exact hrest.granary_eq.trans htraffic.granary_eq
  case flit =>
    have hq : q < s.dev.fabric.ports.length := hup.2.1.symm ▸ hup.1
    have heq : codewordIn q [flit] true s.dev = flitIn q s.dev flit := codewordIn_of_decoded hup.1 ..
    intro p h seq whole linked
    refine ⟨fun hbad hnone => ?_, fun hbad hsome => ?_, fun hwhole hkind => ?_, fun hwhole hkind => ?_⟩
    · exact ⟨_, act_live hp (heq.trans ((flitIn_of_bad hup hlen hbad).trans (discardFlit_of_none hnone))) rfl, portSet_sendNak hq, rfl⟩
    · exact act_live_same hp (heq.trans ((flitIn_of_bad hup hlen hbad).trans (discardFlit_of_some hsome)))
    · exact ⟨_, act_live hp (heq.trans (flitIn_of_control hup hlen hwhole hkind)) rfl, portSet_of_ports (f := fun p => p.linked h) hq rfl rfl, rfl⟩
    · split
      next hseq =>
        obtain ⟨hset, hidle⟩ := acknowledged (flit := flit) hq
        rw [← hseq] at hidle
        exact ⟨_, act_live hp (heq.trans (flitIn_of_next hup hlen hwhole hkind hseq)) rfl, hset, hidle⟩
      next hseq =>
        intro hnone
        have hport := getPort_modPort hq fun p => p.linked h
        have hnak := discardFlit_of_none (d := modPort s.dev q fun p => p.linked h) (q := q) (by rw [hport]; exact hnone)
        have hset := portSet_modPort (e := modPort s.dev q fun p => p.linked h) hq rfl rfl
          fun p => { p with nakFrom := some (deviceTime s.dev) }
        refine ⟨_, act_live hp (heq.trans ((flitIn_of_other hup hlen hwhole hkind hseq).trans hnak)) rfl, hset, ?_⟩
        unfold sendNak
        dsimp only
        rw [hport]
        rfl
  case nak =>
    intro p
    split
    next hnone => exact act_live_same hp (by simp only [nakIn]; rw [hnone])
    next i hsome =>
      intro run again p1 hturn
      obtain ⟨hset, hflits, hexceptions, hrec, hgranary⟩ := nakIn_spec hup hsome hturn
      exact ⟨_, act_live hp rfl hgranary, hset, hflits, hexceptions, hrec⟩
  case resend =>
    have heq := nakResend_of_due hnak
    intro p
    split
    next hdue => exact ⟨_, act_live hp (heq.trans (if_pos hdue)) rfl, portSet_sendNak (hlen.symm ▸ hq), rfl⟩
    next hearly => exact act_live_same hp (heq.trans (if_neg hearly))
  case init =>
    intro p st
    split
    next hver =>
      obtain ⟨hset, hgranary⟩ := linkInit_spec hup hver
      refine ⟨_, act_live hp rfl hgranary, hset, fun hst => ?_⟩
      have hport : (getPort (linkInit q x s.dev) q).st = 3 := by rw [hset.1]; exact hst
      exact ⟨by rw [portRecord_state, hport], by rw [portRecord_width, hport]; rfl⟩
    next hver => exact act_live_same hp (if_pos (by simp only [not_or] at hver; simp [hver.1, hver.2]))
  case request =>
    intro p
    split
    next hbusy => exact act_live_same hp (retrainReq_of_busy hbusy)
    next hfree =>
      obtain ⟨hset, hgranary⟩ := retrainReq_of_free hup (by simpa using hfree)
      exact ⟨_, act_live hp rfl hgranary, hset⟩
  case retrain =>
    intro p
    split
    next hready =>
      obtain ⟨hretrain, hst, hruns⟩ := hready
      intro hwaiting hsending
      obtain ⟨hport, hothers, hlisted, hmem, hgranary⟩ := retrainDone_spec hq hlen hretrain hst hruns hwaiting hsending
      exact ⟨_, act_live hp rfl hgranary, congrArg Port.st hport, congrArg Port.retraining hport, congrArg Port.forced hport,
        congrArg Port.retrains hport, congrArg Port.mbx hport, hothers, hlisted, hmem⟩
    next hidle => exact act_live_same hp (retrainDone_of_not_due t hidle)
  case lanes =>
    have hwidth := trainedWidth_lanes hver hfuse
    intro good
    have hgood (w : Nat) : (widthUsable t.rxBad w && widthUsable t.txBad w) = true ↔ good w := by
      rw [Bool.and_eq_true, widthUsable_iff, widthUsable_iff]
      exact ⟨fun h bad hbad => hbad.elim (· ▸ h.1) (· ▸ h.2), fun h => ⟨h _ (.inl rfl), h _ (.inr rfl)⟩⟩
    have hcases : trainedWidth d q t = 16 ∧ good 16 ∨ trainedWidth d q t = 8 ∧ ¬good 16 ∧ good 8 ∨
        trainedWidth d q t = 4 ∧ ¬good 16 ∧ ¬good 8 ∧ good 4 ∨ trainedWidth d q t = 0 ∧ ¬good 16 ∧ ¬good 8 ∧ ¬good 4 := by
      rw [hwidth]
      simp only [← hgood]
      by_cases h16 : (widthUsable t.rxBad 16 && widthUsable t.txBad 16) = true
      · simp [h16]
      · by_cases h8 : (widthUsable t.rxBad 8 && widthUsable t.txBad 8) = true
        · simp [h16, h8]
        · by_cases h4 : (widthUsable t.rxBad 4 && widthUsable t.txBad 4) = true
          · simp [h16, h8, h4]
          · simp [h16, h8, h4]
    have husable : ∀ bad, bad = t.rxBad ∨ bad = t.txBad → 0 < trainedWidth d q t →
        (failedLanes bad (trainedWidth d q t)).length ≤ 1 := by
      intro bad hbad hpos
      obtain ⟨hw, h⟩ | ⟨hw, -, h⟩ | ⟨hw, -, -, h⟩ | ⟨hw, -⟩ := hcases
      · exact hw ▸ h bad hbad
      · exact hw ▸ h bad hbad
      · exact hw ▸ h bad hbad
      · omega
    refine ⟨?_, ?_, ?_, fun bad l hbad hl => testBit_physicalLane (husable bad hbad (by omega)) hl⟩
    all_goals
      obtain ⟨hw, h⟩ | ⟨hw, h⟩ | ⟨hw, h⟩ | ⟨hw, h⟩ := hcases <;> simp [hw, h]

end Sys2Proof.LinkProofs
end

section
/-! SUPPORT. Messages and requests of the fabric, lends, and the time base (R309, R312, R319 to R324, R349). -/

namespace Sys2Proof.MessageProofs

open Sys2Proof Sys2Proof.Machine Sys2Proof.Safety Sys2Proof.HostProofs Sys2Proof.OrgProofs Sys2Proof.RingProofs Sys2Proof.MillProofs
  Sys2Proof.StoreProofs Sys2Proof.LoomStoreProofs Sys2Proof.StepProofs Sys2Proof.IaborProofs Sys2Proof.TrafficProofs
  Sys2Proof.HostMemoryProofs Sys2Proof.LinkProofs

/-! ## A message leaves an idle port (R309, R311 to R313) -/

theorem msgVc_lt {m : FabMsg} (h : m.cls < 4) : msgVc m < 8 := by
  unfold msgVc
  cases m.dl <;> simp [ofBool] <;> omega

theorem mayFlit_of_canSend {p : Port} {m : FabMsg} (h : p.canSend m = true) : p.mayFlit (msgVc m) = true := by
  have hpos : 0 < flitCount m := by unfold flitCount; omega
  simp only [Port.canSend, Bool.and_eq_true, decide_eq_true_eq] at h
  simp only [Port.mayFlit, Bool.and_eq_true, decide_eq_true_eq]
  omega

/-- The one message that waits for a port that can send it is ready, and only once. -/
theorem ready_of_one {p : Port} {i : Nat} {m : FabMsg} (hi : i < 7) (hcls : m.cls < 4) (hwaiting : p.waiting = [(i, m)])
    (hsending : p.sending = []) (hsend : p.canSend m = true) : p.ready = [(i, m)] := by
  have hvc := msgVc_lt hcls
  have hfind (j v : Nat) : (p.waiting.find? fun w => w.1 == j && msgVc w.2 == v) =
      if j = i ∧ v = msgVc m then some (i, m) else none := by
    rw [hwaiting]
    by_cases hj : j = i
    · by_cases hv : v = msgVc m
      · simp [hj, hv]
      · simp [hv, Ne.symm hv]
    · simp [hj, Ne.symm hj]
  have hall : ((List.range 7).flatMap fun j => (List.range 8).filterMap fun v => p.waiting.find? fun w => w.1 == j && msgVc w.2 == v) =
      [(i, m)] := by
    simp only [hfind]
    generalize msgVc m = v at hvc
    interval_cases i <;> interval_cases v <;> rfl
  unfold Port.ready
  rw [hall]
  simp [Port.canBegin, hsending, thas, tget, mayFlit_of_canSend hsend]

/-- The only entry of a list is found by its least key. -/
theorem find?_least {α : Type} (x : α) (f : α → Nat) {bound : Nat} (h : f x < bound) :
    ([x].find? fun w => f w == ([x].map f).foldl min bound) = some x := by
  have hmin : ([x].map f).foldl min bound = f x := Nat.min_eq_right h.le
  rw [hmin, List.find?_cons_of_pos (by simp)]

theorem next_of_one {p : Port} {i : Nat} {m : FabMsg} (now : W32) (hready : p.ready = [(i, m)]) : p.next now = some (i, m) := by
  have hgrant : grant p.pointer 7 (p.ready.map fun w => (w.1, injectTick now w.2)) = some i := by
    rw [hready]
    exact DecodeProofs.grant_single ..
  have hmine : (p.ready.filter fun w => w.1 == i) = [(i, m)] := by rw [hready]; simp
  unfold Port.next
  rw [hgrant]
  dsimp only
  rw [hmine]
  exact find?_least (i, m) (fun w => injectTick now w.2) (BitVec.isLt _)

/-- What is left of a drained port with one message to send. -/
theorem drainPort_once {d : Dev} {q : Nat} {p : Port} {w : Nat × FabMsg} (hport : d.fabric.ports.getD q {} = p) (hst : p.st ≠ 5)
    (hnext : p.next (BitVec.ofNat 32 (deviceTime d)) = some w) :
    ∃ p' b, drainPort q 1 d = emitFlits { d with out.fabric := d.out.fabric ++ [(q, w.2)] } q p' b := by
  unfold drainPort
  dsimp only
  rw [hport, if_neg hst, hnext]
  exact ⟨_, _, rfl⟩

/-- A message handed to an idle port with credit for all of it leaves at once; other ports and memory are as before. -/
theorem portSend_of_idle {d : Dev} {q i : Nat} {m : FabMsg} (hi : i < 7) (h : canLeave d q m) :
    hasLeft d (portSend d q i m) q m ∧ (∀ k, k ≠ q → getPort (portSend d q i m) k = getPort d k) ∧
      (portSend d q i m).mem = d.mem := by
  obtain ⟨⟨hq, hlen, hst, hwaiting, hsending, -⟩, hsend, hcls⟩ := h
  have hlt : q < d.fabric.ports.length := hlen.symm ▸ hq
  let e : Dev := modPort d q fun p => { p with waiting := p.waiting ++ [(i, m)] }
  have hport : e.fabric.ports.getD q {} = { getPort d q with waiting := [(i, m)] } := by
    have := getPort_modPort hlt fun p => { p with waiting := p.waiting ++ [(i, m)] }
    rwa [hwaiting, List.nil_append] at this
  have hnext := next_of_one (BitVec.ofNat 32 (deviceTime e))
    (ready_of_one (p := { getPort d q with waiting := [(i, m)] }) hi hcls rfl hsending hsend)
  obtain ⟨p, b, heq⟩ : ∃ p b, portSend d q i m = emitFlits { e with out.fabric := e.out.fabric ++ [(q, m)] } q p b := by
    have hbusy : ({ getPort d q with waiting := [(i, m)] } : Port).st ≠ 5 := by
      show (getPort d q).st ≠ 5
      omega
    obtain ⟨p, b, hdrain⟩ := drainPort_once hport hbusy hnext
    refine ⟨p, b, Eq.trans ?_ hdrain⟩
    show pumpPort e q = _
    unfold pumpPort
    rw [hport]
    dsimp only
    rw [if_neg hbusy, hsending]
    rfl
  obtain ⟨c, hemit⟩ := emitFlits_frame { e with out.fabric := e.out.fabric ++ [(q, m)] } q p b
  rw [heq, hemit]
  refine ⟨rfl, fun k hk => ?_, rfl⟩
  have hother : getPort e k = getPort d k := getPort_of_other rfl hk
  rw [← hother]
  show (e.fabric.ports.set q p).getD k {} = e.fabric.ports.getD k {}
  rw [List.getD_eq_getElem?_getD, List.getD_eq_getElem?_getD, List.getElem?_set_ne (Ne.symm hk)]

/-! ## A message that arrives (R309, R312, R319 to R321) -/

/-- Routes look at the ports only for their states. -/
theorem routeOf_congr {d e : Dev} (hfabric : e.fabric = { d.fabric with ports := e.fabric.ports })
    (hst : ∀ p, (getPort e p).st = (getPort d p).st) (hforced : ∀ p, (getPort e p).forced = (getPort d p).forced)
    (inPort : Nat) (dest : W16) (cls hops : Nat) (dl : Bool) : routeOf e inPort dest cls hops dl = routeOf d inPort dest cls hops dl := by
  have hcoord : e.fabric.coord = d.fabric.coord := by rw [hfabric]
  have hdims : e.fabric.dims = d.fabric.dims := by rw [hfabric]
  have hdirs : e.fabric.dirs = d.fabric.dirs := by rw [hfabric]
  have hexceptions : e.fabric.exceptions = d.fabric.exceptions := by rw [hfabric]
  unfold getPort at hst hforced
  unfold routeOf portTakes portUp routeDir portOfDir dateline entryDateline crosses
  simp only [hcoord, hdims, hdirs, hexceptions, hst, hforced]

/-- A port whose message has been taken (R312). -/
def takenFrom (m : FabMsg) (p : Port) : Port :=
  { p with
    vcFreed := modAt p.vcFreed (msgVc m) (· + BitVec.ofNat 12 (flitCount m))
    rx := freeRx (msgVc m) (flitCount m) p.rx
    crTurn := (msgVc m + 1) % 8 }

theorem freeFlits_frame (d : Dev) (q : Nat) (m : FabMsg) :
    ∃ b, freeFlits d q m = { d with fabric.ports := modAt d.fabric.ports q (takenFrom m), out.flits := b } := by
  have h (l : List Port) : modAt (modAt l q fun p => { p with
      vcFreed := modAt p.vcFreed (msgVc m) (· + BitVec.ofNat 12 (flitCount m))
      rx := freeRx (msgVc m) (flitCount m) p.rx
      crTurn := msgVc m }) q Port.turn = modAt l q (takenFrom m) := modAt_modAt ..
  unfold freeFlits reportIdle modPort
  dsimp only
  rw [h]
  exact ⟨_, rfl⟩

theorem routeOf_freeFlits {d : Dev} {q : Nat} (hq : q < d.fabric.ports.length) (x m : FabMsg) :
    routeOf (freeFlits d q x) q m.dest m.cls m.hops m.dl = routeOf d q m.dest m.cls m.hops m.dl := by
  have hports : (freeFlits d q x).fabric.ports = modAt d.fabric.ports q (takenFrom x) := by
    obtain ⟨b, e⟩ := freeFlits_frame d q x
    rw [e]
  refine routeOf_congr (d := d) (e := freeFlits d q x) rfl (fun p => ?_) (fun p => ?_) ..
  all_goals
    by_cases hp : p = q
    · rw [hp, getPort_of_same hq hports]
      rfl
    · rw [getPort_of_other hports hp]

/-- A header without errors reads as it was sent. -/
theorem readHeader_of_clean {m : FabMsg} (h : m.headerFlips = []) : readHeader m = some m := by
  have hsame : ({ m with headerFlips := [] } : FabMsg) = m := by rw [← h]
  rw [readHeader, h]
  exact congrArg some hsame

theorem checkHeader_of_clean {m : FabMsg} (h : m.headerFlips = []) : (checkHeader m).2 = false := by
  have hword (w : BitVec 128) : checkWord w 0#144 = .clean := by
    rw [checkWord, if_pos]
    simp [weight]
  simp [checkHeader, h, hword, List.range_succ]

/-- A message goes where its route says. -/
def sentOn (d : Dev) (q : Nat) (m : FabMsg) : Route → Dev
  | .here => deliver d q m
  | .out p dl => portSend d p q { m with hops := m.hops + 1, dl := dl }
  | .discard => discardMsg d q m

section Arrival
variable {d : Dev} {q : Nat} {m : FabMsg} (hup : Safety.linkUp d q) (hclean : m.headerFlips = [])
include hup hclean

theorem deliveredHere_of_clean : deliveredHere q m d = if routeOf d q m.dest m.cls m.hops m.dl = .here then some m else none := by
  obtain ⟨hq, -, hst, -⟩ := hup
  have hportUp : portUp d q = true := st_up hst
  have h6 : q ≠ 6 := by omega
  simp [deliveredHere, h6, hq, hportUp, readHeader_of_clean hclean, Option.filter, beq_iff_eq]

theorem messageIn_of_clean : messageIn q m d = sentOn (freeFlits d q m) q m (routeOf d q m.dest m.cls m.hops m.dl) := by
  obtain ⟨hq, hlen, hst, -⟩ := hup
  have hportUp : portUp d q = true := st_up hst
  have hnot : ¬((decide (6 < q) || !(portUp d q)) = true) := by simp [hportUp]; omega
  unfold messageIn
  rw [if_neg (by omega), if_neg hnot, readHeader_of_clean hclean]
  simp only [checkHeader_of_clean hclean, Bool.false_eq_true, if_false, routeOf_freeFlits (hlen.symm ▸ hq)]
  cases routeOf d q m.dest m.cls m.hops m.dl <;> rfl

theorem fabMessage_of_passing (h : routeOf d q m.dest m.cls m.hops m.dl ≠ .here) : fabMessage q m d = messageIn q m d := by
  rw [fabMessage, deliveredHere_of_clean hup hclean, if_neg h]

end Arrival

/-- A message that is routed on leaves by the routed port, with one more hop (R319). -/
theorem messageIn_routed {d : Dev} {q out : Nat} {m : FabMsg} {dl : Bool} (hup : Safety.linkUp d q) (hclean : m.headerFlips = [])
    (hroute : routeOf d q m.dest m.cls m.hops m.dl = .out out dl) (hne : out ≠ q)
    (hcan : canLeave d out { m with hops := m.hops + 1, dl := dl }) :
    hasLeft d (fabMessage q m d) out { m with hops := m.hops + 1, dl := dl } ∧ getPort (fabMessage q m d) q = takenFrom m (getPort d q) ∧
      (fabMessage q m d).mem = d.mem ∧ (fabMessage q m d).granary = d.granary := by
  have hlt : q < d.fabric.ports.length := hup.2.1.symm ▸ hup.1
  rw [fabMessage_of_passing hup hclean (by simp [hroute]), messageIn_of_clean hup hclean, hroute, sentOn]
  obtain ⟨b, e⟩ := freeFlits_frame d q m
  have hports : (freeFlits d q m).fabric.ports = modAt d.fabric.ports q (takenFrom m) := by rw [e]
  have hout : getPort (freeFlits d q m) out = getPort d out := getPort_of_other hports hne
  have hcan' : canLeave (freeFlits d q m) out { m with hops := m.hops + 1, dl := dl } := by
    unfold canLeave Safety.linkUp at hcan ⊢
    rw [hout, hports, length_modAt]
    exact hcan
  obtain ⟨hleft, hothers, hmem⟩ := portSend_of_idle (i := q) (by have := hup.1; omega) hcan'
  refine ⟨hleft.trans ?_, (hothers q (Ne.symm hne)).trans (getPort_of_same hlt hports), hmem.trans ?_, ?_⟩
  · rw [e]
  · rw [e]
  · rw [(traffic_portSend ..).granary_eq, e]

/-- A response or a control message without a route is discarded and recorded (R321). -/
theorem messageIn_unroutable {d : Dev} {q : Nat} {m : FabMsg} (hup : Safety.linkUp d q) (hclean : m.headerFlips = [])
    (hroute : routeOf d q m.dest m.cls m.hops m.dl = .discard) (hcls : m.cls = 1 ∨ m.cls = 3) (hrun : d.hub.hardHalted = false) :
    recorded d (fabMessage q m d) 0x851 (.port q) 0 ∧ getPort (fabMessage q m d) q = takenFrom m (getPort d q) ∧
      (fabMessage q m d).mem = d.mem ∧ (fabMessage q m d).granary = d.granary := by
  have hlt : q < d.fabric.ports.length := hup.2.1.symm ▸ hup.1
  have hno : (decide (m.cls = 0) || decide (m.cls = 2)) = false := by obtain h | h := hcls <;> simp [h]
  have heq : fabMessage q m d = logEvent (freeFlits d q m) evFabUnroutable (.port q) 0 := by
    rw [fabMessage_of_passing hup hclean (by simp [hroute]), messageIn_of_clean hup hclean, hroute, sentOn]
    exact if_neg (by rw [hno]; simp)
  obtain ⟨b, e⟩ := freeFlits_frame d q m
  have hrec := recorded_logEvent (d := { d with fabric.ports := modAt d.fabric.ports q (takenFrom m), out.flits := b }) hrun
    evFabUnroutable (.port q) 0
  have hports := logEvent_fabric { d with fabric.ports := modAt d.fabric.ports q (takenFrom m), out.flits := b } evFabUnroutable (.port q) 0
    none
  have hmem := logEvent_mem { d with fabric.ports := modAt d.fabric.ports q (takenFrom m), out.flits := b } evFabUnroutable (.port q) 0
    none
  have hgranary := logEvent_granary { d with fabric.ports := modAt d.fabric.ports q (takenFrom m), out.flits := b } evFabUnroutable
    (.port q) 0 none
  rw [heq, e]
  exact ⟨hrec, getPort_of_same hlt (congrArg Fabric.ports hports), hmem, hgranary⟩

/-! ## Responses (R321, R322, R349) -/

/-- A response for a request of this device frees its flits and is taken. -/
theorem fabMessage_of_response {d : Dev} {q : Nat} {m : FabMsg} (hup : Safety.linkUp d q) (hclean : m.headerFlips = [])
    (hroute : routeOf d q m.dest m.cls m.hops m.dl = .here) (hcls : m.cls = 1) (hrun : d.hub.hardHalted = false)
    (hidle : d.granary.st = .idle) : fabMessage q m d = takeResponse (freeFlits d q m) q m := by
  have hpage : pageResponse m d = d := by
    unfold pageResponse
    split
    · rfl
    · exact if_pos (by simp [hidle])
  obtain ⟨b, e⟩ := freeFlits_frame d q m
  have hrun' : (freeFlits d q m).hub.hardHalted = false := by rw [e]; exact hrun
  rw [fabMessage, deliveredHere_of_clean hup hclean, if_pos hroute]
  dsimp only
  rw [hpage, messageIn_of_clean hup hclean, hroute, sentOn]
  exact if_pos (by rw [hcls, hrun']; rfl)

/-- A device one request of which has come to its end. -/
def withoutTag (d : Dev) (tag : W32) : Dev :=
  { d with fabric.requests := d.fabric.requests.filter fun r => r.tag != tag }

section Response
variable {d : Dev} {q : Nat} {m : FabMsg} {r : Request} (hfind : (d.fabric.requests.find? fun r => r.tag == m.tag) = some r)
  (hbody : m.bodyCheck = .clean)
include hfind hbody

theorem takeResponse_of_failed (hfail : m.unreachable = true ∨ m.error = true) :
    takeResponse d q m = failRequest (withoutTag d m.tag) r.op (if m.unreachable then 0x3A else 0x3B) := by
  unfold takeResponse
  rw [hfind]
  simp only [hbody, notePayload]
  cases hu : m.unreachable with
  | true => rfl
  | false =>
    have he : m.error = true := by simpa [hu] using hfail
    simp [he, withoutTag]

theorem takeResponse_of_read (hu : m.unreachable = false) (he : m.error = false) (hread : r.read = true) :
    takeResponse d q m = modOp (progress { withoutTag d m.tag with
      mem.remote := cellsWrite d.mem.remote r.key (m.body.take r.len) } r.op) r.op fun o =>
        { o with fetched := o.fetched ++ [(r.key, r.len, r.pass)] } := by
  unfold takeResponse
  rw [hfind]
  simp only [hbody, notePayload, hu, he, hread]
  rfl

theorem takeResponse_of_write (hu : m.unreachable = false) (he : m.error = false) (hread : r.read = false) :
    takeResponse d q m = withoutTag d m.tag := by
  unfold takeResponse
  rw [hfind]
  simp only [hbody, notePayload, hu, he, hread]
  rfl

end Response

theorem progress_frame (d : Dev) (n : OpName) : ∃ r, progress d n = { d with hub.rings := r } := by
  unfold progress
  split
  · exact ⟨_, rfl⟩
  · exact ⟨_, rfl⟩

theorem getOp_progress_fetched {d : Dev} {n : OpName} {o : Op} (h : getOp d n = some o) :
    ∃ x, getOp (progress d n) n = some x ∧ x.fetched = o.fetched := by
  unfold progress
  split
  · exact ⟨o, h, rfl⟩
  next t _ => exact ⟨_, getOp_modOp (f := fun o => { o with progressAt := engineCycles d t }) h (fun _ => rfl), rfl⟩

/-- What a read's response leaves: the wait ended, the bytes with the operation, and this device's memory as it was. -/
theorem readResponse_spec (d : Dev) (r : Request) (tag : W32) (b : Bytes) :
    let d' := modOp (progress { withoutTag d tag with mem.remote := cellsWrite d.mem.remote r.key b } r.op) r.op fun o =>
      { o with fetched := o.fetched ++ [(r.key, r.len, r.pass)] }
    d'.fabric.requests = d.fabric.requests.filter (fun r => r.tag != tag) ∧
    { d'.mem with remote := d.mem.remote } = d.mem ∧
    (memoryWf d.mem = true → cellsRead d'.mem.remote r.key b.length = b) ∧
    (∀ o, getOp d r.op = some o → (getOp d' r.op).map (·.fetched) = some (o.fetched ++ [(r.key, r.len, r.pass)])) ∧
    d'.granary = d.granary := by
  intro d'
  have hfetched (o : Op) (h : getOp d r.op = some o) := getOp_progress_fetched
    (d := { withoutTag d tag with mem.remote := cellsWrite d.mem.remote r.key b }) (n := r.op) h
  obtain ⟨x, e⟩ := progress_frame { withoutTag d tag with mem.remote := cellsWrite d.mem.remote r.key b } r.op
  have hd : d' = modOp { withoutTag d tag with mem.remote := cellsWrite d.mem.remote r.key b, hub.rings := x } r.op fun o =>
      { o with fetched := o.fetched ++ [(r.key, r.len, r.pass)] } := by rw [← e]
  refine ⟨by rw [hd]; rfl, by rw [hd]; rfl, fun hwf => ?_, fun o h => ?_, by rw [hd]; rfl⟩
  · have hremote : d'.mem.remote = cellsWrite d.mem.remote r.key b := by rw [hd]; rfl
    rw [hremote]
    refine cellsRead_eq fun i hi => ?_
    have hwf' : cellsWf d.mem.remote = true := by
      simp only [memoryWf, Bool.and_eq_true] at hwf
      exact hwf.2
    rw [cellGet_cellsWrite hwf', if_pos (by omega), Nat.add_sub_cancel_left]
  · obtain ⟨y, hy, hyf⟩ := hfetched o h
    rw [getOp_modOp (f := fun o => { o with fetched := o.fetched ++ [(r.key, r.len, r.pass)] }) hy (fun _ => rfl)]
    exact congrArg some (congrArg (· ++ _) hyf)

/-- A request that fails ends the operation that waits for it; the fabric and memory are as they are. -/
theorem failRequest_spec {d : Dev} {n : OpName} {o : Op} (h : issuedOp d n = some o) (st : Byte) :
    ended (failRequest d n st) n st 0 ∧ (failRequest d n st).fabric = d.fabric ∧ (failRequest d n st).mem = d.mem ∧
      (failRequest d n st).granary = d.granary := by
  obtain ⟨hop, hissued, haborted⟩ := issuedOp_not_aborted h
  rw [failRequest_of_open hop haborted (.inl (by simp [hissued]))]
  refine ⟨ended_completeOp hop st 0, ?_, completeOp_mem .., completeOp_granary ..⟩
  obtain ⟨_, _, _, _, _, _, _, _, e⟩ := completeOp_frame d n st 0
  rw [e]

/-! ## Lends (R349) -/

/-- A message of this device goes to an idle port that holds the credit for it. -/
theorem injectMsg_of_idle {d : Dev} {m : FabMsg} {q : Nat} {dl : Bool} (hroute : routeOf d 6 m.dest m.cls 0 false = .out q dl)
    (hcan : canLeave d q { m with src := d.fabric.coord, inject := BitVec.ofNat 32 (deviceTime d), hops := 1, dl := dl }) :
    hasLeft d (injectMsg d m).1 q { m with src := d.fabric.coord, inject := BitVec.ofNat 32 (deviceTime d), hops := 1, dl := dl } ∧
      (injectMsg d m).1.mem = d.mem := by
  unfold injectMsg
  dsimp only
  rw [hroute]
  obtain ⟨hleft, -, hmem⟩ := portSend_of_idle (i := 6) (by omega) hcan
  exact ⟨hleft, hmem⟩

/-- How many bytes an access of a borrower spans. -/
def lendLength (r : LendReq) : Nat := match r.write with
  | some b => b.length
  | none => r.len

theorem lendAllowed_eq {d : Dev} {r : LendReq} {l : Lend} (h : tget d.fabric.lends r.lend = some l) :
    lendAllowed d r = (l.borrower == r.src && decide (r.offset + lendLength r ≤ l.size)) := by
  unfold lendAllowed
  rw [h]
  rfl

/-- What a lend serves: the bytes of a read, the store of a write, or nothing. -/
theorem serveLend_spec {d : Dev} {r : LendReq} {l : Lend} (hq : quietMemory d) (hrun : d.hub.hardHalted = false)
    (hlend : tget d.fabric.lends r.lend = some l) (hcheck : r.check = .clean)
    (hclear : lendAllowed d r = true → memClear d (l.base + r.offset) (lendLength r)) :
    ∃ c m f, serveLend d r = ({ d with counters := c, mem.cells := m, mem.flips := f }, if lendAllowed d r = true then
        some (if r.write.isNone then cellsRead d.mem.cells (l.base + r.offset) r.len else []) else none) ∧
      ∀ z, cellGet m z = match r.write with
        | some b => if lendAllowed d r = true ∧ l.base + r.offset ≤ z ∧ z < l.base + r.offset + b.length then
            b.getD (z - (l.base + r.offset)) 0 else byteAt d z
        | none => byteAt d z := by
  have hbase : ((tget d.fabric.lends r.lend).map (·.base)).getD 0 = l.base := by rw [hlend]; rfl
  cases hallowed : lendAllowed d r with
  | false =>
    refine ⟨d.counters, d.mem.cells, d.mem.flips, ?_, fun z => ?_⟩
    · simp [serveLend, hallowed]
    · cases r.write <;> simp [byteAt]
  | true =>
    have hclear := hclear hallowed
    have hserved : (d.hub.hardHalted || !(lendAllowed d r) || r.write.isSome && r.check == .uncorrectable) = false := by
      simp [hrun, hallowed, hcheck]
    unfold serveLend
    rw [hserved, if_neg (by simp), hbase]
    dsimp only
    cases hw : r.write with
    | none =>
      rw [lendLength, hw] at hclear
      obtain ⟨c, hread⟩ := readMem_of_clear hclear none
      refine ⟨c, d.mem.cells, d.mem.flips, ?_, fun z => rfl⟩
      dsimp only
      rw [hread]
      rfl
    | some b =>
      rw [lendLength, hw] at hclear
      obtain ⟨c, f, hwrite⟩ := writeMem_beside_of_clear hq.1.2 hclear
      refine ⟨c, cellsWrite d.mem.cells (l.base + r.offset) b, f, ?_, fun z => ?_⟩
      · dsimp only
        rw [hwrite]
        rfl
      · simpa using cellGet_cellsWrite (cellsWf_of_plainMemory hq.1) (l.base + r.offset) b z

/-- The message with which a lender answers: what a read brought, nothing for a write, or an error. -/
def lendAnswer (r : LendReq) (x : Option Bytes) : FabMsg :=
  { dest := r.src, src := 0, cls := 1, op := ofBool r.write.isSome, hops := 0, inject := 0, tag := r.tag
    error := x.isNone, info := lendInfo r.lend r.offset r.len, body := x.getD [] }

/-- What the borrower gets, where all its bytes are stored without error. -/
def lendServed (d : Dev) (r : LendReq) (a : Nat) : Option Bytes :=
  if lendAllowed d r = true then some (if r.write.isNone then cellsRead d.mem.cells a r.len else []) else none

theorem lendRequest_of_served {d e : Dev} {q : Nat} {r : LendReq} {x : Option Bytes} (hup : Safety.linkUp d q) (hcheck : r.check = .clean)
    (hserve : serveLend d r = (e, x)) : lendRequest q r d = (injectMsg e (lendAnswer r x)).1 := by
  obtain ⟨hq, -, hst, -⟩ := hup
  have hportUp : portUp d q = true := st_up hst
  have hopen : ¬((decide (6 < q) || decide (q < 6) && !(portUp d q)) = true) := by simp [hportUp]; omega
  have hnote : (if r.write.isSome = true then notePayload d q r.check none else d) = d := by
    rw [hcheck]
    split <;> rfl
  rw [lendRequest, if_neg hopen, hnote, hserve]
  rfl

/-- A lend that is served: the answer leaves, and memory takes what was written. -/
theorem lendRequest_spec {d : Dev} {q out : Nat} {dl : Bool} {r : LendReq} {l : Lend} (hq : quietMemory d) (hup : Safety.linkUp d q)
    (hrun : d.hub.hardHalted = false) (hlend : tget d.fabric.lends r.lend = some l)
    (hroute : routeOf d 6 r.src 1 0 false = .out out dl) (hcheck : r.check = .clean)
    (hcan : canLeave d out { lendAnswer r (lendServed d r (l.base + r.offset)) with
      src := d.fabric.coord, inject := BitVec.ofNat 32 (deviceTime d), hops := 1, dl := dl })
    (hclear : lendAllowed d r = true → memClear d (l.base + r.offset) (lendLength r)) :
    hasLeft d (lendRequest q r d) out { lendAnswer r (lendServed d r (l.base + r.offset)) with
      src := d.fabric.coord, inject := BitVec.ofNat 32 (deviceTime d), hops := 1, dl := dl } ∧
    (∀ z, byteAt (lendRequest q r d) z = match r.write with
      | some b => if lendAllowed d r = true ∧ l.base + r.offset ≤ z ∧ z < l.base + r.offset + b.length then
          b.getD (z - (l.base + r.offset)) 0 else byteAt d z
      | none => byteAt d z) ∧ (lendRequest q r d).granary = d.granary := by
  obtain ⟨c, m, f, hserve, hbytes⟩ := serveLend_spec hq hrun hlend hcheck hclear
  have heq := lendRequest_of_served hup hcheck hserve
  obtain ⟨hleft, hmem⟩ := injectMsg_of_idle (d := { d with counters := c, mem.cells := m, mem.flips := f })
    (m := lendAnswer r (lendServed d r (l.base + r.offset))) hroute hcan
  have hgranary := (traffic_injectMsg { d with counters := c, mem.cells := m, mem.flips := f }
    (lendAnswer r (lendServed d r (l.base + r.offset)))).granary_eq
  rw [heq]
  refine ⟨hleft, fun z => ?_, hgranary⟩
  have hcells := congrArg Memory.cells hmem
  exact (congrArg (cellGet · z) hcells).trans (hbytes z)

/-! ## The time base (R323, R324) -/

/-- The parent that is found, if one is. -/
def withParent (p : Option Nat) (d : Dev) : Dev := match p with
  | some q => { d with fabric.parent := some q, fabric.holdover := false }
  | none => d

theorem findParent_eq (d : Dev) : findParent d = withParent (pickParent d none) d := by
  unfold findParent withParent
  cases pickParent d none <;> rfl

theorem withParent_granary (p : Option Nat) (d : Dev) : (withParent p d).granary = d.granary := by cases p <;> rfl

/-- The clock's offset of an exchange, as this device takes it. -/
def takeOffset (d e : Dev) (off : Int) : Dev :=
  if d.fabric.coord = d.fabric.root ∨ d.fabric.parent = none then e
  else if d.fabric.locked = false ∧ d.power.ready = false then { e with fabric.locked := true, clock.offset := d.clock.offset + off }
  else { e with fabric.locked := true, fabric.slew := off }

theorem takeOffset_granary (d e : Dev) (off : Int) : (takeOffset d e off).granary = e.granary := by
  unfold takeOffset
  split
  · rfl
  · split <;> rfl

theorem timeSync_eq (t1 t2 t3 t4 : Nat) (unsynced : List Nat) (d : Dev) :
    timeSync t1 t2 t3 t4 unsynced d = withParent (pickParent (noteUnsynced unsynced d) none)
      (takeOffset d (noteUnsynced unsynced d) (syncOffset t1 t2 t3 t4)) := by
  have hroot : (decide ((noteUnsynced unsynced d).fabric.coord = (noteUnsynced unsynced d).fabric.root) ||
      (noteUnsynced unsynced d).fabric.parent.isNone) = true ↔ d.fabric.coord = d.fabric.root ∨ d.fabric.parent = none := by
    simp [noteUnsynced]
  have hfirst : (!(noteUnsynced unsynced d).fabric.locked && !(noteUnsynced unsynced d).power.ready) = true ↔
      d.fabric.locked = false ∧ d.power.ready = false := by simp [noteUnsynced]
  unfold timeSync takeOffset
  dsimp only
  by_cases h : d.fabric.coord = d.fabric.root ∨ d.fabric.parent = none
  · rw [if_pos h, if_pos (hroot.mpr h), findParent_eq]
  · rw [if_neg h, if_neg (fun h' => h (hroot.mp h'))]
    by_cases h' : d.fabric.locked = false ∧ d.power.ready = false
    · rw [if_pos h', if_pos (hfirst.mpr h'), findParent_eq]
      rfl
    · rw [if_neg h', if_neg (fun h'' => h' (hfirst.mp h'')), findParent_eq]
      rfl

/-! ## The statement -/

/-- Settles O52: messages on their way, responses, requests without response, lends, and the time base, one by one. -/
theorem fabricMessagesAndTime : Obligations.FabricMessagesAndTime := by
  unfold Obligations.FabricMessagesAndTime
  refine ⟨fun s q m hp hup hclean => ?message, fun s tag r o hw hfind hop => ?timeout,
    fun s q out dl r l hp hq hup hrun hlend hroute => ?lend,
    fun s t1 t2 t3 t4 unsynced hp => ?sync, fun s q hp hstalls hparent => ?loss⟩
  case message =>
    intro vc n freed
    refine ⟨fun out dl hroute hne hcan => ?_, fun hroute hcls hrun => ?_, fun r hroute hcls hrun hidle hfind => ?_⟩
    · obtain ⟨hleft, hport, hmem, hgranary⟩ := messageIn_routed hup hclean hroute hne hcan
      exact ⟨_, act_live hp rfl hgranary, hleft, hport, hmem⟩
    · obtain ⟨hrec, hport, hmem, hgranary⟩ := messageIn_unroutable hup hclean hroute hcls hrun
      exact ⟨_, act_live hp rfl hgranary, hrec, hport, hmem⟩
    · have heq := fabMessage_of_response hup hclean hroute hcls hrun hidle
      obtain ⟨b, e⟩ := freeFlits_frame s.dev q m
      rw [e] at heq
      refine ⟨fun hu he hbody => ?_, fun o hop hfail hbody => ?_⟩
      · split
        next hread =>
          obtain ⟨hreq, hmem, hremote, hfetched, hgranary⟩ := readResponse_spec
            { s.dev with fabric.ports := modAt s.dev.fabric.ports q (takenFrom m), out.flits := b } r m.tag (m.body.take r.len)
          exact ⟨_, act_live hp (heq.trans (takeResponse_of_read hfind hbody hu he hread)) hgranary, hreq, hmem, hremote, hfetched⟩
        next hwrite =>
          exact ⟨_, act_live hp (heq.trans (takeResponse_of_write hfind hbody hu he (by simpa using hwrite))) rfl, rfl, rfl, rfl⟩
      · obtain ⟨hend, hfabric, hmem, hgranary⟩ := failRequest_spec (d := withoutTag { s.dev with
          fabric.ports := modAt s.dev.fabric.ports q (takenFrom m), out.flits := b } m.tag) (n := r.op) hop
          (if m.unreachable then 0x3A else 0x3B)
        exact ⟨_, act_live hp (heq.trans (takeResponse_of_failed hfind hbody hfail)) hgranary, hend, congrArg Fabric.requests hfabric, hmem⟩
  case timeout =>
    split
    next hdue =>
      obtain ⟨hend, hfabric, hmem, hgranary⟩ := failRequest_spec (d := withoutTag s.dev tag) (n := r.op) hop 0x3A
      have heq : requestTimeout tag s.dev = failRequest (withoutTag s.dev tag) r.op 0x3A := by
        unfold requestTimeout
        rw [hfind]
        exact if_pos hdue
      exact ⟨_, act_running hw heq (hgranary ▸ hw.2.2), hend, hfabric, hmem⟩
    next hearly =>
      refine act_running_same hw ?_
      unfold requestTimeout
      rw [hfind]
      exact if_neg hearly
  case lend =>
    intro len a allowed hcheck answer hcan hclear
    have hallowed : lendAllowed s.dev r = allowed := lendAllowed_eq hlend
    have hserved : lendServed s.dev r a = if allowed = true then
        some (if r.write.isNone then cellsRead s.dev.mem.cells a r.len else []) else none := by rw [lendServed, hallowed]
    have hanswer : answer = { lendAnswer r (lendServed s.dev r a) with
        src := s.dev.fabric.coord, inject := BitVec.ofNat 32 (deviceTime s.dev), hops := 1, dl := dl } := by
      rw [hserved]
      unfold answer
      cases allowed with
      | true => rfl
      | false => rfl
    rw [hanswer] at hcan ⊢
    obtain ⟨hleft, hbytes, hgranary⟩ := lendRequest_spec hq hup hrun hlend hroute hcheck hcan fun h => hclear (hallowed ▸ h)
    rw [hallowed] at hbytes
    exact ⟨_, act_live hp rfl hgranary, hleft, hbytes⟩
  case sync =>
    exact act_live hp (timeSync_eq ..) ((withParent_granary ..).trans (takeOffset_granary ..))
  case loss =>
    split
    next p hpick =>
      refine act_live hp ?_ rfl
      unfold parentLoss
      rw [hparent]
      dsimp only
      rw [hpick]
    next hpick =>
      have heq : parentLoss s.dev =
          logEvent { s.dev with fabric.parent := none, fabric.holdover := true } evTimeHoldover (.port q) 0 := by
        unfold parentLoss
        rw [hparent]
        dsimp only
        rw [hpick]
      exact ⟨_, act_live hp heq (logEvent_granary ..), logEvent_fabric .., fun hrun => recorded_logEvent
        (d := { s.dev with fabric.parent := none, fabric.holdover := true }) hrun evTimeHoldover (.port q) 0, logEvent_mem ..⟩

end Sys2Proof.MessageProofs
end

section
/-! SUPPORT. MBX_COMPLETE of a mailbox whose vector is past the last of MSI-X (R381, R429, 17 Table 17.4): a device at which the statement
on the mailbox protocol fails. -/

namespace Sys2Proof.VectorProofs

open Sys2Proof Sys2Proof.Machine Sys2Proof.Safety Sys2Proof.HostProofs Sys2Proof.RingProofs Sys2Proof.Tests

/-- A mailbox whose response is made up and waits to be written. -/
def answeredBox : Mailbox := { st := .busy, answer := some (mbOk []) }

/-- A device with one such mailbox after `n` idle ones, whose host has enabled MSI-X and unmasked the vector of that mailbox. -/
def manyMailboxes (n : Nat) : Dev :=
  { readyDev with
    host.msixEnable := true, host.msixMask := false, host.msix := [(1 + n, { masked := false })]
    iabor.mbx := List.replicate n {} ++ [answeredBox] }

theorem mailbox_last (n : Nat) : (manyMailboxes n).iabor.mbx[n]? = some answeredBox := by
  show (List.replicate n ({} : Mailbox) ++ [answeredBox])[n]? = some answeredBox
  simp

/-- The mailbox with its response written. -/
def completed (d : Dev) (n : Nat) : Dev :=
  { d with iabor.mbx := modAt d.iabor.mbx n fun b =>
      { b with st := .done, doneCount := b.doneCount + 1, answer := none
               resp := splice b.resp 0 (responseHeader b (mbOk []) ++ (mbOk []).body) } }

/-- The response is written; a vector that MSI-X does not have is not raised. -/
theorem mbxComplete_last {n : Nat} (h : 2048 ≤ 1 + n) : mbxComplete n (manyMailboxes n) = completed (manyMailboxes n) n := by
  have hraise (d : Dev) : raiseVector d (1 + n) = d := if_pos h
  unfold mbxComplete
  rw [mailbox_last]
  exact hraise (completed (manyMailboxes n) n)

/-- Refutes O57, at its clause on MBX_COMPLETE: it has every completion under MSI-X enabled and unmasked send vector 1 + m, and is of every
list of mailboxes. Of mailbox 2,047 that vector does not exist (R429), and none is sent. Where MSI-X is masked the clause has the premise
1 + m < 2,048; where it is not, the premise is missing. -/
theorem not_mailboxProtocol : ¬ Obligations.MailboxProtocol := by
  unfold Obligations.MailboxProtocol
  rintro ⟨-, -, -, hcomplete, -⟩
  obtain ⟨hanswered, -⟩ := hcomplete (stateOf (manyMailboxes 2047)) 2047 answeredBox ⟨rfl, rfl⟩ (mailbox_last 2047)
  obtain ⟨-, hvector, -⟩ := of_acts (hanswered (mbOk []) rfl rfl rfl rfl) (act_live ⟨rfl, rfl⟩ (mbxComplete_last (by omega)) rfl)
  have hunmasked : (tgetD (manyMailboxes 2047).host.msix (1 + 2047) {}).masked = false := by decide
  rw [if_pos ⟨rfl, rfl, hunmasked⟩] at hvector
  have hsent : (manyMailboxes 2047).out.msix = (manyMailboxes 2047).out.msix ++ [1 + 2047] := hvector.1
  exact absurd hsent (by simp)

end Sys2Proof.VectorProofs
end

section
/-! SUPPORT. Firmware images and sanitising: staging, activation and its end, commit, and MB_SANITISE (R387, R389, R392 to R394, R400). -/

namespace Sys2Proof.FirmwareProofs

open Sys2Proof Sys2Proof.Machine Sys2Proof.Safety Sys2Proof.HostProofs Sys2Proof.OrgProofs Sys2Proof.RingProofs Sys2Proof.BadgerProofs
  Sys2Proof.StepProofs Sys2Proof.MailboxProofs Sys2Proof.IaborProofs Sys2Proof.HostMemoryProofs Sys2Proof.LinkProofs

/-! ## Images in memory (R387) -/

/-- Nothing has changed but the event counters and what the mailboxes keep. -/
def Aside (d d' : Dev) : Prop := ∃ c i, d' = { d with counters := c, iabor := i }

namespace Aside
variable {d d' : Dev}

theorem counted (d : Dev) (c : Counters) : Aside d { d with counters := c } := ⟨c, d.iabor, rfl⟩

theorem pointed (d : Dev) (m : Nat) : Aside d (MailboxProofs.pointed d m) := ⟨d.counters, _, rfl⟩

theorem flips_eq (h : Aside d d') : d'.mem.flips = d.mem.flips := by
  obtain ⟨_, _, rfl⟩ := h
  rfl

theorem rangeRegion_eq (h : Aside d d') (a n : Nat) : rangeRegion d' a n = rangeRegion d a n := by
  obtain ⟨_, _, rfl⟩ := h
  rfl

/-- The place of the line stays opaque in this proof, as in `tablesFrame.lineFault_eq`. -/
theorem lineFault_eq (h : Aside d d') : lineFault d' = lineFault d := by
  obtain ⟨c, i, rfl⟩ := h
  have hplace (line : Nat) : gddrLocate { d with counters := c, iabor := i } line = gddrLocate d line := rfl
  delta lineFault
  funext line
  rw [hplace]
  cases gddrLocate d line with
  | none => rfl
  | some p => rfl

theorem hostEntry_eq (h : Aside d d') (hflips : d.mem.flips = []) : hostEntry d' = hostEntry d := by
  funext page
  rw [hostEntry_of_flips (h.flips_eq.trans hflips), hostEntry_of_flips hflips]
  obtain ⟨_, _, rfl⟩ := h
  rfl

theorem accessFault_eq (h : Aside d d') (hflips : d.mem.flips = []) (a n : Nat) (write : Bool) :
    accessFault d' a n write = accessFault d a n write := by
  have hline := h.lineFault_eq
  have hregion := h.rangeRegion_eq a n
  have hpage : hostPageFault d' write = hostPageFault d write := by
    funext page
    simp only [hostPageFault, h.hostEntry_eq hflips, wordCheck_of_flips hflips, wordCheck_of_flips (h.flips_eq.trans hflips)]
    obtain ⟨_, _, rfl⟩ := h
    rfl
  unfold accessFault
  rw [hregion, hline, hpage]
  obtain ⟨_, _, rfl⟩ := h
  rfl

theorem inGddrOrHost_eq (h : Aside d d') (a n : Nat) : inGddrOrHost d' a n = inGddrOrHost d a n := by
  rw [inGddrOrHost, h.rangeRegion_eq, inGddrOrHost]

theorem rawRead_eq (h : Aside d d') (hflips : d.mem.flips = []) (a n : Nat) : rawRead d' a n = rawRead d a n := by
  have hentry := h.hostEntry_eq hflips
  have hregion : regionOf d' a = regionOf d a := by
    obtain ⟨_, _, rfl⟩ := h
    rfl
  simp only [rawRead, hregion, hostBus, hentry]
  obtain ⟨_, _, rfl⟩ := h
  rfl

end Aside

/-- A read beside an operation, where no word of memory holds an error. -/
theorem readMem_of_sound {d : Dev} {a n : Nat} (hflips : d.mem.flips = []) (hfault : accessFault d a n false = none) :
    ∃ c, readMem d none a n = ({ d with counters := c }, .ok (rawRead d a n)) := by
  obtain ⟨c, hcount⟩ := countAccess_frame d false a n none
  have hnote : noteEntries { d with counters := c } a n none = { d with counters := c } :=
    noteEntries_of_flips (d := { d with counters := c }) hflips a n none
  have hpeer : peerRequests { d with counters := c } false a [] n none = { d with counters := c } := by
    unfold peerRequests
    split
    · contradiction
    · rfl
  refine ⟨c, ?_⟩
  unfold readMem
  rw [hfault]
  dsimp only
  rw [hcount, hnote, hpeer, flipsIn_of_flips hflips]
  split <;> rfl

/-- A read that fails names the status of its fault. -/
theorem readMem_of_fault {d : Dev} {a n : Nat} {f : Byte × Option Nat} (h : accessFault d a n false = some f) :
    (readMem d none a n).2 = .error f.1 := by
  unfold readMem
  rw [h]

/-- All that an image in memory takes up can be read. -/
def imageOpen (d : Dev) (a n : Nat) : Prop := inGddrOrHost d a n = true ∧ accessFault d a n false = none

theorem Aside.imageOpen_iff {d d' : Dev} (h : Aside d d') (hflips : d.mem.flips = []) (a n : Nat) : imageOpen d' a n ↔ imageOpen d a n := by
  rw [imageOpen, h.inGddrOrHost_eq, h.accessFault_eq hflips, imageOpen]

/-- A read that succeeds was open, and delivers the bytes as stored. -/
theorem readMem_ok {d e : Dev} {a n : Nat} {b : Bytes} (hflips : d.mem.flips = []) (h : readMem d none a n = (e, .ok b)) :
    accessFault d a n false = none ∧ Aside d e ∧ b = rawRead d a n := by
  cases hfault : accessFault d a n false with
  | some f =>
    have := readMem_of_fault hfault
    rw [h] at this
    cases this
  | none =>
    obtain ⟨c, hread⟩ := readMem_of_sound hflips hfault
    obtain ⟨rfl, rfl⟩ : { d with counters := c } = e ∧ rawRead d a n = b := by
      have := hread.symm.trans h
      simpa using this
    exact ⟨rfl, .counted d c, rfl⟩

section Image
variable {d : Dev} {off a head : Nat} {size : Bytes → Nat} {img : Bytes} (hflips : d.mem.flips = [])
include hflips

/-- What the read of an image that succeeded says of memory. -/
theorem readImage_ok (h : (readImage d off a head size).2 = .ok img) :
    imageOpen d a head ∧ ∃ n, n = max head (size (rawRead d a head)) ∧ imageOpen d a n ∧ img = rawRead d a n := by
  unfold readImage at h
  split at h
  · cases h
  next hin =>
    split at h
    · cases h
    next d1 b hread =>
      obtain ⟨hfault, haside, rfl⟩ := readMem_ok hflips hread
      refine ⟨⟨by simpa using hin, hfault⟩, _, rfl, ?_⟩
      dsimp only at h
      generalize max head (size (rawRead d a head)) = n at h ⊢
      split at h
      · cases h
      next hin' =>
        split at h
        · cases h
        next d2 b' hread' =>
          obtain ⟨hfault', -, rfl⟩ := readMem_ok (haside.flips_eq.trans hflips) hread'
          refine ⟨(haside.imageOpen_iff hflips a n).mp ⟨by simpa using hin', hfault'⟩, ?_⟩
          rw [← haside.rawRead_eq hflips]
          exact (Except.ok.inj h).symm

theorem readImage_of_open {n : Nat} (hhead : imageOpen d a head) (hn : n = max head (size (rawRead d a head))) (hall : imageOpen d a n) :
    ∃ c, readImage d off a head size = ({ d with counters := c }, .ok (rawRead d a n)) := by
  obtain ⟨c, hread⟩ := readMem_of_sound hflips hhead.2
  have haside := Aside.counted d c
  obtain ⟨hin', hfault'⟩ := (haside.imageOpen_iff hflips a n).mpr hall
  obtain ⟨c', hread'⟩ := readMem_of_sound (haside.flips_eq.trans hflips) hfault'
  have hraw := haside.rawRead_eq hflips a n
  refine ⟨c', ?_⟩
  unfold readImage
  rw [hhead.1, if_neg (by simp), hread]
  dsimp only
  rw [← hn, hin', if_neg (by simp), hread', hraw]

end Image

/-- An image is read as well with the arbiter of the mailboxes elsewhere. -/
theorem readImage_pointed {d : Dev} {off a head m : Nat} {size : Bytes → Nat} {img : Bytes} (hflips : d.mem.flips = [])
    (h : (readImage d off a head size).2 = .ok img) :
    ∃ c, readImage (pointed d m) off a head size = ({ pointed d m with counters := c }, .ok img) := by
  have haside := Aside.pointed d m
  obtain ⟨hhead, n, hn, hall, rfl⟩ := readImage_ok hflips h
  rw [← haside.rawRead_eq hflips] at hn
  obtain ⟨c, hread⟩ := readImage_of_open (off := off) (size := size) (haside.flips_eq.trans hflips)
    ((haside.imageOpen_iff hflips a head).mpr hhead) hn ((haside.imageOpen_iff hflips a n).mpr hall)
  exact ⟨c, by rw [hread, haside.rawRead_eq hflips]⟩

/-! ## Staging and activation (R389, R392, R393) -/

/-- The slot that holds a staged image. -/
def stagedSlot (x : Bytes) (o : FwSlot) : FwSlot :=
  { st := 1, preferred := o.preferred && o.st == 3, svn := fld x 12 1, version := BitVec.ofNat 32 (fld x 8 4), manifest := slice x 0 1280 }

/-- What MB_FW_STAGE makes of an image. -/
def stage (d : Dev) (ok : Bool) (x : Bytes) : Dev × MbxResponse :=
  let k := 1 - d.iabor.running
  match imageRefused d x with
  | some r => (d, r)
  | none =>
    if ok = false then (modSlot d k fun _ => {}, mbEnd 9)
    else (modSlot d k (stagedSlot x), mbOk (leBytes 1 k ++ leBytes 1 (fld x 12 1) ++ leBytes 2 0 ++ leBytes 4 (fld x 8 4)))

theorem mbFwStage_of_read {d e : Dev} {ok : Bool} {m : Nat} {body img : Bytes}
    (h : readImage d 0 (fld body 0 8) 1280 (fun _ => fld body 8 4) = (e, .ok img)) (hrunning : e.iabor = d.iabor) :
    (mbFwStage ok).run m body d = stage e ok (img.take (fld body 8 4)) := by
  unfold mbFwStage stage
  dsimp only
  rw [h, hrunning]
  dsimp only
  cases imageRefused e (img.take (fld body 8 4)) with
  | some r => rfl
  | none => cases ok <;> rfl

/-- Only the slots of the flash differ, and the counters of accesses. -/
theorem stage_granary (d : Dev) (ok : Bool) (x : Bytes) : (stage d ok x).1.granary = d.granary := by
  unfold stage
  dsimp only
  split
  · rfl
  · split <;> rfl

/-- A switch of firmware is refused, or begins. -/
theorem mbFwActivate_run (d : Dev) (m : Nat) (body : Bytes) : mbFwActivate.run m body d = match slotFault d (fld body 0 1) with
    | some r => (d, r)
    | none => ({ d with iabor.activation := some { mbx := m, slot := fld body 0 1, since := deviceTime d } }, mbHeld) := by
  rfl

/-! ## The end of a switch (R393) -/

theorem modAt_getD_same {α : Type} {l : List α} {k : Nat} (h : k < l.length) (f : α → α) (x : α) : (modAt l k f).getD k x = f (l.getD k x) := by
  rw [List.getD_eq_getElem?_getD, getElem?_modAt_same (List.getElem?_eq_getElem h), List.getD_eq_getElem _ _ h, Option.getD_some]

theorem modAt_getD_other {α : Type} (l : List α) {k j : Nat} (f : α → α) (x : α) (h : j ≠ k) : (modAt l k f).getD j x = l.getD j x := by
  rw [List.getD_eq_getElem?_getD, getElem?_modAt_other l f h, ← List.getD_eq_getElem?_getD]

/-- The response of a held command is ready. -/
theorem responds_answerMbx {d : Dev} {m : Nat} {b : Mailbox} (h : d.iabor.mbx[m]? = some b) (hheld : b.answer = some mbHeld)
    (r : MbxResponse) : responds (answerMbx d m r) m r := by
  unfold responds answerMbx
  rw [getElem?_modAt_same h, hheld]
  rfl

/-- The device with the image of a slot running on trial. -/
def switched (d : Dev) (slot : Nat) : Dev :=
  let d1 := modSlot { endSwitch d with iabor.running := slot, iabor.up := true } slot fun s => { s with st := 2 }
  if romServes d then { d1 with
    power.noFw := false
    power.phase := if d1.power.phase = 2 then 3 else d1.power.phase
    iabor.mbx := d1.iabor.mbx.map fun b => if b.st = .noFirmware then { b with st := .idle } else b }
  else d1

theorem fwReady_eq {d : Dev} {a : Activation} (h : d.iabor.activation = some a) : fwReady d =
    if a.since + 2000000000 < deviceTime d then d else answerMbx (switched d a.slot) a.mbx (mbOk (leBytes 8 (deviceTime d))) := by
  unfold fwReady
  rw [h]
  rfl

theorem switched_spec {d : Dev} {slot : Nat} (hslot : slot < d.flash.slots.length) :
    let d' := switched d slot
    d'.iabor.activation = none ∧ d'.iabor.running = slot ∧ d'.iabor.up = true ∧ (fwSlot d' slot).st = 2 ∧
    (∀ k, k ≠ slot → fwSlot d' k = fwSlot d k) ∧ d'.power.noFw = (d.power.noFw && !(romServes d)) ∧
    { d' with iabor := d.iabor, flash := d.flash, power.noFw := d.power.noFw, power.phase := d.power.phase } = d ∧
    ∀ (m : Nat) (b : Mailbox), d.iabor.mbx[m]? = some b → b.st = .busy → d'.iabor.mbx[m]? = some b := by
  have hsame : (modAt d.flash.slots slot fun s => { s with st := 2 }).getD slot {} = { d.flash.slots.getD slot {} with st := 2 } :=
    modAt_getD_same hslot _ _
  have hother (k : Nat) (hk : k ≠ slot) :
      (modAt d.flash.slots slot fun s => { s with st := 2 }).getD k {} = d.flash.slots.getD k {} := modAt_getD_other _ _ _ hk
  unfold switched
  cases hrom : romServes d with
  | false => exact ⟨rfl, rfl, rfl, congrArg FwSlot.st hsame, hother, (Bool.and_true _).symm, rfl, fun m b hb _ => hb⟩
  | true =>
    refine ⟨rfl, rfl, rfl, congrArg FwSlot.st hsame, hother, (Bool.and_false _).symm, rfl, fun m b hb hbusy => ?_⟩
    refine List.getElem?_map.trans ((congrArg (Option.map _) hb).trans ?_)
    simp [hbusy]

theorem fwActivateTimeout_eq {d : Dev} {a : Activation} (h : d.iabor.activation = some a) (refused : Bool) : fwActivateTimeout refused d =
    if refused = true ∨ a.since + 2000000000 ≤ deviceTime d then
      answerMbx (logEvent (endSwitch d) evFwActivateFailed (.core 0 1) 0) a.mbx (mbEnd 9 (if refused then 2 else 1))
    else d := by
  unfold fwActivateTimeout
  rw [h]
  dsimp only
  cases refused with
  | true => rfl
  | false =>
    by_cases hdue : a.since + 2000000000 ≤ deviceTime d
    · rw [if_neg (by simpa using hdue), if_pos (Or.inr hdue)]
    · rw [if_pos (by simpa using hdue), if_neg (by simpa using hdue)]

/-! ## Fuses (R394) -/

/-- The floor is one more than the highest fuse that is blown. -/
theorem floor_eq {p : Nat → Bool} {n f : Nat} (hle : f ≤ n) (hnone : ∀ i, f ≤ i → i < n → p i = false) (hlast : f = 0 ∨ p (f - 1) = true) :
    (List.range n).foldl (fun f i => if p i then i + 1 else f) 0 = f := by
  induction n with
  | zero => simpa using (Nat.le_zero.mp hle).symm
  | succ n ih =>
    rw [List.range_succ, List.foldl_append, List.foldl_cons, List.foldl_nil]
    by_cases hf : f = n + 1
    · subst hf
      rw [if_pos (by simpa using hlast)]
    · rw [if_neg (by simp [hnone n (by omega) (by omega)])]
      exact ih (by omega) fun i hi hn => hnone i hi (by omega)

theorem floor_spec (p : Nat → Bool) (n : Nat) : ∃ f, (List.range n).foldl (fun f i => if p i then i + 1 else f) 0 = f ∧ f ≤ n ∧
    (∀ i, f ≤ i → i < n → p i = false) ∧ (f = 0 ∨ p (f - 1) = true) := by
  induction n with
  | zero => exact ⟨0, rfl, le_rfl, fun i _ hi => absurd hi (by omega), .inl rfl⟩
  | succ n ih =>
    obtain ⟨f, hf, hle, hnone, hlast⟩ := ih
    rw [List.range_succ, List.foldl_append, List.foldl_cons, List.foldl_nil, hf]
    by_cases hp : p n = true
    · exact ⟨n + 1, if_pos hp, le_rfl, fun i hi hn => absurd hn (by omega), .inr hp⟩
    · refine ⟨f, if_neg hp, by omega, fun i hi hn => ?_, hlast⟩
      by_cases hin : i = n
      · rw [hin]
        simpa using hp
      · exact hnone i hi (by omega)

/-- The fuses from `old` on, as many as were blown. -/
theorem getLsbD_blown (w : BitVec 64) (old n i : Nat) (hi : i < 64) :
    ((List.range n).foldl (fun f i => f ||| BitVec.twoPow 64 (old + i)) w).getLsbD i =
      (w.getLsbD i || decide (old ≤ i ∧ i < old + n)) := by
  induction n with
  | zero => simp
  | succ n ih =>
    rw [List.range_succ, List.foldl_append, List.foldl_cons, List.foldl_nil, BitVec.getLsbD_or, ih, BitVec.getLsbD_twoPow]
    by_cases h : old + n = i
    · simp [h, hi]
      omega
    · have : (old ≤ i ∧ i < old + (n + 1)) ↔ (old ≤ i ∧ i < old + n) := by omega
      simp [h, this]

theorem fwFloor_congr {d e : Dev} (h : e.flash.fuses = d.flash.fuses) : fwFloor e = fwFloor d := by
  unfold fwFloor
  rw [h]

/-- Blowing the next fuses raises the floor by their number (R394). -/
theorem fwFloor_blown {d e : Dev} {n : Nat} (hfuses : e.flash.fuses =
      (List.range n).foldl (fun f i => f ||| BitVec.twoPow 64 (fwFloor d + i)) d.flash.fuses) (hle : fwFloor d + n ≤ 64) :
    fwFloor e = fwFloor d + n := by
  obtain ⟨f, hf, -, hnone, hlast⟩ := floor_spec d.flash.fuses.getLsbD 64
  have hfloor : fwFloor d = f := hf
  rw [hfloor] at hfuses hle ⊢
  refine floor_eq hle (fun i hi hn => ?_) ?_
  · rw [hfuses, getLsbD_blown _ _ _ _ hn, hnone i (by omega) hn]
    simp
    omega
  · obtain rfl | hn := Nat.eq_zero_or_pos n
    · exact hlast.imp_right fun h => by rw [hfuses]; exact h
    · refine .inr ?_
      rw [hfuses, getLsbD_blown _ _ _ _ (by omega)]
      simp
      omega

/-! ## Commit (R394) -/

/-- The running image is committed and preferred, where it was on trial. -/
def committed (d : Dev) : Dev :=
  let k := d.iabor.running
  if (fwSlot d k).st = 2 then modSlot (modSlot d k fun s => { s with st := 3, preferred := true }) (1 - k) fun s => { s with preferred := false }
  else d

/-- Fuses that a commit needs. -/
def fusesNeeded (d : Dev) (body : Bytes) : Nat := if bit (fld body 0 1) 0 then (fwSlot d d.iabor.running).svn - fwFloor d else 0

/-- The device with the next fuses blown. -/
def blown (d : Dev) (old n : Nat) : Dev :=
  { d with flash.fuses := (List.range n).foldl (fun f i => f ||| BitVec.twoPow 64 (old + i)) d.flash.fuses }

/-- A slot's image is below the floor, and is dropped. -/
def belowFloor (d : Dev) (k : Nat) : Bool :=
  (fwSlot d k).st != 0 && (fwSlot d k).st != 4 && decide ((fwSlot d k).svn < fwFloor d)

/-- An image below the floor is marked so. -/
def dropImage (d : Dev) (k : Nat) : Dev := if belowFloor d k then modSlot d k fun s => { s with st := 4 } else d

theorem mbFwCommit_run (blow m : Nat) (body : Bytes) (d : Dev) :
    (mbFwCommit blow).run m body d =
      (let need := fusesNeeded d body
       let d2 := blown (committed d) (fwFloor d) (min need blow)
       let d3 := dropImage d2 (1 - d.iabor.running)
       (d3, if min need blow < need then mbEnd 9 else
         mbOk (leBytes 1 (fwFloor d3) ++ leBytes 1 (ofBool (belowFloor d2 (1 - d.iabor.running)))))) := by
  have hpair (c : Prop) [Decidable c] (e : Dev) (r r' : MbxResponse) : (if c then (e, r) else (e, r')) = (e, if c then r else r') := by
    split <;> rfl
  exact hpair ..

section Commit
variable {d : Dev} {k : Nat} (hlen : d.flash.slots.length = 2) (hrunning : d.iabor.running = k) (hk : k < 2)

theorem committed_frame (d : Dev) : ∃ l, committed d = { d with flash.slots := l } := by
  unfold committed
  dsimp only
  split
  · exact ⟨_, rfl⟩
  · exact ⟨_, rfl⟩

include hlen hrunning hk in
theorem committed_slots : fwSlot (committed d) k =
      (if (fwSlot d k).st = 2 then { fwSlot d k with st := 3, preferred := true } else fwSlot d k) ∧
    fwSlot (committed d) (1 - k) =
      { fwSlot d (1 - k) with preferred := (fwSlot d (1 - k)).preferred && (fwSlot d k).st != 2 } ∧
    (committed d).flash.slots.length = 2 := by
  have hne : 1 - k ≠ k := by omega
  have hother : 1 - k < d.flash.slots.length := by omega
  unfold committed
  dsimp only
  rw [hrunning]
  by_cases h : (fwSlot d k).st = 2
  · rw [if_pos h, if_pos h]
    refine ⟨?_, ?_, ?_⟩
    · exact (modAt_getD_other _ _ _ hne.symm).trans (modAt_getD_same (hlen.symm ▸ hk) _ _)
    · refine (modAt_getD_same ((length_modAt ..).symm ▸ hother) _ _).trans ?_
      have hsame : (modAt d.flash.slots k fun s => { s with st := 3, preferred := true }).getD (1 - k) {} = fwSlot d (1 - k) :=
        modAt_getD_other _ _ _ hne
      refine (congrArg (fun s : FwSlot => { s with preferred := false }) hsame).trans ?_
      rw [h]
      simp
    · exact (length_modAt ..).trans ((length_modAt ..).trans hlen)
  · rw [if_neg h, if_neg h]
    refine ⟨rfl, ?_, hlen⟩
    have : ((fwSlot d k).st != 2) = true := by simpa using h
    rw [this, Bool.and_true]

theorem dropImage_spec {d : Dev} {k j : Nat} (hk : k < d.flash.slots.length) (hj : j ≠ k) :
    fwSlot (dropImage d k) j = fwSlot d j ∧
    fwSlot (dropImage d k) k = { fwSlot d k with st := if belowFloor d k then 4 else (fwSlot d k).st } ∧
    (dropImage d k).flash.fuses = d.flash.fuses ∧ ∃ l, dropImage d k = { d with flash.slots := l } := by
  unfold dropImage
  cases belowFloor d k with
  | true => exact ⟨modAt_getD_other _ _ _ hj, modAt_getD_same hk _ _, rfl, _, rfl⟩
  | false => exact ⟨rfl, rfl, rfl, _, rfl⟩

include hlen hrunning hk in
/-- What a commit leaves in the flash (R394). -/
theorem mbFwCommit_spec {body : Bytes} {blow m : Nat} (hle : fwFloor d + fusesNeeded d body ≤ 64) :
    let x := fwSlot d k
    let o := fwSlot d (1 - k)
    let need := fusesNeeded d body
    let r := (mbFwCommit blow).run m body d
    let drop := o.st != 0 && o.st != 4 && decide (o.svn < fwFloor r.1)
    fwFloor r.1 = fwFloor d + min need blow ∧
    fwSlot r.1 k = (if x.st = 2 then { x with st := 3, preferred := true } else x) ∧
    fwSlot r.1 (1 - k) = { o with preferred := o.preferred && x.st != 2, st := if drop then 4 else o.st } ∧
    r.2 = (if min need blow < need then mbEnd 9 else mbOk (leBytes 1 (fwFloor r.1) ++ leBytes 1 (ofBool drop))) ∧
    { r.1 with flash := d.flash } = d := by
  intro x o need r drop
  have hr : r = _ := mbFwCommit_run blow m body d
  obtain ⟨hrun, hother, hlength⟩ := committed_slots hlen hrunning hk
  obtain ⟨l, hcommitted⟩ := committed_frame d
  have hfloor : fwFloor (blown (committed d) (fwFloor d) (min need blow)) = fwFloor d + min need blow :=
    fwFloor_blown (by rw [hcommitted]; rfl) (by omega)
  obtain ⟨hkept, hdropped, hfuses, l', hframe⟩ := dropImage_spec (d := blown (committed d) (fwFloor d) (min need blow)) (k := 1 - k) (j := k)
    (by show 1 - k < (committed d).flash.slots.length; omega) (by omega)
  dsimp only at hr
  rw [hrunning] at hr
  have hfloor' : fwFloor r.1 = fwFloor (blown (committed d) (fwFloor d) (min need blow)) := by
    rw [hr]
    exact fwFloor_congr hfuses
  have hdrop : belowFloor (blown (committed d) (fwFloor d) (min need blow)) (1 - k) = drop := by
    unfold drop
    rw [hfloor']
    have hslot : fwSlot (blown (committed d) (fwFloor d) (min need blow)) (1 - k) = _ := hother
    rw [belowFloor, hslot]
  rw [hdrop] at hdropped
  refine ⟨hfloor'.trans hfloor, ?_, ?_, ?_, ?_⟩
  · rw [hr]
    exact hkept.trans hrun
  · rw [hr]
    have hslot : fwSlot (blown (committed d) (fwFloor d) (min need blow)) (1 - k) = _ := hother
    rw [hslot] at hdropped
    exact hdropped
  · have hanswer := congrArg Prod.snd hr
    dsimp only at hanswer
    rw [hanswer, hdrop, hr]
  · have hdev := congrArg Prod.fst hr
    dsimp only at hdev ⊢
    rw [hdev, hframe, hcommitted]
    rfl

end Commit

/-! ## Sanitising (R400) -/

/-- The Granary takes note of a write while no snapshot copies: no page holds it up. -/
theorem noteWrite_of_not_copying {d : Dev} (h : d.granary.st ≠ .copying) (a n : Nat) :
    ∃ g, noteWrite d a n = { d with granary := g } ∧ g.stalls = d.granary.stalls := by
  unfold noteWrite
  split
  · exact ⟨_, rfl, rfl⟩
  · refine ⟨_, rfl, ?_⟩
    simp [untakenPages, h]

/-- A Loom without its images. -/
def blankLoom (l : Loom) : Loom := { l with images := [], loading := l.loading.map fun x => { x with image := none } }

/-- A device sanitised, with what the Granary has noted. -/
def sanitised (d : Dev) (g : Granary) : Dev :=
  { d with
    granary := g
    mem.cells := []
    mem.flips := d.mem.flips.filter fun e => 2 ^ 50 ≤ e.1
    looms := d.looms.map fun l => (l.1, blankLoom l.2)
    badgers := d.badgers.map fun b => (b.1, { b.2 with programs := [], tables := [] })
    threshers := d.threshers.map fun t => { t with programs := [], vocabs := [] }
    iabor.programLog := List.replicate 32 0 }

theorem mbSanitise_run {d : Dev} (h : d.granary.st ≠ .copying) (m : Nat) (body : Bytes) :
    ∃ g, mbSanitise.run m body d = (sanitised d g, mbOk (leBytes 8 (sanitisedBytes d))) ∧ g.stalls = d.granary.stalls := by
  obtain ⟨g, hnote, hstalls⟩ := noteWrite_of_not_copying h 0 (2 ^ 45)
  refine ⟨g, ?_, hstalls⟩
  unfold mbSanitise
  dsimp only
  rw [hnote]
  rfl

theorem sanitised_images (d : Dev) (g : Granary) (t e : Nat) : (getLoom (sanitised d g) t e).images = [] := by
  have h := tget_map d.looms blankLoom (loomIndex t e)
  refine (congrArg (fun l : Option Loom => (l.getD {}).images) h).trans ?_
  cases tget d.looms (loomIndex t e) <;> rfl

theorem sanitised_tables (d : Dev) (g : Granary) (t : Nat) :
    (getBadger (sanitised d g) t).programs = [] ∧ (getBadger (sanitised d g) t).tables = [] := by
  have h := tget_map d.badgers (fun b : Badger => { b with programs := [], tables := [] }) t
  rw [getBadger, tgetD, show tget (sanitised d g).badgers t = _ from h]
  cases tget d.badgers t <;> exact ⟨rfl, rfl⟩

/-! ## The statement -/

theorem putAnswer_eq {d : Dev} {m : Nat} {b : Mailbox} (h : d.iabor.mbx[m]? = some b) (r : MbxResponse) :
    putAnswer d m r = { d with iabor.mbx := d.iabor.mbx.set m { b with answer := some r } } := by
  rw [putAnswer, modAt, h]

/-- Settles O58: staging, activation and its end, commit, and sanitising, each from what its command makes of the flash. -/
theorem mailboxFirmware : Obligations.MailboxFirmware := by
  unfold Obligations.MailboxFirmware
  refine ⟨fun s m ok b body img hp hflips hasks himage => ?staged, fun s m b body hp hasks => ?activated,
    fun s a b hp hactivation hbox hheld hbusy hslot => ⟨?ready, fun refused => ?timeout⟩,
    fun s m blow b body hp hasks hlen hrunning => ?commit, fun s m b body hp hst hasks => ?sanitise⟩
  case staged =>
    have hbox := mbx_of_accepting hasks.1
    obtain ⟨c, hread⟩ := readImage_pointed (m := m) hflips himage
    have hrun := mbFwStage_of_read (ok := ok) (m := m) hread rfl
    intro k x staged
    refine ⟨_, mbxAct_of_asks hp hasks (by rw [hrun]; exact stage_granary ..), ?_⟩
    rw [hrun]
    have hrefused : imageRefused { pointed s.dev m with counters := c } (img.take (fld body 8 4)) = imageRefused s.dev x := rfl
    unfold stage
    dsimp only
    rw [hrefused]
    cases imageRefused s.dev x with
    | some r =>
      dsimp only
      rw [putAnswer_eq (by exact hbox)]
    | none =>
      dsimp only
      split
      · rw [putAnswer_eq (by exact hbox)]
        rfl
      · rw [putAnswer_eq (by exact hbox)]
        rfl
  case activated =>
    have hbox := mbx_of_accepting hasks.1
    have hrun : mbFwActivate.run m body (pointed s.dev m) = _ := mbFwActivate_run ..
    have hfault : slotFault (pointed s.dev m) (fld body 0 1) = slotFault s.dev (fld body 0 1) := rfl
    rw [hfault] at hrun
    cases h : slotFault s.dev (fld body 0 1) with
    | some r => exact mbxAct_eq_answered (d := s.dev) hp hasks (hrun.trans (by rw [h])) ⟨b.answer, hbox⟩ rfl
    | none =>
      exact mbxAct_eq_answered (d := { s.dev with
          iabor.activation := some { mbx := m, slot := fld body 0 1, since := deviceTime s.dev } }) hp hasks
        (hrun.trans (by rw [h]; rfl)) ⟨b.answer, hbox⟩ rfl
  case ready =>
    have heq := fwReady_eq hactivation
    split
    next hearly =>
      rw [if_neg (by omega)] at heq
      obtain ⟨hactive, hrunning, hup, hst, hothers, hnoFw, hframe, hmbx⟩ := switched_spec hslot
      have hkept := hmbx a.mbx b hbox hbusy
      have hgranary := congrArg Dev.granary hframe
      exact ⟨_, act_live hp heq hgranary, hactive, hrunning, hup, hst, hothers, responds_answerMbx hkept hheld _, hnoFw, hframe⟩
    next hlate => exact act_live_same hp (heq.trans (if_pos (by omega)))
  case timeout =>
    have heq := fwActivateTimeout_eq hactivation refused
    split
    next hdue =>
      rw [if_pos hdue] at heq
      have hiabor := logEvent_iabor (endSwitch s.dev) evFwActivateFailed (.core 0 1) 0 none
      have hmbx : (logEvent (endSwitch s.dev) evFwActivateFailed (.core 0 1) 0).iabor.mbx[a.mbx]? = some b := by
        rw [hiabor]
        exact hbox
      have hactive := congrArg Iabor.activation hiabor
      have hrunning := congrArg Iabor.running hiabor
      exact ⟨_, act_live hp heq (logEvent_granary ..), hactive, hrunning, logEvent_flash ..,
        responds_answerMbx hmbx hheld _, fun hrun => recorded_logEvent (d := endSwitch s.dev) hrun evFwActivateFailed (.core 0 1) 0⟩
    next hearly => exact act_live_same hp (heq.trans (if_neg hearly))
  case commit =>
    intro k x old need hle
    have hbox := mbx_of_accepting hasks.1
    obtain ⟨hfloor, hrun, hother, hanswer, hframe⟩ := mbFwCommit_spec (d := pointed s.dev m) (k := k) (m := m) (blow := blow) (body := body)
      hlen rfl hrunning hle
    have hgranary := congrArg Dev.granary hframe
    have hiabor := congrArg Dev.iabor hframe
    have hexec := mbxAct_of_asks hp hasks hgranary
    generalize (mbFwCommit blow).run m body (pointed s.dev m) = r at *
    have hmbx : r.1.iabor.mbx[m]? = some b := (congrArg (fun i : Iabor => i.mbx[m]?) hiabor).trans hbox
    refine ⟨_, hexec, hfloor, hrun, ⟨hother, ?_⟩, ?_⟩
    · exact (responds_putAnswer hmbx r.2).trans (congrArg (fun x => some (some x)) hanswer)
    · have hkept := congrArg (fun d : Dev => { d with iabor := s.dev.iabor }) hframe
      exact hkept
  case sanitise =>
    have hbox := mbx_of_accepting hasks.1
    obtain ⟨g, hrun, hstalls⟩ := mbSanitise_run (d := pointed s.dev m) hst m body
    have hcommand := mbxCommand_of_asks hasks
    rw [hrun] at hcommand
    refine ⟨_, act_live_of_stalls hp hcommand (hstalls.trans hp.2), fun _ => rfl, fun e he => ?_, sanitised_images (pointed s.dev m) g,
      sanitised_tables (pointed s.dev m) g, fun t ht => ?_, rfl, responds_putAnswer (d := sanitised (pointed s.dev m) g) hbox _, rfl, rfl, rfl⟩
    · exact of_decide_eq_true (List.mem_filter.mp he).2
    · obtain ⟨x, -, rfl⟩ := List.mem_map.mp ht
      exact ⟨rfl, rfl⟩

end Sys2Proof.FirmwareProofs
end

section
/-! SUPPORT. ECS counts read under a hard halt (R342, R420, R432): a device at which the statement on the data mover and memory fails. -/

namespace Sys2Proof.EcsProofs

open Sys2Proof Sys2Proof.Machine Sys2Proof.Safety Sys2Proof.HostProofs Sys2Proof.RingProofs Sys2Proof.Tests

/-- A ready device under a hard halt, of whose GDDR7 devices none has counted an error. -/
def haltedDev : Dev := { readyDev with hub.hardHalted := true, mem.ecs := List.replicate 24 0 }

/-- The count of GDDR7 device 0 has changed, and its report is dropped. -/
theorem gddrEcsRead_halted : (gddrEcsRead [1] haltedDev).tally = haltedDev.tally := by decide +kernel

/-- A report that is taken leaves a record. -/
theorem report_records : haltedDev.tally.set 0 ((haltedDev.tally.getD 0 {}).report (deviceTime haltedDev)
    (BitVec.ofNat 16 0x464) (BitVec.ofNat 16 (Source.mc 0 0).code) (BitVec.ofNat 64 1)).tally ≠ haltedDev.tally := by decide +kernel

/-- Refutes O54, at its clause on ECS counts: it has each change of a count recorded in the Tally, and is of every powered device, also of
one under a hard halt. There a report is dropped and only counted (R420). The other clauses on memory upkeep have the premise that no hard
halt is in force; this one lacks it. -/
theorem not_dataMoverAndMemory : ¬ Obligations.DataMoverAndMemory := by
  unfold Obligations.DataMoverAndMemory
  rintro ⟨-, -, -, -, -, -, hecs⟩
  obtain ⟨hreported, -⟩ := hecs (stateOf haltedDev) [1] ⟨rfl, rfl⟩
  obtain ⟨htally, -⟩ := of_acts (hreported 0 (by decide) (by decide +kernel) (by decide +kernel) (by decide +kernel))
    (act_live (d := gddrEcsRead [1] haltedDev) ⟨rfl, rfl⟩ rfl (by decide +kernel))
  exact report_records (htally.symm.trans gddrEcsRead_halted)

end Sys2Proof.EcsProofs
end

section
/-! SUPPORT. The digest of SHAKE256 has 32 bytes: the planes of its state keep their shape through every round. -/

namespace Sys2Proof.DigestProofs

open Sys2Proof Sys2Proof.Machine Sys2Proof.Safety

/-- Five planes of five lanes each. -/
def Shaped (planes : List (List W64)) : Prop := planes.length = 5 ∧ ∀ p ∈ planes, p.length = 5

theorem length_xorLanes (p q : List W64) : (xorLanes p q).length = min p.length q.length := List.length_zipWith

theorem length_flatten_of_shaped {planes : List (List W64)} (h : Shaped planes) : planes.flatten.length = 25 := by
  obtain ⟨h5, hp⟩ := h
  have hmap : planes.map List.length = List.replicate planes.length 5 :=
    List.eq_replicate_iff.mpr ⟨List.length_map .., fun n hn => by
      obtain ⟨p, hmem, rfl⟩ := List.mem_map.mp hn
      exact hp p hmem⟩
  rw [List.length_flatten, hmap, h5]
  rfl

theorem shaped_range {f : Nat → List W64} (h : ∀ y, y < 5 → (f y).length = 5) : Shaped ((List.range 5).map f) :=
  ⟨by simp, by simpa using h⟩

theorem shaped_map {planes : List (List W64)} (h : Shaped planes) {f : List W64 → List W64} (hf : ∀ p, p.length = 5 → (f p).length = 5) :
    Shaped (planes.map f) :=
  ⟨(List.length_map f).trans h.1, fun q hq => by
    obtain ⟨p, hmem, rfl⟩ := List.mem_map.mp hq
    exact hf p (h.2 p hmem)⟩

theorem length_parity {planes : List (List W64)} (h : ∀ p ∈ planes, p.length = 5) {acc : List W64} (hacc : acc.length = 5) :
    (planes.foldl xorLanes acc).length = 5 := by
  induction planes generalizing acc with
  | nil => exact hacc
  | cons p r ih =>
    exact ih (fun q hq => h q (List.mem_cons_of_mem _ hq)) (by simp [length_xorLanes, hacc, h p List.mem_cons_self])

theorem shaped_theta {planes : List (List W64)} (h : Shaped planes) : Shaped (theta planes) := by
  unfold theta
  have hparity : (planes.foldl xorLanes [0, 0, 0, 0, 0]).length = 5 := length_parity h.2 rfl
  generalize planes.foldl xorLanes [0, 0, 0, 0, 0] = parity at hparity ⊢
  exact shaped_map h fun p hp => by simp [length_xorLanes, hparity, hp]

theorem length_moves (old : List W64) (l : List (Nat × Nat × Nat)) (acc : List W64) :
    (l.foldl (fun acc (src, dst, turn) => acc.set dst ((old.getD src 0).rotateLeft turn)) acc).length = acc.length := by
  induction l generalizing acc with
  | nil => rfl
  | cons x r ih => rw [List.foldl_cons, ih, List.length_set]

theorem shaped_rhoPi {planes : List (List W64)} (h : Shaped planes) : Shaped (rhoPi planes) := by
  unfold rhoPi
  generalize laneWalk 24 1 1 0 = walk
  refine shaped_range fun y hy => ?_
  rw [List.length_take, List.length_drop, length_moves, length_flatten_of_shaped h]
  omega

theorem length_chi (p : List W64) (h : p.length = 5) : (chi p).length = 5 := by
  unfold chi
  split
  · rfl
  · exact h

theorem shaped_iota {planes : List (List W64)} (h : Shaped planes) (c : W64) : Shaped (iota c planes) := by
  unfold iota
  split
  · obtain ⟨hlen, hp⟩ := h
    simp only [List.mem_cons, forall_eq_or_imp, List.length_cons] at hlen hp
    exact ⟨by simpa using hlen, by simpa using hp⟩
  · exact h

theorem shaped_foldl {f : List (List W64) × Nat → Nat → List (List W64) × Nat} (hf : ∀ st k, Shaped st.1 → Shaped (f st k).1)
    (l : List Nat) {st : List (List W64) × Nat} (h : Shaped st.1) : Shaped (l.foldl f st).1 := by
  induction l generalizing st with
  | nil => exact h
  | cons k r ih => exact ih (hf st k h)

theorem shaped_keccak {planes : List (List W64)} (h : Shaped planes) : Shaped (keccak planes) := by
  unfold keccak
  refine shaped_foldl (fun st k hst => ?_) _ h
  generalize iotaOf st.2 = r
  dsimp only
  exact shaped_iota (shaped_map (shaped_rhoPi (shaped_theta hst)) length_chi) r.1

theorem shaped_absorb {planes : List (List W64)} (h : Shaped planes) (blk : Bytes) : Shaped (absorb planes blk) := by
  unfold absorb
  refine shaped_keccak (shaped_range fun y hy => ?_)
  obtain ⟨h5, hp⟩ := h
  have hlane : (planes.getD y []).length = 5 := by
    rw [List.getD_eq_getElem _ _ (by omega)]
    exact hp _ (List.getElem_mem _)
  simp only [length_xorLanes, hlane, List.length_map, List.length_range, Nat.min_self]

theorem shaped_blocks (l : List Nat) (p : Bytes) {planes : List (List W64)} (h : Shaped planes) :
    Shaped (l.foldl (fun planes k => absorb planes ((p.drop (136 * k)).take 136)) planes) := by
  induction l generalizing planes with
  | nil => exact h
  | cons k r ih =>
    rw [List.foldl_cons]
    exact ih (shaped_absorb h _)

@[simp] theorem length_shake256 (m : Bytes) : (shake256 m).length = 32 := by
  have hstart : Shaped (List.replicate 5 (List.replicate 5 0)) := ⟨List.length_replicate, fun p hp => by simp [List.eq_of_mem_replicate hp]⟩
  have h25 := length_flatten_of_shaped (shaped_blocks (List.range ((shakePad m).length / 136)) (shakePad m) hstart)
  unfold shake256
  generalize shakePad m = p at h25 ⊢
  dsimp only
  generalize List.foldl _ _ _ = planes at h25 ⊢
  rw [List.length_flatMap, List.map_congr_left (g := fun _ => 8) fun _ _ => leBytes_length .., List.map_const', List.length_take, h25]
  rfl

end Sys2Proof.DigestProofs
end

section
/-! SUPPORT. A restore while a snapshot is copying: its write of an untaken page waits for the page, so nothing of it comes about
(R359), though no premise of O56 keeps the two apart. -/

namespace Sys2Proof.RestoreProofs

open Sys2Proof Sys2Proof.Machine Sys2Proof.Safety Sys2Proof.Tests Sys2Proof.StoreProofs Sys2Proof.DigestProofs Sys2Proof.RingProofs

/-! ## Parts of joined bytes -/

theorem slice_append_left {a : Bytes} (b : Bytes) {off n : Nat} (h : off + n ≤ a.length) : slice (a ++ b) off n = slice a off n := by
  have hdrop : (a ++ b).drop off = a.drop off ++ b := List.drop_append_of_le_length (by omega)
  simp only [slice, hdrop, List.take_append_of_le_length (l₁ := a.drop off) (l₂ := b) (i := n) (by simp; omega)]

theorem slice_append_right (a b : Bytes) {off n : Nat} (h : a.length ≤ off) : slice (a ++ b) off n = slice b (off - a.length) n := by
  simp only [slice, List.drop_append, List.drop_eq_nil_of_le h, List.nil_append]

theorem slice_whole {b : Bytes} {n : Nat} (h : b.length = n) : slice b 0 n = b := by
  simp [slice, ← h]

theorem fld_append_left {a : Bytes} (b : Bytes) {off n : Nat} (h : off + n ≤ a.length) : fld (a ++ b) off n = fld a off n := by
  rw [fld, slice_append_left b h, fld]

/-! ## Reads of the store by an operation to which all has come -/

theorem readMem_of_fetched {d : Dev} {n : OpName} {a len w : Nat} (hregion : regionOf d a = .peer w) (hfault : accessFault d a len false = none)
    (hall : (messagePieces len).all fun p => hasFetched d n (peerKey d (a + p.1)) p.2 0) :
    readMem d (some n) a len = (d, .ok (cellsRead d.mem.remote (peerKey d a) len)) := by
  have hrequests : peerRequests d false a [] len (some n) = d := by
    unfold peerRequests
    rw [hregion]
    dsimp only
    split
    · rfl
    · rw [List.all_eq_true] at hall
      generalize messagePieces len = pieces at hall
      induction pieces with
      | nil => rfl
      | cons p r ih =>
        rw [List.foldl_cons, if_pos (by simp [hall p List.mem_cons_self])]
        exact ih fun q hq => hall q (List.mem_cons_of_mem _ hq)
  unfold readMem
  simp only [hfault, countAccess, noteEntries, hregion, hrequests, rawRead]

/-! ## A stored generation of one region of one byte -/

/-- The words that the state area holds first: nine sections, of which only the ninth, of the regions, is not empty; it lists one
region of length 1. -/
def areaWords : List Nat := [9, 0, 0, 0, 0, 0, 0, 0, 0, 4, 1, 0, 0, 1]

def areaHead : Bytes := areaWords.flatMap (leBytes 8)

def stateArea : Bytes := areaHead ++ List.replicate 65424 0

def sections : List (List Nat) := [[], [], [], [], [], [], [], [], [1, 0, 0, 1]]

theorem sections_of_words (rest : List Nat) : takeList (takeList takeWord) (areaWords ++ rest) = some (sections, rest) := by
  have hfour : ¬ rest.length + 1 + 1 + 1 + 1 < 4 := by omega
  simp [areaWords, sections, takeList, takeMany, takeWord, hfour]

theorem length_stateArea : stateArea.length = 65536 := by
  have hhead : areaHead.length = 112 := rfl
  rw [stateArea, List.length_append, hhead, List.length_replicate]

theorem areaSections_stateArea : areaSections stateArea = sections := by
  have hhead : ∀ i ∈ List.range 14, fld stateArea (8 * i) 8 = fld areaHead (8 * i) 8 := fun i hi =>
    fld_append_left _ (by have hhead : areaHead.length = 112 := rfl
                          have := List.mem_range.mp hi
                          omega)
  have hwords : (List.range 14).map (fun i => fld areaHead (8 * i) 8) = areaWords := by decide +kernel
  have hsplit : List.range (65536 / 8) = List.range 14 ++ (List.range 8178).map (14 + ·) := List.range_add (n := 14) (m := 8178)
  rw [areaSections, length_stateArea, hsplit, List.map_append, List.map_congr_left hhead, hwords, sections_of_words]

/-- The digest of the region's one page, which holds one byte. -/
def pageDigest : Bytes := shake256 [7]

/-- The root of the generation. -/
def storedRoot : Bytes := generationRoot [shake256 pageDigest] (shake256 stateArea)

/-- MAGIC, COMMITTED, GEN 7, STEP 4, one region and one page. -/
def recordHead : Bytes :=
  leBytes 4 0x47524E59 ++ [0, 0xA5, 0, 0] ++ leBytes 8 7 ++ leBytes 8 4 ++ leBytes 8 0 ++ leBytes 8 0 ++ leBytes 4 0 ++ leBytes 4 1 ++ leBytes 8 1

/-- The record of slot 0, with its digests. -/
def recordOf0 : Bytes := recordHead ++ (shake256 stateArea ++ (storedRoot ++ List.replicate 136 0))

theorem length_storedRoot : storedRoot.length = 32 := length_shake256 _

theorem length_recordOf0 : recordOf0.length = 256 := by
  have hhead : recordHead.length = 56 := rfl
  simp only [recordOf0, List.length_append, hhead, length_shake256, length_storedRoot, List.length_replicate]

/-- Both records: that of slot 1 is empty. -/
def records : Bytes := recordOf0 ++ List.replicate 256 0

def storedRecord : GenRecord :=
  { committed := true, gen := 7, step := 4, ident := 0, coord := 0, regions := 1, pages := 1, stateDigest := shake256 stateArea
    root := storedRoot, rngStep := 0 }

theorem genRecord_recordOf0 : genRecord recordOf0 = storedRecord := by
  have hhead : recordHead.length = 56 := rfl
  have hfield : ∀ off n, off + n ≤ 56 → fld recordOf0 off n = fld recordHead off n := fun off n h => fld_append_left _ (hhead ▸ h)
  have hdigest : slice recordOf0 56 32 = shake256 stateArea := by
    rw [recordOf0, slice_append_right _ _ (by rw [hhead]), hhead, slice_append_left _ (by rw [length_shake256])]
    exact slice_whole (length_shake256 _)
  have hroot : slice recordOf0 88 32 = storedRoot := by
    rw [recordOf0, slice_append_right _ _ (by rw [hhead]; omega), hhead, slice_append_right _ _ (by rw [length_shake256]), length_shake256,
      slice_append_left _ (by rw [length_storedRoot])]
    exact slice_whole length_storedRoot
  have hrng : fld recordOf0 120 8 = 0 := by
    rw [fld, recordOf0, slice_append_right _ _ (by rw [hhead]; omega), hhead, slice_append_right _ _ (by rw [length_shake256]; omega),
      length_shake256, slice_append_right _ _ (by rw [length_storedRoot]), length_storedRoot]
    decide +kernel
  have hhead : fld recordHead 0 4 = 0x47524E59 ∧ fld recordHead 5 1 = 0xA5 ∧ fld recordHead 8 8 = 7 ∧ fld recordHead 16 8 = 4 ∧
      fld recordHead 32 8 = 0 ∧ fld recordHead 40 2 = 0 ∧ fld recordHead 44 4 = 1 ∧ fld recordHead 48 8 = 1 := by decide +kernel
  obtain ⟨hmagic, hmark, hgen, hstep, hident, hcoord, hregions, hpages⟩ := hhead
  unfold genRecord
  simp only [hdigest, hroot, hrng, hfield 0 4 (by omega), hfield 5 1 (by omega), hfield 8 8 (by omega), hfield 16 8 (by omega),
    hfield 32 8 (by omega), hfield 40 2 (by omega), hfield 44 4 (by omega), hfield 48 8 (by omega),
    hmagic, hmark, hgen, hstep, hident, hcoord, hregions, hpages]
  rfl

/-! ## The device: a restore issued, a snapshot copying, and the page of the region not yet taken -/

/-- The region's entry: 0x1000, of tensors. -/
def regionEntry : Bytes := leBytes 8 0x1000 ++ List.replicate 120 0

/-- Where the lender keeps the store's first byte. -/
def storeKey : Nat := lentKey 2 1 0

def storeBlocks : List (Nat × Bytes) :=
  [(storeKey, records), (storeKey + 0x10000, stateArea), (storeKey + 0x20000, regionEntry), (storeKey + 0x30000, pageDigest),
    (storeKey + 0x40000, [7])]

/-- The same blocks as (offset, bytes). -/
def storeReads : List (Nat × Nat) := [(0, 512), (0x10000, 65536), (0x20000, 128), (0x30000, 32), (0x40000, 1)]

/-- GR_RESTORE of slot 0, to which every response has come. -/
def restoreOp : Op :=
  { opOf 0x0702 [] with fetched := storeReads.flatMap fun b => (messagePieces b.2).map fun p => (storeKey + b.1 + p.1, p.2, 0) }

def copyingRestore : Dev :=
  let d := storeDev restoreOp
  { d with
    granary := { d.granary with cfg := some (splice (List.replicate 64 0) 34 (leBytes 2 1)), st := .copying, pages := [page0] }
    mem.remote := writeCells [] storeBlocks }

theorem storeReads_open : ∀ r ∈ storeReads,
    regionOf copyingRestore (storeAddr copyingRestore r.1) = .peer 0 ∧
    accessFault copyingRestore (storeAddr copyingRestore r.1) r.2 false = none ∧
    ((messagePieces r.2).all fun p => hasFetched copyingRestore name0 (peerKey copyingRestore (storeAddr copyingRestore r.1 + p.1)) p.2 0) = true ∧
    peerKey copyingRestore (storeAddr copyingRestore r.1) = storeKey + r.1 := by decide +kernel

theorem length_records : records.length = 512 := by
  rw [records, List.length_append, length_recordOf0, List.length_replicate]

/-- Five blocks, each in pages of its own. -/
theorem blocks_apart (k : Nat) {b0 b1 b2 b3 b4 : Bytes} (h0 : b0.length = 512) (h1 : b1.length = 65536) (h2 : b2.length = 128) (h3 : b3.length = 32) :
    [(k, b0), (k + 0x10000, b1), (k + 0x20000, b2), (k + 0x30000, b3), (k + 0x40000, b4)].Pairwise
      fun w w' => ∀ x, within w x → ¬ within w' x := by
  simp only [List.pairwise_cons, List.mem_cons, List.not_mem_nil, or_false, forall_eq_or_imp, forall_eq, within, h0, h1, h2, h3]
  refine ⟨⟨?_, ?_, ?_, ?_⟩, ⟨?_, ?_, ?_⟩, ⟨?_, ?_⟩, ?_, ?last⟩
  case last => simp
  all_goals intro x; omega

theorem copyingRestore_remote : copyingRestore.mem.remote = writeCells [] storeBlocks := by
  simp only [copyingRestore]

theorem storeRead_block {off len : Nat} {b : Bytes} (hread : (off, len) ∈ storeReads) (hblock : (storeKey + off, b) ∈ storeBlocks)
    (hlen : b.length = len) : storeRead copyingRestore off len = b := by
  obtain ⟨_, _, _, hkey⟩ := storeReads_open _ hread
  have hback := cellsRead_writeCells (m := []) rfl (blocks_apart storeKey length_records length_stateArea rfl (length_shake256 _)) hblock
  change cellsRead (writeCells [] storeBlocks) (storeKey + off) b.length = b at hback
  unfold storeRead
  rw [hkey, copyingRestore_remote, ← hlen]
  exact hback

theorem cellsWf_writeCells {m : List Host.Cell} (h : cellsWf m = true) (l : List (Nat × Bytes)) : cellsWf (writeCells m l) = true := by
  induction l generalizing m with
  | nil => exact h
  | cons w l ih => exact ih (cellsWf_cellsWrite m w.1 w.2 h)

theorem memoryWf_copyingRestore : memoryWf copyingRestore.mem = true := by
  have hcells : cellsWf copyingRestore.mem.cells = true := by decide +kernel
  have hhost : cellsWf copyingRestore.mem.host = true := by decide +kernel
  unfold memoryWf
  rw [hcells, hhost, copyingRestore_remote, cellsWf_writeCells rfl]
  rfl

theorem readMem_block {off len : Nat} {b : Bytes} (hread : (off, len) ∈ storeReads) (hblock : (storeKey + off, b) ∈ storeBlocks)
    (hlen : b.length = len) : readMem copyingRestore (some name0) (storeAddr copyingRestore off) len = (copyingRestore, .ok b) := by
  obtain ⟨hregion, hfault, hall, _⟩ := storeReads_open _ hread
  have hb := storeRead_block hread hblock hlen
  rw [readMem_of_fetched hregion hfault hall]
  exact congrArg (fun b => (copyingRestore, Except.ok b)) hb

/-! ## What is read of the store -/

def storedGeneration : Generation :=
  { slot := 0, record := storedRecord, area := stateArea, sections := sections, regions := [regionEntry], places := [(0, 0, 1)]
    digests := [pageDigest] }

theorem readMem_records : readMem copyingRestore (some name0) (storeAddr copyingRestore 0) 512 = (copyingRestore, .ok records) :=
  readMem_block (by simp [storeReads]) (by simp [storeBlocks]) length_records

theorem readAll_tables :
    readAll copyingRestore (some name0) [(storeAddr copyingRestore 0x10000, 65536), (storeAddr copyingRestore 0x20000, 128),
      (storeAddr copyingRestore 0x30000, 32)] = (copyingRestore, .ok [stateArea, regionEntry, pageDigest]) := by
  have harea := readMem_block (off := 0x10000) (len := 65536) (by simp [storeReads]) (by simp [storeBlocks]) length_stateArea
  have hregion := readMem_block (off := 0x20000) (len := 128) (b := regionEntry) (by simp [storeReads]) (by simp [storeBlocks]) rfl
  have hpage := readMem_block (off := 0x30000) (len := 32) (b := pageDigest) (by simp [storeReads]) (by simp [storeBlocks]) (length_shake256 _)
  simp only [readAll, harea, hregion, hpage, Except.map]

theorem readMem_data : readMem copyingRestore (some name0) (storeAddr copyingRestore 0x40000) 1 = (copyingRestore, .ok [7]) :=
  readMem_block (by simp [storeReads]) (by simp [storeBlocks]) rfl

theorem readGeneration_eq : readGeneration copyingRestore name0 0 storedRecord = (copyingRestore, .ok storedGeneration) := by
  have hbase : slotOff copyingRestore 0 = 0x10000 := by decide +kernel
  have hpages : copyingRestore.granary.saPages = 1 := by decide +kernel
  have hregion : slice regionEntry 0 128 = regionEntry := slice_whole rfl
  have hpage : slice pageDigest 0 32 = pageDigest := slice_whole (length_shake256 _)
  unfold readGeneration
  rw [hbase, hpages]
  have hreads := readAll_tables
  simp only [storedRecord, pagesOf, Nat.mul_one, Nat.reduceAdd, Nat.reduceDiv, hreads]
  simp only [List.getD_cons_zero, List.getD_cons_succ, areaSections_stateArea]
  simp [storedGeneration, storedRecord, sections, hregion, hpage, takePlaces, takeList, takeMany, takePair, takeWord]

theorem readRecords_eq :
    readRecords copyingRestore (some name0) = (copyingRestore, .ok (storedRecord, genRecord (List.replicate 256 0))) := by
  have hfirst : records.take 256 = recordOf0 := List.take_left' length_recordOf0
  have hsecond : records.drop 256 = List.replicate 256 0 := List.drop_left' length_recordOf0
  unfold readRecords
  rw [readMem_records]
  dsimp only
  rw [hfirst, hsecond, genRecord_recordOf0]

theorem namedSlot_eq (r : GenRecord) : namedSlot restoreOp (storedRecord, r) = some 0 := by
  have hslot : restoreOp.f 33 1 % 4 = 0 := by decide +kernel
  unfold namedSlot
  rw [hslot]
  rfl

theorem namedGeneration_of_reads {d : Dev} {n : OpName} {o : Op} {r : GenRecord × GenRecord} {g : Generation}
    (hrecords : readRecords d (some n) = (d, .ok r)) (hslot : namedSlot o r = some 0) (hread : readGeneration d n 0 r.1 = (d, .ok g)) :
    namedGeneration d n o = (d, .ok g) := by
  unfold namedGeneration
  rw [hrecords]
  dsimp only
  rw [hslot]
  dsimp only
  rw [if_pos rfl, hread]

theorem namedGeneration_eq : namedGeneration copyingRestore name0 restoreOp = (copyingRestore, .ok storedGeneration) :=
  namedGeneration_of_reads readRecords_eq (namedSlot_eq _) readGeneration_eq

/-! ## The restore -/

theorem granaryOp_of_granaryAt {d : Dev} {code : Nat} {n : OpName} {o : Op} (h : granaryAt d code n o) (f : Op → Dev → Dev) :
    granaryOp code n f d = f o d := by
  obtain ⟨hop, hcode, hdone, die, htarget, hfirst⟩ := h
  unfold granaryOp
  simp [hop, htarget, hcode, hdone, hfirst]

theorem grRestore_of_reads {d : Dev} {n : OpName} {o : Op} {g : Generation} (h : granaryAt d 0x0702 n o)
    (hnamed : namedGeneration d n o = (d, .ok g)) (hopen : restoreRefusal d (o.f 32 1 % 4) g = none) :
    grRestore n d = restoreGeneration d n (o.f 32 1 % 4) g := by
  unfold grRestore
  rw [granaryOp_of_granaryAt h]
  dsimp only
  rw [hnamed]
  dsimp only
  rw [hopen]

/-- A generation of one region, whose digests fit. -/
theorem restoreGeneration_of_region {d : Dev} {n : OpName} {mode : Nat} {g : Generation} {b : Bytes} {d1 : Dev}
    (hstate : shake256 g.area = g.record.stateDigest) (hscripts : scriptsOk g = true) (hroots : g.rootsOk = true) (hone : g.regions.length = 1)
    (hmapped : rangeMapped d (g.dest 0) (g.length 0) true = true) (hread : readRegion d n g 0 = (d, .ok b)) (hpage : badPage g 0 b = none)
    (hwrite : writeMem d none (g.dest 0) b = (d1, none)) :
    restoreGeneration d n mode g = completeOp (restoreEvents (applyState d1 mode g) mode g) n stOk g.record.gen := by
  have hfind : (List.range g.regions.length).find? (fun i => !(rangeMapped d (g.dest i) (g.length i) true)) = none := by
    simp [hone, List.range_succ, hmapped]
  have hregions : restoreRegions n g g.regions.length 0 d = (d1, none) := by
    rw [hone]
    unfold restoreRegions
    rw [hread]
    dsimp only
    rw [hpage]
    dsimp only
    rw [hwrite]
    rfl
  unfold restoreGeneration
  rw [hfind, hregions]
  simp [hstate, hscripts, hroots]

/-- The device after the write of the region's byte. -/
def writtenRestore : Dev := (writeMem copyingRestore none 0x1000 [7]).1

theorem writeMem_region : writeMem copyingRestore none 0x1000 [7] = (writtenRestore, none) := by
  have hok : (writeMem copyingRestore none 0x1000 [7]).2 = none := by decide +kernel
  unfold writtenRestore
  generalize writeMem copyingRestore none 0x1000 [7] = r at hok ⊢
  exact Prod.ext rfl hok

theorem restored_stalls :
    (completeOp (restoreEvents (applyState writtenRestore 0 storedGeneration) 0 storedGeneration) name0 stOk storedGeneration.record.gen).granary.stalls
      = [0] := by decide +kernel

theorem badPage_region : badPage storedGeneration 0 [7] = none := by
  have hlength : storedGeneration.length 0 = 1 := rfl
  unfold badPage
  rw [hlength]
  simp [pagesOf, List.range_succ, pageDigest, storedGeneration, Generation.firstPage]

theorem rootsOk_storedGeneration : storedGeneration.rootsOk = true := by
  unfold Generation.rootsOk
  simp [storedGeneration, Generation.regionRoot, Generation.firstPage, Generation.length, pagesOf, List.range_succ, storedRecord, storedRoot]

theorem stateDigest_storedGeneration : shake256 storedGeneration.area = storedGeneration.record.stateDigest := by
  simp only [storedGeneration, storedRecord]

theorem granaryAt_restore : granaryAt copyingRestore 0x0702 name0 restoreOp :=
  ⟨by decide +kernel, by decide +kernel, by decide +kernel, 0, by decide +kernel, by decide +kernel⟩

theorem dataOff_storedGeneration : dataOff copyingRestore storedGeneration = 0x40000 := by decide +kernel

theorem readRegion_eq : readRegion copyingRestore name0 storedGeneration 0 = (copyingRestore, .ok [7]) := by
  have hlength : storedGeneration.length 0 = 1 := rfl
  have hfirst : storedGeneration.firstPage 0 = 0 := rfl
  unfold readRegion
  rw [dataOff_storedGeneration, hlength, hfirst]
  exact readMem_data

theorem grRestore_stalls : (grRestore name0 copyingRestore).granary.stalls = [0] := by
  have hmode : restoreOp.f 32 1 % 4 = 0 := by decide +kernel
  have hopen : restoreRefusal copyingRestore (restoreOp.f 32 1 % 4) storedGeneration = none := by
    rw [hmode]
    simp [restoreRefusal]
  rw [grRestore_of_reads granaryAt_restore namedGeneration_eq hopen, hmode,
    restoreGeneration_of_region stateDigest_storedGeneration (by decide +kernel) rootsOk_storedGeneration rfl (by decide +kernel) readRegion_eq badPage_region writeMem_region]
  exact restored_stalls

/-- The restore leaves its operation issued: the page is wanted, and nothing else has changed. -/
theorem exec_grRestore : exec (.grRestore 0 0) (stateOf copyingRestore) =
    .next { stateOf copyingRestore with dev := wantPages copyingRestore [0] } := by
  have hon : copyingRestore.power.on = true := rfl
  have hrun : copyingRestore.hub.hardHalted = false := rfl
  have hstalls := grRestore_stalls
  have hact : exec (.grRestore 0 0) (stateOf copyingRestore) = act (stateOf copyingRestore) (running (grRestore name0)) := rfl
  rw [hact]
  simp only [act, running, settle, stateOf, hon, hrun, hstalls]
  rfl

theorem not_ended_wantPages (pages : List Nat) : ¬ ended (wantPages copyingRestore pages) name0 0x00 storedGeneration.record.gen := by
  have hissued : standing (wantPages copyingRestore pages) name0 = some (.issued, 0, 0) := by
    have h : standing copyingRestore name0 = some (.issued, 0, 0) := by decide +kernel
    exact h
  unfold ended
  rw [hissued]
  simp

/-- Refutes O56, at its clause on a restore: its premises leave open that the Granary still copies a snapshot (GR_RESTORE is refused
for that at its issue only). The region's one byte then goes to a page not yet taken, so that R359 undoes the restore. -/
theorem not_restoreVerifyExportAndOwl : ¬ Obligations.RestoreVerifyExportAndOwl := by
  unfold Obligations.RestoreVerifyExportAndOwl
  intro h
  obtain ⟨hrestore, _⟩ := h
  have hnamed : (namedGeneration copyingRestore name0 restoreOp).2 = .ok storedGeneration := congrArg Prod.snd namedGeneration_eq
  have hmode : restoreOp.f 32 1 % 4 = 0 := by decide +kernel
  have hopen : restoreRefusal copyingRestore (restoreOp.f 32 1 % 4) storedGeneration = none := by
    rw [hmode]
    simp [restoreRefusal]
  have hstore : storeOpen copyingRestore :=
    ⟨memoryWf_copyingRestore, { lender := 2, lend := 1, size := 2 ^ 36 }, by decide +kernel, rfl, by decide +kernel⟩
  have hone : ∀ i, i < storedGeneration.regions.length → i = 0 := fun i hi => Nat.lt_one_iff.mp hi
  have hclear : regionsClear copyingRestore storedGeneration := fun i hi => by
    rw [hone i hi]
    exact ⟨by decide +kernel, by decide +kernel, by decide +kernel⟩
  have hdata : ∀ i, i < storedGeneration.regions.length →
      dataOff copyingRestore storedGeneration + 65536 * storedGeneration.firstPage i + storedGeneration.length i ≤ 2 ^ 36 ∧
      badPage storedGeneration i
        (storeRead copyingRestore (dataOff copyingRestore storedGeneration + 65536 * storedGeneration.firstPage i) (storedGeneration.length i)) =
        none := fun i hi => by
    have hfirst : storedGeneration.firstPage 0 = 0 := rfl
    have hlength : storedGeneration.length 0 = 1 := rfl
    have hread : storeRead copyingRestore 0x40000 1 = [7] := storeRead_block (by simp [storeReads]) (by simp [storeBlocks]) rfl
    rw [hone i hi, dataOff_storedGeneration, hfirst, hlength, Nat.mul_zero, Nat.add_zero, hread]
    exact ⟨by omega, badPage_region⟩
  obtain ⟨d, hexec, hended, _⟩ := ((hrestore (stateOf copyingRestore) name0 restoreOp ⟨rfl, rfl, rfl⟩ granaryAt_restore (by decide)).2
    storedGeneration hnamed).2 hopen hstore hclear stateDigest_storedGeneration (by decide +kernel) rootsOk_storedGeneration (by decide +kernel)
    (by decide +kernel) hdata fun i j hij hj => absurd (hone j hj) (by omega)
  have hwanted := of_acts (p := fun d => ended d name0 0x00 storedGeneration.record.gen) ⟨d, hexec, hended⟩ exec_grRestore
  exact not_ended_wantPages [0] hwanted

end Sys2Proof.RestoreProofs
end

section
/-! SUPPORT. The store window: its addresses, and what reads and writes of the Granary there do while its partner lends it whole
(13 R349, 14 R350). -/

namespace Sys2Proof.StoreWindowProofs

open Sys2Proof Sys2Proof.Machine Sys2Proof.Safety Sys2Proof.OrgProofs Sys2Proof.StoreProofs

/-- Where the lender keeps the first byte of the store. -/
def storeBase (d : Dev) : Nat := peerKey d (storeAddr d 0)

theorem win_lt (g : Granary) : g.win < 64 := Nat.mod_lt _ (by omega)

theorem regionOf_storeAddr (d : Dev) {off : Nat} (h : off < 2 ^ 36) : regionOf d (storeAddr d off) = .peer d.granary.win := by
  have hw := win_lt d.granary
  unfold regionOf storeAddr
  generalize d.granary.win = w at hw
  have hwest : ¬ 0x300000000000 + 0x1000000000 * w + off < 0xA80000000 := by omega
  have heast : ¬ 0x300000000000 + 0x1000000000 * w + off < 0x1500000000 := by omega
  have hsram : ¬ 0x300000000000 + 0x1000000000 * w + off < 0x100200000000 := by omega
  have hhost : ¬ 0x300000000000 + 0x1000000000 * w + off < 0x220000000000 := by omega
  have hlow : 0x300000000000 ≤ 0x300000000000 + 0x1000000000 * w + off := by omega
  have hhigh : 0x300000000000 + 0x1000000000 * w + off < 0x340000000000 := by omega
  have hdiv : (0x300000000000 + 0x1000000000 * w + off - 0x300000000000) / 0x1000000000 = w := by omega
  simp only [hwest, heast, hsram, hhost, hlow, hhigh, hdiv, if_false, if_true, decide_true, decide_false, Bool.and_false, Bool.and_true,
    Bool.false_eq_true]

theorem rangeRegion_storeAddr (d : Dev) {off len : Nat} (hlen : 0 < len) (h : off + len ≤ 2 ^ 36) :
    rangeRegion d (storeAddr d off) len = .peer d.granary.win := by
  unfold rangeRegion
  rw [regionOf_storeAddr d (by omega)]
  dsimp only
  rw [if_pos]
  simp only [storeAddr, regionEnd]
  omega

theorem window_storeAddr (d : Dev) {off : Nat} (h : off < 2 ^ 36) :
    (storeAddr d off - 0x300000000000) / 0x1000000000 = d.granary.win ∧ (storeAddr d off - 0x300000000000) % 0x1000000000 = off := by
  unfold storeAddr
  omega

theorem peerKey_storeAddr (d : Dev) {b : Borrow} (hb : tget d.fabric.borrows d.granary.win = some b) {off : Nat} (h : off < 2 ^ 36) :
    peerKey d (storeAddr d off) = storeBase d + off := by
  obtain ⟨hw, ho⟩ := window_storeAddr d h
  obtain ⟨hw0, ho0⟩ := window_storeAddr d (show 0 < 2 ^ 36 by omega)
  simp only [storeBase, peerKey, hw, hw0, ho, ho0, hb, lentKey]
  omega

theorem noteWrite_of_taken {d : Dev} {a n : Nat} (h : untakenPages d a n = []) :
    ∃ w, noteWrite d a n = { d with granary.written := w } := by
  unfold noteWrite
  split
  · exact ⟨_, rfl⟩
  · rw [h, List.append_nil]
    exact ⟨_, rfl⟩

/-- A write of no bytes stores nothing, whatever its address. -/
theorem storeBytes_nil (d : Dev) (a : Nat) : ∃ f, storeBytes d a [] = { d with mem.flips := f } := by
  have hnote : noteWrite d a 0 = d := by simp [noteWrite]
  unfold storeBytes rawWrite
  rw [List.length_nil, hnote]
  split <;> exact ⟨_, rfl⟩

theorem writeMem_nil (d : Dev) (a : Nat) : ∃ c f, writeMem d none a [] = ({ d with counters := c, mem.flips := f }, none) := by
  have hfault : accessFault d a 0 true = none := rfl
  obtain ⟨c, hcount⟩ := countAccess_frame d true a 0 none
  have hentries : ∀ d : Dev, noteEntries d a 0 none = d := fun d => by
    unfold noteEntries hostPages
    split <;> rfl
  have hrequests : ∀ d : Dev, peerRequests d true a [] 0 none = d := fun d => by
    unfold peerRequests
    split <;> trivial
  have hmerged : mergedFlips d a 0 = [] := by simp [mergedFlips, flipsIn]
  obtain ⟨f, hstore⟩ := storeBytes_nil { d with counters := c } a
  refine ⟨c, f, ?_⟩
  unfold writeMem
  simp only [List.length_nil, hfault, hcount, hentries, hrequests, hmerged, List.foldl_nil]
  cases regionOf d a <;> exact congrArg (fun d => (d, (none : Option Byte))) hstore

section
variable {d : Dev} (hopen : storeOpen d)
include hopen

theorem accessFault_storeAddr {off len : Nat} (write : Bool) (h : off + len ≤ 2 ^ 36) : accessFault d (storeAddr d off) len write = none := by
  obtain ⟨_, b, hb, hsize, hroutable⟩ := hopen
  unfold accessFault
  split
  · rfl
  next hlen =>
    obtain ⟨_, ho⟩ := window_storeAddr d (show off < 2 ^ 36 by omega)
    rw [rangeRegion_storeAddr d (by omega) h]
    simp only [peerFault, hb, ho, hsize, hroutable, show ¬ 2 ^ 36 < off + len by omega, if_false, Bool.not_true, Bool.false_eq_true,
      Option.map_none]

theorem storeRead_eq {off : Nat} (n : Nat) (h : off < 2 ^ 36) : storeRead d off n = cellsRead d.mem.remote (storeBase d + off) n := by
  obtain ⟨_, b, hb, _⟩ := hopen
  rw [storeRead, peerKey_storeAddr d hb h]

theorem readMem_storeAddr {off len : Nat} (hlen : 0 < len) (h : off + len ≤ 2 ^ 36) :
    readMem d none (storeAddr d off) len = (d, .ok (storeRead d off len)) := by
  unfold readMem
  simp only [accessFault_storeAddr hopen false h, countAccess, noteEntries, peerRequests, rawRead,
    regionOf_storeAddr d (show off < 2 ^ 36 by omega), storeRead]

/-- A write to the store brings its bytes to the partner; the Granary notes where it went. -/
theorem writeMem_storeAddr {off : Nat} {b : Bytes} (h : off + b.length ≤ 2 ^ 36) (huntaken : untakenPages d (storeAddr d off) b.length = []) :
    ∃ c f w, writeMem d none (storeAddr d off) b = ({ d with
      counters := c, mem.remote := cellsWrite d.mem.remote (storeBase d + off) b, mem.flips := f, granary.written := w }, none) := by
  by_cases hb : b.length = 0
  · obtain rfl := List.length_eq_zero_iff.mp hb
    obtain ⟨c, f, hwrite⟩ := writeMem_nil d (storeAddr d off)
    exact ⟨c, f, d.granary.written, hwrite⟩
  · have hoff : off < 2 ^ 36 := by omega
    obtain ⟨w, hnote⟩ := noteWrite_of_taken huntaken
    have hregion := regionOf_storeAddr d hoff
    have hkey : peerKey d (storeAddr d off) = storeBase d + off := by
      obtain ⟨_, b, hb, _⟩ := hopen
      exact peerKey_storeAddr d hb hoff
    refine ⟨d.counters, d.mem.flips, w, ?_⟩
    unfold writeMem
    simp only [accessFault_storeAddr hopen true h, countAccess, noteEntries, peerRequests, hregion, storeBytes, rawWrite, hnote]
    rw [show regionOf { d with granary.written := w } (storeAddr d off) = .peer d.granary.win from hregion]
    exact congrArg (fun k => (({ d with mem.remote := cellsWrite d.mem.remote k b, granary.written := w } : Dev), (none : Option Byte))) hkey

end

end Sys2Proof.StoreWindowProofs
end

section
/-! SUPPORT. O55, first part: how a snapshot is armed, how its pages are acknowledged, and how it fails. -/

namespace Sys2Proof.SnapshotProofs

open Sys2Proof Sys2Proof.Machine Sys2Proof.Safety Sys2Proof.OrgProofs Sys2Proof.StoreProofs Sys2Proof.BadgerProofs
open Sys2Proof.RestoreProofs Sys2Proof.StoreWindowProofs Sys2Proof.FetchProofs

/-! ## GR_SNAPSHOT (R355, R356) -/

theorem grSnapshot_acts {s : State} {n : OpName} {o : Op} (hw : atWork s) (hat : granaryAt s.dev 0x0701 n o) :
    let g := s.dev.granary
    let step := if o.f 32 8 = 2 ^ 64 - 1 then s.dev.steps.oldest else o.f 32 8
    acts (.grSnapshot n.ring n.seq) s fun d => d.mem = s.dev.mem ∧
      if step < s.dev.steps.oldest then ended d n 0x20 0 ∧ d.granary = g
      else if g.st = .idle ∧ s.dev.seq.migration = none then
        issuedOp d n = some { o with done := 1 } ∧ d.granary = { g with st := .armed, step := step, byOwl := false, waiters := [n] }
      else if g.st = .armed ∧ g.step = step then
        issuedOp d n = some { o with done := 1 } ∧ d.granary = { g with waiters := g.waiters ++ [n] }
      else issuedOp d n = some { o with starting := false, stallFrom := some (o.stallFrom.getD (deviceTime s.dev)) } ∧ d.granary = g := by
  intro g step
  have ⟨_, _, hstalls⟩ := hw
  have hop := hat.1
  have ⟨hget, _⟩ := issuedOp_eq_some hop
  have hwaits : issuedOp (waitOn s.dev n) n = some { o with starting := false, stallFrom := some (o.stallFrom.getD (deviceTime s.dev)) } :=
    issuedOp_modOp hop (fun _ => rfl) rfl rfl
  have hbegun : ∀ d, issuedOp d n = some o → issuedOp (modOp d n fun o => { o with done := 1 }) n = some { o with done := 1 } :=
    fun d h => issuedOp_modOp h (fun _ => rfl) rfl rfl
  have heq := granaryOp_of_granaryAt hat
  by_cases hold : step < s.dev.steps.oldest
  · refine ⟨completeOp s.dev n stBadDescriptor, act_running hw ((heq _).trans (if_pos hold)) ?_, completeOp_mem .., ?_⟩
    · rw [completeOp_granary]
      exact hstalls
    · rw [if_pos hold]
      exact ⟨ended_completeOp hget _ _, completeOp_granary ..⟩
  · simp only [if_neg hold]
    by_cases hidle : g.st = .idle
    · cases hmig : s.dev.seq.migration with
      | some m =>
        refine ⟨waitOn s.dev n, act_running hw ?_ hstalls, rfl, ?_⟩
        · refine (heq _).trans ((if_neg hold).trans ?_)
          simp [show s.dev.granary.st = .idle from hidle, hmig]
        · rw [if_neg (by simp), if_neg (by simp [hidle])]
          exact ⟨hwaits, rfl⟩
      | none =>
        refine ⟨modOp (armSnapshot s.dev step false (some n)) n fun o => { o with done := 1 }, act_running hw ?_ hstalls, rfl, ?_⟩
        · refine (heq _).trans ((if_neg hold).trans ?_)
          simp [show s.dev.granary.st = .idle from hidle, hmig, step]
        · rw [if_pos ⟨hidle, rfl⟩]
          exact ⟨hbegun (armSnapshot s.dev step false (some n)) hop, rfl⟩
    · by_cases harmed : g.st = .armed ∧ g.step = step
      · refine ⟨modOp { s.dev with granary.waiters := g.waiters ++ [n] } n fun o => { o with done := 1 }, act_running hw ?_ hstalls, rfl, ?_⟩
        · refine (heq _).trans ((if_neg hold).trans ?_)
          simp [show s.dev.granary.st = .armed from harmed.1, show s.dev.granary.step = step from harmed.2, step, g]
        · rw [if_neg fun h => hidle h.1, if_pos harmed]
          exact ⟨hbegun { s.dev with granary.waiters := g.waiters ++ [n] } hop, rfl⟩
      · refine ⟨waitOn s.dev n, act_running hw ?_ hstalls, rfl, ?_⟩
        · refine (heq _).trans ((if_neg hold).trans ?_)
          rw [if_neg (by simpa using hidle), if_neg (by simpa [step, g] using harmed)]
        · rw [if_neg fun h => hidle h.1, if_neg harmed]
          exact ⟨hwaits, rfl⟩

/-! ## SNAP_REQ (R365) -/

theorem requestStep_eq (d : Dev) (t : Nat) :
    requestStep d t = (if t < d.steps.oldest then logEvent d evSnapReqLate (.ctl 0) 0 else d, max t d.steps.oldest) := by
  unfold requestStep
  by_cases h : t < d.steps.oldest
  · rw [if_pos h, if_pos h, Nat.max_eq_right (by omega)]
  · rw [if_neg h, if_neg h, Nat.max_eq_left (by omega)]

/-- The Granary after a request to cut at `step`. -/
def requested (d : Dev) (step : Nat) : Granary :=
  let g := d.granary
  match g.st with
  | .idle => if d.seq.migration.isSome then { g with heldStep := some (min (g.heldStep.getD step) step) }
      else { g with st := .armed, step := step, byOwl := false, waiters := [] }
  | .armed => { g with step := min g.step step }
  | _ => { g with heldStep := some (min (g.heldStep.getD step) step) }

theorem stalls_requested (d : Dev) (step : Nat) : (requested d step).stalls = d.granary.stalls := by
  unfold requested
  dsimp only
  split
  · split <;> rfl
  all_goals rfl

theorem snapReq_eq {d : Dev} {t : Nat} (hcfg : d.granary.cfg ≠ none) :
    snapReq t d = { (if t < d.steps.oldest then logEvent d evSnapReqLate (.ctl 0) 0 else d) with
      granary := requested d (max t d.steps.oldest) } := by
  have hgranary : (if t < d.steps.oldest then logEvent d evSnapReqLate (.ctl 0) 0 else d).granary = d.granary := by
    split
    · exact logEvent_granary ..
    · rfl
  unfold snapReq
  rw [if_neg (by simpa using hcfg), requestStep_eq]
  dsimp only
  generalize (if t < d.steps.oldest then logEvent d evSnapReqLate (.ctl 0) 0 else d) = d1 at hgranary ⊢
  unfold requested armSnapshot
  cases hheld : d.granary.heldStep with
  | none =>
    rw [hgranary]
    dsimp only
    rw [hheld, Option.getD_none, Nat.min_self]
    cases d.granary.st with
    | idle => cases d.seq.migration <;> rfl
    | armed => rfl
    | copying => rfl
    | sealing => rfl
  | some h =>
    rw [hgranary]
    dsimp only
    rw [hheld, Option.getD_some]
    cases d.granary.st with
    | idle => cases d.seq.migration <;> rfl
    | armed => rfl
    | copying => rfl
    | sealing => rfl

theorem snapReq_acts {s : State} (t : W64) (hw : atWork s) :
    let g := s.dev.granary
    let late := t.toNat < s.dev.steps.oldest
    let step := max t.toNat s.dev.steps.oldest
    if g.cfg = none then exec (.snapReqReceived t) s = .next s
    else acts (.snapReqReceived t) s fun d => d.mem = s.dev.mem ∧ (late → recorded s.dev d 0x870 (.ctl 0) 0) ∧
      d.granary = requested s.dev step := by
  intro g late step
  have ⟨_, hrun, hstalls⟩ := hw
  split
  next hcfg => exact act_running_same hw (if_pos (by simpa using hcfg))
  next hcfg =>
    refine ⟨_, act_running hw (snapReq_eq hcfg) ((stalls_requested ..).trans hstalls), ?_, fun hlate => ?_, rfl⟩
    · change (if t.toNat < s.dev.steps.oldest then logEvent s.dev evSnapReqLate (.ctl 0) 0 else s.dev).mem = _
      split
      · exact logEvent_mem ..
      · rfl
    · have hrec := recorded_logEvent hrun evSnapReqLate (.ctl 0) 0
      rw [← if_pos (c := t.toNat < s.dev.steps.oldest) (t := logEvent s.dev evSnapReqLate (.ctl 0) 0) (e := s.dev) hlate] at hrec
      exact hrec

/-! ## Acknowledgements of pages (R357) -/

theorem modAt_eq_set {α : Type} {l : List α} {k : Nat} {x : α} (h : l[k]? = some x) (f : α → α) : modAt l k f = l.set k (f x) := by
  unfold modAt
  rw [h]

theorem settleCopying_eq {d : Dev} (h : d.granary.st = .copying) :
    settleCopying d = { d with granary.st := if d.granary.pages.all (fun x => x.taken && x.acked) then .sealing else .copying } := by
  unfold settleCopying
  by_cases hall : d.granary.pages.all (fun x => x.taken && x.acked) = true
  · rw [if_pos (by simp [h, hall]), if_pos hall]
  · rw [if_neg (by simpa [h] using hall), if_neg hall, ← h]

theorem pageAck_acts {s : State} {die k : Nat} {p : Page} (hw : atWork s) (hst : s.dev.granary.st = .copying)
    (hp : s.dev.granary.pages[k]? = some p) (hdie : p.die = die) (hsent : p.sentAt.isSome = true) :
    let pages := s.dev.granary.pages.set k { p with acked := true }
    acts (.pageAck die k) s fun d => d.granary = { s.dev.granary with
      pages := pages, st := if pages.all (fun x => x.taken && x.acked) then .sealing else .copying } ∧
      { d with granary := s.dev.granary, fabric.requests := s.dev.fabric.requests } = s.dev := by
  intro pages
  have ⟨_, _, hstalls⟩ := hw
  have heq : pageAck die k s.dev = { s.dev with
      granary := { s.dev.granary with pages := pages, st := if pages.all (fun x => x.taken && x.acked) then .sealing else .copying }
      fabric.requests := s.dev.fabric.requests.filter fun r => r.op != pageName k } := by
    have hsent' : p.sentAt.isNone = false := by simpa using hsent
    unfold pageAck
    rw [hp]
    dsimp only
    rw [if_neg (by simp [hst, hdie, hsent']), modAt_eq_set hp]
    exact settleCopying_eq hst
  exact ⟨_, act_running hw heq hstalls, rfl, rfl⟩

/-! ## Failure (R360) -/

theorem granaryIdle_of_unheld {d : Dev} (hstep : d.granary.heldStep = none) (htrigger : d.granary.heldTrigger = false) :
    granaryIdle d = { d with
      granary := { d.granary with st := .idle, pages := [], area := [], waiters := [], byOwl := false }
      fabric.requests := d.fabric.requests.filter fun r => r.op.ring != 65600 } := by
  unfold granaryIdle armHeld
  dsimp only
  rw [hstep, htrigger]
  simp

theorem completeWaiters_of_none {d : Dev} (h : d.granary.waiters = []) (st : Byte) (detail : Nat) : completeWaiters d st detail = d := by
  rw [completeWaiters, h]
  rfl

theorem completeWaiters_of_one {d : Dev} {n : OpName} {o : Op} (h : d.granary.waiters = [n]) (hop : issuedOp d n = some o) (st : Byte)
    (detail : Nat) : completeWaiters d st detail = completeOp d n st detail := by
  rw [completeWaiters, h, List.foldl_cons, List.foldl_nil, hop]

/-- Ending the waiting operations leaves memory and the Granary alone. -/
theorem completeWaiters_keeps (d : Dev) (st : Byte) (detail : Nat) :
    (completeWaiters d st detail).mem = d.mem ∧ (completeWaiters d st detail).granary = d.granary := by
  unfold completeWaiters
  generalize d.granary.waiters = l
  induction l generalizing d with
  | nil => exact ⟨rfl, rfl⟩
  | cons n l ih =>
    rw [List.foldl_cons]
    obtain ⟨hmem, hgranary⟩ := ih (match issuedOp d n with
      | none => d
      | some _ => completeOp d n st detail)
    have hone : (match issuedOp d n with
      | none => d
      | some _ => completeOp d n st detail).mem = d.mem ∧ (match issuedOp d n with
      | none => d
      | some _ => completeOp d n st detail).granary = d.granary := by
      split
      · exact ⟨rfl, rfl⟩
      · exact ⟨completeOp_mem .., completeOp_granary ..⟩
    exact ⟨hmem.trans hone.1, hgranary.trans hone.2⟩

/-- The device once the slot of a failed snapshot counts as written. -/
def slotFailed (d : Dev) : Dev := { d with
  granary.written := modAt d.granary.written d.granary.slot fun _ => none
  granary.digests := modAt d.granary.digests d.granary.slot fun _ => [] }

/-- The device when the failure is recorded and the waiting operations have ended. -/
def failureTold (d : Dev) (st : Byte) (detail : Nat) : Dev :=
  completeWaiters (logEvent (slotFailed d) evSnapshotFailed (.ctl 0) 0) st detail

theorem failureTold_mem (d : Dev) (st : Byte) (detail : Nat) : (failureTold d st detail).mem = d.mem :=
  (completeWaiters_keeps ..).1.trans (logEvent_mem ..)

theorem failureTold_granary (d : Dev) (st : Byte) (detail : Nat) : (failureTold d st detail).granary = (slotFailed d).granary :=
  (completeWaiters_keeps ..).2.trans (logEvent_granary ..)

theorem failSnapshot_eq {d : Dev} (hstep : d.granary.heldStep = none) (htrigger : d.granary.heldTrigger = false) (st : Byte) (detail : Nat) :
    failSnapshot d st detail = { failureTold d st detail with
      granary := { (slotFailed d).granary with st := .idle, pages := [], area := [], waiters := [], byOwl := false }
      fabric.requests := (failureTold d st detail).fabric.requests.filter fun r => r.op.ring != 65600 } := by
  have hgranary := failureTold_granary d st detail
  have hidle := granaryIdle_of_unheld (d := failureTold d st detail) (by rw [hgranary]; exact hstep) (by rw [hgranary]; exact htrigger)
  rw [hgranary] at hidle
  exact hidle

theorem ackTimeout_acts {s : State} {die k t : Nat} {p : Page} (hw : atWork s) (hp : s.dev.granary.pages[k]? = some p)
    (hsent : p.sentAt = some t) (htrigger : s.dev.granary.heldTrigger = false) (hstep : s.dev.granary.heldStep = none) :
    if s.dev.granary.st = .copying ∧ p.die = die ∧ p.acked = false ∧ t + 1000000 ≤ deviceTime s.dev then
      acts (.snapshotAckTimeout die k) s fun d => d.mem = s.dev.mem ∧ d.granary.st = .idle ∧ d.granary.pages = [] ∧
        (s.dev.granary.slot < s.dev.granary.written.length → d.granary.written[s.dev.granary.slot]? = some none) ∧
        (s.dev.granary.waiters = [] → recorded s.dev d 0xC70 (.ctl 0) 0) ∧
        ∀ n o, s.dev.granary.waiters = [n] → issuedOp s.dev n = some o → ended d n 0x3A 0
    else exec (.snapshotAckTimeout die k) s = .next s := by
  have ⟨_, hrun, hstalls⟩ := hw
  have heq : ackTimeout die k s.dev =
      if s.dev.granary.st == .copying && p.die == die && !p.acked && decide (t + 1000000 ≤ deviceTime s.dev) then
        failSnapshot s.dev stFabricUnreachable else s.dev := by
    unfold ackTimeout
    rw [hp]
    dsimp only
    rw [hsent]
  split
  next hdue =>
    obtain ⟨hst, hdie, hacked, htime⟩ := hdue
    rw [if_pos (by simp [hst, hdie, hacked, htime]), failSnapshot_eq hstep htrigger] at heq
    refine ⟨_, act_running hw heq hstalls, failureTold_mem .., rfl, rfl, fun hslot => ?_, fun hnone => ?_, fun n o hone hop => ?_⟩
    · change (modAt s.dev.granary.written s.dev.granary.slot fun _ => none)[s.dev.granary.slot]? = some none
      rw [modAt_eq_set (List.getElem?_eq_getElem hslot), List.getElem?_set_self hslot]
    · have htold : failureTold s.dev stFabricUnreachable 0 = logEvent (slotFailed s.dev) evSnapshotFailed (.ctl 0) 0 :=
        completeWaiters_of_none (by rw [logEvent_granary]; exact hnone) _ _
      have hrec : recorded s.dev (logEvent (slotFailed s.dev) evSnapshotFailed (.ctl 0) 0) evSnapshotFailed (.ctl 0) 0 :=
        recorded_logEvent (d := slotFailed s.dev) hrun _ _ _
      rw [← htold] at hrec
      exact hrec
    · have hlogged : issuedOp (logEvent (slotFailed s.dev) evSnapshotFailed (.ctl 0) 0) n = some o :=
        (issuedOp_congr (logEvent_rings ..) n).trans hop
      have htold : failureTold s.dev stFabricUnreachable 0 =
          completeOp (logEvent (slotFailed s.dev) evSnapshotFailed (.ctl 0) 0) n stFabricUnreachable 0 :=
        completeWaiters_of_one (by rw [logEvent_granary]; exact hone) hlogged _ _
      have hended := ended_completeOp (issuedOp_eq_some hlogged).1 stFabricUnreachable 0
      rw [← htold] at hended
      exact hended
  next hdue =>
    refine act_running_same hw (heq.trans (if_neg fun h => hdue ?_))
    simpa [and_assoc] using h

end Sys2Proof.SnapshotProofs
end

section
/-! SUPPORT. O55, second part: a page that is taken, and what the Granary sends of it (R357, R358). -/

namespace Sys2Proof.SnapshotProofs

open Sys2Proof Sys2Proof.Machine Sys2Proof.Safety Sys2Proof.OrgProofs Sys2Proof.StoreProofs Sys2Proof.BadgerProofs Sys2Proof.MillProofs
open Sys2Proof.RestoreProofs Sys2Proof.StoreWindowProofs Sys2Proof.FetchProofs

/-- Memory and the Granary are as they were. -/
def Kept (d d' : Dev) : Prop := d'.mem = d.mem ∧ d'.granary = d.granary

theorem Kept.trans {d d' d'' : Dev} (h : Kept d d') (h' : Kept d' d'') : Kept d d'' := ⟨h'.1.trans h.1, h'.2.trans h.2⟩

theorem kept_foldl {α : Type} {f : Dev → α → Dev} (h : ∀ d x, Kept d (f d x)) (l : List α) (d : Dev) : Kept d (l.foldl f d) := by
  induction l generalizing d with
  | nil => exact ⟨rfl, rfl⟩
  | cons x l ih => exact (h d x).trans (ih _)

theorem kept_injectMsg (d : Dev) (m : FabMsg) : Kept d (injectMsg d m).1 := by
  unfold injectMsg
  dsimp only
  split
  · exact ⟨rfl, rfl⟩
  · obtain ⟨_, _, _, _, e⟩ := portSend_frame d _ 6 _
    rw [e]
    exact ⟨rfl, rfl⟩
  · exact ⟨logEvent_mem .., logEvent_granary ..⟩

theorem kept_sendRequest (d : Dev) (q : Request) (body : Bytes) : Kept d (sendRequest d q body).1 := by
  unfold sendRequest
  dsimp only
  split
  · exact kept_injectMsg ..
  · exact kept_injectMsg ..

/-- The Granary after a page is taken: its engine's pointer and the page. -/
def pageSent (d : Dev) (die k : Nat) (p : Page) (b : Bytes) (w : List (Option (List (Nat × Nat)))) : Granary :=
  { d.granary with
    written := w
    pagePtr := match stalledPage d die with
      | none => d.granary.pagePtr
      | some i => modAt d.granary.pagePtr die fun _ => (i + 1) % (engineList d die).length
    pages := d.granary.pages.set k { p with taken := true, sentAt := some (deviceTime d), digest := shake256 b } }

theorem grantPage_eq (d : Dev) (die : Nat) : grantPage d die = { d with
    granary.pagePtr := match stalledPage d die with
      | none => d.granary.pagePtr
      | some i => modAt d.granary.pagePtr die fun _ => (i + 1) % (engineList d die).length } := by
  unfold grantPage
  cases stalledPage d die <;> rfl

/-- A write of the store meets no untaken page where every page lies below the peer windows. -/
theorem untakenPages_storeAddr {d : Dev} (hlow : ∀ x ∈ d.granary.pages, x.addr + x.bytes ≤ 0x300000000000) (off n : Nat) :
    untakenPages d (storeAddr d off) n = [] := by
  unfold untakenPages
  split
  · rfl
  · rw [List.map_eq_nil_iff, List.filter_eq_nil_iff]
    rintro ⟨x, i⟩ hx
    have hpage := hlow x (List.fst_mem_of_mem_zipIdx hx)
    have habove : ¬ storeAddr d off < x.addr + x.bytes := by
      unfold storeAddr
      omega
    simp [habove]

/-- Where the next page of a snapshot goes in the store. -/
def pageOff (d : Dev) (p : Page) : Nat :=
  slotOff d d.granary.slot + d.granary.slotSize - 65536 * d.granary.nPages + 65536 * p.index

theorem pageTaken_eq {d : Dev} {die k : Nat} {p : Page} (hst : d.granary.st = .copying) (hopen : storeOpen d)
    (hnext : nextPage d die = some k) (hp : d.granary.pages[k]? = some p)
    (hroom : (d.granary.pages.filter fun x => x.die == die && x.sentAt.isSome && !x.acked).length < 32) (hclear : memClear d p.addr p.bytes)
    (hlow : ∀ x ∈ d.granary.pages, x.addr + x.bytes ≤ 0x300000000000) (hfits : pageOff d p + 65536 ≤ 2 ^ 36) :
    let b := cellsRead d.mem.cells p.addr p.bytes
    ∃ w c f, Kept { d with
      granary := pageSent d die k p b w, counters := c
      mem.remote := cellsWrite d.mem.remote (storeBase d + pageOff d p) (slice b 0 65536), mem.flips := f } (pageTaken die d) := by
  intro b
  obtain ⟨c1, hread⟩ := readMem_of_clear hclear none
  have hopen1 : storeOpen { d with counters := c1 } := hopen
  obtain ⟨c, f, w, hwrite⟩ := writeMem_storeAddr hopen1 (b := slice b 0 65536) (off := pageOff d p) (by rw [slice_length]; exact hfits)
    (untakenPages_storeAddr (d := { d with counters := c1 }) hlow _ _)
  obtain ⟨_, borrow, hborrow, _⟩ := hopen
  refine ⟨w, c, f, ?_⟩
  have hwrite' : writeMem { d with counters := c1 } none
      (storeAddr d (slotOff d d.granary.slot + d.granary.slotSize - 65536 * d.granary.nPages + 65536 * p.index)) (slice b 0 65536) = _ := hwrite
  unfold pageTaken
  dsimp only
  rw [if_neg (by simp [hst, hroom]), hnext]
  dsimp only
  rw [hp]
  dsimp only
  rw [hread]
  dsimp only
  rw [hwrite']
  dsimp only
  rw [hborrow, grantPage_eq]
  dsimp only
  rw [modAt_eq_set hp]
  exact kept_foldl (fun _ _ => kept_sendRequest ..) _ _

theorem cellsWf_remote {d : Dev} (h : storeOpen d) : cellsWf d.mem.remote = true := by
  have hwf := h.1
  simp only [memoryWf, Bool.and_eq_true] at hwf
  exact hwf.2

theorem cellsRead_cellsWrite_same {m : List Host.Cell} (hwf : cellsWf m = true) (a : Nat) {b : Bytes} {n : Nat} (hn : b.length = n) :
    cellsRead (cellsWrite m a b) a n = b := by
  rw [← hn]
  exact cellsRead_eq fun i hi => by rw [cellGet_cellsWrite hwf, if_pos ⟨by omega, by omega⟩, Nat.add_sub_cancel_left]

theorem pageTaken_acts {s : State} {die k : Nat} {p : Page} (hw : atWork s) (hst : s.dev.granary.st = .copying) (hopen : storeOpen s.dev)
    (hnext : nextPage s.dev die = some k) (hp : s.dev.granary.pages[k]? = some p)
    (hroom : (s.dev.granary.pages.filter fun x => x.die == die && x.sentAt.isSome && !x.acked).length < 32)
    (hclear : memClear s.dev p.addr p.bytes) (hlow : ∀ x ∈ s.dev.granary.pages, x.addr + x.bytes ≤ 0x300000000000) :
    let b := cellsRead s.dev.mem.cells p.addr p.bytes
    let at_ := slotOff s.dev s.dev.granary.slot + s.dev.granary.slotSize - 65536 * s.dev.granary.nPages + 65536 * p.index
    at_ + 65536 ≤ 2 ^ 36 →
    acts (.pageTaken die) s fun d => d.mem.cells = s.dev.mem.cells ∧ d.mem.host = s.dev.mem.host ∧
      cellsRead d.mem.remote (peerKey s.dev (storeAddr s.dev at_)) 65536 = slice b 0 65536 ∧
      d.granary.st = .copying ∧ d.granary.pagePtr = (match stalledPage s.dev die with
        | none => s.dev.granary.pagePtr
        | some i => modAt s.dev.granary.pagePtr die fun _ => (i + 1) % (engineList s.dev die).length) ∧
      d.granary.pages = s.dev.granary.pages.set k
        { p with taken := true, sentAt := some (deviceTime s.dev), digest := shake256 b } := by
  intro b at_ hfits
  have ⟨_, _, hstalls⟩ := hw
  obtain ⟨w, c, f, hmem, hgranary⟩ := pageTaken_eq hst hopen hnext hp hroom hclear hlow hfits
  have hkey : peerKey s.dev (storeAddr s.dev at_) = storeBase s.dev + pageOff s.dev p := by
    obtain ⟨_, _, hb, _⟩ := hopen
    exact peerKey_storeAddr s.dev hb (by omega)
  refine ⟨_, act_running hw rfl (by rw [hgranary]; exact hstalls), ?_⟩
  beta_reduce
  rw [hmem, hgranary, hkey]
  exact ⟨rfl, rfl, cellsRead_cellsWrite_same (cellsWf_remote hopen) _ (slice_length ..), hst, rfl, rfl⟩

end Sys2Proof.SnapshotProofs
end

section
/-! SUPPORT. O55, third part: the seal, which commits the generation's record (R361). -/

namespace Sys2Proof.SnapshotProofs

open Sys2Proof Sys2Proof.Machine Sys2Proof.Safety Sys2Proof.OrgProofs Sys2Proof.StoreProofs Sys2Proof.BadgerProofs Sys2Proof.MillProofs
open Sys2Proof.RestoreProofs Sys2Proof.StoreWindowProofs Sys2Proof.FetchProofs Sys2Proof.DigestProofs Sys2Proof.LoomRangeProofs

/-! ## Several writes of the store -/

theorem memoryWf_remote {m : Memory} (h : memoryWf m = true) {r : List Host.Cell} (hr : cellsWf r = true) (f : Table (BitVec 144)) :
    memoryWf { m with remote := r, flips := f } = true := by
  simp only [memoryWf, Bool.and_eq_true] at h ⊢
  exact ⟨h.1, hr⟩

/-- Blocks of the store by their keys at the partner. -/
def keyed (d : Dev) (l : List (Nat × Bytes)) : List (Nat × Bytes) := l.map fun w => (storeBase d + w.1, w.2)

theorem writeAll_storeAddr {d : Dev} (hopen : storeOpen d) (hst : d.granary.st ≠ .copying) {l : List (Nat × Bytes)}
    (hfits : ∀ w ∈ l, w.1 + w.2.length ≤ 2 ^ 36) :
    ∃ c f w, writeAll d none (l.map fun w => (storeAddr d w.1, w.2)) = ({ d with
      counters := c, mem.remote := writeCells d.mem.remote (keyed d l), mem.flips := f, granary.written := w }, none) := by
  induction l generalizing d with
  | nil => exact ⟨_, _, _, rfl⟩
  | cons x l ih =>
    obtain ⟨hx, hl⟩ := List.forall_mem_cons.mp hfits
    obtain ⟨c, f, w, hwrite⟩ := writeMem_storeAddr hopen hx (by simp [untakenPages, hst])
    have hopen1 : storeOpen { d with
        counters := c, mem.remote := cellsWrite d.mem.remote (storeBase d + x.1) x.2, mem.flips := f, granary.written := w } :=
      ⟨memoryWf_remote hopen.1 (cellsWf_cellsWrite _ _ _ (cellsWf_remote hopen)) f, hopen.2⟩
    obtain ⟨c', f', w', hrest⟩ := ih hopen1 hst hl
    refine ⟨c', f', w', ?_⟩
    rw [List.map_cons, writeAll, hwrite]
    exact hrest

/-! ## Both records -/

theorem cellsRead_split (m : List Host.Cell) (a i j : Nat) : cellsRead m a (i + j) = cellsRead m a i ++ cellsRead m (a + i) j := by
  unfold cellsRead
  rw [List.range_add, List.map_append, List.map_map]
  congr 1
  exact List.map_congr_left fun k _ => by simp [Nat.add_assoc]

theorem readRecords_storeOpen {d : Dev} (hopen : storeOpen d) : readRecords d none = (d, .ok (storedGen d 0, storedGen d 1)) := by
  have hsplit : storeRead d 0 512 = storeRead d (256 * 0) 256 ++ storeRead d (256 * 1) 256 := by
    rw [storeRead_eq hopen _ (by omega), storeRead_eq hopen _ (by omega), storeRead_eq hopen _ (by omega)]
    exact cellsRead_split _ _ 256 256
  have hlength : (storeRead d (256 * 0) 256).length = 256 := by simp [storeRead, cellsRead]
  unfold readRecords
  rw [readMem_storeAddr hopen (by omega) (by omega)]
  dsimp only
  rw [hsplit, List.take_left' hlength, List.drop_left' hlength]

/-! ## The record that is committed (Table 14.4) -/

/-- GEN of the generation that is sealed. -/
def sealedGen (d : Dev) : Nat := max (storedGen d 0).gen (storedGen d 1).gen + 1

/-- Its state area. -/
def sealedArea (d : Dev) : Bytes := slice d.granary.area 0 (65536 * d.granary.saPages)

/-- Its root. -/
def sealedRoot (d : Dev) : Bytes :=
  generationRoot (regionRoots d.granary.regions.length d.granary.pages) (shake256 (sealedArea d))

/-- Its record, before COMMITTED is written. -/
def sealedRecord (d : Dev) : Bytes := recordBytes d (sealedGen d) (shake256 (sealedArea d)) (sealedRoot d)

section
variable (d : Dev) (gen : Nat) {h r : Bytes} (hh : h.length = 32) (hr : r.length = 32)

/-- The fields of a record that stand before its digests. -/
def recordHeader (d : Dev) (gen : Nat) : Bytes :=
  leBytes 4 0x47524E59 ++ leBytes 1 d.granary.slot ++ leBytes 3 0 ++ leBytes 8 gen ++ leBytes 8 d.granary.step ++
  leBytes 8 d.granary.cutTime ++ leBytes 8 Config.ident.toNat ++ leBytes 2 d.fabric.coord.toNat ++ leBytes 2 0 ++
  leBytes 4 d.granary.regions.length ++ leBytes 8 d.granary.pages.length

theorem length_recordHeader : (recordHeader d gen).length = 56 := by
  simp only [recordHeader, List.length_append, leBytes_length]

theorem recordBytes_eq (h r : Bytes) :
    recordBytes d gen h r = recordHeader d gen ++ (h ++ (r ++ (leBytes 8 (2 ^ 64 - 1) ++ List.replicate 128 0))) := by
  simp only [recordBytes, recordHeader, List.append_assoc]

theorem fld_record_magic (h r : Bytes) : fld (recordBytes d gen h r) 0 4 = 0x47524E59 := by
  have hmagic : fld (leBytes 4 0x47524E59) 0 4 = 0x47524E59 := by decide
  simp only [recordBytes, List.append_assoc]
  exact (fld_append_left _ (by simp)).trans hmagic

theorem fld_record_gen (h r : Bytes) : fld (recordBytes d gen h r) 8 8 = gen % 2 ^ 64 := by
  have hfield : fld ((leBytes 4 0x47524E59 ++ leBytes 1 d.granary.slot ++ leBytes 3 0) ++ leBytes 8 gen) 8 8 = gen % 256 ^ 8 :=
    fld_append _ _ _ _ (by simp)
  have hsplit : ∃ rest, recordBytes d gen h r =
      ((leBytes 4 0x47524E59 ++ leBytes 1 d.granary.slot ++ leBytes 3 0) ++ leBytes 8 gen) ++ rest :=
    ⟨_, by simp only [recordBytes, List.append_assoc]; rfl⟩
  obtain ⟨rest, hsplit⟩ := hsplit
  rw [hsplit, fld_append_left rest (by simp)]
  exact hfield

theorem fld_record_step (h r : Bytes) : fld (recordBytes d gen h r) 16 8 = d.granary.step % 2 ^ 64 := by
  have hfield : fld ((leBytes 4 0x47524E59 ++ leBytes 1 d.granary.slot ++ leBytes 3 0 ++ leBytes 8 gen) ++ leBytes 8 d.granary.step) 16 8 =
      d.granary.step % 256 ^ 8 := fld_append _ _ _ _ (by simp)
  have hsplit : ∃ rest, recordBytes d gen h r =
      ((leBytes 4 0x47524E59 ++ leBytes 1 d.granary.slot ++ leBytes 3 0 ++ leBytes 8 gen) ++ leBytes 8 d.granary.step) ++ rest :=
    ⟨_, by simp only [recordBytes, List.append_assoc]; rfl⟩
  obtain ⟨rest, hsplit⟩ := hsplit
  rw [hsplit, fld_append_left rest (by simp)]
  exact hfield

include hh in
theorem slice_record_digest (r : Bytes) : slice (recordBytes d gen h r) 56 32 = h := by
  have hhead := length_recordHeader d gen
  rw [recordBytes_eq, slice_append_right _ _ (by omega), hhead, slice_append_left _ (by omega)]
  exact slice_whole hh

include hh hr in
theorem slice_record_root : slice (recordBytes d gen h r) 88 32 = r := by
  have hhead := length_recordHeader d gen
  rw [recordBytes_eq, slice_append_right _ _ (by omega), hhead, slice_append_right _ _ (by omega), hh, slice_append_left _ (by omega)]
  exact slice_whole hr

include hh hr in
theorem length_recordBytes : (recordBytes d gen h r).length = 256 := by
  simp only [recordBytes_eq, List.length_append, length_recordHeader, hh, hr, leBytes_length, List.length_replicate]

end

theorem length_sealedRecord (d : Dev) : (sealedRecord d).length = 256 := length_recordBytes _ _ (length_shake256 _) (length_shake256 _)

/-! ## COMMITTED in a record -/

theorem getD_set_other {b : Bytes} {i x : Nat} (v : Byte) (h : x ≠ i) : (b.set i v).getD x 0 = b.getD x 0 := by
  simp only [List.getD_eq_getElem?_getD, List.getElem?_set_ne (Ne.symm h)]

theorem slice_set_outside {b : Bytes} {i off n : Nat} (v : Byte) (h : i < off ∨ off + n ≤ i) : slice (b.set i v) off n = slice b off n := by
  rw [slice_eq_map, slice_eq_map]
  exact List.map_congr_left fun k hk => getD_set_other v (by have := List.mem_range.mp hk; omega)

theorem fld_set_outside {b : Bytes} {i off n : Nat} (v : Byte) (h : i < off ∨ off + n ≤ i) : fld (b.set i v) off n = fld b off n := by
  rw [fld, slice_set_outside v h, fld]

theorem fld_set_same {b : Bytes} {i : Nat} (v : Byte) (h : i < b.length) : fld (b.set i v) i 1 = v.toNat := by
  have hbyte : (b.set i v).getD i 0 = v := by rw [List.getD_eq_getElem?_getD, List.getElem?_set_self h, Option.getD_some]
  rw [fld, slice_eq_map, List.range_one, List.map_singleton, Nat.add_zero, hbyte]
  rfl

/-- What the partner holds of the slot once COMMITTED is written. -/
theorem genRecord_sealed (d : Dev) :
    let r := genRecord ((sealedRecord d).set 5 0xA5)
    r.committed = true ∧ r.gen = sealedGen d % 2 ^ 64 ∧ r.step = d.granary.step % 2 ^ 64 ∧
    r.root = generationRoot (regionRoots d.granary.regions.length d.granary.pages) r.stateDigest := by
  have hmagic : fld ((sealedRecord d).set 5 0xA5) 0 4 = 0x47524E59 := (fld_set_outside _ (by omega)).trans (fld_record_magic ..)
  have hcommitted : fld ((sealedRecord d).set 5 0xA5) 5 1 = 0xA5 := fld_set_same 0xA5 (by rw [length_sealedRecord]; omega)
  have hgen : fld ((sealedRecord d).set 5 0xA5) 8 8 = sealedGen d % 2 ^ 64 := (fld_set_outside _ (by omega)).trans (fld_record_gen ..)
  have hstep : fld ((sealedRecord d).set 5 0xA5) 16 8 = d.granary.step % 2 ^ 64 := (fld_set_outside _ (by omega)).trans (fld_record_step ..)
  have hdigest : slice ((sealedRecord d).set 5 0xA5) 56 32 = shake256 (sealedArea d) :=
    (slice_set_outside _ (by omega)).trans (slice_record_digest _ _ (length_shake256 _) _)
  have hroot : slice ((sealedRecord d).set 5 0xA5) 88 32 = sealedRoot d :=
    (slice_set_outside _ (by omega)).trans (slice_record_root _ _ (length_shake256 _) (length_shake256 _))
  unfold sealedRoot at hroot
  generalize (sealedRecord d).set 5 0xA5 = b at *
  generalize sealedArea d = area at *
  refine ⟨?_, ?_, hstep, ?_⟩
  · simp [genRecord, hmagic, hcommitted]
  · simp [genRecord, hmagic, hgen]
  · simp only [genRecord, hdigest, hroot]

end Sys2Proof.SnapshotProofs
end

section
/-! SUPPORT. O55, fourth part: what the seal leaves in the store and in the Granary (R361). -/

namespace Sys2Proof.SnapshotProofs

open Sys2Proof Sys2Proof.Machine Sys2Proof.Safety Sys2Proof.OrgProofs Sys2Proof.StoreProofs Sys2Proof.BadgerProofs Sys2Proof.MillProofs
open Sys2Proof.RestoreProofs Sys2Proof.StoreWindowProofs Sys2Proof.FetchProofs Sys2Proof.DigestProofs

/-! ## The writes of a seal -/

/-- The page digests, the region table and the state area, by their places in the store. -/
def slotWrites (d : Dev) : List (Nat × Bytes) :=
  let g := d.granary
  [(slotOff d g.slot + 65536 * (g.saPages + pagesOf (128 * g.regions.length)),
      slice (g.pages.flatMap (·.digest)) 0 (65536 * pagesOf (32 * g.pages.length))),
    (slotOff d g.slot + 65536 * g.saPages, slice (g.regions.flatMap id) 0 (65536 * pagesOf (128 * g.regions.length))),
    (slotOff d g.slot, sealedArea d)]

/-- The record, and COMMITTED in it. -/
def recordWrites (d : Dev) : List (Nat × Bytes) := [(0x100 * d.granary.slot, sealedRecord d), (0x100 * d.granary.slot + 5, [0xA5])]

theorem slotOff_slot_le {d : Dev} (hslot : d.granary.slot < 2) : slotOff d d.granary.slot + d.granary.slotSize ≤ 0x10000 + 2 * d.granary.slotSize := by
  have hle : d.granary.slot * d.granary.slotSize ≤ 1 * d.granary.slotSize := Nat.mul_le_mul_right _ (by omega)
  unfold slotOff
  omega

theorem slotWrites_fit {d : Dev} (hslot : d.granary.slot < 2) (hpages : d.granary.pages.length = d.granary.nPages)
    (hsize : 0x10000 + 2 * d.granary.slotSize ≤ 2 ^ 36) : ∀ w ∈ slotWrites d, 0x10000 ≤ w.1 ∧ w.1 + w.2.length ≤ 2 ^ 36 := by
  have hend := slotOff_slot_le hslot
  have hslotSize : d.granary.slotSize =
      65536 * (d.granary.saPages + pagesOf (128 * d.granary.regions.length) + pagesOf (32 * d.granary.pages.length) + d.granary.nPages) := by
    rw [hpages]
    rfl
  have hstart : 0x10000 ≤ slotOff d d.granary.slot := Nat.le_add_right _ _
  simp only [slotWrites, sealedArea, List.mem_cons, List.not_mem_nil, or_false, forall_eq_or_imp, forall_eq, slice_length]
  omega

theorem recordWrites_fit {d : Dev} (hslot : d.granary.slot < 2) : ∀ w ∈ recordWrites d, w.1 + w.2.length ≤ 2 ^ 36 := by
  simp only [recordWrites, List.mem_cons, List.not_mem_nil, or_false, forall_eq_or_imp, forall_eq, length_sealedRecord, List.length_cons,
    List.length_nil]
  omega

/-! ## The records after it -/

/-- What the partner holds after a seal. -/
def sealedRemote (d : Dev) : List Host.Cell := writeCells d.mem.remote (keyed d (slotWrites d ++ recordWrites d))

/-- The writes of the slot leave the records alone. -/
theorem cellGet_slotWrites {d : Dev} (hwf : cellsWf d.mem.remote = true) (hfit : ∀ w ∈ slotWrites d, 0x10000 ≤ w.1) {x : Nat} (hx : x < 0x10000) :
    cellGet (writeCells d.mem.remote (keyed d (slotWrites d))) (storeBase d + x) = cellGet d.mem.remote (storeBase d + x) := by
  refine cellGet_writeCells_outside hwf fun w hw => ?_
  obtain ⟨v, hv, rfl⟩ := List.mem_map.mp hw
  have := hfit v hv
  unfold within
  dsimp only
  omega

theorem cellsWf_writeCells_keyed {d : Dev} (hwf : cellsWf d.mem.remote = true) (l : List (Nat × Bytes)) :
    cellsWf (writeCells d.mem.remote (keyed d l)) = true := cellsWf_writeCells hwf _

theorem getD_set_same {b : Bytes} {i : Nat} (v : Byte) (h : i < b.length) : (b.set i v).getD i 0 = v := by
  rw [List.getD_eq_getElem?_getD, List.getElem?_set_self h, Option.getD_some]

theorem cellGet_sealedRemote {d : Dev} (hwf : cellsWf d.mem.remote = true) (hfit : ∀ w ∈ slotWrites d, 0x10000 ≤ w.1) {x : Nat} (hx : x < 0x10000) :
    cellGet (sealedRemote d) (storeBase d + x) =
      if 256 * d.granary.slot ≤ x ∧ x < 256 * d.granary.slot + 256 then ((sealedRecord d).set 5 0xA5).getD (x - 256 * d.granary.slot) 0
      else cellGet d.mem.remote (storeBase d + x) := by
  have hbefore := cellGet_slotWrites hwf hfit hx
  have hwf1 := cellsWf_writeCells_keyed hwf (slotWrites d)
  have hwf2 := cellsWf_cellsWrite _ (storeBase d + 0x100 * d.granary.slot) (sealedRecord d) hwf1
  have hremote : sealedRemote d =
      cellsWrite (cellsWrite (writeCells d.mem.remote (keyed d (slotWrites d))) (storeBase d + 0x100 * d.granary.slot) (sealedRecord d))
        (storeBase d + (0x100 * d.granary.slot + 5)) [0xA5] := by
    simp only [sealedRemote, keyed, List.map_append, writeCells, List.foldl_append, recordWrites, List.map_cons, List.map_nil,
      List.foldl_cons, List.foldl_nil]
  rw [hremote, cellGet_cellsWrite hwf2, cellGet_cellsWrite hwf1, hbefore, length_sealedRecord, List.length_singleton]
  generalize 256 * d.granary.slot = a
  by_cases hmark : x = a + 5
  · rw [if_pos (by omega), if_pos (by omega)]
    have h5 : x - a = 5 := by omega
    have h0 : storeBase d + x - (storeBase d + (a + 5)) = 0 := by omega
    rw [h5, h0, getD_set_same _ (by rw [length_sealedRecord]; omega)]
    rfl
  · rw [if_neg (by omega)]
    by_cases hin : a ≤ x ∧ x < a + 256
    · have hplace : storeBase d + x - (storeBase d + a) = x - a := by omega
      rw [if_pos (by omega), if_pos hin, getD_set_other _ (by omega), hplace]
    · rw [if_neg (by omega), if_neg hin]

theorem cellsRead_sealed_record {d : Dev} (hwf : cellsWf d.mem.remote = true) (hfit : ∀ w ∈ slotWrites d, 0x10000 ≤ w.1) (hslot : d.granary.slot < 2) :
    cellsRead (sealedRemote d) (storeBase d + 256 * d.granary.slot) 256 = (sealedRecord d).set 5 0xA5 := by
  have hlength : ((sealedRecord d).set 5 0xA5).length = 256 := List.length_set.trans (length_sealedRecord d)
  have hread := cellsRead_eq (m := sealedRemote d) (a := storeBase d + 256 * d.granary.slot) (b := (sealedRecord d).set 5 0xA5) fun i hi => by
    rw [Nat.add_assoc, cellGet_sealedRemote hwf hfit (by omega), if_pos (by omega), Nat.add_sub_cancel_left]
  rwa [hlength] at hread

theorem cellsRead_other_record {d : Dev} (hwf : cellsWf d.mem.remote = true) (hfit : ∀ w ∈ slotWrites d, 0x10000 ≤ w.1) (hslot : d.granary.slot < 2) :
    cellsRead (sealedRemote d) (storeBase d + 256 * (1 - d.granary.slot)) 256 =
      cellsRead d.mem.remote (storeBase d + 256 * (1 - d.granary.slot)) 256 := by
  refine List.map_congr_left fun i hi => ?_
  have := List.mem_range.mp hi
  rw [Nat.add_assoc, cellGet_sealedRemote hwf hfit (by omega), if_neg (by omega)]

end Sys2Proof.SnapshotProofs
end

section
/-! SUPPORT. O55: snapshots. -/

namespace Sys2Proof.SnapshotProofs

open Sys2Proof Sys2Proof.Machine Sys2Proof.Safety Sys2Proof.OrgProofs Sys2Proof.StoreProofs Sys2Proof.BadgerProofs Sys2Proof.MillProofs
open Sys2Proof.RestoreProofs Sys2Proof.StoreWindowProofs Sys2Proof.FetchProofs Sys2Proof.DigestProofs

/-- The device once the seal's writes are done: `m` is what the partner holds, and `c`, `f` and `w` are counters, stored errors and the
ranges written. -/
def sealWritten (d : Dev) (m : List Host.Cell) (c : Counters) (f : Table (BitVec 144)) (w : List (Option (List (Nat × Nat)))) : Dev := { d with
  counters := c
  mem.remote := m
  mem.flips := f
  granary := { d.granary with
    written := w
    lastCut := some d.granary.step
    digests := modAt d.granary.digests d.granary.slot fun _ => d.granary.pages.map fun p => (p.index, leBytes 8 p.addr ++ p.digest) } }

/-- Then the record of a snapshot that the Owl began is made. -/
def sealRecorded (d d3 : Dev) : Dev :=
  if d.granary.byOwl then logEvent d3 evSnapshotDone (.ctl 0) (sealedGen d + 2 ^ 64 * d.granary.step) else d3

/-- DETAIL of the operations that waited for the snapshot. -/
def sealDetail (d : Dev) : Nat := (d.granary.pages.filter fun p => p.sentAt.isSome).length % 2 ^ 32 + 2 ^ 32 * (sealedGen d % 2 ^ 32)

theorem sealSnapshot_eq {d : Dev} (hst : d.granary.st = .sealing) (hopen : storeOpen d) (hslot : d.granary.slot < 2)
    (hpages : d.granary.pages.length = d.granary.nPages) (hcensus : d.granary.wcAddr = 0) (hsize : 0x10000 + 2 * d.granary.slotSize ≤ 2 ^ 36) :
    ∃ m c f w, m = sealedRemote d ∧
      sealSnapshot d = granaryIdle (completeWaiters (sealRecorded d (sealWritten d m c f w)) stOk (sealDetail d)) := by
  have hfits : ∀ w ∈ slotWrites d ++ recordWrites d, w.1 + w.2.length ≤ 2 ^ 36 := fun w hw => by
    obtain hw | hw := List.mem_append.mp hw
    · exact (slotWrites_fit hslot hpages hsize w hw).2
    · exact recordWrites_fit hslot w hw
  obtain ⟨c, f, w, hwrite⟩ := writeAll_storeAddr hopen (by rw [hst]; decide) hfits
  refine ⟨_, c, f, w, rfl, ?_⟩
  have hagrees : censusAgrees d (regionRoots d.granary.regions.length d.granary.pages) = true := by simp [censusAgrees, hcensus]
  unfold sealSnapshot
  rw [if_neg (by simp [hst])]
  dsimp only
  rw [hagrees, readRecords_storeOpen hopen]
  dsimp only
  rw [if_neg (by simp)]
  change _ = ({ d with counters := c, mem.remote := sealedRemote d, mem.flips := f, granary.written := w }, none) at hwrite
  generalize sealedRemote d = m at hwrite ⊢
  generalize hd2 : ({ d with counters := c, mem.remote := m, mem.flips := f, granary.written := w } : Dev) = d2 at hwrite
  simp only [slotWrites, recordWrites, List.map_cons, List.map_nil, List.cons_append, List.nil_append, sealedArea, sealedRecord,
    sealedGen, sealedRoot] at hwrite
  rw [hwrite]
  dsimp only
  subst hd2
  rfl

theorem sealRecorded_keeps (d d3 : Dev) : (sealRecorded d d3).mem = d3.mem ∧ (sealRecorded d d3).granary = d3.granary ∧
    (sealRecorded d d3).hub.rings = d3.hub.rings := by
  unfold sealRecorded
  split
  · exact ⟨logEvent_mem .., logEvent_granary .., logEvent_rings ..⟩
  · exact ⟨rfl, rfl, rfl⟩

/-- The device that a seal leaves, but for what else the fabric holds. -/
theorem sealSnapshot_idle {d : Dev} {m : List Host.Cell} {c : Counters} {f : Table (BitVec 144)} {w : List (Option (List (Nat × Nat)))}
    (htrigger : d.granary.heldTrigger = false) (hstep : d.granary.heldStep = none) :
    let told := completeWaiters (sealRecorded d (sealWritten d m c f w)) stOk (sealDetail d)
    granaryIdle told = { told with
      granary := { (sealWritten d m c f w).granary with st := .idle, pages := [], area := [], waiters := [], byOwl := false }
      fabric.requests := told.fabric.requests.filter fun r => r.op.ring != 65600 } ∧
    told.mem.cells = d.mem.cells ∧ told.mem.host = d.mem.host ∧ told.mem.remote = m := by
  intro told
  obtain ⟨hmem, hgranary⟩ := completeWaiters_keeps (sealRecorded d (sealWritten d m c f w)) stOk (sealDetail d)
  obtain ⟨hmem', hgranary', _⟩ := sealRecorded_keeps d (sealWritten d m c f w)
  have hg : told.granary = (sealWritten d m c f w).granary := hgranary.trans hgranary'
  have hidle := granaryIdle_of_unheld (d := told) (by rw [hg]; exact hstep) (by rw [hg]; exact htrigger)
  rw [hg] at hidle
  have hm : told.mem = (sealWritten d m c f w).mem := hmem.trans hmem'
  have hcells := congrArg Memory.cells hm
  have hhost := congrArg Memory.host hm
  have hremote := congrArg Memory.remote hm
  exact ⟨hidle, hcells, hhost, hremote⟩

theorem seal_acts {s : State} (hw : atWork s) (hst : s.dev.granary.st = .sealing) (hopen : storeOpen s.dev)
    (htrigger : s.dev.granary.heldTrigger = false) (hstep : s.dev.granary.heldStep = none) (hslot : s.dev.granary.slot < 2)
    (hpages : s.dev.granary.pages.length = s.dev.granary.nPages) (hcensus : s.dev.granary.wcAddr = 0)
    (hsize : 0x10000 + 2 * s.dev.granary.slotSize ≤ 2 ^ 36) :
    let g := s.dev.granary
    let gen := max (storedGen s.dev 0).gen (storedGen s.dev 1).gen + 1
    acts .seal s fun d => d.mem.cells = s.dev.mem.cells ∧ d.mem.host = s.dev.mem.host ∧ d.granary.st = .idle ∧
      d.granary.lastCut = some g.step ∧
      (let r := genRecord (cellsRead d.mem.remote (peerKey s.dev (storeAddr s.dev (256 * g.slot))) 256)
       r.committed = true ∧ r.gen = gen % 2 ^ 64 ∧ r.step = g.step % 2 ^ 64 ∧
       r.root = generationRoot (regionRoots g.regions.length g.pages) r.stateDigest) ∧
      cellsRead d.mem.remote (peerKey s.dev (storeAddr s.dev (256 * (1 - g.slot)))) 256 = storeRead s.dev (256 * (1 - g.slot)) 256 ∧
      (g.byOwl = true → g.waiters = [] → recorded s.dev d 0x470 (.ctl 0) (gen + 2 ^ 64 * g.step)) ∧
      ∀ n o, g.waiters = [n] → issuedOp s.dev n = some o →
        ended d n 0x00 ((g.pages.filter fun x => x.sentAt.isSome).length % 2 ^ 32 + 2 ^ 32 * (gen % 2 ^ 32)) := by
  intro g gen
  have ⟨_, hrun, hstalls⟩ := hw
  obtain ⟨m, c, f, w, hm, heq⟩ := sealSnapshot_eq hst hopen hslot hpages hcensus hsize
  obtain ⟨hidle, hcells, hhost, hremote⟩ := sealSnapshot_idle (m := m) (c := c) (f := f) (w := w) htrigger hstep
  obtain ⟨_, hgranary, hrings⟩ := sealRecorded_keeps s.dev (sealWritten s.dev m c f w)
  have hwf := cellsWf_remote hopen
  have hfit := fun w hw => (slotWrites_fit hslot hpages hsize w hw).1
  obtain ⟨_, _, hborrow, _⟩ := hopen
  have hkey := peerKey_storeAddr s.dev hborrow (off := 256 * s.dev.granary.slot) (by omega)
  have hkey' := peerKey_storeAddr s.dev hborrow (off := 256 * (1 - s.dev.granary.slot)) (by omega)
  rw [hidle] at heq
  refine ⟨_, act_running hw heq hstalls, hcells, hhost, rfl, rfl, ?_, ?_, fun howl hnone => ?_,
    fun n o hone hop => ?_⟩
  · have hread := cellsRead_sealed_record hwf hfit hslot
    dsimp only
    rw [hkey, hremote, hm, hread]
    exact genRecord_sealed s.dev
  · dsimp only
    rw [storeRead, hkey', hremote, hm]
    exact cellsRead_other_record hwf hfit hslot
  · have htold : completeWaiters (sealRecorded s.dev (sealWritten s.dev m c f w)) stOk (sealDetail s.dev) =
        logEvent (sealWritten s.dev m c f w) evSnapshotDone (.ctl 0) (sealedGen s.dev + 2 ^ 64 * s.dev.granary.step) := by
      rw [completeWaiters_of_none (by rw [hgranary]; exact hnone)]
      exact if_pos howl
    have hrec : recorded s.dev (logEvent (sealWritten s.dev m c f w) evSnapshotDone (.ctl 0) (sealedGen s.dev + 2 ^ 64 * s.dev.granary.step))
        evSnapshotDone (.ctl 0) (sealedGen s.dev + 2 ^ 64 * s.dev.granary.step) :=
      recorded_logEvent (d := sealWritten s.dev m c f w) hrun _ _ _
    rw [← htold] at hrec
    exact hrec
  · have hlogged : issuedOp (sealRecorded s.dev (sealWritten s.dev m c f w)) n = some o := (issuedOp_congr hrings n).trans hop
    have hended := ended_completeOp (issuedOp_eq_some hlogged).1 stOk (sealDetail s.dev)
    rw [← completeWaiters_of_one (by rw [hgranary]; exact hone) hlogged stOk (sealDetail s.dev)] at hended
    exact hended

/-- Settles O55, clause by clause: each of the operations is followed on the Granary and on the store's bytes. -/
theorem snapshots : Obligations.Snapshots := by
  unfold Obligations.Snapshots
  refine ⟨fun s n o hw hat => grSnapshot_acts hw hat, fun s t hw => snapReq_acts t hw,
    fun s die k p hw hst hopen hnext hp hroom hclear hlow => pageTaken_acts hw hst hopen hnext hp hroom hclear hlow,
    fun s die k p hw hst hp hdie hsent => pageAck_acts hw hst hp hdie hsent,
    fun s die k t p hw hp hsent htrigger hstep => ackTimeout_acts hw hp hsent htrigger hstep, fun s hw => ⟨fun hst => ?_, ?_⟩⟩
  · exact act_running_same hw (if_pos (by simpa using hst))
  · exact fun hst hopen htrigger hstep hslot hpages hcensus hsize => seal_acts hw hst hopen htrigger hstep hslot hpages hcensus hsize

end Sys2Proof.SnapshotProofs
end

section
/-! SUPPORT. Messages that can leave: what their sending changes, and that it closes no route (12 R308 to R313, R321). -/

namespace Sys2Proof.CollectiveProofs

open Sys2Proof Sys2Proof.Machine Sys2Proof.Safety Sys2Proof.OrgProofs Sys2Proof.LinkProofs Sys2Proof.MessageProofs

/-! ## The states of ports -/

/-- A port's state, as routes see it, is as it was. -/
def SameState (p p' : Port) : Prop := p'.st = p.st ∧ p'.forced = p.forced

theorem SameState.trans {p p' p'' : Port} (h : SameState p p') (h' : SameState p' p'') : SameState p p'' :=
  ⟨h'.1.trans h.1, h'.2.trans h.2⟩

theorem sameState_sendFlits (vc : Nat) (l : List (Bool × Bytes)) (r : Port × List Bytes) : SameState r.1 (Port.sendFlits vc l r).1 := by
  induction l generalizing r with
  | nil => exact ⟨rfl, rfl⟩
  | cons x l ih =>
    unfold Port.sendFlits
    split
    · exact SameState.trans ⟨rfl, rfl⟩ (ih _)
    · exact ⟨rfl, rfl⟩

theorem sameState_resume (p : Port) : SameState p p.resume.1 := by
  have hfold : ∀ (l : List (Nat × List (Bool × Bytes))) (r : Port × List Bytes),
      SameState r.1 (l.foldl (fun r e => Port.sendFlits e.1 e.2 r) r).1 := by
    intro l
    induction l with
    | nil => exact fun r => ⟨rfl, rfl⟩
    | cons e l ih => exact fun r => (sameState_sendFlits ..).trans (ih _)
  exact hfold p.sending (p, [])

/-! ## What leaves -/

/-- Messages have left, or wait in their ports: nothing else has changed but counters, and no port's state has. -/
def Sent (d d' : Dev) : Prop :=
  (∃ p x b c, d' = { d with fabric.ports := p, out.fabric := x, out.flits := b, counters := c }) ∧
  ∀ q, SameState (getPort d q) (getPort d' q)

theorem Sent.refl (d : Dev) : Sent d d := ⟨⟨_, _, _, _, rfl⟩, fun _ => ⟨rfl, rfl⟩⟩

theorem Sent.trans {d d' d'' : Dev} (h : Sent d d') (h' : Sent d' d'') : Sent d d'' := by
  obtain ⟨⟨_, _, _, _, rfl⟩, hs⟩ := h
  obtain ⟨⟨_, _, _, _, rfl⟩, hs'⟩ := h'
  exact ⟨⟨_, _, _, _, rfl⟩, fun q => (hs q).trans (hs' q)⟩

theorem getD_set {α : Type} (l : List α) (q k : Nat) (p x : α) : (l.set q p).getD k x = if k = q ∧ q < l.length then p else l.getD k x := by
  rw [List.getD_eq_getElem?_getD, List.getD_eq_getElem?_getD]
  by_cases hk : k = q
  · subst hk
    by_cases hlt : k < l.length
    · rw [List.getElem?_set_self hlt, if_pos ⟨rfl, hlt⟩, Option.getD_some]
    · rw [List.set_eq_of_length_le (by omega), if_neg fun h => hlt h.2]
  · rw [List.getElem?_set_ne (Ne.symm hk), if_neg fun h => hk h.1]

theorem sent_emitFlits {d : Dev} {q : Nat} {p : Port} (h : SameState (getPort d q) p) (sent : List Bytes) : Sent d (emitFlits d q p sent) := by
  obtain ⟨c, e⟩ := emitFlits_frame d q p sent
  rw [e]
  refine ⟨⟨_, _, _, _, rfl⟩, fun k => ?_⟩
  change SameState (getPort d k) ((d.fabric.ports.set q p).getD k {})
  rw [getD_set]
  split
  next hk =>
    rw [hk.1]
    exact h
  next => exact ⟨rfl, rfl⟩

theorem sent_modPort {f : Port → Port} (d : Dev) (q : Nat) (h : ∀ p, SameState p (f p)) : Sent d (modPort d q f) := by
  refine ⟨⟨_, _, _, _, rfl⟩, fun k => ?_⟩
  by_cases hk : k = q
  · subst hk
    by_cases hlt : k < d.fabric.ports.length
    · rw [getPort_modPort hlt]
      exact h _
    · have hnone : d.fabric.ports[k]? = none := List.getElem?_eq_none (by omega)
      have hsame : modPort d k f = d := by simp [modPort, modAt, hnone]
      rw [hsame]
      exact ⟨rfl, rfl⟩
  · rw [getPort_of_other (d' := modPort d q f) rfl hk]
    exact ⟨rfl, rfl⟩

theorem sent_out (d : Dev) (x : List (Nat × FabMsg)) : Sent d { d with out.fabric := x } := ⟨⟨_, _, _, _, rfl⟩, fun _ => ⟨rfl, rfl⟩⟩

theorem sent_drainPort (q fuel : Nat) (d : Dev) : Sent d (drainPort q fuel d) := by
  induction fuel generalizing d with
  | zero => exact .refl d
  | succ fuel ih =>
    unfold drainPort
    dsimp only
    split
    · exact .refl d
    · split
      · exact .refl d
      next w _ =>
        refine ((sent_out d _).trans (sent_emitFlits (d := { d with out.fabric := d.out.fabric ++ [(q, w.2)] }) ?_ _)).trans (ih _)
        exact SameState.trans ⟨rfl, rfl⟩ (sameState_sendFlits ..)

theorem sent_pumpPort (d : Dev) (q : Nat) : Sent d (pumpPort d q) := by
  unfold pumpPort
  dsimp only
  split
  · exact .refl d
  · refine Sent.trans ?_ (sent_drainPort ..)
    split
    · exact .refl d
    · exact sent_emitFlits (sameState_resume _) _

theorem sent_portSend (d : Dev) (q i : Nat) (m : FabMsg) : Sent d (portSend d q i m) :=
  (sent_modPort (f := fun p => { p with waiting := p.waiting ++ [(i, m)] }) d q fun _ => ⟨rfl, rfl⟩).trans (sent_pumpPort _ q)

theorem sent_injectMsg {d : Dev} {m : FabMsg} (h : routable d m.dest m.cls = true) : Sent d (injectMsg d m).1 ∧ (injectMsg d m).2 = true := by
  unfold injectMsg
  dsimp only
  split
  · exact ⟨sent_out .., rfl⟩
  · exact ⟨sent_portSend .., rfl⟩
  next hroute => simp [routable, hroute] at h

theorem Sent.routable_eq {d d' : Dev} (h : Sent d d') (dest : W16) (cls : Nat) : routable d' dest cls = routable d dest cls := by
  obtain ⟨⟨p, x, b, c, e⟩, hs⟩ := h
  have hfabric : d'.fabric = { d.fabric with ports := d'.fabric.ports } := by rw [e]
  unfold routable
  rw [routeOf_congr hfabric (fun q => (hs q).1) (fun q => (hs q).2)]

theorem sent_foldl {α : Type} {f : Dev → α → Dev} {p : Dev → Prop} (hp : ∀ d d', Sent d d' → p d → p d') {l : List α}
    (h : ∀ d, p d → ∀ x ∈ l, Sent d (f d x)) {d : Dev} (hd : p d) : Sent d (l.foldl f d) := by
  induction l generalizing d with
  | nil => exact .refl d
  | cons x l ih =>
    have hx := h d hd x List.mem_cons_self
    exact hx.trans (ih (fun e he y hy => h e he y (List.mem_cons_of_mem _ hy)) (hp _ _ hx hd))

/-- A collective's message to a member that can be reached leaves whole. -/
theorem sent_collSend {d : Dev} {dest : W16} (h : routable d dest 2 = true) (inst : CollName) (op : Nat) (body : Bytes) :
    Sent d (collSend d dest inst op body) := by
  unfold collSend
  refine sent_foldl (p := fun d => routable d dest 2 = true) (fun d d' hs hr => (hs.routable_eq dest 2).trans hr) (fun e he k _ => ?_) h
  dsimp only
  obtain ⟨hsent, hok⟩ := sent_injectMsg (d := e) (m := { dest := dest, src := 0, cls := 2, op := op, hops := 0, inject := 0, tag := inst.tag, info := instInfo inst
                                                         body := (body.drop (4096 * k)).take 4096 }) he
  rw [if_pos hok]
  exact hsent

end Sys2Proof.CollectiveProofs
end

section
/-! SUPPORT. O53, first part: a member's part of a collective, its segments and its PRESENT (12 R325, R327). -/

namespace Sys2Proof.CollectiveProofs

open Sys2Proof Sys2Proof.Machine Sys2Proof.Safety Sys2Proof.OrgProofs Sys2Proof.LinkProofs Sys2Proof.MillProofs Sys2Proof.StoreProofs
open Sys2Proof.BadgerProofs Sys2Proof.FetchProofs

/-- Every member but this device can be reached. -/
abbrev Reaches (g : Group) (d : Dev) : Prop := ∀ k, k < g.members.length → k ≠ g.me d → routable d (g.coordOf k) 2 = true

theorem Sent.me_eq {d d' : Dev} (h : Sent d d') (g : Group) : g.me d' = g.me d := by
  obtain ⟨⟨_, _, _, _, rfl⟩, _⟩ := h
  rfl

theorem Sent.reaches {d d' : Dev} (h : Sent d d') {g : Group} (hr : Reaches g d) : Reaches g d' := fun k hk hme => by
  rw [h.routable_eq]
  exact hr k hk (by rwa [h.me_eq g] at hme)

/-- Segments of which this device roots none go to their roots. -/
theorem sent_giveSegments {g : Group} {n : OpName} {d : Dev} {l : List SegMsg} (hpos : 0 < g.members.length) (hr : Reaches g d)
    (hl : ∀ x ∈ l, x.segment % g.members.length ≠ g.me d) : Sent d (l.foldl (giveSegment g n) d) := by
  refine sent_foldl (p := fun e => Reaches g e ∧ g.me e = g.me d) (fun e e' hs he => ⟨hs.reaches he.1, (hs.me_eq g).trans he.2⟩)
    (fun e he x hx => ?_) ⟨hr, rfl⟩
  obtain ⟨hreach, hme⟩ := he
  have hroot : x.segment % g.members.length ≠ g.me e := hme ▸ hl x hx
  unfold giveSegment
  dsimp only
  rw [if_neg hroot]
  exact sent_collSend (hreach _ (Nat.mod_lt _ hpos) hroot) ..

/-! ## Messages that may fail (R321) -/

/-- Memory, the Granary, and the instances that this device knows are as they were. -/
structure Calm (d d' : Dev) : Prop where
  mem : d'.mem = d.mem
  granary : d'.granary = d.granary
  parts : d'.fabric.parts = d.fabric.parts
  coordinators : d'.fabric.coordinators = d.fabric.coordinators
  roots : d'.fabric.roots = d.fabric.roots
  groups : d'.fabric.groups = d.fabric.groups

theorem Calm.refl (d : Dev) : Calm d d := ⟨rfl, rfl, rfl, rfl, rfl, rfl⟩

theorem Calm.trans {d d' d'' : Dev} (h : Calm d d') (h' : Calm d' d'') : Calm d d'' :=
  ⟨h'.mem.trans h.mem, h'.granary.trans h.granary, h'.parts.trans h.parts, h'.coordinators.trans h.coordinators, h'.roots.trans h.roots,
    h'.groups.trans h.groups⟩

theorem calm_foldl {α : Type} {f : Dev → α → Dev} (h : ∀ d x, Calm d (f d x)) (l : List α) (d : Dev) : Calm d (l.foldl f d) := by
  induction l generalizing d with
  | nil => exact .refl d
  | cons x l ih => exact (h d x).trans (ih _)

theorem calm_logEvent (d : Dev) (ev : Nat) (src : Source) (detail : Nat) (r : Option Nat) : Calm d (logEvent d ev src detail r) := by
  have hfabric := logEvent_fabric d ev src detail r
  exact ⟨logEvent_mem .., logEvent_granary .., congrArg Fabric.parts hfabric, congrArg Fabric.coordinators hfabric, congrArg Fabric.roots hfabric,
    congrArg Fabric.groups hfabric⟩

theorem calm_completeOp (d : Dev) (n : OpName) (st : Byte) (detail : Nat) : Calm d (completeOp d n st detail) := by
  obtain ⟨_, _, _, _, _, _, _, _, e⟩ := completeOp_frame d n st detail
  rw [e]
  exact ⟨rfl, rfl, rfl, rfl, rfl, rfl⟩

theorem calm_modOp (d : Dev) (n : OpName) (f : Op → Op) : Calm d (modOp d n f) := ⟨rfl, rfl, rfl, rfl, rfl, rfl⟩

theorem Sent.calm {d d' : Dev} (h : Sent d d') : Calm d d' := by
  obtain ⟨⟨_, _, _, _, rfl⟩, _⟩ := h
  exact ⟨rfl, rfl, rfl, rfl, rfl, rfl⟩

theorem calm_failRequest (d : Dev) (n : OpName) (st : Byte) : Calm d (failRequest d n st) := by
  unfold failRequest
  split
  · unfold failFetch
    dsimp only
    split
    · exact .refl d
    · exact ⟨rfl, rfl, rfl, rfl, rfl, rfl⟩
  · split
    · exact .refl d
    · exact calm_completeOp ..

theorem calm_failCollective (d : Dev) (info : Bytes) (tag : W32) : Calm d (failCollective d info tag) := by
  unfold failCollective
  refine calm_foldl (fun d p => ?_) _ d
  split
  · exact calm_failRequest ..
  · exact .refl d

theorem calm_injectMsg (d : Dev) (m : FabMsg) : Calm d (injectMsg d m).1 ∧ (injectMsg d m).1.steps = d.steps := by
  unfold injectMsg
  dsimp only
  split
  · exact ⟨⟨rfl, rfl, rfl, rfl, rfl, rfl⟩, rfl⟩
  · have hsent := fun m => sent_portSend d ‹_› 6 m
    refine ⟨(hsent _).calm, ?_⟩
    obtain ⟨⟨_, _, _, _, e⟩, _⟩ := hsent _
    rw [e]
  · exact ⟨calm_logEvent .., logEvent_steps ..⟩

theorem calm_collSend (d : Dev) (dest : W16) (inst : CollName) (op : Nat) (body : Bytes) : Calm d (collSend d dest inst op body) := by
  unfold collSend
  refine calm_foldl (fun d k => ?_) _ d
  dsimp only
  split
  · exact (calm_injectMsg ..).1
  · exact (calm_injectMsg ..).1.trans (calm_failCollective ..)

/-- Where this device has no part in any collective, a message that cannot leave ends nothing. -/
theorem steps_collSend {d : Dev} (h : d.fabric.parts = []) (dest : W16) (inst : CollName) (op : Nat) (body : Bytes) :
    (collSend d dest inst op body).steps = d.steps := by
  unfold collSend
  generalize List.range _ = l
  induction l generalizing d with
  | nil => rfl
  | cons k l ih =>
    rw [List.foldl_cons]
    obtain ⟨hcalm, hsteps⟩ := calm_injectMsg d { dest := dest, src := 0, cls := 2, op := op, hops := 0, inject := 0, tag := inst.tag, info := instInfo inst
                                                 body := (body.drop (4096 * k)).take 4096 }
    have hparts := hcalm.parts.trans h
    dsimp only
    split
    · exact (ih hparts).trans hsteps
    · have hfail : ∀ e : Dev, e.fabric.parts = [] → failCollective e (instInfo inst) inst.tag = e := fun e he => by
        unfold failCollective
        rw [he]
        rfl
      rw [hfail _ hparts]
      exact (ih hparts).trans hsteps

/-! ## PRESENT (R327, R330) -/

/-- A member with every segment acknowledged is PRESENT, and tells its coordinator. -/
theorem sendPresent_spec {d : Dev} {n : OpName} {o : Op} {p : MemberPart} {g : Group} (hop : issuedOp d n = some o)
    (hparts : d.fabric.parts = [p]) (hname : p.op = n) (hgroup : getGroup d p.inst.group = some g) (hcoord : g.coord ≠ g.me d)
    (hpresent : p.present = false) :
    if p.acked < p.segments then sendPresent d n = d
    else ∃ x body, sendPresent d n = collSend { d with fabric.parts := [{ p with present := true, presentAt := deviceTime d }], steps := x }
      (g.coordOf g.coord) p.inst opPresent body := by
  have hpart : getPart d n = some p := by simp [getPart, hparts, hname]
  unfold sendPresent
  rw [hop, hpart]
  dsimp only
  rw [hgroup]
  dsimp only
  split
  next hfew => rw [if_pos (by simp [hfew])]
  next hall =>
    rw [if_neg (by simp [hpresent]; omega)]
    have hmod : modPart d n (fun p => { p with present := true, presentAt := deviceTime d }) =
        { d with fabric.parts := [{ p with present := true, presentAt := deviceTime d }] } := by
      simp [modPart, hparts, hname]
    rw [hmod]
    split
    · obtain ⟨x, hx⟩ := modStep_frame { d with fabric.parts := [{ p with present := true, presentAt := deviceTime d }] } p.inst.step.toNat
        fun st => { st with healthSent := true }
      rw [hx]
      unfold givePresent
      rw [if_neg (by exact hcoord)]
      exact ⟨x, _, rfl⟩
    · unfold givePresent
      rw [if_neg (by exact hcoord)]
      exact ⟨d.steps, _, rfl⟩

/-! ## Acknowledgements (R327) -/

theorem segmentAck_acts {s : State} {n : OpName} {o : Op} {p : MemberPart} {g : Group} (count : Nat) (hw : atWork s)
    (hruns : collRuns s.dev n o p g) (hcoord : g.coord ≠ g.me s.dev) (hpresent : p.present = false) :
    let acked := min p.segments (p.acked + count)
    acts (.segmentAckReceived n.ring n.seq count) s fun d => d.mem = s.dev.mem ∧
      d.fabric.parts = [if acked < p.segments then { p with acked := acked }
        else { p with acked := acked, present := true, presentAt := deviceTime s.dev }] ∧
      (acked < p.segments → { d with fabric.parts := s.dev.fabric.parts } = s.dev) := by
  intro acked
  have ⟨_, _, hstalls⟩ := hw
  obtain ⟨hop, hparts, hname, hgroup⟩ := hruns
  have hmod : modPart s.dev n (fun p => { p with acked := min p.segments (p.acked + count) }) =
      { s.dev with fabric.parts := [{ p with acked := acked }] } := by
    simp [modPart, hparts, hname, acked]
  have hpresented := sendPresent_spec (d := { s.dev with fabric.parts := [{ p with acked := acked }] }) (p := { p with acked := acked })
    (g := g) hop rfl hname hgroup hcoord hpresent
  by_cases hfew : acked < p.segments
  · rw [if_pos hfew] at hpresented
    refine ⟨{ s.dev with fabric.parts := [{ p with acked := acked }] }, act_running hw ?_ hstalls, rfl, ?_, fun _ => rfl⟩
    · exact (congrArg (sendPresent · n) hmod).trans hpresented
    · rw [if_pos hfew]
  · rw [if_neg hfew] at hpresented
    obtain ⟨x, body, heq⟩ := hpresented
    have hcalm := calm_collSend { s.dev with
      fabric.parts := [{ p with acked := acked, present := true, presentAt := deviceTime s.dev }], steps := x }
      (g.coordOf g.coord) p.inst opPresent body
    have hkept := congrArg Granary.stalls hcalm.granary
    refine ⟨_, act_running hw ((congrArg (sendPresent · n) hmod).trans heq) (hkept.trans hstalls), hcalm.mem, ?_,
      fun h => absurd h hfew⟩
    rw [if_neg hfew]
    exact hcalm.parts

/-! ## COLL (R327) -/

/-- This device's part of a collective, as it begins: the values of its own places. -/
def startedPart (d : Dev) (n : OpName) (o : Op) (g : Group) : MemberPart :=
  let own := (g.placesOf (g.me d)).length
  { op := n, inst := collName d o, segments := o.collSegs * own
    values := (List.range own).map fun k => (List.range o.collCount).map fun i =>
      collElem (o.f 60 2) (o.f 62 2)
        (cellsRead d.mem.cells (o.f 48 8 + k * o.f 56 4) (packedBytes (fmtOf (o.f 60 2)).code o.collCount)) i }

/-- The segments that a part sends. -/
def partSegments (d : Dev) (o : Op) (g : Group) (p : MemberPart) : List SegMsg :=
  (List.range o.collSegs).flatMap fun s => ((g.placesOf (g.me d)).zip p.values).map fun e =>
    { inst := collName d o, place := e.1, segment := s, count := o.collCount, seg := o.collSeg, kind := BitVec.ofNat 8 (o.f 34 1)
      inFmt := BitVec.ofNat 16 (o.f 60 2), outFmt := BitVec.ofNat 16 (o.f 62 2), elems := (e.2.drop (s * o.collSeg)).take o.collSeg }

/-- The device once the operation has begun, its places have been read and its part is made. -/
def partMade (d : Dev) (n : OpName) (o : Op) (g : Group) (c : Counters) : Dev :=
  { modOp d n (fun o => { o with done := 1 }) with counters := c, fabric.parts := [startedPart d n o g] }

/-- A COLL that adds no carry: its part, its segments, and then PRESENT where it has none to send. -/
theorem collStart_eq {d : Dev} {n : OpName} {o : Op} {port : Nat} {g : Group} (hat : collAt d n port o)
    (hgroup : getGroup d (collName d o).group = some g) (hlate : g.late = false) (hparts : d.fabric.parts = [])
    (hclear : ∀ k, k < (g.placesOf (g.me d)).length →
      memClear d (o.f 48 8 + k * o.f 56 4) (packedBytes (fmtOf (o.f 60 2)).code o.collCount)) :
    ∃ c, collStart n d = sendPresent ((partSegments d o g (startedPart d n o g)).foldl (giveSegment g n) (partMade d n o g c)) n := by
  obtain ⟨hop, htarget, hcode, hdone, hfirst⟩ := hat
  obtain ⟨c, hread⟩ := readAll_of_clear (d := modOp d n fun o => { o with done := 1 })
    (l := (List.range (g.placesOf (g.me d)).length).map fun k =>
      (o.f 48 8 + k * o.f 56 4, packedBytes (fmtOf (o.f 60 2)).code o.collCount))
    (fun r hr => by
      obtain ⟨k, hk, rfl⟩ := List.mem_map.mp hr
      exact memClear_of_onlyWritten ⟨_, _, _, _, rfl, List.Subset.refl _⟩ (hclear k (List.mem_range.mp hk))) (some n)
  have hcarry : ∀ e : Dev, readCarry e n o g (collName d o).step.toNat (g.placesOf (g.me d)).length = (e, .ok none) := fun e => by
    unfold readCarry
    rw [hlate]
    rfl
  refine ⟨c, ?_⟩
  have hgroup' : getGroup (modOp d n fun o => { o with done := 1 }) (collName (modOp d n fun o => { o with done := 1 }) o).group = some g := hgroup
  have hme : g.me (modOp d n fun o => { o with done := 1 }) = g.me d := rfl
  have hname : collName (modOp d n fun o => { o with done := 1 }) o = collName d o := rfl
  unfold collStart
  rw [hop, htarget]
  dsimp only
  rw [if_neg (by simp [hcode, hdone, hfirst]), hgroup']
  dsimp only
  rw [hme, hname, hread]
  dsimp only
  rw [hcarry]
  dsimp only
  rw [List.map_map, List.map_map]
  have hmade : partMade d n o g c = { modOp d n (fun o => { o with done := 1 }) with
      counters := c, fabric.parts := d.fabric.parts ++ [startedPart d n o g] } := by
    rw [hparts]
    rfl
  rw [hmade]
  rfl

theorem Sent.rings_eq {d d' : Dev} (h : Sent d d') : d'.hub.rings = d.hub.rings := by
  obtain ⟨⟨_, _, _, _, rfl⟩, _⟩ := h
  rfl

theorem Sent.time_eq {d d' : Dev} (h : Sent d d') : deviceTime d' = deviceTime d := by
  obtain ⟨⟨_, _, _, _, rfl⟩, _⟩ := h
  rfl

theorem segment_lt_of_mem {d : Dev} {o : Op} {g : Group} {p : MemberPart} {x : SegMsg} (h : x ∈ partSegments d o g p) : x.segment < o.collSegs := by
  obtain ⟨k, hk, hx⟩ := List.mem_flatMap.mp h
  obtain ⟨e, _, rfl⟩ := List.mem_map.mp hx
  exact List.mem_range.mp hk

theorem coll_acts {s : State} {n : OpName} {o : Op} {port : Nat} {g : Group} (hw : atWork s) (hat : collAt s.dev n port o)
    (hgroup : getGroup s.dev (collName s.dev o).group = some g) (hlate : g.late = false) (hparts : s.dev.fabric.parts = [])
    (hcoord : g.coord ≠ g.me s.dev) (hroots : ∀ k, k < o.collSegs → k % g.members.length ≠ g.me s.dev) (hreach : Reaches g s.dev)
    (hlt : g.coord < g.members.length)
    (hclear : ∀ k, k < (g.placesOf (g.me s.dev)).length →
      memClear s.dev (o.f 48 8 + k * o.f 56 4) (packedBytes (fmtOf (o.f 60 2)).code o.collCount)) :
    let idle := o.collSegs * (g.placesOf (g.me s.dev)).length == 0
    acts (.coll n.ring n.seq) s fun d => issuedOp d n = some { o with done := 1 } ∧ d.mem = s.dev.mem ∧
      d.fabric.parts = [{ startedPart s.dev n o g with present := idle, presentAt := if idle then deviceTime s.dev else 0 }] := by
  intro idle
  have ⟨_, _, hstalls⟩ := hw
  have hop := hat.1
  have hpos : 0 < g.members.length := by omega
  obtain ⟨c, heq⟩ := collStart_eq hat hgroup hlate hparts hclear
  have hsent : Sent (partMade s.dev n o g c) ((partSegments s.dev o g (startedPart s.dev n o g)).foldl (giveSegment g n) (partMade s.dev n o g c)) :=
    sent_giveSegments (d := partMade s.dev n o g c) hpos hreach fun x hx => hroots _ (segment_lt_of_mem hx)
  generalize (partSegments s.dev o g (startedPart s.dev n o g)).foldl (giveSegment g n) (partMade s.dev n o g c) = e at heq hsent
  have hop' : issuedOp e n = some { o with done := 1 } :=
    (issuedOp_congr hsent.rings_eq n).trans (issuedOp_modOp hop (fun _ => rfl) rfl rfl)
  have hparts' : e.fabric.parts = [startedPart s.dev n o g] := hsent.calm.parts
  have hgroups : getGroup e (startedPart s.dev n o g).inst.group = some g := by
    unfold getGroup at hgroup ⊢
    rw [hsent.calm.groups]
    exact hgroup
  have hme : g.me e = g.me s.dev := hsent.me_eq g
  have hpresented := sendPresent_spec hop' hparts' rfl hgroups (by rw [hme]; exact hcoord) rfl
  have htime : deviceTime e = deviceTime s.dev := hsent.time_eq
  by_cases hzero : o.collSegs * (g.placesOf (g.me s.dev)).length = 0
  · have hidle : idle = true := by simp [idle, hzero]
    rw [if_neg (by change ¬ 0 < o.collSegs * (g.placesOf (g.me s.dev)).length; omega)] at hpresented
    obtain ⟨x, body, hsend⟩ := hpresented
    rw [htime] at hsend
    have hroutable : routable e (g.coordOf g.coord) 2 = true := (hsent.routable_eq _ _).trans (hreach _ hlt hcoord)
    have hleft := sent_collSend
      (d := { e with fabric.parts := [{ startedPart s.dev n o g with present := true, presentAt := deviceTime s.dev }], steps := x })
      hroutable (startedPart s.dev n o g).inst opPresent body
    have hcalm := hleft.calm
    have hkept := congrArg Granary.stalls (hcalm.granary.trans hsent.calm.granary)
    rw [hidle]
    exact ⟨_, act_running hw (heq.trans hsend) (hkept.trans hstalls), (issuedOp_congr hleft.rings_eq n).trans hop',
      hcalm.mem.trans hsent.calm.mem, hcalm.parts⟩
  · have hidle : idle = false := beq_eq_false_iff_ne.mpr hzero
    rw [if_pos (by change 0 < o.collSegs * (g.placesOf (g.me s.dev)).length; omega)] at hpresented
    have hkept := congrArg Granary.stalls hsent.calm.granary
    rw [hidle]
    exact ⟨_, act_running hw (heq.trans hpresented) (hkept.trans hstalls), hop', hsent.calm.mem, hparts'⟩

end Sys2Proof.CollectiveProofs
end

section
/-! SUPPORT. O53, second part: a segment at its root, a PRESENT at the coordinator, and the ends of a wait (12 R327, R328). -/

namespace Sys2Proof.CollectiveProofs

open Sys2Proof Sys2Proof.Machine Sys2Proof.Safety Sys2Proof.OrgProofs Sys2Proof.LinkProofs Sys2Proof.MillProofs Sys2Proof.StoreProofs
open Sys2Proof.BadgerProofs Sys2Proof.FetchProofs Sys2Proof.LoomRangeProofs Sys2Proof.LoomProofs

/-! ## Unspecified contents (R67) -/

/-- Only memory and the count of free values differ, and of memory's bytes only those of a range. -/
def Scrambled (d d' : Dev) (a n : Nat) : Prop :=
  (∃ k m, d' = { d with draws := k, mem := m }) ∧ cellsWf d'.mem.cells = true ∧ ∀ z, ¬(a ≤ z ∧ z < a + n) → byteAt d' z = byteAt d z

theorem scrambled_storeBytes {d : Dev} {a : Nat} {b : Bytes} (hplain : plainMemory d) (k : Nat) :
    Scrambled d (storeBytes { d with draws := k } a b) a b.length := by
  obtain ⟨hwf, hcfg⟩ := hplain
  have hcells : cellsWf d.mem.cells = true := cellsWf_of_plainMemory ⟨hwf, hcfg⟩
  have hnote : noteWrite { d with draws := k } a b.length = { d with draws := k } := if_pos (by simp [hcfg])
  unfold storeBytes
  rw [hnote]
  unfold rawWrite
  split
  · exact ⟨⟨_, _, rfl⟩, hcells, fun z _ => rfl⟩
  · exact ⟨⟨_, _, rfl⟩, hcells, fun z _ => rfl⟩
  · refine ⟨⟨_, _, rfl⟩, cellsWf_cellsWrite _ _ _ hcells, fun z hz => ?_⟩
    exact (cellGet_cellsWrite hcells a b z).trans (if_neg hz)

/-- A word put back as it was stored changes no byte that is as it was. -/
theorem scrambled_keepWord {d e : Dev} {a n : Nat} (w : Nat) (h : Scrambled d e a n) : Scrambled d (keepWord d e w) a n := by
  obtain ⟨⟨k, m, rfl⟩, hwf, hout⟩ := h
  refine ⟨⟨k, _, rfl⟩, cellsWf_cellsWrite _ _ _ hwf, fun z hz => ?_⟩
  have hlength : (cellsRead d.mem.cells (16 * w) 16).length = 16 := by simp [cellsRead]
  refine (cellGet_cellsWrite hwf _ _ z).trans ?_
  split
  next hin =>
    rw [hlength] at hin
    rw [cellsRead_getD (by omega)]
    exact congrArg (cellGet d.mem.cells) (by omega)
  next => exact hout z hz

theorem scrambled_scramble {d : Dev} (hplain : plainMemory d) (a n : Nat) : Scrambled d (scramble d a n) a n := by
  have hkeep : ∀ (l : List Nat) (e : Dev), Scrambled d e a n → Scrambled d (l.foldl (keepWord d) e) a n := by
    intro l
    induction l with
    | nil => exact fun e h => h
    | cons w l ih => exact fun e h => ih _ (scrambled_keepWord w h)
  unfold scramble
  split
  · have hlength : (freeBytes d n).2.length = n := by simp [freeBytes]
    have hstored := scrambled_storeBytes (a := a) (b := (freeBytes d n).2) hplain (d.draws + n)
    rw [hlength] at hstored
    exact hkeep _ _ hstored
  · exact ⟨⟨_, _, rfl⟩, cellsWf_of_plainMemory hplain, fun z _ => rfl⟩

/-! ## A segment at its root (R327) -/

/-- What a root begins to keep of a segment. -/
def rootOf (x : SegMsg) : RootSegment :=
  { inst := x.inst, segment := x.segment, count := x.count, seg := x.seg, kind := x.kind, inFmt := x.inFmt, outFmt := x.outFmt
    got := [(x.place, x.elems)] }

/-- A root of a collective whose mask is not known serves nothing yet. -/
theorem serveRoot_of_unmasked {d : Dev} {l : List RootSegment} {r : RootSegment} (hroots : d.fabric.roots = l ++ [r])
    (hl : ∀ x ∈ l, x.inst ≠ r.inst) (hmask : r.mask = none) : serveRoot d r.inst r.segment = d := by
  have hfind : d.fabric.roots.find? (fun x => x.inst == r.inst && x.segment == r.segment) = some r := by
    have hnone : l.find? (fun x => x.inst == r.inst && x.segment == r.segment) = none :=
      List.find?_eq_none.mpr fun x hx => by simp [hl x hx]
    rw [hroots, List.find?_append, hnone]
    simp
  unfold serveRoot
  rw [hfind]
  split
  next r' g hr _ =>
    obtain rfl := Option.some.inj hr
    rw [hmask]
  next => rfl

theorem takeSegment_eq {d : Dev} {x : SegMsg} {g : Group} (hgroup : getGroup d x.inst.group = some g)
    (hstep : d.steps.oldest ≤ x.inst.step.toNat) (hroot : x.segment % max 1 g.members.length = g.me d) (hplace : x.place < g.places)
    (hparts : d.fabric.parts = []) (hcoordinators : d.fabric.coordinators = [])
    (hroots : ∀ r ∈ d.fabric.roots, r.inst ≠ x.inst ∧ d.steps.oldest ≤ r.inst.step.toNat) :
    takeSegment d x = serveRoot { stageSegment d g (rootOf x) x.place with
      fabric.roots := (stageSegment d g (rootOf x) x.place).fabric.roots ++ [rootOf x] } x.inst x.segment := by
  have hprune : pruneRoots d = d := by
    have hall : d.fabric.roots.filter (fun r => decide (d.steps.oldest ≤ r.inst.step.toNat)) = d.fabric.roots :=
      List.filter_eq_self.mpr fun r hr => decide_eq_true (hroots r hr).2
    unfold pruneRoots
    rw [hall]
  have hfresh : d.fabric.roots.find? (fun r => r.inst == x.inst && x.segment == r.segment) = none :=
    List.find?_eq_none.mpr fun r hr => by simp [(hroots r hr).1]
  have hknown : d.fabric.roots.find? (fun r => r.inst == x.inst) = none := List.find?_eq_none.mpr fun r hr => by simp [(hroots r hr).1]
  have hcond : ¬ (x.inst.step.toNat < d.steps.oldest || x.segment % max 1 g.members.length != g.me d || decide (g.places ≤ x.place)) = true := by
    simp only [Bool.or_eq_true, decide_eq_true_eq, bne_iff_ne, not_or]
    exact ⟨⟨by omega, fun h => h hroot⟩, by omega⟩
  unfold takeSegment
  dsimp only
  rw [hprune, hgroup]
  dsimp only
  rw [if_neg hcond, hfresh, hknown, hcoordinators]
  have hpart : partOf d x.inst = none := by simp [partOf, hparts]
  rw [hpart]
  rfl

theorem scrambled_stageSegment {d : Dev} (hplain : plainMemory d) (g : Group) (r : RootSegment) (place : Nat) :
    Scrambled d (stageSegment d g r place) g.stageAddr g.stageBytes := by
  unfold stageSegment
  dsimp only
  split
  · exact scrambled_scramble hplain _ _
  · exact ⟨⟨_, _, rfl⟩, cellsWf_of_plainMemory hplain, fun z _ => rfl⟩

theorem stageSegment_zero (d : Dev) (g : Group) (r : RootSegment) : stageSegment d g r 0 = d := rfl

/-- The device once a root keeps a new segment. -/
def rooted (d : Dev) (g : Group) (x : SegMsg) : Dev :=
  { stageSegment d g (rootOf x) x.place with
    fabric.roots := (stageSegment d g (rootOf x) x.place).fabric.roots ++ [rootOf x] }

theorem segmentIn_eq {d : Dev} {x : SegMsg} {g : Group} (hgroup : getGroup d x.inst.group = some g) (htaken : takeSegment d x = rooted d g x)
    (hparts : (rooted d g x).fabric.parts = []) :
    Calm (rooted d g x) (segmentIn x d) ∧ (segmentIn x d).steps = (rooted d g x).steps := by
  unfold segmentIn
  rw [hgroup]
  dsimp only
  rw [htaken]
  split
  · exact ⟨.refl _, rfl⟩
  · split
    · exact ⟨.refl _, rfl⟩
    · exact ⟨calm_collSend .., steps_collSend hparts ..⟩

theorem segment_acts {s : State} {x : SegMsg} {g : Group} (hw : atWork s) (hgroup : getGroup s.dev x.inst.group = some g)
    (hstep : s.dev.steps.oldest ≤ x.inst.step.toNat) (hroot : x.segment % max 1 g.members.length = g.me s.dev) (hplace : x.place < g.places)
    (hparts : s.dev.fabric.parts = []) (hcoordinators : s.dev.fabric.coordinators = [])
    (hroots : ∀ r ∈ s.dev.fabric.roots, r.inst ≠ x.inst ∧ s.dev.steps.oldest ≤ r.inst.step.toNat) (hplain : plainMemory s.dev) :
    acts (.segmentReceived x) s fun d => (x.place = 0 → d.mem = s.dev.mem) ∧
      (∀ z, ¬(g.stageAddr ≤ z ∧ z < g.stageAddr + g.stageBytes) → byteAt d z = byteAt s.dev z) ∧ d.steps = s.dev.steps ∧
      d.fabric.roots = s.dev.fabric.roots ++ [rootOf x] := by
  have ⟨_, _, hstalls⟩ := hw
  obtain ⟨⟨k, m, hstage⟩, _, hout⟩ := scrambled_stageSegment hplain g (rootOf x) x.place
  have hfabric : (stageSegment s.dev g (rootOf x) x.place).fabric = s.dev.fabric := by rw [hstage]
  have hgranary : (stageSegment s.dev g (rootOf x) x.place).granary = s.dev.granary := by rw [hstage]
  have hsteps : (stageSegment s.dev g (rootOf x) x.place).steps = s.dev.steps := by rw [hstage]
  have hrooted : (rooted s.dev g x).fabric.roots = s.dev.fabric.roots ++ [rootOf x] :=
    congrArg (fun f : Fabric => f.roots ++ [rootOf x]) hfabric
  have htaken : takeSegment s.dev x = rooted s.dev g x :=
    (takeSegment_eq hgroup hstep hroot hplace hparts hcoordinators hroots).trans
      (serveRoot_of_unmasked (d := rooted s.dev g x) (r := rootOf x) hrooted (fun r hr => (hroots r hr).1) rfl)
  obtain ⟨hcalm, hsteps'⟩ := segmentIn_eq hgroup htaken ((congrArg Fabric.parts hfabric).trans hparts)
  have hkept := congrArg Granary.stalls (hcalm.granary.trans hgranary)
  refine ⟨_, act_running hw rfl (hkept.trans hstalls), fun hzero => ?_, fun z hz => ?_, hsteps'.trans hsteps, hcalm.roots.trans hrooted⟩
  · have hsame : stageSegment s.dev g (rootOf x) x.place = s.dev := hzero ▸ stageSegment_zero ..
    have hmem := congrArg Dev.mem hsame
    exact hcalm.mem.trans hmem
  · have hcells := congrArg Memory.cells hcalm.mem
    exact (congrArg (cellGet · z) hcells).trans (hout z hz)

/-! ## PRESENT at the coordinator (R327) -/

/-- The coordinators with one more, of a collective that none of them is of. -/
def joined (d : Dev) (c : Coordinator) : Dev := { d with fabric.coordinators := d.fabric.coordinators ++ [c] }

section
variable {d : Dev} {c : Coordinator} (hfresh : ∀ x ∈ d.fabric.coordinators, x.inst ≠ c.inst)
include hfresh

theorem find_joined : (joined d c).fabric.coordinators.find? (fun x => x.inst == c.inst) = some c := by
  have hnone : d.fabric.coordinators.find? (fun x => x.inst == c.inst) = none := List.find?_eq_none.mpr fun x hx => by simp [hfresh x hx]
  simp [joined, List.find?_append, hnone]

theorem modCoordinator_joined {f : Coordinator → Coordinator} : modCoordinator (joined d c) c.inst f = joined d (f c) := by
  have hsame : d.fabric.coordinators.map (fun x => if x.inst == c.inst then f x else x) = d.fabric.coordinators :=
    (List.map_congr_left fun x hx => if_neg (by simpa using hfresh x hx)).trans (List.map_id' _)
  simp only [modCoordinator, joined, List.map_append, hsame, List.map_cons, List.map_nil, beq_self_eq_true, if_true]

end

theorem present_next {s : State} {x : PresentMsg} {g : Group} (hw : atWork s) (hgroup : getGroup s.dev x.inst.group = some g)
    (hcoord : g.coord = g.me s.dev) (hmember : x.member < g.members.length) (htwo : 2 ≤ g.members.length) (hwindow : 0 < g.windowNs)
    (hmatch : x.mismatch = none) (hfresh : ∀ c ∈ s.dev.fabric.coordinators, c.inst ≠ x.inst) :
    exec (.presentReceived x) s = .next { s with dev := { s.dev with fabric.coordinators := s.dev.fabric.coordinators ++
      [{ inst := x.inst, t0 := deviceTime s.dev, present := [(x.member, x.flag, x.carried)] }] } } := by
  have ⟨_, _, hstalls⟩ := hw
  have hold : s.dev.fabric.coordinators.any (fun c => c.inst == x.inst) = false := by simpa using hfresh
  let c : Coordinator := { inst := x.inst, t0 := deviceTime s.dev, present := [], closed := none, mismatch := none }
  have hfind : (joined s.dev c).fabric.coordinators.find? (fun c => c.inst == x.inst) = some c := find_joined (c := c) hfresh
  have hcounted : modCoordinator (joined s.dev c) x.inst (fun c =>
      { c with present := if c.present.any fun y => y.1 == x.member then c.present else c.present ++ [(x.member, x.flag, x.carried)] }) =
      joined s.dev { c with present := [(x.member, x.flag, x.carried)] } := modCoordinator_joined (c := c) hfresh
  have hfind' : (joined s.dev { c with present := [(x.member, x.flag, x.carried)] }).fabric.coordinators.find? (fun c => c.inst == x.inst) =
      some { c with present := [(x.member, x.flag, x.carried)] } :=
    find_joined (c := { c with present := [(x.member, x.flag, x.carried)] }) hfresh
  have heq : takePresent s.dev x = joined s.dev { c with present := [(x.member, x.flag, x.carried)] } := by
    unfold takePresent
    rw [hgroup]
    dsimp only
    rw [if_neg (by simp [hcoord]; omega), hold]
    simp only [Bool.not_false, if_true]
    change (match (joined s.dev c).fabric.coordinators.find? (fun c => c.inst == x.inst) with
      | none => _
      | some c => _) = _
    rw [hfind, hmatch]
    change (if deviceTime s.dev + g.windowNs ≤ deviceTime s.dev then _ else _) = _
    rw [if_neg (by omega)]
    change (if (((modCoordinator (joined s.dev c) x.inst _).fabric.coordinators.find? fun c => c.inst == x.inst).map
      fun c => c.present.length).getD 0 = g.members.length then _ else modCoordinator (joined s.dev c) x.inst _) = _
    rw [hcounted, hfind']
    rw [if_neg (by change ¬ 1 = g.members.length; omega)]
  exact act_running hw heq hstalls

/-! ## The ends of a wait (R328) -/

theorem getPart_of_runs {d : Dev} {n : OpName} {p : MemberPart} (hparts : d.fabric.parts = [p]) (hname : p.op = n) : getPart d n = some p := by
  simp [getPart, hparts, hname]

theorem partOf_of_runs {d : Dev} {inst : CollName} {p : MemberPart} (hparts : d.fabric.parts = [p]) (hinst : inst = p.inst) :
    partOf d inst = some p := by
  simp [partOf, hparts, hinst]

theorem modPart_of_runs {d : Dev} {n : OpName} {p : MemberPart} (hparts : d.fabric.parts = [p]) (hname : p.op = n)
    (f : MemberPart → MemberPart) : modPart d n f = { d with fabric.parts := [f p] } := by
  simp [modPart, hparts, hname]

theorem collFail_acts {s : State} {n : OpName} {o : Op} {p : MemberPart} {g : Group} (hw : atWork s) (hruns : collRuns s.dev n o p g)
    (hwaits : p.present = true ∨ p.mask ≠ none) :
    if (if p.mask.isSome then p.maskAt else p.presentAt) + g.failNs ≤ deviceTime s.dev then
      acts (.collFailTimeout n.ring n.seq) s fun d => ended d n 0x3A 0 ∧ d.mem = s.dev.mem
    else exec (.collFailTimeout n.ring n.seq) s = .next s := by
  have ⟨_, _, hstalls⟩ := hw
  obtain ⟨hop, hparts, hname, hgroup⟩ := hruns
  have heq : collFail n s.dev = if (p.present || p.mask.isSome) && decide ((if p.mask.isSome then p.maskAt else p.presentAt) + g.failNs ≤
      deviceTime s.dev) then completeOp s.dev n stFabricUnreachable else s.dev := by
    unfold collFail
    rw [hop, getPart_of_runs hparts hname]
    dsimp only
    rw [hgroup]
  have hwaits' : (p.present || p.mask.isSome) = true := by
    cases hmask : p.mask <;> simp_all
  rw [hwaits', Bool.true_and] at heq
  by_cases hdue : (if p.mask.isSome then p.maskAt else p.presentAt) + g.failNs ≤ deviceTime s.dev
  · rw [if_pos (decide_eq_true hdue)] at heq
    rw [if_pos hdue]
    exact ⟨_, act_running hw heq ((congrArg Granary.stalls (completeOp_granary ..)).trans hstalls),
      ended_completeOp (issuedOp_eq_some hop).1 _ _, completeOp_mem ..⟩
  · rw [if_neg (by simpa using hdue)] at heq
    rw [if_neg hdue]
    exact act_running_same hw heq

/-! ## A result (R327) -/

theorem checkColl_of_unmasked {d : Dev} {n : OpName} {p : MemberPart} (hparts : d.fabric.parts = [p]) (hname : p.op = n) (hmask : p.mask = none) :
    checkColl d n = d := by
  unfold checkColl
  rw [getPart_of_runs hparts hname]
  split
  next o p' _ hp =>
    obtain rfl := Option.some.inj hp
    rw [hmask]
    split
    next h => cases h
    next => rfl
  next => rfl

/-- Where a result segment goes. -/
def resultAt (o : Op) (segment place : Nat) : Nat :=
  (if o.collKind = 2 then o.f 64 8 + place * o.f 72 4 else o.f 64 8) + elemOffset (o.f 62 2) (segment * o.collSeg)

theorem takeResult_eq {d e : Dev} {n : OpName} {o : Op} {p : MemberPart} {inst : CollName} {segment place : Nat} {data : Bytes}
    (hop : issuedOp d n = some o) (hinst : inst = p.inst)
    (hparts : d.fabric.parts = [p]) (hname : p.op = n) (hmask : p.mask = none)
    (hwrite : writeMem d (some n) (resultAt o segment place) data = (e, none)) (hkept : e.fabric.parts = [p]) :
    takeResult d inst segment place data =
      { e with fabric.parts := [{ p with results := p.results ++ [(segment, if o.collKind = 2 then place else 0)] }] } := by
  subst hname
  have hkey : (if o.collKind = 2 then (segment, place) else (segment, 0)) = (segment, if o.collKind = 2 then place else 0) := by
    split <;> rfl
  unfold resultAt at hwrite
  unfold takeResult
  rw [partOf_of_runs hparts hinst]
  dsimp only
  rw [hop]
  dsimp only
  rw [hwrite]
  dsimp only
  rw [hkey, modPart_of_runs hkept rfl]
  exact checkColl_of_unmasked
    (d := { e with fabric.parts := [{ p with results := p.results ++ [(segment, if o.collKind = 2 then place else 0)] }] })
    (p := { p with results := p.results ++ [(segment, if o.collKind = 2 then place else 0)] }) rfl rfl hmask

theorem result_acts {s : State} {n : OpName} {o : Op} {p : MemberPart} {g : Group} {x : ResultMsg} (hw : atWork s) (hquiet : quietMemory s.dev)
    (hruns : collRuns s.dev n o p g) (hinst : x.inst = p.inst) (hmask : p.mask = none)
    (hclear : memClear s.dev (resultAt o x.segment x.place) x.data.length) :
    acts (.resultReceived x) s fun d => bytesStored s.dev d (resultAt o x.segment x.place) x.data ∧
      d.fabric.parts = [{ p with results := p.results ++ [(x.segment, if o.collKind = 2 then x.place else 0)] }] ∧
      { d with fabric.parts := s.dev.fabric.parts, hub.rings := s.dev.hub.rings, counters := s.dev.counters,
               mem.cells := s.dev.mem.cells } = s.dev := by
  have ⟨_, _, hstalls⟩ := hw
  obtain ⟨hop, hparts, hname, hgroup⟩ := hruns
  obtain ⟨c, hwrite⟩ := writeMem_of_quiet_own hquiet hclear n
  have hcells := cellsWf_of_plainMemory hquiet.1
  have heq := takeResult_eq hop hinst hparts hname hmask hwrite hparts
  refine ⟨_, act_running hw heq hstalls, fun z => ?_, rfl, rfl⟩
  exact cellGet_cellsWrite hcells _ _ z

/-! ## A mask at a member (R327, R328) -/

/-- This device's part once it has the mask. -/
def masked (d : Dev) (p : MemberPart) (m : MaskMsg) : MemberPart := { p with mask := some m, maskAt := deviceTime d }

theorem takeMask_eq {d : Dev} {p : MemberPart} {m : MaskMsg} (hroots : d.fabric.roots = []) (hparts : d.fabric.parts = [p])
    (hinst : m.inst = p.inst) (hmask : p.mask = none) (hcarry : m.carryIn = false) :
    takeMask d m = checkColl { d with fabric.parts := [masked d p m] } p.op := by
  have hsame : ({ d with fabric.roots := [] } : Dev) = d := by rw [← hroots]
  unfold takeMask
  rw [hroots]
  simp only [List.filter_nil, List.map_nil, List.foldl_nil]
  rw [hsame, partOf_of_runs hparts hinst]
  dsimp only
  rw [hmask, modPart_of_runs hparts rfl, hcarry]
  rfl

theorem checkColl_of_masked {d : Dev} {n : OpName} {o : Op} {p : MemberPart} {g : Group} {m : MaskMsg} (hop : issuedOp d n = some o)
    (hparts : d.fabric.parts = [p]) (hname : p.op = n) (hgroup : getGroup d p.inst.group = some g) (hmask : p.mask = some m)
    (hmatch : m.mismatch = none) :
    checkColl d n = if (neededResults d o g m).all p.results.contains then finishColl d n o g p m else d := by
  unfold checkColl
  rw [hop, getPart_of_runs hparts hname]
  dsimp only
  rw [hgroup, hmask]
  dsimp only
  rw [hmatch]

/-- Status and DETAIL of a COLL whose results are all there. -/
def collOutcome (d : Dev) (g : Group) (m : MaskMsg) : Byte × Nat :=
  let low := leNat ((placeMask g.places m.places).take 8)
  if g.places ≤ m.places.length then (stOk, 0)
  else if m.atDeadline = true ∧ m.places = g.placesOf (g.me d) then (stNoContributors, low)
  else (stPartial, low)

/-- A COLL that writes neither its mask nor a carry buffer. -/
theorem finishColl_eq {d : Dev} {n : OpName} {o : Op} {p : MemberPart} {g : Group} {m : MaskMsg} (hplaces : o.f 80 8 = 0) (hcarry : o.f 88 8 = 0) :
    ∃ e, Calm d e ∧ e.hub.rings = d.hub.rings ∧
      finishColl d n o g p m = completeOp e n (collOutcome d g m).1 (collOutcome d g m).2 := by
  have hlogged : ∀ late : Bool, Calm d (if late then logEvent d evCollLate (.ring n.ring) 0 else d) ∧
      (if late then logEvent d evCollLate (.ring n.ring) 0 else d).hub.rings = d.hub.rings := fun late => by
    cases late
    · exact ⟨.refl d, rfl⟩
    · exact ⟨calm_logEvent .., logEvent_rings ..⟩
  obtain ⟨hcalm, hrings⟩ := hlogged (!((g.placesOf (g.me d)).all m.places.contains))
  refine ⟨_, hcalm, hrings, ?_⟩
  unfold finishColl collOutcome
  simp only [hplaces, hcarry, if_true, bne_self_eq_false, Bool.and_false, Bool.false_eq_true, if_false]
  by_cases hall : g.places ≤ m.places.length
  · rw [if_pos (by simpa using hall), if_pos hall]
  · rw [if_neg (by simpa using hall), if_neg hall]
    by_cases hnone : m.atDeadline = true ∧ m.places = g.placesOf (g.me d)
    · rw [if_pos (by simpa using hnone), if_pos hnone]
    · rw [if_neg (by simpa using hnone), if_neg hnone]

theorem barrier_acts {s : State} {n : OpName} {o : Op} {p : MemberPart} {g : Group} {m : MaskMsg} (hw : atWork s) (hruns : collRuns s.dev n o p g)
    (hmask : p.mask = none) (hinst : m.inst = p.inst) (hroots : s.dev.fabric.roots = []) (hplaces : o.f 80 8 = 0) (hcarry : o.f 88 8 = 0)
    (hmatch : m.mismatch = none) (hin : m.carryIn = false) (hkind : o.collKind = 3) :
    acts (.maskReceived m) s fun d => d.mem = s.dev.mem ∧ ended d n (collOutcome s.dev g m).1 (collOutcome s.dev g m).2 := by
  have ⟨_, _, hstalls⟩ := hw
  obtain ⟨hop, hparts, hname, hgroup⟩ := hruns
  let d1 : Dev := { s.dev with fabric.parts := [masked s.dev p m] }
  have htaken := takeMask_eq hroots hparts hinst hmask hin
  have hneeded : neededResults d1 o g m = [] := by
    simp only [neededResults, hkind]
  have hchecked := checkColl_of_masked (d := d1) (p := masked s.dev p m) hop rfl hname hgroup rfl hmatch
  rw [hneeded] at hchecked
  obtain ⟨e, hcalm, hrings, hfinish⟩ := finishColl_eq (d := d1) (n := n) (p := masked s.dev p m) (g := g) (m := m) hplaces hcarry
  have heq : takeMask s.dev m = completeOp e n (collOutcome s.dev g m).1 (collOutcome s.dev g m).2 := by
    rw [htaken, hname]
    exact hchecked.trans hfinish
  have hkept := congrArg Granary.stalls ((completeOp_granary e n (collOutcome s.dev g m).1 (collOutcome s.dev g m).2).trans hcalm.granary)
  have hop' : issuedOp e n = some o := (issuedOp_congr hrings n).trans hop
  exact ⟨_, act_running hw heq (hkept.trans hstalls), (completeOp_mem ..).trans hcalm.mem, ended_completeOp (issuedOp_eq_some hop').1 _ _⟩

theorem maskKept_acts {s : State} {n : OpName} {o : Op} {p : MemberPart} {g : Group} {m : MaskMsg} (hw : atWork s) (hruns : collRuns s.dev n o p g)
    (hmask : p.mask = none) (hinst : m.inst = p.inst) (hroots : s.dev.fabric.roots = []) (hmatch : m.mismatch = none) (hin : m.carryIn = false)
    (hneeded : neededResults s.dev o g m ≠ []) (hresults : p.results = []) :
    acts (.maskReceived m) s fun d => issuedOp d n = some o ∧ d.fabric.parts = [masked s.dev p m] ∧ d.mem = s.dev.mem := by
  have ⟨_, _, hstalls⟩ := hw
  obtain ⟨hop, hparts, hname, hgroup⟩ := hruns
  let d1 : Dev := { s.dev with fabric.parts := [masked s.dev p m] }
  have hchecked := checkColl_of_masked (d := d1) (p := masked s.dev p m) hop rfl hname hgroup rfl hmatch
  have hmissing : ¬ (neededResults d1 o g m).all (masked s.dev p m).results.contains = true := by
    obtain ⟨x, l, hx⟩ := List.exists_cons_of_ne_nil hneeded
    rw [show neededResults d1 o g m = neededResults s.dev o g m from rfl, hx]
    simp [masked, hresults]
  rw [if_neg hmissing] at hchecked
  have heq : takeMask s.dev m = d1 := by
    rw [takeMask_eq hroots hparts hinst hmask hin, hname]
    exact hchecked
  exact ⟨_, act_running hw heq hstalls, hop, rfl, rfl⟩

end Sys2Proof.CollectiveProofs
end

section
/-! SUPPORT. O53, third part: the mask that the coordinator closes at the deadline, and the whole statement (12 R327, R328). -/

namespace Sys2Proof.CollectiveProofs

open Sys2Proof Sys2Proof.Machine Sys2Proof.Safety Sys2Proof.OrgProofs Sys2Proof.LoomKeepProofs

/-! ## What keeps the coordinators -/

/-- The coordinators are as they were, and so is a Granary without configuration. -/
structure Undisturbed (d d' : Dev) : Prop where
  coordinators : d'.fabric.coordinators = d.fabric.coordinators
  granary : d.granary.cfg = none → d'.granary = d.granary

theorem Undisturbed.refl (d : Dev) : Undisturbed d d := ⟨rfl, fun _ => rfl⟩

theorem Undisturbed.trans {d d' d'' : Dev} (h : Undisturbed d d') (h' : Undisturbed d' d'') : Undisturbed d d'' where
  coordinators := h'.coordinators.trans h.coordinators
  granary hcfg := (h'.granary ((congrArg Granary.cfg (h.granary hcfg)).trans hcfg)).trans (h.granary hcfg)

theorem Calm.undisturbed {d d' : Dev} (h : Calm d d') : Undisturbed d d' := ⟨h.coordinators, fun _ => h.granary⟩

theorem undisturbed_foldl {α : Type} {f : Dev → α → Dev} (h : ∀ d x, Undisturbed d (f d x)) (l : List α) (d : Dev) :
    Undisturbed d (l.foldl f d) := by
  induction l generalizing d with
  | nil => exact .refl d
  | cons x l ih => exact (h d x).trans (ih _)

theorem undisturbed_foldl_fst {α β : Type} {f : Dev × β → α → Dev × β} (h : ∀ e x, Undisturbed e.1 (f e x).1) (l : List α) (e : Dev × β) :
    Undisturbed e.1 (l.foldl f e).1 := by
  induction l generalizing e with
  | nil => exact .refl _
  | cons x l ih => exact (h e x).trans (ih _)

theorem undisturbed_logEvent (d : Dev) (ev : Nat) (src : Source) (detail : Nat) (r : Option Nat) : Undisturbed d (logEvent d ev src detail r) :=
  (calm_logEvent ..).undisturbed

theorem undisturbed_completeOp (d : Dev) (n : OpName) (st : Byte) (detail : Nat) : Undisturbed d (completeOp d n st detail) :=
  (calm_completeOp ..).undisturbed

/-! ## Writes of memory -/

theorem undisturbed_noteWord (d : Dev) (bad : Bool) (a : Nat) (r : Option Nat) : Undisturbed d (noteWord d bad a r) := by
  unfold noteWord
  have hbump : Undisturbed d (match regionOf d a with
    | .sram t => bumpSram d t bad
    | _ => d) := by
    split
    · exact ⟨rfl, fun _ => rfl⟩
    · exact .refl d
  exact hbump.trans (undisturbed_logEvent ..)

theorem undisturbed_mem (d : Dev) (m : Memory) : Undisturbed d { d with mem := m } := ⟨rfl, fun _ => rfl⟩

theorem undisturbed_noteFault (d : Dev) (f : Byte × Option Nat) (who : Option OpName) : Undisturbed d (noteFault d f who) := by
  unfold noteFault
  split
  · split
    · exact undisturbed_logEvent ..
    · exact .refl d
  · exact undisturbed_noteWord ..

theorem undisturbed_countAccess (d : Dev) (write : Bool) (a n : Nat) (who : Option OpName) : Undisturbed d (countAccess d write a n who) := by
  obtain ⟨_, e⟩ := countAccess_frame d write a n who
  rw [e]
  exact ⟨rfl, fun _ => rfl⟩

theorem undisturbed_noteEntries (d : Dev) (a n : Nat) (who : Option OpName) : Undisturbed d (noteEntries d a n who) := by
  unfold noteEntries
  split
  · refine undisturbed_foldl (fun d p => ?_) _ _
    split
    · exact .refl d
    · exact undisturbed_noteWord ..
  · exact .refl d

theorem undisturbed_sendRequest (d : Dev) (q : Request) (body : Bytes) : Undisturbed d (sendRequest d q body).1 := by
  have hsent := fun m => (calm_injectMsg d m).1.undisturbed
  unfold sendRequest
  dsimp only
  split
  · exact (hsent _).trans ⟨rfl, fun _ => rfl⟩
  · exact hsent _

theorem undisturbed_peerRequests (d : Dev) (write : Bool) (a : Nat) (data : Bytes) (n : Nat) (who : Option OpName) :
    Undisturbed d (peerRequests d write a data n who) := by
  unfold peerRequests
  split
  · split
    · exact .refl d
    · refine undisturbed_foldl (fun d p => ?_) _ _
      dsimp only
      split
      · exact .refl d
      · exact undisturbed_sendRequest ..
  · exact .refl d

theorem undisturbed_mergeErrors (d : Dev) (who : Option OpName) (a len : Nat) (e : Dev × Option Byte) :
    Undisturbed e.1 (mergeErrors d who a len e).1 := by
  refine undisturbed_foldl_fst (fun e w => ?_) _ _
  split
  · exact .refl _
  · split
    · exact .refl _
    · exact undisturbed_noteWord ..
    · exact undisturbed_noteWord ..
    · exact (undisturbed_mem e.1 _).trans (undisturbed_noteWord ..)

theorem undisturbed_storeBytes (d : Dev) (a : Nat) (data : Bytes) : Undisturbed d (storeBytes d a data) := by
  have hnote : Undisturbed d (noteWrite d a data.length) := by
    unfold noteWrite
    split
    · exact .refl d
    next hwritten => exact ⟨rfl, fun hcfg => absurd (by simp [hcfg]) hwritten⟩
  obtain ⟨_, e⟩ := rawWrite_frame (noteWrite d a data.length) a data
  unfold storeBytes
  rw [e]
  exact hnote.trans ⟨rfl, fun _ => rfl⟩

theorem undisturbed_finishWrite (who : Option OpName) (a : Nat) (data : Bytes) (e : Dev × Option Byte) :
    Undisturbed e.1 (finishWrite who a data e).1 := by
  unfold finishWrite
  split
  · exact .refl _
  · split
    · exact undisturbed_storeBytes ..
    · exact (undisturbed_storeBytes ..).trans (calm_modOp ..).undisturbed

theorem undisturbed_writeMem (d : Dev) (who : Option OpName) (a : Nat) (data : Bytes) : Undisturbed d (writeMem d who a data).1 := by
  cases hfault : accessFault d a data.length true with
  | some f =>
    simp only [writeMem, hfault]
    exact undisturbed_noteFault ..
  | none =>
    have haccess : Undisturbed d
        (peerRequests (noteEntries (countAccess d true a data.length who) a data.length who) true a data data.length who) :=
      ((undisturbed_countAccess ..).trans (undisturbed_noteEntries ..)).trans (undisturbed_peerRequests ..)
    obtain ⟨b, hwrite⟩ := writeMem_eq (who := who) hfault
    rw [hwrite]
    cases b with
    | false => exact haccess.trans (undisturbed_finishWrite who a data (_, none))
    | true => exact (haccess.trans (undisturbed_mergeErrors d who a data.length (_, none))).trans (undisturbed_finishWrite ..)

/-! ## A member that takes what it is given -/

theorem undisturbed_modPart (d : Dev) (n : OpName) (f : MemberPart → MemberPart) : Undisturbed d (modPart d n f) := ⟨rfl, fun _ => rfl⟩

theorem undisturbed_modRoot (d : Dev) (inst : CollName) (k : Nat) (f : RootSegment → RootSegment) : Undisturbed d (modRoot d inst k f) :=
  ⟨rfl, fun _ => rfl⟩

theorem undisturbed_modStep (d : Dev) (k : Nat) (f : StepState → StepState) : Undisturbed d (modStep d k f) := by
  obtain ⟨_, e⟩ := modStep_frame d k f
  rw [e]
  exact ⟨rfl, fun _ => rfl⟩

theorem undisturbed_ite {d e e' : Dev} {c : Prop} [Decidable c] (h : Undisturbed d e) (h' : Undisturbed d e') :
    Undisturbed d (if c then e else e') := by
  split
  · exact h
  · exact h'

/-- An output written by an operation, its list of outputs put back. -/
def keepOuts (n : OpName) (o : Op) (r : Dev × Option Byte) : Dev × Option Byte := (modOp r.1 n fun x => { x with outs := o.outs }, r.2)

theorem undisturbed_keepOuts (d : Dev) (n : OpName) (o : Op) (a : Nat) (data : Bytes) :
    Undisturbed d (keepOuts n o (writeMem d (some n) a data)).1 :=
  (undisturbed_writeMem ..).trans (calm_modOp ..).undisturbed

theorem undisturbed_iteFst {d : Dev} {r r' : Dev × Option Byte} {c : Prop} [Decidable c] (h : Undisturbed d r.1) (h' : Undisturbed d r'.1) :
    Undisturbed d (if c then r else r').1 := by
  split
  · exact h
  · exact h'

theorem undisturbed_finishColl (d : Dev) (n : OpName) (o : Op) (g : Group) (p : MemberPart) (m : MaskMsg) :
    Undisturbed d (finishColl d n o g p m) := by
  unfold finishColl
  dsimp only
  have hplaces : Undisturbed d (if o.f 80 8 = 0 then (d, none) else
      keepOuts n o (writeMem d (some n) (o.f 80 8) (placeMask g.places m.places))).1 :=
    undisturbed_iteFst (.refl d) (undisturbed_keepOuts ..)
  have hlate := fun (e : Dev) (late : Bool) => undisturbed_ite (c := late = true) (undisturbed_logEvent e evCollLate (.ring n.ring) 0 none) (.refl e)
  have hcarry := fun (e : Dev) (c : Bool) => undisturbed_iteFst (c := c = true)
    (undisturbed_keepOuts e n o (o.f 88 8) (carryBytes p.inst.step o.collCount p.values)) (r' := (e, none)) (.refl e)
  have hwritten := (hplaces.trans (hlate _ (!((g.placesOf (g.me d)).all m.places.contains)))).trans
    (hcarry _ (!((g.placesOf (g.me d)).all m.places.contains) && g.late && o.f 88 8 != 0))
  split
  · exact hwritten.trans (undisturbed_completeOp ..)
  · exact hwritten.trans (undisturbed_completeOp ..)
  · refine hwritten.trans (undisturbed_ite ?_ (undisturbed_ite ?_ ?_)) <;> exact undisturbed_completeOp ..

theorem undisturbed_checkColl (d : Dev) (n : OpName) : Undisturbed d (checkColl d n) := by
  unfold checkColl
  split
  · split
    · split
      · exact (undisturbed_completeOp ..).trans (undisturbed_logEvent ..)
      · exact undisturbed_ite (undisturbed_finishColl ..) (.refl d)
    · exact .refl d
  · exact .refl d

theorem undisturbed_takeResult (d : Dev) (inst : CollName) (segment place : Nat) (data : Bytes) :
    Undisturbed d (takeResult d inst segment place data) := by
  unfold takeResult
  split
  · exact .refl d
  next p _ =>
    split
    · exact .refl d
    next o _ =>
      have hwrite := undisturbed_writeMem d (some p.op)
        ((if o.collKind = 2 then o.f 64 8 + place * o.f 72 4 else o.f 64 8) + elemOffset (o.f 62 2) (segment * o.collSeg)) data
      dsimp only
      split
      next hfailed =>
        rw [hfailed] at hwrite
        exact hwrite.trans (undisturbed_completeOp ..)
      next hstored =>
        rw [hstored] at hwrite
        exact (hwrite.trans (undisturbed_modPart ..)).trans (undisturbed_checkColl ..)

theorem undisturbed_giveResult (g : Group) (r : RootSegment) (member place : Nat) (data : Bytes) (d : Dev) :
    Undisturbed d (giveResult g r member place data d) :=
  undisturbed_ite (undisturbed_takeResult ..) (calm_collSend ..).undisturbed

theorem undisturbed_serveRoot (d : Dev) (inst : CollName) (segment : Nat) : Undisturbed d (serveRoot d inst segment) := by
  unfold serveRoot
  split
  next r g _ _ =>
    split
    · exact .refl d
    next m _ =>
      dsimp only
      have hgiven := fun (l : List Nat) (f : RootSegment → RootSegment) => (undisturbed_modRoot d inst segment f).trans
        (undisturbed_foldl (fun d k => undisturbed_foldl (fun d (e : Nat × Bytes) => undisturbed_giveResult g r k e.1 e.2 d)
          (rootResults g r m) d) l _)
      refine undisturbed_ite (.refl d) (undisturbed_ite ?_ (hgiven _ _))
      exact (hgiven _ _).trans ⟨rfl, fun _ => rfl⟩
  · exact .refl d

theorem undisturbed_takeMask (d : Dev) (m : MaskMsg) : Undisturbed d (takeMask d m) := by
  have hserved := fun (roots : List RootSegment) (l : List Nat) =>
    (show Undisturbed d { d with fabric.roots := roots } from ⟨rfl, fun _ => rfl⟩).trans
      (undisturbed_foldl (fun d k => undisturbed_serveRoot d m.inst k) l _)
  unfold takeMask
  dsimp only
  split
  · exact hserved _ _
  · refine undisturbed_ite (hserved _ _) (.trans ?_ (undisturbed_checkColl ..))
    refine .trans ?_ (undisturbed_ite (undisturbed_modStep ..) (.refl _))
    exact (hserved _ _).trans (undisturbed_modPart ..)

theorem undisturbed_giveMask (g : Group) (m : MaskMsg) (d : Dev) (member : Nat) : Undisturbed d (giveMask g m d member) :=
  undisturbed_ite (undisturbed_takeMask ..) (calm_collSend ..).undisturbed

/-! ## The deadline (R327) -/

/-- The mask that a coordinator closes. -/
def closedMask (g : Group) (c : Coordinator) (inst : CollName) (atDeadline : Bool) : MaskMsg :=
  { inst := inst, places := ((List.range g.members.length).filter fun k => c.present.any fun x => x.1 == k).flatMap g.placesOf
    flags := c.present.all fun x => x.2.1, carryIn := c.present.any fun x => x.2.2, atDeadline := atDeadline, mismatch := c.mismatch }

theorem find_coordinator {d : Dev} {inst : CollName} {c : Coordinator} (hone : d.fabric.coordinators = [c]) (hinst : c.inst = inst) :
    d.fabric.coordinators.find? (fun c => c.inst == inst) = some c := by
  simp [hone, hinst]

theorem closeMask_undisturbed {d : Dev} {inst : CollName} {c : Coordinator} {g : Group} (atDeadline : Bool)
    (hone : d.fabric.coordinators = [c]) (hinst : c.inst = inst) (hgroup : getGroup d inst.group = some g) :
    Undisturbed { d with fabric.coordinators := [{ c with closed := some (closedMask g c inst atDeadline) }] } (closeMask d inst atDeadline) := by
  have hmod : modCoordinator d inst (fun c' => { c' with closed := some (closedMask g c inst atDeadline) }) =
      { d with fabric.coordinators := [{ c with closed := some (closedMask g c inst atDeadline) }] } := by
    simp [modCoordinator, hone, hinst]
  unfold closeMask
  rw [find_coordinator hone hinst, hgroup]
  change Undisturbed _ ((List.range g.members.length).foldl (giveMask g (closedMask g c inst atDeadline))
    (modCoordinator d inst fun c' => { c' with closed := some (closedMask g c inst atDeadline) }))
  rw [hmod]
  exact undisturbed_foldl (undisturbed_giveMask g _) _ _

theorem deadline_acts {s : State} {inst : CollName} {c : Coordinator} {g : Group} (hw : atWork s) (hcfg : s.dev.granary.cfg = none)
    (hgroup : getGroup s.dev inst.group = some g) (hone : s.dev.fabric.coordinators = [c]) (hinst : c.inst = inst) (hopen : c.closed = none) :
    if c.t0 + g.windowNs ≤ deviceTime s.dev then
      acts (.collDeadline inst) s fun d => (d.fabric.coordinators.map (·.closed)) = [some (closedMask g c inst true)]
    else exec (.collDeadline inst) s = .next s := by
  have ⟨_, _, hstalls⟩ := hw
  have heq : collDeadline inst s.dev = if c.t0 + g.windowNs ≤ deviceTime s.dev then closeMask s.dev inst true else s.dev := by
    unfold collDeadline
    rw [find_coordinator hone hinst, hgroup]
    simp [hopen]
  by_cases hdue : c.t0 + g.windowNs ≤ deviceTime s.dev
  · have hclosed := closeMask_undisturbed true hone hinst hgroup
    have hkept := congrArg Granary.stalls (hclosed.granary hcfg)
    rw [if_pos hdue] at heq ⊢
    exact ⟨_, act_running hw heq (hkept.trans hstalls), congrArg (List.map Coordinator.closed) hclosed.coordinators⟩
  · rw [if_neg hdue] at heq ⊢
    exact act_running_same hw heq

/-! ## The statement -/

/-- The outcome of a COLL, as its three cases. -/
theorem ended_collOutcome {d e : Dev} {n : OpName} {g : Group} {m : MaskMsg} (h : ended e n (collOutcome d g m).1 (collOutcome d g m).2) :
    let low := leNat ((placeMask g.places m.places).take 8)
    if g.places ≤ m.places.length then ended e n 0x00 0
    else if m.atDeadline = true ∧ m.places = g.placesOf (g.me d) then ended e n 0x41 low
    else ended e n 0x01 low := by
  unfold collOutcome at h
  split
  next hall =>
    rw [if_pos hall] at h
    exact h
  next hsome =>
    rw [if_neg hsome] at h
    split
    next hnone =>
      rw [if_pos hnone] at h
      exact h
    next hown =>
      rw [if_neg hown] at h
      exact h

/-- Settles O53, event by event: what COLL makes, what acknowledgements, segments, PRESENTs and the deadline add, and how a mask, a result and
FAIL_NS end a member's wait. -/
theorem collectives : Obligations.Collectives := by
  unfold Obligations.Collectives
  refine ⟨?_, fun s n o p g count hw hruns hcoord hpresent => segmentAck_acts count hw hruns hcoord hpresent,
    fun s x g hw hgroup hstep hroot hplace hparts hcoordinators hroots hplain _ =>
      segment_acts hw hgroup hstep hroot hplace hparts hcoordinators hroots hplain,
    fun s x g hw hgroup hcoord hmember htwo hwindow hmatch hfresh => present_next hw hgroup hcoord hmember htwo hwindow hmatch hfresh,
    fun s inst c g hw hplain hgroup hone hinst hopen => deadline_acts hw hplain.2 hgroup hone hinst hopen, ?_, ?_,
    fun s n o p g hw hruns hwaits => collFail_acts hw hruns hwaits⟩
  · intro s n o port g hw _ hat hgroup hlate hparts hcoord hroots hreach hlt inF own place len hclear
    exact coll_acts hw hat hgroup hlate hparts hcoord hroots hreach hlt hclear
  · intro s n o p g m hw hruns hmask hinst hroots hplaces hcarry hmatch hin low
    refine ⟨fun hkind => ?_, fun hneeded hresults => maskKept_acts hw hruns hmask hinst hroots hmatch hin hneeded hresults⟩
    obtain ⟨d, hexec, hmem, hended⟩ := barrier_acts hw hruns hmask hinst hroots hplaces hcarry hmatch hin hkind
    exact ⟨d, hexec, hmem, ended_collOutcome hended⟩
  · intro s n o p g x hw hquiet hruns hinst hmask a hclear
    exact result_acts hw hquiet hruns hinst hmask hclear

end Sys2Proof.CollectiveProofs
end
